-- ==== Sys2Proof/Word.lean ====
section
/-! DEFINITION. The word types of the home and their plainest arithmetic (00_scope.md R12 to R17):
bytes, 32-bit registers, 64-byte lines, 72-symbol codewords and the unit numbers. -/

namespace Sys2Proof

/-- A byte (R15). -/
abbrev Byte := BitVec 8
/-- A register word (R667). -/
abbrev Word := BitVec 32
/-- A 64-bit field (R355, R547). -/
abbrev Quad := BitVec 64
/-- A 64-byte line; byte `i` is bits [8i+7:8i] (R15, R16). -/
abbrev Line := BitVec 512
/-- A 72-symbol codeword; symbol `i` is bits [8i+7:8i] (R517). -/
abbrev Codeword := BitVec 576
/-- The metadata word of a codeword (R198). -/
abbrev Meta := BitVec 32
/-- A count of nanoseconds of Meridian time (R11, R278). -/
abbrev Ns := Nat

/-- Slice 0 to slice 127 (R17). -/
abbrev SliceId := Fin 128
/-- Stook 0 to stook 15. -/
abbrev StookId := Fin 16
/-- Intake port 0 to intake port 15. -/
abbrev IntakeId := Fin 16
/-- Media port 0 to media port 31. -/
abbrev MediaId := Fin 32
/-- Partition 0 to partition 63. -/
abbrev PartId := Fin 64
/-- Host port 0 to host port 1023. -/
abbrev HostId := Fin 1024
/-- Rachis site `8y + x`, 0 to 47 (R516). -/
abbrev SiteId := Fin 48
/-- Instant slot 0 to 15 (R294). -/
abbrev SlotId := Fin 16
/-- Mailbox 0 to 65 (R622). -/
abbrev MbxId := Fin 66
/-- Fault source 0x000 to 0x5FF (R547). -/
abbrev SrcId := Fin 1536

/-- Bit `i` of a natural number. -/
def bitN (x i : Nat) : Bool := (x >>> i) % 2 == 1

/-- Bits `[lo + w - 1 : lo]` of a natural number. -/
def fieldN (x lo w : Nat) : Nat := (x >>> lo) % 2 ^ w

/-- 1 for `true`, 0 for `false`. -/
def b2n (b : Bool) : Nat := if b then 1 else 0

/-- A value clamped to the range `lo` to `hi`. -/
def clampN (lo hi x : Nat) : Nat := if x < lo then lo else if hi < x then hi else x

/-- A value inside `lo` to `hi`, or else a default. -/
def rangeOr (lo hi d x : Nat) : Nat := if lo ≤ x ∧ x ≤ hi then x else d

/-- The little-endian bytes of a number (R15). -/
def leBytes : Nat → Nat → List Byte
  | 0, _ => []
  | k + 1, x => BitVec.ofNat 8 x :: leBytes k (x / 256)

/-- The number that little-endian bytes spell (R15). -/
def ofLeBytes : List Byte → Nat
  | [] => 0
  | b :: bs => b.toNat + 256 * ofLeBytes bs

end Sys2Proof
end

