-- ==== Sys2Proof/Syntax.lean ====
section
/-! DEFINITION. The commands that the home takes, one constructor of `Instr` per row of spec/opcode_table.json, and the
operands they carry. The spec gives the rows no bit encoding; the operands are the model's (assumption log 2). The
first operand `t` of every command is the block's own count of ns at the step (assumption log 1). -/

namespace Sys2Proof

/-- The opcodes of M2S Req and M2S RwD: those that the table has rows for (R102), MemRdFwd and MemWrFwd (R95), another opcode of CXL 3.1 (an
M2S RwD or not; whether its definition returns data, and a completion), and an encoding that CXL 3.1 does not define (R76). -/
inductive ReqOp
  | memRd | memRdData | memInv | memInvNt | memClnEvct | memSpecRd | biConflict | memWr | memWrPtl
  | memRdFwd | memWrFwd | other (rwd data cmp : Bool) | undef (rwd : Bool)
  deriving DecidableEq, Repr, Inhabited

/-- MetaField of a request (R102): `other` is a defined field that R95 excludes, `undef` an undefined encoding. -/
inductive MetaField
  | meta0 | noOp | other | undef
  deriving DecidableEq, Repr, Inhabited

/-- MetaValue of a request (R102). -/
inductive MetaValue
  | i | a | s | undef
  deriving DecidableEq, Repr, Inhabited

/-- SnpType of a request (R102). -/
inductive SnpType
  | noOp | snpData | snpCur | snpInv | undef
  deriving DecidableEq, Repr, Inhabited

/-- A decoded M2S Req or M2S RwD message as a port adapter hands it to an intake port (R96). -/
structure M2S where
  port   : IntakeId
  host   : HostId
  offset : Quad
  mf     : MetaField
  mv     : MetaValue
  snp    : SnpType
  tag    : BitVec 16
  /-- An opcode that no row of the table names, in place of the row's own (log 11). -/
  enc    : Option ReqOp := none
  deriving DecidableEq, Repr, Inhabited

/-- DevLoad of R97. -/
inductive DevLoad
  | light | optimal | moderate | severe
  deriving DecidableEq, Repr, Inhabited

/-- The answer of an M2S BIRsp (R119); `block` is a block form, which names no outstanding snoop (R95). -/
inductive BIAns
  | rspI | rspS | rspE | block
  deriving DecidableEq, Repr, Inhabited

/-- The accepted request forms: the rows of R102, with the ticket write of R368 and the mailbox line write of R713. -/
inductive Form
  | rdA | rdS | rdCur | rdI | rdNo | rdData | invA | invI | invNtA | invNtI | clnEvct | specRd | biConf
  | wrI | wrS | wrNo | wrPtl | ticket | mbxLine
  deriving DecidableEq, Repr, Inhabited

/-- The completion an S2M NDR carries (R94). -/
inductive NdrKind
  | cmp | cmpS | cmpE
  deriving DecidableEq, Repr, Inhabited

/-- A unit with a handshake stage or a fallow state (R36, R39, R46 to R49). -/
inductive HsUnit
  | slice (n : SliceId) | stook (k : StookId) | site (x : SiteId) | intake (i : IntakeId)
  | media (m : MediaId) | twin | meridian | winnow | power | alidade
  deriving DecidableEq, Repr, Inhabited

/-- What a read of the two copies of a map line finds of one entry (R438): whether each codeword is uncorrectable, and
the bits in which the entry read differs from what the home wrote. -/
structure MapRead where
  ue0  : Bool
  ue1  : Bool
  dmg0 : Quad
  dmg1 : Quad
  deriving DecidableEq, Repr, Inhabited

/-- A line that the twin's recall returns (R174, R217, R398). -/
structure RecallLine where
  line : BitVec 42
  data : Line
  part : PartId
  pois : Bool
  tgen : BitVec 4
  seq  : Word
  deriving DecidableEq, Repr, Inhabited

/-- What the twin answers about a twin-scope slot (R298): the acknowledgement or refusal of a slot sent to it, or, for a slot that it sent,
that its acknowledgement has arrived. -/
inductive SlotAns
  | ack | refuse | confirmed
  deriving DecidableEq, Repr, Inhabited

/-- The slot that a cancel names (R301): the sender's own, the receiver's own, or a domain-scope slot by its arming block × 16 + number; and
whether it is cancelled on request or for want of a confirmation (R298, R330). -/
inductive SlotRef
  | sent (k : SlotId) (asked : Bool) | own (k : SlotId) (asked : Bool) | domain (key : Fin 512) (asked : Bool)
  deriving DecidableEq, Repr, Inhabited

/-- Who accesses scratch (R268 to R271), or a control page, the other memory-mapped area of a partition's CXL.io function (R91 to R93; log 59). -/
inductive ScrWho
  | alidade | walker | bar (p : PartId) (h : HostId) | page (p : PartId) (h : HostId)
  deriving DecidableEq, Repr, Inhabited

/-- A Meridian exchange message from the twin (R288): its departure and the arrival there of this block's last message, both in the twin's
Meridian time, and what the twin reports of itself. -/
structure TimeExch where
  valid    : Bool
  dep      : Quad
  arr      : Quad
  twinLock : Bool
  twinFree : Bool
  twinEps  : Nat
  deriving DecidableEq, Repr, Inhabited

/-- A notice from the domain root (R291, R292, R299, R300, R313). -/
structure DomNotice where
  sdom     : Nat
  ok       : Bool
  sealed   : Nat
  withdraw : List (Fin 1024)
  /-- R308. The domain's anchor, its number and the epoch length, once there is one. -/
  anchor   : Option (Nat × Nat × Nat)
  deriving DecidableEq, Repr, Inhabited

/-- Where a seal or barrier confirmation comes from (R312, R363); to the domain root, with the ε of the block (R291): a pair's seal and
whether the block is neither UNLOCKED nor FREE (R292, R313), a pair's confirmation of a slot (R299), and that a block's action has taken
effect (R300). A block of the domain is its pair × 2 + its side; a slot is the arming block × 16 + its number. -/
inductive SealSrc
  | slice (n : SliceId) | stook (k : StookId) | barSlice (n : SliceId) (id : Nat) | barTwin (id : Nat)
  | root (block : Fin 32) (epoch eps : Nat) (able : Bool) | slotPair (block : Fin 32) (key : Fin 512) (ok : Bool) (eps : Nat)
  | slotDone (block : Fin 32) (key : Fin 512) (eps : Nat)
  deriving DecidableEq, Repr, Inhabited

/-- The twin handshake of R382, with the media and map agreement of R457. -/
structure Handshake where
  serial     : Quad
  pairNo     : BitVec 16
  unclean    : Bool
  anchor     : Option (Nat × Nat × Nat)
  split      : Bool
  weReplaced : Bool
  takenOver  : Bool
  /-- R412. The twin's TWIN_PAIRING generation is not that of its last pairing. -/
  rePaired   : Bool
  /-- R412, R425. Tracts marked in the twin's split record, and its provisioned tracts (log 59). -/
  marked     : Nat
  placed     : Nat
  mediaOk    : Bool
  roles      : Quad
  deriving DecidableEq, Repr, Inhabited

/-- An echo from the twin (R391): a request, a write with its data, or a doorbell with T_d. -/
structure EchoMsg where
  idx    : BitVec 12
  host   : HostId
  tag    : BitVec 16
  record : Quad
  data   : Option (Line × Quad)
  door   : Option (Quad × Nat)
  deriving DecidableEq, Repr, Inhabited

/-- A settle record (R392) as it reaches the twin. -/
structure SettleRec where
  src    : SliceId
  line   : BitVec 42
  part   : PartId
  seq    : Word
  epoch  : Nat
  echoes : List (IntakeId × BitVec 12)
  full   : Option Line
  deriving DecidableEq, Repr, Inhabited

/-- A message that the switch redelivers to the survivor (R402, R404). -/
inductive Redeliver
  | req (m : M2S) (op : ReqOp) (data : Line) (be : Quad)
  | birsp (port : IntakeId) (host : HostId)
  deriving DecidableEq, Repr, Inhabited

/-- A resync message (R412): a record at the target, or an acknowledgement at the source; or a set's generation record, which the target copies from the
source at the PAIR instant (R415): DG(n), F(n) and the Q(p, n) of partitions. -/
inductive ResyncMsg
  | record (line : BitVec 42) (part : PartId) (data : Line) (pois : Bool) (tgen : BitVec 4) (seq : Word) (epoch : Nat)
  | ack (line : BitVec 42)
  | gen (set : SliceId) (dg fl : BitVec 4) (quiet : List (PartId × BitVec 4))
  deriving DecidableEq, Repr, Inhabited

/-- The directory fields of a metadata word: DIR_STATE and HOLDER (R198). -/
structure DirRec where
  state  : BitVec 2
  holder : BitVec 10
  deriving DecidableEq, Repr, Inhabited

/-- The two ways of a record fetch (R418): the new primary's request for a line's record at the old primary, with the metadata word that the line has on
its media there, and the record that comes back. -/
inductive FetchMsg
  | ask (line : BitVec 42) (found : Meta)
  | record (r : DirRec)
  deriving DecidableEq, Repr, Inhabited

/-- A note of the Bolometer (R444). -/
structure HeatNote where
  tract : BitVec 32
  part  : PartId
  fast  : Bool
  count : Nat
  deriving DecidableEq, Repr, Inhabited

/-- An event that a unit raises outside every other command, as its EVENT packet carries it (R547): a check failure of a
link, a router, a frame, a ring or a replica. -/
structure EvIn where
  kind  : Byte
  line  : BitVec 42
  part  : PartId
  unit  : Fin 1024
  extra : Fin 64
  deriving DecidableEq, Repr, Inhabited

/-- A word of an on-die array (R532, R536): the array kind of R530, the slice or stook, the subarray, the physical
row and column, the word in the row. -/
structure ArrayWord where
  kind : Fin 7
  unit : Fin 128
  sub  : Fin 16
  row  : Nat
  word : Fin 4
  bit  : Fin 72
  deriving DecidableEq, Repr, Inhabited

/-- What an access to a word of an array finds (R534, R540). A correctable word may make a broken bitline, for which the subarray leaves service
(R535): `lost` lists its entries that do not correct as they are read out then (R232, R273), by their place in the bank, with true for word 1 of a
filter entry and for the tag record of a Granary entry. -/
inductive WordFault
  | clean | correctable (lost : List (Nat × Bool)) | uncorrectable
  deriving DecidableEq, Repr, Inhabited

/-- The end of an array lookup of a tracker entry (R154): the entry, and the word that the lookup meets in error (R229, R534). -/
structure Lookup where
  entry : Nat
  err   : Option (ArrayWord × WordFault)
  deriving DecidableEq, Repr, Inhabited

/-- A stage's wait under the handshake watchdog (R36 to R39): its unit, the unit it waits on, and the time of its request. -/
structure HsWait where
  unit  : HsUnit
  on    : HsUnit
  since : Quad
  deriving DecidableEq, Repr, Inhabited

/-- A scratch read (R269 to R271): its bytes, and the ways of the region whose word there is uncorrectable. -/
structure ScrRead where
  size : Nat
  bad  : List Nat
  deriving DecidableEq, Repr, Inhabited

/-- A slot as the twin names it (R298): its number there, and the name of a domain-scope slot (R299). -/
structure PeerSlot where
  num : SlotId
  key : Option (Fin 512)
  deriving DecidableEq, Repr, Inhabited

/-- A domain-scope slot on its way (R299): from the root down, or up to it, and its name. -/
structure TreeSlot where
  down : Bool
  key  : Fin 512
  deriving DecidableEq, Repr, Inhabited

/-- What a forwarded answer says beside its data (R387, R97): the NDR, and the DevLoad of the slice that answers. -/
structure FwdNdr where
  kind : Option NdrKind
  load : DevLoad
  deriving DecidableEq, Repr, Inhabited

/-- The voted fields of R680. -/
inductive VotedField
  | ringMode | dataBase (p : PartId) | dataSize (p : PartId) | winBase (p : PartId) | winSlots (p : PartId)
  | visMode (p : PartId) | partEnable (p : PartId) | membLo (h : HostId) | membHi (h : HostId)
  | hpEnable (h : HostId) | mpEnable (m : MediaId) | slcEnable (n : SliceId) | domainMember | domainRoot
  | twnEnable | takeoverEn | roleLo | roleHi | failsafe
  deriving DecidableEq, Repr, Inhabited

/-- What Alidade's boot loader finds in flash (R605, R657): the selector copies (GEN and ACTIVE when valid), the image
checks, versions and lengths of the boot blocks, and the valid last-gasp records (slot, WARN_TIME). -/
structure BootInput where
  sel0 : Option (Nat × Bool)
  sel1 : Option (Nat × Bool)
  ok0  : Bool
  ok1  : Bool
  ver0 : Nat
  ver1 : Nat
  len0 : Nat
  len1 : Nat
  gasp0 : Option (List Byte)
  gasp1 : Option (List Byte)
  retries : Nat
  deriving DecidableEq, Repr, Inhabited

/-- What start-up step 8 reads from the map region (R220, R382, R412). -/
structure CloseInput where
  closeValid : Bool
  split      : Option (List (BitVec 32))
  roles      : Quad
  /-- R412. The TWIN_PAIRING generation in force is not that of the last pairing. -/
  rePaired   : Bool
  deriving DecidableEq, Repr, Inhabited

/-- A move-journal entry as start-up finds it (R467). -/
structure JournalIn where
  tract   : BitVec 32
  oldPort : MediaId
  oldMt   : Nat
  newPort : MediaId
  newMt   : Nat
  gen     : BitVec 4
  retire  : Bool
  deriving DecidableEq, Repr, Inhabited

/-- What start-up step 9 reads from the map region (R218, R309, R354, R467, R609): DG and F of each set, quiet
generations that differ from F, the persisted epoch, the map entries and ledgers in use, and the journal. -/
structure GenInput where
  readable : Bool
  dg       : List (BitVec 4)
  floor    : List (BitVec 4)
  quiet    : List (PartId × SliceId × BitVec 4)
  epoch    : Option Nat
  map      : List (BitVec 32 × Quad)
  roots    : List (Nat × Word)
  ports    : List (MediaId × Nat × Bool)
  used     : List (MediaId × Nat)
  retired  : List (MediaId × Nat)
  journal  : List JournalIn
  deriving DecidableEq, Repr, Inhabited

/-- What the twin's placement engine tells about a tract: a map record (R436), or a step of a move that its engine decides: its start, the commit batch
that it joins, its end before the commit (R458, R459, R461; log 8). -/
inductive MapMsg
  | entry (e : Quad)
  | move (old new : MediaId × Nat) (gen : BitVec 4) (retire : Bool)
  | batch (b : Nat)
  | abandon
  deriving DecidableEq, Repr, Inhabited

/-- The rails whose good inputs R31 lists. -/
inductive Rail
  | ret | array | core | otp
  deriving DecidableEq, Repr, Inhabited

/-- A packet named by its stream (R507): a host request of an intake port to a slice, or a twin-bound packet. -/
inductive StreamRef
  | req (i : IntakeId) (n : SliceId) (num : BitVec 12)
  | twinSlice (n : SliceId) (num : BitVec 12)
  | twinIntake (i : IntakeId) (num : BitVec 12)
  deriving DecidableEq, Repr, Inhabited

/-- An ERR packet from a sink to its source (R508), naming the fenced slice and the source's transaction. -/
inductive SinkErr
  | intake (i : IntakeId) (n : SliceId) (tag : Nat)
  | bisnp (n : SliceId) (tag : Nat)
  | walk (n : SliceId) (tag : Nat)
  | scratch (n : SliceId) (who : ScrWho)
  deriving DecidableEq, Repr, Inhabited

/-- Where a media-port packet that needs a relay is bound (R488). -/
inductive RelayDest
  | walker (id : Nat) | winnow (kind : Byte) | engine (id : Nat)
  deriving DecidableEq, Repr, Inhabited

/-- A twin packing buffer (R486). -/
inductive PackRef
  | echo (i : IntakeId) | release (i : IntakeId) | settle (n : SliceId)
  deriving DecidableEq, Repr, Inhabited

/-- A CREDIT packet in flight (R501). -/
inductive CreditRef
  | stream (i : IntakeId) (n : SliceId) | event (s : SrcId) (seq : BitVec 16) | snoop (i : IntakeId) (n : SliceId)
  | twinSlice (n : SliceId) | twinIntake (i : IntakeId) | media (m : MediaId) (n : SliceId)
  deriving DecidableEq, Repr, Inhabited

/-- A mailbox command as a caller hands it in (R624, R625): the mailbox, the caller's host port on a partition mailbox,
the caller's TAG, the input payload, and the seal as sampled at the start of the command (R597). -/
structure Mbx where
  mb      : MbxId
  host    : HostId
  tag     : Word
  input   : List Byte
  otpSeal : Bool
  deriving DecidableEq, Repr, Inhabited

/-- The commands of the home: one constructor per row of spec/opcode_table.json. -/
inductive Instr
  /-- MEM_RD (R105). -/
  | memRd (t : Ns) (m : M2S)
  /-- MEM_RD_DATA (R105). -/
  | memRdData (t : Ns) (m : M2S)
  /-- MEM_INV (R106). -/
  | memInv (t : Ns) (m : M2S)
  /-- MEM_INV_NT (R107). -/
  | memInvNt (t : Ns) (m : M2S)
  /-- MEM_CLN_EVCT (R110). -/
  | memClnEvct (t : Ns) (m : M2S)
  /-- MEM_SPEC_RD (R103). -/
  | memSpecRd (t : Ns) (m : M2S)
  /-- BI_CONFLICT (R122). -/
  | biConflict (t : Ns) (m : M2S)
  /-- MEM_WR (R108). -/
  | memWr (t : Ns) (m : M2S) (data : Line)
  /-- MEM_WR_PTL (R256). -/
  | memWrPtl (t : Ns) (m : M2S) (data : Line) (be : Quad)
  /-- BI_RSP (R119). -/
  | biRsp (t : Ns) (port : IntakeId) (host : HostId) (line : BitVec 42) (bitag : Nat) (ans : BIAns)
  /-- HOLD_TIMEOUT (R67). -/
  | holdTimeout (t : Ns) (part : PartId)
  /-- INTAKE_ARBITRATION (R144). -/
  | intakeArbitration (t : Ns) (n : SliceId)
  /-- FILTER_LOOKUP_DONE (R154); the word of the slice's filter bank that the lookup meets in error, if any (R229). -/
  | filterLookupDone (t : Ns) (n : SliceId) (e : Lookup)
  /-- GRANARY_LOOKUP_DONE (R154); the word of the slice's Granary bank that the lookup meets in error, if any (R534). -/
  | granaryLookupDone (t : Ns) (n : SliceId) (e : Lookup)
  /-- BISNP_ISSUE (R165). -/
  | bisnpIssue (t : Ns) (n : SliceId)
  /-- SNOOP_TIMEOUT (R124). -/
  | snoopTimeout (t : Ns) (port : IntakeId) (bitag : Nat)
  /-- MEDIA_READ_RETURN (R112). -/
  | mediaReadReturn (t : Ns) (m : MediaId) (id : Nat) (cw : Codeword)
  /-- MEDIA_RMW (R191). -/
  | mediaRmw (t : Ns) (m : MediaId) (id : Nat) (cw : Codeword)
  /-- MEDIA_WRITE_ACCEPTED (R253). -/
  | mediaWriteAccepted (t : Ns) (m : MediaId) (id : Nat)
  /-- MEDIA_WRITE_COMPLETE (R263). -/
  | mediaWriteComplete (t : Ns) (m : MediaId) (id : Nat)
  /-- MEDIA_READ_TIMEOUT (R528). -/
  | mediaReadTimeout (t : Ns) (m : MediaId) (id : Nat)
  /-- MEDIA_WRITE_TIMEOUT (R528). -/
  | mediaWriteTimeout (t : Ns) (m : MediaId) (id : Nat)
  /-- MEDIA_PORT_FAULT (R554). -/
  | mediaPortFault (t : Ns) (m : MediaId) (kind : Byte)
  /-- TRACT_WALK (R438). -/
  | tractWalk (t : Ns) (n : SliceId) (e : Nat) (rd : MapRead)
  /-- WALK_RESPONSE (R437). -/
  | walkResponse (t : Ns) (n : SliceId) (e : Nat)
  /-- TRACT_FREEZE (R440). -/
  | tractFreeze (t : Ns) (tract : BitVec 32)
  /-- THAW_ATTEMPT (R442). -/
  | thawAttempt (t : Ns) (tract : BitVec 32) (got : Option Quad) (lineOk : Bool)
  /-- FROZEN_WRITE_HOLD_EXPIRY (R441). -/
  | frozenWriteHoldExpiry (t : Ns) (tract : BitVec 32)
  /-- NOTE_ACK (R157). -/
  | noteAck (t : Ns) (port : IntakeId) (n : SliceId) (seq : Word) (tag : Nat)
  /-- WRITE_SETTLE (R158). -/
  | writeSettle (t : Ns) (n : SliceId) (seq : Word)
  /-- TWIN_ACK (R393). -/
  | twinAck (t : Ns) (n : SliceId) (seq : Word)
  /-- INTAKE_RESPONSE_RELEASE (R161). -/
  | intakeResponseRelease (t : Ns) (port : IntakeId) (tag : Nat)
  /-- HOLD_OVERRUN (R167). -/
  | holdOverrun (t : Ns) (n : SliceId) (e : Nat)
  /-- TRACKER_AGE (R169). -/
  | trackerAge (t : Ns) (n : SliceId) (e : Nat)
  /-- HANDSHAKE_WATCHDOG (R37): the unit whose stage waits, the unit it waits on, and when it raised its request. -/
  | handshakeWatchdog (t : Ns) (u : HsWait)
  /-- SLICE_FALLOW_ENTRY (R46). -/
  | sliceFallowEntry (t : Ns) (n : SliceId)
  /-- STOOK_FALLOW_ENTRY (R47). -/
  | stookFallowEntry (t : Ns) (k : StookId)
  /-- ROUTER_FALLOW_ENTRY (R48). -/
  | routerFallowEntry (t : Ns) (x : SiteId)
  /-- UNIT_WAKE (R49). -/
  | unitWake (t : Ns) (u : HsUnit)
  /-- DG_ADVANCE_PERSISTED (R221). -/
  | dgAdvancePersisted (t : Ns) (n : SliceId)
  /-- RECALL_RETURN (R174). -/
  | recallReturn (t : Ns) (n : SliceId) (lines : List RecallLine)
  /-- RECALL_GAP_TIMEOUT (R509). -/
  | recallGapTimeout (t : Ns) (n : SliceId)
  /-- REPLAY_LIST (R174). -/
  | replayList (t : Ns) (port : IntakeId) (n : SliceId)
  /-- END_OF_REPLAY (R175). -/
  | endOfReplay (t : Ns) (n : SliceId)
  /-- SLICE_PREPARE (R185). -/
  | slicePrepare (t : Ns) (n : SliceId)
  /-- HANDOVER_OVERRUN (R187). -/
  | handoverOverrun (t : Ns) (n : SliceId)
  /-- ENERGY_OK_FALL (R263). -/
  | energyOkFall (t : Ns)
  /-- ENERGY_OK_RISE (R265). -/
  | energyOkRise (t : Ns)
  /-- GRN_CTL_WRITE (R266). -/
  | grnCtlWrite (t : Ns) (n : SliceId) (v : Word)
  /-- SCRATCH_READ (R269). -/
  | scratchRead (t : Ns) (who : ScrWho) (way : Fin 12) (off : BitVec 22) (read : ScrRead)
  /-- SCRATCH_WRITE (R269). -/
  | scratchWrite (t : Ns) (who : ScrWho) (way : Fin 12) (off : BitVec 22) (size : Nat) (data : Line)
  /-- TIME_REF_LOSS (R31). -/
  | timeRefLoss (t : Ns)
  /-- ALIGN_WORD (R282). -/
  | alignWord (t : Ns) (count : Quad) (check : Byte) (sub : BitVec 16)
  /-- ALIGN_WORD_MISSING (R283). -/
  | alignWordMissing (t : Ns)
  /-- MERIDIAN_LOCK (R280). -/
  | meridianLock (t : Ns)
  /-- HOLDOVER_EXPIRY (R286). -/
  | holdoverExpiry (t : Ns)
  /-- TWIN_TIME_EXCHANGE (R288). -/
  | twinTimeExchange (t : Ns) (x : TimeExch)
  /-- TWIN_EXCHANGE_INVALID (R289). -/
  | twinExchangeInvalid (t : Ns)
  /-- DOMAIN_NOTICE (R291). -/
  | domainNotice (t : Ns) (x : DomNotice)
  /-- DOMAIN_NOTICE_TIMEOUT (R291). -/
  | domainNoticeTimeout (t : Ns)
  /-- INSTANT_ARM (R297). -/
  | instantArm (t : Ns) (k : SlotId)
  /-- INSTANT_DISARM (R305). -/
  | instantDisarm (t : Ns) (k : SlotId)
  /-- TWIN_SLOT_RECEIVE (R298). -/
  | twinSlotReceive (t : Ns) (k : PeerSlot) (kind : BitVec 4) (scope : BitVec 2) (param : BitVec 16) (time : Quad)
  /-- TWIN_SLOT_ACK (R298). -/
  | twinSlotAck (t : Ns) (k : SlotId) (ans : SlotAns)
  /-- SLOT_CONFIRM_DEADLINE (R298). -/
  | slotConfirmDeadline (t : Ns) (k : SlotId)
  /-- DOMAIN_SLOT_CONFIRM (R299). -/
  | domainSlotConfirm (t : Ns) (key : Fin 512)
  /-- SLOT_CANCEL_RECEIVE (R301). -/
  | slotCancelReceive (t : Ns) (v : SlotRef)
  /-- EPOCH_BOUNDARY (R306). -/
  | epochBoundary (t : Ns)
  /-- EPOCH_LEN_INSTANT (R306). -/
  | epochLenInstant (t : Ns) (k : SlotId)
  /-- PLATE_EXPOSE_INSTANT (R315). -/
  | plateExposeInstant (t : Ns) (k : SlotId)
  /-- SNAPSHOT_INSTANT (R324). -/
  | snapshotInstant (t : Ns) (k : SlotId)
  /-- RACHIS_MODE_INSTANT (R505). -/
  | rachisModeInstant (t : Ns) (k : SlotId)
  /-- TRACT_COMMIT_INSTANT (R465). -/
  | tractCommitInstant (t : Ns) (k : SlotId)
  /-- ENABLE_INSTANT (R697). -/
  | enableInstant (t : Ns) (k : SlotId)
  /-- ROLE_MOVE_INSTANT (R417). -/
  | roleMoveInstant (t : Ns) (k : SlotId)
  /-- CAPACITY_INSTANT (R468). -/
  | capacityInstant (t : Ns) (k : SlotId)
  /-- PAIR_INSTANT (R415). -/
  | pairInstant (t : Ns) (k : SlotId)
  /-- SEAL_CONFIRM (R312). -/
  | sealConfirm (t : Ns) (src : SealSrc)
  /-- PAIR_SEAL_EXCHANGE (R313). -/
  | pairSealExchange (t : Ns) (twinSealed : Quad)
  /-- SEALED_EPOCH_PERSIST (R309). -/
  | sealedEpochPersist (t : Ns)
  /-- BARRIER_HOST (R365). -/
  | barrierHost (t : Ns) (host : HostId) (part : PartId) (word : Quad) (aligned : Bool)
  /-- BARRIER_PARTITION (R363). -/
  | barrierPartition (t : Ns) (host : HostId) (part : PartId) (word : Quad) (aligned : Bool)
  /-- BARRIER_TWIN (R363). -/
  | barrierTwin (t : Ns) (host : HostId) (part : PartId) (word : Quad) (aligned : Bool)
  /-- BARRIER_DOMAIN (R361). -/
  | barrierDomain (t : Ns) (host : HostId) (part : PartId) (word : Quad) (aligned : Bool)
  /-- BARRIER_COMPLETE (R367). -/
  | barrierComplete (t : Ns) (port : IntakeId) (id : Nat)
  /-- TWIN_HANDSHAKE (R382). -/
  | twinHandshake (t : Ns) (x : Handshake)
  /-- SEEKING_TIMEOUT (R383). -/
  | seekingTimeout (t : Ns)
  /-- TWIN_ECHO_RECEIVE (R395). -/
  | twinEchoReceive (t : Ns) (port : IntakeId) (x : EchoMsg)
  /-- SETTLE_RECORD_APPLY (R393). -/
  | settleRecordApply (t : Ns) (x : SettleRec)
  /-- TWIN_RELEASE_RECEIVE (R394). -/
  | twinReleaseReceive (t : Ns) (port : IntakeId) (echo : BitVec 12)
  /-- CLEAN_NOTICE (R396). -/
  | cleanNotice (t : Ns) (line : BitVec 42) (seq : Word)
  /-- CLEAN_REQUEST (R397). -/
  | cleanRequest (t : Ns) (line : BitVec 42)
  /-- TWIN_RECALL (R398). -/
  | twinRecall (t : Ns) (n : SliceId)
  /-- HEARTBEAT_LOSS (R399). -/
  | heartbeatLoss (t : Ns)
  /-- TWIN_LINK_DOWN (R399). -/
  | twinLinkDown (t : Ns)
  /-- TWIN_LINK_UP (R411). -/
  | twinLinkUp (t : Ns)
  /-- PEER_LINKS_DOWN (R400). -/
  | peerLinksDown (t : Ns)
  /-- LOSS_REPORT_TIMEOUT (R400). -/
  | lossReportTimeout (t : Ns)
  /-- ABDICATION_RECEIVE (R400). -/
  | abdicationReceive (t : Ns) (drill : Bool)
  /-- CLAIM_COMPLETE (R403). -/
  | claimComplete (t : Ns) (redelivered : List Redeliver)
  /-- CLAIM_LOST (R402). -/
  | claimLost (t : Ns)
  /-- FORWARDED_RECORD (R387). -/
  | forwardedRecord (t : Ns) (port : IntakeId) (m : M2S) (op : ReqOp) (data : Line) (be : Quad)
  /-- FORWARD_HOLD_TIMEOUT (R387). -/
  | forwardHoldTimeout (t : Ns) (port : IntakeId) (tag : Nat)
  /-- RESYNC_WALK_LINE (R412). -/
  | resyncWalkLine (t : Ns) (n : SliceId) (line : BitVec 42)
  /-- RESYNC_RECORD (R412). -/
  | resyncRecord (t : Ns) (x : ResyncMsg)
  /-- DRAINED_MARKER (R417). -/
  | drainedMarker (t : Ns) (part : PartId)
  /-- ROUTE_CLOSED_MARKER (R417). -/
  | routeClosedMarker (t : Ns) (part : PartId)
  /-- RECORD_FETCH (R418). -/
  | recordFetch (t : Ns) (n : SliceId) (e : Nat) (r : FetchMsg)
  /-- ROLE_MOVE_TIMEOUT (R419). -/
  | roleMoveTimeout (t : Ns) (k : SlotId)
  /-- POWER_FAIL_NOTICE (R604). -/
  | powerFailNotice (t : Ns)
  /-- POWER_FAIL_NOTICE_TIMEOUT (R604). -/
  | powerFailNoticeTimeout (t : Ns)
  /-- MAP_RECORD (R436). -/
  | mapRecord (t : Ns) (tract : BitVec 32) (entry : MapMsg)
  /-- HEAT_NOTE (R444). -/
  | heatNote (t : Ns) (k : StookId) (note : HeatNote)
  /-- HEAT_WINDOW_END (R445). -/
  | heatWindowEnd (t : Ns)
  /-- COLD_SCAN (R449). -/
  | coldScan (t : Ns)
  /-- HELIOSTAT_ROUND (R450). -/
  | heliostatRound (t : Ns)
  /-- MOVE_START_ACK (R459). -/
  | moveStartAck (t : Ns) (tract : BitVec 32)
  /-- MOVE_COPIED (R459). -/
  | moveCopied (t : Ns) (tract : BitVec 32)
  /-- COMMIT_MARK (R466). -/
  | commitMark (t : Ns) (n : SliceId) (i : IntakeId)
  /-- MOVE_DONE (R459). -/
  | moveDone (t : Ns) (tract : BitVec 32)
  /-- PATROL_SCRUB_LINE (R539). -/
  | patrolScrubLine (t : Ns) (n : SliceId) (line : BitVec 42)
  /-- PATROL_PASS_COMPLETE (R223). -/
  | patrolPassComplete (t : Ns)
  /-- ARRAY_SCRUB_WORD (R540). -/
  | arrayScrubWord (t : Ns) (w : ArrayWord) (fault : WordFault)
  /-- LANE_ENTRY_EXPIRY (R524). -/
  | laneEntryExpiry (t : Ns) (k : StookId) (port : MediaId) (sym : Fin 72) (bit : Fin 8)
  /-- LANE_STEER_DONE (R525). -/
  | laneSteerDone (t : Ns) (m : MediaId)
  /-- WINNOW_EVENT (R555). -/
  | winnowEvent (t : Ns) (src : SrcId) (raised : Option EvIn)
  /-- EVENT_RESEND (R548). -/
  | eventResend (t : Ns) (src : SrcId)
  /-- EVENT_LINE (R548). -/
  | eventLine (t : Ns) (u : HsUnit)
  /-- SHADOW_END (R559). -/
  | shadowEnd (t : Ns) (recno : Word)
  /-- ALIVE_TOGGLE (R569). -/
  | aliveToggle (t : Ns)
  /-- VOTE_SWEEP (R681). -/
  | voteSweep (t : Ns) (f : VotedField) (c0 c1 c2 : Word)
  /-- FIRST_CLEAR (R562). -/
  | firstClear (t : Ns)
  /-- WINNOW_INJECT (R576). -/
  | winnowInject (t : Ns) (v : Word)
  /-- ALIDADE_WATCHDOG (R554). -/
  | alidadeWatchdog (t : Ns)
  /-- RAILS_GOOD (R586). -/
  | railsGood (t : Ns) (factoryMode : Bool)
  /-- OTP_LOAD (R615). -/
  | otpLoad (t : Ns) (r0 r1 r2 : BitVec 16384)
  /-- ARRAY_BIST (R536). -/
  | arrayBist (t : Ns) (failing : List (BitVec 23))
  /-- ALIDADE_BOOT (R657). -/
  | alidadeBoot (t : Ns) (x : BootInput)
  /-- STARTUP_DIRECTORY_DECISION (R220). -/
  | startupDirectoryDecision (t : Ns) (x : CloseInput)
  /-- STARTUP_GENERATION_ACT (R220). -/
  | startupGenerationAct (t : Ns) (x : GenInput)
  /-- STARTUP_REFRESH (R224). -/
  | startupRefresh (t : Ns)
  /-- MERIDIAN_LOCK_TIMEOUT (R609). -/
  | meridianLockTimeout (t : Ns)
  /-- RAIL_FAULT (R589). -/
  | railFault (t : Ns) (rail : Rail)
  /-- RAIL_GLITCH (R32). -/
  | railGlitch (t : Ns) (rail : Rail)
  /-- MARGIN_WRITE (R592). -/
  | marginWrite (t : Ns) (v : Word)
  /-- MARGIN_STEP (R592). -/
  | marginStep (t : Ns)
  /-- SERVICE_BUTTON_RELEASE (R595). -/
  | serviceButtonRelease (t : Ns) (held : Ns)
  /-- PRESENCE_EXPIRY (R596). -/
  | presenceExpiry (t : Ns)
  /-- FORCED_OFF (R598). -/
  | forcedOff (t : Ns)
  /-- POWER_FAIL_WARN (R599). -/
  | powerFailWarn (t : Ns)
  /-- POWER_FAIL_DRAIN_DONE (R599). -/
  | powerFailDrainDone (t : Ns)
  /-- LAST_GASP_DONE (R599). -/
  | lastGaspDone (t : Ns)
  /-- FLASH_DESCRIPTOR_DONE (R658). -/
  | flashDescriptorDone (t : Ns) (i : Fin 64) (status : Byte)
  /-- STREAM_GAP_TIMEOUT (R507). -/
  | streamGapTimeout (t : Ns) (x : StreamRef)
  /-- RESEND (R507). -/
  | resend (t : Ns) (x : StreamRef)
  /-- SINK_ERR (R508). -/
  | sinkErr (t : Ns) (x : SinkErr)
  /-- MEDIA_RELAY (R488). -/
  | mediaRelay (t : Ns) (m : MediaId) (dest : RelayDest)
  /-- PACK_BUFFER_TIMEOUT (R486). -/
  | packBufferTimeout (t : Ns) (x : PackRef)
  /-- CREDIT_RETURN (R501). -/
  | creditReturn (t : Ns) (x : CreditRef)
  /-- RING_WRITE_DELIVERED (R672). -/
  | ringWriteDelivered (t : Ns)
  /-- ALIAS_WRITE (R666). -/
  | aliasWrite (t : Ns) (off : BitVec 24) (v : Word) (len : Nat)
  /-- MERIDIAN_WORD0_READ (R332). -/
  | meridianWord0Read (t : Ns) (off : BitVec 24)
  /-- REGISTER_WRITE (R677). -/
  | registerWrite (t : Ns) (off : BitVec 24) (v : Word) (len : Nat)
  /-- BG_ABORT (R630). -/
  | bgAbort (t : Ns) (mb : MbxId)
  /-- COMMAND_TIMEOUT (R628). -/
  | commandTimeout (t : Ns) (mb : MbxId)
  /-- BACKGROUND_COMPLETE (R629). -/
  | backgroundComplete (t : Ns) (mb : MbxId) (status : Fin 9)
  /-- IDENTIFY (R637). -/
  | identify (t : Ns) (c : Mbx)
  /-- BACKGROUND_OPERATION_STATUS (R637). -/
  | backgroundOperationStatus (t : Ns) (c : Mbx)
  /-- REQUEST_ABORT_BACKGROUND_OP (R630). -/
  | requestAbortBackgroundOp (t : Ns) (c : Mbx)
  /-- GET_EVENT_RECORDS (R637). -/
  | getEventRecords (t : Ns) (c : Mbx)
  /-- CLEAR_EVENT_RECORDS (R637). -/
  | clearEventRecords (t : Ns) (c : Mbx)
  /-- GET_EVENT_INTERRUPT_POLICY (R637). -/
  | getEventInterruptPolicy (t : Ns) (c : Mbx)
  /-- SET_EVENT_INTERRUPT_POLICY (R637). -/
  | setEventInterruptPolicy (t : Ns) (c : Mbx)
  /-- GET_FW_INFO (R661). -/
  | getFwInfo (t : Ns) (c : Mbx)
  /-- TRANSFER_FW (R661). -/
  | transferFw (t : Ns) (c : Mbx)
  /-- ACTIVATE_FW (R661). -/
  | activateFw (t : Ns) (c : Mbx) (digestOk : Bool)
  /-- GET_TIMESTAMP (R637). -/
  | getTimestamp (t : Ns) (c : Mbx)
  /-- SET_TIMESTAMP (R637). -/
  | setTimestamp (t : Ns) (c : Mbx)
  /-- GET_SUPPORTED_LOGS (R637). -/
  | getSupportedLogs (t : Ns) (c : Mbx)
  /-- GET_LOG (R637). -/
  | getLog (t : Ns) (c : Mbx)
  /-- IDENTIFY_MEMORY_DEVICE (R637). -/
  | identifyMemoryDevice (t : Ns) (c : Mbx)
  /-- GET_PARTITION_INFO (R637). -/
  | getPartitionInfo (t : Ns) (c : Mbx)
  /-- GET_HEALTH_INFO (R637). -/
  | getHealthInfo (t : Ns) (c : Mbx)
  /-- GET_ALERT_CONFIGURATION (R637). -/
  | getAlertConfiguration (t : Ns) (c : Mbx)
  /-- SET_ALERT_CONFIGURATION (R637). -/
  | setAlertConfiguration (t : Ns) (c : Mbx)
  /-- GET_SHUTDOWN_STATE (R637). -/
  | getShutdownState (t : Ns) (c : Mbx)
  /-- SET_SHUTDOWN_STATE (R637). -/
  | setShutdownState (t : Ns) (c : Mbx)
  /-- GET_LSA (R637). -/
  | getLsa (t : Ns) (c : Mbx)
  /-- SET_LSA (R637). -/
  | setLsa (t : Ns) (c : Mbx)
  /-- GET_POISON_LIST (R136). -/
  | getPoisonList (t : Ns) (c : Mbx)
  /-- CLEAR_POISON (R713). -/
  | clearPoison (t : Ns) (c : Mbx)
  /-- SANITIZE (R637). -/
  | sanitize (t : Ns) (c : Mbx)
  /-- SECURE_ERASE (R637). -/
  | secureErase (t : Ns) (c : Mbx)
  /-- UNSUPPORTED_COMMAND (R637). -/
  | unsupportedCommand (t : Ns) (c : Mbx) (opcode : BitVec 16)
  /-- PART_CREATE (R643). -/
  | partCreate (t : Ns) (c : Mbx)
  /-- PART_RESIZE (R643). -/
  | partResize (t : Ns) (c : Mbx)
  /-- PART_DESTROY (R643). -/
  | partDestroy (t : Ns) (c : Mbx)
  /-- PART_QUERY (R642). -/
  | partQuery (t : Ns) (c : Mbx)
  /-- PART_ENABLE_SET (R642). -/
  | partEnableSet (t : Ns) (c : Mbx)
  /-- PART_ENABLE_CLEAR (R642). -/
  | partEnableClear (t : Ns) (c : Mbx)
  /-- PART_RESTART (R68). -/
  | partRestart (t : Ns) (c : Mbx)
  /-- PART_QUIET (R225). -/
  | partQuiet (t : Ns) (c : Mbx)
  /-- PART_SCRATCH_ASSIGN (R642). -/
  | partScratchAssign (t : Ns) (c : Mbx)
  /-- PART_SCRATCH_RELEASE (R642). -/
  | partScratchRelease (t : Ns) (c : Mbx)
  /-- HOST_PORT_SET (R642). -/
  | hostPortSet (t : Ns) (c : Mbx)
  /-- HOST_PORT_RESTORE (R228). -/
  | hostPortRestore (t : Ns) (c : Mbx)
  /-- TICKET_AREA (R356). -/
  | ticketArea (t : Ns) (c : Mbx)
  /-- PART_SET (R642). -/
  | partSet (t : Ns) (c : Mbx)
  /-- PLACE_GOAL (R645). -/
  | placeGoal (t : Ns) (c : Mbx)
  /-- PLACE_QUERY (R645). -/
  | placeQuery (t : Ns) (c : Mbx)
  /-- TRACT_RETHAW (R645). -/
  | tractRethaw (t : Ns) (c : Mbx)
  /-- TRACT_REBUILD (R645). -/
  | tractRebuild (t : Ns) (c : Mbx)
  /-- PLATE_EXPOSE (R646). -/
  | plateExpose (t : Ns) (c : Mbx)
  /-- PLATE_BIND (R646). -/
  | plateBind (t : Ns) (c : Mbx)
  /-- PLATE_UNBIND (R646). -/
  | plateUnbind (t : Ns) (c : Mbx)
  /-- PLATE_RELEASE (R323). -/
  | plateRelease (t : Ns) (c : Mbx)
  /-- PLATE_GROUP_NAME (R646). -/
  | plateGroupName (t : Ns) (c : Mbx)
  /-- PLATE_GROUP_DISSOLVE (R646). -/
  | plateGroupDissolve (t : Ns) (c : Mbx)
  /-- PLATE_QUERY (R646). -/
  | plateQuery (t : Ns) (c : Mbx)
  /-- EPOCH_LEN (R646). -/
  | epochLen (t : Ns) (c : Mbx)
  /-- BARRIER (R648). -/
  | barrier (t : Ns) (c : Mbx)
  /-- BARRIER_LIST (R648). -/
  | barrierList (t : Ns) (c : Mbx)
  /-- TWIN_PAIR (R649). -/
  | twinPair (t : Ns) (c : Mbx)
  /-- TWIN_STATUS (R649). -/
  | twinStatus (t : Ns) (c : Mbx)
  /-- TWIN_DRILL (R420). -/
  | twinDrill (t : Ns) (c : Mbx)
  /-- ROLE_MOVE (R649). -/
  | roleMove (t : Ns) (c : Mbx)
  /-- BLOCK_RESTART (R649). -/
  | blockRestart (t : Ns) (c : Mbx)
  /-- CAP_ADD (R468). -/
  | capAdd (t : Ns) (c : Mbx) (size pairSize : Nat)
  /-- CAP_REMOVE (R469). -/
  | capRemove (t : Ns) (c : Mbx)
  /-- CAP_QUERY (R650). -/
  | capQuery (t : Ns) (c : Mbx)
  /-- ALM_READ (R651). -/
  | almRead (t : Ns) (c : Mbx)
  /-- FIRST_FAULT_READ (R651). -/
  | firstFaultRead (t : Ns) (c : Mbx)
  /-- FIRST_FAULT_CLEAR (R562). -/
  | firstFaultClear (t : Ns) (c : Mbx)
  /-- CE_LOG (R651). -/
  | ceLog (t : Ns) (c : Mbx)
  /-- LASTGASP (R651). -/
  | lastgasp (t : Ns) (c : Mbx)
  /-- SNAPSHOT (R652). -/
  | snapshot (t : Ns) (c : Mbx)
  /-- COUNTER_READ (R683). -/
  | counterRead (t : Ns) (c : Mbx)
  /-- OTP_REPAIR (R537). -/
  | otpRepair (t : Ns) (c : Mbx)
  /-- OTP_DEFAULTS (R653). -/
  | otpDefaults (t : Ns) (c : Mbx)
  /-- OTP_FLASH_PW (R653). -/
  | otpFlashPw (t : Ns) (c : Mbx)
  /-- OTP_FACTORY_LOCK (R617). -/
  | otpFactoryLock (t : Ns) (c : Mbx)
  /-- OTP_READ (R653). -/
  | otpRead (t : Ns) (c : Mbx)
  /-- RETIRE_RANGE (R471). -/
  | retireRange (t : Ns) (c : Mbx)
  /-- RETIRE_CLEAR_ENTRY (R654). -/
  | retireClearEntry (t : Ns) (c : Mbx)
  /-- DIR_REFRESH (R227). -/
  | dirRefresh (t : Ns) (c : Mbx)
  /-- SHUTDOWN (R611). -/
  | shutdown (t : Ns) (c : Mbx)
  /-- INSTANT_CANCEL (R301). -/
  | instantCancel (t : Ns) (c : Mbx)
  /-- INSTANT_LIST (R654). -/
  | instantList (t : Ns) (c : Mbx)
  /-- FLASH_INFO (R655). -/
  | flashInfo (t : Ns) (c : Mbx)
  /-- BOOT_SELECT (R655). -/
  | bootSelect (t : Ns) (c : Mbx) (digestOk : Bool)
  /-- DOMAIN_SLOT_RECEIVE (R299). -/
  | domainSlotReceive (t : Ns) (k : TreeSlot) (kind : BitVec 4) (param : BitVec 16) (time : Quad)
  /-- FORWARDED_RESPONSE (R387). -/
  | forwardedResponse (t : Ns) (port : IntakeId) (tag : Nat) (drs : Option (Line × Bool)) (ndr : FwdNdr)
  /-- RECORD_WALK_LINE (R418). -/
  | recordWalkLine (t : Ns) (line : BitVec 42) (found : Meta)
  /-- ROLE_RECORD_RECEIVE (R418). -/
  | roleRecordReceive (t : Ns) (line : BitVec 42) (r : DirRec)
  /-- OTP_GOOD_RISE (R616). -/
  | otpGoodRise (t : Ns) (readBack : BitVec 16384)
  /-- POWER_FAIL_WARN_GLITCH (R602). -/
  | powerFailWarnGlitch (t : Ns)
  /-- PEER_LINKS_UP (R400). -/
  | peerLinksUp (t : Ns)
  /-- BISNP_CREDIT (R133). -/
  | bisnpCredit (t : Ns) (i : IntakeId)
  deriving DecidableEq, Repr

end Sys2Proof
end

