-- ==== Sys2Proof/Decode.lean ====
section
/-! DEFINITION. Decoding. spec/opcode_table.json gives none of its rows any bits: the commands of the home arrive as
messages, register accesses and events, not as words. -/

namespace Sys2Proof

/-- The command that a word spells by the table's bits: none, since no row has any (assumption log 2). -/
def decodeTableWord (_nbits _w : Nat) : Option Instr := none

end Sys2Proof
end

