-- ==== Sys2Proof/Config.lean ====
section
/-! DEFINITION. What the spec leaves to no rule: the free values of the model. A constant here has no body, so no
proof can see its value. Each is named in the assumption log. -/

namespace Sys2Proof

/-- A value the spec leaves open, fresh for each number it is applied to (assumption log 5): `State.free` counts the
numbers used. It stands for the contents of reply fields whose value the spec does not state, for the scratch place of
a flash descriptor (R658), and for the version and length that an image's header holds (R655). -/
opaque Config.freeValue : Nat → Quad

/-- The 8-bit event kind that names a rule (R547): the spec gives no numbers for the kinds but 0xFF of a media port
(assumption log 9). -/
opaque Config.kindByte : Nat → Byte

/-- The 80 data bytes of an event record, of its kind and fields in the order of R135: the spec gives no layout
(assumption log 5). -/
opaque Config.eventData : List Nat → BitVec 640

/-- The command effects of an opcode in the Command Effects Log (R637): the spec gives none (assumption log 5). -/
opaque Config.effects : Nat → BitVec 16

/-- Whether the step of a sketch marker that is no whole number of 1/256 is rounded up (R447): the spec gives no rounding. Number
2k is the rise of marker k, 2k + 1 its fall (assumption log 5). -/
opaque Config.sketchUp : Nat → Bool

/-- The 8-bit check of an alignment word over its count (R282): the spec gives no polynomial (assumption log 5). -/
opaque Config.timeCheck : Quad → Byte

/-- The 8 SECDED check bits of a 64-bit word of an on-die array (R194, R532): the spec gives no code (assumption log 5). -/
opaque Config.secded : Quad → Byte

/-- The BI-ID that the port adapter gives an intake port (R117): integration sets it, and the spec gives no value (assumption log 5). -/
opaque Config.biId : Nat → BitVec 12

end Sys2Proof
end

