-- ==== Sys2Proof/Machine/State.lean ====
section
/-! DEFINITION. The state of the home as plain data. Each field's docstring gives its width, the rule of spec/ that names
it and its reset value; `model` marks a field that is the model's own (assumption log 3). Sparse tables (`Tbl`) hold
only the keys whose value differs from the default that the docstring names (assumption log 4). -/

namespace Sys2Proof.Machine

/-- A sparse table: keys in ascending order, each once. -/
abbrev Tbl (α : Type) := List (Nat × α)

/-! ### Requests and tracker entries -/

/-- A request as it travels from an intake port to a slice (R493), with the data that its kept copy holds (R173). -/
structure Req where
  /-- 4 bits; R138. The intake port that keeps the header. -/
  intake : Nat
  /-- 16 bits; R138. The tag that names the kept header. -/
  tag : Nat
  /-- 10 bits; R138. The requesting host port; none for a ticket write (R368) or a mailbox line write (R713). -/
  host : Option Nat
  /-- 6 bits; R138. The accepted form. -/
  form : Form
  /-- 1 bit; R105. The No-Op MetaField form, whose read carries no completion. -/
  noOp : Bool
  /-- 42 bits; R16. The line address; for a window read the data-range line (R321). -/
  line : Nat
  /-- 6 bits; R138. The partition. -/
  part : Nat
  /-- 512 bits; R96. Write data. -/
  data : Line
  /-- 64 bits; R338. Byte enables. -/
  be : Quad
  /-- 4 bits and a valid bit; R464. The generation stamped at intake. -/
  tgen : Option Nat
  /-- 3 bits and a valid bit; R321. The plate of a window read. -/
  plate : Option Nat
  /-- 12 bits; R140. The stream number. -/
  num : Nat
  /-- 64 bits; R173. Meridian arrival time at the intake port. -/
  arrived : Nat
  /-- 12 bits and a valid bit; R391. The echo index. -/
  echo : Option Nat
  /-- 32 bits and a valid bit; R173. The settle sequence of an acknowledged write notice. -/
  noted : Option Nat
  /-- 16 bits and a valid bit; R311. The epoch recorded with the settle sequence. -/
  epoch : Option Nat
  /-- 1 bit; R387. The request is a forwarded record of the twin's port of the same number. -/
  fwd : Bool
  deriving DecidableEq, Repr, Inhabited

/-- Slot states of R330. -/
inductive SlotSt
  | idle | armed | confirmed | done | cancelled | rejected | abandoned
  deriving DecidableEq, Repr, Inhabited

/-- Who armed a slot (R305). -/
inductive Armer
  | mailbox (mb : Nat) | peer | register | engine
  deriving DecidableEq, Repr, Inhabited

/-- An instant slot (R294, R330). -/
structure Slot where
  /-- 4 bits; R330; reset 0. -/
  kind : Nat
  /-- 2 bits; R330; reset 0. -/
  scope : Nat
  /-- 1 bit; R330; reset 0. -/
  arm : Bool
  /-- 3 bits; R330; reset IDLE. -/
  st : SlotSt
  /-- 2 bits; R330; reset 0. -/
  reason : Nat
  /-- 16 bits; R330; reset 0. -/
  param : Nat
  /-- 64 bits; R332; reset 0. -/
  time : Nat
  /-- R305. Who armed the slot. -/
  by' : Armer
  /-- 4 bits and a valid bit; R298. The number that the slot has in the twin, which sent it. -/
  peer : Option Nat
  /-- 9 bits and a valid bit; R299. A domain-scope slot: the arming block × 16 + its number there. -/
  key : Option Nat
  deriving DecidableEq, Repr, Inhabited

/-- A message to the twin (R389). -/
inductive TwinMsg
  | echo (intake idx : Nat) (req : Req) (cxl : Nat)
  | door (intake idx host part : Nat) (word : Quad) (td : Nat)
  | settle (slice line part seq epoch : Nat) (echoes : List (Nat × Nat)) (full : Option Line)
  | release (intake idx : Nat)
  | ack (slice seq : Nat)
  | clean (line seq : Nat)
  | cleanReq (line : Nat)
  | recall (slice : Nat)
  | recalled (slice : Nat) (lines : List RecallLine)
  | forward (intake : Nat) (req : Req)
  | response (intake tag part : Nat) (drs : Option (Line × Bool)) (ndr : Option NdrKind) (load : DevLoad)
  | resync (line part seq epoch : Nat) (data : Line)
  | resyncAck (line : Nat)
  | slot (k : Nat) (s : Slot)
  | slotAck (k : Nat) (ans : SlotAns)
  | slotCancel (own : Bool) (k : Nat) (asked : Bool)
  | time (dep arr : Nat) (locked free : Bool) (eps : Nat)
  | sealed (epoch : Nat)
  | drained (part : Nat)
  | closed (part : Nat)
  | fetch (line : Nat)
  | record (line : Nat) (r : DirRec)
  | fetched (line : Nat) (r : DirRec)
  | mapRec (tract : Nat) (entry : Quad)
  | moveStart (tract : Nat) (old new : Nat × Nat) (gen : Nat) (retire : Bool)
  | moveCopied (tract : Nat)
  | moveDrained (tract : Nat)
  | moveBatch (tract batch : Nat)
  | moveAbandon (tract : Nat)
  | genRec (set dg fl : Nat) (q : List (Nat × Nat))
  | barrier (part td : Nat)
  | powerFail | takenOver
  | abdicate (drill : Bool)
  | handshake (serial pairNo expects : Nat) (sideB unclean split : Bool) (anchor : Option (Nat × Nat × Nat)) (roles : Quad) (rePaired : Bool) (marked placed : Nat)
  | lsa (part off : Nat) (data : List Byte)
  | powerState
  | blockSealed (epoch : Nat)
  deriving DecidableEq, Repr, Inhabited

/-- A packing buffer (R486): the records placed and the time of the first. -/
structure Pack where
  recs : List TwinMsg
  since : Nat
  deriving DecidableEq, Repr, Inhabited

/-- The tracker entry states of R139; FREE is an absent entry. -/
inductive EState
  | lookup | snoop | fetch | settle | durable | respond
  deriving DecidableEq, Repr, Inhabited

/-- Whose work a tracker entry carries (R137, R522). -/
inductive EKind
  | host | migrate | scrub | correct | resync | mirror | recall
  deriving DecidableEq, Repr, Inhabited

/-- A holder record (R98, R99, R195, R196): I; S with exact holders; S under the coarse vector; S under the host set;
E with one holder; E in doubt. -/
inductive HRec
  | inv | shared (hs : List Nat) | coarse (vec : Quad) | many | owned (h : Nat) | doubt
  deriving DecidableEq, Repr, Inhabited

/-- The snoop forms of R116. -/
inductive SnpForm
  | cur | data | inv
  deriving DecidableEq, Repr, Inhabited

/-- The way an entry has in the Granary (R242, R245, R252). -/
inductive WaySt
  | none | bypass | waiting | evicting (way : Nat) | filling (way : Nat) | hit (way : Nat)
  deriving DecidableEq, Repr, Inhabited

/-- A holder writeback that an active entry took (R111), and its settle sequence. -/
structure Wb where
  req : Req
  seq : Option Nat
  deriving DecidableEq, Repr, Inhabited

/-- How a request ends that met a fault of its line (R81, R440, R76, R711). -/
inductive Fail
  | colour (found : Nat) | walk | frozen | stopped
  deriving DecidableEq, Repr, Inhabited

/-- A tracker entry (R138), with its working buffer. -/
structure Entry where
  /-- 1 bit and the engine; R138, R137. -/
  kind : EKind
  /-- 3 bits; R139. -/
  st : EState
  /-- R138. The request; an internal entry uses its line and partition. -/
  req : Req
  /-- 64 bits; R138. Start time. -/
  start : Nat
  /-- 1 bit; R169. The tracker-age event was raised. -/
  aged : Bool
  /-- 1 bit; R154. The filter lookup is done. -/
  fltDone : Bool
  /-- 1 bit; R154. The Granary lookup is done. -/
  grnDone : Bool
  /-- R98. The holder record, once known. -/
  hrec : Option HRec
  /-- 1 bit; R189. The record comes from the directory copy. -/
  fromDir : Bool
  /-- 1 bit; R202, R710. The request resolves doubt or a lost directory copy. -/
  lostDir : Bool
  /-- R121. Hosts still to be snooped, ascending. -/
  toIssue : List Nat
  /-- R116. The form of the entry's snoops. -/
  snp : SnpForm
  /-- 11 bits; R138. Expected count. -/
  expect : Nat
  /-- 1 bit; R154. The snoops of the entry have been decided. -/
  snooped : Bool
  /-- 64 bits; R165. The order in which the entry entered SNOOP, and how often it was passed over. -/
  snpOrder : Nat
  passed : Nat
  /-- R119. What holders answered: the holders that stay, with E for `true`. -/
  stay : List (Nat × Bool)
  /-- R138 WRITEBACKS, R111. Writebacks taken and not yet settled. -/
  wbs : List Wb
  /-- 2 bits; R138. Data source: 0 none, 1 writeback, 2 Granary, 3 media. -/
  src : Nat
  /-- 512 bits and a valid bit; R112. The line's current value, once the entry has it. -/
  base : Option Line
  /-- 512 bits; R156. The value that the entry's write gives the line. -/
  buf : Line
  /-- 32 bits and a valid bit; R198. The metadata read for the line. -/
  info : Option Meta
  /-- 1 bit; R115. The data is poisoned. -/
  pois : Bool
  /-- 1 bit; R80. The colour check of the line has passed. -/
  colourOk : Bool
  /-- R711. The failure that the request met. -/
  fail : Option Fail
  /-- R245. The way. -/
  way : WaySt
  /-- 1 bit; R208. The filter entry waits for a spill buffer: the way chosen provisionally. -/
  spillWait : Option Nat
  /-- 1 bit; R209. The line is tracked in the directory only. -/
  dirOnly : Bool
  /-- 32 bits and a valid bit; R156. Settle sequence of the entry's own write. -/
  seq : Option Nat
  /-- R258. Partial writes merged into the entry. -/
  merged : List Req
  /-- R437, R465. The placement the entry is served against: port, media tract, generation. -/
  place : Option (Nat × Nat × Nat)
  /-- 1 bit; R437. The entry waits for a walk. -/
  walking : Bool
  /-- R205, R192. Directory writes that the settle waits for. -/
  dirLeft : Nat
  /-- 1 bit; R317. The settle waits for a plate copy. -/
  copyWait : Bool
  /-- 1 bit; R317. The plate copy of the write has been decided. -/
  copyDone : Bool
  /-- 1 bit; R374. The reservation stands. -/
  resv : Bool
  /-- 1 bit; R167. The internal entry moves its line under hold. -/
  hold : Bool
  /-- 1 bit; R192, R212. The metadata must be read again. -/
  reread : Bool
  /-- 1 bit; R176. A replayed write already held by the recalled line. -/
  already : Bool
  /-- 1 bit; R115, R710. The line's codeword could not be read. -/
  lost : Bool
  /-- 1 bit; R418. The record has been asked of the old primary. -/
  fetching : Bool
  /-- 64 bits; R293. No S2M message for the request leaves before this Meridian time. -/
  after' : Nat
  /-- 1 bit; R231. The line's filter entry was lost: the new record goes to the directory. -/
  unrec : Bool
  /-- 1 bit; R231. The record that the entry is served from was lost with its filter entry. -/
  recLost : Bool
  deriving DecidableEq, Repr, Inhabited

/-- A write that has taken its settle sequence and whose Cmp has not been sent (R156, R347). -/
structure Pend where
  /-- 32 bits; R156. -/
  seq : Nat
  line : Nat
  part : Nat
  /-- The host port whose write is pending (R347). -/
  host : Option Nat
  /-- The kept headers that the write answers: intake port and tag (R259). -/
  tags : List (Nat × Nat)
  /-- The tracker entry in DURABLE (R139). -/
  entry : Option Nat
  /-- 64 bits; R310. Acceptance time. -/
  accept : Nat
  /-- 64 bits; R310. Epoch. -/
  epoch : Nat
  /-- R157. The headers whose notice is not yet acknowledged: intake port and tag. -/
  notes : List (Nat × Nat)
  /-- 1 bit; R158. The data is in the Granary or handed to its media port. -/
  placed : Bool
  /-- 1 bit; R158. -/
  settled : Bool
  /-- 1 bit; R393. -/
  twinAck : Bool
  /-- 1 bit; R340. The media port accepted a codeword that holds the write. -/
  accepted : Bool
  /-- 1 bit; R340. The media controller reported complete a codeword that holds the write. -/
  media : Bool
  /-- 1 bit; R87. The write bypasses the Granary. -/
  bypass : Bool
  /-- 1 bit; R342, R346. The write waits for twin-durable. -/
  twin : Bool
  /-- 64 bits; R371. Arrival time at the intake port. -/
  arrived : Nat
  /-- 1 bit; R371. The write was replayed. -/
  replay : Bool
  /-- 64 bits; R293. The Cmp leaves at this Meridian time at the earliest, for the write of the line before it. -/
  after' : Nat
  /-- R637, R713. The mailbox whose Clear Poison completes with the write. -/
  mb : Option Nat
  /-- R393, R412. A mirrored line: what the twin is told once it is durable here. -/
  ack : Option TwinMsg
  deriving DecidableEq, Repr, Inhabited

/-! ### The sheaf filter and the Granary -/

/-- A sheaf entry (R194): word 0 and word 1 of its 128 data bits, and the 8 check bits of each. -/
structure FEntry where
  /-- 64 bits; R194. TAG, PART, FMT, VALID, STATE. -/
  w0 : Quad
  /-- 64 bits; R194. PTR0 to PTR2, IDX, PTRS, or VEC. -/
  w1 : Quad
  /-- 16 bits; R194, R532. Check bits: of word 0 in [7:0], of word 1 in [15:8]. -/
  ck : BitVec 16
  deriving DecidableEq, Repr, Inhabited

/-- A directory write in progress (R191). -/
structure DirW where
  id : Nat
  line : Nat
  /-- R198. DIR_STATE and HOLDER to be placed. -/
  state : Nat
  holder : Nat
  /-- R191, R124. POISON is set with it. -/
  poison : Bool
  /-- The tracker entry whose settle waits for it. -/
  entry : Option Nat
  /-- The spill buffer it belongs to (R211). -/
  spill : Option Nat
  /-- 512 and 32 bits; R222, R710. The whole codeword to be written, where no read comes first. -/
  whole : Option (Line × Meta)
  /-- 1 bit; R224. The start-up refresh: the copy that is read decides the fields. -/
  refresh : Bool
  /-- 1 bit; R219. It waits until the advance of its set's generation is persisted. -/
  held : Bool
  deriving DecidableEq, Repr, Inhabited

/-- A spill buffer (R208): the victim, its set, and the lines whose directory write is not complete. -/
structure Spill where
  set : Nat
  vic : FEntry
  left : List Nat
  deriving DecidableEq, Repr, Inhabited

/-- WAY_STATE (R238). -/
inductive GState
  | idle | locked | filling | evicting
  deriving DecidableEq, Repr, Inhabited

/-- A Granary entry with its tag record (R238). -/
structure GEntry where
  /-- 1 bit; R238. -/
  valid : Bool
  /-- 1 bit; R238. -/
  dirty : Bool
  /-- 33 bits, held as the line address that tag, row and group spell (R237). -/
  line : Nat
  /-- 32 bits; R238 META. -/
  info : Meta
  /-- 1 bit; R238. -/
  twinHeld : Bool
  /-- 32 bits; R238. -/
  mirrorSeq : Nat
  /-- 2 bits; R238. -/
  st : GState
  /-- 512 bits; R235. -/
  data : Line
  deriving DecidableEq, Repr, Inhabited

/-- Data that waits for its way (R247, R252): a line's data and metadata; for a recalled or mirrored line, which enters dirty, its
sequence, and whether it is twin-held (R174, R393). -/
structure Fill where
  line : Nat
  data : Line
  info : Meta
  seq : Option Nat
  twin : Bool
  deriving DecidableEq, Repr, Inhabited

/-- An allocation that waits for a way (R243): its entry, line, partition, and the fill it carries once its data is in. -/
structure Waiter where
  entry : Option Nat
  line : Nat
  part : Nat
  fill : Option Fill
  deriving DecidableEq, Repr, Inhabited

/-- NCH_GRN_CTL (R274). -/
structure GrnCtl where
  /-- 2 bits; R274 ASSOC; reset 3. -/
  assoc : BitVec 2
  /-- 4 bits; R274 CARVE; reset 2. -/
  carve : BitVec 4
  /-- 1 bit; R274 WT_FORCE; reset 0. -/
  wtForce : Bool
  deriving DecidableEq, Repr, Inhabited

/-- A moving record (R459): the tract, the slice whose sheaf it covers, its old and new placement, the generation g and the 16-line copied mask. -/
structure MovRec where
  tract : Nat
  set : Nat
  old : Nat × Nat
  new : Nat × Nat
  gen : Nat
  mask : Nat
  committed : Bool
  /-- R378. Reservation losses of each line. -/
  losses : List Nat
  /-- R466. Intake ports whose commit mark has been taken. -/
  marks : List Nat
  drained : Bool
  batch : Nat
  deriving DecidableEq, Repr, Inhabited

/-- The phases of a slice: in service, the handover phases of R185, fenced (R174). -/
inductive Phase
  | run | prepare | quiesce | covered | returning | fenced
  deriving DecidableEq, Repr, Inhabited

/-- The buddy takeover of a slice that covers its fenced buddy (R174 to R176). -/
structure Cover where
  /-- R221. The DG advance has been persisted. -/
  dgDone : Bool
  /-- R174 step 4, R509. The recall has been handed to the twin. -/
  asked : Bool
  /-- R174 step 4. The recall is complete, or none is made. -/
  recalled : Bool
  /-- R174 step 7. Intake ports whose end-of-replay marker is held. -/
  markers : List Nat
  /-- R174 step 6. The replay lists. -/
  replay : List Req
  /-- R176. Recalled lines with their sequences. -/
  lines : Tbl Nat
  /-- R175. Replay is being served. -/
  serving : Bool
  /-- R314. The last epoch the fenced slice had sealed. -/
  sealed : Nat
  /-- 64 bits; R179. Start of the fence. -/
  since : Nat
  deriving DecidableEq, Repr, Inhabited

/-- A note of the Bolometer (R444). -/
structure Note where
  tract : Nat
  part : Nat
  fast : Bool
  count : Nat
  deriving DecidableEq, Repr, Inhabited

/-- What a slice's front end holds: streams, queues, tracker (R137 to R153). -/
structure Front where
  /-- 640 entries; R137; reset all FREE. -/
  ents : Tbl Entry
  /-- 16 streams of requests delivered and not yet taken; R140; reset empty. -/
  streams : Tbl (List Req)
  /-- 12 bits a stream; R140. The next stream number to be taken; reset 0. -/
  nextNum : Tbl Nat
  /-- 4 bits; R143. The arbiter's pointer; reset 0 (log 7). -/
  ptr : Nat
  /-- 64 requests; R84. The intake queue in order of arrival, parked requests apart; reset empty. -/
  queue : List Req
  /-- 64 requests with `queue`; R148. Parked requests; reset empty. -/
  parked : List Req
  /-- 128 places; R85. The conflict queues, in order; reset empty. -/
  cq : List Req
  /-- 32 bits; R156. Settle sequence counter; reset 0. -/
  seq : Nat
  /-- R347. Writes between their settle sequence and their Cmp; reset empty. -/
  pends : List Pend
  /-- 32 bits; R159. Acceptance time of the last write of a line (R293), by line; reset empty. -/
  lastAccept : Tbl Nat
  /-- 64 bits; R165. Entries that entered SNOOP so far; reset 0. -/
  snpCount : Nat
  /-- 6 bits; R443. Access count; reset 0 (log 7). -/
  access : Nat
  /-- 6 bits; R443. Sample phase; reset 0 (log 7). -/
  phase : Nat
  /-- 64 notes; R444. Sample buffer; reset empty. -/
  notes : List Note
  /-- R486. Packing buffer of settle records without a line; reset empty. -/
  pack : Pack
  deriving DecidableEq, Repr, Inhabited

/-- What a slice's banks hold: filter, spill buffers, Granary, tract buffer (R193 to R245, R437). -/
structure Banks where
  /-- 32,768 entries of 128 bits; R194; reset all not valid. Key set × 16 + way. -/
  flt : Tbl FEntry
  /-- 16 bits; R233 WAY_OFF; reset 0. -/
  fltOff : Nat
  /-- 8 buffers; R208; reset all free. -/
  spills : Tbl Spill
  /-- R191. Directory writes in progress; reset empty. -/
  dirw : List DirW
  /-- 1,024 bits; R228. Restored vector; reset 0. -/
  restored : List Nat
  /-- 8,192 entries; R235; reset all not valid. Key physical way × 512 + row. -/
  grn : Tbl GEntry
  /-- R243. Allocations that wait for a way, oldest first; reset empty. -/
  waiters : List Waiter
  /-- R247, R252. Fills whose data is in and whose way is still EVICTING, by way; reset empty. -/
  fills : Tbl Fill
  /-- 16 bits; R241. LFSR; reset 0xACE1 xor (n × 256). -/
  lfsr : BitVec 16
  /-- NCH_GRN_CTL; R274. -/
  ctl : GrnCtl
  /-- 16 bits; R276 WAY_OFF; reset 0. -/
  grnOff : Nat
  /-- 1 bit; R262, R275 WT_ACTIVE; reset 0. -/
  wt : Bool
  /-- 256 entries; R437. Tract buffer, most recently used first: tract and entry; reset empty. -/
  tbuf : List (Nat × Quad)
  /-- R459. Moving records; reset empty. -/
  moves : List MovRec
  /-- 1,024 entries; R397. Held-line record: line and MIRROR_SEQ; reset empty. -/
  held : Tbl Nat
  /-- 256 tract bits; R409. Split-record bits set most recently; reset empty. -/
  splitCache : List Nat
  deriving DecidableEq, Repr, Inhabited

/-- A home slice (R2). -/
structure Slice where
  /-- 1 bit; R709 ENABLE; reset 0. -/
  enable : Bool
  /-- 1 bit; R709 PREPARE; reset 0. -/
  prepare : Bool
  /-- R185. Phase; reset in service. -/
  phase : Phase
  /-- 64 bits; R187. When the handover's instant passed; reset 0. -/
  handAt : Nat
  /-- 1 bit; R187. The handover-overrun event was raised; reset 0. -/
  handOver : Bool
  /-- R174. The takeover of the fenced buddy; reset none. -/
  cover : Option Cover
  /-- 1 bit; R46. Fallow; reset 0. -/
  fallow : Bool
  /-- 64 bits; R46. When the slice was last not idle, or when it went fallow; reset 0. -/
  busyAt : Nat
  /-- 64 bits; R38. When it last woke; reset 0. -/
  woke : Nat
  /-- 64 bits; R312. The highest epoch sealed; reset 0. -/
  sealed : Nat
  /-- R676. What its status registers read as since its fence: TRK_STATUS, SHF_STATUS, SHF_GEN, GRN_STATUS, GRN_WAYS, IGN_LAST and the
  bits of CTL below PHASE; reset none. -/
  seen : List Nat
  /-- 1 bit; R52. The slice turns write-through when it wakes; reset 0. -/
  wtOnWake : Bool
  front : Front
  banks : Banks
  deriving DecidableEq, Repr, Inhabited

/-! ### Intake ports, host ports, partitions -/

/-- Where a kept request stands (R66, R173, R387, R403, R441). -/
inductive KSt
  | unsent | sent | held | frozen (since : Nat) | fwd (since : Nat) | takeover | fenced | echo
  deriving DecidableEq, Repr, Inhabited

/-- Why an intake port keeps a request of its own (R368, R713). -/
inductive Own
  | host | ticket (barrier : Nat) | clearPoison (mb : Nat) | ticketArea (mb : Nat)
  deriving DecidableEq, Repr, Inhabited

/-- A kept request (R129, R173). -/
structure Kept where
  req : Req
  own : Own
  /-- 16 bits; R391. CXL Tag of the message. -/
  cxl : Nat
  /-- R173. The slice it was sent to. -/
  slice : Nat
  st : KSt
  /-- R161. The DRS that waits: data and poison bit. -/
  drs : Option (Line × Bool)
  /-- R161. The NDR that waits. -/
  ndr : Option NdrKind
  /-- R161. The responses are complete and may leave. -/
  ready : Bool
  /-- 64 bits; R293. The responses leave at this Meridian time at the earliest. -/
  after : Nat
  /-- 64 bits; R512. When the request's header left the port; none before. -/
  left : Option Nat
  deriving DecidableEq, Repr, Inhabited

/-- A back-invalidate snoop of an intake port (R117, R124). -/
structure Snoop where
  slice : Nat
  entry : Nat
  host : Nat
  line : Nat
  part : Nat
  form : SnpForm
  /-- R124. The holder may hold the line dirty: recorded E, or a doubt resolution. -/
  dirty : Bool
  /-- 64 bits; R124. When the BISnp left the port; none while it waits for the adapter's credit (R133). -/
  left : Option Nat
  /-- R162. A writeback of the holder has been taken. -/
  wrote : Bool
  /-- 64 bits; R293. The BISnp leaves at this Meridian time at the earliest. -/
  after : Nat
  deriving DecidableEq, Repr, Inhabited

/-- The barrier scopes of R355. -/
inductive Scope
  | host | partition | twin | domain
  deriving DecidableEq, Repr, Inhabited

/-- An outstanding or refused barrier of an intake port (R366, R367). -/
structure Barrier where
  id : Nat
  host : Nat
  part : Nat
  scope : Scope
  ticket : Nat
  slot : Nat
  /-- 64 bits; R358. T_d. -/
  td : Nat
  /-- 64 bits; R369. The epoch in force at T_d. -/
  epoch : Nat
  /-- R365. Tags of the host port's earlier writes not yet answered. -/
  waits : List Nat
  /-- R363. Slices that have not confirmed their part. -/
  slices : List Nat
  /-- R363. The twin has confirmed its part. -/
  twinOk : Bool
  /-- R361. DOMAIN: the barrier instant, then the epoch that must be domain-sealed. -/
  instant : Nat
  serve : Option Nat
  result : Nat
  /-- R367. Time of completion or refusal. -/
  doneAt : Option Nat
  refused : Bool
  /-- R368. The ticket write has been issued. -/
  written : Bool
  /-- R373. The echo index of the doorbell. -/
  echo : Option Nat
  deriving DecidableEq, Repr, Inhabited

/-- A BIConflict whose acknowledgement follows responses that the slices have handed over (R122, R161). -/
structure Ack where
  host : Nat
  line : Nat
  /-- 16 bits; R387. CXL Tag of the message. -/
  cxl : Nat
  /-- R387. The message was forwarded by the twin. -/
  fwd : Bool
  /-- R122. Intake tags of the requests whose responses leave before it. -/
  tags : List Nat
  deriving DecidableEq, Repr, Inhabited

/-- An intake port (R25). -/
structure Intake where
  /-- 4,096 headers, 2,048 lines of data, 256 ticket places and the 512 places of the hold store; R129, R66; reset empty. -/
  kept : List Kept
  /-- 16 bits; R138. The next intake tag; reset 0 (log 7). -/
  tag : Nat
  /-- 12 bits a slice; R140. Next stream number; reset 0. -/
  num : Tbl Nat
  /-- 3 bits a slice; R141. Stream credits in use, of 4; reset 0. -/
  used : Tbl Nat
  /-- 4,096 BITags; R117; reset none in use. -/
  snoops : Tbl Snoop
  /-- 4,096 bits; R174. Retired BITags; reset none. -/
  retired : List Nat
  /-- R133. The port adapter's BISnp credits; reset 0 (log 11). -/
  snpCredits : Nat
  /-- 256 barriers and 8 refused tickets a host port; R366; reset empty. -/
  bars : List Barrier
  /-- R366. Barriers so far; reset 0. -/
  barId : Nat
  /-- R464. Moving-tract table: tract and generation; reset empty. -/
  moving : Tbl Nat
  /-- 12 bits; R486. Next echo index; reset 0 (log 7). -/
  echo : Nat
  /-- R486. Packing buffer of request echoes; reset empty. -/
  echoPack : Pack
  /-- R486. Packing buffer of releases; reset empty. -/
  relPack : Pack
  /-- R122. BIConflicts not yet acknowledged; reset empty. -/
  acks : List Ack
  /-- 128 bits; R174, R185. Slices for whose lines the port holds requests; reset none. -/
  stopped : List Nat
  /-- 1 bit; R572. Intake is stopped; reset 0. -/
  halted : Bool
  deriving DecidableEq, Repr, Inhabited

/-- A host port (R69, R128, R701). -/
structure HostPort where
  /-- 64 bits; R69. Membership mask; reset 0. -/
  memb : Quad
  /-- 10 bits; R128 REQ_CREDITS; reset 48. -/
  reqCr : Nat
  /-- 9 bits; R128 RWD_CREDITS; reset 16. -/
  rwdCr : Nat
  /-- 4 bits; R29. Bound intake port; reset 0. -/
  intake : Nat
  /-- 1 bit; R29 ENABLE; reset 0. -/
  enable : Bool
  /-- 1 bit; R126 UNRESP; reset 0. -/
  unresp : Bool
  /-- 1 bit; R129 CREDIT_RESERVE; reset 0. -/
  credRes : Bool
  /-- 11 bits; R130. Request credits consumed; reset 0. -/
  reqUsed : Nat
  /-- 10 bits; R130. Write credits consumed; reset 0. -/
  rwdUsed : Nat
  /-- R130, R66, R85. Credit returns withheld: requests and writes; reset 0. -/
  owedReq : Nat
  owedRwd : Nat
  /-- 1 bit; R66. Credits withheld for the hold store; reset 0. -/
  wh66 : Bool
  deriving DecidableEq, Repr, Inhabited

/-- Partition states of R62. -/
inductive PState
  | free | disabled | draining | enabled | stopped
  deriving DecidableEq, Repr, Inhabited

/-- Plate states (R322, R323, R300). -/
inductive PlSt
  | armed | pending | exposed | withdrawn | releasing
  deriving DecidableEq, Repr, Inhabited

/-- A live plate (R315, R316). -/
structure Plate where
  st : PlSt
  /-- R315. The plate group, for a plate of a group. -/
  group : Option Nat
  /-- R297. The slot that exposes it. -/
  slot : Nat
  /-- 64 bits; R315. Boundary time B. -/
  time : Nat
  /-- 64 bits; R317. The epoch that begins at B. -/
  epoch : Nat
  /-- 2 bits a line; R316. Copy map: 1 COPIED, 2 LOST, by line position; SHARED where absent. -/
  map : Tbl Nat
  /-- R318. Reserve directory: reserve tract (port × 2^27 + index) by tract position. -/
  dir : Tbl Nat
  /-- R323. Copies that a released plate passed on, where the plate's own reserve tract does not hold them: their reserve tract by line position. -/
  passed : Tbl Nat
  deriving DecidableEq, Repr, Inhabited

/-- The transaction type of a General Media Event record (R135): of the host request that met a poisoned line, or of the home's own work where
no request did (PRESUMED: the types of CXL 3.1; log 56). -/
inductive Trans
  | hostRead | hostWrite | mediaScrub | mediaManage
  deriving DecidableEq, Repr, Inhabited

/-- A CXL event record (R135) and where it goes. -/
inductive EvRec
  | check (host : Nat) (op : ReqOp) (offset : Nat) (chk : Nat)
  | unresp (host : Nat) (line : Nat) (form : SnpForm)
  | poison (offset : Nat) (trans : Trans)
  | colour (offset : Nat) (found : Nat)
  | stopped (recno : Nat)
  | overrun (host : Nat) (rwd : Bool)
  | almanac (recno : Nat)
  | bgDone (opcode status : Nat)
  deriving DecidableEq, Repr, Inhabited

/-- An event log (R134, R638): records with handle and time, overflow, lost count. -/
structure EvLog where
  recs : List (Nat × Nat × EvRec)
  next : Nat
  overflow : Bool
  lost : Nat
  firstLost : Nat
  lastLost : Nat
  deriving DecidableEq, Repr, Inhabited

/-- The four event logs of a CXL function (R134): Informational, Warning, Failure, Fatal. -/
structure EvLogs where
  info : EvLog
  warn : EvLog
  fail : EvLog
  fatal : EvLog
  /-- Interrupt settings of the four logs; R637. -/
  policy : List Byte
  deriving DecidableEq, Repr, Inhabited

/-- The fields of R59. -/
structure PartCfg where
  /-- 18 bits; R59; reset 0. -/
  dataBase : BitVec 18
  /-- 18 bits; R59; reset 0. -/
  dataSize : BitVec 18
  /-- 18 bits; R59; reset 0. -/
  winBase : BitVec 18
  /-- 4 bits; R59; reset 0. -/
  winSlots : BitVec 4
  /-- 1 bit; R59; reset 0. -/
  visMode : Bool
  /-- 16 bits; R59; reset 0xFFFF. -/
  wayMask : BitVec 16
  /-- 7 bits; R59; reset 0. -/
  trkMin : BitVec 7
  /-- 10 bits; R59; reset 512. -/
  trkMax : BitVec 10
  /-- 8 bits; R59; reset 64. -/
  cqMax : BitVec 8
  /-- 16 bits; R59; reset 0. -/
  filterMin : BitVec 16
  /-- 16 bits; R59; reset 32,768. -/
  filterMax : BitVec 16
  /-- 3 bits; R59; reset 3. -/
  priority : BitVec 3
  /-- 16 bits; R59; reset 0. -/
  fastQuota : BitVec 16
  /-- 1 bit; R59; reset 0. -/
  hold : Bool
  deriving DecidableEq, Repr, Inhabited

/-- A partition (R59, R62). -/
structure Part where
  cfg : PartCfg
  /-- 3 bits; R62; reset FREE. -/
  st : PState
  /-- 1 bit; R57 OVERLAP; reset 0. -/
  overlap : Bool
  /-- 1 bit; R60 TRK_RESERVE; reset 0. -/
  trkRes : Bool
  /-- 1 bit; R61 FILTER_RESERVE; reset 0. -/
  fltRes : Bool
  /-- 1 bit; R65 DRAINED; reset 0. -/
  drained : Bool
  /-- 16 bits; R356 TICKET_BASE; reset 0. -/
  ticketBase : Nat
  /-- 11 bits; R356 TICKET_SLOTS; reset 0. -/
  ticketSlots : Nat
  /-- R643. Plate reserve in GiB; reset 0. -/
  reserve : Nat
  /-- R318. Plate reserve tracts in use; reset none. -/
  resUsed : List Nat
  /-- 8 windows; R58, R700. Plate bound to each window; reset none. -/
  winBind : Tbl Nat
  /-- 8 plates; R315; reset none. -/
  plates : Tbl Plate
  /-- 4 logs of 64 records; R134; reset empty. -/
  logs : EvLogs
  /-- R125. Poison list: line and source; reset empty. -/
  poison : List Nat
  /-- 64 bits a line; R136. When each line of the list joined it; reset none. -/
  poisonAt : Tbl Nat
  /-- R268. Scratch pairs held; reset none. -/
  pairs : List Nat
  /-- 1 bit; R643, R699 UNFINISHED; reset 0. -/
  unfinished : Bool
  /-- R637. Shutdown state of the function; reset 0. -/
  shutdown : Byte
  /-- R637. Label storage; reset empty. -/
  lsa : Tbl Byte
  /-- R637. Alert configuration; reset empty. -/
  alerts : List Byte
  /-- R637. Timestamp set by the host: offset from Meridian time; reset none. -/
  stamp : Option Int
  /-- 16 bits; R476 GOAL; reset 0. -/
  goal : Nat
  /-- 7 bits; R476 K_FACTOR; reset 12. -/
  kFactor : Nat
  /-- 1 bit; R225. ENABLED since the last start-up; reset 0. -/
  wasEnabled : Bool
  /-- 1 bit; R225. Declared quiet before step 9; reset 0. -/
  quietPend : Bool
  /-- 64 bits; R67. Since when requests of the partition are held; reset none. -/
  heldSince : Option Nat
  /-- 1 bit; R67. The hold event was raised; reset 0. -/
  holdEv : Bool
  /-- R455. Requests and forwarded records since the last round, and the last role move of the partition; reset 0, none. -/
  reqs : Nat
  fwds : Nat
  /-- R455. Both counts of the nine rounds before; reset none. -/
  hist : List (Nat × Nat)
  lastRole : Option Nat
  deriving DecidableEq, Repr, Inhabited

/-! ### Stooks and media ports -/

/-- A correctable-error log entry (R530). -/
structure CeEntry where
  kind : Nat
  unit : Nat
  symbol : Nat
  lane : Nat
  mask : Nat
  wb : Bool
  hard : Bool
  count : Nat
  addr : Nat
  first : Nat
  last : Nat
  deriving DecidableEq, Repr, Inhabited

/-- A lane recogniser entry (R524). -/
structure LaneEnt where
  port : Nat
  sym : Nat
  bit : Nat
  tracts : List Nat
  first : Nat
  deriving DecidableEq, Repr, Inhabited

/-- A column recogniser entry (R535): kind, unit, subarray, column, the rows and the time of the first. -/
structure ColEnt where
  kind : Nat
  unit : Nat
  sub : Nat
  col : Nat
  rows : List (Nat × Nat)
  deriving DecidableEq, Repr, Inhabited

/-- A heat-table entry (R445). -/
structure HeatEnt where
  tract : Nat
  part : Nat
  fast : Bool
  heat : Nat
  deriving DecidableEq, Repr, Inhabited

/-- A stook controller (R2). -/
structure Stook where
  /-- 1 bit; R53 FALLOW_EN; reset 1. -/
  fallowEn : Bool
  /-- 1 bit; R47. Fallow; reset 0. -/
  fallow : Bool
  /-- 64 bits; R47. Last work, or when the controller went fallow; reset 0. -/
  busyAt : Nat
  /-- 64 bits; R38. When it last woke; reset 0. -/
  woke : Nat
  /-- 1 bit; R180. Fenced; reset 0. -/
  fenced : Bool
  /-- 32 entries; R530; reset empty. -/
  ceLog : List CeEntry
  /-- 15 bits; R545 LOST; reset 0. -/
  ceLost : Nat
  /-- 16 entries; R524; reset empty. -/
  lanes : List LaneEnt
  /-- R535. Column recogniser; reset empty. -/
  cols : List ColEnt
  /-- 16,384 entries; R445. Key set × 16 + way; reset empty. -/
  heat : Tbl HeatEnt
  /-- R444. Heat notes received in the window; reset none. -/
  got : List Note
  /-- 16 markers of 8 + 8 bits; R447; reset 0 (log 7). -/
  marks : List Nat
  /-- 256 tracts; R449. Cold list: tract, partition, heat; reset empty. -/
  cold : List (Nat × Nat × Nat)
  /-- R676. What its registers read as since its fence: STATUS, CE_STATUS, IGN_LAST; reset none. -/
  seen : List Nat
  deriving DecidableEq, Repr, Inhabited

/-- What a media command is for. -/
inductive Purp
  | read (e : Nat) | dirw (id : Nat) | evict (way : Nat) (row : Nat) | through | drain | bypass (seq : Nat)
  | copy (e : Nat) (tract : Nat) (i : Nat) | correct (e : Nat) | scrub (e : Nat) | plate (seq : Nat) (e : Nat)
  | mapline (tract : Nat) | split (tract : Nat) | second (host : Bool) | rebuilt
  deriving DecidableEq, Repr, Inhabited

/-- A command at a media port interface (R253, R528). -/
structure MOp where
  id : Nat
  slice : Nat
  purp : Purp
  line : Nat
  /-- 37 bits; R530. Media tract index × 1,024 + codeword. -/
  addr : Nat
  write : Bool
  cw : Codeword
  /-- R253. The interface holds the write among its accepted writes. -/
  accepted : Bool
  /-- 64 bits; R528. When the command was handed over, or last repeated. -/
  since : Nat
  /-- R528. Timeouts so far. -/
  tries : Nat
  /-- R521. The codeword has been read a second time. -/
  reread : Bool
  /-- R340. Sequences of the line's writes, not yet answered, whose data the codeword holds. -/
  holds : List Nat
  /-- R396. The settle sequence of the last write that the codeword holds, where the line's Granary entry has one. -/
  mseq : Option Nat
  deriving DecidableEq, Repr, Inhabited

/-- A media port interface and the home's records of its port (R253, R428, R525). -/
structure MPort where
  /-- 1 bit; R30, R695. FAST; reset 0. -/
  fast : Bool
  /-- 1 bit; R695 ENABLE; reset 0. -/
  enable : Bool
  /-- 256 accepted writes, the writes that wait and the reads outstanding; R253; reset empty. -/
  ops : List MOp
  /-- R528. Commands so far; reset 0. -/
  opId : Nat
  /-- 1 bit; R544 SPARE_USED; reset 0. -/
  spareUsed : Bool
  /-- 7 bits; R544 STEERED_LANE; reset 0. -/
  steered : Nat
  /-- 1 bit; R544 ERASE_ACTIVE; reset 0. -/
  erase : Bool
  /-- 7 bits; R544 ERASE_SYMBOL; reset 0. -/
  eraseSym : Nat
  /-- 1 bit; R544 ERASE_PERMANENT; reset 0. -/
  erasePerm : Bool
  /-- 1 bit; R544 RETIRING; reset 0. -/
  retiring : Bool
  /-- 1 bit; R525. Steered, and a patrol pass awaited; reset 0. -/
  steerDone : Bool
  /-- 1 bit; R525. The patrol pass under way began after the steering; reset 0. -/
  passOk : Bool
  /-- 1 bit; R477 PRESENT; reset 0. -/
  present : Bool
  /-- 1 bit; R477 MAP_PORT; reset 0. -/
  mapPort : Bool
  /-- 1 bit; R477 DRAINING; reset 0. -/
  draining : Bool
  /-- 27 bits; R477 DATA_TRACTS; reset 0. -/
  dataTracts : Nat
  /-- R468. Size that the media controller reports, in media tracts; reset 0. -/
  size : Nat
  /-- 2 bits a media tract; R428. Ledger where it differs from FREE below DATA_TRACTS and DEVICE above:
  1 USED, 3 RETIRED; reset empty. -/
  ledger : Tbl Nat
  /-- R454. Codeword traffic since the last round, writes since the port joined, rounds above the mean; reset 0. -/
  traffic : Nat
  /-- R454. The traffic of the nine rounds before; reset none. -/
  past : List Nat
  writes : Nat
  overRounds : Nat
  deriving DecidableEq, Repr, Inhabited

/-! ### Meridian -/

/-- Meridian states of R286. -/
inductive MerSt
  | unlocked | locked | holdover | twinSteered | free
  deriving DecidableEq, Repr, Inhabited

/-- A domain-scope slot at the domain root (R299, R300): its content, the pairs that have confirmed it, the blocks that confirmed its
action, and whether CONFIRMED has been sent down. -/
structure RootSlot where
  slot : Slot
  conf : List Nat
  done : List Nat
  down : Bool
  deriving DecidableEq, Repr, Inhabited

/-- The clock behind Meridian time (R278 to R280). -/
structure Clock where
  /-- model; R278. The block's own count of ns at the last step (log 1); reset 0. -/
  raw : Nat
  /-- 16 bits; R278. The fraction of a ns below `State.now`; reset 0. -/
  frac : Nat
  /-- R280, R284. Slew outstanding, in 2^-16 ns; reset 0. -/
  slew : Int
  /-- 16 replicas; R279. How far the replica of each stook controller is from Meridian time, in 2^-16 ns; reset 0. -/
  reps : List Int
  deriving DecidableEq, Repr, Inhabited

/-- The Meridian unit (R278 to R332). -/
structure Mer where
  /-- 3 bits; R328; reset UNLOCKED. -/
  st : MerSt
  /-- R285. TIME_REF present; reset 0. -/
  refOk : Bool
  /-- 64 bits; R283. Count of the last accepted word; reset 0. -/
  lastCount : Nat
  /-- 64 bits; R283. When the last word was accepted; reset 0. -/
  lastAt : Nat
  /-- 2 bits; R285. Words discarded or missing in a row; reset 0. -/
  bad : Nat
  /-- 3 bits; R285. Words accepted in a row; reset 0. -/
  good : Nat
  /-- 64 bits; R286. When the reference was lost; reset 0. -/
  lostAt : Nat
  /-- 1 bit; R289, R328 TWIN_EXCH; reset 0. -/
  exch : Bool
  /-- 5 bits; R289. Exchange periods not valid in a row; reset 0. -/
  exchBad : Nat
  /-- 16 bits; R329 OFFSET; reset 0. -/
  ofs : Int
  /-- 16 bits; R329 DELAY; reset 0. -/
  delay : Nat
  /-- R286. The twin's state as last reported: LOCKED, FREE, its ε; reset 0. -/
  twinLock : Bool
  twinFree : Bool
  twinEps : Nat
  /-- 64 bits; R288. When the last exchange message left, and when the twin's last one arrived; reset 0: none yet. -/
  exDep : Nat
  exArr : Nat
  /-- 12 bits; R329 DOM_SKEW, S_dom; reset 0. -/
  sdom : Nat
  /-- 64 bits; R291. Last domain notice; reset 0. -/
  noticeAt : Nat
  /-- 1 bit; R291. The notice is overdue; reset 0. -/
  noticeLate : Bool
  /-- 1 bit; R328 DOMAIN_OK; reset 0. -/
  domOk : Bool
  /-- 1 bit; R327 DOMAIN_MEMBER; reset 0. -/
  member : Bool
  /-- 1 bit; R327 DOMAIN_ROOT; reset 0. -/
  root : Bool
  /-- 1 bit; R327 TWIN_STEER; reset 1. -/
  steer : Bool
  /-- 4 bits; R327 DOMAIN_PAIR; reset 0. -/
  pair : Nat
  /-- 64 bits; R306. Anchor A and its number N_A; reset 0 (log 7). -/
  anchor : Nat
  anchorNum : Nat
  /-- 14 bits; R331 LEN_US; reset 100. -/
  len : Nat
  /-- 64 bits; R332. Current epoch number; reset 0 (log 7). -/
  cur : Nat
  /-- 64 bits; R306. The next boundary; reset 0: no boundary until an anchor is set. -/
  next : Nat
  /-- 1 bit; R308. The block has adopted its domain's anchor since DOMAIN_MEMBER was set; reset 0. -/
  joined : Bool
  /-- 64 bits; R312. The stook controllers' last reports; reset 0. -/
  stkSeals : Tbl Nat
  /-- 64 bits; R312. Block-sealed epoch; reset 0. -/
  blkSealed : Nat
  /-- 64 bits; R313. The twin's block-sealed epoch; reset 0. -/
  twinSealed : Nat
  /-- 64 bits; R332. Pair-sealed epoch; reset 0. -/
  pairSealed : Nat
  /-- 64 bits; R332. Domain-sealed epoch; reset 0. -/
  domSealed : Nat
  /-- 64 bits; R313. At the domain root: pair-sealed epochs of the pairs; reset empty. -/
  rootSeals : Tbl Nat
  /-- 12 bits; R291. At the domain root: ε of each block of the domain, as last reported; key pair × 2 + side; reset empty. -/
  rootEps : Tbl Nat
  /-- R292. At the domain root: the blocks that are UNLOCKED or FREE; reset none. -/
  rootBad : List Nat
  /-- R299, R300. At the domain root: the domain-scope slots, key arming block × 16 + number; reset empty. -/
  rootSlots : Tbl RootSlot
  /-- 64 bits; R309. Persisted sealed epoch, and when; reset 0. -/
  persisted : Nat
  persistAt : Nat
  /-- 64 bits; R354 RECOVERED_EPOCH; reset 0. -/
  recovered : Nat
  /-- 16 slots; R294; reset IDLE. -/
  slots : Tbl Slot
  /-- R332. Latched words, by register offset; reset empty. -/
  latch : Tbl Nat
  deriving DecidableEq, Repr, Inhabited

/-! ### Twin -/

/-- The twin states of R381. -/
inductive TwSt
  | unpaired | seeking | paired | split | resyncSource | resyncTarget | abdicated
  deriving DecidableEq, Repr, Inhabited

/-- An echo of the twin's intake ports (R391, R395). -/
structure Echo where
  intake : Nat
  idx : Nat
  host : Nat
  tag : Nat
  record : Quad
  data : Option (Line × Quad)
  door : Option (Quad × Nat)
  /-- R405. Sequence of the applied settle record that named it. -/
  applied : Option Nat
  deriving DecidableEq, Repr, Inhabited

/-- The phases of a role move (R417). -/
inductive RmPhase
  | drain | forward | routed | handover
  deriving DecidableEq, Repr, Inhabited

/-- A role move in progress (R417): whether this block is the old primary, the phase, the slot, the start. -/
structure RoleMove where
  old : Bool
  phase : RmPhase
  slot : Nat
  since : Nat
  /-- R418. Lines whose record has been sent, fetched or changed. -/
  walked : List Nat
  deriving DecidableEq, Repr, Inhabited

/-- The twin unit (R380 to R425). -/
structure Twin where
  /-- 1 bit; R422 ENABLE; reset from OTP. -/
  enable : Bool
  /-- 1 bit; R422 TAKEOVER_EN; reset 1. -/
  takeoverEn : Bool
  /-- 5 bits; R422 RESYNC_CAP; reset 10. -/
  resyncCap : Nat
  /-- R380. A valid TWIN_PAIRING generation: side, twin serial, pairing number; reset none. -/
  pairing : Option (Bool × Nat × Nat)
  /-- 1 bit; R422. Start-up step 8 has begun; reset 0. -/
  step8 : Bool
  /-- 64 bits; R383. When step 8 began; reset 0. -/
  seekAt : Nat
  /-- 1 bit; R220, R382. The decision of step 8 has been taken; reset 0. -/
  decided : Bool
  /-- R382. The twin's handshake, which waits for the block's own decision; reset none. -/
  shake : Option Handshake
  /-- 1 bit; R382, R383. A handshake whose pairing number differs has come: the block stays SEEKING; reset 0. -/
  refused : Bool
  /-- 1 bit; R412. The TWIN_PAIRING generation is not that of the last pairing; reset 0. -/
  rePaired : Bool
  /-- 3 bits; R423 STATE; reset UNPAIRED. -/
  st : TwSt
  /-- 1 bit; R423 LINK_UP; reset 0. -/
  linkUp : Bool
  /-- 64 bits and a valid bit; R399, R423 HB_OK. When the last valid frame came; reset none. -/
  frameAt : Option Nat
  /-- 1 bit; R423 MIRROR_STALE; reset 0. -/
  stale : Bool
  /-- R423 TAKEOVER, R403. Between steps 1 and 5 of a takeover: the partitions that it takes; reset none. -/
  tk : Option Quad
  /-- 1 bit; R423 PEER_DOWN; reset 0. -/
  peerDown : Bool
  /-- 64 bits; R400. When the twin was declared lost; reset none. -/
  lostAt : Option Nat
  /-- 1 bit; R411. The block has taken over since the split; reset 0. -/
  tookOver : Bool
  /-- 32 bits; R649. Takeovers since start-up; reset 0. -/
  takeovers : Nat
  /-- 64 bits; R424. Roles, PRIMARY where 1; reset 0. -/
  roles : Quad
  /-- 64 bits; R383, R416. Persisted primary partitions; reset 0. -/
  owned : Quad
  /-- 4,096 records and 2,048 lines a port; R395; reset empty. -/
  echoes : List Echo
  /-- R398. Lines gathered for a recall that waits for media reads, by slice; reset none. -/
  recalls : Tbl (List RecallLine)
  /-- R398. Sets whose recall waits for settle records that came before it; reset none. -/
  recallDue : List Nat
  /-- R404, R405. Messages redelivered after a takeover's claim, served once every echo has been sent; reset none. -/
  redel : Option (List Redeliver)
  /-- 2^32 bits; R409. Split record; reset empty. -/
  split : List Nat
  /-- 1 bit; R412. The block holds a split record; reset 0. -/
  hasSplit : Bool
  /-- R412. Lines sent and not acknowledged; reset empty. -/
  walk : List Nat
  /-- R412. Lines of the tracts being walked that the target has acknowledged; reset empty. -/
  acked : List Nat
  /-- 32 bits; R425. At a RESYNC_TARGET: tracts still to be received, and the lines received of those; reset 0 and empty. -/
  toGet : Nat
  got : List Nat
  /-- R409. Map pages (entries of 512 tracts) and plate reserve tracts written during the split; reset none. -/
  splitPages : List Nat
  splitRes : List Nat
  /-- R417. Role moves by partition; reset none. -/
  moves : Tbl RoleMove
  /-- 1 bit; R604. The twin has announced its power failure; reset 0. -/
  peerFail : Option Nat
  /-- 64 bits; R410. Partitions for which the block is ABDICATED; reset 0. -/
  abdParts : Quad
  deriving DecidableEq, Repr, Inhabited

/-! ### Placement -/

/-- Phases of a tract move (R459). -/
inductive MvPhase
  | start | copy | copied | commit | drain
  deriving DecidableEq, Repr, Inhabited

/-- Why a tract moves (R450). -/
inductive MvWhy
  | retire | demote | promote | swap | spread | drain
  deriving DecidableEq, Repr, Inhabited

/-- A tract move and its journal entry (R459, R467). -/
structure Move where
  tract : Nat
  old : Nat × Nat
  new : Nat × Nat
  gen : Nat
  phase : MvPhase
  why : MvWhy
  /-- R459. Slices that have copied all their lines, and the twin. -/
  copied : List Nat
  twinOk : Bool
  /-- R466. Slices that have drained, and the twin. -/
  drained : List Nat
  batch : Nat
  /-- R471. The new media tract is to be retired. -/
  newBad : Bool
  /-- R458. The move is of this block's engine; else the twin's engine decides it. -/
  own : Bool
  deriving DecidableEq, Repr, Inhabited

/-- A freeze and its thaw attempt (R440, R442). -/
structure Freeze where
  tract : Nat
  line : Nat
  since : Nat
  /-- R440. The entry could not be read: the tract is in the frozen list. -/
  listed : Bool
  /-- R442. The attempt has ended. -/
  tried : Bool
  deriving DecidableEq, Repr, Inhabited

/-- The placement engine (R426 to R477). -/
structure Place where
  /-- 1 bit; R474 HELIO_EN; reset 0. -/
  helio : Bool
  /-- 1 bit; R474 ROLE_EN; reset 0. -/
  roleEn : Bool
  /-- 5 bits; R474 MIG_CAP; reset 2. -/
  migCap : Nat
  /-- 5 bits; R474 DRAIN_CAP; reset 10. -/
  drainCap : Nat
  /-- 1 bit; R474 SCAN_EN; reset 1. -/
  scanEn : Bool
  /-- 64 bits an entry; R431, R434. First copies of the tract-map entries; reset: the media's (log 8), listed none. -/
  map : Tbl Quad
  /-- 64 bits an entry; R434. Second copies of the tract-map entries. -/
  map2 : Tbl Quad
  /-- 524,288 words; R435. Root store where it names a map tract; reset none. -/
  roots : Tbl Word
  /-- 65,536 or 131,072 lines; R437. Map cache: tag (t >> 3 of the line) by index; reset empty. -/
  cache : Tbl Nat
  /-- 64 tracts and the frozen entries; R440; reset empty. -/
  frozen : List Freeze
  /-- 1 bit; R475 FROZEN_LIST_FULL; reset 0. -/
  listFull : Bool
  /-- 256 moves; R456, R475 MOVING; reset empty. -/
  moves : List Move
  /-- R459. Number of the open commit batch; reset 0. -/
  batch : Nat
  /-- R461. Tracts abandoned in the last 100 ms; reset empty. -/
  aband : Tbl Nat
  /-- 1 bit; R475 ROUND_LATE; reset 0. -/
  late : Bool
  /-- 64 bits; R450. Last round; R446 last window; reset 0. -/
  round : Nat
  window : Nat
  /-- R449. Next map page of the cold scan; reset 0 (log 7). -/
  scanAt : Nat
  /-- R473. Device records relocated and awaiting their pointer: old and new place; reset none. -/
  devMoves : List ((Nat × Nat) × (Nat × Nat))
  /-- R538. The patrol pass: number, its start, DG values at its start; reset 0. -/
  pass : Nat
  passDg : Tbl Nat
  /-- model; R228. The pass during which a restored host port joined the restored vectors; reset none. -/
  restored : Tbl Nat
  /-- R538. Next tract of each slice's share; reset 0. -/
  passAt : Tbl Nat
  /-- 1 bit; R234 REFRESH_ACTIVE; reset 0. -/
  refresh : Bool
  deriving DecidableEq, Repr, Inhabited

/-- The directory generation record (R218). -/
structure DirGen where
  /-- 4 bits a set; R218 DG; reset 0 until loaded (R234). -/
  dg : Tbl Nat
  /-- 4 bits a set; R218 F; reset 0 until loaded. -/
  fl : Tbl Nat
  /-- 4 bits a partition and set; R218 Q where it differs from F, key p × 128 + n; reset none. -/
  q : Tbl Nat
  /-- R219. The record in the map region. -/
  saved : Tbl Nat
  /-- 1 bit; R226. A valid directory-close record; reset 0. -/
  close : Bool
  /-- 1 bit; R220. The stop was unclean; reset 0. -/
  unclean : Bool
  /-- 1 bit; R234. Start-up has loaded the generation record; reset 0. -/
  loaded : Bool
  /-- R219. Sets with an advance of DG that is not persisted, or that the twin has not acknowledged; reset none. -/
  adv : List Nat
  /-- R218. F and Q in the record in the map region; keys as above; reset none. -/
  savedF : Tbl Nat
  savedQ : Tbl Nat
  deriving DecidableEq, Repr, Inhabited

/-! ### Winnow (R547 to R582) -/

/-- An event on its way to Winnow (R547, R548). -/
structure Ev where
  src : Nat
  seq : Nat
  kind : Nat
  /-- 64 bits; R547. When the source raised it. -/
  time : Nat
  /-- R556. A class fixed by the rule that raised it. -/
  cls : Option Nat
  /-- 64 bits; R547. Detail: line or other address, partition, host port or unit, and the kind's own bits. -/
  line : Nat
  part : Nat
  unit : Nat
  extra : Nat
  /-- R548. Repeats sent, and the time of the last sending. -/
  repeats : Nat
  sent : Nat
  deriving DecidableEq, Repr, Inhabited

/-- The classification of a source (R580). -/
structure SrcCfg where
  /-- 3 bits; R580 BASE; reset per R554. -/
  base : Nat
  /-- 3 bits; R580 CEILING; reset per R554. -/
  ceiling : Nat
  /-- 8 bits; R580 N; reset per R554. -/
  n : Nat
  /-- 16 bits; R580 W_MS; reset per R554. -/
  wms : Nat
  deriving DecidableEq, Repr, Inhabited

/-- An Almanac record (R565). -/
structure AlmRec where
  recno : Nat
  src : Nat
  cls : Nat
  base : Nat
  kind : Nat
  first : Bool
  secondary : Bool
  consequential : Bool
  promoted : Bool
  summary : Bool
  reaction : Bool
  lostBefore : Bool
  escalated : Bool
  count : Nat
  parent : Option Nat
  time : Nat
  detail : Nat
  deriving DecidableEq, Repr, Inhabited

/-- A scope of R553 (R551). -/
inductive RScope
  | slice (n : Nat) | stook (k : Nat) | subarray (kind unit sub : Nat) | lane (m lane : Nat) | mport (m : Nat)
  | plane (site p : Nat) | buf (site p v : Nat) | router (site : Nat) | intake (i : Nat) | twinPort | meridian | alidade | power | winnow
  | part (p : Nat) | takeover | stale | block
  deriving DecidableEq, Repr, Inhabited

/-- The reactions of R551. -/
inductive RKind
  | sliceFence | stookFence | subarrayOut | laneRepair | portRetire | planeOut | split | timeDegraded | alidadeRestart
  | partStop | takeover | staleAbdication | failsafe
  deriving DecidableEq, Repr, Inhabited

/-- A reaction (R551). -/
structure Reaction where
  kind : RKind
  scope : RScope
  cls : Nat
  /-- R565. The Almanac record that started it. -/
  recno : Nat
  /-- 64 bits; R551. Start. -/
  start : Nat
  /-- 1 bit; R551. Its progress has ended. -/
  done : Bool
  deriving DecidableEq, Repr, Inhabited

/-- The first fault (R560, R579). -/
structure FirstFault where
  recno : Nat
  src : Nat
  cls : Nat
  kind : Nat
  deriving DecidableEq, Repr, Inhabited

/-- Winnow (R547 to R582). -/
structure Win where
  /-- 30 bits a source; R580; reset per R554: listed where it differs. -/
  cfg : Tbl SrcCfg
  /-- R555, R557. The counted window of a source and its count; reset none. -/
  count : Tbl (Nat × Nat)
  /-- 32 bits; R565. The next RECNO; reset 0. -/
  nextRec : Nat
  /-- 256 records of 32 bytes; R565; reset empty. -/
  recs : List AlmRec
  /-- R566. RECNO of the first record of each class since start-up; reset none. -/
  firstOf : Tbl Nat
  /-- R566. RECNO of the record of each class most recently written or updated; reset none. -/
  lastOf : Tbl Nat
  /-- R560; reset none latched. -/
  first : Option FirstFault
  /-- 32 bits; R581 ACK; reset 0xFFFF_FFFF. -/
  ack : Nat
  /-- R551. Reactions that are active; reset none. -/
  reacts : List Reaction
  /-- R568. The millisecond of a source's last records, how many, and its SUMMARY record; reset none. -/
  perMs : Tbl (Nat × Nat × Option Nat)
  /-- R559. Handshake watchdog events recorded as consequential, by record number; reset none. -/
  shadowed : List (Nat × Ev)
  /-- R548. Sequence of the last event taken from a source; reset none. -/
  taken : Tbl Nat
  /-- 1 bit; R578 CFG_OPEN; reset 1. -/
  cfgOpen : Bool
  /-- 1 bit; R571, R578 FAILSAFE; reset 0. -/
  failsafe : Bool
  /-- 1 bit; R33. Level of FAILSAFE_N; reset low. -/
  failsafeN : Bool
  /-- 64 bits; R572. When the GRAVE event was classified; reset none. -/
  graveAt : Option Nat
  /-- 1 bit; R573. The drain of step 6 is permitted and not finished; reset 0. -/
  draining : Bool
  /-- 1 bit; R34. Level of ALIVE; reset 0 (log 7). -/
  alive : Bool
  /-- 1 bit; R578 ALIVE_RUN; reset 0. -/
  aliveRun : Bool
  /-- 1 bit; R34, R578 SERVICE; reset 0. -/
  service : Bool
  /-- R570. Units and parts out of service; reset none. -/
  outs : List RScope
  /-- 22 bits; R582 SOURCE, KIND, CLASS of NCH_WIN_INJECT; reset 0, 0 and 7. -/
  inj : Nat × Nat × Nat
  /-- 64 bits; R582. Detail of NCH_WIN_INJECT; reset 0. -/
  injDet : Nat
  deriving DecidableEq, Repr, Inhabited

/-! ### Rachis (R484 to R516) -/

/-- A statistics record (R511). -/
structure StatRec where
  bytesOut : Nat
  bytesIn : Nat
  pktsOut : Nat
  pktsIn : Nat
  buckets : List Nat
  deriving DecidableEq, Repr, Inhabited

/-- The header unit of a packet (R493), without its CHECK field, which follows from the others. -/
structure Hdr where
  /-- 3 bits and 3 bits; R493 DST_X, DST_Y. -/
  dstX : BitVec 3
  dstY : BitVec 3
  /-- 4 bits; R493 DST_PORT. -/
  dstPort : BitVec 4
  /-- 3 bits and 3 bits; R493 SRC_X, SRC_Y. -/
  srcX : BitVec 3
  srcY : BitVec 3
  /-- 4 bits; R493 SRC_PORT. -/
  srcPort : BitVec 4
  /-- 2 bits; R493 CLASS. -/
  cls : BitVec 2
  /-- 3 bits; R493 PRIO, R88. -/
  prio : BitVec 3
  /-- 2 bits; R493 VC. -/
  vc : BitVec 2
  /-- 1 bit; R493 ORD, R499. -/
  ord : Bool
  /-- 1 bit; R493 GEN_VALID. -/
  genValid : Bool
  /-- 1 bit; R493 POISON. -/
  poison : Bool
  /-- 2 bits; R493 DEVLOAD. -/
  devLoad : BitVec 2
  /-- 8 bits; R493 OPCODE, R495. -/
  opcode : BitVec 8
  /-- 16 bits; R493 TAG. -/
  tag : BitVec 16
  /-- 10 bits; R493 HOST_PORT. -/
  host : BitVec 10
  /-- 6 bits; R493 PART. -/
  part : BitVec 6
  /-- 42 bits; R493 LINE. -/
  line : BitVec 42
  /-- 4 bits; R493 TGEN. -/
  tgen : BitVec 4
  /-- 16 bits; R493 EPOCH. -/
  epoch : BitVec 16
  /-- 12 bits; R493 STREAM. -/
  stream : BitVec 12
  /-- 4 bits; R493 LENGTH. -/
  length : BitVec 4
  /-- 6 bits; R493 FORM. -/
  form : BitVec 6
  /-- 3 bits; R493 PLATE. -/
  plate : BitVec 3
  /-- 1 bit; R493 SPLIT. -/
  split : Bool
  /-- 64 bits; R493 AUX. -/
  aux : Quad
  deriving DecidableEq, Repr, Inhabited

/-- A packet (R492): its header unit and the data units behind it. -/
structure Packet where
  hdr : Hdr
  data : List (BitVec 256)
  /-- model; R511. The statistics records that count its arrival. -/
  ins : List Nat
  deriving DecidableEq, Repr, Inhabited

/-- An output of a router, or a source port towards its router (R496 to R498). -/
structure NOut where
  /-- 3 bits; R496. The plane last given. -/
  last : Nat
  /-- R498. The head last served: input, plane and VC. -/
  served : Nat
  /-- R497. The packet under way on a plane and VC (key plane × 4 + VC): the buffer that it leaves, and its number. -/
  under : Tbl (Nat × Nat)
  /-- R497. The VC whose unit moved last on each plane. -/
  turn : Tbl Nat
  deriving DecidableEq, Repr, Inhabited

/-- Rachis (R484 to R516). -/
structure Rachis where
  /-- 1 bit; R515 MODE; reset 0. -/
  bonded : Bool
  /-- 4 bits a site; R516 PLANE_OUT; reset 0. -/
  planeOut : Tbl Nat
  /-- 16 bits a site; R516 BUF_OUT; reset 0. -/
  bufOut : Tbl Nat
  /-- 9 bits a site; R516 SINK; reset 0. -/
  sink : Tbl Nat
  /-- R48. Fallow routers; reset none. -/
  fallow : List Nat
  /-- 1 bit; R514 STATS_EN; reset 1. -/
  statsEn : Bool
  /-- 8 bits; R514 AGE_GRANTS; reset 64. -/
  ageGrants : Nat
  /-- 1,173 records of 64 bytes; R513. Counting bank; reset 0. -/
  stats : Tbl StatRec
  /-- 1,173 records; R513. Frozen bank; reset 0. -/
  frozen : Tbl StatRec
  /-- R492. Packets on their way, by number; reset none. -/
  pkts : Tbl Packet
  /-- model; R492. Packets sent so far; reset 0. -/
  pktNum : Nat
  /-- 8 units a VC and plane of a router input, 32 a plane in split-plane mode; R497, R503. Units that wait, as packet number and
  unit, by buffer; the units that a source port has not sent on stand in its own; reset empty. -/
  bufs : Tbl (List (Nat × Nat))
  /-- R496 to R498. Outputs of the routers and source ports; reset: nothing given. -/
  outs : Tbl NOut
  /-- 8 bits a head; R498. How often the head of a packet has been passed over at its output; reset none. -/
  passed : Tbl Nat
  /-- 12 bits a source; R500. Next STREAM number of a twin-bound packet of slice n (key n) and intake port i (key 128 + i), and of a packet of
  the twin port interface for slice n (key 256 + n) and intake port i (key 384 + i); reset 0. -/
  twinNum : Tbl Nat
  /-- 64 bits a site; R48. When a packet last entered a port of the router; reset 0. -/
  entered : Tbl Nat
  /-- 64 bits a site; R38. When the router last woke; reset 0. -/
  woke : Tbl Nat
  deriving DecidableEq, Repr, Inhabited

/-! ### Block control (R691 to R698) -/

/-- A write on its way over the register ring (R672). -/
structure RingOp where
  posted : Bool
  off : Nat
  value : Word
  deriving DecidableEq, Repr, Inhabited

/-- The block control registers (R691). -/
structure Blk where
  /-- 2 bits; R693 RING_MODE; reset 0. -/
  ringMode : Nat
  /-- R672, R673. Writes on the ring, and in STALE mode those that wait for it; reset none. -/
  ring : List RingOp
  /-- 10 bits; R694 LIMIT_US; reset 10. -/
  hsWdog : Nat
  /-- 10 bits; R694 TMO_US; reset 50. -/
  snpTmo : Nat
  /-- 6 bits; R694 AGE_LIMIT; reset 5. -/
  trkAge : Nat
  /-- 10 bits; R542 READ_TMO; reset 50. -/
  readTmo : Nat
  /-- 10 bits; R542 WRITE_TMO; reset 200. -/
  writeTmo : Nat
  /-- 1 bit; R543 PATROL_EN; reset 1. -/
  patrolEn : Bool
  /-- 1 bit; R543 ARRAY_EN; reset 1. -/
  arrayEn : Bool
  /-- 8 bits; R543 PATROL_HOURS; reset 24. -/
  patrolHours : Nat
  /-- 4 bits; R543 LANE_TRACTS; reset 4. -/
  laneTracts : Nat
  /-- 8 bits; R543 LANE_WINDOW; reset 10. -/
  laneWindow : Nat
  /-- 12 bits an entry, 64 entries; R696; reset 0. -/
  pend : Tbl Nat
  /-- 1 bit; R693 SNAP_VALID; reset 0. -/
  snapValid : Bool
  /-- 64 bits; R683 SNAP_TIME; reset 0. -/
  snapTime : Nat
  /-- 24 bits; R691 VOTE_LAST; reset 0. -/
  voteLast : Nat
  /-- 12 bits; R700 NCH_BLK_HP_IGN_LAST; reset 0. -/
  hpIgn : Nat
  /-- 7 bits; R705 NCH_MBX_SEL; reset 65. -/
  mbxSel : Nat
  /-- 20 bits; R705 NCH_MBX_IGN_LAST; reset 0. -/
  mbxIgn : Nat
  /-- 24 bits a repair; R536. Pending repairs; reset none. -/
  repairs : List Nat
  /-- 1 bit; R546 NO_ROOM; reset 0. -/
  noRoom : Bool
  deriving DecidableEq, Repr, Inhabited

/-! ### Power, start-up, OTP and flash (R583 to R621, R656 to R660) -/

/-- STATE of NCH_PWR_STATUS (R618). -/
inductive PwrSt
  | starting | running | powerFail | halt | failsafe | stopping
  deriving DecidableEq, Repr, Inhabited

/-- A flash descriptor (R658), with the mailbox whose command issued it. -/
structure FlashDesc where
  /-- 8 bits; R658 OP. -/
  op : Nat
  /-- 8 bits; R658 PRIO. -/
  prio : Nat
  /-- 8 bits; R658 STATUS. -/
  status : Nat
  /-- 32 bits; R658 FLASH_OFFSET. -/
  foff : Nat
  /-- 32 bits; R658 SCRATCH_OFFSET. -/
  soff : Nat
  /-- 32 bits; R658 LENGTH. -/
  len : Nat
  /-- 64 bits; R658 DONE_TIME. -/
  doneAt : Nat
  mb : Option Nat
  deriving DecidableEq, Repr, Inhabited

/-- What a command's flash descriptors are for (R657, R661): a selector copy, or an image part of a boot block, the last of a full image
or not. -/
inductive FlashGoal
  | selector (copy gen : Nat) (active : Bool) | image (block : Nat) (full : Bool)
  deriving DecidableEq, Repr, Inhabited

/-- model; R658, R659. The descriptors of the command that writes flash: those not issued yet, the place of the one in the ring, whether
one ended in error, and the regions unlocked. -/
structure FlashJob where
  mb : Nat
  goal : FlashGoal
  todo : List FlashDesc
  cur : Option Nat
  bad : Bool
  unlocked : List Nat
  deriving DecidableEq, Repr, Inhabited

/-- The OTP programming command in progress (R616): group, slot payload, the mailbox. -/
structure OtpJob where
  group : Nat
  payload : Nat
  mb : Nat
  deriving DecidableEq, Repr, Inhabited

/-- The power-fail sequence (R599). -/
structure PwrFail where
  /-- 64 bits; R605 WARN_TIME. -/
  warnTime : Nat
  /-- 64 bits; R605 SEALED. -/
  sealedAt : Nat
  /-- 32 bits; R605 DIRTY. -/
  dirty : Nat
  /-- 8 bits; R605 FLAGS as at the warning. -/
  flags : Nat
  drained : Bool
  /-- R604. The warning came before start-up step 11: no record is written. -/
  early : Bool
  /-- R605. The slot and the 4 KiB record that the vault write carries. -/
  record : Option (Nat × List Byte)
  deriving DecidableEq, Repr, Inhabited

/-- What the background work of a mailbox is (R629). -/
inductive Bg
  | partCreate (p : Nat) | partResize (p size : Nat) | partDestroy (p : Nat) (erase : Bool) | sanitize (p : Nat)
  | plateRelease (p k : Nat) | barrier (id : Nat) | capRemove (m : Nat) | dirRefresh | shutdown | twinDrill
  | rethaw (tract : Nat) | rebuild (tract : Nat) | transferFw (block : Nat)
  deriving DecidableEq, Repr, Inhabited

/-- The power and OTP unit (R583 to R621). -/
structure Pwr where
  /-- 3 bits; R618 STATE; reset 0. -/
  st : PwrSt
  /-- 1 bit; R618 READY_OFF; reset 0. -/
  readyOff : Bool
  /-- 1 bit; R618 PF_WARN; reset 0. -/
  pfWarn : Bool
  /-- 1 bit; R618 ENERGY; reset 0. -/
  energy : Bool
  /-- 64 bits; R595, R618 PRESENCE and PRESENCE_S. End of the window; reset none. -/
  presence : Option Nat
  /-- 1 bit; R618 SEAL; reset 0. -/
  otpSeal : Bool
  /-- 1 bit; R618 FACTORY; reset 0. -/
  factory : Bool
  /-- 4 bits; R618 RAILS: RET_GOOD, ARRAY_GOOD, CORE_GOOD, OTP_GOOD; reset 0. -/
  railRet : Bool
  railArray : Bool
  railCore : Bool
  railOtp : Bool
  /-- 5 bits; R619 TARGET; reset 0. -/
  target : Int
  /-- 5 bits; R619 CURRENT; reset 0. -/
  current : Int
  /-- 4 bits; R620 STEP; reset 1. -/
  step : Nat
  /-- 64 bits; R620 TIME_MS. Rails good; reset 0. -/
  goodAt : Nat
  /-- 1 bit; R620 REFRESH; reset 0. -/
  refresh : Bool
  /-- 1 bit; R224. The start-up refresh is running; reset 0. -/
  refreshing : Bool
  /-- 1 bit; R620 BOOT_BLOCK; reset 0. -/
  bootBlock : Bool
  /-- 1 bit; R620 LASTGASP; reset 0. -/
  gaspFound : Bool
  /-- 16,384 bits; R612. OTP as read and voted, and as programmed since; reset all zero (log 7). -/
  otp : BitVec 16384
  /-- R613. OTP as it stood at step 2: what is in effect until the next power-up; reset all zero (log 7). -/
  otpUsed : BitVec 16384
  /-- R616. Programming in progress; reset none. -/
  otpJob : Option OtpJob
  /-- R599. The power-fail sequence; reset none. -/
  fail : Option PwrFail
  /-- 4 KiB a slot; R605. Valid last-gasp records by slot; reset none. -/
  gasp : Tbl (List Byte)
  /-- R657. GEN and ACTIVE of the valid selector copies; reset none. -/
  sels : Tbl (Nat × Bool)
  /-- R655, R657. Per boot block: image passes its check, version, length; reset none. -/
  images : Tbl (Bool × Nat × Nat)
  /-- 1 bit; R655. Start-up fell back to the other block; reset 0. -/
  fellBack : Bool
  /-- 64 descriptors; R658; reset empty. -/
  flash : Tbl FlashDesc
  /-- 6 bits; R658. Next descriptor place; reset 0 (log 7). -/
  flashAt : Nat
  /-- 1 bit; R659. Update grant; reset 0. -/
  grant : Bool
  /-- model; R658. The command that writes flash; reset none. -/
  flashJob : Option FlashJob
  /-- R661. A transfer in parts: its mailbox and boot block; reset none. -/
  xfer : Option (Nat × Nat)
  /-- 1 bit; R611. A shutdown or forced off runs; reset 0. -/
  stopping : Bool
  /-- R631. The partition commands whose recorded progress the next start-up completes; reset none. -/
  todo : List Bg
  deriving DecidableEq, Repr, Inhabited

/-! ### Mailboxes (R622 to R661) -/

/-- What a foreground command waits for (R628, R640). -/
inductive Wait
  | slot (k : Nat) | otp | line | place | lines (left : Nat) | flash (left : Nat)
  deriving DecidableEq, Repr, Inhabited

/-- A mailbox (R622, R624). -/
structure MBox where
  /-- 16 bits; R624 OPCODE; reset 0. -/
  opcode : Nat
  /-- 16 bits; R624 IN_LEN; reset 0. -/
  inLen : Nat
  /-- 16 bits; R624 OUT_LEN; reset 0. -/
  outLen : Nat
  /-- 8 bits; R624 STATUS; reset 0. -/
  status : Nat
  /-- 1 bit; R624 DOORBELL; reset 0. -/
  doorbell : Bool
  /-- 1 bit; R624 BG_RUN; reset 0. -/
  bgRun : Bool
  /-- 1 bit; R624 BG_ABORT; reset 0. -/
  bgAbort : Bool
  /-- 16 bits; R624 BG_OPCODE; reset 0. -/
  bgOpcode : Nat
  /-- 8 bits; R624 BG_PROGRESS; reset 0. -/
  bgProgress : Nat
  /-- 8 bits; R624 BG_STATUS; reset 0. -/
  bgStatus : Nat
  /-- 32 bits; R624 TAG; reset 0. -/
  tag : Nat
  /-- 64 bits; R624 ACCEPT_TIME; reset 0. -/
  acceptAt : Nat
  /-- 64 bits; R624 DONE_TIME; reset 0. -/
  doneAt : Nat
  /-- 32 bits; R624 DETAIL; reset 0. -/
  detail : Nat
  /-- 32 bits; R624 BG_LEFT_MS; reset 0. -/
  bgLeft : Nat
  /-- 4 KiB; R624. Payload buffer, its bytes up to the last one written; reset 0. -/
  payload : List Byte
  /-- R628. What a foreground command waits for; reset none. -/
  wait : Option Wait
  /-- R629. Background work; reset none. -/
  bg : Option Bg
  deriving DecidableEq, Repr, Inhabited

/-! ### What leaves the block -/

/-- What the block sends over its boundary (R28, R31), oldest first. -/
inductive Out
  | drs (port host tag : Nat) (data : Line) (pois : Bool) (load : DevLoad)
  | ndr (port host tag : Nat) (kind : NdrKind) (load : DevLoad)
  | conflictAck (port host line : Nat) (load : DevLoad)
  | bisnp (port : Nat) (bi : BitVec 12) (bitag host line : Nat) (form : SnpForm)
  | twin (m : TwinMsg)
  | media (port : Nat) (op : MOp)
  | claim (parts : Quad) (hosts : List Nat) | rangeClaim (part : Nat)
  | rootSlot (key : Nat) (s : Slot) (eps : Nat) | rootConf (key : Nat) (ok : Bool) (eps : Nat) | rootDone (key eps : Nat)
  | rootCancel (key : Nat) | rootSeal (epoch eps : Nat) (able : Bool)
  | downSlot (pair key : Nat) (s : Slot) | downConf (pair key : Nat) | downCancel (pair key : Nat) (asked : Bool)
  | notice (sdom : Nat) (ok : Bool) (sealed : Nat) (withdraw : List Nat) (anchor : Option (Nat × Nat × Nat))
  | evInt (part : Nat) (log : Nat)
  | abort (part host : Nat)
  | eventLine
  | flash (i : Nat) (d : FlashDesc) | supervisor (what : Nat) | mbInt (mb : Nat) | flashDirect (old new : Nat)
  | scratch (way off : Nat) (data : Line) | accessError
  | hostAbort (part host : Nat) | restart | mgmtReply (status : Nat)
  deriving DecidableEq, Repr, Inhabited

/-! ### The block -/

/-- The state of the home. -/
structure State where
  /-- model; the queue of waiting commands; reset empty. -/
  pending : List Instr
  /-- 64 bits; R278. Block Meridian time in ns, as of the last step; `clk` holds the fraction below it; reset 0 (log 1). -/
  now : Nat
  /-- model; the next free value; reset 0 (log 5). -/
  free : Nat
  /-- model; what the block has sent, oldest first; reset empty (log 6). -/
  out : List Out
  /-- 64 partitions; R59; reset FREE with the defaults of R59. -/
  parts : Tbl Part
  /-- 1,024 host ports; R69; reset disabled. -/
  hosts : Tbl HostPort
  /-- 16 intake ports; R25; reset empty. -/
  intakes : Tbl Intake
  /-- 128 slices; R2; reset empty. -/
  slices : Tbl Slice
  /-- 16 stooks; R2; reset empty. -/
  stooks : Tbl Stook
  /-- 32 media ports; R25; reset disabled. -/
  mports : Tbl MPort
  mer : Mer
  twin : Twin
  place : Place
  dirGen : DirGen
  /-- 4 events a source; R548. Events that Winnow has not taken; reset empty. -/
  events : List Ev
  /-- 16 bits a source; R548. Event sequence; reset 0. -/
  evSeq : Tbl Nat
  /-- R548. Events a source could not send, key source × 8 + class; reset 0. -/
  evLost : Tbl Nat
  /-- 4,285 counters of 64 bits; R684. Live counts, key holding offset × 64 + lowest bit; reset 0. -/
  live : Tbl Nat
  /-- 4,285 counters of 64 bits; R682. Holding registers, same keys; reset 0. -/
  holding : Tbl Nat
  /-- 24 bits a unit; R679. IGN_LAST registers, by their own offset; reset 0. -/
  ignLast : Tbl Nat
  /-- R501. CREDIT packets in flight; reset none. -/
  credits : List CreditRef
  /-- R507. RESEND packets in flight; reset none. -/
  resends : List StreamRef
  win : Win
  rch : Rachis
  blk : Blk
  pwr : Pwr
  /-- 66 mailboxes; R622; reset all zero. -/
  mbx : Tbl MBox
  /-- 4 logs of 256 records; R638; reset empty. -/
  blkLogs : EvLogs
  /-- 12 ways of 4 MiB; R269. Scratch bytes where they are not zero, way × 2^22 + offset; reset empty (R272). -/
  scratch : List Host.Cell
  /-- 64 groups; R315, R646. Plate groups: partition and pair; reset none. -/
  groups : Tbl (List (Nat × Nat))
  /-- R648. Administrative barriers outstanding, by mailbox; reset none. -/
  adminBars : Tbl Barrier
  /-- 64 bits; R649. Meridian ns of the last loss of the twin; reset 0. -/
  lastLoss : Nat
  clk : Clock
  deriving DecidableEq, Repr, Inhabited

/-! ### How a step can stop -/

/-- Why the machine could stop with a fault. No meaning of this model ends in one (NOTES.md, Stops): the home answers
every misuse with an event, a status code or a failed response. -/
inductive Fault
  deriving DecidableEq, Repr

/-- Why the model could refuse a command. -/
inductive Refusal
  /-- Raised by an arm of Dispatch.lean whose command has no meaning yet; safe. -/
  | notModelled (mnemonic : String)
  deriving DecidableEq, Repr

/-- The Meridian unit at reset (R327 to R332). -/
def Mer.reset : Mer :=
  { st := .unlocked, refOk := false, lastCount := 0, lastAt := 0, bad := 0, good := 0, lostAt := 0, exch := false,
    exchBad := 0, ofs := 0, delay := 0, twinLock := false, twinFree := false, twinEps := 0, exDep := 0, exArr := 0, sdom := 0, noticeAt := 0,
    noticeLate := false, domOk := false, member := false, root := false, steer := true, pair := 0, anchor := 0, anchorNum := 0,
    len := 100, cur := 0, next := 0, joined := false, stkSeals := [], blkSealed := 0, twinSealed := 0, pairSealed := 0, domSealed := 0, rootSeals := [],
    rootEps := [], rootBad := [], rootSlots := [],
    persisted := 0, persistAt := 0, recovered := 0, slots := [], latch := [] }

/-- The twin unit at reset (R422 to R425). -/
def Twin.reset : Twin :=
  { enable := false, takeoverEn := true, resyncCap := 10, pairing := none, step8 := false, seekAt := 0,
    decided := false, shake := none, refused := false, rePaired := false, st := .unpaired, linkUp := false, frameAt := none, stale := false, tk := none, peerDown := false, lostAt := none,
    tookOver := false, takeovers := 0, roles := 0, owned := 0, echoes := [], recalls := [], recallDue := [], redel := none, split := [], hasSplit := false, walk := [], acked := [],
    toGet := 0, got := [], splitPages := [], splitRes := [], moves := [], peerFail := none, abdParts := 0 }

/-- The placement engine at reset (R474 to R477). -/
def Place.reset : Place :=
  { helio := false, roleEn := false, migCap := 2, drainCap := 10, scanEn := true, map := [], map2 := [], roots := [], cache := [],
    frozen := [], listFull := false, moves := [], batch := 0, aband := [], late := false, round := 0, window := 0, scanAt := 0,
    devMoves := [], pass := 0, passDg := [], restored := [], passAt := [], refresh := false }

/-- Winnow at reset (R577 to R582). -/
def Win.reset : Win :=
  { cfg := [], count := [], nextRec := 0, recs := [], firstOf := [], lastOf := [], first := none, ack := 0xFFFFFFFF, reacts := [],
    perMs := [], shadowed := [], taken := [], cfgOpen := true, failsafe := false, failsafeN := false, graveAt := none,
    draining := false, alive := false, aliveRun := false, service := false, outs := [], inj := (0, 0, 7), injDet := 0 }

/-- Rachis at reset (R514 to R516). -/
def Rachis.reset : Rachis :=
  { bonded := false, planeOut := [], bufOut := [], sink := [], fallow := [], statsEn := true, ageGrants := 64, stats := [],
    frozen := [], pkts := [], pktNum := 0, bufs := [], outs := [], passed := [], twinNum := [], entered := [], woke := [] }

/-- The block control registers at reset (R542, R543, R691 to R696, R705). -/
def Blk.reset : Blk :=
  { ringMode := 0, ring := [], hsWdog := 10, snpTmo := 50, trkAge := 5, readTmo := 50, writeTmo := 200, patrolEn := true,
    arrayEn := true, patrolHours := 24, laneTracts := 4, laneWindow := 10, pend := [], snapValid := false, snapTime := 0,
    voteLast := 0, hpIgn := 0, mbxSel := 65, mbxIgn := 0, repairs := [], noRoom := false }

/-- The power and OTP unit at reset (R618 to R621). -/
def Pwr.reset : Pwr :=
  { st := .starting, readyOff := false, pfWarn := false, energy := false, presence := none, otpSeal := false, factory := false,
    railRet := false, railArray := false, railCore := false, railOtp := false, target := 0, current := 0, step := 1, goodAt := 0,
    refresh := false, refreshing := false, bootBlock := false, gaspFound := false, otp := 0, otpUsed := 0, otpJob := none, fail := none, gasp := [],
    sels := [], images := [], fellBack := false, flash := [], flashAt := 0, grant := false, flashJob := none, xfer := none, stopping := false,
    todo := [] }

/-- The home right after reset: every register at the value the spec gives, or the value that the assumption log names. -/
def State.reset : State :=
  { pending := [], now := 0, free := 0, out := [], parts := [], hosts := [], intakes := [], slices := [], stooks := [], mports := [],
    mer := Mer.reset, twin := Twin.reset, place := Place.reset, dirGen := ⟨[], [], [], [], false, false, false, [], [], []⟩, events := [], evSeq := [],
    evLost := [], live := [], holding := [], ignLast := [], credits := [], resends := [], win := Win.reset, rch := Rachis.reset,
    blk := Blk.reset, pwr := Pwr.reset, mbx := [],
    blkLogs := ⟨⟨[], 1, false, 0, 0, 0⟩, ⟨[], 1, false, 0, 0, 0⟩, ⟨[], 1, false, 0, 0, 0⟩, ⟨[], 1, false, 0, 0, 0⟩, [0, 0, 0, 0]⟩,
    scratch := [], groups := [], adminBars := [], lastLoss := 0, clk := ⟨0, 0, 0, List.replicate 16 0⟩ }

end Sys2Proof.Machine
end

