-- ==== Sys2Proof/Machine/Tables.lean ====
section
/-! DEFINITION. Sparse tables and small lists: the named operations on the plain data of the state. -/

namespace Sys2Proof.Machine

/-! ### Sparse tables -/

/-- The value at a key. -/
def Tbl.find {α : Type} : Tbl α → Nat → Option α
  | [], _ => none
  | (a, v) :: r, k => if k = a then some v else Tbl.find r k

/-- The value at a key, or the default. -/
def Tbl.get {α : Type} (d : α) (t : Tbl α) (k : Nat) : α := (Tbl.find t k).getD d

/-- The table with a value at a key. -/
def Tbl.set {α : Type} : Tbl α → Nat → α → Tbl α
  | [], k, v => [(k, v)]
  | (a, b) :: r, k, v =>
    if k = a then (k, v) :: r else if k < a then (k, v) :: (a, b) :: r else (a, b) :: Tbl.set r k v

/-- The table without a key. -/
def Tbl.del {α : Type} : Tbl α → Nat → Tbl α
  | [], _ => []
  | (a, b) :: r, k => if k = a then Tbl.del r k else (a, b) :: Tbl.del r k

/-- The keys. -/
def Tbl.keys {α : Type} (t : Tbl α) : List Nat := t.map Prod.fst

/-- The first number from `i` on, among `k` of them, that is no key. -/
def Tbl.free {α : Type} (t : Tbl α) : Nat → Nat → Option Nat
  | _, 0 => none
  | i, k + 1 => if (Tbl.find t i).isNone then some i else Tbl.free t (i + 1) k

/-- The sum of a count over a list. -/
def sumOf {α : Type} (f : α → Nat) : List α → Nat
  | [] => 0
  | a :: r => f a + sumOf f r

/-- The least value of a count over a list, or a default on the empty list. -/
def minOf {α : Type} (f : α → Nat) (d : Nat) : List α → Nat
  | [] => d
  | [a] => f a
  | a :: r => min (f a) (minOf f d r)

/-- The elements of the list `0 … k - 1` that satisfy a test. -/
def below (k : Nat) (p : Nat → Bool) : List Nat := (List.range k).filter p

/-- Insert by a measure, ahead of equal ones. -/
def insertBy {α : Type} (f : α → Nat) (a : α) : List α → List α
  | [] => [a]
  | b :: r => if f a ≤ f b then a :: b :: r else b :: insertBy f a r

/-- A list in ascending order of a measure; elements of one measure keep their order. -/
def sortBy {α : Type} (f : α → Nat) : List α → List α
  | [] => []
  | a :: r => insertBy f a (sortBy f r)

/-- Numbers in ascending order, each once. -/
def insertNat (x : Nat) : List Nat → List Nat
  | [] => [x]
  | a :: r => if x = a then a :: r else if x < a then x :: a :: r else a :: insertNat x r

/-! ### Sources (R547, R554) -/

/-- A row of the defaults table: base, N, W in ms, ceiling; a source that never promotes keeps W at 1,000 (log 7). -/
def srcRow (base n wms ceiling : Nat) : SrcCfg := ⟨base, ceiling, n, wms⟩

/-- The rows of R554 for the sources of a slice, stook, media port, intake port and Rachis site. -/
def unitDefault (src : Nat) : SrcCfg :=
  if src < 0x400 then
    match src % 8 with
    | 0 => srcRow 1 64 1000 2
    | 1 => srcRow 3 0 1000 3
    | 2 => srcRow 1 0 1000 1
    | 3 => srcRow 1 16 1000 2
    | 4 => srcRow 2 0 1000 2
    | 7 => srcRow 2 0 1000 2
    | _ => srcRow 0 0 1000 0
  else if src < 0x480 then
    match src % 8 with
    | 0 => srcRow 1 64 1000 2
    | 1 => srcRow 2 0 1000 2
    | 2 => srcRow 2 0 1000 2
    | 4 => srcRow 1 16 1000 2
    | 5 => srcRow 1 16 1000 2
    | 6 => srcRow 4 0 1000 4
    | _ => srcRow 0 0 1000 0
  else if src < 0x500 then
    match src % 4 with
    | 0 => srcRow 1 16 1000 2
    | 1 => srcRow 1 4 1000 2
    | 2 => srcRow 2 0 1000 2
    | _ => srcRow 2 0 1000 4
  else if src < 0x540 then
    match src % 4 with
    | 1 => srcRow 1 0 1000 1
    | 3 => srcRow 4 0 1000 4
    | _ => srcRow 0 0 1000 0
  else if src % 2 = 0 then srcRow 1 64 1000 2 else srcRow 2 0 1000 2

/-- The row of a source in R554. -/
def srcDefault (src : Nat) : SrcCfg :=
  if src < 0x5A0 then unitDefault src
  else
    match src with
    | 0x5A0 => srcRow 2 0 1000 2
    | 0x5A1 => srcRow 3 0 1000 3
    | 0x5A3 => srcRow 1 64 1000 2
    | 0x5A6 => srcRow 2 0 1000 2
    | 0x5A7 => srcRow 4 0 1000 4
    | 0x5A8 => srcRow 3 0 1000 3
    | 0x5AA => srcRow 3 0 1000 3
    | 0x5C0 => srcRow 1 0 1000 1
    | 0x5C2 => srcRow 1 0 1000 1
    | 0x5C3 => srcRow 2 0 1000 2
    | 0x5C7 => srcRow 4 0 1000 4
    | 0x5D1 => srcRow 4 0 1000 4
    | 0x5D4 => srcRow 1 0 1000 1
    | 0x5D5 => srcRow 1 0 1000 1
    | 0x5D6 => srcRow 4 0 1000 4
    | 0x5D7 => srcRow 1 0 1000 1
    | 0x5DB => srcRow 4 0 1000 4
    | 0x5DC => srcRow 4 0 1000 4
    | 0x5F2 => srcRow 1 0 1000 1
    | 0x5F4 => srcRow 1 3 60000 2
    | _ => srcRow 0 0 1000 0

/-- Classification fields as they are read (R580): classes above 4 read as 4, a ceiling below the base as the base, a window of 0 as 1,000 ms. -/
def SrcCfg.read (c : SrcCfg) : SrcCfg :=
  let b := min 4 c.base
  ⟨b, max b (min 4 c.ceiling), c.n, if c.wms = 0 then 1000 else c.wms⟩

/-- The classification fields of a source as they are used (R580). -/
def State.srcCfg (s : State) (src : Nat) : SrcCfg :=
  (Tbl.get (srcDefault src) s.win.cfg src).read

end Sys2Proof.Machine
end

