-- ==== Sys2Proof/Machine/Code.lean ====
section
/-! DEFINITION. The codes of the home: the Reed-Solomon line code of R517 to R521, the metadata word of R198, the CRC-8 of
a tract-map entry (R431), the CRC-16 of R492, and the fields of a tract-map entry. -/

namespace Sys2Proof.Machine

/-! ### GF(2^8) (R518) -/

/-- Multiply by α = 0x02 modulo x^8 + x^4 + x^3 + x^2 + 1. -/
def gfTwice (a : Nat) : Nat := if a < 128 then 2 * a else (2 * a) ^^^ 0x11D

/-- The product of two field elements, over the low `k` bits of the second. -/
def gfMulN : Nat → Nat → Nat → Nat
  | 0, _, _ => 0
  | k + 1, a, b => (if b % 2 = 1 then a else 0) ^^^ gfMulN k (gfTwice a) (b / 2)

/-- The product of two field elements. -/
def gfMul (a b : Nat) : Nat := gfMulN 8 a b

/-- α to a power. -/
def gfExp : Nat → Nat
  | 0 => 1
  | k + 1 => gfTwice (gfExp k)

/-- The inverse of a field element, a^254. -/
def gfInv (a : Nat) : Nat :=
  let a2 := gfMul a a
  let a4 := gfMul a2 a2
  let a8 := gfMul a4 a4
  let a16 := gfMul a8 a8
  let a32 := gfMul a16 a16
  let a64 := gfMul a32 a32
  let a128 := gfMul a64 a64
  gfMul a128 (gfMul a64 (gfMul a32 (gfMul a16 (gfMul a8 (gfMul a4 a2)))))

/-! ### The line code -/

/-- Symbol `i` of a codeword (R517). -/
def Codeword.sym (c : Codeword) (i : Nat) : Nat := (c.toNat >>> (8 * i)) % 256

/-- The line bytes of a codeword. -/
def Codeword.line (c : Codeword) : Line := c.extractLsb' 0 512
/-- The metadata of a codeword. -/
def Codeword.info (c : Codeword) : Meta := c.extractLsb' 512 32

/-- One step of the division by g(x) = x^4 + 0x0F x^3 + 0x36 x^2 + 0x78 x + 0x40 (R518): the remainder's coefficients of
x^3 down to x^0 after one more symbol. -/
def rsStep (r : Nat × Nat × Nat × Nat) (s : Nat) : Nat × Nat × Nat × Nat :=
  let f := r.1 ^^^ s
  (r.2.1 ^^^ gfMul f 0x0F, r.2.2.1 ^^^ gfMul f 0x36, r.2.2.2 ^^^ gfMul f 0x78, gfMul f 0x40)

/-- The check symbols of a line and its metadata (R518). -/
def rsCheck (d : Line) (i : Meta) : Nat :=
  let x := i.toNat * 2 ^ 512 + d.toNat
  let r := (List.range 68).foldl (fun r k => rsStep r ((x >>> (8 * k)) % 256)) (0, 0, 0, 0)
  r.1 + 256 * r.2.1 + 65536 * r.2.2.1 + 16777216 * r.2.2.2

/-- The codeword of a line and its metadata (R517, R520). -/
def encodeLine (d : Line) (i : Meta) : Codeword := BitVec.ofNat 576 (rsCheck d i * 2 ^ 544 + i.toNat * 2 ^ 512 + d.toNat)

/-- C(α^j) (R518), by Horner's rule from symbol 0. -/
def syndrome (c : Codeword) (j : Nat) : Nat :=
  let a := gfExp j
  (List.range 72).foldl (fun r k => gfMul r a ^^^ Codeword.sym c k) 0

/-- The codeword with an error value added to symbol `i`. -/
def Codeword.fix (c : Codeword) (i e : Nat) : Codeword := c ^^^ BitVec.ofNat 576 (e <<< (8 * i))

/-- What a decode gives: the codeword and the corrected symbols with their error values. -/
abbrev Decoded := Codeword × List (Nat × Nat)

/-- Normal mode (R519): one symbol in error is corrected. -/
def decodeNormal (c : Codeword) : Option Decoded :=
  let s0 := syndrome c 0
  let s1 := syndrome c 1
  let s2 := syndrome c 2
  let s3 := syndrome c 3
  if s0 = 0 ∧ s1 = 0 ∧ s2 = 0 ∧ s3 = 0 then some (c, [])
  else if s0 = 0 then none
  else
    match (List.range 72).find? fun i =>
      let x := gfExp (71 - i)
      gfMul s0 x == s1 && gfMul s1 x == s2 && gfMul s2 x == s3 with
    | some i => some (Codeword.fix c i s0, [(i, s0)])
    | none => none

/-- Erasure mode with symbol `r` erased (R519): besides it, one symbol in error is corrected. -/
def decodeErase (c : Codeword) (r : Nat) : Option Decoded :=
  let s0 := syndrome c 0
  let s1 := syndrome c 1
  let s2 := syndrome c 2
  let s3 := syndrome c 3
  let xr := gfExp (71 - r)
  let t0 := s1 ^^^ gfMul xr s0
  let t1 := s2 ^^^ gfMul xr s1
  let t2 := s3 ^^^ gfMul xr s2
  if t0 = 0 ∧ t1 = 0 ∧ t2 = 0 then
    some (Codeword.fix c r s0, if s0 = 0 then [] else [(r, s0)])
  else if t0 = 0 then none
  else
    match (List.range 72).find? fun i =>
      let x := gfExp (71 - i)
      i != r && gfMul t0 x == t1 && gfMul t1 x == t2 with
    | some i =>
      let e := gfMul t0 (gfInv (gfExp (71 - i) ^^^ xr))
      let er := s0 ^^^ e
      some (Codeword.fix (Codeword.fix c i e) r er, if er = 0 then [(i, e)] else [(i, e), (r, er)])
    | none => none

/-- Decoding in the mode of a port: with its erasure entry when it has one (R520). -/
def decodeMode (erase : Option Nat) (c : Codeword) : Option Decoded :=
  match erase with
  | some r => decodeErase c r
  | none => decodeNormal c

/-- The first erasure-mode decode that succeeds, over a list of symbols (R521 step 3). -/
def decodeRetry (c : Codeword) : List Nat → Option Decoded
  | [] => none
  | r :: rest =>
    match decodeErase c r with
    | some d => some d
    | none => decodeRetry c rest

/-! ### The metadata word (R198) -/

/-- DIR_STATE. -/
def Meta.dirState (i : Meta) : Nat := (i.extractLsb' 0 2).toNat
/-- HOLDER. -/
def Meta.holder (i : Meta) : Nat := (i.extractLsb' 2 10).toNat
/-- DIR_GEN. -/
def Meta.dirGen (i : Meta) : Nat := (i.extractLsb' 12 4).toNat
/-- COLOUR. -/
def Meta.colour (i : Meta) : Nat := (i.extractLsb' 16 6).toNat
/-- POISON. -/
def Meta.poison (i : Meta) : Bool := i.getLsbD 22
/-- TRACT_GEN. -/
def Meta.tractGen (i : Meta) : Nat := (i.extractLsb' 23 4).toNat

/-- A metadata word from its fields; the reserved bits are zero. -/
def mkMeta (state holder gen colour : Nat) (poison : Bool) (tgen : Nat) : Meta :=
  BitVec.ofNat 32 (state % 4 + 4 * (holder % 1024) + 4096 * (gen % 16) + 65536 * (colour % 64) + 4194304 * b2n poison
    + 8388608 * (tgen % 16))

/-- New directory fields and, when set, POISON; colour and TRACT_GEN unchanged (R191). -/
def Meta.withDir (i : Meta) (state holder gen : Nat) (poison : Bool) : Meta :=
  mkMeta state holder gen (Meta.colour i) (poison || Meta.poison i) (Meta.tractGen i)

/-- POISON as given. -/
def Meta.withPoison (i : Meta) (p : Bool) : Meta :=
  mkMeta (Meta.dirState i) (Meta.holder i) (Meta.dirGen i) (Meta.colour i) p (Meta.tractGen i)

/-- TRACT_GEN as given. -/
def Meta.withGen (i : Meta) (g : Nat) : Meta :=
  mkMeta (Meta.dirState i) (Meta.holder i) (Meta.dirGen i) (Meta.colour i) (Meta.poison i) g

/-! ### CRCs -/

/-- One bit into the CRC-8 of R431. -/
def crc8Bit (c : Nat) (b : Bool) : Nat :=
  let f := bitN c 7 != b
  let c := (c * 2) % 256
  if f then c ^^^ 0x07 else c

/-- The low `k` bits of a number into the CRC-8, from bit 0 upwards. -/
def crc8Feed : Nat → Nat → Nat → Nat
  | 0, _, c => c
  | k + 1, x, c => crc8Feed k (x / 2) (crc8Bit c (x % 2 == 1))

/-- CHECK of a tract-map entry: bits [55:0] of the entry, then the tract index (R431). -/
def mapCheck (e tract : Nat) : Nat := crc8Feed 32 tract (crc8Feed 56 e 0)

/-- One bit into the CRC-16 of R492. -/
def crc16Bit (c : Nat) (b : Bool) : Nat :=
  let f := bitN c 15 != b
  let c := (c * 2) % 65536
  if f then c ^^^ 0x1021 else c

/-- The CRC-16 of R492 over bytes in ascending order, each from bit 7 down to bit 0. -/
def crc16 (bytes : List Byte) : Nat :=
  bytes.foldl (fun c d => [7, 6, 5, 4, 3, 2, 1, 0].foldl (fun c k => crc16Bit c (d.getLsbD k)) c) 0xFFFF

/-- One bit into the reflected CRC-32 of IEEE 802.3. -/
def crc32Bit (c : Nat) (b : Bool) : Nat :=
  let f := (c % 2 == 1) != b
  if f then (c / 2) ^^^ 0xEDB88320 else c / 2

/-- The CRC-32 of IEEE 802.3 over bytes (R605, R657). -/
def crc32 (bytes : List Byte) : Nat :=
  (bytes.foldl (fun c d => (List.range 8).foldl (fun c k => crc32Bit c (d.getLsbD k)) c) 0xFFFFFFFF) ^^^ 0xFFFFFFFF

/-! ### Tract-map entries (R431, R432) -/

/-- PORT. -/
def mePort (e : Quad) : Nat := fieldN e.toNat 0 5
/-- MTRACT. -/
def meTract (e : Quad) : Nat := fieldN e.toNat 5 27
/-- GEN. -/
def meGen (e : Quad) : Nat := fieldN e.toNat 32 4
/-- STATE. -/
def meState (e : Quad) : Nat := fieldN e.toNat 36 3
/-- PLATE_REF. -/
def mePlates (e : Quad) : Nat := fieldN e.toNat 39 8
/-- PART. -/
def mePart (e : Quad) : Nat := fieldN e.toNat 47 6

/-- An entry from its fields, with its CHECK. -/
def mkEntry (tract port mtract gen state plates part : Nat) : Quad :=
  let x := port % 32 + 32 * (mtract % 2 ^ 27) + 2 ^ 32 * (gen % 16) + 2 ^ 36 * (state % 8) + 2 ^ 39 * (plates % 256)
    + 2 ^ 47 * (part % 64)
  BitVec.ofNat 64 (x + 2 ^ 56 * mapCheck x tract)

/-- The entry with another STATE. -/
def meWith (tract : Nat) (e : Quad) (state : Nat) : Quad :=
  mkEntry tract (mePort e) (meTract e) (meGen e) state (mePlates e) (mePart e)

/-- The entry passes its check for the tract (R431). -/
def meOk (tract : Nat) (e : Quad) : Bool := fieldN e.toNat 56 8 == mapCheck (e.toNat % 2 ^ 56) tract

/-- NORMAL, or SHARED for a plate-shared tract (R432). -/
def restState (plates : Nat) : Nat := if plates = 0 then 1 else 3

/-! ### Little-endian lines -/

/-- A line from its first bytes, the rest zero. -/
def lineOf (bytes : List Byte) : Line := BitVec.ofNat 512 (ofLeBytes bytes)

/-- The enabled bytes of `d` over `base` (R256). -/
def mergeBytes (base d : Line) (be : Quad) : Line :=
  let m := (List.range 64).foldl (fun a k => if be.getLsbD k then a + (0xFF <<< (8 * k)) else a) 0
  let m := BitVec.ofNat 512 m
  (base &&& ~~~m) ||| (d &&& m)

end Sys2Proof.Machine
end

