-- ==== Sys2Proof/Machine/Net.lean ====
section
/-! DEFINITION. The network of Rachis (R484 to R503, R511): where its units lie, the header of a packet, the opcodes, the route, and how
the units of the packets on their way move from buffer to buffer until every packet has arrived. -/

namespace Sys2Proof.Machine

/-! ### The grid (R484, R485) -/

/-- The site of a stook (R484). -/
def stookSite (k : Nat) : Nat := 8 * (1 + k / 4) + 2 + k % 4

/-- A site that holds no router (R484). -/
def gapSite (x : Nat) : Bool := [0, 1, 6, 7, 40, 41, 46, 47].contains x

/-- The sites next to a site in its row or column that hold a router. -/
def nearSites (x : Nat) : List Nat :=
  let c := x % 8
  let r := x / 8
  ((if c = 0 then [] else [x - 1]) ++ (if c = 7 then [] else [x + 1]) ++ (if r = 0 then [] else [x - 8])
    ++ (if r = 5 then [] else [x + 8])).filter fun y => !gapSite y

/-- A unit that Rachis joins (R484). -/
inductive NetUnit
  | slice (n : Nat) | stook (k : Nat) | intake (i : Nat) | media (m : Nat) | twin (j : Nat)
  | meridian | winnow | alidade | placement | power
  deriving DecidableEq, Repr, Inhabited

/-- The relay stook of a media port's router (R484, R488). -/
def relayStook (m : Nat) : Nat := if m < 16 then m / 4 else 12 + (m - 16) / 4

/-- The sites of the twin routers T0 to T6 (R484). -/
def twinSites : List Nat := [9, 25, 33, 14, 22, 30, 38]

/-- The site of a unit's router, 8y + x (R484). -/
def NetUnit.site : NetUnit → Nat
  | .slice n => stookSite (n / 8)
  | .stook k => stookSite k
  | .intake i => if i < 8 then 8 * (1 + i / 2) else 8 * (1 + (i - 8) / 2) + 7
  | .media m => if m < 16 then 2 + m / 4 else 40 + 2 + (m - 16) / 4
  | .twin j => twinSites.getD j 9
  | _ => 17

/-- The local port of a unit at its router (R484). -/
def NetUnit.port : NetUnit → Nat
  | .slice n => n % 8
  | .stook _ => 8
  | .intake i => i % 2
  | .media m => m % 4
  | .twin _ => 0
  | .meridian => 0
  | .winnow => 1
  | .alidade => 2
  | .placement => 3
  | .power => 4

/-- The twin router that takes a slice's packets for the twin, and brings it the twin's (R485). -/
def twinOfSlice (n : Nat) : NetUnit := .twin (n % 7)

/-- The twin router that takes an intake port's packet with STREAM value `q` (R485). -/
def twinOfIntake (i q : Nat) : NetUnit := .twin ((i + q) % 7)

/-! ### The header (R492 to R495) -/

/-- Fields from bit 0 upwards, each a width and a value. -/
def packFields : List (Nat × Nat) → Nat
  | [] => 0
  | (w, v) :: r => v % 2 ^ w + 2 ^ w * packFields r

/-- Bits 239:0 of a header unit (R493). -/
def Hdr.low (h : Hdr) : Nat :=
  packFields [(3, h.dstX.toNat), (3, h.dstY.toNat), (4, h.dstPort.toNat), (3, h.srcX.toNat), (3, h.srcY.toNat), (4, h.srcPort.toNat),
    (2, h.cls.toNat), (3, h.prio.toNat), (2, h.vc.toNat), (1, b2n h.ord), (1, b2n h.genValid), (1, b2n h.poison), (2, h.devLoad.toNat),
    (8, h.opcode.toNat), (16, h.tag.toNat), (10, h.host.toNat), (6, h.part.toNat), (42, h.line.toNat), (4, h.tgen.toNat),
    (16, h.epoch.toNat), (12, h.stream.toNat), (4, h.length.toNat), (6, h.form.toNat), (3, h.plate.toNat), (1, b2n h.split),
    (64, h.aux.toNat), (16, 0)]

/-- A header unit as it travels: its fields with their CRC-16 in CHECK, little-endian (R492, R493, R15). -/
def Hdr.bits (h : Hdr) : BitVec 256 := BitVec.ofNat 256 (h.low + 2 ^ 240 * crc16 (leBytes 30 h.low))

/-- The side lane of a data unit: the CRC-16 of its 32 bytes (R492). -/
def sideLane (d : BitVec 256) : BitVec 16 := BitVec.ofNat 16 (crc16 (leBytes 32 d.toNat))

/-- A line as two data units, bytes 31 to 0 in the first (R492). -/
def lineUnits (x : Line) : List (BitVec 256) := [BitVec.ofNat 256 x.toNat, BitVec.ofNat 256 (x.toNat / 2 ^ 256)]

/-- The row of an opcode: class, virtual channel, and the numbers of data units it may have (R495); none for a reserved opcode. -/
def opRow : Nat → Option (Nat × Nat × List Nat)
  | 0x01 | 0x02 => some (0, 0, [0, 2])
  | 0x03 | 0x09 => some (0, 0, [2])
  | 0x08 | 0x0A | 0x11 => some (0, 0, [0])
  | 0x10 => some (0, 0, [0, 1, 2])
  | 0x12 => some (0, 0, [0, 1])
  | 0x20 => some (1, 1, [0])
  | 0x40 | 0x41 | 0x42 | 0x43 | 0x44 | 0x45 | 0x46 | 0x47 | 0x48 | 0x49 => some (2, 2, [0])
  | 0x60 | 0x61 | 0x62 => some (3, 2, [2])
  | 0x63 => some (3, 2, [1])
  | 0x70 | 0x71 | 0x72 | 0x73 | 0x74 => some (2, 3, [0])
  | _ => none

/-- The packet has the class, VC and length of its opcode's row (R495). -/
def Packet.formOk (p : Packet) : Bool :=
  match opRow p.hdr.opcode.toNat with
  | some (c, v, l) => p.hdr.cls.toNat == c && p.hdr.vc.toNat == v && l.contains p.hdr.length.toNat && p.data.length == p.hdr.length.toNat
  | none => false

/-- What a sender puts into a packet's header beside its address and its opcode (R493); a field that it leaves out is zero (R494). -/
structure PktF where
  prio : Nat := 0
  tag : Nat := 0
  host : Option Nat := none
  part : Nat := 0
  line : Nat := 0
  tgen : Option Nat := none
  pois : Bool := false
  load : Nat := 0
  epoch : Nat := 0
  stream : Nat := 0
  form : Nat := 0
  plate : Nat := 0
  aux : Nat := 0
  data : List (BitVec 256) := []
  /-- R511. The engine whose packet it is: tract-map walker, migration, patrol scrub, resynchronisation walk, Alidade. -/
  engine : Option Nat := none

/-- The header of a packet from one unit to another (R493): class and VC by its opcode, ORD on codeword commands (R499). -/
def hdrOf (split : Bool) (src dst : NetUnit) (op : Nat) (f : PktF) : Hdr :=
  let row := (opRow op).getD (0, 0, [])
  { dstX := BitVec.ofNat 3 dst.site, dstY := BitVec.ofNat 3 (dst.site / 8), dstPort := BitVec.ofNat 4 dst.port,
    srcX := BitVec.ofNat 3 src.site, srcY := BitVec.ofNat 3 (src.site / 8), srcPort := BitVec.ofNat 4 src.port,
    cls := BitVec.ofNat 2 row.1, prio := BitVec.ofNat 3 f.prio, vc := BitVec.ofNat 2 row.2.1, ord := op == 0x08 || op == 0x09 || op == 0x0A,
    genValid := f.tgen.isSome, poison := f.pois, devLoad := BitVec.ofNat 2 f.load, opcode := BitVec.ofNat 8 op, tag := BitVec.ofNat 16 f.tag,
    host := BitVec.ofNat 10 (f.host.getD 0), part := BitVec.ofNat 6 f.part, line := BitVec.ofNat 42 f.line, tgen := BitVec.ofNat 4 (f.tgen.getD 0),
    epoch := BitVec.ofNat 16 f.epoch, stream := BitVec.ofNat 12 f.stream, length := BitVec.ofNat 4 f.data.length, form := BitVec.ofNat 6 f.form,
    plate := BitVec.ofNat 3 f.plate, split := split, aux := BitVec.ofNat 64 f.aux }

/-! ### Packets for the twin (R485, R486, R500) -/

/-- The FORM field of a request echo (R391). -/
def echoForm : Form → Nat
  | .rdA => 0
  | .rdS => 1
  | .rdCur => 2
  | .rdI => 3
  | .rdNo => 4
  | .rdData => 5
  | .invA => 6
  | .invI => 7
  | .invNtA => 8
  | .invNtI => 9
  | .clnEvct => 10
  | _ => 11

/-- The 8-byte record of a request echo (R391). -/
def echoRecord (r : Req) : Quad :=
  BitVec.ofNat 64 (r.line % 2 ^ 42 + 2 ^ 42 * (r.part % 64) + 2 ^ 48 * echoForm r.form + 2 ^ 52 * b2n r.plate.isSome
    + 2 ^ 53 * (r.plate.getD 0 % 8))

/-- The number of an accepted form in the FORM field of a header (R138, R493): its row in the table of R102 (DESIGN CHOICE, log 19). -/
def formNum : Form → Nat
  | .rdA => 0
  | .rdS => 1
  | .rdCur => 2
  | .rdI => 3
  | .rdNo => 4
  | .rdData => 5
  | .invA => 6
  | .invI => 7
  | .invNtA => 8
  | .invNtI => 9
  | .clnEvct => 10
  | .specRd => 11
  | .biConf => 12
  | .wrI => 13
  | .wrS => 14
  | .wrNo => 15
  | .wrPtl => 16
  | .ticket => 17
  | .mbxLine => 18

/-- The 8-byte record of a doorbell echo (R391): FORM 15, and no line (DESIGN CHOICE: LINE is 0, for a doorbell names none; log 59). -/
def doorRecord (part : Nat) : Nat := 2 ^ 42 * (part % 64) + 2 ^ 48 * 15

/-- A packed record: its length in bits, and its value (R486); behind the record of a doorbell go its two words (R391). -/
def TwinMsg.entry : TwinMsg → Nat × Nat
  | .echo _ idx r cxl => (128, (echoRecord r).toNat + 2 ^ 64 * (r.host.getD 0 + 2 ^ 10 * (cxl % 65536) + 2 ^ 26 * idx))
  | .door _ idx host part word td => (256, doorRecord part + 2 ^ 64 * (host + 2 ^ 26 * idx) + 2 ^ 128 * word.toNat + 2 ^ 192 * (td % 2 ^ 64))
  | .release _ idx => (32, idx)
  | .settle _ line _ seq epoch echoes _ =>
    (128, line % 2 ^ 42 + 2 ^ 48 * (epoch % 65536) + 2 ^ 64 * seq + 2 ^ 96 * ((echoes.head?.map Prod.snd).getD 0) + 2 ^ 108 * ((echoes.head?.map Prod.fst).getD 0))
  | _ => (0, 0)

/-- The data units of packed records, in order from bit 0 (R486). -/
def packUnits (ms : List TwinMsg) : List (BitVec 256) :=
  let n := sumOf (fun m => m.entry.1) ms
  let v := packFields (ms.map TwinMsg.entry)
  (List.range ((n + 255) / 256)).map fun k => BitVec.ofNat 256 (v / 2 ^ (256 * k))

/-- The unit of Rachis that hands a message for the twin to a twin router: a slice or an intake port (R485), or none where the twin port has it
from elsewhere. -/
def TwinMsg.unit : TwinMsg → Option NetUnit
  | .echo i _ _ _ | .door i _ _ _ _ _ | .release i _ | .forward i _ | .response i _ _ _ _ _ => some (.intake i)
  | .settle n _ _ _ _ _ _ | .ack n _ | .recall n | .recalled n _ => some (.slice n)
  | _ => none

/-- The line whose slice hands a message to a twin router (R495): a clean notice or request, a record or its fetch, a line of the walk. -/
def TwinMsg.lineOf : TwinMsg → Option Nat
  | .clean l _ | .cleanReq l | .fetch l | .fetched l _ | .record l _ | .resync l _ _ _ _ | .resyncAck l => some l
  | _ => none

/-- The partition of a message that is a partition's request, response or data (R88); none for one of the home's own work. -/
def TwinMsg.part : TwinMsg → Option Nat
  | .echo _ _ r _ | .forward _ r => some r.part
  | .door _ _ _ p _ _ | .response _ _ p _ _ _ | .settle _ _ p _ _ _ _ => some p
  | _ => none

/-- What a message that travels by itself puts into its packet (R486, R493). -/
def TwinMsg.pktF : TwinMsg → PktF
  | .echo _ idx r cxl =>
    { tag := cxl, host := r.host, part := r.part, line := r.line, form := formNum r.form, aux := idx * 2 ^ 32, data := lineUnits r.data }
  | .forward _ r =>
    { tag := r.tag, host := r.host, part := r.part, line := r.line, form := formNum r.form, aux := r.be.toNat, data := if r.be = 0 then [] else lineUnits r.data }
  | .response _ tag part drs _ _ => { tag := tag, part := part, pois := (drs.map Prod.snd).getD false, data := (drs.map fun d => lineUnits d.1).getD [] }
  | .settle _ line part seq epoch echoes full =>
    { part := part, line := line, epoch := epoch, aux := seq + 2 ^ 32 * ((echoes.head?.map Prod.snd).getD 0), data := (full.map lineUnits).getD [] }
  | .ack _ seq => { aux := seq }
  | .door _ idx host part word _ => { aux := word.toNat, tag := idx, host := some host, part := part }
  | .clean line seq => { line := line, aux := seq }
  | .cleanReq line | .fetch line | .resyncAck line => { line := line }
  | .fetched line r | .record line r => { line := line, aux := r.state.toNat + 4 * r.holder.toNat }
  | .resync line part seq epoch d => { line := line, part := part, epoch := epoch, aux := seq, data := lineUnits d, engine := some 3 }
  | _ => {}

/-! ### Routing (R487, R489) -/

/-- The output by which a router hands a packet on (R487): a local port, 9 east, 10 west, 11 north, 12 south. -/
def routeOut (h : Hdr) (site : Nat) : Nat :=
  if site % 8 < h.dstX.toNat then 9
  else if h.dstX.toNat < site % 8 then 10
  else if site / 8 < h.dstY.toNat then 11
  else if h.dstY.toNat < site / 8 then 12
  else h.dstPort.toNat

/-- The site behind an output. -/
def siteAfter (site out : Nat) : Nat :=
  if out = 9 then site + 1 else if out = 10 then site - 1 else if out = 11 then site + 8 else site - 8

/-- The sites that a packet crosses from a site on, its last router included. -/
def routeFrom (h : Hdr) : Nat → Nat → List Nat
  | 0, site => [site]
  | k + 1, site => let o := routeOut h site; if o < 9 then [site] else site :: routeFrom h k (siteAfter site o)

/-- The links of the way between two units (R489). -/
def linksBetween (a b : NetUnit) : Nat := (routeFrom (hdrOf false a b 0x01 {}) 12 a.site).length - 1

/-! ### Buffers, planes and outputs (R496 to R503) -/

/-- The number of the buffer of a router input: site, input (a local port, or 9 to 12 by the way the packet came), plane, VC (R497). -/
def bufKey (site inp plane vc : Nat) : Nat := site * 512 + inp * 32 + plane * 4 + vc

/-- The number of the source port of a unit, which holds the units it has not sent on. -/
def srcKey (site port : Nat) : Nat := 32768 + site * 16 + port

/-- Packet `i` on its way. -/
def Rachis.pkt (r : Rachis) (i : Nat) : Packet := Tbl.get default r.pkts i

/-- The VC by which a packet is filed: its own, or the pooled buffer of its plane in split-plane mode (R503, R505). -/
def Packet.file (p : Packet) : Nat := if p.hdr.split then 0 else p.hdr.vc.toNat

/-- The front unit of a buffer. -/
def Rachis.front (r : Rachis) (b : Nat) : Option (Nat × Nat) := (Tbl.get [] r.bufs b).head?

/-- The link that the front unit of a buffer takes: the source port's own, or site × 16 + output. -/
def Rachis.linkOf (r : Rachis) (b : Nat) : Option Nat :=
  (r.front b).map fun u => if 32768 ≤ b then b else b / 512 * 16 + routeOut (r.pkt u.1).hdr (b / 512)

/-- The router at which a link starts. -/
def linkSite (l : Nat) : Nat := if 32768 ≤ l then (l - 32768) / 16 else l / 16

/-- The router input in which a link ends, or none at a unit. -/
def linkEnd (l : Nat) : Option (Nat × Nat) :=
  if 32768 ≤ l then some ((l - 32768) / 16, l % 16)
  else if 9 ≤ l % 16 then some (siteAfter (l / 16) (l % 16), l % 16)
  else none

/-- The planes of a link: four (R490), eight at the local port of a twin router (R485). -/
def linkPlanes (l : Nat) : Nat := if twinSites.contains (linkSite l) && (32768 ≤ l || l % 16 < 9) then 8 else 4

/-- A plane that is not out at a link's two ends for a packet's VC (R510). -/
def Rachis.usable (r : Rachis) (l vc plane : Nat) : Bool :=
  !(bitN (Tbl.get 0 r.planeOut (linkSite l)) plane && plane < 4) &&
    match linkEnd l with
    | some e => !(bitN (Tbl.get 0 r.planeOut e.1) plane && plane < 4) && !(bitN (Tbl.get 0 r.bufOut e.1) (4 * plane + vc) && plane < 4)
    | none => true

/-- Room for a unit at a link's end: 8 units a VC, or 32 pooled a plane in split-plane mode (R497, R503); a unit takes every packet (R501). -/
def Rachis.room (r : Rachis) (l : Nat) (p : Packet) (plane : Nat) : Bool :=
  match linkEnd l with
  | none => true
  | some e =>
    let len := fun v => (Tbl.get [] r.bufs (bufKey e.1 e.2 plane v)).length
    if p.hdr.split then decide (sumOf len [0, 1, 2, 3] < 32) else decide (len p.hdr.vc.toNat < 8)

/-- An output. -/
def Rachis.out (r : Rachis) (l : Nat) : NOut := Tbl.get ⟨3, 511, [], []⟩ r.outs l

/-- The link can give a new packet this plane now: no packet of its VC is under way there, and its header finds room (R496, R497). -/
def Rachis.open' (r : Rachis) (l : Nat) (p : Packet) (plane : Nat) : Bool :=
  (Tbl.find (r.out l).under (plane * 4 + p.file)).isNone && r.usable l p.hdr.vc.toNat plane && r.room l p plane

/-- The plane of a class in split-plane mode (R503). -/
def splitPlane (cls : Nat) : Nat := if cls = 0 then 0 else if cls = 1 then 2 else if cls = 2 then 1 else 3

/-- The plane that a link gives a packet: by class in split-plane mode (R503); LINE[1:0], or the next that is not out, for an ordered packet
(R499); else the first open one from the plane after the last given (R496). -/
def Rachis.planeFor (r : Rachis) (l : Nat) (p : Packet) : Option Nat :=
  if !r.bonded then
    let q := splitPlane p.hdr.cls.toNat
    if r.open' l p q then some q else none
  else if p.hdr.ord then
    (((List.range 4).map fun k => (p.hdr.line.toNat + k) % 4).find? fun q => r.usable l p.hdr.vc.toNat q).filter fun q => r.open' l p q
  else ((List.range (linkPlanes l)).map fun k => ((r.out l).last + 1 + k) % linkPlanes l).find? fun q => r.open' l p q

/-- The place of a head in the order of an output (R498): one passed over AGE_GRANTS times (DEDUCED, log 19), then VC3,
then by PRIO, equal ones in turn. -/
def Rachis.rank (r : Rachis) (l b : Nat) (i : Nat) : Nat :=
  let h := (r.pkt i).hdr
  (if r.ageGrants ≤ Tbl.get 0 r.passed i then 0 else if h.vc = 3 then 1 else 2 + (7 - h.prio.toNat)) * 512
    + (b % 512 + 511 - (r.out l).served) % 512

/-- The heads that wait at a link: buffers whose front is a header not yet under way there. -/
def Rachis.heads (r : Rachis) (l : Nat) : List (Nat × Nat) :=
  r.bufs.filterMap fun x =>
    match r.front x.1 with
    | some (i, 0) => if r.linkOf x.1 = some l ∧ !((r.out l).under.any fun u => u.2.2 == i) then some (x.1, i) else none
    | _ => none

/-- The count at a holding offset, as `State.bump` keeps it (R682). -/
def countUp (live : Tbl Nat) (off lsb w k : Nat) : Tbl Nat :=
  Tbl.set live (off * 64 + lsb) (min (2 ^ w - 1) (Tbl.get 0 live (off * 64 + lsb) + k))

/-- An output gives the next head its plane (R496, R498), and the router counts it (R689). -/
def Rachis.give (r : Rachis) (live : Tbl Nat) (l : Nat) : Rachis × Tbl Nat :=
  let hs := r.heads l
  match (sortBy (fun x => r.rank l x.1 x.2) (hs.filter fun x => (r.planeFor l (r.pkt x.2)).isSome)).head? with
  | none => (r, live)
  | some x =>
    match r.planeFor l (r.pkt x.2) with
    | none => (r, live)
    | some q =>
      let o := r.out l
      let o := { o with last := q, served := x.1 % 512, under := Tbl.set o.under (q * 4 + (r.pkt x.2).file) x }
      let c := 0x0A0400 + 24 * linkSite l
      let live := if 32768 ≤ l ∨ 3 < q then live else countUp live (c + 8 * (q / 2)) (32 * (q % 2)) 32 1
      let live := if 32768 ≤ l ∨ Tbl.get 0 r.passed x.2 < r.ageGrants then live else countUp live (c + 16) 56 8 1
      ({ r with outs := Tbl.set r.outs l o,
                passed := hs.foldl (fun t y => if y.2 = x.2 then Tbl.del t y.2 else Tbl.set t y.2 (min 255 (Tbl.get 0 t y.2 + 1))) r.passed }, live)

/-! ### Statistics (R511) -/

/-- Units of 32 bytes counted out or in at the statistics records. -/
def Rachis.countPkt (r : Rachis) (inn : Bool) (units : Nat) (recs : List Nat) : Rachis :=
  if !r.statsEn then r
  else { r with stats := recs.foldl (fun t k =>
    let x := Tbl.get ⟨0, 0, 0, 0, []⟩ t k
    Tbl.set t k (if inn then { x with bytesIn := (x.bytesIn + 32 * units) % 2 ^ 64, pktsIn := (x.pktsIn + 1) % 2 ^ 64 }
      else { x with bytesOut := (x.bytesOut + 32 * units) % 2 ^ 64, pktsOut := (x.pktsOut + 1) % 2 ^ 64 })) r.stats }

/-- The latency bucket of a time in ns (R512). -/
def latencyBucket (d : Nat) : Nat :=
  if d < 64 then 0 else if d < 128 then 1 else if d < 256 then 2 else if d < 512 then 3 else if d < 1024 then 4
  else if d < 4096 then 5 else if d < 16384 then 6 else 7

/-- A latency counts at its statistics record, saturating (R512). -/
def Rachis.latency (r : Rachis) (k d : Nat) : Rachis :=
  if !r.statsEn then r
  else
    let x := Tbl.get ⟨0, 0, 0, 0, []⟩ r.stats k
    let b := (List.range 8).map fun i => let v := x.buckets.getD i 0; if i = latencyBucket d then min 0xFFFFFFFF (v + 1) else v
    { r with stats := Tbl.set r.stats k { x with buckets := b } }

/-- The statistics record of a unit that initiates packets (R511, R652). -/
def NetUnit.stat : NetUnit → List Nat
  | .intake i => [i]
  | .slice n => [1040 + n]
  | .alidade => [1172]
  | _ => []

/-- The statistics records that count a packet at a unit: the engine's own, or the unit's, and at an intake port the host port's (R511). -/
def statRecs (u : NetUnit) (f : PktF) : List Nat :=
  match f.engine, u with
  | some e, .slice _ => [1168 + e]
  | some e, .placement => [1168 + e]
  | _, .intake i => i :: (f.host.map fun h => 16 + h).toList
  | _, u => u.stat

/-! ### The way of the packets -/

/-- A packet has arrived: its receiver's record counts it (R511); one with a form error is dropped and counted (R495, R507). -/
def Rachis.deliver (r : Rachis) (live : Tbl Nat) (l i : Nat) : Rachis × Tbl Nat :=
  let p := r.pkt i
  let r := { r with pkts := Tbl.del r.pkts i, passed := Tbl.del r.passed i }
  if p.formOk then (r.countPkt true (1 + p.data.length) p.ins, live)
  else (r, countUp live (0x0A0400 + 24 * linkSite l + 16) 24 8 1)

/-- The next unit of one plane of a link: of the packets under way there, VCs in turn (R497). -/
def Rachis.unitFor (r : Rachis) (l plane : Nat) : Option (Nat × Nat × Nat) :=
  let o := r.out l
  let vs := (List.range 4).map fun k => (Tbl.get 3 o.turn plane + 1 + k) % 4
  (vs.filterMap fun v => (Tbl.find o.under (plane * 4 + v)).map fun x => (v, x.1, x.2)).find? fun y =>
    ((r.front y.2.1).map Prod.fst == some y.2.2) && r.room l (r.pkt y.2.2) plane

/-- A buffer with its content, none listed where it is empty. -/
def Rachis.setBuf (r : Rachis) (b : Nat) (us : List (Nat × Nat)) : Rachis :=
  { r with bufs := if us.isEmpty then Tbl.del r.bufs b else Tbl.set r.bufs b us }

/-- A header enters a router: the router has work, and wakes (R48, R49). -/
def Rachis.enter (r : Rachis) (now site : Nat) : Rachis :=
  { r with entered := Tbl.set r.entered site now, fallow := r.fallow.filter (· != site),
           woke := if r.fallow.contains site then Tbl.set r.woke site now else r.woke }

/-- One unit moves on one plane of a link (R490, R497). -/
def Rachis.moveUnit (r : Rachis) (live : Tbl Nat) (now l plane : Nat) : Rachis × Tbl Nat :=
  match r.unitFor l plane with
  | none => (r, live)
  | some (v, b, i) =>
    match Tbl.get [] r.bufs b with
    | [] => (r, live)
    | u :: rest =>
      let last := u.2 = (r.pkt i).data.length
      let o := r.out l
      let o := { o with turn := Tbl.set o.turn plane v, under := if last then Tbl.del o.under (plane * 4 + v) else o.under }
      let r := { r.setBuf b rest with outs := Tbl.set r.outs l o }
      match linkEnd l with
      | some e =>
        let d := bufKey e.1 e.2 plane v
        let r := r.setBuf d (Tbl.get [] r.bufs d ++ [u])
        (if u.2 = 0 then r.enter now e.1 else r, live)
      | none => if last then r.deliver live l i else (r, live)

/-- A round of one link: heads are given planes, and each plane moves a unit. -/
def Rachis.linkRound (now : Nat) (x : Rachis × Tbl Nat) (l : Nat) : Rachis × Tbl Nat :=
  let x := (List.range (linkPlanes l)).foldl (fun x _ => x.1.give x.2 l) x
  (List.range (linkPlanes l)).foldl (fun x q => x.1.moveUnit x.2 now l q) x

/-- A round of the network: every link with a unit at its start. -/
def Rachis.round (now : Nat) (x : Rachis × Tbl Nat) : Rachis × Tbl Nat :=
  ((x.1.bufs.filterMap fun b => x.1.linkOf b.1).eraseDups).foldl (Rachis.linkRound now) x

/-- Rounds until every packet has arrived (R502), at most so many. -/
def Rachis.rounds (now : Nat) : Nat → Rachis × Tbl Nat → Rachis × Tbl Nat
  | 0, x => x
  | k + 1, x => if x.1.pkts.isEmpty then x else Rachis.rounds now k (Rachis.round now x)

/-- A packet is handed to its source's router port (R501), and counted (R511). -/
def Rachis.sendPkt (r : Rachis) (src dst : NetUnit) (op : Nat) (f : PktF) : Rachis :=
  let h := hdrOf (!r.bonded) src dst op f
  let b := srcKey src.site src.port
  { r.countPkt false (1 + f.data.length) (statRecs src f) with
    pkts := Tbl.set r.pkts r.pktNum ⟨h, f.data, statRecs dst f⟩,
    pktNum := r.pktNum + 1,
    bufs := Tbl.set r.bufs b (Tbl.get [] r.bufs b ++ (List.range (1 + f.data.length)).map fun k => (r.pktNum, k)) }

end Sys2Proof.Machine
end

