-- ==== Sys2Proof/Machine/Ops.lean ====
section
/-! DEFINITION. The named operations that every meaning uses: access to the units, Meridian time,
counters, events, the address arithmetic of R16 and R73, and the records that a fault leaves in the partition logs. -/

namespace Sys2Proof.Machine

/-! ### The units and their reset values -/

/-- An event log at reset (R134). -/
def EvLog.init : EvLog := ⟨[], 1, false, 0, 0, 0⟩

/-- The logs of a function at reset (R134). -/
def EvLogs.init : EvLogs := ⟨EvLog.init, EvLog.init, EvLog.init, EvLog.init, [0, 0, 0, 0]⟩

/-- The defaults of R59. -/
def PartCfg.init : PartCfg :=
  { dataBase := 0, dataSize := 0, winBase := 0, winSlots := 0, visMode := false, wayMask := 0xFFFF, trkMin := 0,
    trkMax := 512, cqMax := 64, filterMin := 0, filterMax := 32768, priority := 3, fastQuota := 0, hold := false }

/-- A partition at reset (R59, R62). -/
def Part.init : Part :=
  { cfg := PartCfg.init, st := .free, overlap := false, trkRes := false, fltRes := false, drained := false, ticketBase := 0,
    ticketSlots := 0, reserve := 0, resUsed := [], winBind := [], plates := [], logs := EvLogs.init, poison := [],
    poisonAt := [], pairs := [], unfinished := false, shutdown := 0, lsa := [], alerts := [], stamp := none, goal := 0, kFactor := 12,
    wasEnabled := false, quietPend := false, heldSince := none, holdEv := false, reqs := 0, fwds := 0, hist := [],
    lastRole := none }

/-- A host port at reset (R69, R128). -/
def HostPort.init : HostPort :=
  { memb := 0, reqCr := 48, rwdCr := 16, intake := 0, enable := false, unresp := false, credRes := false, reqUsed := 0,
    rwdUsed := 0, owedReq := 0, owedRwd := 0, wh66 := false }

/-- An intake port at reset. -/
def Intake.init : Intake :=
  { kept := [], tag := 0, num := [], used := [], snoops := [], retired := [], snpCredits := 0, bars := [], barId := 0,
    moving := [], echo := 0, echoPack := ⟨[], 0⟩, relPack := ⟨[], 0⟩, acks := [], stopped := [], halted := false }

/-- A slice's front end at reset (R137, R156). -/
def Front.init : Front :=
  { ents := [], streams := [], nextNum := [], ptr := 0, queue := [], parked := [], cq := [], seq := 0, pends := [],
    lastAccept := [], snpCount := 0, access := 0, phase := 0, notes := [],
    pack := ⟨[], 0⟩ }

/-- The banks of slice `n` at reset (R241, R274). -/
def Banks.init (n : Nat) : Banks :=
  { flt := [], fltOff := 0, spills := [], dirw := [], restored := [], grn := [], waiters := [], fills := [],
    lfsr := BitVec.ofNat 16 0xACE1 ^^^ BitVec.ofNat 16 (n * 256), ctl := ⟨3, 2, false⟩, grnOff := 0, wt := false, tbuf := [],
    moves := [], held := [], splitCache := [] }

/-- Slice `n` at reset (R709, R172). -/
def Slice.init (n : Nat) : Slice :=
  { enable := false, prepare := false, phase := .run, handAt := 0, handOver := false, cover := none, fallow := false, busyAt := 0, woke := 0,
    sealed := 0, seen := [], wtOnWake := false, front := Front.init, banks := Banks.init n }

/-- A stook controller at reset. -/
def Stook.init : Stook :=
  { fallowEn := true, fallow := false, busyAt := 0, woke := 0, fenced := false, ceLog := [], ceLost := 0, lanes := [], cols := [], heat := [],
    got := [], marks := List.replicate 16 0, cold := [], seen := [] }

/-- A media port at reset (R477, R544, R695). -/
def MPort.init : MPort :=
  { fast := false, enable := false, ops := [], opId := 0, spareUsed := false, steered := 0, erase := false, eraseSym := 0,
    erasePerm := false, retiring := false, steerDone := false, passOk := false, present := false, mapPort := false,
    draining := false, dataTracts := 0, size := 0, ledger := [], traffic := 0, past := [], writes := 0, overRounds := 0 }

/-- An instant slot at reset (R330). -/
def Slot.init : Slot := ⟨0, 0, false, .idle, 0, 0, 0, .register, none, none⟩

/-- Partition `p`. -/
def State.part (s : State) (p : Nat) : Part := Tbl.get Part.init s.parts p
/-- Host port `h`. -/
def State.hp (s : State) (h : Nat) : HostPort := Tbl.get HostPort.init s.hosts h
/-- Intake port `i`. -/
def State.ip (s : State) (i : Nat) : Intake := Tbl.get Intake.init s.intakes i
/-- Slice `n`. -/
def State.slc (s : State) (n : Nat) : Slice := Tbl.get (Slice.init n) s.slices n
/-- Stook `k`. -/
def State.stk (s : State) (k : Nat) : Stook := Tbl.get Stook.init s.stooks k
/-- Media port `m`. -/
def State.mp (s : State) (m : Nat) : MPort := Tbl.get MPort.init s.mports m
/-- Instant slot `k`. -/
def State.slot (s : State) (k : Nat) : Slot := Tbl.get Slot.init s.mer.slots k

/-- The state with partition `p` changed. -/
def State.onPart (s : State) (p : Nat) (f : Part → Part) : State := { s with parts := Tbl.set s.parts p (f (s.part p)) }
/-- The state with host port `h` changed. -/
def State.onHp (s : State) (h : Nat) (f : HostPort → HostPort) : State := { s with hosts := Tbl.set s.hosts h (f (s.hp h)) }
/-- The state with intake port `i` changed. -/
def State.onIp (s : State) (i : Nat) (f : Intake → Intake) : State := { s with intakes := Tbl.set s.intakes i (f (s.ip i)) }
/-- The state with slice `n` changed. -/
def State.onSlc (s : State) (n : Nat) (f : Slice → Slice) : State := { s with slices := Tbl.set s.slices n (f (s.slc n)) }
/-- The state with the front end of slice `n` changed. -/
def State.onFront (s : State) (n : Nat) (f : Front → Front) : State := s.onSlc n fun c => { c with front := f c.front }
/-- The state with the banks of slice `n` changed. -/
def State.onBanks (s : State) (n : Nat) (f : Banks → Banks) : State := s.onSlc n fun c => { c with banks := f c.banks }
/-- The state with stook `k` changed. -/
def State.onStk (s : State) (k : Nat) (f : Stook → Stook) : State := { s with stooks := Tbl.set s.stooks k (f (s.stk k)) }
/-- The state with media port `m` changed. -/
def State.onMp (s : State) (m : Nat) (f : MPort → MPort) : State := { s with mports := Tbl.set s.mports m (f (s.mp m)) }
/-- Every listed value of a table changed. -/
def Tbl.mapv {α : Type} (f : α → α) (t : Tbl α) : Tbl α := t.map fun x => (x.1, f x.2)

/-- The state with every listed slice changed. -/
def State.allSlc (s : State) (f : Slice → Slice) : State := { s with slices := Tbl.mapv f s.slices }
/-- The state with the banks of every listed slice changed. -/
def State.allBanks (s : State) (f : Banks → Banks) : State := s.allSlc fun c => { c with banks := f c.banks }
/-- The state with every listed intake port changed. -/
def State.allIps (s : State) (f : Intake → Intake) : State := { s with intakes := Tbl.mapv f s.intakes }
/-- The state with every listed stook changed. -/
def State.allStks (s : State) (f : Stook → Stook) : State := { s with stooks := Tbl.mapv f s.stooks }
/-- The state with slot `k` changed. -/
def State.onSlot (s : State) (k : Nat) (f : Slot → Slot) : State :=
  { s with mer := { s.mer with slots := Tbl.set s.mer.slots k (f (s.slot k)) } }
/-- The state with the Meridian unit changed. -/
def State.onMer (s : State) (f : Mer → Mer) : State := { s with mer := f s.mer }
/-- The state with the twin unit changed. -/
def State.onTwin (s : State) (f : Twin → Twin) : State := { s with twin := f s.twin }
/-- The state with the placement engine changed. -/
def State.onPlace (s : State) (f : Place → Place) : State := { s with place := f s.place }

/-- The state with Winnow changed. -/
def State.onWin (s : State) (f : Win → Win) : State := { s with win := f s.win }
/-- The state with Rachis changed. -/
def State.onRch (s : State) (f : Rachis → Rachis) : State := { s with rch := f s.rch }
/-- The state with the block control registers changed. -/
def State.onBlk (s : State) (f : Blk → Blk) : State := { s with blk := f s.blk }
/-- The state with the power and OTP unit changed. -/
def State.onPwr (s : State) (f : Pwr → Pwr) : State := { s with pwr := f s.pwr }
/-- A mailbox at reset (R624). -/
def MBox.init : MBox :=
  { opcode := 0, inLen := 0, outLen := 0, status := 0, doorbell := false, bgRun := false, bgAbort := false, bgOpcode := 0,
    bgProgress := 0, bgStatus := 0, tag := 0, acceptAt := 0, doneAt := 0, detail := 0, bgLeft := 0, payload := [], wait := none,
    bg := none }
/-- Mailbox `m` (R622). -/
def State.box (s : State) (m : Nat) : MBox := Tbl.get MBox.init s.mbx m
/-- The state with mailbox `m` changed. -/
def State.onBox (s : State) (m : Nat) (f : MBox → MBox) : State := { s with mbx := Tbl.set s.mbx m (f (s.box m)) }

/-- The tracker entry `e` of slice `n` (R137). -/
def State.ent (s : State) (n e : Nat) : Option Entry := Tbl.find (s.slc n).front.ents e
/-- The state with the tracker entry `e` of slice `n` written. -/
def State.putEnt (s : State) (n e : Nat) (x : Entry) : State := s.onFront n fun f => { f with ents := Tbl.set f.ents e x }
/-- The state with the tracker entry `e` of slice `n` changed, if it is allocated. -/
def State.onEnt (s : State) (n e : Nat) (g : Entry → Entry) : State :=
  match s.ent n e with
  | some x => s.putEnt n e (g x)
  | none => s
/-- The media reads of a tracker entry that leaves have no taker any more: a codeword that returns for one is checked and let go. -/
def MPort.noTaker (n e : Nat) (q : MPort) : MPort :=
  { q with ops := q.ops.map fun o => if o.slice = n ∧ (o.purp = .read e ∨ o.purp = .scrub e) then { o with purp := .read 1023 } else o }
/-- The state with the tracker entry `e` of slice `n` FREE; the slice may be idle from now on (R46). -/
def State.dropEnt (s : State) (n e : Nat) : State :=
  let s := s.onSlc n fun c => { c with busyAt := s.now, front := { c.front with ents := Tbl.del c.front.ents e } }
  { s with mports := Tbl.mapv (MPort.noTaker n e) s.mports }

/-- Repeat a change of the state over a list. -/
def State.each {α : Type} (f : α → State → State) : List α → State → State
  | [], s => s
  | a :: r, s => State.each f r (f a s)

/-! ### Time, output, counters, events -/

/-- Meridian time as the block reads it: 0 while UNLOCKED (R286). -/
def State.time (s : State) : Nat := if s.mer.st = .unlocked then 0 else s.now

/-- A message leaves the block. -/
def State.send (s : State) (o : Out) : State := { s with out := s.out ++ [o] }


/-- A fresh free value (assumption log 5). -/
def State.fresh (s : State) : Quad × State := (Config.freeValue s.free, { s with free := s.free + 1 })

/-- Add `k` to the packed count of `w` bits at bit `lsb` of the counter at holding offset `off`; a packed count saturates
(R682). -/
def State.bump (s : State) (off lsb w k : Nat) : State :=
  let key := off * 64 + lsb
  if k = 0 then s
  else { s with live := Tbl.set s.live key (min (2 ^ w - 1) (Tbl.get 0 s.live key + k)) }

/-- A counter that keeps the highest or the last value of something (R690). -/
def State.gauge (s : State) (off lsb v : Nat) : State := { s with live := Tbl.set s.live (off * 64 + lsb) v }

/-- The count of time in the state of the Meridian unit (R690), up to a time. -/
def State.elapseMer (s : State) (t : Nat) : State :=
  match s.mer.st with
  | .unlocked => s
  | .locked => s.bump 0x0A0910 0 64 (t / 1000 - s.now / 1000)
  | .holdover => s.bump 0x0A0918 0 32 (t / 1000000 - s.now / 1000000)
  | .twinSteered => s.bump 0x0A0918 32 32 (t / 1000000 - s.now / 1000000)
  | .free => s.bump 0x0A0920 0 32 (t / 1000000 - s.now / 1000000)

/-- The count of time in the modes of Rachis (R690), up to a time. -/
def State.elapseRch (s : State) (t : Nat) : State :=
  if s.pwr.step < 4 then s
  else if s.rch.bonded then s.bump 0x0A0A80 0 48 (t / 1000 - s.now / 1000)
  else s.bump 0x0A0A78 0 64 (t / 1000 - s.now / 1000)

/-- The counts of time in the states of the Meridian unit and of Rachis (R690), up to a time. -/
def State.elapse (s : State) (t : Nat) : State := (s.elapseMer t).elapseRch t

/-- Rachis carries the packets that are on their way to where they go (R487 to R503): what the step before has sent arrives before the next
one begins. -/
def State.carry (s : State) : State :=
  if s.rch.pkts.isEmpty then s
  else let x := Rachis.rounds s.now 4096 (s.rch, s.live); { s with rch := x.1, live := x.2 }

/-- What `d` ns of the block's own count move of the slew outstanding, in 2^-16 ns: at most 100 ppm of the time (R280). -/
def Clock.moved (c : Clock) (d : Nat) : Int :=
  let m : Int := (d * 65536 / 10000 : Nat)
  max (-m) (min m c.slew)

/-- Meridian time after `d` ns of the block's own count, in 2^-16 ns: within the 64 bits of R278, and never back (R280). -/
def State.advance (s : State) (d : Nat) : Nat :=
  let old := s.now * 65536 + s.clk.frac
  max old (min (2 ^ 80 - 1) (old + ((d * 65536 : Int) + s.clk.moved d).toNat))

/-- The clock after `d` ns of the block's own count, and how often a replica was corrected: replicas run on unslewed, and one is corrected
before it is 1 ns away from Meridian time (R279; log 41). -/
def Clock.run (c : Clock) (d frac : Nat) : Clock × Nat :=
  let m := c.moved d
  let r := c.reps.map fun x => (x - m).natAbs / 65536
  ({ raw := c.raw + d, frac := frac, slew := c.slew - m,
     reps := c.reps.map fun x => if (x - m).natAbs < 65536 then x - m else 0 }, sumOf id r)

/-- A packet enters Rachis (R492), which runs from start-up step 4 on (R504). -/
def State.packet (s : State) (src dst : NetUnit) (op : Nat) (f : PktF) : State :=
  if s.pwr.step < 4 then s else s.onRch fun r => r.sendPkt src dst op f

/-- The Meridian unit aligns the replicas that have been corrected (R279, R495). -/
def State.align (s : State) (old : List Int) (d : Nat) : State :=
  let m := s.clk.moved d
  State.each (fun k s => s.packet .meridian (.stook k) 0x73 { aux := s.now }) ((List.range 16).filter fun k => 65536 ≤ ((old.getD k 0) - m).natAbs) s

/-- The state at the count `t` of the block's own clock (log 1): Meridian time has advanced with it and has slewed (R280). -/
def State.tick (s : State) (t : Nat) : State :=
  let s := s.carry
  if t ≤ s.clk.raw then s
  else
    let d := t - s.clk.raw
    let n := s.advance d
    let c := s.clk.run d (n % 65536)
    { ((s.align s.clk.reps d).elapse (n / 65536)).bump 0x0A0908 32 32 c.2 with now := n / 65536, clk := c.1 }

/-- The parity of the home offset bits listed (R73); the bits are those of a line address, offset bit `i` at `i - 6`. -/
def parity (line : Nat) (bits : List Nat) : Nat := (sumOf (fun i => b2n (bitN line (i - 6))) bits) % 2

/-- The slice hash of R73. -/
def sliceOf (line : Nat) : Nat :=
  64 * parity line [13, 20, 27, 34, 41] + 32 * parity line [12, 19, 26, 33, 40, 47] +
  16 * parity line [11, 18, 25, 32, 39, 46] + 8 * parity line [10, 17, 24, 31, 38, 45] +
  4 * parity line [16, 23, 30, 37, 44] + 2 * parity line [15, 22, 29, 36, 43] + parity line [14, 21, 28, 35, 42]

/-- The buddy slice (R3). -/
def buddy (n : Nat) : Nat := n ^^^ 8

/-- The home slice of a line: the buddy while its slice is fenced or handed over (R26, R74). -/
def State.homeSlice (s : State) (line : Nat) : Nat :=
  let n := sliceOf line
  match (s.slc n).phase with
  | .fenced | .covered | .returning => buddy n
  | _ => n

/-- The priority of the packets of a partition (R88). -/
def State.prio (s : State) (p : Nat) : Nat := (s.part p).cfg.priority.toNat

/-- A packet for the twin port from its source's router port, with the next of the source's STREAM numbers (R485, R500). -/
def State.twinPkt (s : State) (u : NetUnit) (f : PktF) : State :=
  let go := fun (key : Nat) (dst : Nat → NetUnit) =>
    let q := Tbl.get 0 s.rch.twinNum key
    (s.packet u (dst q) 0x10 { f with stream := q }).onRch fun r => { r with twinNum := Tbl.set r.twinNum key ((q + 1) % 4096) }
  match u with
  | .slice n => go n fun _ => twinOfSlice n
  | .intake i => go (128 + i) fun q => twinOfIntake i q
  | _ => s

/-- A packet of the twin port interface for a slice or an intake port (R485), with the next of the STREAM numbers that the twin routers keep for
it (R500). -/
def State.twinIn (s : State) (u : NetUnit) (op : Nat) (f : PktF) : State :=
  let go := fun (key : Nat) (src : Nat → NetUnit) =>
    let q := Tbl.get 0 s.rch.twinNum key
    (s.packet (src q) u op { f with stream := q }).onRch fun r => { r with twinNum := Tbl.set r.twinNum key ((q + 1) % 4096) }
  match u with
  | .slice n => go (256 + n) fun _ => twinOfSlice n
  | .intake i => go (384 + i) fun q => twinOfIntake i q
  | _ => s

/-- The Meridian unit sends the stook controllers word of an armed instant or a barrier (R294, R363, R495; log 19). -/
def State.order (s : State) (f : PktF) : State := State.each (fun k s => s.packet .meridian (.stook k) 0x74 f) (List.range 16) s

/-- A message to the twin, handed over in order (R389), in a packet of its own where it crosses Rachis (R486); none after the drain of the
fail-safe state (R572 step 7). -/
def State.toTwin (s : State) (m : TwinMsg) : State :=
  if s.win.failsafe && !s.win.draining then s
  else
    let s := s.send (.twin m)
    let f := { m.pktF with prio := (m.part.map s.prio).getD 0 }
    match m with
    | .recalled n lines => State.each (fun x s => s.twinPkt (.slice n) { prio := s.prio x.part.val, line := x.line.toNat, part := x.part.val, pois := x.pois, aux := x.seq.toNat, data := lineUnits x.data }) lines s
    | m =>
      match m.unit, m.lineOf with
      | some u, _ => s.twinPkt u f
      | none, some l => s.twinPkt (.slice (s.homeSlice l)) f
      | none, none => s

/-- A source hands its packing buffer to its twin router: the records of one kind in one packet (R486). -/
def State.toTwinPack (s : State) (u : NetUnit) (ms : List TwinMsg) : State :=
  if ms.isEmpty || (s.win.failsafe && !s.win.draining) then s
  else (State.each (fun m s => s.send (.twin m)) ms s).twinPkt u { aux := ms.length, data := packUnits ms }

/-- A latency counts at a statistics record (R512). -/
def State.latency (s : State) (k since : Nat) : State := s.onRch fun r => r.latency k (s.now - since)

/-- Add one to a count of slice `n` (R685). -/
def State.bumpSlc (s : State) (n c lsb w : Nat) : State := s.bump (0x200100 + 0x4000 * n + 8 * c) lsb w 1
/-- Add one to a count of stook `k` (R686). -/
def State.bumpStk (s : State) (k c lsb w : Nat) : State := s.bump (0x100100 + 0x10000 * k + 8 * c) lsb w 1
/-- Add one to a count of intake port `i` (R689). -/
def State.bumpIp (s : State) (i c lsb w : Nat) : State := s.bump (0x09C800 + 64 * i + 8 * c) lsb w 1
/-- Add one to a count of media port `m` (R689). -/
def State.bumpMp (s : State) (m c lsb w : Nat) : State := s.bump (0x09CC00 + 32 * m + 8 * c) lsb w 1
/-- Add one to a count of partition `p` (R689). -/
def State.bumpPart (s : State) (p c lsb w : Nat) : State := s.bump (0x0A0000 + 16 * p + 8 * c) lsb w 1
/-- Add one to a count of the Meridian unit (R690). -/
def State.bumpMer (s : State) (c lsb w : Nat) : State := s.bump (0x0A0900 + 8 * c) lsb w 1
/-- Add one to a count of Winnow (R690). -/
def State.bumpWin (s : State) (c lsb w : Nat) : State := s.bump (0x0A0940 + 8 * c) lsb w 1
/-- Add one to a count of the twin unit (R690). -/
def State.bumpTwn (s : State) (c lsb w : Nat) : State := s.bump (0x0A0980 + 8 * c) lsb w 1
/-- Add one to a count of the placement engine (R690). -/
def State.bumpPlc (s : State) (c lsb w : Nat) : State := s.bump (0x0A09C0 + 8 * c) lsb w 1
/-- Add one to a count of the power and OTP unit (R690). -/
def State.bumpPwr (s : State) (c lsb w : Nat) : State := s.bump (0x0A0A00 + 8 * c) lsb w 1
/-- Add one to a count of the mailboxes (R690). -/
def State.bumpMbx (s : State) (c lsb w : Nat) : State := s.bump (0x0A0A20 + 8 * c) lsb w 1

/-- A write to a register of slice `n` is ignored and counted (R677, R679). -/
def State.ignSlc (s : State) (n off : Nat) : State :=
  let s := s.bumpSlc n 13 0 16
  { s with ignLast := Tbl.set s.ignLast (0x20001C + 0x4000 * n) off }

/-- The unit of Rachis that reports for an event source (R547); none for a router and for Winnow itself. -/
def srcUnit (src : Nat) : Option NetUnit :=
  if src < 0x400 then some (.slice (src / 8))
  else if src < 0x480 then some (.stook ((src - 0x400) / 8))
  else if src < 0x500 then some (.media ((src - 0x480) / 4))
  else if src < 0x540 then some (.intake ((src - 0x500) / 4))
  else if src < 0x5A0 then none
  else if src < 0x5C0 then some (.twin 0)
  else if src < 0x5D0 then some .meridian
  else if src < 0x5F0 then some .power
  else some .alidade

/-- The unit to which an event's packet goes: Winnow, or the relay stook of a media port's router (R488, R548). -/
def eventDest : NetUnit → NetUnit
  | .media m => .stook (relayStook m)
  | _ => .winnow

/-- The EVENT packet of an event, whose TAG is the source's event sequence (R548, R495). -/
def State.eventPacket (s : State) (v : Ev) : State :=
  match srcUnit v.src with
  | some u => s.packet u (eventDest u) 0x70 { tag := v.seq, part := v.part, line := v.line, aux := v.src + 2048 * v.kind }
  | none => s

/-- An event at a source (R547, R548): sent and kept while fewer than 4 are outstanding, else counted by its class, which is its source's base class
where no rule fixes one. -/
def State.raiseC (s : State) (src kind : Nat) (cls : Option Nat) (line part unit extra : Nat) : State :=
  if (s.events.filter fun v => v.src == src).length < 4 then
    let q := Tbl.get 0 s.evSeq src
    let v : Ev := ⟨src, q, kind, s.time, cls, line, part, unit, extra, 0, s.now⟩
    { s.eventPacket v with evSeq := Tbl.set s.evSeq src ((q + 1) % 65536), events := s.events ++ [v] }
  else
    let key := src * 8 + cls.getD (s.srcCfg src).base
    { s with evLost := Tbl.set s.evLost key (Tbl.get 0 s.evLost key + 1) }

/-- An event whose class the source's configuration decides (R555). -/
def State.raise (s : State) (src kind line part unit : Nat) : State := s.raiseC src kind none line part unit 0

/-- Source `j` of slice `n` (R547). -/
def srcSlc (n j : Nat) : Nat := 8 * n + j
/-- Source `j` of stook `k` (R547). -/
def srcStk (k j : Nat) : Nat := 0x400 + 8 * k + j
/-- Source `j` of media port `m` (R547). -/
def srcMp (m j : Nat) : Nat := 0x480 + 4 * m + j
/-- Source `j` of intake port `i` (R547). -/
def srcIp (i j : Nat) : Nat := 0x500 + 4 * i + j
/-- Source `j` of the Rachis site `x` (R547). -/
def srcRch (x j : Nat) : Nat := 0x540 + 2 * x + j
/-- Source `j` of the twin port (R547). -/
def srcTwn (j : Nat) : Nat := 0x5A0 + j
/-- Source `j` of the Meridian unit (R547). -/
def srcMer (j : Nat) : Nat := 0x5C0 + j
/-- Source `j` of the power and OTP unit and voting (R547). -/
def srcPwr (j : Nat) : Nat := 0x5D0 + j
/-- Source `j` of Alidade, mailboxes and firmware (R547). -/
def srcFw (j : Nat) : Nat := 0x5F0 + j

/-- The stook that has the duties of stook `k`: its neighbour while it is fenced (R180). -/
def State.duty (s : State) (k : Nat) : Nat := if (s.stk k).fenced then k ^^^ 1 else k

/-- An instant slot's outcome counts (R690). -/
def State.countSlot (s : State) : SlotSt → State
  | .done => s.bumpMer 6 32 32
  | .cancelled => s.bumpMer 7 0 16
  | .rejected => s.bumpMer 7 16 16
  | .abandoned => s.bumpMer 7 32 16
  | _ => s

/-- Alidade clears ARM of an ended slot, unless a register write armed it (R305); REASON stays. -/
def Slot.clear (x : Slot) : Slot :=
  match x.by' with
  | .register => x
  | _ => { x with arm := false, st := .idle }

/-! ### The error bound and the domain (R281, R286, R291, R299, R300) -/

/-- The slew still outstanding, in ns (R280). -/
def State.slewLeft (s : State) : Nat := (s.clk.slew.natAbs + 65535) / 65536

/-- Milliseconds without the reference. -/
def State.holdMs (s : State) : Nat := (s.now - s.mer.lostAt) / 1000000

/-- ε in ns; 0xFFF where it is not defined or not bounded (R286, R329). -/
def State.eps (s : State) : Nat :=
  match s.mer.st with
  | .locked => min 4095 (20 + s.slewLeft)
  | .holdover => min 4095 (20 + 2 * s.holdMs)
  | .twinSteered => min 4095 (s.mer.twinEps + 8)
  | _ => 4095

/-- The block's side as its parity (R380, R430): 0 on side A. -/
def State.side (s : State) : Nat :=
  match s.twin.pairing with
  | some (b, _, _) => b2n b
  | none => 0

/-- The block in its domain: its pair × 2 + its side. -/
def State.domId (s : State) : Nat := s.mer.pair * 2 + s.side

/-- The number of slot `k` in the domain: the one that it came with, or the block × 16 + `k` (R299). -/
def State.slotKey (s : State) (k : Nat) : Nat := (s.slot k).key.getD (s.domId * 16 + k)

/-- A block's confirmation of a domain-scope action at the root; once it holds every block's, the action is complete (R300). -/
def Mer.rootDone (m : Mer) (key block eps : Nat) : Mer :=
  let m := { m with rootEps := Tbl.set m.rootEps block eps }
  match Tbl.find m.rootSlots key with
  | some r =>
    let r := { r with done := insertNat block r.done }
    { m with rootSlots := if m.rootEps.all fun x => r.done.contains x.1 then Tbl.del m.rootSlots key else Tbl.set m.rootSlots key r }
  | none => m

/-- Slice `n` wakes, if it was fallow (R49): its fallow time counts (R686), and a change to write-through that waited for its waking
is made (R52). -/
def State.rouse (s : State) (n : Nat) : State :=
  let c := s.slc n
  let s := if c.fallow then s.bump (0x100100 + 0x10000 * (n / 8) + 8) 0 64 ((s.now - c.busyAt) / 1000) else s
  s.onSlc n fun c => { c with fallow := false, woke := if c.fallow then s.now else c.woke, busyAt := s.now, wtOnWake := false, banks := { c.banks with wt := c.banks.wt || c.wtOnWake } }

/-- Stook controller `k` has work (R47): it wakes, if it was fallow, and its fallow time counts (R49, R686). -/
def State.stookWork (s : State) (k : Nat) : State :=
  let c := s.stk k
  let s := if c.fallow then s.bump (0x100100 + 0x10000 * k + 8) 0 64 ((s.now - c.busyAt) / 1000) else s
  s.onStk k fun c => { c with fallow := false, woke := if c.fallow then s.now else c.woke, busyAt := s.now }

/-- The routers of a list of sites wake (R38, R49). -/
def State.rouseSites (s : State) (l : List Nat) : State :=
  s.onRch fun r => { r with fallow := r.fallow.filter (!l.contains ·), woke := (r.fallow.filter l.contains).foldl (fun t x => Tbl.set t x s.now) r.woke }

/-- Every fallow unit wakes (R49, R52), and no slice is idle now (R46). -/
def State.wakeAll (s : State) : State :=
  let s := State.each (fun n s => s.rouse n) (List.range 128) s
  let s := State.each (fun k s => s.stookWork k) (s.stooks.keys.filter fun k => (s.stk k).fallow) s
  s.rouseSites s.rch.fallow

/-- The slot has acted (R305, R330); a domain-scope action is confirmed up the tree (R300), with the block's ε (R291). -/
def State.slotDone (s : State) (k : Nat) : State :=
  let s := (s.onSlot k fun x => { x with st := .done, reason := 0 }).countSlot .done
  let s :=
    if (s.slot k).scope = 2 then
      if s.mer.root then s.onMer fun m => m.rootDone (s.slotKey k) s.domId s.eps else s.send (.rootDone (s.slotKey k) s.eps)
    else s
  s.onSlot k Slot.clear

/-! ### Addresses (R16, R55, R58, R73, R193) -/

/-- The stook of a slice (R72). -/
def stookOf (n : Nat) : Nat := n / 8

/-- Meridian time as slice `n` reads it: the replica of its stook controller (R279). -/
def State.sliceNow (s : State) (n : Nat) : Nat := (((s.now * 65536 + s.clk.frac : Nat) : Int) + s.clk.reps.getD (stookOf n) 0).toNat / 65536

/-- The time that slice `n` stamps (R279, R310): 0 while UNLOCKED (R286). -/
def State.sliceTime (s : State) (n : Nat) : Nat := if s.mer.st = .unlocked then 0 else s.sliceNow n

/-- The sheaf index of a line (R16). -/
def sheafOf (line : Nat) : Nat := line / 16

/-- The tract index of a line (R16). -/
def tractOf (line : Nat) : Nat := line / 1024

/-- The first line of a partition's data range (R55, R59). -/
def Part.dataLo (q : Part) : Nat := q.cfg.dataBase.toNat * 2 ^ 24
/-- The lines of a partition's data range (R59). -/
def Part.dataLen (q : Part) : Nat := (q.cfg.dataSize.toNat + 1) * 2 ^ 24
/-- WIN_SLOTS as it is read (R59). -/
def Part.slots (q : Part) : Nat := min 8 q.cfg.winSlots.toNat
/-- The first line of a partition's window range (R58). -/
def Part.winLo (q : Part) : Nat := q.cfg.winBase.toNat * 2 ^ 24
/-- The lines of a partition's window range (R58). -/
def Part.winLen (q : Part) : Nat := q.slots * q.dataLen
/-- The line lies in the partition's data range. -/
def Part.inData (q : Part) (line : Nat) : Bool := q.dataLo ≤ line && line < q.dataLo + q.dataLen
/-- The line lies in the partition's window range. -/
def Part.inWin (q : Part) (line : Nat) : Bool := q.winLo ≤ line && line < q.winLo + q.winLen

/-- The partition in one of whose ranges a line lies; FREE partitions have none (R56, R62). Where register writes have left ranges of
partitions that are not ENABLED overlapping, it is the lowest-numbered one (DESIGN CHOICE: the spec names none; log 56). -/
def State.partOf (s : State) (line : Nat) : Option Nat :=
  (List.range 64).find? fun p => (s.part p).st != .free && ((s.part p).inData line || (s.part p).inWin line)

/-- The host port is a member of the partition (R69). -/
def State.member (s : State) (h p : Nat) : Bool := bitN (s.hp h).memb.toNat p

/-- The host set of a partition, ascending (R69). -/
def State.hostSet (s : State) (p : Nat) : List Nat := (s.hosts.filter fun x => bitN x.2.memb.toNat p).map Prod.fst

/-! ### Records in the partition logs (R134, R135) -/

/-- A record placed in an event log of 64 records; a full log overflows (R134). -/
def EvLog.add (l : EvLog) (time : Nat) (r : EvRec) : EvLog :=
  if l.recs.length < 64 then { l with recs := l.recs ++ [(l.next, time, r)], next := l.next % 65535 + 1 }
  else { l with overflow := true, lost := l.lost + 1, firstLost := if l.lost = 0 then time else l.firstLost, lastLost := time }

/-- The interrupt of log `k` is enabled in a policy byte (R134). -/
def EvLogs.intOn (l : EvLogs) (k : Nat) : Bool := (l.policy.getD k 0) &&& 3 != 0

/-- A record in log `k` (0 Informational, 1 Warning, 2 Failure, 3 Fatal). -/
def EvLogs.put (l : EvLogs) (k time : Nat) (r : EvRec) : EvLogs :=
  match k with
  | 0 => { l with info := l.info.add time r }
  | 1 => { l with warn := l.warn.add time r }
  | 2 => { l with fail := l.fail.add time r }
  | _ => { l with fatal := l.fatal.add time r }

/-- Log `k` of a function (0 Informational, 1 Warning, 2 Failure, 3 Fatal). -/
def EvLogs.log (l : EvLogs) (k : Nat) : EvLog :=
  match k with
  | 0 => l.info
  | 1 => l.warn
  | 2 => l.fail
  | _ => l.fatal

/-- A record in log `k` of partition `p` (R134, R135). A record that the log takes is signalled, each one, by the event interrupt where the
policy byte's mode is not 0 (DESIGN CHOICE: the spec leaves both open; log 56). -/
def State.record (s : State) (p k : Nat) (r : EvRec) : State :=
  let room := ((s.part p).logs.log k).recs.length < 64
  let s := s.onPart p fun q => { q with logs := q.logs.put k s.time r }
  if room && (s.part p).logs.intOn k then s.send (.evInt p k) else s

/-- A line joins its partition's poison list (R125, R136) with the General Media record of R135. -/
def State.addPoison (s : State) (p line : Nat) (why : Trans) : State :=
  if (s.part p).poison.contains line then s
  else
    let s := s.onPart p fun q => { q with poison := q.poison ++ [line], poisonAt := Tbl.set q.poisonAt line s.time }
    (s.bumpPart p 0 48 16).record p 2 (.poison (line * 64) why)

/-- A line leaves the poison list when a full-line write clears its poison (R125). -/
def State.delPoison (s : State) (p line : Nat) : State :=
  s.onPart p fun q => { q with poison := q.poison.filter (· != line), poisonAt := Tbl.del q.poisonAt line }

/-! ### Completion level and roles (R342, R384) -/

/-- The block's completion level is twin-durable (R342). -/
def State.twinLevel (s : State) : Bool := s.twin.st == .paired

/-- The partition is PRIMARY here, or the block is unpaired and serves all (R381, R384). -/
def State.primary (s : State) (p : Nat) : Bool := s.twin.st == .unpaired || bitN s.twin.roles.toNat p

/-- No response leaves and no snoop goes out (R572 steps 1 and 2): in the fail-safe state, and in a PAIRED or ABDICATED block whose
intake the drill stopped (R420, R598 step 2). -/
def State.mute (s : State) : Bool :=
  s.win.failsafe || ((s.ip 0).halted && s.pwr.fail.isNone && (s.twin.st == .paired || s.twin.st == .abdicated))

/-- The twin port carries the primary's mirroring to this block (R390, R413). -/
def State.mirroring (s : State) : Bool := s.twin.st == .paired || s.twin.st == .resyncTarget || s.twin.st == .resyncSource

/-- Requests for MIRROR partitions are forwarded (R387): the twin serves, and the block is not SPLIT. -/
def State.forwards (s : State) (p : Nat) : Bool := s.mirroring && !bitN s.twin.abdParts.toNat p

/-- The block mirrors to its twin: PAIRED or RESYNC_SOURCE (R390, R413). -/
def State.mirrors (s : State) : Bool := s.twin.st == .paired || s.twin.st == .resyncSource

end Sys2Proof.Machine
end

