-- ==== Sys2Proof/Machine/Operands.lean ====
section
/-! DEFINITION. The operand forms of the commands: the accepted request forms of R102 and what each one asks for, and the
fields of a BISnp answer. -/

namespace Sys2Proof.Machine

/-- The accepted form of a message, or none when it fails the opcode check (R75, R95, R102). -/
def formOf (op : ReqOp) (mf : MetaField) (mv : MetaValue) (snp : SnpType) : Option Form :=
  if mf = .other ∨ mf = .undef ∨ mv = .undef ∨ snp = .undef then none
  else
    match op with
    | .memRd =>
      if mf = .noOp then (if snp = .noOp then some .rdNo else none)
      else
        match mv, snp with
        | .a, .snpInv => some .rdA
        | .s, .snpData => some .rdS
        | .i, .snpCur => some .rdCur
        | .i, .snpInv => some .rdI
        | _, _ => none
    | .memRdData => some .rdData
    | .memInv =>
      if mf = .meta0 ∧ snp = .snpInv then (if mv = .a then some .invA else if mv = .i then some .invI else none) else none
    | .memInvNt =>
      if mf = .meta0 ∧ snp = .snpInv then (if mv = .a then some .invNtA else if mv = .i then some .invNtI else none) else none
    | .memClnEvct => if mf = .meta0 ∧ mv = .i ∧ snp = .noOp then some .clnEvct else none
    | .memSpecRd => some .specRd
    | .biConflict => some .biConf
    | .memWr =>
      if snp = .noOp then
        if mf = .noOp then some .wrNo
        else if mv = .i then some .wrI
        else if mv = .s then some .wrS
        else none
      else none
    | .memWrPtl =>
      if snp = .noOp then (if mf = .noOp ∨ mv = .i then some .wrPtl else none) else none
    | .memRdFwd | .memWrFwd | .other _ _ _ | .undef _ => none

/-- The message is an M2S RwD (R94). -/
def opRwd : ReqOp → Bool
  | .memWr | .memWrPtl => true
  | .other rwd _ _ | .undef rwd => rwd
  | _ => false

/-- The form writes data: a host write, a ticket write or a mailbox line write (R108, R368, R713). -/
def formWrite : Form → Bool
  | .wrI | .wrS | .wrNo | .wrPtl | .ticket | .mbxLine => true
  | _ => false

/-- The form writes a full line. -/
def formFull : Form → Bool
  | .wrI | .wrS | .wrNo | .ticket | .mbxLine => true
  | _ => false

/-- The form returns data (R105). -/
def formRead : Form → Bool
  | .rdA | .rdS | .rdCur | .rdI | .rdNo | .rdData => true
  | _ => false

/-- The form passes the window check (R75, R102). -/
def formWin : Form → Bool
  | .rdS | .rdCur | .rdNo | .rdData | .clnEvct | .specRd | .biConf => true
  | _ => false

/-- The transaction type of a request by its form (R135); an invalidation, neither read nor write, counts as a Host Read (DESIGN CHOICE, log 59). -/
def Form.trans (f : Form) : Trans := if formWrite f then .hostWrite else .hostRead

/-- The form allocates a Granary way on a miss (R244). -/
def formAlloc (f : Form) : Bool := formRead f || formWrite f

/-- What a failed request receives (R76, R103): a poisoned DRS, and an NDR Cmp. `form` is none where no accepted form
matches; then the CXL definition of the opcode decides. MemRdFwd and MemWrFwd, by which a host passes a request on to a device of its own,
have neither data nor a completion of the device (PRESUMED: CXL 3.1; log 11). -/
def failAnswer (op : ReqOp) (mf : MetaField) (form : Option Form) : Bool × Bool :=
  match form with
  | some .rdNo => (true, false)
  | some .specRd => (false, false)
  | some f => (formRead f, true)
  | none =>
    match op with
    | .memRd => (true, mf != .noOp)
    | .memRdData => (true, true)
    | .memSpecRd | .memRdFwd | .memWrFwd => (false, false)
    | .other _ d c => (d, c)
    | _ => (false, true)

/-- The NDR that a served request receives (R105, R106, R108, R110): Cmp-E, Cmp-S or Cmp; none for the No-Op read. The
holder `shared` says that other hosts hold the line in S, which decides MemRdData. -/
def ndrOf (f : Form) (grantS : Bool) : Option NdrKind :=
  match f with
  | .rdA | .invA | .invNtA => some .cmpE
  | .rdS => some .cmpS
  | .rdData => some (if grantS then .cmpS else .cmpE)
  | .rdNo => none
  | .ticket | .mbxLine => none
  | _ => some .cmp

/-- The form that an echo's FORM field spells (R391). -/
def formOfEcho : Nat → Option Form
  | 0 => some .rdA
  | 1 => some .rdS
  | 2 => some .rdCur
  | 3 => some .rdI
  | 4 => some .rdNo
  | 5 => some .rdData
  | 6 => some .invA
  | 7 => some .invI
  | 8 => some .invNtA
  | 9 => some .invNtI
  | 10 => some .clnEvct
  | _ => none

/-- A request with no field set but these. -/
def mkReq (i tag : Nat) (h : Option Nat) (f : Form) (line p : Nat) (data : Line) (be : Quad) (now : Nat) : Req :=
  { intake := i, tag := tag, host := h, form := f, noOp := f == .rdNo, line := line, part := p, data := data, be := be, tgen := none,
    plate := none, num := 0, arrived := now, echo := none, noted := none, epoch := none, fwd := false }

end Sys2Proof.Machine
end

