-- ==== Sys2Proof/Machine/Flags.lean ====
section
/-! DEFINITION. Computed flags: DevLoad (R97), the withheld-credit condition (R66, R85), durability levels (R340), and the
status bits that the registers of the slices report (R172, R233, R234, R275, R276, R277). -/

namespace Sys2Proof.Machine

/-- Host entries allocated in slice `n` (R172). -/
def Slice.hostUsed (c : Slice) : Nat := (c.front.ents.filter fun x => x.1 < 512).length
/-- Internal entries allocated (R172). -/
def Slice.intUsed (c : Slice) : Nat := (c.front.ents.filter fun x => 512 ≤ x.1 && x.1 < 640).length

/-- The request stands for a copy under hold (R167): it is of no intake port. -/
def Req.isHold (r : Req) : Bool := r.intake == 16

/-- Conflict-queue places taken by requests that satisfy a test: queued ones, and merged ones until they are answered (R259); a copy under
hold takes none (R168). -/
def Front.places (f : Front) (t : Req → Bool) : Nat :=
  (f.cq.filter fun r => !r.isHold && t r).length + sumOf (fun (x : Nat × Entry) => (x.2.merged.filter t).length) f.ents

/-- Requests that the intake queue holds (R84, R148); a copy under hold is none (R168). -/
def Front.waiters (f : Front) : Nat := ((f.queue ++ f.parked).filter fun r => !r.isHold).length

/-- The host port's credits are withheld (R66, R85, R148); where intake is stopped all are (R572, R598, R599). -/
def State.withheld (s : State) (h : Nat) : Bool :=
  (s.ip (s.hp h).intake).halted || (s.hp h).wh66 || s.slices.any fun c => c.2.front.parked.any fun r => r.host == some h

/-- DevLoad of a message to host port `h` answered by slice `n` (R97). -/
def State.devLoad (s : State) (n h : Nat) : DevLoad :=
  let u := (s.slc n).hostUsed
  if s.withheld h then .severe else if u < 256 then .light else if u < 448 then .optimal else .moderate

/-- A write is durable in its own block (R340): in the Granary or accepted while write-back, else complete on media. -/
def Pend.durable (w : Pend) (wt : Bool) : Bool :=
  w.settled && (w.media || (!wt && !w.bypass))

/-- The slice writes through: ENERGY_OK down or WT_FORCE (R262), or the completion level is solo-durable (R344), or it prepares or
quiesces for a handover, its own or its buddy's return (R185). -/
def State.writesThrough (s : State) (n : Nat) : Bool :=
  (s.slc n).banks.wt || !s.twinLevel || (s.slc n).phase == .prepare || (s.slc n).phase == .quiesce || (s.slc (buddy n)).phase == .returning

/-- A write has reached its completion level (R342, R343, R346). -/
def Pend.reached (w : Pend) (wt : Bool) : Bool :=
  if w.twin then w.durable wt && w.twinAck else w.settled && w.media

/-- Valid filter entries (R233). -/
def fltValid (e : FEntry) : Bool := e.w0.getLsbD 31

/-- The entry's line is a dirty one: a twin-held line is (R238). -/
def GEntry.isDirty (g : GEntry) : Bool := g.dirty || g.twinHeld

/-- Dirty Granary lines (R275). -/
def Banks.dirty (b : Banks) : Nat := (b.grn.filter fun x => x.2.valid && x.2.isDirty).length
/-- DRAINED of NCH_GRN_STATUS (R275). -/
def Banks.drained (b : Banks) : Bool := b.wt && b.dirty == 0

/-- The age of a generation (R201). -/
def genAge (dg g : Nat) : Nat := (dg + 16 - g % 16) % 16
/-- DG of a set (R218). -/
def State.dg (s : State) (n : Nat) : Nat := Tbl.get 0 s.dirGen.dg n
/-- F of a set (R218). -/
def State.fl (s : State) (n : Nat) : Nat := Tbl.get 0 s.dirGen.fl n
/-- Q of a partition and set: F where the record holds no other value (R218). -/
def State.qg (s : State) (p n : Nat) : Nat := Tbl.get (s.fl n) s.dirGen.q (p * 128 + n)
/-- Advances still allowed: 15 minus the age of F (R219, R234). -/
def State.advLeft (s : State) (n : Nat) : Nat := 15 - genAge (s.dg n) (s.fl n)

/-- COVERING of NCH_SLC_TRK_STATUS (R172). -/
def State.covering (s : State) (n : Nat) : Bool :=
  (s.slc n).cover.isSome ||
    match (s.slc (buddy n)).phase with
    | .covered | .returning | .fenced => true
    | _ => false

/-- A status register of slice `n`, the `k`-th that a fence keeps: while the slice is fenced, what it held at the fence (R676). -/
def State.sinceFence (s : State) (n k v : Nat) : Nat := if (s.slc n).phase = Phase.fenced then (s.slc n).seen.getD k 0 else v

/-- NCH_SLC_TRK_STATUS of slice `n` (R172, R676). -/
def State.trkStatus (s : State) (n : Nat) : Nat :=
  let c := s.slc n
  s.sinceFence n 0 (c.hostUsed + 2 ^ 10 * c.intUsed + 2 ^ 18 * c.front.places (fun _ => true)
    + 2 ^ 26 * b2n (64 ≤ c.front.waiters) + 2 ^ 27 * b2n (c.front.parked.any fun r => !r.isHold)
    + 2 ^ 28 * b2n (s.covering n)
    + 2 ^ 30 * b2n (c.phase == .covered || c.phase == .returning)) + 2 ^ 29 * b2n (c.phase == .fenced)

/-- NCH_SHF_STATUS of slice `n` (R233, R676). -/
def State.shfStatus (s : State) (n : Nat) : Nat :=
  let b := (s.slc n).banks
  s.sinceFence n 1 ((b.flt.filter fun x => fltValid x.2).length + 65536 * b.fltOff)

/-- NCH_SHF_GEN of slice `n` (R234, R676): 0 until start-up has loaded the generation record. A patrol pass counts towards the floor while
patrol is on (R223). -/
def State.shfGen (s : State) (n : Nat) : Nat :=
  let cov := s.covering n
  let m := buddy n
  let low := s.advLeft n ≤ 4 || (cov && s.advLeft m ≤ 4)
  s.sinceFence n 2 (if s.dirGen.loaded then
    s.dg n + 16 * s.fl n + 256 * s.advLeft n + 4096 * (if cov then s.dg m else 0) + 65536 * (if cov then s.advLeft m else 0)
      + 2 ^ 20 * b2n s.blk.patrolEn + 2 ^ 21 * b2n low
  else 0)

/-- NCH_GRN_CTL of slice `n` (R274). -/
def State.grnCtl (s : State) (n : Nat) : Nat :=
  let c := (s.slc n).banks.ctl
  c.assoc.toNat + 4 * c.carve.toNat + 64 * b2n c.wtForce

/-- NCH_GRN_STATUS of slice `n` (R275, R676). -/
def State.grnStatus (s : State) (n : Nat) : Nat :=
  let b := (s.slc n).banks
  s.sinceFence n 3 ((b.grn.filter fun x => x.2.valid).length + 2 ^ 14 * b.dirty + 2 ^ 28 * b2n b.wt
    + 2 ^ 29 * b2n (b.grn.any fun x => x.2.st == .evicting) + 2 ^ 30 * b2n b.drained)

/-- Bit `p` says that physical way `p` is carved (R266, R276). -/
def GrnCtl.carvedBits (c : GrnCtl) : Nat := 65536 - 2 ^ (16 - c.carve.toNat)

/-- NCH_GRN_WAYS of slice `n` (R276, R676). -/
def State.grnWays (s : State) (n : Nat) : Nat :=
  let b := (s.slc n).banks
  s.sinceFence n 4 (b.grnOff + 65536 * b.ctl.carvedBits)

/-- All eight slices of a stook are disabled (R677, R707). -/
def State.stookOff (s : State) (k : Nat) : Bool := (List.range 8).all fun i => !(s.slc (8 * k + i)).enable

/-- NCH_STK_CE_STATUS (R545). -/
def Stook.ceStatus (q : Stook) : Nat :=
  q.ceLog.length + 64 * (q.ceLog.filter fun e => e.hard).length + 4096 * q.lanes.length + 2 ^ 17 * q.ceLost

/-- A register of stook `k`, the `j`-th that a fence keeps: while the stook is fenced, what it held at the fence (R676). -/
def State.stkSince (s : State) (k j v : Nat) : Nat := if (s.stk k).fenced then (s.stk k).seen.getD j 0 else v

/-- NCH_STK_STATUS (R707, R676). -/
def State.stkStatus (s : State) (k : Nat) : Nat :=
  s.stkSince k 0 (sumOf (fun i => 2 ^ i * b2n (s.slc (8 * k + i)).fallow) (List.range 8) + 2 ^ 8 * b2n (s.stk k).fallow
    + 2 ^ 10 * b2n (s.stk (k ^^^ 1)).fenced + 2 ^ 11 * b2n (s.stookOff k)) + 2 ^ 9 * b2n (s.stk k).fenced

/-- NCH_STK_CE_STATUS as it reads (R545, R676). -/
def State.stkCe (s : State) (k : Nat) : Nat := s.stkSince k 1 (s.stk k).ceStatus

/-- NCH_STK_IGN_LAST as it reads (R679, R676; log 59). -/
def State.stkIgn (s : State) (k : Nat) : Nat := s.stkSince k 2 (Tbl.get 0 s.ignLast (0x10000C + 0x10000 * k))

/-- NCH_SLC_IGN_LAST as it reads (R679, R676; log 59). -/
def State.slcIgn (s : State) (n : Nat) : Nat := s.sinceFence n 5 (Tbl.get 0 s.ignLast (0x20001C + 0x4000 * n))

/-- A holding register lies in the window of a fenced slice or stook (R676); the key is that of a count. -/
def State.keyFenced (s : State) (key : Nat) : Bool :=
  let o := key / 64
  if 0x100000 ≤ o ∧ o < 0x200000 then (s.stk ((o - 0x100000) / 0x10000)).fenced
  else if 0x200000 ≤ o ∧ o < 0x400000 then (s.slc ((o - 0x200000) / 0x4000)).phase == .fenced
  else false

/-- PHASE of NCH_SLC_CTL (R709). -/
def Phase.code : Phase → Nat
  | .run => 0
  | .prepare => 1
  | .quiesce => 2
  | .covered => 3
  | .returning => 4
  | .fenced => 5

/-- READY bit `k` of NCH_GRN_SCRATCH (R267, R277). -/
def State.scratchReady (s : State) (k : Nat) : Bool := (List.range 128).all fun n => k < (s.slc n).banks.ctl.carve.toNat

/-- NCH_GRN_SCRATCH (R277). -/
def State.grnScratch (s : State) : Nat := sumOf (fun k => 2 ^ k * b2n (s.scratchReady k)) (List.range 12)

end Sys2Proof.Machine
end

