-- ==== Sys2Proof/Machine/Intake.lean ====
section
/-! DEFINITION. The intake ports: the checks of R75, the answer to a failed message (R76, R77), credits (R128 to R131), kept
requests and streams (R129, R140, R141, R173), echoes (R390, R391, R486), and the release of responses (R161, R394). -/

namespace Sys2Proof.Machine

/-! ### Credits (R130, R66, R85) -/

/-- One credit of a host port returns, or is owed while its credits are withheld (R130). -/
def State.returnCredit (s : State) (h : Nat) (rwd : Bool) : State :=
  if s.withheld h then
    s.onHp h fun q => if rwd then { q with owedRwd := q.owedRwd + 1 } else { q with owedReq := q.owedReq + 1 }
  else s.onHp h fun q => if rwd then { q with rwdUsed := q.rwdUsed - 1 } else { q with reqUsed := q.reqUsed - 1 }

/-- The credits owed to a host port return once they are withheld no longer (R66, R85). -/
def State.payCredits (s : State) (h : Nat) : State :=
  if s.withheld h then s
  else s.onHp h fun q =>
    { q with reqUsed := q.reqUsed - q.owedReq, rwdUsed := q.rwdUsed - q.owedRwd, owedReq := 0, owedRwd := 0 }

/-- A kept request that R66 holds, or that R387 and R410 hold as R66 does: one for the twin while it cannot be forwarded. -/
def State.inStore (s : State) (k : Kept) : Bool :=
  match k.st with
  | .held => true
  | .fwd _ => !s.forwards k.req.part
  | _ => false

/-- Requests of intake port `i` that its hold store holds (R66). -/
def State.heldCount (s : State) (i : Nat) : Nat := ((s.ip i).kept.filter s.inStore).length

/-- R66: while the hold store is full, the credits of every host port with a request in it are withheld; they are
restored as it empties. -/
def State.holdStore (s : State) (i : Nat) : State :=
  let held := (s.ip i).kept.filter s.inStore
  let hosts := (held.filterMap fun k => k.req.host).eraseDups
  if 512 ≤ held.length then State.each (fun h s => s.onHp h fun q => { q with wh66 := true }) hosts s
  else
    let was := (s.hosts.filter fun x => x.2.wh66 && x.2.intake == i).map Prod.fst
    State.each (fun h s => (s.onHp h fun q => { q with wh66 := false }).payCredits h) was s

/-! ### Responses -/

/-- DevLoad of an answer that no slice gives, such as that of a message whose checks fail (R97): Severe while the credits are withheld, else Light
(DESIGN CHOICE: R97 names a slice's occupancy alone; log 59). -/
def State.ownLoad (s : State) (h : Nat) : DevLoad := if s.withheld h then .severe else .light

/-- The answer to a failed message (R76): DRS with zeros and poison, then NDR Cmp, as the form or opcode asks. -/
def State.failOut (s : State) (i h cxl : Nat) (a : Bool × Bool) : State :=
  let s := if a.1 && !s.mute then s.send (.drs i h cxl 0 true (s.ownLoad h)) else s
  if a.2 && !s.mute then s.send (.ndr i h cxl .cmp (s.ownLoad h)) else s

/-- The opcode that a form stands for, for the event record of R135. -/
def opOf : Form → ReqOp
  | .rdData => .memRdData
  | .invA | .invI => .memInv
  | .invNtA | .invNtI => .memInvNt
  | .clnEvct => .memClnEvct
  | .specRd => .memSpecRd
  | .biConf => .biConflict
  | .wrI | .wrS | .wrNo | .ticket | .mbxLine => .memWr
  | .wrPtl => .memWrPtl
  | _ => .memRd

/-- The counter word and bit of a check failure (R689). -/
def checkBit (c : Nat) : Nat × Nat := if c < 4 then (1, 16 * c) else (2, 16 * (c - 4))

/-- A check failure counts, raises the event of the port's check source, and for a membership or window failure leaves a
record in the partition's Warning log (R77, R135). Checks: 0 binding, 1 opcode, 2 form, 3 range, 4 membership, 5 window,
6 state. -/
def State.countFail (s : State) (i c h : Nat) (op : ReqOp) (offset : Nat) (p : Option Nat) : State :=
  let s := s.bumpIp i (checkBit c).1 (checkBit c).2 16
  let s := s.raise (srcIp i 0) (256 + 77) (offset / 64 % 2 ^ 42) (p.getD 0) h
  match p with
  | some p => if c = 4 ∨ c = 5 then s.record p 1 (.check h op offset c) else s
  | none => s

/-! ### Packing buffers and echoes (R486) -/

/-- The records of a buffer go to the twin router. -/
def State.flushEcho (s : State) (i : Nat) : State :=
  (s.toTwinPack (.intake i) (s.ip i).echoPack.recs).onIp i fun q => { q with echoPack := ⟨[], 0⟩ }

/-- The release buffer goes to the twin router, after any echo buffer (R486). -/
def State.flushRel (s : State) (i : Nat) : State :=
  let s := s.flushEcho i
  (s.toTwinPack (.intake i) (s.ip i).relPack.recs).onIp i fun q => { q with relPack := ⟨[], 0⟩ }

/-- Hand the twin port an echo of a message (R390): a write echo at once, a request echo into the packing buffer, which
goes at its fourth record (R486). Returns the echo index. -/
def State.echo (s : State) (r : Req) (cxl : Nat) : Nat × State :=
  let i := r.intake
  let x := (s.ip i).echo
  let s := (s.onIp i fun q => { q with echo := (q.echo + 1) % 4096 }).bumpTwn 0 0 64
  if formWrite r.form then
    (x, s.toTwin (.echo i x r cxl))
  else
    let s := s.onIp i fun q =>
      { q with echoPack := ⟨q.echoPack.recs ++ [.echo i x r cxl], if q.echoPack.recs.isEmpty then s.now else q.echoPack.since⟩ }
    (x, if 4 ≤ (s.ip i).echoPack.recs.length then s.flushEcho i else s)

/-- The twin port cannot accept an echo of port `i` (R390): as many units as a plane's pooled buffer holds (R503) wait at the port for twin routers
(DESIGN CHOICE: the spec states no measure; log 59). -/
def State.twinFull (s : State) (i : Nat) : Bool :=
  let src := NetUnit.intake i
  32 ≤ ((Tbl.get [] s.rch.bufs (srcKey src.site src.port)).filter fun u => (s.rch.pkt u.1).hdr.opcode == 0x10).length

/-- A message that the twin gets an echo of (R390): one of a host, for a partition that is PRIMARY here, while the block mirrors. -/
def State.echoes (s : State) (r : Req) : Bool := s.mirrors && s.primary r.part && r.form != .specRd && r.form != .biConf

/-- Hand the twin port the release of an echoed request (R394); a release whose response waits goes at once (R486). -/
def State.release (s : State) (i : Nat) (echo : Option Nat) : State :=
  match echo with
  | some x =>
    let s := (s.onIp i fun q =>
      { q with relPack := ⟨q.relPack.recs ++ [.release i x], if q.relPack.recs.isEmpty then s.now else q.relPack.since⟩ }).bumpTwn 1 0 64
    s.flushRel i
  | none => s

/-! ### Streams (R140, R141) -/

/-- Replayed requests of fenced slice `n` stand in the streams of its buddy's arbiter (R175). -/
def State.replayAhead (s : State) (n : Nat) : Bool :=
  let c := s.slc (buddy n)
  c.cover.any fun v => v.serving && c.front.streams.any fun x => x.2.any fun r => v.replay.any fun q => q.intake == r.intake && q.tag == r.tag

/-- One kept request that may be sent to slice `n`: the oldest unsent one, while a stream credit is held, the port has not stopped for the line's
slice (R141, R174, R185) and no replayed request of that slice waits in a stream (R175); a port whose intake is stopped sends on only for a forced off (R598 step 2). -/
def State.nextUnsent (s : State) (i n : Nat) : Option Kept :=
  let p := s.ip i
  if (p.halted && (s.mute || !s.pwr.stopping)) || 4 ≤ Tbl.get 0 p.used n then none
  else p.kept.find? fun k => k.st == .unsent && s.homeSlice k.req.line == n && !p.stopped.contains (sliceOf k.req.line) && !s.replayAhead (sliceOf k.req.line)

/-- The kept request with a tag, changed. -/
def Intake.onKept (p : Intake) (tag : Nat) (f : Kept → Kept) : Intake :=
  { p with kept := p.kept.map fun k => if k.req.tag = tag then f k else k }

/-- The packet of a request on its way from its intake port to a slice (R493, R495): a host request, or a ticket or mailbox line write; a write's
data is in two data units, and a partial write's byte enables in AUX. -/
def State.sendReq (s : State) (i n : Nat) (r : Req) : State :=
  s.packet (.intake i) (.slice n) (if r.form == .ticket || r.form == .mbxLine then 0x03 else 0x01)
    { prio := s.prio r.part, tag := r.tag, host := r.host, part := r.part, line := r.line, tgen := r.tgen, stream := r.num, form := formNum r.form,
      plate := r.plate.getD 0, aux := if r.form == .wrPtl then r.be.toNat else 0, data := if formWrite r.form then lineUnits r.data else [] }

/-- Send the unsent requests of port `i` for slice `n` while stream credits last (R141). -/
def State.pump (i n : Nat) : Nat → State → State
  | 0, s => s
  | fuel + 1, s =>
    match s.nextUnsent i n with
    | none => s
    | some k =>
      let num := Tbl.get 0 (s.ip i).num n
      let r := { k.req with num := num }
      let s := s.onIp i fun p =>
        { p.onKept k.req.tag (fun k => { k with req := r, st := .sent, slice := n, left := some s.now }) with
          num := Tbl.set p.num n ((num + 1) % 4096), used := Tbl.set p.used n (Tbl.get 0 p.used n + 1) }
      let s := s.onFront n fun f => { f with streams := Tbl.set f.streams i (Tbl.get [] f.streams i ++ [r]) }
      State.pump i n fuel (s.sendReq i n r)

/-- Send what port `i` may send to every slice that a kept request names. -/
def State.pumpAll (s : State) (i : Nat) : State :=
  let ns := ((s.ip i).kept.filterMap fun k => if k.st == .unsent then some (s.homeSlice k.req.line) else none).eraseDups
  State.each (fun n s => State.pump i n 4 s) ns s

/-- Every intake port sends what it may send to slice `n`. -/
def State.pumpFrom (s : State) (n : Nat) : State := State.each (fun i s => State.pump i n 4 s) (List.range 16) s

/-! ### Arrival -/

/-- What the checks of R75 say of a message. -/
inductive Verdict
  | fail (check : Nat) (part : Option Nat)
  | hold (r : Req)
  | pass (r : Req)
  deriving DecidableEq, Repr, Inhabited

/-- The checks of R75, in order, on a message that passed the port adapter; `fwd` marks a forwarded record (R387), whose
binding the twin has checked. -/
def State.check (s : State) (m : M2S) (op : ReqOp) (data : Line) (be : Quad) (fwd : Bool) : Verdict :=
  let i := m.port.val
  let h := m.host.val
  let q := s.hp h
  if !fwd && (q.intake != i || !q.enable || q.unresp) then .fail 0 none
  else
    match formOf op m.mf m.mv m.snp with
    | none => .fail 1 none
    | some f =>
      if 2 ^ 48 ≤ m.offset.toNat ∨ (f = .wrPtl ∧ be = 0) then .fail 2 none
      else
        let line := m.offset.toNat / 64
        match s.partOf line with
        | none => .fail 3 none
        | some p =>
          let g := s.part p
          let win := !g.inData line
          let x := (line - g.winLo) % g.dataLen
          let w := (line - g.winLo) / g.dataLen
          let plate := if win then Tbl.find g.winBind w else none
          let dline := if win then g.dataLo + x else line
          let r := { mkReq i (s.ip i).tag (some h) f dline p data be s.time with
                     plate := plate, tgen := Tbl.find (s.ip i).moving (tractOf dline), fwd := fwd }
          if !s.member h p then .fail 4 (some p)
          else if win ∧ (!formWin f ∨ plate.isNone) then .fail 5 (some p)
          else
            match g.st with
            | .enabled => .pass r
            | .disabled | .draining => if g.cfg.hold then .hold r else .fail 6 (some p)
            | _ => .fail 6 (some p)

/-- The tract is FROZEN in the map, or in the frozen list (R440, R441). -/
def State.isFrozen (s : State) (tract : Nat) : Bool :=
  (s.place.frozen.any fun f => f.tract == tract) ||
    match Tbl.find s.place.map tract with
    | some e => meState e == 5
    | none => false

/-- A thaw attempt of the tract is under way, so that its writes are held (R441). -/
def State.thawing (s : State) (tract : Nat) : Bool := s.place.frozen.any fun f => f.tract == tract && !f.tried

/-- Where a request that passed its checks stands: held for a takeover or an abdication, forwarded, also one that the twin forwarded when the
partition has become MIRROR here (R385, R417), held for a thaw, or ready to be sent. -/
def State.openPlace (s : State) (r : Req) : KSt :=
  let ready : KSt := if formWrite r.form && s.thawing (tractOf r.line) then .frozen s.now else .unsent
  if (s.twin.tk.any fun t => bitN t.toNat r.part) then .takeover
  else if !s.primary r.part then .fwd s.now
  else if bitN s.twin.abdParts.toNat r.part then .fwd s.now
  else
    match Tbl.find s.twin.moves r.part with
    | some mv => if !mv.old ∧ mv.phase = .routed ∧ !r.fwd then .takeover else if mv.old ∧ mv.phase = .drain then .takeover else ready
    | none => ready

/-- Where a request stands first: behind an earlier request of its host port and line that waits, else by itself. -/
def State.firstPlace (s : State) (r : Req) : KSt :=
  match (s.ip r.intake).kept.find? fun k =>
    k.req.line == r.line && k.req.host == r.host && k.st != .sent && k.st != .unsent && k.st != .fenced with
  | some k => k.st
  | none => s.openPlace r

/-- Keep a request (R129) and send it on: echoed first when its block mirrors (R390), or waiting for the twin port to accept its echo; forwarded to
the primary when its partition is MIRROR here (R387), or held in the store while that cannot be; else sent into the stream of its slice. -/
def State.keep (s : State) (r : Req) (own : Own) (cxl : Nat) (st : KSt) : State :=
  let i := r.intake
  let due := own == .host && s.echoes r
  let own' := due && !s.twinFull i && !((s.ip i).kept.any fun k => k.st == .echo)
  let st := if due && !own' && st == .unsent then .echo else st
  let x := if own' then s.echo r cxl else (0, s)
  let r := { r with echo := if own' then some x.1 else none }
  let s := x.2.onIp i fun p =>
    { p with tag := (p.tag + 1) % 65536, kept := p.kept ++ [⟨r, own, cxl, s.homeSlice r.line, st, none, none, false, 0, none⟩] }
  let s := s.onPart r.part fun q => { q with reqs := q.reqs + 1, fwds := if r.fwd then q.fwds + 1 else q.fwds }
  match st with
  | .fwd _ => if s.forwards r.part then (s.toTwin (.forward i r)).bumpTwn 6 0 32 else s.holdStore i
  | .unsent => State.pump i (s.homeSlice r.line) 4 s
  | _ => s

/-- Hold a request (R66, R67): echoed, counted, in the store in arrival order. -/
def State.holdReq (s : State) (r : Req) (cxl : Nat) : State :=
  let s := (s.keep r .host cxl .held).bumpIp r.intake 6 0 32
  let s := s.onPart r.part fun q => { q with heldSince := some (q.heldSince.getD s.now) }
  s.holdStore r.intake

/-- The kept request of a tag. -/
def State.kept? (s : State) (i tag : Nat) : Option Kept := (s.ip i).kept.find? fun k => k.req.tag == tag

/-- A replayed request is answered: a takeover whose replay is complete is over (R175, R314). -/
def Cover.answered (c : Cover) (i tag : Nat) : Option Cover :=
  let l := c.replay.filter fun r => !(r.intake == i && r.tag == tag)
  if c.serving && l.isEmpty then none else some { c with replay := l }

/-- Drop a kept request; its place frees. -/
def State.unkeep (s : State) (i tag : Nat) : State :=
  (s.onIp i fun p => { p with kept := p.kept.filter fun k => k.req.tag != tag }).allSlc fun c =>
    { c with cover := c.cover.bind fun x => Cover.answered x i tag }

/-! ### BIConflict (R122) -/

/-- A BIConflict is acknowledged, with the load of its line's slice (R97), and its Req credit returns (R122); the acknowledgement of a forwarded one
goes back to the block that forwarded it (R387). -/
def State.sendAck (s : State) (i : Nat) (a : Ack) : State :=
  let load := s.devLoad (s.homeSlice a.line) a.host
  if a.fwd then s.toTwin (.response i a.cxl ((s.partOf a.line).getD 64) none none load) else (s.send (.conflictAck i a.host a.line load)).returnCredit a.host false

/-- The requests of a host port for a line whose responses the slices have handed over and the port has not released (R161). -/
def State.handed (s : State) (i h line : Nat) : List Nat :=
  ((s.ip i).kept.filter fun k => k.ready && k.req.host == some h && k.req.line == line).map fun k => k.req.tag

/-- A BIConflict is answered once the responses already handed over for its host port and line have left (R122; log 11). -/
def State.conflict (s : State) (r : Req) (cxl : Nat) : State :=
  let h := r.host.getD 0
  let a : Ack := ⟨h, r.line, cxl, r.fwd, s.handed r.intake h r.line⟩
  if a.tags.isEmpty then s.sendAck r.intake a else s.onIp r.intake fun p => { p with acks := p.acks ++ [a] }

/-- The BIConflicts that wait for no response any more are acknowledged, in their order (R122). -/
def State.ackStep (s : State) (i : Nat) : State :=
  let p := s.ip i
  let l := p.acks.map fun a => { a with tags := a.tags.filter fun t => p.kept.any fun k => k.req.tag == t && k.ready }
  State.each (fun a s => s.sendAck i a) (l.filter fun a => a.tags.isEmpty) (s.onIp i fun p => { p with acks := l.filter fun a => !a.tags.isEmpty })

/-- The request of tag `tag` waits behind a BIConflict of its host port and line that came before its responses (R122). -/
def Intake.behindAck (p : Intake) (k : Kept) : Bool :=
  p.acks.any fun a => some a.host == k.req.host && a.line == k.req.line && !a.tags.contains k.req.tag

/-! ### Messages on their way -/

/-- The port itself answers a message of this form: a speculative read with nothing (R103), a clean eviction in a window with Cmp
(R102). -/
def Req.atPort (r : Req) : Bool := r.form == .specRd || r.form == .clnEvct && r.plate.isSome

/-- A kept request that the port itself answers (R102, R103). -/
def State.answerHere (s : State) (i : Nat) (k : Kept) : State :=
  let s := (s.release i k.req.echo).unkeep i k.req.tag
  let h := k.req.host.getD 0
  if k.req.form == .specRd then
    let s := s.bumpIp i 3 32 32
    if k.req.fwd then s else s.returnCredit h false
  else if k.req.fwd then s.toTwin (.response i k.cxl k.req.part none (some .cmp) (s.ownLoad h))
  else (s.send (.ndr i h k.cxl .cmp (s.ownLoad h))).returnCredit h false

/-- A kept request that is ready is sent to its slice (R390): echoed first, where it has not been; it waits while the twin port cannot accept its
echo. -/
def State.sendOff (s : State) (i : Nat) (k : Kept) : State :=
  let due := k.own == .host && k.req.echo.isNone && s.echoes k.req
  if due && s.twinFull i then s.onIp i fun p => p.onKept k.req.tag fun k => { k with st := .echo }
  else
    let x := if due then s.echo k.req k.cxl else (0, s)
    let e := if due then some x.1 else k.req.echo
    State.pump i (s.homeSlice k.req.line) 4 (x.2.onIp i fun p => p.onKept k.req.tag fun k => { k with st := .unsent, req := { k.req with echo := e } })

/-- A kept request that waited goes on: answered here, to the slice, to the twin, or into another wait. -/
def State.launch (s : State) (i tag : Nat) : State :=
  match s.kept? i tag with
  | some k =>
    let st := s.openPlace k.req
    if k.req.atPort then s.answerHere i k
    else
      match st with
      | .fwd _ =>
        let s := s.onIp i fun p => p.onKept tag fun k => { k with st := st }
        if s.forwards k.req.part then (s.toTwin (.forward i k.req)).bumpTwn 6 0 32 else s.holdStore i
      | .unsent => if k.req.form == .biConf then (s.unkeep i tag).conflict k.req k.cxl else s.sendOff i k
      | _ => s.onIp i fun p => p.onKept tag fun k => { k with st := st }
  | none => s

/-- The requests of port `i` that waited for the twin port to accept their echoes go on, in their order, while it accepts (R390). -/
def State.echoGo (s : State) (i : Nat) : State :=
  if s.twinFull i then s
  else State.each (fun t s => s.launch i t) (((s.ip i).kept.filter fun k => k.st == .echo).map fun k => k.req.tag) s

/-- A place that takes a BIConflict with it: to the twin (R387), or a wait for a takeover (R403). -/
def KSt.goes : KSt → Bool
  | .fwd _ | .takeover => true
  | _ => false

/-- A message that the port answers at once is echoed, and released before its answer (R390, R394). -/
def State.passEcho (s : State) (r : Req) (cxl : Nat) : State :=
  if s.echoes r then let x := s.echo r cxl; x.2.release r.intake (some x.1) else s

/-- A message that passed: a speculative read is discarded and counted (R103), a BIConflict acknowledged (R122) unless it goes
to the twin or waits for a takeover (R387, R403), a clean eviction in a window answered without effect (R102), its echo released before the answer
leaves (R390, R394); any other is kept and sent on. -/
def State.takeIn (s : State) (r : Req) (cxl : Nat) : State :=
  let h := r.host.getD 0
  match r.form with
  | .specRd => (s.bumpIp r.intake 3 32 32).returnCredit h false
  | .biConf =>
    if (s.firstPlace r).goes then s.keep r .host cxl (s.firstPlace r) else s.conflict r cxl
  | .clnEvct =>
    if r.plate.isSome then ((s.passEcho r cxl).send (.ndr r.intake h cxl .cmp (s.ownLoad h))).returnCredit h false
    else s.keep r .host cxl (s.firstPlace r)
  | _ => s.keep r .host cxl (s.firstPlace r)

/-- The offset lies in a range of a partition of whose host set `h` is a member (R135 kind 0x05). -/
def State.overrunPart (s : State) (h : Nat) (offset : Nat) : Option Nat :=
  if 2 ^ 48 ≤ offset then none
  else
    match s.partOf (offset / 64) with
    | some p => if s.member h p then some p else none
    | none => none

/-- An M2S Req or M2S RwD without a credit is discarded, counted and reported (R131, R135). -/
def State.overrun (s : State) (i h : Nat) (rwd : Bool) (offset : Nat) : State :=
  let s := (s.bumpIp i 3 0 32).raise (srcIp i 2) (256 + 131) (offset / 64 % 2 ^ 42) ((s.overrunPart h offset).getD 0) h
  match s.overrunPart h offset with
  | some p => s.record p 0 (.overrun h rwd)
  | none => s

/-- The message's host port is bound here and enabled, so that it holds credits here (R129, R130; log 11). -/
def State.holdsCredits (s : State) (i h : Nat) : Bool := (s.hp h).intake == i && (s.hp h).enable

/-- A message with its credit consumed: checked, then answered as failed, held, or admitted. -/
def State.judge (s : State) (m : M2S) (op : ReqOp) (data : Line) (be : Quad) (fwd : Bool) : State :=
  let i := m.port.val
  let h := m.host.val
  match s.check m op data be fwd with
  | .fail c p =>
    let s := s.countFail i c h op m.offset.toNat p
    let s := s.failOut i h m.tag.toNat (failAnswer op m.mf (formOf op m.mf m.mv m.snp))
    if s.holdsCredits i h then s.returnCredit h (opRwd op) else s
  | .hold r => s.holdReq r m.tag.toNat
  | .pass r => s.takeIn r m.tag.toNat

/-- An M2S Req or M2S RwD reaches its intake port (R75, R76, R130, R131). In the fail-safe state intake is stopped. -/
def State.arrive (s : State) (m : M2S) (op : ReqOp) (data : Line) (be : Quad) : State :=
  let i := m.port.val
  let h := m.host.val
  let op := m.enc.getD op
  let rwd := opRwd op
  let q := s.hp h
  if (s.ip i).halted then s
  else
    let s := s.bumpIp i 0 0 64
    if s.holdsCredits i h then
      if (if rwd then q.rwdCr ≤ q.rwdUsed else q.reqCr ≤ q.reqUsed) then s.overrun i h rwd m.offset.toNat
      else
        let s := s.onHp h fun q => if rwd then { q with rwdUsed := q.rwdUsed + 1 } else { q with reqUsed := q.reqUsed + 1 }
        s.judge m op data be false
    else s.judge m op data be false

/-! ### Answers of kept requests -/

/-- The packets of the responses of a request from its slice to its intake port (R161): the DRS, then the NDR; and how long the request took from
its leaving the port (R512). -/
def State.sendResp (s : State) (i : Nat) (k : Kept) (drs : Option (Line × Bool)) (ndr : Option NdrKind) : State :=
  let f : PktF := { prio := s.prio k.req.part, tag := k.req.tag, host := k.req.host, part := k.req.part, line := k.req.line, stream := k.req.num,
                    form := formNum k.req.form, load := match s.devLoad k.slice (k.req.host.getD 0) with | .light => 0 | .optimal => 1 | .moderate => 2 | .severe => 3 }
  let s := match drs with
    | some d => s.packet (.slice k.slice) (.intake i) 0x60 { f with pois := d.2, data := lineUnits d.1 }
    | none => s
  let s := match ndr with
    | some a => s.packet (.slice k.slice) (.intake i) 0x40 { f with aux := match a with | .cmp => 0 | .cmpS => 1 | .cmpE => 2 }
    | none => s
  match k.left with
  | some t => s.latency i t
  | none => s

/-- A slice hands the responses of a request to its intake port, DRS and NDR together (R161). -/
def State.respond (s : State) (i tag : Nat) (drs : Option (Line × Bool)) (ndr : Option NdrKind) (after : Nat) :
    State :=
  let s := match s.kept? i tag with
    | some k => s.sendResp i k drs ndr
    | none => s
  s.onIp i fun p => p.onKept tag fun k => { k with drs := drs, ndr := ndr, ready := true, after := after }

/-- The failed answer of a kept request (R76), from the intake port itself; its echo is released with it (R394). -/
def State.failKept (s : State) (i : Nat) (k : Kept) : State :=
  let s := (s.release i k.req.echo).unkeep i k.req.tag
  match k.req.host with
  | some h =>
    let a := failAnswer (opOf k.req.form) .meta0 (some k.req.form)
    if k.req.fwd then s.toTwin (.response i k.cxl k.req.part (if a.1 then some (0, true) else none) (if a.2 then some .cmp else none) (s.ownLoad h))
    else ((s.failOut i h k.cxl (failAnswer (opOf k.req.form) .meta0 (some k.req.form))).returnCredit h (formWrite k.req.form)).ackStep i
  | none => s

/-- The partition's admitted requests are all answered (R65): none kept that has been sent, none pending. -/
def State.quiet (s : State) (p : Nat) : Bool :=
  (s.intakes.all fun x => x.2.kept.all fun k => k.req.part != p || k.st == .held)

/-- The settle records of a slice's packing buffer go to its twin router (R486). -/
def State.flushPack (s : State) (n : Nat) : State :=
  (s.toTwinPack (.slice n) (s.slc n).front.pack.recs).onFront n fun f => { f with pack := ⟨[], 0⟩ }

/-- The settle records that the slices' packing buffers hold go to the twin (R486). -/
def State.flushSettle (s : State) : State :=
  State.each (fun (x : Nat × Slice) s =>
    if x.2.front.pack.recs.isEmpty then s
    else s.flushPack x.1) s.slices s

/-- The kept requests of a partition that wait for a takeover or a role move go on. -/
def State.launchHeld (s : State) (p : Nat) : State :=
  State.each (fun x s => s.launch x.1 x.2)
    ((s.intakes.map fun x => (x.2.kept.filter fun k => k.req.part == p && k.st == .takeover).map fun k => (x.1, k.req.tag)).flatten) s

/-- The kept requests that wait to be forwarded go to the twin (R387). -/
def State.launchFwd (s : State) : State :=
  State.each (fun (x : Nat × Nat) s => (s.launch x.1 x.2).holdStore x.1)
    ((s.intakes.map fun x => (x.2.kept.filter fun k => match k.st with
      | .fwd _ => true
      | _ => false).map fun k => (x.1, k.req.tag)).flatten) s

/-- R417: DRAIN of a role move ends at the old primary once every admitted request of the partition is answered: the drained marker
follows its last settle record, and what it held goes to the new primary. -/
def State.roleStep (s : State) (p : Nat) : State :=
  match Tbl.find s.twin.moves p with
  | some m =>
    if m.old && m.phase == .drain && s.intakes.all fun x => x.2.kept.all fun k => k.req.part != p || k.st == .takeover || k.st == .held then
      let s := s.flushSettle.toTwin (.drained p)
      let s := s.onTwin fun t => { t with roles := t.roles &&& ~~~(BitVec.ofNat 64 (2 ^ p)), moves := Tbl.set t.moves p { m with phase := .forward } }
      (s.slotDone m.slot).launchHeld p
    else s
  | none => s

/-- R65: a DRAINING partition whose last request is answered becomes DISABLED and DRAINED; a STOPPED one DRAINED. -/
def State.drainPart (s : State) (p : Nat) : State :=
  match (s.part p).st with
  | .draining => if s.quiet p then s.onPart p fun q => { q with st := .disabled, drained := true } else s
  | .stopped => if s.quiet p then s.onPart p fun q => { q with drained := true } else s
  | _ => s.roleStep p

end Sys2Proof.Machine
end

