-- ==== Sys2Proof/Machine/Filter.lean ====
section
/-! DEFINITION. The sheaf filter and the media directory (spec chapter 5): the sheaf entry (R193 to R196), the record that a
directory copy gives (R199, R201, R228), the choice of a way (R207, R208), and the fields of a new record (R204 to R206). -/

namespace Sys2Proof.Machine

/-! ### The sheaf entry (R194) -/

/-- A 64-bit word with the field of `w` bits at `lo` set to `v`. -/
def putField (x : Quad) (lo w v : Nat) : Quad :=
  BitVec.ofNat 64 (x.toNat - 2 ^ lo * fieldN x.toNat lo w + 2 ^ lo * (v % 2 ^ w))

/-- The set of a line (R193). -/
def fltSet (line : Nat) : Nat := (line / 16) % 2048
/-- The tag of a line (R193). -/
def fltTag (line : Nat) : Nat := line / 2 ^ 18
/-- The number of a line in its sheaf (R16). -/
def inSheaf (line : Nat) : Nat := line % 16

/-- A sheaf entry of two data words, with the check bits of each (R194). -/
def FEntry.of (w0 w1 : Quad) : FEntry := ⟨w0, w1, Config.secded w1 ++ Config.secded w0⟩

/-- TAG. -/
def FEntry.tag (e : FEntry) : Nat := fieldN e.w0.toNat 0 24
/-- PART. -/
def FEntry.part (e : FEntry) : Nat := fieldN e.w0.toNat 24 6
/-- FMT. -/
def FEntry.fmt (e : FEntry) : Bool := e.w0.getLsbD 30
/-- VALID. -/
def FEntry.valid (e : FEntry) : Bool := e.w0.getLsbD 31
/-- STATE of line `i`. -/
def FEntry.state (e : FEntry) (i : Nat) : Nat := fieldN e.w0.toNat (32 + 2 * i) 2
/-- PTR `k`. -/
def FEntry.ptr (e : FEntry) (k : Nat) : Nat := fieldN e.w1.toNat (10 * k) 10
/-- IDX of line `i`. -/
def FEntry.idx (e : FEntry) (i : Nat) : Nat := fieldN e.w1.toNat (30 + 2 * i) 2
/-- PTRS. -/
def FEntry.ptrs (e : FEntry) : Nat := fieldN e.w1.toNat 62 2
/-- VEC. -/
def FEntry.vec (e : FEntry) : Quad := e.w1

/-- An entry of a sheaf in exact format with every line in DIR. -/
def FEntry.fresh (tag part : Nat) : FEntry :=
  .of (BitVec.ofNat 64 (tag % 2 ^ 24 + 2 ^ 24 * (part % 64) + 2 ^ 31 + 2 ^ 32 * 0xFFFFFFFF)) 0

/-- STATE of line `i` set. -/
def FEntry.setState (e : FEntry) (i v : Nat) : FEntry := .of (putField e.w0 (32 + 2 * i) 2 v) e.w1
/-- IDX of line `i` set. -/
def FEntry.setIdx (e : FEntry) (i v : Nat) : FEntry := .of e.w0 (putField e.w1 (30 + 2 * i) 2 v)

/-- The pointers in use (R195). -/
def FEntry.used (e : FEntry) : List Nat := (List.range e.ptrs).map e.ptr

/-- The lines of an entry that it holds (R189). -/
def FEntry.held (e : FEntry) : List Nat := below 16 fun i => e.state i != 3

/-- The record of line `i` when the entry holds it (R99, R195, R196). -/
def FEntry.recOf (e : FEntry) (i : Nat) : Option HRec :=
  match e.state i with
  | 0 => some .inv
  | 1 =>
    if e.fmt then some (.coarse e.vec)
    else if e.idx i < 3 then (if e.idx i < e.ptrs then some (.shared [e.ptr (e.idx i)]) else some .doubt)
    else if e.ptrs = 0 then some .doubt else some (.shared (e.used.foldr insertNat []))
  | 2 => if !e.fmt && e.idx i < 3 && e.idx i < e.ptrs then some (.owned (e.ptr (e.idx i))) else some .doubt
  | _ => none

/-- R195, R206: with no line in S or E no pointer is in use; a coarse entry with no line in S returns to exact. -/
def FEntry.norm (e : FEntry) : FEntry :=
  if e.fmt then
    if (List.range 16).any fun i => e.state i == 1 then e else .of (putField e.w0 30 1 0) 0
  else if (List.range 16).any fun i => e.state i == 1 || e.state i == 2 then e
  else .of e.w0 (putField e.w1 62 2 0)

/-- The index of a host among the pointers in use. -/
def FEntry.findPtr (e : FEntry) (h : Nat) : Option Nat := (List.range e.ptrs).find? fun k => e.ptr k == h

/-- The host's pointer, taken when one is free (R195): the index and the entry. -/
def FEntry.takePtr (e : FEntry) (h : Nat) : Option (Nat × FEntry) :=
  match e.findPtr h with
  | some k => some (k, e)
  | none =>
    if e.ptrs < 3 then some (e.ptrs, .of e.w0 (putField (putField e.w1 (10 * e.ptrs) 10 h) 62 2 (e.ptrs + 1))) else none

/-- Every host of a list as a pointer, where all fit (R204 rule 5). -/
def FEntry.takeAll (e : FEntry) : List Nat → Option FEntry
  | [] => some e
  | h :: r =>
    match e.takePtr h with
    | some (_, e) => FEntry.takeAll e r
    | none => none

/-- The group bits of a list of hosts (R194 VEC). -/
def groupBits (hs : List Nat) : Quad := hs.foldl (fun v h => v ||| BitVec.ofNat 64 (2 ^ (h / 16))) 0

/-! ### The directory copy -/

/-- The directory fields that write a record (R198, R210). -/
def HRec.dir : HRec → Nat × Nat
  | .inv => (0, 0)
  | .shared [h] => (1, h)
  | .shared [] => (0, 0)
  | .shared _ => (3, 0)
  | .coarse _ => (3, 0)
  | .many => (3, 0)
  | .owned h => (2, h)
  | .doubt => (3, 0x3FF)

/-- The record that a directory copy gives (R199, R201, R228), and whether its age is impossible. -/
def State.dirRec (s : State) (bank line : Nat) (i : Meta) : HRec × Bool :=
  let n := sliceOf line
  let a := genAge (s.dg n) (Meta.dirGen i)
  if genAge (s.dg n) (s.fl n) < a then (.doubt, true)
  else if a = 0 then
    match Meta.dirState i with
    | 0 => (.inv, false)
    | 1 => (.shared [Meta.holder i], false)
    | 2 => if (s.slc bank).banks.restored.contains (Meta.holder i) then (.doubt, false) else (.owned (Meta.holder i), false)
    | _ => if Meta.holder i = 0 then (.many, false) else (.doubt, false)
  else if a ≤ genAge (s.dg n) (s.qg (Meta.colour i) n) then (.doubt, false)
  else (.inv, false)

/-- The directory fields of a victim's line (R210); a line in S that names pointers while none is in use is in doubt (R195). -/
def FEntry.spillDir (e : FEntry) (i : Nat) : Nat × Nat :=
  match e.state i with
  | 0 => (0, 0)
  | 1 =>
    if e.fmt then (3, 0)
    else if e.idx i < 3 then (1, e.ptr (e.idx i))
    else if e.ptrs = 1 then (1, e.ptr 0)
    else if e.ptrs = 0 then (3, 0x3FF)
    else (3, 0)
  | 2 => if e.idx i < 3 then (2, e.ptr (e.idx i)) else (3, 0x3FF)
  | _ => (0, 0)

/-- A set whose advance of DG is not persisted yet, or not acknowledged by the twin (R219). -/
def State.advOpen (s : State) (line : Nat) : Bool := s.dirGen.adv.contains (sliceOf line)

/-- The generation record of a set is mirrored to the twin (R218). -/
def State.mirrorGen (s : State) (n : Nat) : State :=
  if s.twin.st = .paired then
    s.toTwin (.genRec n (s.dg n) (s.fl n) ((s.dirGen.q.filter fun x => x.1 % 128 == n).map fun x => (x.1 / 128, x.2)))
  else s

/-- New floors and quiet generations are written to the generation record (R218, R223). -/
def State.saveGen (s : State) : State :=
  { s with dirGen := { s.dirGen with savedF := s.dirGen.fl, savedQ := s.dirGen.q } }

/-- An advance of DG(n) (R219), open until DG_ADVANCE_PERSISTED; the slice `by'` that serves the set raises the generation-low event from age 11 on (R227). -/
def State.advanceDg (s : State) (n by' : Nat) : State :=
  let s := { s with dirGen := { s.dirGen with dg := Tbl.set s.dirGen.dg n ((s.dg n + 1) % 16), adv := insertNat n s.dirGen.adv } }.mirrorGen n
  if s.advLeft n ≤ 4 then s.raise (srcSlc by' 6) (256 + 227) 0 0 n else s

/-! ### Lookup, pins and the choice of a way -/

/-- The way that covers a line's sheaf. -/
def Banks.fltWay (b : Banks) (line : Nat) : Option Nat :=
  (List.range 16).find? fun w =>
    match Tbl.find b.flt (fltSet line * 16 + w) with
    | some e => e.valid && e.tag == fltTag line
    | none => false

/-- The entry of a way. -/
def Banks.fltAt (b : Banks) (set way : Nat) : Option FEntry :=
  match Tbl.find b.flt (set * 16 + way) with
  | some e => if e.valid then some e else none
  | none => none

/-- The lowest line of the sheaf that an entry of a set covers; bits [23:21] of the offset come from the slice number
(R193). -/
def sheafBase (n set tag : Nat) : Nat :=
  let l0 := tag * 2 ^ 18 + set * 16
  let bit := fun (k : Nat) (bits : List Nat) => (b2n (bitN n k) + parity l0 bits) % 2
  l0 + 2 ^ 15 * bit 0 [14, 28, 35, 42] + 2 ^ 16 * bit 1 [15, 29, 36, 43] + 2 ^ 17 * bit 2 [16, 30, 37, 44]

/-- The entry holds its line (R139, R167): a host entry before DURABLE, or an internal entry that moves it under hold. -/
def Entry.holds (x : Entry) : Bool :=
  (x.kind == .host || x.hold) && x.st != .durable && x.st != .respond

/-- The tracker entry that pins the sheaf of a way (R197). -/
def Front.pins (f : Front) (set tag : Nat) : Option Nat :=
  (f.ents.find? fun x => x.2.holds && fltSet x.2.req.line == set && fltTag x.2.req.line == tag).map Prod.fst

/-- Filter entries of a partition in a bank. -/
def Banks.fltCount (b : Banks) (p : Nat) : Nat := (b.flt.filter fun x => x.2.valid && x.2.part == p).length

/-- The choice of R207 among candidates: the fewest held lines, from the LFSR's way upwards. -/
def chooseFewest (b : Banks) (set : Nat) (cand : List Nat) : Option Nat :=
  let lines := fun w =>
    match b.fltAt set w with
    | some e => e.held.length
    | none => 0
  let k := minOf lines 16 cand
  let start := b.lfsr.toNat % 16
  ((List.range 16).map fun d => (start + d) % 16).find? fun w => cand.contains w && lines w == k

/-- choose_way of R207. -/
def State.chooseWay (s : State) (n set p : Nat) : Option Nat :=
  let c := s.slc n
  let b := c.banks
  let on := below 16 fun w => !bitN b.fltOff w
  let unpinned := on.filter fun w =>
    match b.fltAt set w with
    | some e => (c.front.pins set e.tag).isNone
    | none => false
  let partAt := fun w =>
    match b.fltAt set w with
    | some e => e.part
    | none => 64
  if (s.part p).cfg.filterMax.toNat ≤ b.fltCount p then chooseFewest b set (unpinned.filter fun w => partAt w == p)
  else
    match on.find? fun w => (b.fltAt set w).isNone with
    | some w => some w
    | none =>
      chooseFewest b set (unpinned.filter fun w =>
        partAt w == p || (s.part (partAt w)).cfg.filterMin.toNat < b.fltCount (partAt w))

/-! ### Where a new record goes (R204) -/

/-- What R204 decides: the entry with the record placed, and the directory writes it takes, as line in sheaf, state and
holder. -/
structure Placed where
  entry : Option FEntry
  writes : List (Nat × (Nat × Nat))
  coarse : Bool
  dirOnly : Bool
  deriving DecidableEq, Repr, Inhabited

/-- R205: the directory writes of the lines in E, which go to DIR, and then the entry in coarse format, with the groups of the
pointers that are in use after that (R195) and of the new holders. -/
def FEntry.toCoarse (e : FEntry) (hs : List Nat) : FEntry × List (Nat × (Nat × Nat)) :=
  let owned := below 16 fun i => e.state i == 2
  let w := owned.map fun i => (i, e.spillDir i)
  let e' := (owned.foldl (fun e i => FEntry.setState e i 3) e).norm
  (.of (putField e'.w0 30 1 1) (groupBits (e'.used ++ hs)), w)

/-- Rules 3 to 8 of R204 on an entry that covers the line. -/
def FEntry.place (e : FEntry) (i : Nat) (r : HRec) : Placed :=
  match r with
  | .inv => ⟨some (e.setState i 0).norm, [], false, false⟩
  | .owned h =>
    match (if e.fmt then none else e.takePtr h) with
    | some (k, e) => ⟨some ((e.setState i 2).setIdx i k).norm, [], false, false⟩
    | none => ⟨some (e.setState i 3).norm, [(i, (2, h))], false, false⟩
  | .shared hs =>
    if e.fmt then ⟨some (.of (e.setState i 1).w0 (e.w1 ||| groupBits hs)), [], false, false⟩
    else
      match e.takeAll hs with
      | some e' =>
        let k := match hs with
          | [h] => (e'.findPtr h).getD 3
          | _ => 3
        ⟨some ((e'.setState i 1).setIdx i k).norm, [], false, false⟩
      | none =>
        let c := e.toCoarse hs
        ⟨some (c.1.setState i 1), c.2, true, false⟩
  | .coarse v =>
    if e.fmt then ⟨some (.of (e.setState i 1).w0 (e.w1 ||| v)), [], false, false⟩
    else
      let c := e.toCoarse []
      ⟨some (.of (c.1.setState i 1).w0 (c.1.w1 ||| v)), c.2, true, false⟩
  | .many => ⟨some (e.setState i 3).norm, [(i, (3, 0))], false, false⟩
  | .doubt => ⟨some (e.setState i 3).norm, [(i, (3, 0x3FF))], false, false⟩

/-- R204: rule 1 for a line in DIR whose record stays, rule 2 without a way, else the rules on the entry. -/
def placeRec (e : Option FEntry) (i : Nat) (old : Option HRec) (new : HRec) : Placed :=
  match e with
  | none => if old = some new then ⟨none, [], false, false⟩ else ⟨none, [(i, new.dir)], false, true⟩
  | some e =>
    if e.state i = 3 ∧ old = some new then ⟨some e, [], false, false⟩ else e.place i new

end Sys2Proof.Machine
end

