-- ==== Sys2Proof/Machine/Granary.lean ====
section
/-! DEFINITION. The Granary (spec chapter 6) and the commands at the media ports (R253, R427, R462): ways, sets and tags
(R236, R237), the way choice (R239 to R243), fills and evictions (R245 to R255). -/

namespace Sys2Proof.Machine

/-! ### Sets and ways -/

/-- Associativity A (R236, R274). -/
def GrnCtl.ways (c : GrnCtl) : Nat := 2 ^ (c.assoc.toNat + 1)
/-- Groups G (R236). -/
def GrnCtl.groups (c : GrnCtl) : Nat := 16 / c.ways
/-- The row of a line (R237). -/
def grnRow (line : Nat) : Nat := line % 512
/-- The group of a line (R237). -/
def GrnCtl.group (c : GrnCtl) (line : Nat) : Nat := (line / 512) % c.groups
/-- The physical way of logical way `w` of a line's group (R236). -/
def GrnCtl.phys (c : GrnCtl) (line w : Nat) : Nat := w * c.groups + c.group line
/-- The key of a line's entry in logical way `w`. -/
def GrnCtl.key (c : GrnCtl) (line w : Nat) : Nat := c.phys line w * 512 + grnRow line

/-- The physical way is carved into scratch (R266). -/
def GrnCtl.carved (c : GrnCtl) (p : Nat) : Bool := 16 - c.carve.toNat ≤ p

/-- The logical ways of a line's set that are allowed to a partition (R239). -/
def State.allowedWays (s : State) (n line p : Nat) : List Nat :=
  let b := (s.slc n).banks
  below b.ctl.ways fun w =>
    (s.part p).cfg.wayMask.getLsbD w && !b.ctl.carved (b.ctl.phys line w) && !bitN b.grnOff (b.ctl.phys line w)

/-- The state of a way; a way that no entry lists is IDLE and not valid. -/
def Banks.wayState (b : Banks) (key : Nat) : GState :=
  match Tbl.find b.grn key with
  | some g => g.st
  | none => .idle

/-- The way holds a valid line. -/
def Banks.wayValid (b : Banks) (key : Nat) : Bool :=
  match Tbl.find b.grn key with
  | some g => g.valid
  | none => false

/-- The key of the valid entry of a line, if the Granary holds it. -/
def Banks.grnFind (b : Banks) (line : Nat) : Option Nat :=
  ((List.range b.ctl.ways).map fun w => b.ctl.key line w).find? fun k =>
    match Tbl.find b.grn k with
    | some g => g.valid && g.line == line
    | none => false

/-- The key of a way that waits for the line's fill (R247). -/
def Banks.grnFilling (b : Banks) (line : Nat) : Option Nat :=
  ((List.range b.ctl.ways).map fun w => b.ctl.key line w).find? fun k =>
    match Tbl.find b.grn k with
    | some g => !g.valid && g.st == .filling && g.line == line
    | none => false

/-- One step of the LFSR (R241). -/
def lfsrStep (v : BitVec 16) : BitVec 16 :=
  (v <<< 1) ||| (if (v.getLsbD 15 != v.getLsbD 13) != (v.getLsbD 12 != v.getLsbD 10) then 1 else 0)

/-- The choice among usable ways (R242): the lowest that is not valid, else the first of the four nibbles of the LFSR that
names one, else the lowest; the flag marks the last. -/
def pickWay (v : BitVec 16) (a : Nat) (usable : List Nat) (valid : Nat → Bool) : Option (Nat × Bool) :=
  match usable.find? fun w => !valid w with
  | some w => some (w, false)
  | none =>
    match ([0, 1, 2, 3].map fun k => (v.toNat / 16 ^ k % 16) % a).find? fun w => usable.contains w with
    | some w => some (w, false)
    | none => usable.head?.map fun w => (w, true)

/-! ### Placements and media commands -/

/-- The moving record of a line's sheaf in slice `n` (R459). -/
def State.movRec (s : State) (n line : Nat) : Option MovRec :=
  (s.slc n).banks.moves.find? fun r => r.tract == tractOf line && r.set == sliceOf line

/-- The placement that the tract map names (R251, R437). -/
def State.mapPlace (s : State) (tract : Nat) : Option (Nat × Nat × Nat) :=
  match Tbl.find s.place.map tract with
  | some e => if meState e = 0 then none else some (mePort e, meTract e, meGen e)
  | none => none

/-- The live placements of a line (R462): the old one with generation g until DONE, and the new one with g + 1 once the
line's copy has committed; otherwise the placement of the map. -/
def State.livePlaces (s : State) (n line : Nat) : List (Nat × Nat × Nat) :=
  match s.movRec n line with
  | some r =>
    (r.old.1, r.old.2, r.gen) ::
      (if r.committed || bitN r.mask (inSheaf line) then [(r.new.1, r.new.2, (r.gen + 1) % 16)] else [])
  | none => (s.mapPlace (tractOf line)).toList

/-- The write to a codeword address that was handed over last, of those that the controller has not completed (R253): a command finds what the
writes before it to its address leave, accepted or not yet (R333, R499). -/
def MPort.newest (q : MPort) (addr : Nat) : Option Codeword :=
  ((q.ops.filter fun o => o.write && o.addr == addr).getLast?).map fun o => o.cw

/-- The engine whose packet a command of slice `n` is (R511): migration, patrol scrub, the resynchronisation walk. -/
def State.engineOf (s : State) (n : Nat) : Purp → Option Nat
  | .copy _ _ _ => some 1
  | .correct _ => some 2
  | .scrub e =>
    match s.ent n e with
    | some x => match x.kind with
      | .migrate => some 1
      | .resync => some 3
      | _ => some 2
    | none => none
  | _ => none

/-- The priority of the partition that the tract map names for a line (R88). -/
def State.linePrio (s : State) (line : Nat) : Nat :=
  match Tbl.find s.place.map (tractOf line) with
  | some e => s.prio (mePart e)
  | none => 0

/-- The PRIO of a command's packet (R88, R251): the partition's for a request's read and for a write's data, 0 for evictions, spills and engines. -/
def State.prioOf (s : State) (n line : Nat) : Purp → Nat
  | .read e => ((s.ent n e).map fun x => s.prio x.req.part).getD 0
  | .bypass q => (((s.slc n).front.pends.find? fun w => w.seq == q).map fun w => s.prio w.part).getD 0
  | .through | .second true => s.linePrio line
  | _ => 0

/-- The purpose of a write's further placements (R462): a host's write, or other work. -/
def Purp.next : Purp → Purp
  | .bypass _ | .through => .second true
  | _ => .second false

/-- A write handed over is what the reads of its address that the interface serves return (R191, R253). -/
def MOp.after (addr : Nat) (cw : Codeword) (o : MOp) : MOp := if !o.write && o.accepted && o.addr == addr then { o with cw := cw } else o

/-- Hand a command to a media port interface (R253, R499): a read of an address with a write that stands there is served from the newest one, and does
not go to the controller; a write goes there once the interface has accepted it. -/
def State.media (s : State) (m n : Nat) (purp : Purp) (line mt : Nat) (write : Bool) (cw : Codeword) : State :=
  let q := s.mp m
  let op : MOp :=
    { id := q.opId, slice := n, purp := purp, line := line, addr := mt * 1024 + line % 1024, write := write, cw := cw,
      accepted := false, since := s.now, tries := 0, reread := false,
      holds := if write then ((s.slc n).front.pends.filter fun w => w.line == line && w.placed).map fun w => w.seq else [],
      mseq := if write then
          (((s.slc n).banks.grn.find? fun g => g.2.valid && g.2.line == line).map fun g => g.2.mirrorSeq) <|> (s.slc n).cover.bind fun c => Tbl.find c.lines line
        else none }
  let op := match (if write then none else q.newest op.addr) with
    | some w => { op with cw := w, accepted := true }
    | none => op
  let s := s.packet (.slice n) (.media m) (if write then 0x09 else match purp with
      | .dirw _ => 0x0A
      | _ => 0x08)
    { prio := s.prioOf n line purp, tag := op.id, line := line, aux := if write then (Codeword.info cw).toNat + 2 ^ 32 * (cw.extractLsb' 544 32).toNat else 0,
      data := if write then lineUnits (Codeword.line cw) else [], engine := s.engineOf n purp }
  let s := s.onMp m fun q =>
    { q with ops := (if write then q.ops.map (MOp.after op.addr cw) else q.ops) ++ [op], opId := q.opId + 1, traffic := q.traffic + 1, writes := if write then q.writes + 1 else q.writes }
  if write || op.accepted then s else s.send (.media m op)

/-- Write a line to every live placement, each with its own generation (R462); the command of the first carries the
purpose. -/
def State.mediaWrite (s : State) (n : Nat) (purp : Purp) (line : Nat) (d : Line) (i : Meta) : State :=
  match s.livePlaces n line with
  | [] => s
  | (m, mt, g) :: r =>
    let s := s.media m n purp line mt true (encodeLine d (Meta.withGen i g))
    State.each (fun x s => s.media x.1 n purp.next line x.2.1 true (encodeLine d (Meta.withGen i x.2.2))) r s

/-- End every reservation on a line in slice `n` (R166, R214, R376). -/
def State.endResv (s : State) (n line : Nat) : State :=
  s.onFront n fun f =>
    { f with ents := f.ents.map fun x =>
        if x.2.kind != .host && x.2.req.line == line && !x.2.hold then (x.1, { x.2 with resv := false }) else x }

/-! ### Allocation, fills, evictions -/

/-- The Granary entry of a key, changed. -/
def Banks.onGrn (b : Banks) (key : Nat) (f : GEntry → GEntry) : Banks :=
  match Tbl.find b.grn key with
  | some g => { b with grn := Tbl.set b.grn key (f g) }
  | none => b

/-- Give an IDLE way to a line (R245): FILLING when it held no dirty line, else EVICTING with its victim write (R251). -/
def State.takeWay (s : State) (n key line : Nat) : WaySt × State :=
  let b := (s.slc n).banks
  let fill : GEntry := { valid := false, dirty := false, line := line, info := 0, twinHeld := false, mirrorSeq := 0, st := .filling, data := 0 }
  match Tbl.find b.grn key with
  | some g =>
    if g.valid && g.isDirty then
      let s := s.onBanks n fun b => b.onGrn key fun g => { g with st := .evicting }
      let s := ((s.bumpSlc n 3 32 32).bumpSlc n 4 32 32).mediaWrite n (.evict key line) g.line g.data g.info
      (.evicting key, s)
    else
      let s := if g.valid then s.bumpSlc n 3 0 32 else s
      (.filling key, s.onBanks n fun b => { b with grn := Tbl.set b.grn key fill })
  | none => (.filling key, s.onBanks n fun b => { b with grn := Tbl.set b.grn key fill })

/-- The held-line record is full (R397). -/
def Banks.heldFull (b : Banks) : Bool := 1024 ≤ b.held.length

/-- A twin-held line enters the held-line record (R397). -/
def State.holdLine (s : State) (n line seq : Nat) : State :=
  let s := s.onBanks n fun b => { b with held := Tbl.set b.held line seq }
  s.gauge 0x0A09B8 32 (max (Tbl.get 0 s.live (0x0A09B8 * 64 + 32)) (s.slc n).banks.held.length)

/-- R397: with the held-line record full the primary is asked to write a line that would enter it. -/
def State.askClean (s : State) (n line : Nat) : State :=
  ((s.toTwin (.cleanReq line)).bumpTwn 6 32 32).raise (srcTwn 4) (256 + 397) line 0 n

/-- R185: slice `n` takes no filter entry and no way for a line: it prepares or quiesces, or it returns the line's slice. -/
def State.handing (s : State) (n line : Nat) : Bool :=
  (s.slc n).phase == .prepare || (s.slc n).phase == .quiesce || (sliceOf line != n && (s.slc (sliceOf line)).phase == .returning)

/-- choose_granary_way (R242): bypass, a way, or a wait (R243). -/
def State.chooseGrn (s : State) (n : Nat) (e : Option Nat) (line p : Nat) : WaySt × State :=
  let allowed := s.allowedWays n line p
  if allowed.isEmpty || s.handing n line then (.bypass, s.bumpSlc n 2 32 32)
  else
    let b := (s.slc n).banks
    let v := b.lfsr
    let s := s.onBanks n fun b => { b with lfsr := lfsrStep b.lfsr }
    let usable := allowed.filter fun w => b.wayState (b.ctl.key line w) == .idle
    match pickWay v b.ctl.ways usable fun w => b.wayValid (b.ctl.key line w) with
    | some (w, low) => (if low then s.bumpSlc n 6 32 32 else s).takeWay n (b.ctl.key line w) line
    | none => (.waiting, (s.bumpSlc n 4 0 32).onBanks n fun b => { b with waiters := b.waiters ++ [⟨e, line, p, none⟩] })

/-- The slice writes a fill (R247, R249): the way becomes IDLE and valid, clean but for a recalled or mirrored line, with the codeword's metadata; such a line
is written to media at once while the slice writes through (R263, R344), and what waits for it to be in the block has it. The way is LOCKED while an entry has the line in SETTLE or moves it
under hold (R246). A mirrored line is twin-held, but in a block that has taken its partition over (R393, R403). -/
def State.fillWay (s : State) (n key : Nat) (f : Fill) : State :=
  let lock := (s.slc n).front.ents.any fun x => x.2.req.line == f.line && (x.2.hold || (x.2.kind == .host && x.2.st == .settle))
  let s := (s.bumpSlc n 2 0 32).onBanks n fun b =>
    { b with
      grn := Tbl.set b.grn key { valid := true, dirty := f.seq.isSome, line := f.line, info := f.info, twinHeld := f.twin && !s.primary (Meta.colour f.info), mirrorSeq := f.seq.getD 0,
                                 st := if lock then .locked else .idle, data := f.data },
      fills := Tbl.del b.fills key }
  let s := if f.seq.isSome then
      s.onFront n fun q => { q with pends := q.pends.map fun w => if w.line = f.line ∧ w.entry.isNone ∧ 2 ^ 32 ≤ w.seq then { w with settled := true } else w }
    else s
  if f.seq.isSome && s.writesThrough n then s.mediaWrite n .through f.line f.data f.info else s

/-- A recalled or mirrored line goes to media past the Granary (R87, R393); the pending writes of the line that wait for it are settled. -/
def State.dirtyPast (s : State) (n : Nat) (f : Fill) : State :=
  let s := s.onFront n fun q => { q with pends := q.pends.map fun w => if w.line = f.line ∧ w.entry.isNone ∧ 2 ^ 32 ≤ w.seq then { w with settled := true, bypass := true } else w }
  (if f.twin && !s.primary (Meta.colour f.info) then s.holdLine n f.line (f.seq.getD 0) else s).mediaWrite n .drain f.line f.data f.info

/-- A wait for a way ends with no way (R185, R242): its line bypasses the Granary, and a dirty line that waited goes to media; a mirrored one waits on
while the held-line record has no place for it (R397). -/
def State.endWait (s : State) (n : Nat) (w : Waiter) : State :=
  if (w.fill.any fun f => f.twin) && (s.slc n).banks.heldFull then s
  else
  let s := (s.bumpSlc n 2 32 32).onBanks n fun b => { b with waiters := b.waiters.erase w }
  let s := match w.entry with
    | some e => s.onEnt n e fun x => if x.req.line = w.line ∧ x.way = .waiting then { x with way := .bypass } else x
    | none => s
  match w.fill with
  | some f => if f.seq.isSome then s.dirtyPast n f else s
  | none => s

/-- The waits for ways end whose partition has no allowed way left, or whose address set is being handed over (R185, R239). -/
def State.endWaits (s : State) (n : Nat) : State :=
  State.each (fun (w : Waiter) s => s.endWait n w)
    ((s.slc n).banks.waiters.filter fun w => (s.allowedWays n w.line w.part).isEmpty || s.handing n w.line) s

/-- A way that is IDLE goes to the waiter of its set that began waiting first among those it is allowed to, and on to the next while it is
IDLE again (R243). -/
def State.giveWays (n key : Nat) : Nat → State → State
  | 0, s => s
  | fuel + 1, s =>
    let b := (s.slc n).banks
    if b.wayState key != .idle then s
    else
      match b.waiters.find? fun w => !s.handing n w.line && (s.allowedWays n w.line w.part).any fun k => b.ctl.key w.line k == key with
      | none => s
      | some w =>
        let s := s.onBanks n fun b => { b with waiters := b.waiters.erase w }
        let r := s.takeWay n key w.line
        let s := match w.entry with
          | some e => r.2.onEnt n e fun x => if x.req.line = w.line then { x with way := r.1 } else x
          | none => r.2
        match w.fill, r.1 with
        | some f, .filling k => State.giveWays n key fuel (s.fillWay n k f)
        | some f, .evicting k => s.onBanks n fun b => { b with fills := Tbl.set b.fills k f }
        | _, _ => s

/-- A way became IDLE (R243). -/
def State.giveWay (s : State) (n key : Nat) : State := State.giveWays n key (s.slc n).banks.waiters.length s

/-- A read's data is in: fill its way, or leave the fill for the way when it comes (R247). -/
def State.readFill (s : State) (n e : Nat) (x : Entry) (d : Line) (i : Meta) : State :=
  let f : Fill := ⟨x.req.line, d, i, none, false⟩
  match x.way with
  | .filling k => (s.fillWay n k f).giveWay n k
  | .evicting k => s.onBanks n fun b => { b with fills := Tbl.set b.fills k f }
  | .waiting =>
    s.onBanks n fun b =>
      { b with waiters := b.waiters.map fun w => if w.entry = some e ∧ w.line = x.req.line then { w with fill := some f } else w }
  | _ => s

/-- The way that an entry took and does not use is given back invalid (R81). -/
def State.dropWay (s : State) (n e : Nat) (x : Entry) : State :=
  match x.way with
  | .filling k => (s.onBanks n fun b => { b with grn := Tbl.del b.grn k }).giveWay n k
  | .waiting => s.onBanks n fun b => { b with waiters := b.waiters.filter fun w => w.entry != some e || w.line != x.req.line }
  | _ => s

/-- Invalidate the Granary entry of a line (R81, R107, R250). -/
def State.dropLine (s : State) (n line : Nat) : State :=
  match (s.slc n).banks.grnFind line with
  | some k => (s.onBanks n fun b => { b with grn := Tbl.del b.grn k }).giveWay n k
  | none => s

/-- The line has a recalled or mirrored value that waits for its way. -/
def Banks.dirtyDue (b : Banks) (line : Nat) : Bool :=
  (b.fills.any fun x => x.2.line == line && x.2.seq.isSome) || b.waiters.any fun w => w.line == line && w.entry.isNone

/-- A recalled or mirrored line is placed dirty (R174 step 4, R393): in its entry, in place of an earlier value of it that still waits for its way, or
in a way chosen for it; to media when every way is shut to it. A line that so bypasses a mirror's Granary enters the held-line record as an evicted one
does, and waits while that is full (DESIGN CHOICE: R397 names an eviction only; log 59). -/
def State.placeDirty (s : State) (n p : Nat) (f : Fill) : State :=
  if (s.slc n).banks.dirtyDue f.line then
    s.onBanks n fun b =>
      { b with fills := Tbl.mapv (fun (g : Fill) => if g.line = f.line ∧ g.seq.isSome then f else g) b.fills,
               waiters := b.waiters.map fun w => if w.line = f.line ∧ w.entry.isNone then { w with fill := some f } else w }
  else
  match (s.slc n).banks.grnFind f.line with
  | some k =>
    if (s.slc n).banks.wayState k = GState.evicting then s.onBanks n fun b => { b with waiters := b.waiters ++ [⟨none, f.line, p, some f⟩] }
    else s.fillWay n k f
  | none =>
    let r := s.chooseGrn n none f.line p
    match r.1 with
    | .filling k => (r.2.fillWay n k f).giveWay n k
    | .evicting k => r.2.onBanks n fun b => { b with fills := Tbl.set b.fills k f }
    | .waiting =>
      r.2.onBanks n fun b => { b with waiters := b.waiters.map fun w => if w.entry.isNone ∧ w.line = f.line ∧ w.fill.isNone then { w with fill := some f } else w }
    | _ =>
      if f.twin && (s.slc n).banks.heldFull then (r.2.onBanks n fun b => { b with waiters := b.waiters ++ [⟨none, f.line, p, some f⟩] }).askClean n f.line
      else r.2.dirtyPast n f

end Sys2Proof.Machine
end

