-- ==== Sys2Proof/Machine/Media.lean ====
section
/-! DEFINITION. Media codewords as they return (R520, R521), the correctable-error log (R530, R531), the lane recogniser and
lane faults (R524 to R527), the ledgers (R428 to R430), frozen tracts (R440) and abandoned moves (R461). -/

namespace Sys2Proof.Machine

/-! ### The correctable-error log -/

/-- Among log entries, the place that a new one replaces: the lowest COUNT, the oldest LAST among equals (R531). -/
def ceVictim : List CeEntry → Option CeEntry
  | [] => none
  | a :: r =>
    match ceVictim r with
    | none => some a
    | some b => if a.count < b.count ∨ (a.count = b.count ∧ a.last ≤ b.last) then some a else some b

/-- A correction enters the log of stook `k`, or of the stook that has its duties (R180, R530, R531): it matches an entry, opens one, or replaces one. -/
def State.logCe (s : State) (k kind unit symbol lane addr err : Nat) : State :=
  let t := s.time
  let k := s.duty k
  let c := s.stk k
  let same := fun (x : CeEntry) => x.kind == kind && x.unit == unit && x.addr == addr && x.symbol == symbol
  let new : CeEntry := ⟨kind, unit, symbol, lane, err, false, false, 1, addr, t, t⟩
  let s := (s.bumpStk k 2 0 32).stookWork k
  if c.ceLog.any same then
    s.onStk k fun c =>
      { c with ceLog := c.ceLog.map fun x =>
          if same x then { x with count := min 65535 (x.count + 1), mask := x.mask ||| err, last := t, hard := x.hard || x.wb } else x }
  else if c.ceLog.length < 32 then s.onStk k fun c => { c with ceLog := c.ceLog ++ [new] }
  else
    match ceVictim c.ceLog with
    | none => s
    | some v =>
      let s := s.onStk k fun c => { c with ceLog := c.ceLog.erase v ++ [new], ceLost := min 32767 (c.ceLost + 1) }
      (s.bumpStk k 2 32 15).raise (srcStk k 3) (256 + 531) 0 0 k

/-- A write-back or scrub write of a codeword marks its log entries WB (R530). -/
def State.markWb (s : State) (m addr : Nat) : State :=
  s.allStks fun q => { q with ceLog := q.ceLog.map fun e => if e.kind = 1 ∧ e.unit = m ∧ e.addr = addr then { e with wb := true } else e }

/-! ### Ledgers and the tract map -/

/-- The state of a media tract (R428): 0 FREE, 1 USED, 2 DEVICE, 3 RETIRED. -/
def State.ledger (s : State) (m mt : Nat) : Nat := (Tbl.find (s.mp m).ledger mt).getD (if mt < (s.mp m).dataTracts then 0 else 2)

/-- A media tract's state written; the list keeps only states that differ from FREE below DATA_TRACTS and DEVICE above. -/
def State.setLedger (s : State) (m mt v : Nat) : State :=
  s.onMp m fun q =>
    { q with ledger := if v = (if mt < q.dataTracts then 0 else 2) then Tbl.del q.ledger mt else Tbl.set q.ledger mt v }

/-- A present map port pair (R434). -/
def State.mapPair (s : State) : Option Nat := (List.range 32).find? fun m => m % 2 == 0 && (s.mp m).mapPort && (s.mp (m + 1)).mapPort

/-- The mark of a map page in the split record (R409): after those of the 2^32 tracts (DESIGN CHOICE: the spec gives its place nowhere; log 8). -/
def pageMark (tract : Nat) : Nat := 2 ^ 32 + tract / 512
/-- The mark of a plate reserve tract in the split record (R409; DESIGN CHOICE, log 8). -/
def resMark (r : Nat) : Nat := 2 ^ 33 + r

/-- A mark of the split record is set (R409). -/
def Twin.marked (w : Twin) (k : Nat) : Bool :=
  if k < 2 ^ 32 then w.split.contains k else if k < 2 ^ 33 then w.splitPages.contains (k - 2 ^ 32) else w.splitRes.contains (k - 2 ^ 33)

/-- A mark of the split record set (R409). -/
def Twin.mark (w : Twin) (k : Nat) : Twin :=
  if k < 2 ^ 32 then { w with split := insertNat k w.split }
  else if k < 2 ^ 33 then { w with splitPages := insertNat (k - 2 ^ 32) w.splitPages }
  else { w with splitRes := insertNat (k - 2 ^ 33) w.splitRes }

/-- During a split, a mark that slice `n` does not cache is set and written to both map ports (R409, R434); the flag says that the port interfaces
have not accepted it. The record lies past the map tracts of the device area (log 8). -/
def State.splitMark (s : State) (n k : Nat) : Bool × State :=
  if s.twin.st != .split || (s.slc n).banks.splitCache.contains k then (false, s)
  else
    match s.mapPair with
    | none => (false, s.onTwin fun t => t.mark k)
    | some m =>
      if s.mports.any fun q => q.2.ops.any fun o => o.slice == n && o.purp == .split k && !o.accepted then (true, s)
      else
        let s := s.onTwin fun t => t.mark k
        let bits := lineOf ((List.range 64).map fun b => BitVec.ofNat 8 (sumOf (fun j => 2 ^ j * b2n (s.twin.marked (k / 512 * 512 + 8 * b + j))) (List.range 8)))
        let mt := (s.mp m).dataTracts + 524288 + k / 2 ^ 19
        (true, (s.media m n (.split k) (k / 512 % 1024) mt true (encodeLine bits 0)).media (m + 1) n (.split k) (k / 512 % 1024) mt true (encodeLine bits 0))

/-- A mark of a reserve tract that slice `n` has set is not accepted yet (R409). -/
def State.splitOpen (s : State) (n : Nat) : Bool := s.mports.any fun q => q.2.ops.any fun o => o.slice == n && !o.accepted && match o.purp with
  | .split k => 2 ^ 33 ≤ k
  | _ => false

/-- Write both copies of a map entry, in the map region and, when the block mirrors, at the twin (R434, R436);
during a split its page is marked before (R409), by the slice of which the walker's packets name the number 0 (log 8). -/
def State.putMap (s : State) (tract : Nat) (e : Quad) : State :=
  let s := (s.splitMark 0 (pageMark tract)).2
  let s := s.onPlace fun q => { q with map := Tbl.set q.map tract e, map2 := Tbl.set q.map2 tract e }
  if s.mirrors && s.primary (mePart e) then s.toTwin (.mapRec tract e) else s

/-- Write STATE of a tract's entry. -/
def State.setTractState (s : State) (tract st : Nat) : State :=
  match Tbl.find s.place.map tract with
  | some e => s.putMap tract (meWith tract e st)
  | none => s

/-- The map entry of a tract. -/
def State.mapEntry (s : State) (tract : Nat) : Option Quad := Tbl.find s.place.map tract

/-- The move of a tract that has not committed. -/
def State.openMv (s : State) (tract : Nat) : Option Move := s.place.moves.find? fun v => v.tract == tract && v.phase != .commit && v.phase != .drain

/-- A move ends in this block before its commit (R461, R441): the new media tract returns to FREE, the slices close their moving records, STATE
returns, the intake ports drop the tract, and it is not moved again for 100 ms. -/
def State.dropMove (s : State) (v : Move) : State :=
  let tract := v.tract
  let s := s.setLedger v.new.1 v.new.2 (if v.newBad || s.ledger v.new.1 v.new.2 == 3 then 3 else 0)
  let s := s.allBanks fun b => { b with moves := b.moves.filter fun r => r.tract != tract }
  let s := s.allIps fun q => { q with moving := Tbl.del q.moving tract }
  let s := s.onPlace fun q => { q with moves := q.moves.filter fun w => w.tract != tract, aband := Tbl.set q.aband tract s.now }
  let s := match s.mapEntry tract with
    | some e => if meState e = 2 ∨ meState e = 4 then s.setTractState tract (if v.why = MvWhy.retire then 6 else restState (mePlates e)) else s
    | none => s
  s.bumpPlc 5 0 32

/-- A move is abandoned (R461, R441), in both blocks of a pair (R458; log 59). -/
def State.abandonMove (s : State) (tract : Nat) : State :=
  match s.openMv tract with
  | none => s
  | some v => if s.twin.st = .paired then (s.dropMove v).toTwin (.moveAbandon tract) else s.dropMove v

/-- Freeze a tract in doubt (R81, R82, R440): FROZEN in the copies of the entry, or a place in the frozen list when the
entry cannot be read; its move is abandoned (R441) and its tract-buffer entries leave the slices. -/
def State.freeze (s : State) (tract line : Nat) (readable : Bool) : State :=
  if s.place.frozen.any fun f => f.tract == tract then s
  else
    let s := s.abandonMove tract
    let s := s.allBanks fun b => { b with tbuf := b.tbuf.filter fun v => v.1 != tract }
    let s := s.bumpPlc 1 48 8
    if readable then (s.setTractState tract 5).onPlace fun q => { q with frozen := q.frozen ++ [⟨tract, line, s.now, false, false⟩] }
    else if (s.place.frozen.filter fun f => f.listed).length < 64 then
      s.onPlace fun q => { q with frozen := q.frozen ++ [⟨tract, line, s.now, true, false⟩],
                                  listFull := 63 ≤ (q.frozen.filter fun f => f.listed).length }
    else (s.onPlace fun q => { q with listFull := true }).raise (srcFw 3) (256 + 440) line 0 0

/-- A tract leaves the frozen list; its place frees (R440). -/
def State.unlist (s : State) (tract : Nat) : State :=
  s.onPlace fun q => { q with frozen := q.frozen.filter fun f => f.tract != tract,
                              listFull := q.listFull && !(q.frozen.any fun f => f.tract == tract && f.listed) }

/-! ### Retired media (R471, R472, R525) -/

/-- A move of tract whose media are retired (R461, R472): one in START or COPY is abandoned, and the tract is RETIRED; one that has copied its lines goes
on, and its old media tract becomes RETIRED at DONE. After the commit the tract stands on its new media: then it is that which is bad. -/
def State.retireMove (s : State) (v : Move) : State :=
  if v.phase = .drain then s.onPlace fun q => { q with moves := q.moves.map fun w => if w.tract = v.tract then { w with newBad := true } else w }
  else
    let s := s.onPlace fun q => { q with moves := q.moves.map fun w => if w.tract = v.tract then { w with why := .retire } else w }
    if v.phase = .start ∨ v.phase = .copy then s.abandonMove v.tract else s

/-- The tract's placement is on retired media (R471, R525): it becomes RETIRED in the map; a FROZEN one stays FROZEN, and firmware retires it (R442;
DEDUCED, log 59). -/
def State.retireTract (s : State) (tract : Nat) : State :=
  match s.mapEntry tract, s.place.moves.find? fun v => v.tract == tract with
  | some _, some v => s.retireMove v
  | some e, none => if meState e = 1 ∨ meState e = 3 then s.setTractState tract 6 else s
  | none, _ => s

/-- Every USED media tract of a port is RETIRED in the ledger, and every tract placed there RETIRED in the map; the port takes no further allocation
(R525). -/
def State.retirePort (s : State) (m : Nat) : State :=
  let s := s.onMp m fun q => { q with retiring := true, ledger := q.ledger.map fun x => if x.2 = 1 then (x.1, 3) else x }
  State.each (fun t s => s.retireTract t) ((s.place.map.filter fun x => mePort x.2 == m && meState x.2 != 0).map Prod.fst) s

/-! ### Lane faults (R523 to R527) -/

/-- The lane of a symbol (R523). -/
def laneOf (sym : Nat) : Nat := 9 * (sym % 8) + sym / 8

/-- R525: a declared lane fault acts on its port by the first row that holds; a lane already steered or erased changes
nothing. -/
def State.laneFault (s : State) (m sym : Nat) : State :=
  let q := s.mp m
  let lane := laneOf sym
  if (q.spareUsed && q.steered == lane) || (q.erase && q.eraseSym == sym) then s
  else
    let s := s.raise (srcMp m 2) (256 + 525) lane 0 m
    if !q.spareUsed && !q.erase then s.onMp m fun q => { q with erase := true, eraseSym := sym, steerDone := false, passOk := false }
    else if !q.erasePerm then (s.onMp m fun q => { q with erase := true, eraseSym := sym, erasePerm := true }).retirePort m
    else s

/-- Values of NCH_BLK_SCRUB_CTL that the recogniser uses (R543). -/
structure LaneCtl where
  tracts : Nat
  window : Nat
  deriving DecidableEq, Repr, Inhabited

/-- One corrected bit enters the lane recogniser of stook `k` (R524). -/
def State.feedBit (s : State) (k m sym bit mt : Nat) (c : LaneCtl) : State :=
  let t := s.now
  let k := s.duty k
  let live := (s.stk k).lanes.filter fun e => t < e.first + c.window * 1000000
  let same := fun (e : LaneEnt) => e.port == m && e.sym == sym && e.bit == bit
  let put := fun (l : List LaneEnt) (s : State) => (s.stookWork k).onStk k fun q => { q with lanes := l }
  match live.find? same with
  | some e =>
    let ts := if e.tracts.contains mt then e.tracts else e.tracts ++ [mt]
    if c.tracts ≤ ts.length then (put (live.filter fun e => !same e) s).laneFault m sym
    else put (live.map fun e => if same e then { e with tracts := ts } else e) s
  | none =>
    let oldest := minOf (fun (e : LaneEnt) => e.first) 0 live
    let live := if live.length < 16 then live else live.erase ((live.find? fun e => e.first == oldest).getD ⟨0, 0, 0, [], 0⟩)
    (put (live ++ [⟨m, sym, bit, [mt], t⟩]) s).bumpStk k 2 47 17

/-- A correction of a symbol of a codeword of port `m` (R524, R527, R530): counted; the erased symbol only in the erasure
counter; any other logged and fed to the recogniser once for each bit of its error value. -/
def State.corrected (s : State) (n m addr sym err : Nat) (c : LaneCtl) : State :=
  if (s.mp m).erase && (s.mp m).eraseSym == sym then s.bumpMp m 0 32 32
  else
    let k := stookOf n
    let s := ((s.bumpMp m 0 0 32).bump (0x0A0A98 + 8 * (sym / 4)) (16 * (sym % 4)) 16 1).logCe k 1 m sym (laneOf sym) addr err
    State.each (fun b s => if bitN err b then s.feedBit k m sym b (addr / 1024) c else s) (List.range 8) s

/-! ### A codeword returns -/

/-- What a read gives a slice: the codeword with its corrections and whether it was served from an accepted write; a second
read asked for (R521 step 1); or nothing that can be used. -/
inductive Got
  | ok (cw : Codeword) (fixed : Bool) (accepted : Bool)
  | again
  | lost
  deriving DecidableEq, Repr, Inhabited

/-- The command of an id at a port. -/
def State.op? (s : State) (m id : Nat) : Option MOp := (s.mp m).ops.find? fun o => o.id == id

/-- Decode the codeword of a read by the steps of R520 and R521, and record its corrections. -/
def State.decode (s : State) (m : Nat) (o : MOp) (cw : Codeword) (c : LaneCtl) : Got × State :=
  let q := s.mp m
  let acc := if o.accepted then some o.cw else q.newest o.addr
  let cw := acc.getD cw
  let n := o.slice
  let note := fun (s : State) (l : List (Nat × Nat)) => State.each (fun x s => s.corrected n m o.addr x.1 x.2 c) l s
  match decodeMode (if q.erase then some q.eraseSym else none) cw with
  | some d => (.ok d.1 (!d.2.isEmpty) acc.isSome, note s d.2)
  | none =>
    if !o.reread && acc.isNone then
      (.again, (s.bumpMp m 1 32 32).onMp m fun q =>
        { q with ops := q.ops.map fun x => if x.id = o.id then { x with reread := true, since := s.now } else x })
    else
      let syms := ((s.stk (s.duty (stookOf n))).lanes.filter fun e => e.port == m).map fun e => e.sym
      match decodeRetry cw syms with
      | some d => (.ok d.1 true acc.isSome, note (s.bumpMp m 1 32 32) d.2)
      | none => (.lost, s.bumpMp m 1 0 32)

/-- The command leaves its port. -/
def State.dropOp (s : State) (m id : Nat) : State := s.onMp m fun q => { q with ops := q.ops.filter fun o => o.id != id }

end Sys2Proof.Machine
end

