-- ==== Sys2Proof/Machine/Winnow.lean ====
section
/-! DEFINITION. Winnow (spec chapter 14): the defaults of the sources (R554), scopes and shadows (R551 to R553), the Almanac
(R565 to R568), the first fault (R560) and the classification of an event (R555 to R558). What a reaction does to the
block is in React.lean. -/

namespace Sys2Proof.Machine

/-! ### Sources (R547) -/

/-- The unit of a source (R547). -/
def unitOf (src : Nat) : RScope :=
  if src < 0x400 then .slice (src / 8)
  else if src < 0x480 then .stook ((src - 0x400) / 8)
  else if src < 0x500 then .mport ((src - 0x480) / 4)
  else if src < 0x540 then .intake ((src - 0x500) / 4)
  else if src < 0x5A0 then .router ((src - 0x540) / 2)
  else if src < 0x5C0 then .twinPort
  else if src < 0x5D0 then .meridian
  else if src = 0x5DC then .winnow
  else if src < 0x5F0 then .power
  else .alidade

/-! ### Scopes (R551, R553) -/

/-- The subarray that an array event names: the kind bits of its detail hold the subarray and the array (0 filter, 1 Granary
data, 2 Granary tag, 3 other). -/
def Ev.subarray (v : Ev) : RScope :=
  let a := v.extra / 16
  .subarray (if a = 0 then 2 else if a < 3 then 3 else 5) (if v.src < 0x400 then v.src / 8 else 0x70 + (v.src - 0x400) / 8) (v.extra % 16)

/-- The plane or VC buffer that a Rachis event names: plane in bits [1:0] of the kind bits, VC plus one above them. -/
def Ev.planeScope (v : Ev) : RScope :=
  let x := (v.src - 0x540) / 2
  if v.extra / 4 = 0 then .plane x (v.extra % 4) else .buf x (v.extra % 4) (v.extra / 4 - 1)

/-- The reaction that a source and kind call for at a class (R551, R554). -/
def Ev.reaction (v : Ev) (c : Nat) : Option (RKind × RScope) :=
  if c < 2 then none
  else if 4 ≤ c then some (.failsafe, .block)
  else if v.src < 0x400 then
    match v.src % 8 with
    | 0 | 3 | 4 => some (.sliceFence, .slice (v.src / 8))
    | 1 => some (.partStop, .part v.part)
    | 7 => if v.extra / 16 = 3 then some (.sliceFence, .slice (v.src / 8)) else some (.subarrayOut, v.subarray)
    | _ => none
  else if v.src < 0x480 then
    if v.src % 8 = 3 ∨ v.src % 8 = 7 then none else some (.stookFence, .stook ((v.src - 0x400) / 8))
  else if v.src < 0x500 then
    let m := (v.src - 0x480) / 4
    if v.src % 4 = 2 then some (.laneRepair, .lane m v.line) else some (.portRetire, .mport m)
  else if v.src < 0x540 then none
  else if v.src < 0x5A0 then some (.planeOut, v.planeScope)
  else
    match v.src with
    | 0x5A0 | 0x5A3 | 0x5A6 => some (.split, .twinPort)
    | 0x5A1 | 0x5A8 => some (.takeover, .takeover)
    | 0x5AA => some (.staleAbdication, .stale)
    | 0x5C3 => some (.timeDegraded, .meridian)
    | 0x5F4 => some (.alidadeRestart, .alidade)
    | _ => none

/-- The event would fence a slice or a stook: within a fence in force it is a secondary of that fence (R181, R563). -/
def Ev.toFence (v : Ev) (c : Nat) : Bool :=
  match v.reaction c with
  | some r => r.1 == .sliceFence || r.1 == .stookFence
  | none => false

/-- The scope of an event at a class (R553). -/
def Ev.scope (v : Ev) (c : Nat) : RScope :=
  match v.reaction c with
  | some r => r.2
  | none =>
    if v.src < 0x480 then
      if v.src % 8 = 0 ∨ (v.src < 0x400 ∧ v.src % 8 = 7) then v.subarray else unitOf v.src
    else if v.src < 0x500 then (if v.src % 4 = 2 then .lane ((v.src - 0x480) / 4) v.line else unitOf v.src)
    else if 0x540 ≤ v.src ∧ v.src < 0x5A0 then v.planeScope
    else unitOf v.src

/-- R553: `a` lies within `b`. -/
def RScope.within (a b : RScope) : Bool :=
  a == b || b == .block ||
    match a, b with
    | .slice n, .stook k => n / 8 == k
    | .subarray _ u _, .slice n => u == n
    | .subarray _ u _, .stook k => u == 0x70 + k || (u < 0x70 && u / 8 == k)
    | .lane m _, .mport m' => m == m'
    | .plane x _, .router y => x == y
    | .buf x _ _, .router y => x == y
    | _, _ => false

/-- The carrying units that the table of R551 names singly, for reactions of unit scope (R555). -/
def Reaction.carriers (r : Reaction) : List RScope :=
  match r.kind, r.scope with
  | .sliceFence, .slice n => [.stook ((n / 8) ^^^ 1)]
  | .stookFence, .stook k => [.stook (k ^^^ 1)]
  | .subarrayOut, .subarray _ u _ => [if u < 0x70 then .slice u else .stook (u - 0x70)]
  | .laneRepair, .lane m _ => [.mport m]
  | .planeOut, .plane x _ => [.router x]
  | .planeOut, .buf x _ _ => [.router x]
  | .alidadeRestart, _ => [.power]
  | _, _ => []

/-! ### Shadows (R551, R552) -/

/-- The shadow's duration in ns; none for a shadow that lasts as long as the reaction is in progress. -/
def RKind.shadowNs : RKind → Nat
  | .sliceFence => 200000
  | .stookFence => 500000
  | .subarrayOut => 100000000
  | .laneRepair => 10000000
  | .planeOut => 1000000
  | .split => 1000000
  | .timeDegraded => 1000000
  | .alidadeRestart => 2000000000
  | .takeover => 2000000
  | _ => 0

/-- No shadow includes this source (R552). -/
def shadowless (src : Nat) : Bool :=
  (0x5D0 ≤ src && src ≤ 0x5EF) || src == 0x5C7 || src == 0x5A7 || (srcDefault src).base == 4

/-- j = 0 or j = 2 of an intake port. -/
def intakeEven (src : Nat) : Bool := 0x500 ≤ src && src < 0x540 && src % 2 == 0

/-- The shadow of a reaction includes the event (R551). -/
def Reaction.shadows (r : Reaction) (v : Ev) : Bool :=
  let src := v.src
  !shadowless src &&
    match r.kind, r.scope with
    | .sliceFence, .slice n =>
      let x := 0x540 + 2 * stookSite (n / 8)
      src == x || src == x + 1 || intakeEven src || src == 0x5A3
    | .stookFence, .stook k =>
      ((stookSite k :: nearSites (stookSite k)).any fun x => src == 0x540 + 2 * x || src == 0x541 + 2 * x) || intakeEven src || src == 0x5A3
    | .subarrayOut, sc =>
      (src % 8 == 0 && src < 0x480) && v.subarray == sc
    | .laneRepair, .lane m _ => src < 0x400 && (src % 8 == 2 || src % 8 == 3) && v.unit == m
    | .portRetire, .mport m => src == 0x480 + 4 * m || src == 0x481 + 4 * m
    | .planeOut, .plane x _ => (x :: nearSites x).any fun y => src == 0x540 + 2 * y
    | .planeOut, .buf x _ _ => (x :: nearSites x).any fun y => src == 0x540 + 2 * y
    | .split, _ => src == 0x5A3 || src == 0x5A5 || src == 0x5C4
    | .timeDegraded, _ => src == 0x5C1 || src == 0x5C4 || src == 0x5C6
    | .alidadeRestart, _ => src == 0x5F5 || src == 0x5F7
    | .partStop, .part p =>
      ((src < 0x400 && (src % 8 == 1 || src % 8 == 2 || src % 8 == 3)) || (0x500 ≤ src && src < 0x540 && src % 4 == 0)) && v.part == p
    | .takeover, _ => (0x5A0 ≤ src && src < 0x5C0) || src == 0x5C1
    | _, _ => false

/-- The reaction is active: until the later of its progress's end and its shadow's end (R555); the shadow of a partition's stop
lasts until its restart (R551). -/
def State.reactOn (s : State) (r : Reaction) : Bool :=
  !r.done || s.now < r.start + r.kind.shadowNs ||
    match r.scope with
    | .part p => (s.part p).st == .stopped
    | _ => false

/-- Every replayed request of a fenced slice has been answered (R551). -/
def State.replayed (s : State) (n : Nat) : Bool := (s.slc (buddy n)).cover.isNone

/-- Nothing of a subarray out of service is left to be written, spilled or poisoned (R551). -/
def State.emptied (s : State) (kind u sub : Nat) : Bool :=
  let b := (s.slc u).banks
  if kind = 2 then !(b.flt.any fun x => fltValid x.2 && (x.1 % 16) / 2 == sub) && b.spills.isEmpty
  else !(b.grn.any fun x => x.2.valid && x.2.dirty && x.1 / 512 == sub)

/-- The condition that ends a reaction's progress holds (R551). -/
def State.progressed (s : State) (r : Reaction) : Bool :=
  match r.kind, r.scope with
  | .sliceFence, .slice n => s.replayed n
  | .stookFence, .stook k => (List.range 8).all fun i => s.replayed (8 * k + i)
  | .subarrayOut, .subarray kind u sub => s.emptied kind u sub
  | .laneRepair, .lane m l => ((s.mp m).spareUsed && (s.mp m).steered == l) || (s.mp m).retiring
  | .portRetire, .mport m => s.place.map.all fun x => meState x.2 == 0 || mePort x.2 != m
  | .timeDegraded, _ => !s.mer.domOk
  | .partStop, .part p =>
    !(s.intakes.any fun x => x.2.kept.any fun k => k.req.part == p && (k.st == .held || k.st == .fenced))
      && !(s.slices.any fun c => c.2.cover.any fun v => v.replay.any fun q => q.part == p)
  | .takeover, _ => s.twin.tk.isNone
  | .staleAbdication, _ => s.intakes.all fun x => x.2.kept.all fun k => !bitN s.twin.abdParts.toNat k.req.part || k.st == .sent
  | .failsafe, _ => false
  | _, _ => true

/-- The fence is in force, though its progress has ended (R563). -/
def Reaction.fence (r : Reaction) : Bool := r.kind == .sliceFence || r.kind == .stookFence

/-- Fences in force (R181, R578). -/
def State.fences (s : State) : Nat := (s.win.reacts.filter Reaction.fence).length

/-- The slice covers its buddy, fenced or handed over (R182, R188). -/
def State.coversBuddy (s : State) (n : Nat) : Bool :=
  match (s.slc (buddy n)).phase with
  | .fenced | .covered | .returning => true
  | _ => false

/-- The slice is fenced. -/
def State.fencedSlice (s : State) (n : Nat) : Bool := (s.slc n).phase == .fenced

/-- R181, R182, R221: a fence of this scope would be the fifth, or of a covering slice or stook, or its generations allow no
advance. A unit already fenced is not meant (R563). -/
def State.fenceGrave (s : State) (k : RKind) (sc : RScope) : Bool :=
  match k, sc with
  | .sliceFence, .slice n =>
    !s.fencedSlice n && (4 ≤ s.fences || s.coversBuddy n || s.advLeft n == 0)
  | .stookFence, .stook j =>
    !(s.stk j).fenced && (4 ≤ s.fences || (s.stk (j ^^^ 1)).fenced || (List.range 8).any fun i => s.coversBuddy (8 * j + i) || (!s.fencedSlice (8 * j + i) && s.advLeft (8 * j + i) == 0))
  | _, _ => false

/-! ### The Almanac (R565 to R568) -/

/-- An event's detail (R547). -/
def Ev.detail (v : Ev) : Nat := v.line % 2 ^ 42 + 2 ^ 42 * (v.part % 64) + 2 ^ 48 * (v.unit % 1024) + 2 ^ 58 * (v.extra % 64)

/-- `a` is later than `b` among 32-bit numbers (R177). -/
def later32 (a b : Nat) : Bool := let d := (a + 2 ^ 32 - b) % 2 ^ 32; 0 < d && d < 2 ^ 31

/-- The record of the highest class, the earliest among equals (R566). -/
def topRec : List AlmRec → Option AlmRec
  | [] => none
  | a :: r =>
    match topRec r with
    | none => some a
    | some b => if b.cls ≤ a.cls then some a else some b

/-- The record numbers that R566 protects. -/
def Win.protectedRecs (w : Win) : List Nat :=
  (w.first.map fun f => f.recno).toList ++ w.firstOf.map Prod.snd ++ w.lastOf.map Prod.snd ++ ((topRec w.recs).map fun r => r.recno).toList

/-- R566, R567: a full Almanac gives up its oldest unprotected record, which counts as lost when firmware has not read it. -/
def State.almRoom (s : State) : State :=
  if s.win.recs.length < 256 then s
  else
    let keep := s.win.protectedRecs
    match s.win.recs.find? fun r => !keep.contains r.recno with
    | none => s
    | some v =>
      let s := (State.onWin s fun w => { w with recs := w.recs.filter fun r => r.recno != v.recno })
      if later32 v.recno s.win.ack then s.bumpWin v.cls 0 32 else s

/-- The counter of a source (R687). -/
def State.bumpSrc (s : State) (src lsb w : Nat) : State := s.bump (0x090000 + 0x4000 * (src / 512) + 8 * (src % 512)) lsb w 1

/-- A record becomes the most recent of its class, and perhaps its first (R566). -/
def State.almMark (s : State) (recno cls : Nat) : State :=
  State.onWin s fun w =>
    { w with firstOf := if (Tbl.find w.firstOf cls).isSome then w.firstOf else Tbl.set w.firstOf cls recno,
             lastOf := Tbl.set w.lastOf cls recno }

/-- What the record of an event says besides the event. -/
structure RecFlags where
  cls : Nat
  secondary : Bool
  consequential : Bool
  promoted : Bool
  reaction : Bool
  parent : Option Nat
  deriving DecidableEq, Repr, Inhabited

/-- R568: the event needs a record of its own: it latches the first fault, starts or escalates a reaction, is the first of
its class, or of a class above every record held. -/
def State.ownRecord (s : State) (f : RecFlags) (escalates : Bool) : Bool :=
  (2 ≤ f.cls && s.win.first.isNone) || f.reaction || escalates || (Tbl.find s.win.firstOf f.cls).isNone
    || s.win.recs.all fun r => r.cls < f.cls

/-- Record an event (R560, R565 to R568): in a record of its own, in the SUMMARY record that it opens, or in the one that is
open. The first event of class DEGRADED or higher latches the first fault. Answers the record number. -/
def State.almanac (s : State) (v : Ev) (f : RecFlags) (escalates : Bool) : Nat × State :=
  let ms := s.now / 1000000
  let m := Tbl.get (ms, 0, none) s.win.perMs v.src
  let m := if m.1 = ms then m else (ms, 0, none)
  let own := s.ownRecord f escalates
  match (if own || m.2.1 < 16 then none else m.2.2) with
  | some q =>
    let s := (State.onWin s fun w => { w with recs := w.recs.map fun r =>
      if r.recno = q then { r with count := min 65535 (r.count + 1), time := v.time, cls := max r.cls f.cls, detail := v.detail } else r })
    let c := ((s.win.recs.find? fun r => r.recno == q).map fun r => r.cls).getD f.cls
    (q, (s.almMark q c).bumpWin 6 0 32)
  | none =>
    let sum := !own && 16 ≤ m.2.1
    let q := s.win.nextRec
    let first := 2 ≤ f.cls && s.win.first.isNone
    let lost := (List.range 5).any fun c => Tbl.get 0 s.evLost (v.src * 8 + c) != 0
    let r : AlmRec :=
      { recno := q, src := v.src, cls := f.cls, base := (s.srcCfg v.src).base, kind := v.kind, first := first, secondary := f.secondary,
        consequential := f.consequential, promoted := f.promoted, summary := sum, reaction := f.reaction, lostBefore := lost,
        escalated := false, count := 1, parent := f.parent, time := v.time, detail := v.detail }
    let s := s.almRoom
    let s := (State.onWin s fun w => { w with
      recs := w.recs ++ [r], nextRec := (q + 1) % 2 ^ 32,
      first := if first then some ⟨q, v.src, f.cls, v.kind⟩ else w.first,
      perMs := Tbl.set w.perMs v.src (ms, m.2.1 + 1, if sum then some q else m.2.2) })
    let s := s.almMark q f.cls
    (q, if sum then (s.bumpSrc v.src 56 4).bumpWin 6 0 32 else s)

/-- The KIND byte of an event's kind (R555): a kind of the spec's own is its number, another is the home's (log 9). -/
def kindOf (k : Nat) : Byte := if k < 256 then BitVec.ofNat 8 k else Config.kindByte k

/-- The bytes of an Almanac record (R565). -/
def AlmRec.bytes (r : AlmRec) : List Byte :=
  leBytes 4 r.recno ++ leBytes 2 r.src ++ leBytes 1 (r.cls + 8 * r.base)
    ++ [kindOf r.kind]
    ++ leBytes 1 (b2n r.first + 2 * b2n r.secondary + 4 * b2n r.consequential + 8 * b2n r.promoted + 16 * b2n r.summary
        + 32 * b2n r.reaction + 64 * b2n r.lostBefore + 128 * b2n r.escalated)
    ++ leBytes 1 0 ++ leBytes 2 r.count ++ leBytes 4 (r.parent.getD 0xFFFFFFFF) ++ leBytes 8 r.time ++ leBytes 8 r.detail

/-! ### Classification (R555 to R558) -/

/-- A record placed in block event log `k` of 256 records and the management mailbox's interrupt (R638). -/
def State.blkRecord (s : State) (k : Nat) (r : EvRec) : State :=
  let put := fun (l : EvLog) =>
    if l.recs.length < 256 then { l with recs := l.recs ++ [(l.next, s.time, r)], next := l.next % 65535 + 1 }
    else { l with overflow := true, lost := l.lost + 1, firstLost := if l.lost = 0 then s.time else l.firstLost, lastLost := s.time }
  let b := s.blkLogs
  let b := match k with
    | 0 => { b with info := put b.info }
    | 1 => { b with warn := put b.warn }
    | 2 => { b with fail := put b.fail }
    | _ => { b with fatal := put b.fatal }
  let s := { s with blkLogs := b }
  if s.blkLogs.intOn k then s.send (.evInt 64 k) else s

/-- R34: SERVICE_REQ rises at the first event classified DEGRADED. -/
def State.serviceReq (s : State) (cls : Nat) : State :=
  if cls = 2 then (State.onWin s fun w => { w with service := true }) else s

/-- R570: a unit or part leaves service. -/
def State.takeOut (s : State) (sc : RScope) : State :=
  (State.onWin s fun w => { w with outs := if w.outs.contains sc then w.outs else w.outs ++ [sc] })

/-- R34, R570: a unit counts as out of service no longer; with none left SERVICE_REQ falls. -/
def State.putBack (s : State) (sc : RScope) : State :=
  let o := s.win.outs.filter (· != sc)
  (State.onWin s fun w => { w with outs := o, service := w.service && (w.outs == o || !o.isEmpty) })

/-- The progress of a reaction has ended (R551). -/
def State.endReact (s : State) (k : RKind) (sc : RScope) : State :=
  (State.onWin s fun w => { w with reacts := w.reacts.map fun r => if r.kind = k ∧ r.scope = sc then { r with done := true } else r })

/-- Reactions whose progress has ended are marked so, and those that are over leave the list; a fence stays in force (R563). -/
def State.pruneReacts (s : State) : State :=
  let rs := s.win.reacts.map fun (r : Reaction) => if s.progressed r then { r with done := true } else r
  State.onWin s fun w => { w with reacts := rs.filter fun r => r.fence || s.reactOn r }

/-- The bits of a source's counter for a class (R687): lowest bit and width. -/
def clsBits : Nat → Nat × Nat
  | 0 => (0, 14)
  | 1 => (14, 14)
  | 2 => (28, 6)
  | 3 => (34, 4)
  | _ => (38, 1)

/-- Open the record of a reaction and place it in the block event logs (R551, R638). -/
def State.openReact (s : State) (v : Ev) (k : RKind) (sc : RScope) (cls : Nat) (promoted : Bool) : State :=
  let x := s.almanac v ⟨cls, false, false, promoted, true, none⟩ false
  let s := (State.onWin x.2 fun w => { w with reacts := w.reacts ++ [⟨k, sc, cls, x.1, s.now, false⟩] })
  s.blkRecord (cls - 1) (.almanac x.1)

/-- What the classification of an event decides beyond its record: the reaction to carry out, with its record number. -/
abbrev Start := Option (RKind × RScope × Nat)

/-- A record escalates to GRAVE (R558). -/
def State.escalate (s : State) (recno : Nat) : State :=
  (State.onWin s fun w => { w with
      recs := w.recs.map fun (r : AlmRec) => if r.recno = recno then { r with cls := 4, escalated := true } else r,
      reacts := w.reacts.map fun (r : Reaction) => if r.recno = recno then { r with cls := 4 } else r })

/-- R555, R557: the source's count after one more event, and whether it reaches N. -/
def State.countEv (s : State) (src n wms : Nat) : Bool × State :=
  let w := s.now / (wms * 1000000)
  let c := Tbl.get (w, 0) s.win.count src
  let k := (if c.1 = w then c.2 else 0) + 1
  (k == n, State.onWin s fun x => { x with count := Tbl.set x.count src (w, if k = n then 0 else k) })

/-- classify of R555. In the fail-safe state an event starts no reaction (R574). -/
def State.classify (s : State) (v : Ev) : Start × State :=
  let s := s.pruneReacts
  let cfg := s.srcCfg v.src
  let c0 := v.cls.getD cfg.base
  let grave := match v.reaction c0 with
    | some r => s.fenceGrave r.1 r.2
    | none => false
  let c := if grave then 4 else c0
  let fixed := grave || v.cls.isSome
  let sc := v.scope c0
  let mine := fun (r : Reaction) =>
    ((r.fence && (sc == r.scope || v.toFence c0)) || !r.done) && (sc.within r.scope || (r.kind != .failsafe && r.carriers.contains (unitOf v.src)))
  let s := (s.bumpSrc v.src (clsBits c).1 (clsBits c).2).serviceReq c
  match s.win.reacts.find? mine with
  | some r =>
    let s := s.bumpSrc v.src 46 10
    let up := c = 4 && r.cls != 4
    let x := s.almanac v ⟨c, true, false, false, false, some r.recno⟩ up
    if up && !s.win.failsafe then (some (.failsafe, .block, r.recno), x.2.escalate r.recno) else (none, x.2)
  | none =>
    match s.win.reacts.find? fun r => s.reactOn r && r.shadows v with
    | some r =>
      let s := s.bumpSrc v.src 46 10
      let x := s.almanac v (⟨c, false, true, false, false, some r.recno⟩ : RecFlags) false
      (none, if v.kind = 256 + 37 then (State.onWin x.2 fun w => { w with shadowed := w.shadowed ++ [(x.1, v)] }) else x.2)
    | none =>
      let k := if !fixed && 0 < cfg.n then s.countEv v.src cfg.n cfg.wms else (false, s)
      let s := k.2
      let c' := if k.1 then min (c + 1) cfg.ceiling else c
      let c' := match v.reaction c' with
        | some r => if s.fenceGrave r.1 r.2 then 4 else c'
        | none => c'
      let s := if k.1 then (s.bumpSrc v.src 39 7).serviceReq c' else s
      match v.reaction c' with
      | some r =>
        if s.win.failsafe then (none, (State.almanac s v ⟨c', false, false, k.1, false, none⟩ false).2)
        else (some (r.1, r.2, s.win.nextRec), s.openReact v r.1 r.2 c' k.1)
      | none => (none, (State.almanac s v ⟨c', false, false, k.1, false, none⟩ false).2)

/-- The event is one that Winnow has taken (R548). -/
def State.evTaken (s : State) (v : Ev) : Bool :=
  match Tbl.find s.win.taken v.src with
  | some q => (q + 65536 - v.seq) % 65536 < 32768
  | none => false

/-- Winnow adds the counts that a source could not send to the lost counts (R548, R567). -/
def State.takeLost (s : State) (src : Nat) : State :=
  State.each (fun c s =>
    let k := Tbl.get 0 s.evLost (src * 8 + c)
    if k = 0 then s else { s.bump (0x0A0940 + 8 * c) 0 32 k with evLost := Tbl.del s.evLost (src * 8 + c) }) (List.range 8) s

end Sys2Proof.Machine
end

