-- ==== Sys2Proof/Machine/Otp.lean ====
section
/-! DEFINITION. OTP (R612 to R617, R621): groups and slots, the newest valid generation, frozen groups, the vote of step 2, the
repair records of R536 and the writing of a slot (R616). -/

namespace Sys2Proof.Machine

/-- First bit and slot size of group 0 REPAIR to 5 FACTORY_LOCK, in the order of R612 after the header of 128 bits. -/
def otpGroup : Nat → Nat × Nat
  | 0 => (128, 1184)
  | 1 => (4864, 288)
  | 2 => (6016, 160)
  | 3 => (6656, 2240)
  | 4 => (15616, 160)
  | _ => (16256, 32)

/-- The bits of a slot. -/
def otpSlot (o : BitVec 16384) (g i : Nat) : Nat :=
  let b := otpGroup g
  (o.toNat >>> (b.1 + i * b.2)) % 2 ^ b.2

/-- The bits of a slot's payload: all but the trailer's 32. -/
def otpBits (g : Nat) : Nat := (otpGroup g).2 - 32

/-- A slot's payload. -/
def otpPayload (o : BitVec 16384) (g i : Nat) : Nat := otpSlot o g i % 2 ^ otpBits g

/-- The trailer of a payload (R613): CRC-16 of its bytes, the mark 0xA5, zero. -/
def otpTrailer (g p : Nat) : Nat := crc16 (leBytes (otpBits g / 8) p) + 0xA50000

/-- The slot is free (R613). -/
def otpFree (o : BitVec 16384) (g i : Nat) : Bool := otpSlot o g i == 0

/-- The slot is valid (R613). -/
def otpValid (o : BitVec 16384) (g i : Nat) : Bool :=
  !otpFree o g i && otpSlot o g i / 2 ^ otpBits g == otpTrailer g (otpPayload o g i)

/-- The slot of the newest valid generation (R613). -/
def otpNewest (o : BitVec 16384) (g : Nat) : Option Nat := [3, 2, 1, 0].find? fun i => otpValid o g i

/-- The next free slot (R616). -/
def otpNext (o : BitVec 16384) (g : Nat) : Option Nat := [0, 1, 2, 3].find? fun i => otpFree o g i

/-- The group has no free slot (R613). -/
def otpFrozen (o : BitVec 16384) (g : Nat) : Bool := (otpNext o g).isNone

/-- The payload of the newest valid generation in effect since step 2 (R613, R616). -/
def State.otpUse (s : State) (g : Nat) : Option Nat := (otpNewest s.pwr.otpUsed g).map fun i => otpPayload s.pwr.otpUsed g i

/-- The newest written slot of the group is not valid (R609, R613); TWIN_PAIRING may have every slot free. -/
def otpBroken (o : BitVec 16384) (g : Nat) : Bool :=
  match [3, 2, 1, 0].find? fun i => !otpFree o g i with
  | some i => !otpValid o g i
  | none => g == 1

/-- The bitwise majority of three reads (R615). -/
def otpVote (a b c : BitVec 16384) : BitVec 16384 := (a &&& b) ||| (a &&& c) ||| (b &&& c)

/-- The bits on which three reads disagree. -/
def otpDiff (a b c : BitVec 16384) : BitVec 16384 := (a ^^^ b) ||| (a ^^^ c)

/-- The set bits of a field of `w` bits at `lo`, counted. -/
def countBits (x lo : Nat) : Nat → Nat
  | 0 => 0
  | w + 1 => b2n (bitN x (lo + w)) + countBits x lo w

/-- First bit and length of the groups with the header in front (R612). -/
def otpAreas : List (Nat × Nat) :=
  [(0, 128), (128, 4736), (4864, 1152), (6016, 640), (6656, 8960), (15616, 640), (16256, 128)]

/-- R615: one OTP_VOTE event for each group with a bit in disagreement; the bits are counted. -/
def State.otpVotes (s : State) (d : BitVec 16384) : State :=
  State.each (fun a s =>
    let k := countBits d.toNat a.1 a.2
    if k = 0 then s else (s.bump (0x0A0A00 + 16) 48 16 k).raiseC 0x5D7 (256 + 615) (some 1) a.1 0 k 0) otpAreas s

/-- The repair records of a REPAIR payload (R536). -/
def repairRecs (p : Nat) : List Nat := ((List.range 48).map fun k => fieldN p (24 * k) 24).filter (· != 0)

/-- The repair records in effect (R536). -/
def State.repairsUsed (s : State) : List Nat :=
  match s.otpUse 0 with
  | some p => repairRecs p
  | none => []

/-- The subarray that a repair record names: kind, unit and subarray. -/
def repairSub (r : Nat) : Nat := r % 2 ^ 14

/-- R537: the next REPAIR generation, or none where it would exceed 48 records, has no slot, or a subarray would need a third
spare. -/
def State.nextRepairs (s : State) : Option (List Nat) :=
  let rs := (match otpNewest s.pwr.otp 0 with
    | some i => repairRecs (otpPayload s.pwr.otp 0 i)
    | none => []) ++ s.blk.repairs
  if 48 < rs.length || otpFrozen s.pwr.otp 0 || rs.any (fun r => 2 < (rs.filter fun q => repairSub q == repairSub r).length) then none
  else some rs

/-- A payload from records of `w` bits. -/
def packRecs (w : Nat) : List Nat → Nat
  | [] => 0
  | r :: rest => r % 2 ^ w + 2 ^ w * packRecs w rest

/-- R616: the slot written with its trailer. The bits that OTP holds afterwards are those that `readBack` gives, since a bit
may fail to program; the flag says whether the slot verifies. -/
def State.otpWrite (s : State) (g i p : Nat) (readBack : BitVec 16384) : Bool × State :=
  let want := p % 2 ^ otpBits g + 2 ^ otpBits g * otpTrailer g p
  let b := otpGroup g
  let lo := b.1 + i * b.2
  let got := otpSlot readBack g i
  let o := s.pwr.otp.toNat
  let o' := o - 2 ^ lo * fieldN o lo b.2 + 2 ^ lo * got
  let s := s.onPwr fun q => { q with otp := BitVec.ofNat 16384 o' }
  if got = want then (true, s) else (false, s.raise 0x5D8 (256 + 616) g 0 i)

/-- NCH_OTP_STATUS (R621). -/
def State.otpStatus (s : State) : Nat :=
  let o := s.pwr.otp
  sumOf (fun g => 2 ^ (3 * g) * (match otpNewest o g with
    | some i => i + 1
    | none => 0)) (List.range 6)
  + sumOf (fun g => 2 ^ (18 + g) * b2n (otpFrozen o g)) (List.range 6) + 2 ^ 24 * b2n s.pwr.otpJob.isSome

/-- The serial number of the block: IDENT [63:0], or zero (R612, R692). -/
def State.serial (s : State) : Nat := ((s.otpUse 1).getD 0) % 2 ^ 64

end Sys2Proof.Machine
end

