-- ==== Sys2Proof/Machine/Alloc.lean ====
section
/-! DEFINITION. Media tracts (R428 to R430, R454): free counts, the choice of a port and of an index, and provisioning
(R643); the device area and its relocations (R429, R473). -/

namespace Sys2Proof.Machine

/-- Tracts of the device area (R429): 40 GiB at a map port, 64 MiB elsewhere. -/
def MPort.deviceTracts (q : MPort) : Nat := if q.mapPort then 655360 else 1024

/-- The block allocates at any index (R430). -/
def State.anyParity (s : State) : Bool := s.twin.st == .unpaired || (s.twin.st == .split && s.twin.tookOver)

/-- The media tract is FREE. -/
def MPort.isFree (q : MPort) (mt : Nat) : Bool := mt < q.dataTracts && (Tbl.find q.ledger mt).isNone

/-- FREE media tracts of a port (R477). -/
def MPort.freeTracts (q : MPort) : Nat := q.dataTracts - (q.ledger.filter fun x => x.1 < q.dataTracts).length

/-- FREE media tracts at the block's parity (R430). -/
def State.freeHere (s : State) (m : Nat) : Nat :=
  let q := s.mp m
  if s.anyParity then q.freeTracts
  else (q.dataTracts + 1 - s.side) / 2 - (q.ledger.filter fun x => x.1 < q.dataTracts && x.1 % 2 == s.side).length

/-- Media tracts of a port in a state (R428). -/
def MPort.countSt (q : MPort) (v : Nat) : Nat := (q.ledger.filter fun x => x.2 == v).length

/-- The port takes allocations: present, not draining (R469), not retiring (R525). -/
def MPort.open' (q : MPort) : Bool := q.present && !q.draining && !q.retiring

/-- Ports of a tier that take allocations and have a FREE media tract for this block. -/
def State.tierPorts (s : State) (fast : Bool) : List Nat :=
  below 32 fun m => (s.mp m).open' && (s.mp m).fast == fast && 0 < s.freeHere m

/-- The port's write count exceeds the mean of the tier's ports by more than 10 % (R454). -/
def State.worn (s : State) (fast : Bool) (m : Nat) : Bool :=
  let ps := below 32 fun k => (s.mp k).present && (s.mp k).fast == fast
  11 * sumOf (fun k => (s.mp k).writes) ps < 10 * ps.length * (s.mp m).writes

/-- The port for an allocation (R454): not worn while another has room, then the one with the most FREE media tracts, the
lowest among equals. -/
def State.allocPort (s : State) (fast : Bool) : Option Nat :=
  let ps := s.tierPorts fast
  let fresh := ps.filter fun m => fast || !s.worn fast m
  let ps := if fresh.isEmpty then ps else fresh
  let top := ps.foldl (fun k m => max k (s.mp m).freeTracts) 0
  ps.find? fun m => (s.mp m).freeTracts == top

/-- The lowest FREE index from `i` on, in steps, among as many as the fuel allows. -/
def MPort.lowest (q : MPort) (step : Nat) : Nat → Nat → Option Nat
  | 0, _ => none
  | k + 1, i => if q.isFree i then some i else if q.dataTracts ≤ i then none else MPort.lowest q step k (i + step)

/-- The lowest FREE index of the block's parity at a port (R430, R454). -/
def State.allocIndex (s : State) (m : Nat) : Option Nat :=
  let q := s.mp m
  if s.anyParity then q.lowest 1 (q.ledger.length + 1) 0 else q.lowest 2 (q.ledger.length + 1) s.side

/-- Allocate a media tract of a tier: it becomes USED (R428, R454). -/
def State.alloc (s : State) (fast : Bool) : Option ((Nat × Nat) × State) :=
  match s.allocPort fast with
  | none => none
  | some m =>
    match s.allocIndex m with
    | none => none
    | some mt => some ((m, mt), s.setLedger m mt 1)

/-- FREE media tracts of a tier at the block's parity. -/
def State.tierFree (s : State) (fast : Bool) : Nat := sumOf s.freeHere (s.tierPorts fast)

/-- A device record stands on the media tract: a map tract or a plate reserve tract (R473). -/
def State.deviceUsed (s : State) (m mt : Nat) : Bool :=
  (s.place.roots.any fun r => let w := r.2.toNat; w != 0xFFFFFFFF && (w % 32 == m || (w % 32) ^^^ 1 == m) && w / 32 == mt)
    || (s.parts.any fun q => q.2.resUsed.contains (m * 2 ^ 27 + mt)) || s.place.devMoves.any fun v => v.2.2 == mt && (v.2.1 == m || ((s.mp m).mapPort && v.2.1 ^^^ 1 == m))

/-- A media tract of a port's device area can take a record (R430, R473). -/
def State.deviceOpen (s : State) (m mt : Nat) : Bool := s.ledger m mt == 2 && !s.deviceUsed m mt

/-- Tracts of a port's device area that hold map tracts or relocated records: of a map port, 32 GiB before the split record (R409, R429; log 8). -/
def MPort.recordTracts (q : MPort) : Nat := if q.mapPort then 524288 else 1024

/-- The first free media tract of a port's device area from place `k` on, among as many as the fuel allows, at the block's parity (R430); of a map port
one that is free at the pair port too, since its records are held at the same index of both (R434). -/
def State.deviceFree (s : State) (m : Nat) : Nat → Nat → Option Nat
  | 0, _ => none
  | f + 1, k =>
    let mt := (s.mp m).dataTracts + k
    if (s.mp m).recordTracts ≤ k then none
    else if s.deviceOpen m mt && (!(s.mp m).mapPort || s.deviceOpen (m ^^^ 1) mt) && (s.anyParity || mt % 2 == s.side) then some mt
    else State.deviceFree s m f (k + 1)

/-- A free media tract of a port's device area (R429, R430, R473). -/
def State.deviceTract (s : State) (m : Nat) : Option Nat :=
  s.deviceFree m (2 * (s.place.roots.length + s.place.devMoves.length + (s.mp m).ledger.length + sumOf (fun (q : Nat × Part) => q.2.resUsed.length) s.parts) + 2) 0

/-- The root pointer of a new map tract, in the device area of the first map pair (R430, R433 to R435; log 8). -/
def State.rootNew (s : State) : Option Word :=
  s.mapPair.bind fun m => (s.deviceTract m).map fun mt => BitVec.ofNat 32 (m + 32 * mt)

/-- Root pointers written for the tracts `lo ≤ t < hi` that have none (R435). -/
def State.putRoots (s : State) (lo hi : Nat) : State :=
  State.each (fun k s =>
    match if (Tbl.find s.place.roots (lo / 8192 + k)).isSome then none else s.rootNew with
    | some w => s.onPlace fun q => { q with roots := Tbl.set q.roots (lo / 8192 + k) w }
    | none => s) (List.range ((hi - lo) / 8192)) s

/-- Provision one tract in the CAPACITY tier (R643): its lines are zeros, colour the partition, TRACT_GEN 0, directory NONE at
the current DG; the line writes themselves are not listed among the outputs (log 8). -/
def State.provision (s : State) (p tract : Nat) : State :=
  if (s.mapEntry tract).any fun e => meState e != 0 then s
  else
    match s.alloc false with
    | some ((m, mt), s) => s.putMap tract (mkEntry tract m mt 0 1 0 p)
    | none => s

/-- Provision the tracts `lo ≤ t < hi` of a partition. -/
def State.provisionAll (s : State) (p lo hi : Nat) : State :=
  State.each (fun k s => s.provision p (lo + k)) (List.range (hi - lo)) (s.putRoots lo hi)

/-- Release a tract: its media tract becomes FREE, or RETIRED where the tract was RETIRED (R472), and its entry FREE. -/
def State.releaseTract (s : State) (tract : Nat) : State :=
  match s.mapEntry tract with
  | some e =>
    if meState e = 0 then s
    else
      let s := s.abandonMove tract
      let s := s.setLedger (mePort e) (meTract e) (if meState e = 6 then 3 else 0)
      let s := (s.unlist tract).onPlace fun q => { q with map := Tbl.del q.map tract, map2 := Tbl.del q.map2 tract }
      let s := s.allBanks fun b => { b with tbuf := b.tbuf.filter fun v => v.1 != tract }
      if s.mirrors && s.primary (mePart e) then s.toTwin (.mapRec tract (mkEntry tract 0 0 0 0 0 0)) else s
  | none => s

/-- Release the placed tracts `lo ≤ t < hi`. -/
def State.releaseAll (s : State) (lo hi : Nat) : State :=
  State.each (fun t s => s.releaseTract t) ((s.place.map.filter fun x => lo ≤ x.1 && x.1 < hi).map Prod.fst) s

/-- Tracts of a partition that the map places, with a test on their entries. -/
def State.partTracts (s : State) (p : Nat) (f : Quad → Bool) : Nat :=
  (s.place.map.filter fun x => mePart x.2 == p && meState x.2 != 0 && f x.2).length

/-- FAST tracts of a partition (R476). -/
def State.fastTracts (s : State) (p : Nat) : Nat := s.partTracts p fun e => (s.mp (mePort e)).fast

/-- The tract whose placement a media tract holds. -/
def State.holderOf (s : State) (m mt : Nat) : Option Nat :=
  (s.place.map.find? fun x => meState x.2 != 0 && mePort x.2 == m && meTract x.2 == mt).map Prod.fst

/-- R473: a device record on retired media is copied to a free media tract of the port's device area; with no room an event
of the mailbox and firmware sources is raised and the record stays. -/
def State.relocate (s : State) (m mt : Nat) : State :=
  if !s.deviceUsed m mt then s.setLedger m mt 3
  else
    match s.deviceTract m with
    | some k => (s.setLedger m mt 3).onPlace fun x => { x with devMoves := x.devMoves ++ [((m, mt), (m, k))] }
    | none => s.raise (srcFw 3) (256 + 473) 0 0 m

end Sys2Proof.Machine
end

