-- ==== Sys2Proof/Machine/Directory.lean ====
section
/-! DEFINITION. Directory writes (R191, R192, R213, R214, R219, R222) and spill buffers (R208 to R211), with the colour check of the home's own
accesses (R80, R82). -/

namespace Sys2Proof.Machine

/-- The partition that the tract map names for a line's tract. -/
def State.mapPart (s : State) (line : Nat) : Nat := ((s.mapEntry (tractOf line)).map mePart).getD 64

/-- A metadata word for a line rebuilt from the tract map (R213, R539, R710). -/
def State.mapInfo (s : State) (line st holder : Nat) (pois : Bool) : Meta :=
  let g := match s.mapEntry (tractOf line) with
    | some e => meGen e
    | none => 0
  mkMeta st holder (s.dg (sliceOf line)) (s.mapPart line) pois g

/-! ### Colour mismatch and loss in internal work (R82, R115) -/

/-- R82: a migration, scrub or directory access finds a colour that is not the tract map's: the event of R81, and the tract freezes in doubt. It
places the record of R135 as R81 does (DESIGN CHOICE: R135 names R81 alone; log 59). -/
def State.colourBad (s : State) (n line found : Nat) : State :=
  let p := s.mapPart line
  let s := (s.freeze (tractOf line) line true).raiseC (srcSlc n 1) (256 + 81) none line p n found
  s.record p 2 (.colour (line * 64) found)

/-- R439, R440: the generation of a codeword is not that of its placement. -/
def State.genBad (s : State) (n line : Nat) : State :=
  (s.raise (srcSlc n 3) (256 + 440) line (s.mapPart line) n).freeze (tractOf line) line true

/-- An uncorrectable codeword is reported (R115, R213, R261, R539). -/
def State.lostLine (s : State) (n line m : Nat) : State := s.raise (srcSlc n 2) (256 + 115) line (s.mapPart line) m

/-! ### Directory writes (R191, R192, R214) -/

/-- A directory write of the line is in progress (R192). -/
def State.dirBusy (s : State) (n line : Nat) : Bool := (s.slc n).banks.dirw.any fun d => d.line == line

/-- The line's way whose copy is its directory copy (R189, R191): it holds the line and is not EVICTING, for the codeword of a victim has left
already (R251). -/
def Banks.grnOwn (b : Banks) (line : Nat) : Option Nat := (b.grnFind line).filter fun k => b.wayState k != .evicting

/-- What a directory write makes of its line's metadata (R191); `gen` is the current generation of its set. -/
def DirW.patch (d : DirW) (gen : Nat) (i : Meta) : Meta :=
  match d.whole with
  | some v => Meta.withDir i (Meta.dirState v.2) (Meta.holder v.2) gen (Meta.poison v.2)
  | none => Meta.withDir i d.state d.holder gen d.poison

/-- A line's metadata as its directory writes that are not complete leave it (R189, R219). -/
def State.pendingDir (s : State) (n line : Nat) (i : Meta) : Meta :=
  ((s.slc n).banks.dirw.filter fun d => d.line == line && !d.refresh).foldl (fun i d => d.patch (s.dg (sliceOf line)) i) i

/-- What has been read of a line's metadata is brought up to date with a directory write of it, and a read under way gives no directory fields
(R192). -/
def State.noteDir (s : State) (n : Nat) (d : DirW) : State :=
  let p := d.patch (s.dg (sliceOf d.line))
  (s.onFront n fun f =>
    { f with ents := Tbl.mapv (fun (x : Entry) =>
        if x.req.line != d.line then x else if x.place.isSome && x.info.isNone then { x with reread := true } else { x with info := x.info.map p }) f.ents }).onBanks n fun b =>
    { b with fills := Tbl.mapv (fun (f : Fill) => if f.line = d.line then { f with info := p f.info } else f) b.fills,
             waiters := b.waiters.map fun (w : Waiter) => if w.line = d.line then { w with fill := w.fill.map fun f => { f with info := p f.info } } else w }

/-- A directory write whose media command is handed over, or that is held until the advance of its set's generation is persisted (R219). -/
def State.putDirW (s : State) (n : Nat) (d : DirW) : State := s.onBanks n fun b => { b with dirw := b.dirw ++ [d] }

/-- The directory write of a line: in the Granary copy, whose colour is checked (R80, R82), and to media too while the slice writes through; or a
metadata read-modify-write at the line's media port. It ends the reservations on the line (R214). `entry` and `spill` name what waits for it; the
flag says that it is complete at once. -/
def State.dirWrite (s : State) (n line st holder : Nat) (poison : Bool) (entry spill : Option Nat) : Bool × State :=
  let new : DirW := { id := 2 ^ 60, line := line, state := st, holder := holder, poison := poison, entry := entry, spill := spill, whole := none, refresh := false, held := true }
  let s := s.endResv n line
  if s.advOpen line then (false, (s.noteDir n new).putDirW n new)
  else
  match (s.slc n).banks.grnOwn line with
  | some k =>
    match Tbl.find (s.slc n).banks.grn k with
    | some g =>
      if Meta.colour g.info ≠ s.mapPart line then (true, s.colourBad n line (Meta.colour g.info))
      else
        let i := new.patch (s.dg (sliceOf line)) g.info
        let s := (s.noteDir n new).onBanks n fun b => b.onGrn k fun g => { g with info := i, dirty := true }
        (true, if s.writesThrough n then s.mediaWrite n .through line g.data i else s)
    | none => (true, s)
  | none =>
    match (s.livePlaces n line).head? with
    | none => (true, s)
    | some (m, mt, _) =>
      let d := { new with id := m * 2 ^ 40 + (s.mp m).opId, held := false }
      (false, ((s.noteDir n d).putDirW n d).media m n (.dirw d.id) line mt false 0)

/-- A directory write that writes a line's whole codeword, at its live placements (R222, R710); one that waits is held (R219). It ends the
reservations on the line (R214). The flag says that it is complete at once. -/
def State.wholeWrite (s : State) (n line : Nat) (d : Line) (i : Meta) (entry : Option Nat) : Bool × State :=
  let new : DirW := { id := 2 ^ 60, line := line, state := 0, holder := 0, poison := false, entry := entry, spill := none, whole := some (d, i), refresh := false, held := true }
  let s := (s.endResv n line).noteDir n new
  if s.advOpen line then (false, s.putDirW n new)
  else
    match (s.livePlaces n line).head? with
    | none => (true, s)
    | some (m, _, _) =>
      let id := m * 2 ^ 40 + (s.mp m).opId
      (false, (s.putDirW n { new with id := id, held := false }).mediaWrite n (.dirw id) line d i)

/-- The start-up refresh of a line (R224): a metadata read-modify-write whose fields the copy that is read decides. -/
def State.refreshLine (s : State) (n line : Nat) : State :=
  let new : DirW := { id := 2 ^ 60, line := line, state := 3, holder := 0x3FF, poison := false, entry := none, spill := none, whole := none, refresh := true, held := true }
  if s.advOpen line then s.putDirW n new
  else
    match (s.livePlaces n line).head? with
    | none => s
    | some (m, mt, _) =>
      let id := m * 2 ^ 40 + (s.mp m).opId
      (s.putDirW n { new with id := id, held := false }).media m n (.dirw id) line mt false 0

/-- A directory write whose read returns while an advance of its set is open is held again, in its place (R219). -/
def State.rehold (s : State) (n : Nat) (d : DirW) : State :=
  s.onBanks n fun b => { b with dirw := b.dirw.map fun x => if x = d then { d with id := 2 ^ 60, held := true } else x }

/-- R124, R191: POISON set in a line's Granary copy, and in media too while the slice writes through. -/
def State.poisonGrn (s : State) (n line : Nat) : State :=
  match (s.slc n).banks.grnOwn line with
  | some k =>
    let s := s.onBanks n fun b => b.onGrn k fun g => { g with info := Meta.withPoison g.info true, dirty := true }
    match Tbl.find (s.slc n).banks.grn k with
    | some g => if s.writesThrough n then s.mediaWrite n .through line g.data g.info else s
    | none => s
  | none => s

/-! ### Spill buffers (R208 to R211) -/

/-- Move the entry of a way into spill buffer `j` and start its directory writes, in the order of the lines; the buffer
frees at once when every write is complete. -/
def State.spillTo (s : State) (n j set : Nat) (v : FEntry) : State :=
  let base := sheafBase n set v.tag
  let held := v.held
  let s := (s.bumpSlc n 7 0 32).onBanks n fun b => { b with spills := Tbl.set b.spills j ⟨set, v, held.map fun i => base + i⟩ }
  let s := State.each (fun i s =>
    let d := v.spillDir i
    let r := s.dirWrite n (base + i) d.1 d.2 false none (some j)
    if r.1 then r.2.onBanks n fun b =>
      { b with spills := match Tbl.find b.spills j with
          | some sp => Tbl.set b.spills j { sp with left := sp.left.filter (· != base + i) }
          | none => b.spills }
    else r.2) held s
  match Tbl.find (s.slc n).banks.spills j with
  | some sp => if sp.left.isEmpty then s.onBanks n fun b => { b with spills := Tbl.del b.spills j } else s
  | none => s

/-- A line stands in a spill buffer with its directory write not complete (R212). -/
def Banks.inSpill (b : Banks) (line : Nat) : Bool := b.spills.any fun x => x.2.left.contains line

/-- Give the sheaf of an entry's line the way `w` of its set: a valid way's entry is the victim and needs a spill buffer
(R208). The flag says whether the entry is in place; with no buffer free the choice is provisional. -/
def State.giveFltWay (s : State) (n line p w : Nat) : Bool × State :=
  let set := fltSet line
  let b := (s.slc n).banks
  let put := fun (s : State) => s.onBanks n fun b => { b with flt := Tbl.set b.flt (set * 16 + w) (FEntry.fresh (fltTag line) p) }
  match b.fltAt set w with
  | none => (true, put s)
  | some v =>
    match Tbl.free b.spills 0 8 with
    | some j => (true, put (s.spillTo n j set v))
    | none => (false, s.bumpSlc n 7 32 32)

end Sys2Proof.Machine
end

