-- ==== Sys2Proof/Machine/Mailbox.lean ====
section
/-! DEFINITION. The mailboxes (R622 to R640): acceptance, the common checks, completion, background work, and the fields of a
payload. -/

namespace Sys2Proof.Machine

/-! ### Payload fields (R15, R639) -/

/-- Byte `i` of an input payload. -/
def mbByte (c : Mbx) (i : Nat) : Nat := (c.input.getD i 0).toNat
/-- The little-endian field of `k` bytes at offset `i`. -/
def mbLe (c : Mbx) (i k : Nat) : Nat := ofLeBytes ((c.input.drop i).take k)

/-- Bytes of zero. -/
def zeros (k : Nat) : List Byte := List.replicate k 0

/-! ### Completion (R624, R625, R629) -/

/-- How a command's own rules answer it. -/
inductive Reply
  | done (status : Nat) (out : List Byte)
  | detail (status d : Nat)
  | wait (w : Wait)
  | started (b : Bg) (leftMs : Nat)
  deriving DecidableEq, Repr, Inhabited

/-- Completion of a foreground command (R625). -/
def State.mbxDone (s : State) (mb status : Nat) (out : List Byte) (detail : Nat) : State :=
  let s := s.onBox mb fun b =>
    { b with status := status, outLen := out.length, payload := if out.isEmpty then b.payload else out, detail := detail,
             doneAt := s.time, doorbell := false, wait := none }
  if 1 < status then s.bumpMbx 0 32 32 else s

/-- The start of background work (R629). -/
def State.mbxStart (s : State) (mb : Nat) (b : Bg) (left : Nat) : State :=
  let s := s.mbxDone mb 1 [] 0xFFFFFFFF
  (s.onBox mb fun q =>
    { q with bgRun := true, bgAbort := false, bgOpcode := q.opcode, bgProgress := 0, bgLeft := left, bg := some b }).bumpMbx 1 0 32

/-- The end of background work (R629, R630, R638): BG_STATUS, any output, the record of kind 0x11, the interrupt of a
partition's function. -/
def State.bgEnd (s : State) (mb status : Nat) (out : List Byte) : State :=
  let op := (s.box mb).bgOpcode
  let s := s.onBox mb fun b =>
    { b with bgRun := false, bgAbort := false, bgStatus := status, bgProgress := if status = 0 then 100 else b.bgProgress, bgLeft := 0,
             bg := none, outLen := if out.isEmpty then b.outLen else out.length, payload := if out.isEmpty then b.payload else out }
  let s := if status = 5 then s.bumpMbx 1 32 16 else if status = 6 then s.bumpMbx 1 48 16 else s
  let s := s.blkRecord 0 (.bgDone op status)
  if mb < 64 then s.send (.mbInt mb) else s

/-! ### Resources of background commands (R629) -/

/-- A resource that background work holds. -/
inductive Res
  | part (p : Nat) | port (m : Nat) | flash | otp | shutdown | none
  deriving DecidableEq, Repr, Inhabited

/-- The resource of a background command. -/
def Bg.res : Bg → Res
  | .partCreate p | .partResize p _ | .partDestroy p _ | .sanitize p | .plateRelease p _ => .part p
  | .capRemove m => .port m
  | .shutdown => .shutdown
  | .transferFw _ => .flash
  | _ => .none

/-- The resource is held by a background command (of another mailbox, since a mailbox runs one at a time). -/
def State.bgHeld (s : State) (r : Res) : Bool := r != .none && s.mbx.any fun x => x.2.bgRun && (x.2.bg.any fun b => b.res == r)

/-- Background work running on some mailbox, and the mailbox. -/
def State.bgOf (s : State) (p : Bg → Bool) : Option Nat := (s.mbx.find? fun x => x.2.bgRun && x.2.bg.any p).map Prod.fst

/-- A foreground command that waits, and its mailbox. -/
def State.waitOf (s : State) (w : Wait) : Option Nat := (s.mbx.find? fun x => x.2.wait == some w).map Prod.fst

/-! ### The common checks (R623, R626, R631, R635, R636, R639) -/

/-- What the tables of the commands say of one of them. -/
structure CmdKind where
  /-- Marked A: allowed on a partition mailbox. -/
  a : Bool
  /-- Needs presence (R596). -/
  presence : Bool
  /-- Needs the seal, and no partition ENABLED (R588, R635). -/
  otp : Bool
  /-- Served on the service mailbox only. -/
  service : Bool
  /-- Served in the fail-safe state (R574). -/
  failsafe : Bool
  /-- Least and greatest IN_LEN. -/
  len : Nat × Nat
  /-- Reserved bytes (R22). -/
  rsv : List Nat
  /-- Offset of the PART field (R636). -/
  part : Option Nat
  /-- A background command, and its resource. -/
  bg : Option Res
  deriving DecidableEq, Repr, Inhabited

/-- A command with no needs: for all mailboxes or only the management and service mailboxes, with its input length. -/
def CmdKind.plain (a : Bool) (len : Nat) : CmdKind := ⟨a, false, false, false, false, (len, len), [], none, none⟩

/-- The presence window is open (R595, R596). -/
def State.presenceOpen (s : State) : Bool := s.pwr.presence.any fun e => s.now < e

/-- Some partition is ENABLED. -/
def State.anyEnabled (s : State) : Bool := s.parts.any fun x => x.2.st == .enabled

/-- Alidade serves mailboxes: from start-up step 7 until the power-fail sequence or the halt (R607, R631; log 12). -/
def State.alidadeUp (s : State) : Bool := 8 ≤ s.pwr.step && s.pwr.fail.isNone && s.pwr.st != .halt

/-- The checks that every command meets, in the order of R635, R639, R636, R629 (log 12): the status and DETAIL with which
it completes, or none. -/
def State.commonCheck (s : State) (c : Mbx) (k : CmdKind) : Option (Nat × Nat) :=
  let mb := c.mb.val
  let n := c.input.length
  let none32 := 0xFFFFFFFF
  if s.win.failsafe ∧ (mb < 64 ∨ !k.failsafe) then some (7, none32)
  else if (mb < 64 ∧ !k.a) ∨ (k.service ∧ mb ≠ 65) then some (2, none32)
  else if (k.presence ∧ !s.presenceOpen) ∨ (k.otp ∧ !c.otpSeal) then some (3, none32)
  else if k.otp ∧ s.anyEnabled then some (7, none32)
  else if n < k.len.1 ∨ k.len.2 < n then some (4, 0)
  else
    match k.rsv.find? fun i => mbByte c i != 0 with
    | some i => some (4, i)
    | none =>
      match k.part with
      | some i =>
        if 63 < mbByte c i then some (4, i)
        else if mb < 64 ∧ mbByte c i ≠ mb then some (2, i)
        else if k.bg.isSome ∧ ((s.box mb).bgRun ∨ s.bgHeld (.part (mbByte c i))) then some (7, none32)
        else none
      | none =>
        match k.bg with
        | some r => if (s.box mb).bgRun ∨ s.bgHeld r then some (7, none32) else none
        | none => none

/-- Writes of a caller that are ignored: the payload's words, two header words and the doorbell's (R623, R626; log 12). -/
def mbWrites (c : Mbx) : Nat := (c.input.length + 3) / 4 + 3

/-- R626: writes to a mailbox whose DOORBELL is set are ignored and counted; the last is the doorbell's header word. -/
def State.mbxIgnored (s : State) (mb k : Nat) : State :=
  (s.bump (0x0A0A20 + 8 * (2 + mb / 8)) (8 * (mb % 8)) 8 k).onBlk fun b => { b with mbxIgn := 4 + 8192 * mb }

/-- Acceptance of a command (R625): the header and the payload are taken, and DOORBELL is set; a command of the OTP samples the seal
(R597). -/
def State.accept (s : State) (c : Mbx) (op : Nat) (otp : Bool) : State :=
  let s := if otp then s.onPwr fun p => { p with otpSeal := c.otpSeal } else s
  (s.onBox c.mb.val fun b =>
    { b with opcode := op, inLen := c.input.length, tag := c.tag.toNat, acceptAt := s.time, doorbell := true, payload := c.input, wait := none }).bumpMbx 0 0 32

/-- The answer that a command's own rules give (R625, R628, R629): completed, waiting, or background work started. -/
def State.answer (s : State) (mb : Nat) : Reply → State
  | .done st out => s.mbxDone mb st out 0xFFFFFFFF
  | .detail st d => s.mbxDone mb st [] d
  | .wait w => s.onBox mb fun b => { b with wait := some w }
  | .started b left => s.mbxStart mb b left

/-- A command arrives at a mailbox (R623 to R629). The management mailbox answers at once, without disturbing the running
command, when one runs (R633): the answer is a message of the sideband, which no register keeps. -/
def State.command (s : State) (c : Mbx) (op : Nat) (k : CmdKind) (body : State → Reply × State) : State :=
  let mb := c.mb.val
  if !s.alidadeUp then s
  else if mb < 64 ∧ !s.member c.host.val mb then s.bump (0x0A0000 + 16 * mb) 16 32 (mbWrites c)
  else if (s.box mb).doorbell then
    if mb = 64 then s.send (.mgmtReply 7) else s.mbxIgnored mb (mbWrites c)
  else
    let s := s.accept c op k.otp
    match s.commonCheck c k with
    | some (st, d) => s.mbxDone mb st [] d
    | none => (body s).2.answer mb (body s).1

/-- R631: the fail-safe state or the power-fail sequence aborts every running command with a CMD event, but for the
partition commands that the next start-up completes. -/
def State.abortCommands (s : State) : State :=
  State.each (fun x s =>
    let b : MBox := x.2
    let kept := match b.bg with
      | some (.partCreate _) | some (.partResize _ _) | some (.partDestroy _ _) => true
      | _ => false
    let s := if b.doorbell then s.raise (srcFw 7) (256 + 631) b.opcode 0 x.1 else s
    let s := if b.bgRun && !kept then s.raise (srcFw 7) (256 + 631) b.bgOpcode 0 x.1 else s
    s.onBox x.1 fun q => { q with wait := none, bg := if kept then q.bg else none }) s.mbx
    (s.onPwr fun p => { p with grant := false, otpJob := none, flashJob := none, xfer := none, stopping := false })

end Sys2Proof.Machine
end

