-- ==== Sys2Proof/Machine/Link.lean ====
section
/-! DEFINITION. The twin link: its frames as heartbeats (R399, R423) and the handshake that the block sends (R382, R411). -/

namespace Sys2Proof.Machine

/-- The block's anchor, its number and the epoch length, once there is one (R308). -/
def Mer.anchored (m : Mer) : Option (Nat × Nat × Nat) := if m.next = 0 then none else some (m.anchor, m.anchorNum, m.len)

/-- The provisioned tracts (R412). -/
def State.provisioned (s : State) : List Nat := (s.place.map.filter fun x => meState x.2 != 0).map Prod.fst

/-- The handshake that the block sends (R382): its serial, pairing number and side, the serial that it expects of the twin (by which the twin
learns whether it counts as replaced), its clean or unclean decision (R220), its anchor (R308), its roles, which before step 8 is over are the
persisted ones, its split record, and whether its pairing is a new one (R412). With the split record go its count of marked tracts and the count of
provisioned ones, which NCH_TWN_RESYNC of a target needs (R425; DESIGN CHOICE, log 59). -/
def State.handshake (s : State) : State :=
  let p := s.twin.pairing.getD (false, 0, 0)
  s.toTwin (.handshake s.serial p.2.2 p.2.1 (s.side = 1) s.dirGen.unclean s.twin.hasSplit s.mer.anchored
    (if s.twin.st = .seeking then s.twin.owned else s.twin.roles) s.twin.rePaired s.twin.split.length s.provisioned.length)

/-- A valid frame has arrived within 8 µs (R399, R423). -/
def State.hbOk (s : State) : Bool := s.twin.frameAt.any fun x => s.now < x + 8000

/-- A valid frame arrives from the twin (R399): a heartbeat; when heartbeats return to a SPLIT block, it sends its handshake (R411). An unpaired block
has no twin (R380). -/
def State.frame (s : State) : State :=
  if s.twin.st = .unpaired then s
  else
    let back := s.twin.st == .split && !s.hbOk
    let s := s.onTwin fun w => { w with frameAt := some s.now }
    if back then s.handshake else s

end Sys2Proof.Machine
end

