-- ==== Sys2Proof/Machine/Meridian.lean ====
section
/-! DEFINITION. The Meridian unit (spec chapter 7): the reference and holdover (R282 to R292), epochs and seals (R306 to
R314), plates as far as instants touch them (R315, R316, R322), and the instant slots (R294 to R305, R640). -/

namespace Sys2Proof.Machine

/-! ### Error bound and skew (R281, R286, R291, R293) -/

/-- S_dom (R291): twice the block's own ε plus 40 ns while the domain's notices are overdue. -/
def State.skew (s : State) : Nat := if s.mer.noticeLate then min 4095 (2 * s.eps + 40) else s.mer.sdom

/-- The partition belongs to a domain plate group (R293, R315). -/
def State.grouped (s : State) (p : Nat) : Bool := s.groups.any fun g => g.2.any fun m => m.1 == p && m.2 == s.mer.pair

/-- The causal hold H of a partition (R293). -/
def State.holdNs (s : State) (p : Nat) : Nat := if s.grouped p then s.skew else 40

/-! ### The reference (R282 to R289) -/

/-- Domain-scope operations are not allowed while the block is UNLOCKED or FREE (R292). -/
def Mer.domainAble (m : Mer) : Bool := m.member && m.st != .unlocked && m.st != .free

/-- The state without the reference (R286, R287). -/
def Mer.noRef (m : Mer) : MerSt := if m.steer && m.exch && m.twinLock then .twinSteered else .holdover

/-- R285: the reference is lost; the HOLDOVER event is raised. -/
def State.loseRef (s : State) : State :=
  if s.mer.st = .locked then
    (s.onMer fun m => { m with st := m.noRef, lostAt := s.now, good := 0 }).raise (srcMer 2) (256 + 285) 0 0 0
  else s

/-- A word is discarded or missing (R283, R285). -/
def State.badWord (s : State) (lsb : Nat) : State :=
  let s := ((s.bumpMer 0 lsb 32).raise (srcMer 1) (256 + 283) 0 0 0).onMer fun m => { m with bad := min 3 (m.bad + 1), good := 0 }
  if s.mer.bad = 3 then s.loseRef else s

/-- TIME_REF_LOSS (R31, R285). -/
def execTimeRefLoss (t : Ns) (s : State) : Host.Outcome State Fault Refusal :=
  let s := (s.tick t).onMer fun m => { m with refOk := false, good := 0 }
  .next (s.raise (srcMer 0) (256 + 31) 0 0 0).loseRef

/-- A word that passes its checks, with its offset in 2^-16 ns: the slew starts anew, and four in a row regain a lost reference (R284,
R285). The word ends with a rising edge of TIME_REF (R282), so that the reference is present again (DEDUCED, log 41). -/
def State.goodWord (s : State) (count : Nat) (offset : Int) : State :=
  let s := s.onMer fun m => { m with refOk := true, lastCount := count, lastAt := s.now, bad := 0, good := min 4 (m.good + 1) }
  let s := { s with clk := { s.clk with slew := offset } }
  let s := if offset = 0 then s else s.bumpMer 1 0 32
  match s.mer.st with
  | .unlocked | .locked => s
  | _ => if s.mer.good = 4 then s.onMer fun m => { m with st := .locked, domOk := m.domOk && m.member } else s

/-- ALIGN_WORD (R282 to R286), compared with the block's own time at its edge, `sub` of 2^-16 ns past the step's: discarded when its check fails, its count is not greater than
the last accepted word's, or its offset exceeds 1 µs. Before the first lock there is no own time to compare (R286). -/
def execAlignWord (t : Ns) (count : Quad) (check : Byte) (sub : BitVec 16) (s : State) : Host.Outcome State Fault Refusal :=
  let s := s.tick t
  let c := count.toNat
  let offset : Int := if s.mer.st = .unlocked then 0 else (c * 65536 : Int) - (s.now * 65536 + s.clk.frac + sub.toNat : Int)
  .next (if check != Config.timeCheck count || c ≤ s.mer.lastCount || 65536000 < offset.natAbs then s.badWord 0 else s.goodWord c offset)

/-- ALIGN_WORD_MISSING (R283): none accepted for 1.536 µs. -/
def execAlignWordMissing (t : Ns) (s : State) : Host.Outcome State Fault Refusal :=
  let s := s.tick t
  .next (if s.mer.lastAt + 1536 ≤ s.now then s.badWord 32 else s)

/-- The one step of Meridian time (R278, R280): the domain's count of the last accepted word and what has passed since. What the block has
timed so far keeps its length (log 1), as far as the domain's count reaches back. -/
def State.stepTime (s : State) : State :=
  let n := s.mer.lastCount + (s.now - s.mer.lastAt)
  let d := fun (x : Nat) => x + n - s.now
  let s := { s with now := n, events := s.events.map fun (v : Ev) => { v with sent := d v.sent } }
  let s := s.onRch fun r => { r with entered := Tbl.mapv d r.entered, woke := Tbl.mapv d r.woke }
  let s := s.onPwr fun p => { p with goodAt := d p.goodAt, presence := p.presence.map d }
  (((s.allSlc fun c => { c with busyAt := d c.busyAt, woke := d c.woke }).allStks fun q => { q with busyAt := d q.busyAt, woke := d q.woke }).onMer fun m => { m with lastAt := d m.lastAt }).onTwin
    fun w => { w with seekAt := d w.seekAt, frameAt := w.frameAt.map d }

/-- MERIDIAN_LOCK (R278, R280, R286, R34, R607): the first lock, to the timekeeper's last accepted word; ALIVE starts toggling and start-up step 6
ends. -/
def execMeridianLock (t : Ns) (s : State) : Host.Outcome State Fault Refusal :=
  let s := s.tick t
  .next (if s.mer.st = .unlocked ∧ 0 < s.mer.good then
    ((s.stepTime.onMer fun m => { m with st := .locked, refOk := true }).onWin fun w => { w with aliveRun := !w.failsafe }).onPwr
      fun p => { p with step := if p.step = 6 ∧ p.fail.isNone then 7 else p.step }
  else s)

/-- MERIDIAN_LOCK_TIMEOUT (R609): not locked within 1 s of rails good, which is GRAVE. -/
def execMeridianLockTimeout (t : Ns) (s : State) : Host.Outcome State Fault Refusal :=
  let s := s.tick t
  .next (if s.mer.st = .unlocked ∧ s.pwr.goodAt + 1000000000 ≤ s.now then s.raiseC (srcMer 3) (256 + 609) (some 4) 0 0 0 0 else s)

/-- DOMAIN_NOTICE_TIMEOUT (R291): no notice for 1 ms; the block's own S_dom holds until the next. -/
def execDomainNoticeTimeout (t : Ns) (s : State) : Host.Outcome State Fault Refusal :=
  let s := s.tick t
  .next (if s.mer.member ∧ !s.mer.noticeLate ∧ s.mer.noticeAt + 1000000 ≤ s.now then
    (s.onMer fun m => { m with noticeLate := true }).raise (srcMer 6) (256 + 291) 0 0 0
  else s)

/-! ### Epochs (R306, R307) -/

/-- The boundary at or after a time (R306). -/
def Mer.boundaryFrom (m : Mer) (t : Nat) : Nat :=
  let l := m.len * 1000
  if t ≤ m.next then m.next - (m.next - t) / l * l else m.next + (t - m.next + l - 1) / l * l

/-- The time is an epoch boundary. -/
def Mer.onBoundary (m : Mer) (t : Nat) : Bool := m.next != 0 && m.boundaryFrom t == t

/-- The number of the epoch that begins at a boundary that has been passed. -/
def Mer.numberAt (m : Mer) (t : Nat) : Nat := m.cur - (m.next - m.len * 1000 - t) / (m.len * 1000)

/-! ### Seals (R312 to R314) -/

/-- A slice seals every epoch that has ended and of which no accepted write is short of its level (R312); for one that its buddy serves, the
buddy does (R304, R314). -/
def State.sealSlice (s : State) (n : Nat) : State :=
  let c := s.slc n
  if c.phase = .fenced ∨ c.phase = .covered ∨ c.phase = .returning then s else
  let low := minOf (fun (w : Pend) => w.epoch) s.mer.cur (c.front.pends.filter fun w => w.ack.isNone && !w.reached c.banks.wt)
  s.onSlc n fun c => { c with sealed := max c.sealed (min s.mer.cur low - 1) }

/-- The epoch reported for a slice's address set: a slice that has nothing has sealed the last epoch ended; for a fenced slice
its last report, until its replay is complete (R312, R314). -/
def State.sealOf (s : State) (n : Nat) : Nat :=
  match Tbl.find s.slices n with
  | none => s.mer.cur - 1
  | some c =>
    match c.phase with
    | .fenced =>
      match (s.slc (buddy n)).cover with
      | some _ => c.sealed
      | none => (s.slc (buddy n)).sealed
    | .covered | .returning => (s.slc (buddy n)).sealed
    | _ => c.sealed

/-- What stook controller `k` reports: the lowest of its eight slices (R312). -/
def State.stookSeal (s : State) (k : Nat) : Nat := minOf s.sealOf 0 ((List.range 8).map fun i => 8 * k + i)

/-- The block-sealed epoch: the lowest of the 16 stooks' last reports (R312). -/
def State.blockSeal (s : State) : Nat := max s.mer.blkSealed (minOf (fun k => Tbl.get 0 s.mer.stkSeals k) 0 (List.range 16))

/-- The blocks of the domain that the root knows (R291): those that have reported their ε, and itself. -/
def State.domBlocks (s : State) : List Nat := insertNat s.domId (s.mer.rootEps.map Prod.fst)

/-- The participating pairs (R299, R313). -/
def State.domPairs (s : State) : List Nat := s.domBlocks.foldl (fun l b => insertNat (b / 2) l) []

/-- The domain-sealed epoch at the root (R313): the lowest pair-sealed epoch that it holds from the participating pairs. -/
def State.domSeal (s : State) : State :=
  if s.mer.root then s.onMer fun m => { m with domSealed := max m.domSealed (minOf (fun p => Tbl.get 0 m.rootSeals p) 0 s.domPairs) } else s

/-- An anchor, its number and the epoch length are taken over (R308). No epoch before the one in force holds a write of this block, so that
those before it are sealed here (R312). -/
def State.adopt (s : State) (x : Nat × Nat × Nat) : State :=
  let l := x.2.2 * 1000
  let k := (s.now - x.1) / l
  s.onMer fun m => { m with anchor := x.1, anchorNum := x.2.1, len := x.2.2, cur := x.2.1 + k, next := x.1 + (k + 1) * l,
                            blkSealed := max m.blkSealed (x.2.1 + k - 1) }

/-! ### Plates (R315, R316, R318) -/

/-- The plate is live (R315). -/
def Plate.live (p : Plate) : Bool := p.st != .withdrawn

/-- The live plates of a partition. -/
def Part.live (q : Part) : Tbl Plate := q.plates.filter fun x => x.2.live

/-- Tracts of the data range. -/
def Part.tracts (q : Part) : Nat := q.dataLen / 1024

/-- Reserve tracts of one copy map: the data range size divided by 256 (R316). -/
def Part.mapRoom (q : Part) : Nat := (q.tracts + 255) / 256

/-- Reserve tracts in use: the copy maps of live plates and the tracts of copies (R315, R318). -/
def Part.reserveUsed (q : Part) : Nat := q.live.length * q.mapRoom + q.resUsed.length

/-- Reserve tracts (R643): RESERVE_GIB of 16,384 tracts. -/
def Part.reserveTracts (q : Part) : Nat := q.reserve * 16384

/-- The plates that a PLATE_EXPOSE parameter names: the partitions of this pair (R295, R315). -/
def State.plateParts (s : State) (param : Nat) : List Nat :=
  let g := param % 64
  if bitN param 9 then ((Tbl.get [] s.groups g).filter fun m => m.2 == s.mer.pair).map Prod.fst else [g]

/-- R315: the plate has its number and room. -/
def State.plateRoom (s : State) (p j : Nat) : Bool :=
  let q := s.part p
  !(q.live.any fun x => x.1 == j) && q.live.length < 8 && q.reserveUsed + q.mapRoom ≤ q.reserveTracts

/-- R315: a plate counts as live from the moment its slot is armed. -/
def State.plateArm (s : State) (k param time : Nat) : State :=
  State.each (fun p s => s.onPart p fun q =>
    { q with plates := Tbl.set q.plates (param / 64 % 8) ⟨.armed, if bitN param 9 then some (param % 64) else none, k, time, 0, [], [], []⟩ })
    (s.plateParts param) s

/-- A rejected, cancelled or abandoned slot returns its plates' numbers and room (R315). -/
def State.plateDrop (s : State) (k param : Nat) : State :=
  State.each (fun p s => s.onPart p fun q =>
    { q with plates := q.plates.filter fun x => !(x.1 == param / 64 % 8 && x.2.st == .armed && x.2.slot == k) }) (s.plateParts param) s

/-- A reference bit of PLATE_REF set or cleared in every placed tract of a partition (R318, R432). -/
def State.plateRefs (s : State) (p j : Nat) (on : Bool) : State :=
  let ts := (s.place.map.filter fun x => mePart x.2 == p && meState x.2 != 0).map Prod.fst
  State.each (fun t s =>
    match s.mapEntry t with
    | some e =>
      let r := mePlates e
      let r := if on then r ||| 2 ^ j else r - (r &&& 2 ^ j)
      let st := match meState e with
        | 1 | 3 => restState r
        | 2 | 4 => if r = 0 then 2 else 4
        | x => x
      if r = mePlates e then s else s.putMap t (mkEntry t (mePort e) (meTract e) (meGen e) st r (mePart e))
    | none => s) ts s

/-- Reserve tracts of a partition that hold no copy any more are FREE again (R318), but for one that is RETIRED and one in the device area,
where a record was relocated (R428, R429, R473). -/
def State.freeReserve (s : State) (p : Nat) (rs : List Nat) : State :=
  let s := s.onPart p fun q => { q with resUsed := q.resUsed.filter fun r => !rs.contains r }
  State.each (fun r s =>
    let m := r / 2 ^ 27
    let mt := r % 2 ^ 27
    if mt < (s.mp m).dataTracts ∧ s.ledger m mt = 2 then s.setLedger m mt 0 else s) rs s

/-- The reserve tract that holds a plate's copy of a line position (R318, R323). -/
def Plate.reserveOf (x : Plate) (pos : Nat) : Option Nat := (Tbl.find x.passed pos).orElse fun _ => Tbl.find x.dir (pos / 1024)

/-- The reserve tracts that hold a plate's copies (R318, R323). -/
def Plate.reserves (x : Plate) : List Nat := (x.dir.map Prod.snd ++ x.passed.map Prod.snd).eraseDups

/-- A plate withdrawn under R300 returns its copies and its room. -/
def State.plateWithdraw (s : State) (p j : Nat) : State :=
  match Tbl.find (s.part p).plates j with
  | some x =>
    let s := s.onPart p fun q => { q with plates := Tbl.set q.plates j { x with st := .withdrawn, map := [], dir := [], passed := [] } }
    (s.freeReserve p x.reserves).plateRefs p j false
  | none => s

/-- R322: pending plates whose last epoch is sealed at their scope become EXPOSED. -/
def State.exposePlates (s : State) : State :=
  { s with parts := Tbl.mapv (fun (q : Part) => { q with plates := Tbl.mapv (fun (x : Plate) =>
      if x.st = .pending ∧ x.epoch ≤ (if x.group.isSome then s.mer.domSealed else s.mer.pairSealed) + 1 then { x with st := .exposed } else x) q.plates }) s.parts }

/-- R313: the pair-sealed epoch follows the two blocks' seals, or the block's own in a solo block; pending plates follow. -/
def State.pairSeal (s : State) : State :=
  let e := if s.twin.st = .paired then min s.mer.blkSealed s.mer.twinSealed else s.mer.blkSealed
  let s := s.onMer fun m => { m with pairSealed := max m.pairSealed e, rootSeals := if m.root then Tbl.set m.rootSeals m.pair (max m.pairSealed e) else m.rootSeals }
  s.domSeal.exposePlates

/-- The slot's instant has come, and it has not acted (R294): ARMED at block scope, CONFIRMED at the others. A ROLE_MOVE that has begun has acted,
though its slot ends with its DRAIN (R417, R419). -/
def State.ripe (s : State) (k : Nat) : Bool :=
  let x := s.slot k
  x.arm && (x.st == .confirmed || (x.scope == 0 && x.st == .armed)) && x.time ≤ s.now
    && !(x.kind == 7 && (Tbl.find s.twin.moves (x.param % 64)).any fun m => m.slot == k)

/-- The plates that wait for slot `k` are PENDING, at the epoch that begins at the slot's boundary (R315, R316), and every placed tract of the
partition is plate-shared for them (R318, R432). -/
def State.pendPlates (s : State) (k : Nat) (x : Slot) : State :=
  let j := x.param / 64 % 8
  State.each (fun p s =>
    match Tbl.find (s.part p).plates j with
    | some y =>
      if y.st = .armed ∧ y.slot = k then
        (s.onPart p fun q => { q with plates := Tbl.set q.plates j { y with st := .pending, epoch := s.mer.numberAt x.time } }).plateRefs p j true
      else s
    | none => s) (s.plateParts x.param) s

/-- Every PLATE_EXPOSE at an epoch boundary takes effect with it, in one step (R303). -/
def State.exposeAt (s : State) (time : Nat) : State :=
  State.each (fun k s => if s.ripe k && (s.slot k).kind == 2 && (s.slot k).time == time then (s.pendPlates k (s.slot k)).exposePlates else s)
    (List.range 16) s

/-- A slot acts before the next boundary (R303): its instant has come and lies earlier. -/
def State.slotFirst (s : State) : Bool := (List.range 16).any fun j => s.ripe j && (s.slot j).time < s.mer.next

/-- The oldest unsealed epoch stands at the block-sealed epoch plus one (R307, R312): the boundary passes, or is skipped
when the span would exceed 4,096. -/
def State.oneBoundary (s : State) : State :=
  if s.mer.next = 0 ∨ s.now < s.mer.next ∨ s.slotFirst then s
  else if 4096 < s.mer.cur + 1 - (s.mer.blkSealed + 1) then
    ((s.onMer fun m => { m with next := m.next + m.len * 1000 }).bumpMer 4 32 32).raise (srcMer 5) (256 + 307) 0 0 0
  else
    let at' := s.mer.next
    let begin' := fun (b : Barrier) => if b.scope = .domain ∧ b.serve.isNone ∧ b.instant ≤ at' then { b with serve := some s.mer.cur } else b
    ({ s.allIps (fun q => { q with bars := q.bars.map begin' }) with adminBars := Tbl.mapv begin' s.adminBars }.onMer fun m =>
      { m with cur := m.cur + 1, next := m.next + m.len * 1000 }).exposeAt at'

/-- The boundaries that have been reached and that no slot precedes, at most `k` of them (R303). -/
def State.boundaries : Nat → State → State
  | 0, s => s
  | k + 1, s => if s.mer.next = 0 ∨ s.now < s.mer.next ∨ s.slotFirst then s else State.boundaries k s.oneBoundary

/-- How many boundaries have been reached since the last that passed (R306). -/
def State.reached (s : State) : Nat := if s.mer.next = 0 ∨ s.now < s.mer.next then 0 else (s.now - s.mer.next) / (s.mer.len * 1000) + 1

/-- The block comes to what its time has reached: before an instant acts every fallow unit wakes (R46, R49, R304), and the boundaries that no
slot precedes pass (R303, R306). -/
def State.toInstant (s : State) : State :=
  let s := if (List.range 16).any s.ripe then s.wakeAll else s
  State.boundaries s.reached s

/-! ### Instant slots (R294 to R305) -/

/-- Minimum lead time in ns (R296). -/
def leadNs : Nat → Nat
  | 0 => 10000
  | 1 => 50000
  | _ => 500000

/-- The block's twin is not present (R315, R381). -/
def State.noTwin (s : State) : Bool := s.twin.st != .paired

/-- The scope is allowed for the kind and parameter (R295, R306, R308, R315). -/
def State.scopeOk (s : State) (kind scope param : Nat) : Bool :=
  match kind with
  | 1 => scope == 2 || (scope == 1 && !s.mer.member) || (scope == 0 && !s.mer.member && s.twin.st != .paired)
  | 2 => if bitN param 9 then scope == 2 else (scope == 1 && s.twin.st == .paired) || (scope == 0 && s.noTwin)
  | 3 | 5 | 6 | 8 => scope < 2
  | 4 => scope == 0
  | 7 | 9 => scope == 1
  | _ => false

/-- The parameter has the form that the kind asks for (R295, R306, R506). -/
def State.paramOk (s : State) (kind param : Nat) : Bool :=
  match kind with
  | 1 => 10 ≤ param && param ≤ 10000
  | 4 => param % 2 == 1 || !(s.rch.planeOut.any fun x => x.2 != 0)
  | _ => true

/-- Why arming is refused (R297, R315, R380): REASON and the status of R640. -/
def State.armCheck (s : State) (kind scope param time lead : Nat) : Option (Nat × Nat) :=
  if kind = 0 ∨ 9 < kind ∨ !s.scopeOk kind scope param ∨ !s.paramOk kind param ∨ ((kind = 1 ∨ kind = 2) ∧ !s.mer.onBoundary time) then some (1, 4)
  else if time < s.now + lead then some (0, 4)
  else if (scope = 2 ∧ !(s.mer.domOk && s.mer.domainAble)) ∨ (scope = 1 ∧ (!s.mer.exch || s.twin.st == .unpaired)) then some (1, 7)
  else if kind = 2 ∧ !((s.plateParts param).all fun p => s.plateRoom p (param / 64 % 8)) then some (1, 8)
  else none

/-- The 16-byte instant reply (R640). -/
def State.instReply (s : State) (k : Nat) : List Byte := leBytes 8 k ++ leBytes 8 (s.slot k).time

/-- The pending-enable entry of a PART_ENABLE whose slot ends without acting is free again (R642). -/
def State.dropPend (s : State) (x : Slot) : State :=
  match x.by' with
  | .mailbox _ => if x.kind = 6 then s.onBlk fun b => { b with pend := Tbl.del b.pend (x.param % 64) } else s
  | _ => s

/-- A TRACT_COMMIT slot that ends without acting leaves its batch's moves copied, for a later batch (R459; DESIGN CHOICE,
log 59). -/
def State.reopenBatch (s : State) (x : Slot) : State :=
  if x.kind = 5 then
    s.onPlace fun q => { q with moves := q.moves.map fun v =>
      if v.batch = x.param ∧ v.own = (x.by' != .peer) ∧ v.phase = .commit then { v with phase := .copied } else v }
  else s

/-- A slot ends (R305); the mailbox command that waits for it completes with the outcome (R640). `st` and `reason` as
R330 numbers them. -/
def State.endSlot (s : State) (k : Nat) (st : SlotSt) (reason : Nat) : State :=
  let x := s.slot k
  let s := (s.onSlot k fun x => { x with st := st, reason := reason }).countSlot st
  let s := if (x.st = .armed ∨ x.st = .confirmed) ∧ x.time ≤ s.now + 20000 then s.wakeAll else s
  let s := if st = SlotSt.done then s else ((if x.kind = 2 then s.plateDrop k x.param else s).dropPend x).reopenBatch x
  let s := match s.waitOf (.slot k) with
    | some mb => s.mbxDone mb (if reason = 2 then 7 else if reason = 3 then 6 else 4) [] reason
    | none => s
  s.onSlot k Slot.clear

/-- The slot becomes CONFIRMED; the mailbox command that waits for it completes (R298, R299, R640). -/
def State.confirmSlot (s : State) (k : Nat) : State :=
  let s := s.onSlot k fun x => { x with st := .confirmed }
  match s.waitOf (.slot k) with
  | some mb => s.mbxDone mb 0 (s.instReply k) 0xFFFFFFFF
  | none => s

/-- The slot has ended (R305). -/
def Slot.ended (x : Slot) : Bool := x.st == .done || x.st == .cancelled || x.st == .rejected || x.st == .abandoned

/-- The slot here for the twin's slot `k` (R298). -/
def State.peerSlot (s : State) (k : Nat) : Option Nat :=
  (List.range 16).find? fun j => (s.slot j).arm && (s.slot j).peer == some k && !(s.slot j).ended

/-- The slot here of a domain-scope slot (R299). -/
def State.keySlot (s : State) (key : Nat) : Option Nat :=
  (List.range 16).find? fun j => (s.slot j).arm && (s.slot j).scope == 2 && s.slotKey j == key && !(s.slot j).ended

/-- An IDLE slot: the one asked for, or the lowest. -/
def State.idleSlot (s : State) (k : Nat) : Option Nat :=
  if (s.slot k).arm then (List.range 16).find? fun j => !(s.slot j).arm else some k

/-! ### The domain root (R291, R299, R300) -/

/-- A message from the root to every participating pair but its own. -/
def State.sendDown (s : State) (f : Nat → Out) : State := State.each (fun p s => s.send (f p)) (s.domPairs.filter (· != s.mer.pair)) s

/-- CONFIRMED of a domain-scope slot reaches the block, which passes it to its twin (R299). -/
def State.confirmDown (s : State) (key : Nat) : State :=
  match s.keySlot key with
  | some j =>
    if (s.slot j).st = .armed then
      let s := s.confirmSlot j
      if s.twin.st = .paired then s.toTwin (.slotAck j .confirmed) else s
    else s
  | none => s

/-- REASON of a cancelled slot (R330): cancelled on request, or unconfirmed. -/
def cancelReason (asked : Bool) : Nat := if asked then 3 else 2

/-- A slot's cancel goes to the twin, by the number that the sender gave it (R298, R301). -/
def State.cancelTwin (s : State) (k : Nat) (asked : Bool) : State :=
  s.toTwin (match (s.slot k).peer with | some j => .slotCancel true j asked | none => .slotCancel false k asked)

/-- A cancel of a domain-scope slot reaches the block, which passes it to its twin (R301). -/
def State.cancelDown (s : State) (key : Nat) (asked : Bool) : State :=
  match s.keySlot key with
  | some j => (if s.twin.st = .paired then s.cancelTwin j asked else s).endSlot j .cancelled (cancelReason asked)
  | none => s

/-- The root cancels a domain-scope slot in every pair (R299, R301). -/
def State.rootDrop (s : State) (key : Nat) (asked : Bool) : State :=
  ((s.onMer fun m => { m with rootSlots := Tbl.del m.rootSlots key }).sendDown fun p => .downCancel p key asked).cancelDown key asked

/-- A pair's confirmation of a domain-scope slot, or its refusal, at the root: CONFIRMED goes down when every pair has confirmed (R299). -/
def State.rootConf (s : State) (block key : Nat) (ok : Bool) (eps : Nat) : State :=
  let s := s.onMer fun m => { m with rootEps := Tbl.set m.rootEps block eps }
  match Tbl.find s.mer.rootSlots key with
  | some r =>
    if !ok then s.rootDrop key false
    else
      let r := { r with conf := insertNat (block / 2) r.conf }
      let all := s.domPairs.all fun p => r.conf.contains p
      let s := s.onMer fun m => { m with rootSlots := Tbl.set m.rootSlots key { r with down := r.down || all } }
      if all && !r.down then (s.sendDown fun p => .downConf p key).confirmDown key else s
  | none => s

/-- The pair's answer to a domain-scope slot goes up the tree, with the block's ε (R291, R299). -/
def State.confUp (s : State) (key : Nat) (ok : Bool) : State :=
  if s.mer.root then s.rootConf s.domId key ok s.eps else s.send (.rootConf key ok s.eps)

/-- A domain-scope slot reaches the designated block of its pair (R299): the slot that stands for it already, or an IDLE one under the checks of
R298; it goes to the twin as a twin-scope slot does, or is confirmed at once by a block without its twin. -/
def State.armDown (s : State) (key : Nat) (x : Slot) : State :=
  let go := fun (j : Nat) (s : State) => if s.twin.st = .paired then s.toTwin (.slot j { s.slot j with key := some key }) else s.confUp key true
  match s.keySlot key with
  | some j => go j s
  | none =>
    match s.idleSlot (key % 16) with
    | none => s.confUp key false
    | some j =>
      match s.armCheck x.kind 2 x.param x.time 10000 with
      | some _ => s.confUp key false
      | none =>
        let s := s.onSlot j fun _ => { x with scope := 2, arm := true, st := .armed, reason := 0, by' := .peer, peer := none, key := some key }
        let s := s.order { tag := j }
        go j (if x.kind = 2 then s.plateArm j x.param x.time else s)

/-- The root takes a domain-scope slot from the block that armed it, and sends it to every participating pair (R299). -/
def State.rootTake (s : State) (key : Nat) (x : Slot) : State :=
  let s := s.onMer fun m => { m with rootSlots := Tbl.set m.rootSlots key ⟨x, [], [], false⟩ }
  (s.sendDown fun p => .downSlot p key x).armDown key x

/-- Arm slot `k`, whose fields have been written (R297 to R299): rejected, or ARMED and sent the way of its scope. The lead
time is `lead`. Answers the status of R640 when rejected. -/
def State.armSlot (s : State) (k lead : Nat) : Option Nat × State :=
  let x := s.slot k
  match s.armCheck x.kind x.scope x.param x.time lead with
  | some (reason, st) => (some st, (s.onSlot k fun x => { x with arm := true }).endSlot k .rejected reason)
  | none =>
    let s := s.onSlot k fun x => { x with arm := true, st := .armed, reason := 0, key := if x.scope = 2 then some (s.domId * 16 + k) else none }
    let s := (if x.kind = 2 then s.plateArm k x.param x.time else s).order { tag := k }
    (none,
      if x.scope = 1 then s.toTwin (.slot k x)
      else if x.scope = 2 then if s.mer.root then s.rootTake (s.slotKey k) (s.slot k) else s.send (.rootSlot (s.slotKey k) (s.slot k) s.eps)
      else s)

/-- INSTANT_ARM (R297): ARM set in the control register of an IDLE slot. -/
def execInstantArm (t : Ns) (k : SlotId) (s : State) : Host.Outcome State Fault Refusal :=
  let s := s.tick t
  let x := s.slot k.val
  .next (if x.arm then s else ((s.onSlot k.val fun x => { x with by' := .register, peer := none, key := none }).armSlot k.val (leadNs x.scope)).2)

/-- A write to the Meridian unit is ignored and counted (R305, R327, R679). -/
def State.ignMer (s : State) (off : Nat) : State :=
  let s := s.bumpMer 7 48 16
  { s with ignLast := Tbl.set s.ignLast 0x010014 off }

/-- ARM is cleared (R305): an ended slot returns to IDLE; while ARMED or CONFIRMED the write is ignored and counted. -/
def State.disarm (s : State) (k : Nat) : State :=
  let x := s.slot k
  if x.ended then s.onSlot k fun x => { x with arm := false, st := .idle, reason := 0 }
  else if x.arm then s.ignMer (0x010100 + 16 * k)
  else s

/-- INSTANT_DISARM (R305). -/
def execInstantDisarm (t : Ns) (k : SlotId) (s : State) : Host.Outcome State Fault Refusal := .next ((s.tick t).disarm k.val)

/-- TWIN_SLOT_RECEIVE (R298): a slot of the same content under the same checks, with 10 µs of lead; acknowledged or refused. A domain-scope slot
that stands here already is that slot (R299). -/
def execTwinSlotReceive (t : Ns) (k : PeerSlot) (kind : BitVec 4) (scope : BitVec 2) (param : BitVec 16) (time : Quad) (s : State) :
    Host.Outcome State Fault Refusal :=
  let s := (s.tick t).frame
  let x : Slot := ⟨kind.toNat, scope.toNat, true, .armed, 0, param.toNat, time.toNat, .peer, some k.num.val, k.key.map Fin.val⟩
  .next (match if x.scope = 2 then x.key.bind s.keySlot else none with
    | some j => (s.onSlot j fun y => { y with peer := some k.num.val }).toTwin (.slotAck k.num.val .ack)
    | none =>
      match s.idleSlot k.num.val with
      | none => s.toTwin (.slotAck k.num.val .refuse)
      | some j =>
        if (s.armCheck x.kind x.scope x.param x.time 10000).isSome then s.toTwin (.slotAck k.num.val .refuse)
        else
          let s := s.onSlot j fun _ => x
          (if x.kind = 2 then s.plateArm j x.param x.time else s).toTwin (.slotAck k.num.val .ack))

/-- A slot is cancelled for want of a confirmation (R298, R299), a twin-scope slot in both blocks: the CANCEL event; a command 10 ms past its
acceptance completes with status 0x06 (R640). -/
def State.unconfirmed (s : State) (k : Nat) : State :=
  let s := if (s.slot k).scope = 1 then s.cancelTwin k false else s
  let s := match s.waitOf (.slot k) with
    | some mb => if (s.box mb).acceptAt + 10000000 ≤ s.time then s.mbxDone mb 6 [] 2 else s
    | none => s
  ((s.endSlot k .cancelled 2).raise (srcMer 4) (256 + 298) 0 0 k)

/-- TWIN_SLOT_ACK (R298): the twin's acknowledgement or refusal of a slot sent to it, or the news that its own slot's acknowledgement has
arrived. A domain-scope slot is confirmed up the tree (R299). -/
def execTwinSlotAck (t : Ns) (k : SlotId) (ans : SlotAns) (s : State) : Host.Outcome State Fault Refusal :=
  let s := (s.tick t).frame
  let x := s.slot k.val
  .next (match ans with
    | .ack =>
      if x.arm ∧ x.st = .armed ∧ x.scope = 1 then (s.confirmSlot k.val).toTwin (.slotAck k.val .confirmed)
      else if x.arm ∧ x.st = .armed ∧ x.scope = 2 then s.confUp (s.slotKey k.val) true
      else s
    | .refuse =>
      if x.arm ∧ x.st = .armed ∧ x.scope = 1 then s.unconfirmed k.val
      else if x.arm ∧ x.st = .armed ∧ x.scope = 2 then (s.confUp (s.slotKey k.val) false)
      else s
    | .confirmed =>
      match s.peerSlot k.val with
      | some j => if (s.slot j).st = .armed then s.confirmSlot j else s
      | none => s)

/-- SLOT_CONFIRM_DEADLINE (R298, R299): 10 µs before the instant for twin scope, 50 µs for domain scope. -/
def execSlotConfirmDeadline (t : Ns) (k : SlotId) (s : State) : Host.Outcome State Fault Refusal :=
  let s := s.tick t
  let x := s.slot k.val
  .next (if x.arm ∧ x.st = .armed ∧ 0 < x.scope ∧ x.time ≤ s.now + (if x.scope = 1 then 10000 else 50000) then s.unconfirmed k.val else s)

/-- DOMAIN_SLOT_RECEIVE (R299): at the root, a slot from the block that armed it; at the designated block of a pair, a slot from the root. -/
def execDomainSlotReceive (t : Ns) (k : TreeSlot) (kind : BitVec 4) (param : BitVec 16) (time : Quad) (s : State) :
    Host.Outcome State Fault Refusal :=
  let s := s.tick t
  let x : Slot := ⟨kind.toNat, 2, false, .idle, 0, param.toNat, time.toNat, .peer, none, some k.key.val⟩
  .next (if k.down then s.armDown k.key.val x else if s.mer.root then s.rootTake k.key.val x else s)

/-- DOMAIN_SLOT_CONFIRM (R299): the root's CONFIRMED for a domain-scope slot. -/
def execDomainSlotConfirm (t : Ns) (key : Fin 512) (s : State) : Host.Outcome State Fault Refusal := .next ((s.tick t).confirmDown key.val)

/-- Cancel an armed slot (R301): refused once no more than the scope's lead time remains; sent the way the slot was sent. -/
def State.cancelSlot (s : State) (k : Nat) : Bool × State :=
  let x := s.slot k
  if x.arm ∧ (x.st = .armed ∨ x.st = .confirmed) ∧ s.now + leadNs x.scope < x.time then
    let key := s.slotKey k
    (true,
      if x.scope = 1 then (s.cancelTwin k true).endSlot k .cancelled 3
      else if x.scope = 2 then if s.mer.root then s.rootDrop key true else (s.send (.rootCancel key)).cancelDown key true
      else s.endSlot k .cancelled 3)
  else (false, s)

/-- SLOT_CANCEL_RECEIVE (R301): the twin cancels a slot by either number; a domain-scope cancel goes down from the root, and each block passes it
to its twin. -/
def execSlotCancelReceive (t : Ns) (v : SlotRef) (s : State) : Host.Outcome State Fault Refusal :=
  let s := s.tick t
  .next (match v with
    | .sent k asked =>
      let s := s.frame
      match s.peerSlot k.val with
      | some j => s.endSlot j .cancelled (cancelReason asked)
      | none => s
    | .own k asked => let s := s.frame; if (s.slot k.val).arm && !(s.slot k.val).ended then s.endSlot k.val .cancelled (cancelReason asked) else s
    | .domain key asked => if s.mer.root then s.rootDrop key.val asked else s.cancelDown key.val asked)

/-- A slot acts before another (R303): at an earlier time; at one time, of a lower kind; of one kind, with a lower number. -/
def Slot.before (x : Slot) (j : Nat) (y : Slot) (k : Nat) : Bool :=
  x.time < y.time || (x.time == y.time && (x.kind < y.kind || (x.kind == y.kind && j < k)))

/-- The slot of a kind whose instant has come, once every slot that acts before it has acted (R294, R303). -/
def State.due (s : State) (k kind : Nat) : Option Slot :=
  let x := s.slot k
  if s.ripe k && x.kind == kind && !((List.range 16).any fun j => s.ripe j && (s.slot j).before j x k) then some x else none

/-- R302: the twin is lost: CONFIRMED twin-scope slots of kinds that a solo block does not carry out are abandoned; an unconfirmed one is cancelled at
its deadline (R298). -/
def State.abandonSlots (s : State) : State :=
  State.each (fun k s =>
    let x := s.slot k
    if x.arm && x.st == .confirmed && x.scope == 1 && (x.kind == 7 || x.kind == 9) then s.endSlot k .abandoned 0 else s) (List.range 16) s

/-! ### Instants of the Meridian unit and the counters -/

/-- EPOCH_LEN_INSTANT (R306): its own time becomes the anchor, with the number that the epoch beginning there would have had. -/
def execEpochLenInstant (t : Ns) (k : SlotId) (s : State) : Host.Outcome State Fault Refusal :=
  let s := (s.tick t).toInstant
  .next (match s.due k.val 1 with
    | some x =>
      let n := s.mer.numberAt x.time
      (s.onMer fun m => { m with len := x.param, anchor := x.time, anchorNum := n, cur := n, next := x.time + x.param * 1000 }).slotDone k.val
    | none => s)

/-- SNAPSHOT_INSTANT (R324, R513, R682, R683): every counter copies into its holding register and, when asked, restarts from
zero; the statistics banks change roles. The holding registers in the window of a fenced unit keep what they held (R676). -/
def execSnapshotInstant (t : Ns) (k : SlotId) (s : State) : Host.Outcome State Fault Refusal :=
  let s := (s.tick t).toInstant
  .next (match s.due k.val 3 with
    | some x =>
      let clear := x.param % 2 == 1
      let kept := s.holding.filter fun h => s.keyFenced h.1
      let s := { s with holding := kept.foldl (fun t (h : Nat × Nat) => Tbl.set t h.1 h.2) (s.live.filter fun h => !s.keyFenced h.1), live := if clear then [] else s.live }
      let s := if clear then s.allStks fun q => { q with ceLost := 0 } else s
      let s := s.onRch fun r => { r with frozen := r.stats, stats := if clear then [] else r.stats }
      let s := s.onBlk fun b => { b with snapValid := true, snapTime := x.time }
      (s.bump 0x0A0A90 0 32 1).slotDone k.val
    | none => s)

/-- SEALED_EPOCH_PERSIST (R309): the pair-sealed epoch number goes to the map region. -/
def execSealedEpochPersist (t : Ns) (s : State) : Host.Outcome State Fault Refusal :=
  let s := s.tick t
  .next (s.onMer fun m => { m with persisted := m.pairSealed, persistAt := s.now })

/-! ### Mailbox commands that arm an instant (R640) -/

/-- The lowest IDLE slot. -/
def State.anySlot (s : State) : Option Nat := (List.range 16).find? fun j => !(s.slot j).arm

/-- The time that an INSTANT field asks for (R640): 0 is the scope's lead time plus 10 µs after acceptance, rounded up to an
epoch boundary for kinds that need one. -/
def State.instTime (s : State) (kind scope inst : Nat) : Nat :=
  if inst ≠ 0 then inst
  else
    let x := s.now + leadNs scope + 10000
    if kind = 1 ∨ kind = 2 then s.mer.boundaryFrom x else x

/-- Arm an IDLE slot for a mailbox command (R640): the reply at once at block scope, or once CONFIRMED. -/
def State.instCmd (s : State) (mb kind scope param inst : Nat) : Reply × State :=
  match s.anySlot with
  | none => (.done 8 [], s)
  | some k =>
    let s := s.onSlot k fun _ => ⟨kind, scope, false, .idle, 0, param, s.instTime kind scope inst, .mailbox mb, none, none⟩
    let r := s.armSlot k (leadNs scope)
    match r.1 with
    | some st => (.detail st (r.2.slot k).reason, r.2)
    | none => if scope = 0 then (.done 0 (r.2.instReply k), r.2) else (.wait (.slot k), r.2)

/-- INSTANT_CANCEL (R301, R654). -/
def execInstantCancel (t : Ns) (c : Mbx) (s : State) : Host.Outcome State Fault Refusal :=
  .next ((s.tick t).command c 0xC193 (CmdKind.plain false 1) fun s =>
    if 15 < mbByte c 0 then (.detail 4 0, s)
    else
      let r := s.cancelSlot (mbByte c 0)
      (.done (if r.1 then 0 else 7) [], r.2))

/-- STATE of a slot (R330). -/
def SlotSt.code : SlotSt → Nat
  | .idle => 0
  | .armed => 1
  | .confirmed => 2
  | .done => 3
  | .cancelled => 4
  | .rejected => 5
  | .abandoned => 6

/-- NCH_MER_INST_CTL (R330). -/
def Slot.ctl (x : Slot) : Nat := x.kind + 16 * x.scope + 64 * b2n x.arm + 128 * x.st.code + 1024 * x.reason + 4096 * x.param

/-- INSTANT_LIST (R654). -/
def execInstantList (t : Ns) (c : Mbx) (s : State) : Host.Outcome State Fault Refusal :=
  .next ((s.tick t).command c 0xC194 (CmdKind.plain false 0) fun s =>
    (.done 0 (((List.range 16).map fun k => leBytes 4 (s.slot k).ctl ++ zeros 4 ++ leBytes 8 (s.slot k).time).flatten), s))

/-- SNAPSHOT (R652). -/
def execSnapshot (t : Ns) (c : Mbx) (s : State) : Host.Outcome State Fault Refusal :=
  .next ((s.tick t).command c 0xC170 { CmdKind.plain false 16 with rsv := [2, 3, 4, 5, 6, 7] } fun s =>
    if 1 < mbByte c 0 then (.detail 4 0, s)
    else if 1 < mbByte c 1 then (.detail 4 1, s)
    else s.instCmd c.mb.val 3 (mbByte c 1) (mbByte c 0) (mbLe c 8 8))

/-- EPOCH_LEN (R646, R308). -/
def execEpochLen (t : Ns) (c : Mbx) (s : State) : Host.Outcome State Fault Refusal :=
  .next ((s.tick t).command c 0xC126 { CmdKind.plain false 16 with rsv := [5, 6, 7] } fun s =>
    let l := mbLe c 0 4
    if l < 10 ∨ 10000 < l then (.detail 4 0, s)
    else if 2 < mbByte c 4 ∨ !s.scopeOk 1 (mbByte c 4) l then (.detail 4 4, s)
    else s.instCmd c.mb.val 1 (mbByte c 4) l (mbLe c 8 8))

/-- PLATE_EXPOSE (R646, R315): twin scope while PAIRED, domain scope for a group, else block scope. -/
def execPlateExpose (t : Ns) (c : Mbx) (s : State) : Host.Outcome State Fault Refusal :=
  .next ((s.tick t).command c 0xC120 { CmdKind.plain true 16 with rsv := [3, 4, 5, 6, 7] } fun s =>
    let x := mbByte c 0
    let g := mbByte c 1 % 2 == 1
    let j := mbByte c 2
    let mb := c.mb.val
    let param := x % 64 + 64 * j + 512 * b2n g
    if g ∧ mb < 64 then (.done 2 [], s)
    else if 1 < mbByte c 1 then (.detail 4 1, s)
    else if 63 < x then (.detail 4 0, s)
    else if mb < 64 ∧ x ≠ mb then (.detail 2 0, s)
    else if 7 < j then (.detail 4 2, s)
    else if g ∧ ((Tbl.find s.groups x).isNone ∨ !s.mer.domOk) then (.done 7 [], s)
    else if (s.plateParts param).any (fun p => (s.part p).st == .free || (s.part p).live.any fun y => y.1 == j) then (.done 7 [], s)
    else s.instCmd mb 2 (if g then 2 else if s.twin.st = .paired then 1 else 0) param (mbLe c 8 8))

/-- ROLE_MOVE (R649, R416): of a partition that is PRIMARY here, in a PAIRED block, with no role move of it armed. -/
def execRoleMove (t : Ns) (c : Mbx) (s : State) : Host.Outcome State Fault Refusal :=
  .next ((s.tick t).command c 0xC143 { CmdKind.plain false 16 with rsv := [1, 2, 3, 4, 5, 6, 7], part := some 0 } fun s =>
    let p := mbByte c 0
    let armed := (List.range 16).any fun k => (s.slot k).arm && !(s.slot k).ended && (s.slot k).kind == 7 && (s.slot k).param % 64 == p
    if s.twin.st ≠ .paired ∨ !bitN s.twin.roles.toNat p ∨ armed ∨ (Tbl.find s.twin.moves p).isSome then (.done 7 [], s)
    else s.instCmd c.mb.val 7 1 p (mbLe c 8 8))

end Sys2Proof.Machine
end

