-- ==== Sys2Proof/Machine/Parts.lean ====
section
/-! DEFINITION. Partitions and host ports as their commands and registers configure them: the configuration block (R641),
the ranges of R59 and R57, ENABLE (R60, R61, R63, R65), the stop of R68, membership and credits (R70, R129). -/

namespace Sys2Proof.Machine

/-- The configuration block of an input payload at offset `o` (R641). -/
def cfgOf (c : Mbx) (o : Nat) : PartCfg :=
  { dataBase := BitVec.ofNat 18 (mbLe c (o + 4) 4), dataSize := BitVec.ofNat 18 (mbLe c (o + 8) 4), winBase := BitVec.ofNat 18 (mbLe c (o + 12) 4),
    winSlots := BitVec.ofNat 4 (mbByte c (o + 2)), visMode := mbByte c (o + 1) % 2 == 1, wayMask := BitVec.ofNat 16 (mbLe c (o + 16) 2),
    trkMin := BitVec.ofNat 7 (mbByte c (o + 18)), trkMax := BitVec.ofNat 10 (mbLe c (o + 20) 2), cqMax := BitVec.ofNat 8 (mbByte c (o + 19)),
    filterMin := BitVec.ofNat 16 (mbLe c (o + 22) 2), filterMax := BitVec.ofNat 16 (mbLe c (o + 24) 2),
    priority := BitVec.ofNat 3 (mbByte c (o + 3)), fastQuota := BitVec.ofNat 16 (mbLe c (o + 26) 2), hold := mbByte c (o + 30) % 2 == 1 }

/-- The offset of the first field of the block outside its range of R59, if any. -/
def cfgBad (c : Mbx) : Option Nat :=
  ([(1, 1 < mbByte c 1), (2, 8 < mbByte c 2), (3, 7 < mbByte c 3), (4, 262143 < mbLe c 4 4), (8, 262143 < mbLe c 8 4), (12, 262143 < mbLe c 12 4),
    (18, 64 < mbByte c 18), (19, mbByte c 19 < 8 ∨ 128 < mbByte c 19), (20, mbLe c 20 2 < 1 ∨ 512 < mbLe c 20 2), (22, 8192 < mbLe c 22 2),
    (24, mbLe c 24 2 < 1 ∨ 32768 < mbLe c 24 2), (30, 1 < mbByte c 30)] : List (Nat × Bool)).find? (fun x => x.2) |>.map Prod.fst

/-- The bytes of the configuration block (R641). -/
def Part.cfgBytes (q : Part) (p : Nat) : List Byte :=
  let g := q.cfg
  leBytes 1 p ++ leBytes 1 (b2n g.visMode) ++ leBytes 1 g.winSlots.toNat ++ leBytes 1 g.priority.toNat ++ leBytes 4 g.dataBase.toNat
    ++ leBytes 4 g.dataSize.toNat ++ leBytes 4 g.winBase.toNat ++ leBytes 2 g.wayMask.toNat ++ leBytes 1 g.trkMin.toNat ++ leBytes 1 g.cqMax.toNat
    ++ leBytes 2 g.trkMax.toNat ++ leBytes 2 g.filterMin.toNat ++ leBytes 2 g.filterMax.toNat ++ leBytes 2 g.fastQuota.toNat
    ++ leBytes 2 q.reserve ++ leBytes 1 (b2n g.hold) ++ zeros 1

/-! ### Ranges (R57) -/

/-- The granule ranges of a configuration: data and window, as first and length. -/
def PartCfg.ranges (g : PartCfg) : List (Nat × Nat) :=
  let n := g.dataSize.toNat + 1
  [(g.dataBase.toNat, n), (g.winBase.toNat, min 8 g.winSlots.toNat * n)].filter fun r => r.2 != 0

/-- Two granule ranges share a granule. -/
def rangesMeet (a b : Nat × Nat) : Bool := a.1 < b.1 + b.2 && b.1 < a.1 + a.2

/-- R57: the ranges of a configuration overlap one another or another configured partition's, or pass the end. -/
def State.rangeClash (s : State) (p : Nat) (g : PartCfg) : Bool :=
  let mine := g.ranges
  let rest := (s.parts.filter fun x => x.1 != p && x.2.st != .free).map fun x => x.2.cfg.ranges
  mine.any (fun r => 262144 < r.1 + r.2)
    || (match mine with
        | [a, b] => rangesMeet a b
        | _ => false)
    || mine.any fun r => rest.any fun l => l.any fun o => rangesMeet r o

/-! ### ENABLE (R60 to R65) -/

/-- The partitions that are ENABLED. -/
def State.enabledParts (s : State) : List Part := (s.parts.filter fun x => x.2.st == .enabled).map Prod.snd

/-- R60: enabling the partition would raise the sum of TRK_MIN above 448. -/
def State.trkOver (s : State) (p : Nat) : Bool := 448 < sumOf (fun (q : Part) => q.cfg.trkMin.toNat) s.enabledParts + (s.part p).cfg.trkMin.toNat

/-- R61: enabling the partition would raise the sum of FILTER_MIN above 16,384. -/
def State.fltOver (s : State) (p : Nat) : Bool :=
  16384 < sumOf (fun (q : Part) => q.cfg.filterMin.toNat) s.enabledParts + (s.part p).cfg.filterMin.toNat

/-- The requests of a partition that the intake ports hold are sent on, in arrival order (R66). -/
def State.unhold (s : State) (p : Nat) : State :=
  let held := (s.intakes.map fun x => (x.2.kept.filter fun k => k.req.part == p && k.st == .held).map fun k => (x.1, k.req.tag)).flatten
  let s := State.each (fun x s => (s.launch x.1 x.2).holdStore x.1) held s
  s.onPart p fun q => { q with heldSince := none, holdEv := false }

/-- ENABLE set at an instant (R57, R60, R61, R63): refused with its status bit, or the partition is ENABLED and its held
requests go on; CFG_OPEN is clear from then on (R580), and the directory-close record is invalid (R226). -/
def State.setEnable (s : State) (p : Nat) : State :=
  let q := s.part p
  let s := s.onPart p fun q => { q with overlap := false, trkRes := false, fltRes := false }
  if s.rangeClash p q.cfg then (s.onPart p fun q => { q with overlap := true }).raise (srcFw 0) (256 + 57) 0 p 0
  else if s.trkOver p then (s.onPart p fun q => { q with trkRes := true }).raise (srcFw 0) (256 + 60) 0 p 0
  else if s.fltOver p then (s.onPart p fun q => { q with fltRes := true }).raise (srcFw 0) (256 + 61) 0 p 0
  else
    let s := { s with dirGen := { s.dirGen with close := false } }
    ((s.onPart p fun q => { q with st := .enabled, drained := false, wasEnabled := true }).onWin fun w => { w with cfgOpen := false }).unhold p

/-- ENABLE cleared at an instant (R63, R65). -/
def State.clearEnable (s : State) (p : Nat) : State :=
  if (s.part p).st = .enabled then (s.onPart p fun q => { q with st := .draining, drained := false }).drainPart p else s

/-! ### The stop of R68 -/

/-- R372: the partition's outstanding barriers are discarded, with the ticket writes that have not settled; an administrative one ends with BG_STATUS
0x05. A ticket write that has taken its settle sequence is one that its line's order and the twin hold already, and settles (DESIGN CHOICE, log 59). -/
def State.dropBarriers (s : State) (p : Nat) : State :=
  let mine := fun (q : Intake) (id : Nat) => q.bars.any fun b => b.id == id && b.part == p
  let late := (s.intakes.map fun x => (x.2.kept.filter fun k =>
    match k.own with
    | .ticket id => mine x.2 id && !((s.slc k.slice).front.pends.any fun w => w.tags.contains (x.1, k.req.tag))
    | _ => false).map fun k => (x.1, k.req.tag)).flatten
  let s := State.each (fun (x : Nat × Nat) s => s.unkeep x.1 x.2) late s
  let s := s.allIps fun q => { q with bars := q.bars.filter fun b => b.part != p || q.kept.any fun k => k.own == .ticket b.id }
  State.each (fun x s =>
    let b : Barrier := x.2
    if b.part = p then ({ s with adminBars := Tbl.del s.adminBars x.1 }).bgEnd x.1 5 [] else s) s.adminBars s

/-- Winnow stops a partition at class CONTAINED (R68): ENABLE clears at once, held requests fail, barriers are discarded, and
the partition's Failure log takes a record (R135). -/
def State.stopPart (s : State) (p recno : Nat) : State :=
  let s := s.onPart p fun q => { q with st := .stopped, drained := false, heldSince := none, holdEv := false }
  let held := (s.intakes.map fun x => (x.2.kept.filter fun k => k.req.part == p && k.st == .held).map fun k => (x.1, k)).flatten
  let s := State.each (fun x s => (s.failKept x.1 x.2).holdStore x.1) held s
  let s := (s.dropBarriers p).record p 2 (.stopped recno)
  s.drainPart p

/-! ### Host ports (R69, R70, R129) -/

/-- R70: a bit of an ENABLED partition would change. -/
def State.membClash (s : State) (h : Nat) (memb : Quad) : Bool :=
  (List.range 64).any fun p => bitN (memb ^^^ (s.hp h).memb).toNat p && (s.part p).st == .enabled

/-- R129: enabling the host port with this binding and these credits would raise a sum above its limit. -/
def State.credOver (s : State) (h i req rwd : Nat) : Bool :=
  let others := (s.hosts.filter fun x => x.1 != h && x.2.enable && x.2.intake == i).map Prod.snd
  4096 < sumOf (fun (q : HostPort) => q.reqCr + q.rwdCr) others + req + rwd || 2048 < sumOf (fun (q : HostPort) => q.rwdCr) others + rwd

/-- Every slice puts in doubt each line that its filter records in E under a pointer naming the host port (R228). -/
def State.doubtHost (s : State) (h n : Nat) : State :=
  let hits := ((s.slc n).banks.flt.filter fun x => x.2.valid).map fun x =>
    (x.1, x.2, below 16 fun i => x.2.state i == 2 && !x.2.fmt && x.2.ptr (x.2.idx i) == h)
  State.each (fun (x : Nat × FEntry × List Nat) s =>
    if x.2.2.isEmpty then s
    else
      let base := sheafBase n (x.1 / 16) x.2.1.tag
      let s := State.each (fun i s => (s.dirWrite n (base + i) 3 0x3FF false none none).2) x.2.2 s
      let e := (x.2.2.foldl (fun e i => FEntry.setState e i 3) x.2.1).norm
      s.onBanks n fun b => { b with flt := Tbl.set b.flt x.1 e }) hits s

/-- R228: host port `h` joins the restored vector of every slice, and what it may hold in E is in doubt. -/
def State.restoreHost (s : State) (h : Nat) : State :=
  let s := State.each (fun n s => (s.doubtHost h n).onBanks n fun b => { b with restored := insertNat h b.restored }) (List.range 128) s
  (s.onHp h fun q => { q with unresp := false }).onPlace fun q => { q with restored := Tbl.set q.restored h q.pass }

/-- R225, R218: the quiet generations of the partition become DG, in the generation record and at the twin. -/
def State.applyQuiet (s : State) (p : Nat) : State :=
  let s := (State.each (fun n s => { s with dirGen := { s.dirGen with q := Tbl.set s.dirGen.q (p * 128 + n) (s.dg n) } }) (List.range 128) s).saveGen
  State.each (fun n s => s.mirrorGen n) (List.range 128) s

end Sys2Proof.Machine
end

