-- ==== Sys2Proof/Machine/Internal.lean ====
section
/-! DEFINITION. The internal entries of a slice (R137, R166, R374 to R379): tract-move copies (R459 to R461, R378), correction
write-backs (R522), patrol scrub (R538, R539, R222) and the reads of the resynchronisation walk (R412). -/

namespace Sys2Proof.Machine

/-! ### Entries -/

/-- The entry works for patrol scrub: its reads and correction write-backs (R137, R522). -/
def EKind.scrubShare : EKind → Bool
  | .scrub | .correct => true
  | _ => false

/-- A free internal entry for a kind (R137): at most 16 for patrol scrub and correction write-backs; the moves and the walk
share the 112 others (log 14); none after a power-fail warning (R599 step 1). -/
def State.freeInt (s : State) (n : Nat) (k : EKind) : Option Nat :=
  let l := (s.slc n).front.ents
  let used := fun (b : Bool) => (l.filter fun x => 512 ≤ x.1 && x.1 < 640 && x.2.kind.scrubShare == b).length
  if s.pwr.fail.isSome then none
  else if k.scrubShare then (if 16 ≤ used true then none else Tbl.free l 512 128)
  else if 112 ≤ used false then none
  else Tbl.free l 512 128

/-- A tracker entry as it is allocated to a request: in LOOKUP; a window read has no record to look up (R104, R321). -/
def Entry.blank (k : EKind) (r : Req) (now : Nat) : Entry :=
  let win := r.plate.isSome || k != .host
  { kind := k, st := .lookup, req := r, start := now, aged := false, fltDone := win, grnDone := false, hrec := if win then some .inv else none,
    fromDir := false, lostDir := false, toIssue := [], snp := .inv, expect := 0, snooped := false, snpOrder := 0, passed := 0, stay := [],
    wbs := [], src := 0, base := none, buf := 0, info := none, pois := false, colourOk := false, fail := none, way := .none,
    spillWait := none, dirOnly := false, seq := none, merged := [], place := none, walking := false, dirLeft := 0, copyWait := false,
    copyDone := false, resv := false, hold := false, reread := false, already := false, lost := false, fetching := false, after' := 0, unrec := false, recLost := false }

/-- The request that an internal entry stands for. -/
def intReq (line p now : Nat) : Req := mkReq 0 0 none .rdI line p 0 0 now

/-- R167: a copy under hold that waits for its line stands among the requests of the line as one of no intake port. -/
def copyHold (line p now : Nat) : Req := { mkReq 16 0 none .rdI line p 0 0 now with noOp := true }
/-- The tracker entry of internal work on a line (R374): it takes its reservation, or holds the line (R167). -/
def State.openInt (s : State) (n e : Nat) (k : EKind) (line p : Nat) (hold : Bool) : State :=
  (s.putEnt n e { Entry.blank k (intReq line p s.time) s.time with resv := !hold, hold := hold }).rouse n

/-- The sheaf of a tract that slice `n` homes: its first line (R16, R73). -/
def sheafLine (n tract : Nat) : Option Nat :=
  ((List.range 64).find? fun k => sliceOf (tract * 1024 + 16 * k) == n).map fun k => tract * 1024 + 16 * k

/-- The slices that home the sheaves of a tract. -/
def tractSlices (tract : Nat) : List Nat := (List.range 64).map fun k => sliceOf (tract * 1024 + 16 * k)

/-- The moving record of a line's sheaf in slice `n`, changed. -/
def State.onMov (s : State) (n line : Nat) (f : MovRec → MovRec) : State :=
  s.onBanks n fun b => { b with moves := b.moves.map fun r => if r.tract = tractOf line ∧ r.set = sliceOf line then f r else r }

/-- The events of a slice's own sources end its reservations (R376). -/
def State.endAllResv (s : State) (n : Nat) : State :=
  s.onFront n fun f => { f with ents := Tbl.mapv (fun (x : Entry) => { x with resv := false }) f.ents }

/-! ### Yielding (R44, R263) -/

/-- Commands of host requests at a media port. -/
def MPort.demand (q : MPort) : Nat :=
  (q.ops.filter fun o => match o.purp with
    | .read _ | .evict _ _ | .through | .bypass _ => true
    | _ => false).length

/-- The engine of a cap, or patrol scrub after it, yields at a media port: to a drain (R263), and to host demand (R44), which is taken to leave
less room than the engine's cap when the port's 256 places less the host commands there are fewer than the cap's share of them, and no room at
all when they take every place (DESIGN CHOICE: the spec gives no measure; log 58). -/
def MPort.crowded (q : MPort) (cap : Nat) : Bool :=
  (q.ops.any fun o => o.purp == .drain) || (if cap = 0 then 256 ≤ q.demand else 100 * (256 - q.demand) < 256 * cap)

/-- The migration engine, or patrol scrub, yields at a media port (R44). -/
def State.yields (s : State) (m : Nat) (scrub : Bool) : Bool := (s.mp m).crowded (if scrub then 0 else s.place.migCap)

/-! ### Tract-move copies (R460) -/

/-- The value of a line that its Granary holds, with its metadata. -/
def State.grnValue (s : State) (n line : Nat) : Option (Line × Meta) :=
  ((s.slc n).banks.grnFind line).bind fun k => (Tbl.find (s.slc n).banks.grn k).map fun g => (g.data, g.info)

/-- R460: the copy of a line is committed as its write for the new placement is handed over; a full mask reports the slice. -/
def State.copyWrite (s : State) (n line : Nat) (d : Line) (i : Meta) (e : Nat) : State :=
  let tr := tractOf line
  match s.movRec n line with
  | none => s
  | some r =>
    let k := inSheaf line
    let s := ((s.media r.new.1 n (.copy e tr k) line r.new.2 true (encodeLine d (Meta.withGen i (r.gen + 1)))).bumpSlc n 10 32 24).onMov n line
      fun r => { r with mask := if bitN r.mask k then r.mask else r.mask + 2 ^ k }
    let s := if (s.movRec n line).any fun r => r.mask == 0xFFFF then
        s.onPlace fun q => { q with moves := q.moves.map fun v => if v.tract = tr then { v with copied := insertNat (sliceOf line) v.copied } else v }
      else s
    s

/-- R461, R378: the copy of a line loses its reservation and will be retried; a loss that counts is remembered. -/
def State.copyLoss (s : State) (n e line : Nat) (counts : Bool) : State :=
  let s := s.dropEnt n e
  if counts then
    (s.bumpPlc 5 32 32).onMov n line fun r =>
      { r with losses := (List.range 16).map fun k => r.losses.getD k 0 + (if k = inSheaf line then 1 else 0) }
  else s

/-- The media read of an internal entry at the line's placement; what it reads while a directory write of the line is in progress gives no
directory fields (R192). -/
def State.readInt (s : State) (n e line : Nat) : State :=
  let busy := s.dirBusy n line
  match (s.livePlaces n line).head? with
  | some p => (s.onEnt n e fun x => { x with place := some p, reread := busy }).media p.1 n (.scrub e) line p.2.1 false 0
  | none => s.dropEnt n e

/-- R167: a line is moved under hold: at once from the Granary, else from its old placement while the entry holds it. -/
def State.allocHold (s : State) (n : Nat) (r : Req) : State :=
  let s := s.bumpPlc 6 0 32
  match (s.movRec n r.line), s.grnValue n r.line, s.freeInt n .migrate with
  | some _, some v, some e => if Meta.colour v.2 = r.part then s.copyWrite n r.line v.1 v.2 e else s.colourBad n r.line (Meta.colour v.2)
  | some _, none, some e => (s.openInt n e .migrate r.line r.part true).readInt n e r.line
  | _, _, _ => s

/-! ### Correction write-backs (R522) -/

/-- R374, R522: a correction write-back takes an internal entry of the scrub share, and its reservation, as the corrected codeword reaches the slice; it
is dropped and counted when the share has no entry. -/
def State.openWb (s : State) (n line : Nat) : Option Nat × State :=
  match s.freeInt n .correct with
  | some e => (some e, s.openInt n e .correct line (s.mapPart line) false)
  | none => (none, s.bumpSlc n 12 43 21)

/-- R375, R522: the write-back is handed over for every live placement of its line if its reservation still stands once the request that read the
codeword has gone on, and is skipped otherwise (DESIGN CHOICE: the spec does not say when it commits; log 59). -/
def State.commitWb (s : State) (n line m addr : Nat) (cw : Codeword) (e : Option Nat) : State :=
  match e with
  | some e =>
    let s' := s.dropEnt n e
    if (s.ent n e).any fun x => x.resv then
      ((s'.mediaWrite n (.correct e) line (Codeword.line cw) (Codeword.info cw)).bumpSlc n 12 0 22).markWb m addr
    else s'
  | none => s

/-! ### Patrol scrub (R539, R222) -/

/-- R222: the directory copy is stale, or names a restored host port as its one owner. -/
def State.dirStale (s : State) (n line : Nat) (i : Meta) : Bool :=
  Meta.dirGen i != s.dg (sliceOf line) || (Meta.dirState i == 2 && (s.slc n).banks.restored.contains (Meta.holder i))

/-- R388: a line of a partition that is MIRROR here keeps the doubt marker as its directory copy; any other takes the record that R201 gives. -/
def State.scrubDir (s : State) (n line : Nat) (i : Meta) : Nat × Nat :=
  if s.primary (Meta.colour i) then (s.dirRec n line i).1.dir else (3, 0x3FF)

/-- The metadata that a refresh places (R222). -/
def State.refreshed (s : State) (n line : Nat) (i : Meta) : Meta :=
  let d := s.scrubDir n line i
  Meta.withDir i d.1 d.2 (s.dg (sliceOf line)) false

/-- A scrub write is handed over (R375), counted. -/
def State.scrubWrite (s : State) (n e line : Nat) (d : Line) (i : Meta) (m addr : Nat) : State :=
  ((s.mediaWrite n (.correct e) line d i).bumpStk (stookOf n) 4 0 32).markWb m addr

/-- R201, R222: a copy that scrub classifies and whose age is impossible is counted. -/
def State.countAge (s : State) (n line : Nat) (i : Meta) : State := if (s.dirRec n line i).2 then s.bumpSlc n 9 32 16 else s

/-- R222: the directory refresh of a line as a directory write of its own: of a line that the Granary holds, or one that waits until an advance of its
set is persisted (R219). -/
def State.refreshCopy (s : State) (n line : Nat) (i : Meta) : State :=
  let d := s.scrubDir n line i
  ((s.countAge n line i).dirWrite n line d.1 d.2 false none none).2

/-- R539, R222: what scrub does with a codeword that could be read. A Granary entry is used only where its colour is the tract map's (R80). -/
def State.scrubGot (s : State) (n e line : Nat) (cw : Codeword) (fixed : Bool) (m addr : Nat) : State :=
  let i := Codeword.info cw
  if Meta.colour i ≠ s.mapPart line then s.colourBad n line (Meta.colour i)
  else
    match s.grnValue n line with
    | some v =>
      if Meta.colour v.2 ≠ s.mapPart line then s.colourBad n line (Meta.colour v.2)
      else
        let i := s.pendingDir n line v.2
        let s := if fixed || (s.mp m).steerDone then s.scrubWrite n e line v.1 v.2 m addr else s
        if s.dirStale n line i then s.refreshCopy n line i else s
    | none =>
      if s.dirStale n line i && s.advOpen line then s.refreshCopy n line i
      else if s.dirStale n line i then
        ((((s.countAge n line i).wholeWrite n line (Codeword.line cw) (s.refreshed n line i) none).2).bumpStk (stookOf n) 4 0 32).markWb m addr
      else if fixed || (s.mp m).steerDone then s.scrubWrite n e line (Codeword.line cw) i m addr
      else s

/-- R539: what scrub does with a codeword that is uncorrectable: it is rewritten from the Granary, whose colour is checked (R80, R82), or lost; the
directory fields of the lost line's rewrite are a directory write, which ends the line's reservations (R214) and waits for an open advance (R219). -/
def State.scrubLost (s : State) (n e line m addr : Nat) : State :=
  match s.grnValue n line with
  | some v => if Meta.colour v.2 ≠ s.mapPart line then s.colourBad n line (Meta.colour v.2) else s.scrubWrite n e line v.1 v.2 m addr
  | none =>
    let i := s.mapInfo line 3 0x3FF true
    let s := if s.advOpen line then (s.wholeWrite n line 0 i none).2 else (s.endResv n line).scrubWrite n e line 0 i m addr
    let s := s.bumpStk (stookOf n) 4 32 32
    (s.addPoison (s.mapPart line) line .mediaScrub).lostLine n line m

/-- Where a line stands in the pass over its address set's share (R538): tracts ascend, and a set has at most one sheaf of a tract. -/
def scrubPos (line : Nat) : Nat := 16 * tractOf line + inSheaf line

/-- The pass over the line's share goes back to it, if it is past it. -/
def State.scrubBack (s : State) (line : Nat) : State :=
  s.onPlace fun q => { q with passAt := Tbl.set q.passAt (sliceOf line) (min (Tbl.get 0 q.passAt (sliceOf line)) (scrubPos line)) }

/-- A scrub line whose reservation has ended is skipped (R379); the pass revisits it while the port awaits the end of its erasure
(R539). -/
def State.scrubSkip (s : State) (line m : Nat) : State := if (s.mp m).steerDone then s.scrubBack line else s

/-! ### The resynchronisation walk (R412) -/

/-- R412: a line of the walk is sent with its value, the sequence of its last write here, and its epoch. The epoch sent is the current one, and
the sequence of a line outside the Granary is the slice's settle counter (DESIGN CHOICE, log 59). -/
def State.resyncSend (s : State) (n line : Nat) (d : Line) : State :=
  let seq := match ((s.slc n).banks.grnFind line).bind fun k => Tbl.find (s.slc n).banks.grn k with
    | some g => g.mirrorSeq
    | none => (s.slc n).front.seq
  ((s.toTwin (.resync line (s.mapPart line) seq s.mer.cur d)).bumpTwn 5 0 32).onTwin fun w => { w with walk := insertNat line w.walk }

end Sys2Proof.Machine
end

