-- ==== Sys2Proof/Machine/Handover.lean ====
section
/-! DEFINITION. Planned handover of a slice (R185 to R188): the preparation of an address set, the ends of QUIESCE and RETURN, and the drain of
a write-through Granary (R263). -/

namespace Sys2Proof.Machine

/-- Every intake port stops for, or goes on with, the lines of slice `m`. -/
def State.stopFor (s : State) (m : Nat) (on : Bool) : State :=
  let s := State.each (fun i s => s.onIp i fun q =>
    { q with stopped := if on then insertNat m q.stopped else q.stopped.filter (· != m) }) (List.range 16) s
  if on then s else State.each (fun i s => s.pumpAll i) (List.range 16) s

/-- A filter entry of slice `n` covers a sheaf of address set `m`. -/
def fltOf (n m key : Nat) (e : FEntry) : Bool := e.valid && sliceOf (sheafBase n (key / 16) e.tag) == m

/-- A command at a media port writes what the Granary entry of a line holds now, and every pending write of the line is to end with it. -/
def State.writing (s : State) (n : Nat) (g : GEntry) : Bool :=
  s.mports.any fun q => q.2.ops.any fun o =>
    o.slice == n && o.line == g.line && o.write && (o.purp == .drain || o.purp == .through) && Codeword.line o.cw == g.data
      && Meta.withGen g.info 0 == Meta.withGen (Codeword.info o.cw) 0
      && (s.slc n).front.pends.all fun w => w.line != g.line || !w.placed || w.media || o.holds.contains w.seq

/-- Hand over media writes for the dirty lines of a set that are not on their way yet, in set and way order (R185, R263). -/
def State.drainSet (s : State) (n : Nat) (t : Nat → Bool) : State :=
  let c := (s.slc n).banks.ctl
  let ks := (s.slc n).banks.grn.filter fun x => x.2.valid && x.2.dirty && x.2.st != .evicting && t x.2.line
  let ord := fun (x : Nat × GEntry) => (c.group x.2.line * 512 + grnRow x.2.line) * 16 + (x.1 / 512) / c.groups
  State.each (fun (x : Nat × GEntry) s => if s.writing n x.2 then s else s.mediaWrite n .drain x.2.line x.2.data x.2.info)
    (sortBy ord ks) s

/-- The filter entries that satisfy a test leave as victims while spill buffers are free; one that holds no line just leaves, and one that a
tracker entry pins stays. -/
def State.spillOut (s : State) (n : Nat) (t : Nat × FEntry → Bool) : State :=
  State.each (fun (x : Nat × FEntry) s =>
    let drop := fun (s : State) => s.onBanks n fun b => { b with flt := Tbl.del b.flt x.1 }
    if ((s.slc n).front.pins (x.1 / 16) x.2.tag).isSome then s
    else if x.2.held.isEmpty then drop s
    else
      match Tbl.free (s.slc n).banks.spills 0 8 with
      | some j => drop (s.spillTo n j (x.1 / 16) x.2)
      | none => s) ((s.slc n).banks.flt.filter t) s

/-- Work of a preparation (R185): held filter entries of set `m` that no entry pins are spilled while spill buffers are free, and its dirty
lines are written. -/
def State.prepWork (s : State) (n m : Nat) : State :=
  (s.spillOut n fun x => fltOf n m x.1 x.2).drainSet n fun l => sliceOf l == m

/-- R232: the filter entries in ways out of service that no tracker entry pins leave as victims, while spill buffers are free. -/
def State.offWork (s : State) (n : Nat) : State :=
  if (s.slc n).banks.fltOff = 0 then s else s.spillOut n fun x => x.2.valid && bitN (s.slc n).banks.fltOff (x.1 % 16)

/-- PREPARED (R185): no held filter entry and no dirty line of the set remain. -/
def State.prepared (s : State) (n m : Nat) : Bool :=
  let b := (s.slc n).banks
  !(b.flt.any fun x => fltOf n m x.1 x.2 && !x.2.held.isEmpty) && !(b.grn.any fun x => x.2.valid && x.2.dirty && sliceOf x.2.line == m)

/-- Slice `n` has finished all it held of set `m` (R185): entries, queues, pending writes, spills and directory writes. -/
def State.finished (s : State) (n m : Nat) : Bool :=
  let f := (s.slc n).front
  let b := (s.slc n).banks
  let mine := fun (l : Nat) => sliceOf l == m
  !(f.ents.any fun x => mine x.2.req.line) && !((f.queue ++ f.parked ++ f.cq).any fun r => mine r.line) && !(f.streams.any fun x => x.2.any fun r => mine r.line)
    && !(f.pends.any fun w => mine w.line) && !(b.dirw.any fun d => mine d.line)

/-- Every Granary and filter entry of set `m` leaves slice `n`; its moving records go to slice `k` (log 15), and so do the acceptance times that hold
messages back (R293). -/
def State.clearSet (s : State) (n m k : Nat) : State :=
  let out := (s.slc n).banks.moves.filter fun r => r.set == m
  let acc := (s.slc n).front.lastAccept.filter fun x => sliceOf x.1 == m
  let s := s.onFront k fun f => { f with lastAccept := acc.foldl (fun t x => Tbl.set t x.1 (max (Tbl.get 0 t x.1) x.2)) f.lastAccept }
  let s := s.onBanks n fun b =>
    { b with grn := b.grn.filter fun x => sliceOf x.2.line != m, flt := b.flt.filter fun x => !fltOf n m x.1 x.2,
             moves := b.moves.filter fun r => r.set != m }
  s.onBanks k fun b => { b with moves := b.moves ++ out }

/-- A handover goes as far as it can (R185): PREPARE and QUIESCE of slice `m`, or its RETURN from the buddy. -/
def State.handStep (s : State) (m : Nat) : State :=
  let b := buddy m
  match (s.slc m).phase with
  | .prepare => s.prepWork m m
  | .quiesce =>
    let s := s.prepWork m m
    if s.prepared m m && s.finished m m && (s.slc b).phase == .run then
      ((s.clearSet m m b).onSlc m fun c => { c with phase := .covered }).stopFor m false
    else s
  | .returning =>
    let s := s.prepWork b m
    if s.prepared b m && s.finished b m then
      ((s.clearSet b m m).onSlc m fun c => { c with phase := .run }).stopFor m false
    else s
  | _ => s

/-! ### The stop of R598 and R611 -/

/-- Spill the filter entries that no tracker entry pins, while spill buffers are free, and write the dirty lines (R226). -/
def State.closeWork (s : State) (n : Nat) : State := (s.spillOut n fun x => x.2.valid).drainSet n fun _ => true

/-- A slice holds nothing more that a directory close writes (R226); requests count until the twin has them (R598 step 2). -/
def Slice.closed (c : Slice) (handed : Bool) : Bool :=
  let b := c.banks
  let f := c.front
  c.phase == .fenced ||
    (!(b.flt.any fun x => x.2.valid) && b.spills.isEmpty && b.dirw.isEmpty && b.waiters.isEmpty && b.fills.isEmpty &&
      !(b.grn.any fun x => x.2.valid && x.2.dirty) &&
      (handed || (f.ents.isEmpty && f.pends.isEmpty && f.queue.isEmpty && f.parked.isEmpty && f.cq.isEmpty && f.streams.all fun x => x.2.isEmpty)))

/-- The directory close is complete (R226). -/
def State.closed (s : State) : Bool :=
  let handed := s.mute
  (s.slices.all fun x => x.2.closed handed) && !(s.mports.any fun q => q.2.ops.any fun o => o.write) &&
    (handed || s.intakes.all fun x => x.2.kept.isEmpty)

/-- A stop in progress goes as far as it can (R226, R309, R598 steps 3 and 4): the close record, the sealed epoch, READY_OFF. -/
def State.stopTick (s : State) : State :=
  if !s.pwr.stopping then s
  else
    let s := State.each (fun n s => s.closeWork n) s.slices.keys s
    if s.closed then
      let s := { s with dirGen := { s.dirGen with close := true } }.onMer fun m => { m with persisted := m.pairSealed, persistAt := s.now }
      s.onPwr fun p => { p with stopping := false, readyOff := true }
    else s

/-! ### The start-up refresh (R224) -/

/-- The end of step 9: the patrol pass counts from here (R223), and start-up goes on to step 10. -/
def State.step10 (s : State) : State :=
  (s.onPlace fun q => { q with passDg := s.dirGen.dg }).onPwr fun p => { p with step := 10, refresh := false, refreshing := false }

/-- The start-up refresh ends with its last line: every floor becomes DG, and no quiet generation is older (R224, R223). -/
def State.refreshTick (s : State) : State :=
  if !s.pwr.refreshing || !s.dirGen.adv.isEmpty || s.slices.any fun c => !c.2.banks.dirw.isEmpty then s
  else
    let s := { s with dirGen := { s.dirGen with fl := s.dirGen.dg, q := [] } }.saveGen
    (State.each (fun n s => s.mirrorGen n) (List.range 128) s).step10

/-- The handovers that slice `n` takes part in, the ways that leave its service, a stop in progress and the start-up refresh. -/
def State.handTick (s : State) (n : Nat) : State :=
  let s := s.offWork n
  let s := if (s.slc n).phase = Phase.run then s else s.handStep n
  (if (s.slc (buddy n)).phase = Phase.returning then s.handStep (buddy n) else s).stopTick.refreshTick

end Sys2Proof.Machine
end

