-- ==== Sys2Proof/Machine/Admit.lean ====
section
/-! DEFINITION. The front end of a slice (spec chapter 4): the intake arbiter (R140 to R143), admission (R83, R84, R144 to R149),
the conflict queues (R85, R150 to R153) and the allocation of a tracker entry (R137, R138, R443). -/

namespace Sys2Proof.Machine

/-! ### Occupancy (R83 to R85) -/

/-- Host entries that a partition holds. -/
def Front.partEnts (f : Front) (p : Nat) : Nat := (f.ents.filter fun x => x.2.kind == .host && x.2.req.part == p).length

/-- R83: a host entry is admissible to the partition; none is after a power-fail warning (R599 step 1). -/
def State.admissible (s : State) (n p : Nat) : Bool :=
  let f := (s.slc n).front
  let free := 512 - (s.slc n).hostUsed
  let rsv := sumOf (fun (x : Nat × Part) => x.2.cfg.trkMin.toNat - f.partEnts x.1) (s.parts.filter fun x => x.1 != p && x.2.st == .enabled)
  let g := (s.part p).cfg
  s.pwr.fail.isNone && 0 < free && (f.partEnts p < g.trkMin.toNat || (f.partEnts p < g.trkMax.toNat && rsv < free))

/-- R85: a conflict-queue place is open to the request; a copy under hold needs none (R168). -/
def State.cqOpen (s : State) (n : Nat) (r : Req) : Bool :=
  let f := (s.slc n).front
  r.isHold || f.places (fun q => q.line == r.line) < 8 && f.places (fun q => q.part == r.part) < (s.part r.part).cfg.cqMax.toNat
    && f.places (fun _ => true) < 128

/-- The entry that holds a line. -/
def Front.holder (f : Front) (line : Nat) : Option Nat := (f.ents.find? fun x => x.2.holds && x.2.req.line == line).map Prod.fst

/-- The line has a request that waits: queued, parked, or in the intake queue (R144). -/
def Front.waiting (f : Front) (line : Nat) : Bool :=
  f.cq.any (fun r => r.line == line) || f.parked.any (fun r => r.line == line) || f.queue.any fun r => r.line == line

/-! ### Allocation -/

/-- The tract is placed in the FAST tier (R426). -/
def State.fastTract (s : State) (tract : Nat) : Bool := (s.mapPlace tract).any fun p => (s.mp p.1).fast

/-- A note for the Bolometer (R444): added to the tract's note; a full buffer gives up its oldest, which is sent early and
reaches its heat stook by HEAT_NOTE. -/
def Front.addNote (f : Front) (tract p : Nat) (fast : Bool) : Front :=
  if f.notes.any fun x => x.tract == tract && x.part == p then
    { f with notes := f.notes.map fun x => if x.tract = tract ∧ x.part = p then { x with count := x.count + 1 } else x }
  else { f with notes := (if f.notes.length < 64 then f.notes else f.notes.tail) ++ [⟨tract, p, fast, 1⟩] }

/-- The access count and the sample of R443, for one request that took a host entry. -/
def State.sample (s : State) (n : Nat) (r : Req) : State :=
  let f := (s.slc n).front
  let s := if f.access = f.phase then s.onFront n fun f => f.addNote (tractOf r.line) r.part (s.fastTract (tractOf r.line)) else s
  let k := (f.access + 1) % 64
  s.onFront n fun f => { f with access := k, phase := if k = 0 then (s.slc n).banks.lfsr.toNat % 64 else f.phase }

/-- No S2M message of a request of the line leaves before this time (R293). -/
def State.notBefore (s : State) (n : Nat) (r : Req) : Nat :=
  match Tbl.find (s.slc n).front.lastAccept r.line with
  | some t => t + s.holdNs r.part
  | none => 0

/-- A host request takes host entry `e` (R138, R154): it counts, it may be sampled, and what the line's writes accepted before it hold back holds
back its messages (R293). -/
def State.allocAt (s : State) (n e : Nat) (r : Req) : State :=
  let s := ((s.putEnt n e { Entry.blank .host r s.time with after' := s.notBefore n r }).bumpSlc n 0 0 64).sample n r
  let s := if r.plate.isSome then s.bumpPart r.part 1 32 32 else s
  s.rouse n

/-- A host request takes the lowest free host entry (R144, R154). -/
def State.allocEnt (s : State) (n : Nat) (r : Req) : State :=
  match Tbl.free (s.slc n).front.ents 0 512 with
  | none => s
  | some e => s.allocAt n e r

/-! ### Queues -/

/-- A request follows its line (R144 rule 1, R148): a conflict-queue place, or parked with its host port's credits withheld. -/
def State.follow (s : State) (n : Nat) (r : Req) : State :=
  if s.cqOpen n r && !((s.slc n).front.parked.any fun q => q.line == r.line) then s.onFront n fun f => { f with cq := f.cq ++ [r] }
  else (if r.isHold then s else s.bumpSlc n 13 32 32).onFront n fun f => { f with parked := f.parked ++ [r] }

/-- Parked requests join their conflict queues, oldest first, as places open (R148). -/
def State.unpark (s : State) (n : Nat) : State :=
  State.each (fun (r : Req) s =>
    let f := (s.slc n).front
    if s.cqOpen n r && (f.parked.find? fun q => q.line == r.line) == some r then
      let s := s.onFront n fun f => { f with parked := f.parked.erase r, cq := f.cq ++ [r] }
      match r.host with
      | some h => s.payCredits h
      | none => s
    else s) (s.slc n).front.parked s

/-- The heads of the lines that wait for an entry ahead of the intake queue (R147, R150): of each line with a conflict queue
and no entry, its waiter in the intake queue, or else its first queued request. -/
def Front.heads (f : Front) : List Req :=
  let lines := (f.cq.map fun r => r.line).eraseDups.filter fun l => (f.holder l).isNone
  lines.filterMap fun l =>
    match f.queue.find? fun r => r.line == l with
    | some r => some r
    | none => f.cq.find? fun r => r.line == l

/-- An entry is there for a waiting request: an internal one for a copy under hold (R168), a host entry for any other (R83). -/
def State.entFor (s : State) (n : Nat) (r : Req) : Bool := if r.isHold then (s.freeInt n .migrate).isSome else s.admissible n r.part

/-- The next waiting request that takes an entry: a line's head first, then the intake queue in its order (R147, R150). Of several heads that an
entry is admissible to, the one whose line has waited in the conflict queues longest takes it (DESIGN CHOICE: the spec names none; log 56). -/
def State.nextTaken (s : State) (n : Nat) : Option Req :=
  let f := (s.slc n).front
  match f.heads.find? fun r => s.entFor n r with
  | some r => some r
  | none => f.queue.find? fun r => (f.holder r.line).isNone && !f.cq.any (fun q => q.line == r.line) && s.entFor n r

/-- R150: an entry that frees while it holds its line is taken over by the head of the line's conflict queue, when it is admissible to it. -/
def State.headTakes (s : State) (n e line : Nat) : State :=
  match (s.slc n).front.cq.find? fun r => r.line == line with
  | some r =>
    if !r.isHold && e < 512 && ((s.slc n).front.holder line).isNone && s.admissible n r.part then (s.onFront n fun f => { f with cq := f.cq.erase r }).allocAt n e r
    else s
  | none => s

/-- Entries that are free go to the requests that wait for them. -/
def State.refill (n : Nat) : Nat → State → State
  | 0, s => s
  | k + 1, s =>
    let s := s.unpark n
    match s.nextTaken n with
    | none => s
    | some r =>
      let s := s.onFront n fun f => { f with queue := f.queue.erase r, cq := if f.queue.contains r then f.cq else f.cq.erase r }
      State.refill n k (if r.isHold then s.allocHold n r else s.allocEnt n r)

/-- Refill until nothing more can be taken; a slice holds 512 host entries. -/
def State.refillAll (s : State) (n : Nat) : State := State.refill n 512 s

/-- R144: take in a request that left the arbiter and is no holder's answer to a snoop. -/
def State.admitPlain (s : State) (n : Nat) (r : Req) : State :=
  let f := (s.slc n).front
  if (f.holder r.line).isSome || f.waiting r.line then (s.follow n r).unpark n
  else if s.admissible n r.part then s.allocEnt n r
  else s.onFront n fun f => { f with queue := f.queue ++ [r] }

/-! ### The arbiter (R140 to R143, R149) -/

/-- The head of stream `i`: the request with the stream's next number. -/
def Front.head (f : Front) (i : Nat) : Option Req := (Tbl.get [] f.streams i).find? fun r => r.num == Tbl.get 0 f.nextNum i

/-- The stream that the arbiter takes from. -/
def Front.pick (f : Front) : Option (Nat × Req) :=
  ((List.range 16).map fun d => (f.ptr + d) % 16).findSome? fun i => (f.head i).map fun r => (i, r)

/-- Take a head: the stream's number and the pointer move on, and the stream credit starts back (R141, R501). -/
def State.takeHead (s : State) (n i : Nat) (r : Req) : State :=
  let s := s.onFront n fun f =>
    { f with streams := Tbl.set f.streams i ((Tbl.get [] f.streams i).erase r), nextNum := Tbl.set f.nextNum i ((r.num + 1) % 4096), ptr := (i + 1) % 16 }
  let s := s.packet (.slice n) (.intake i) 0x44 {}
  if h : i < 16 ∧ n < 128 then { s with credits := s.credits ++ [.stream ⟨i, h.1⟩ ⟨n, h.2⟩] } else s

end Sys2Proof.Machine
end

