-- ==== Sys2Proof/Machine/Standard.lean ====
section
/-! DEFINITION. The standard CXL commands of R637, R638 and R661. The spec names them and leaves their payload layouts to the
CXL specification, from which the layouts here are taken (PRESUMED, assumption log 13); a reply field whose value the spec
does not state is a free value (assumption log 5). -/

namespace Sys2Proof.Machine

/-- Free bytes of a reply. -/
def State.freeBytes : Nat → State → List Byte × State
  | 0, s => ([], s)
  | k + 1, s =>
    let f := s.fresh
    let r := State.freeBytes k f.2
    (BitVec.ofNat 8 f.1.toNat :: r.1, r.2)

/-! ### Generic -/

/-- IDENTIFY: Porenteno's vendor identity, serial number, message size, component type, and the record UUID (R637). -/
def State.identify (s : State) : Reply × State :=
  let f := State.freeBytes 8 s
  (.done 0 (f.1 ++ leBytes 8 s.serial ++ [12, 3] ++ leBytes 16 (((s.otpUse 1).getD 0) / 2 ^ 96 % 2 ^ 128)), f.2)

/-- Return codes of R632 as the CXL specification numbers them (log 13). -/
def returnCode : Nat → Nat
  | 0 => 0x0000
  | 1 => 0x0001
  | 2 => 0x0015
  | 3 => 0x0011
  | 4 => 0x0002
  | 5 => 0x0010
  | 6 => 0x0004
  | 7 => 0x0006
  | _ => 0x0005

/-- IDENTIFY (R637). -/
def execIdentify (t : Ns) (c : Mbx) (s : State) : Host.Outcome State Fault Refusal :=
  .next ((s.tick t).command c 0x0001 { CmdKind.plain true 0 with failsafe := true } State.identify)

/-- BACKGROUND_OPERATION_STATUS (R637, R624): running, per cent, opcode, return code and status. -/
def execBackgroundOperationStatus (t : Ns) (c : Mbx) (s : State) : Host.Outcome State Fault Refusal :=
  .next ((s.tick t).command c 0x0002 { CmdKind.plain true 0 with failsafe := true } fun s =>
    let b := s.box c.mb.val
    (.done 0 (leBytes 2 (b2n b.bgRun + 2 * b.bgProgress) ++ leBytes 2 b.bgOpcode ++ leBytes 2 (if b.bgRun then 0 else returnCode b.bgStatus)
      ++ leBytes 2 (if b.bgRun then 0 else b.bgStatus)), s))

/-- A running background command is asked to stop (R630). -/
def State.askAbort (s : State) (mb : Nat) : State := s.onBox mb fun b => if b.bgRun then { b with bgAbort := true } else b

/-- REQUEST_ABORT_BACKGROUND_OP (R630). -/
def execRequestAbortBackgroundOp (t : Ns) (c : Mbx) (s : State) : Host.Outcome State Fault Refusal :=
  .next ((s.tick t).command c 0x0005 (CmdKind.plain true 0) fun s => (.done 0 [], s.askAbort c.mb.val))

/-- BG_ABORT (R626, R630): the flag is set in the header; writes to it are taken while DOORBELL is set. -/
def execBgAbort (t : Ns) (mb : MbxId) (s : State) : Host.Outcome State Fault Refusal := .next ((s.tick t).askAbort mb.val)

/-! ### Events (R134, R135, R638) -/

/-- The kind and fields of a record, in the order of R135. -/
def EvRec.fields : EvRec → List Nat
  | .check h op o k => [1, h, (match op with
      | .memRd => 0 | .memRdData => 1 | .memInv => 2 | .memInvNt => 3 | .memClnEvct => 4 | .memSpecRd => 5 | .biConflict => 6
      | .memWr => 7 | .memWrPtl => 8 | .memRdFwd => 9 | .memWrFwd => 10 | .undef w => 11 + b2n w
      | .other w d c => 13 + b2n w + 2 * b2n d + 4 * b2n c), o, k]
  | .unresp h l f => [2, h, l, (match f with
      | .cur => 0 | .data => 1 | .inv => 2)]
  | .poison o t => [0, o, (match t with
      | .hostRead => 1 | .hostWrite => 2 | .mediaScrub => 5 | .mediaManage => 6)]
  | .colour o f => [3, o, f]
  | .stopped r => [4, r]
  | .overrun h w => [5, h, b2n w]
  | .almanac r => [0x10, r]
  | .bgDone o st => [0x11, o, st]

/-- The UUID of a record: the General Media UUID of the CXL specification (log 13), or Porenteno's (R135). -/
def State.recUuid (s : State) : EvRec → Nat
  | .poison _ _ => 0xA6EB21168B08A9857F4160C2770ACDFB
  | _ => ((s.otpUse 1).getD 0) / 2 ^ 96 % 2 ^ 128

/-- The data of a record: an Almanac record carries its 32 bytes (R638). -/
def State.recData (s : State) (r : EvRec) : List Byte :=
  match r with
  | .almanac q =>
    match s.win.recs.find? fun a => a.recno == q with
    | some a => BitVec.ofNat 8 0x10 :: a.bytes ++ zeros 47
    | none => BitVec.ofNat 8 0x10 :: leBytes 4 q ++ zeros 75
  | r => leBytes 80 (Config.eventData r.fields).toNat

/-- The 128 bytes of an event record of log `k`. -/
def State.recBytes (s : State) (k : Nat) (x : Nat × Nat × EvRec) : List Byte :=
  leBytes 16 (s.recUuid x.2.2) ++ [128] ++ leBytes 3 k ++ leBytes 2 x.1 ++ zeros 2 ++ leBytes 8 x.2.1 ++ zeros 16 ++ s.recData x.2.2

/-- The logs that a mailbox reads: its partition's, or the block logs that mailboxes 64 and 65 share (R638). -/
def State.logs (s : State) (mb : Nat) : EvLogs := if mb < 64 then (s.part mb).logs else s.blkLogs

/-- The logs of a mailbox, changed. -/
def State.onLogs (s : State) (mb : Nat) (f : EvLogs → EvLogs) : State :=
  if mb < 64 then s.onPart mb fun q => { q with logs := f q.logs } else { s with blkLogs := f s.blkLogs }

/-- Log `k` of a function, changed. -/
def EvLogs.onLog (l : EvLogs) (k : Nat) (f : EvLog → EvLog) : EvLogs :=
  match k with
  | 0 => { l with info := f l.info }
  | 1 => { l with warn := f l.warn }
  | 2 => { l with fail := f l.fail }
  | _ => { l with fatal := f l.fatal }

/-- GET_EVENT_RECORDS (R134, R637, R638): the oldest records of a log, 31 at most in one reply. -/
def execGetEventRecords (t : Ns) (c : Mbx) (s : State) : Host.Outcome State Fault Refusal :=
  .next ((s.tick t).command c 0x0100 (CmdKind.plain true 1) fun s =>
    let k := mbByte c 0
    if 3 < k then (.detail 4 0, s)
    else
      let l := (s.logs c.mb.val).log k
      let n := min 31 l.recs.length
      (.done 0 (leBytes 2 (b2n l.overflow + 2 * b2n (n < l.recs.length)) ++ leBytes 2 (min 65535 l.lost) ++ leBytes 8 l.firstLost
        ++ leBytes 8 l.lastLost ++ leBytes 2 n ++ zeros 10 ++ ((l.recs.take n).map (s.recBytes k)).flatten), s))

/-- CLEAR_EVENT_RECORDS (R637, R638, R22): the records of the handles given, or all; the overflow indication ends with it (log 13). -/
def execClearEventRecords (t : Ns) (c : Mbx) (s : State) : Host.Outcome State Fault Refusal :=
  .next ((s.tick t).command c 0x0101 { CmdKind.plain true 0 with len := (6, 516), rsv := [3, 4, 5] } fun s =>
    let k := mbByte c 0
    let hs := (List.range (mbByte c 2)).map fun j => mbLe c (6 + 2 * j) 2
    let l := (s.logs c.mb.val).log k
    let empty := fun (l : EvLog) (r : List (Nat × Nat × EvRec)) => { l with recs := r, overflow := false, lost := 0, firstLost := 0, lastLost := 0 }
    if 1 < mbByte c 1 then (.detail 4 1, s)
    else if 3 < k then (.detail 4 0, s)
    else if mbByte c 1 = 1 then (.done 0 [], s.onLogs c.mb.val fun q => q.onLog k fun l => empty l [])
    else
      match hs.find? fun h => !l.recs.any fun r => r.1 == h with
      | some _ => (.detail 4 6, s)
      | none => (.done 0 [], s.onLogs c.mb.val fun q => q.onLog k fun l => empty l (l.recs.filter fun r => !hs.contains r.1)))

/-- GET_EVENT_INTERRUPT_POLICY (R638): every interrupt disabled on the service mailbox. -/
def execGetEventInterruptPolicy (t : Ns) (c : Mbx) (s : State) : Host.Outcome State Fault Refusal :=
  .next ((s.tick t).command c 0x0102 (CmdKind.plain true 0) fun s =>
    (.done 0 (if c.mb.val = 65 then zeros 4 else (s.logs c.mb.val).policy), s))

/-- SET_EVENT_INTERRUPT_POLICY (R638, R22): rejected on the service mailbox (log 13). -/
def execSetEventInterruptPolicy (t : Ns) (c : Mbx) (s : State) : Host.Outcome State Fault Refusal :=
  .next ((s.tick t).command c 0x0103 { CmdKind.plain true 0 with len := (4, 5) } fun s =>
    match (List.range c.input.length).find? fun i => mbByte c i / 4 % 4 != 0 with
    | some i => (.detail 4 i, s)
    | none => if c.mb.val = 65 then (.done 2 [], s) else (.done 0 [], s.onLogs c.mb.val fun l => { l with policy := c.input.take 4 }))

/-! ### Timestamp and logs -/

/-- GET_TIMESTAMP (R637): Meridian ns. -/
def execGetTimestamp (t : Ns) (c : Mbx) (s : State) : Host.Outcome State Fault Refusal :=
  .next ((s.tick t).command c 0x0300 (CmdKind.plain true 0) fun s => (.done 0 (leBytes 8 s.time), s))

/-- SET_TIMESTAMP (R637): rejected, because Meridian is set only from the timekeeper. -/
def execSetTimestamp (t : Ns) (c : Mbx) (s : State) : Host.Outcome State Fault Refusal :=
  .next ((s.tick t).command c 0x0301 { CmdKind.plain true 0 with len := (0, 4096) } fun s => (.done 2 [], s))

/-- The opcodes of the standard commands that the home implements (R637). -/
def stdOpcodes : List Nat :=
  [0x0001, 0x0002, 0x0005, 0x0100, 0x0101, 0x0102, 0x0103, 0x0200, 0x0201, 0x0202, 0x0300, 0x0400, 0x0401, 0x4000, 0x4100, 0x4102,
   0x4103, 0x4200, 0x4201, 0x4202, 0x4203, 0x4204, 0x4300, 0x4302, 0x4400, 0x4401]

/-- The Command Effects Log: each opcode with its effects. -/
def celBytes : List Byte := (stdOpcodes.map fun o => leBytes 2 o ++ leBytes 2 (Config.effects o).toNat).flatten

/-- The identifier of the Command Effects Log in the CXL specification (log 13). -/
def celUuid : Nat := 0x173F3B62B196798F784B41BFB5C0A90D

/-- GET_SUPPORTED_LOGS (R637): the Command Effects Log only. -/
def execGetSupportedLogs (t : Ns) (c : Mbx) (s : State) : Host.Outcome State Fault Refusal :=
  .next ((s.tick t).command c 0x0400 (CmdKind.plain true 0) fun s =>
    (.done 0 (leBytes 2 1 ++ zeros 6 ++ leBytes 16 celUuid ++ leBytes 4 celBytes.length), s))

/-- GET_LOG (R637). -/
def execGetLog (t : Ns) (c : Mbx) (s : State) : Host.Outcome State Fault Refusal :=
  .next ((s.tick t).command c 0x0401 (CmdKind.plain true 24) fun s =>
    let o := mbLe c 16 4
    let n := mbLe c 20 4
    if mbLe c 0 16 ≠ celUuid then (.detail 4 0, s)
    else if celBytes.length < o + n then (.detail 4 16, s)
    else (.done 0 ((celBytes.drop o).take n), s))

/-! ### Identity, health, alerts -/

/-- The partition that a mailbox's device is; mailboxes 64 and 65 have none (log 13). -/
def devPart (mb : Nat) : Option Nat := if mb < 64 then some mb else none

/-- IDENTIFY_MEMORY_DEVICE (R637): volatile capacity 0, persistent capacity the data range, label storage 128 KiB, logs of 64
records, poison list limit 4,096, inject-poison limit 0. -/
def execIdentifyMemoryDevice (t : Ns) (c : Mbx) (s : State) : Host.Outcome State Fault Refusal :=
  .next ((s.tick t).command c 0x4000 (CmdKind.plain true 0) fun s =>
    let f := State.freeBytes 16 s
    let cap := fun (s : State) => match devPart c.mb.val with
      | some p => (leBytes 8 (4 * ((s.part p).cfg.dataSize.toNat + 1)), s)
      | none => State.freeBytes 8 s
    let g := cap f.2
    let e := State.freeBytes 2 g.2
    (.done 0 (f.1 ++ g.1 ++ zeros 8 ++ g.1 ++ zeros 8 ++ leBytes 2 64 ++ leBytes 2 64 ++ leBytes 2 64 ++ leBytes 2 64 ++ leBytes 4 131072
      ++ leBytes 3 4096 ++ leBytes 2 0 ++ e.1), e.2))

/-- GET_PARTITION_INFO (R637): the whole of the data range is persistent. -/
def execGetPartitionInfo (t : Ns) (c : Mbx) (s : State) : Host.Outcome State Fault Refusal :=
  .next ((s.tick t).command c 0x4100 (CmdKind.plain true 0) fun s =>
    match devPart c.mb.val with
    | some p => (.done 0 (zeros 8 ++ leBytes 8 (4 * ((s.part p).cfg.dataSize.toNat + 1)) ++ zeros 16), s)
    | none =>
      let f := State.freeBytes 8 s
      (.done 0 (zeros 8 ++ f.1 ++ zeros 16), f.2))

/-- GET_HEALTH_INFO (R637): maintenance needed while SERVICE_REQ is high, device temperature not supported. -/
def execGetHealthInfo (t : Ns) (c : Mbx) (s : State) : Host.Outcome State Fault Refusal :=
  .next ((s.tick t).command c 0x4200 { CmdKind.plain true 0 with failsafe := true } fun s =>
    let f := State.freeBytes 3 s
    let g := State.freeBytes 12 f.2
    (.done 0 (leBytes 1 (b2n s.win.service) ++ f.1 ++ leBytes 2 0x7FFF ++ g.1), g.2))

/-- GET_ALERT_CONFIGURATION (R637): the configuration that the host last set. -/
def execGetAlertConfiguration (t : Ns) (c : Mbx) (s : State) : Host.Outcome State Fault Refusal :=
  .next ((s.tick t).command c 0x4201 (CmdKind.plain true 0) fun s =>
    let f := State.freeBytes 8 s
    match devPart c.mb.val with
    | some p => (.done 0 (f.1 ++ ((s.part p).alerts.drop 4 ++ zeros 8).take 8), f.2)
    | none => (.done 0 (f.1 ++ zeros 8), f.2))

/-- SET_ALERT_CONFIGURATION (R637, R22; log 13). -/
def execSetAlertConfiguration (t : Ns) (c : Mbx) (s : State) : Host.Outcome State Fault Refusal :=
  .next ((s.tick t).command c 0x4202 { CmdKind.plain true 12 with rsv := [3] } fun s =>
    if 32 ≤ mbByte c 0 then (.detail 4 0, s)
    else if 32 ≤ mbByte c 1 then (.detail 4 1, s)
    else
      match devPart c.mb.val with
      | some p => (.done 0 [], s.onPart p fun q => { q with alerts := c.input })
      | none => (.done 2 [], s))

/-- GET_SHUTDOWN_STATE (R637): the value the host last set. -/
def execGetShutdownState (t : Ns) (c : Mbx) (s : State) : Host.Outcome State Fault Refusal :=
  .next ((s.tick t).command c 0x4203 (CmdKind.plain true 0) fun s =>
    match devPart c.mb.val with
    | some p => (.done 0 [(s.part p).shutdown], s)
    | none => (.done 2 [], s))

/-- SET_SHUTDOWN_STATE (R637, R22; log 13). -/
def execSetShutdownState (t : Ns) (c : Mbx) (s : State) : Host.Outcome State Fault Refusal :=
  .next ((s.tick t).command c 0x4204 (CmdKind.plain true 1) fun s =>
    if 1 < mbByte c 0 then (.detail 4 0, s)
    else
    match devPart c.mb.val with
    | some p => (.done 0 [], s.onPart p fun q => { q with shutdown := BitVec.ofNat 8 (mbByte c 0) })
    | none => (.done 2 [], s))

/-! ### Label storage (R637) -/

/-- GET_LSA (R637): bytes of the 128 KiB label storage area. -/
def execGetLsa (t : Ns) (c : Mbx) (s : State) : Host.Outcome State Fault Refusal :=
  .next ((s.tick t).command c 0x4102 (CmdKind.plain true 8) fun s =>
    let o := mbLe c 0 4
    let n := mbLe c 4 4
    match devPart c.mb.val with
    | none => (.done 2 [], s)
    | some p =>
      if 131072 < o + n then (.detail 4 0, s)
      else if 4096 < n then (.detail 4 4, s)
      else (.done 0 ((List.range n).map fun k => Tbl.get 0 (s.part p).lsa (o + k)), s))

/-- Bytes written into the label storage; zero bytes are not listed. -/
def putLsa (l : Tbl Byte) : Nat → List Byte → Tbl Byte
  | _, [] => l
  | o, b :: r => putLsa (if b = 0 then Tbl.del l o else Tbl.set l o b) (o + 1) r

/-- SET_LSA (R637): written in the map region and mirrored to the twin. -/
def execSetLsa (t : Ns) (c : Mbx) (s : State) : Host.Outcome State Fault Refusal :=
  .next ((s.tick t).command c 0x4103 { CmdKind.plain true 0 with len := (8, 4096), rsv := [4, 5, 6, 7] } fun s =>
    let o := mbLe c 0 4
    let d := c.input.drop 8
    match devPart c.mb.val with
    | none => (.done 2 [], s)
    | some p =>
      if 131072 < o + d.length then (.detail 4 0, s)
      else
        let s := s.onPart p fun q => { q with lsa := putLsa q.lsa o d }
        (.done 0 [], if s.mirrors then s.toTwin (.lsa p o d) else s))

/-! ### Poison (R136, R713) -/

/-- GET_POISON_LIST (R136): the partition's poisoned lines in the range asked for, as home offsets, of the 4,096 listed; the
overflow indication carries the Meridian time of the first line not listed. The address given is one of the device, whose 0 is the data range's
first byte (R637). Of more than 254 lines the first 254 are answered with the More flag; a range that begins after them reads on (DESIGN
CHOICE, log 56). -/
def execGetPoisonList (t : Ns) (c : Mbx) (s : State) : Host.Outcome State Fault Refusal :=
  .next ((s.tick t).command c 0x4300 (CmdKind.plain true 16) fun s =>
    match devPart c.mb.val with
    | none => (.done 2 [], s)
    | some p =>
      let q := s.part p
      let lo := q.dataLo + mbLe c 0 8 / 64
      let l := (q.poison.take 4096).filter fun x => lo ≤ x && x < lo + mbLe c 8 8
      let n := min 254 l.length
      let full := 4096 < q.poison.length
      (.done 0 (leBytes 2 (b2n (n < l.length) + 2 * b2n full) ++ leBytes 8 (((q.poison.drop 4096).head?.map fun x => Tbl.get 0 q.poisonAt x).getD 0) ++ leBytes 2 n ++ zeros 20
        ++ ((l.take n).map fun x => leBytes 8 (64 * x) ++ leBytes 4 1 ++ zeros 4).flatten), s))

/-- A mailbox line write goes through intake port 0 (R713): a full-line write of the partition from no host. -/
def State.lineWrite (s : State) (own : Own) (line p : Nat) (d : Line) : State :=
  let r := { mkReq 0 (s.ip 0).tag none .mbxLine line p d (BitVec.allOnes 64) s.time with tgen := Tbl.find (s.ip 0).moving (tractOf line) }
  s.keep r own 0 .unsent

/-- A ticket place of intake port 0 is free (R129, R713). -/
def State.lineRoom (s : State) : Bool := ((s.ip 0).kept.filter fun k => k.own != .host).length < 256

/-- The line write of a Clear Poison command, from the mailbox's payload. -/
def State.clearLine (s : State) (mb p : Nat) : State :=
  let b := (s.box mb).payload
  s.lineWrite (.clearPoison mb) ((s.part p).dataLo + ofLeBytes (b.take 8) / 64) p (lineOf ((b.drop 8).take 64))

/-- CLEAR_POISON (R637, R713): the 64 bytes written to the line; the command completes when the write has reached the
completion level. Its line write waits for a free ticket place (R129). -/
def execClearPoison (t : Ns) (c : Mbx) (s : State) : Host.Outcome State Fault Refusal :=
  .next ((s.tick t).command c 0x4302 (CmdKind.plain true 72) fun s =>
    match devPart c.mb.val with
    | none => (.done 2 [], s)
    | some p =>
      let a := mbLe c 0 8
      let q := s.part p
      if a % 64 ≠ 0 ∨ q.dataLen * 64 ≤ a ∨ q.st = .free then (.detail 4 0, s)
      else if s.lineRoom then (.wait .line, s.clearLine c.mb.val p)
      else (.wait .place, s))

/-! ### Sanitize (R637) -/

/-- The start of a sanitize: only while the partition is DISABLED. -/
def State.sanitizeStart (s : State) (mb : Nat) : Reply × State :=
  match devPart mb with
  | none => (.done 2 [], s)
  | some p =>
    if (s.part p).st ≠ .disabled ∨ s.bgHeld (.part p) then (.done 7 [], s) else (.started (.sanitize p) 0xFFFFFFFF, s)

/-- SANITIZE (R637). -/
def execSanitize (t : Ns) (c : Mbx) (s : State) : Host.Outcome State Fault Refusal :=
  .next ((s.tick t).command c 0x4400 { CmdKind.plain true 0 with presence := true, bg := some .none } fun s => s.sanitizeStart c.mb.val)

/-- SECURE_ERASE (R637). -/
def execSecureErase (t : Ns) (c : Mbx) (s : State) : Host.Outcome State Fault Refusal :=
  .next ((s.tick t).command c 0x4401 { CmdKind.plain true 0 with presence := true, bg := some .none } fun s => s.sanitizeStart c.mb.val)

/-- UNSUPPORTED_COMMAND (R637): every other opcode completes with status 0x02. -/
def execUnsupportedCommand (t : Ns) (c : Mbx) (opcode : BitVec 16) (s : State) : Host.Outcome State Fault Refusal :=
  .next ((s.tick t).command c opcode.toNat { CmdKind.plain true 0 with len := (0, 4096) } fun s => (.done 2 [], s))

end Sys2Proof.Machine
end

