-- ==== Sys2Proof/Machine/Vendor.lean ====
section
/-! DEFINITION. The vendor commands that act on partitions, host ports, plates, fault records, OTP and media tracts (R641 to
R646, R649, R651 to R655). Where one command carries an ACTION byte and the table has a row for each action, the byte must
be the row's (log 2). -/

namespace Sys2Proof.Machine

/-- The command table's common form: for the management and service mailboxes, `n` bytes of input. -/
def mgmt (n : Nat) : CmdKind := CmdKind.plain false n

/-! ### Partitions (R642, R643) -/

/-- PART_CREATE (R642, R643): the partition takes its configuration and shows UNFINISHED until its tracts are provisioned. -/
def execPartCreate (t : Ns) (c : Mbx) (s : State) : Host.Outcome State Fault Refusal :=
  .next ((s.tick t).command c 0xC100 { mgmt 32 with presence := true, rsv := [31], part := some 0, bg := some .none } fun s =>
    let p := mbByte c 0
    let g := cfgOf c 0
    let n := (g.dataSize.toNat + 1) * 16384
    if (s.part p).st ≠ .free ∨ s.mapPair.isNone then (.done 7 [], s)
    else
      match cfgBad c with
      | some i => (.detail 4 i, s)
      | none =>
        if s.rangeClash p g then (.detail 4 4, s)
        else if s.tierFree false < n + n / 8192 + mbLe c 28 2 * 16384 then (.done 8 [], s)
        else
          (.started (.partCreate p) 0xFFFFFFFF, s.onPart p fun q =>
            { q with cfg := g, reserve := mbLe c 28 2, st := .disabled, drained := true, unfinished := true, overlap := false, trkRes := false, fltRes := false }))

/-- PART_RESIZE (R642, R643). -/
def execPartResize (t : Ns) (c : Mbx) (s : State) : Host.Outcome State Fault Refusal :=
  .next ((s.tick t).command c 0xC101 { mgmt 8 with rsv := [1, 2, 3], part := some 0, bg := some .none } fun s =>
    let p := mbByte c 0
    let q := s.part p
    let v := mbLe c 4 4
    let g := { q.cfg with dataSize := BitVec.ofNat 18 v }
    let more := (v - q.cfg.dataSize.toNat) * 16384
    if q.st ≠ .disabled ∨ !q.drained ∨ !q.live.isEmpty then (.done 7 [], s)
    else if 262143 < v ∨ s.rangeClash p g then (.detail 4 4, s)
    else if s.tierFree false < more + more / 8192 then (.done 8 [], s)
    else (.started (.partResize p v) 0xFFFFFFFF, s.onPart p fun q => { q with unfinished := true, overlap := false, trkRes := false, fltRes := false }))

/-- PART_DESTROY (R642, R643). -/
def execPartDestroy (t : Ns) (c : Mbx) (s : State) : Host.Outcome State Fault Refusal :=
  .next ((s.tick t).command c 0xC102 { mgmt 2 with presence := true, part := some 0, bg := some .none } fun s =>
    let p := mbByte c 0
    let q := s.part p
    if 1 < mbByte c 1 then (.detail 4 1, s)
    else if !((q.st == .disabled && q.drained) || q.st == .stopped) then (.done 7 [], s)
    else (.started (.partDestroy p (mbByte c 1 == 1)) 0xFFFFFFFF, s))

/-- STATE of R642. -/
def PState.code : PState → Nat
  | .free => 0
  | .disabled => 1
  | .draining => 2
  | .enabled => 3
  | .stopped => 4

/-- PART_QUERY (R642): 48 bytes. -/
def execPartQuery (t : Ns) (c : Mbx) (s : State) : Host.Outcome State Fault Refusal :=
  .next ((s.tick t).command c 0xC103 { CmdKind.plain true 1 with part := some 0 } fun s =>
    let p := mbByte c 0
    let q := s.part p
    (.done 0 (leBytes 1 q.st.code ++ leBytes 1 (b2n q.overlap + 2 * b2n q.trkRes + 4 * b2n q.fltRes + 8 * b2n q.drained + 16 * b2n q.unfinished)
      ++ zeros 6 ++ q.cfgBytes p ++ leBytes 4 (s.hostSet p).length ++ leBytes 1 (sumOf (fun x => 2 ^ x.1) q.live) ++ zeros 3), s))

/-- A pending-enable entry that is not in use (R696). -/
def State.freePend (s : State) : Option Nat := (List.range 64).find? fun k => !bitN (Tbl.get 0 s.blk.pend k) 0

/-- PART_ENABLE (R63, R642): a pending-enable entry of its own, then an ENABLE instant that names it. -/
def State.enableCmd (s : State) (c : Mbx) (act : Nat) : Reply × State :=
  let p := mbByte c 0
  let q := s.part p
  let scope := mbByte c 2
  if mbByte c 1 ≠ act then (.detail 4 1, s)
  else if 1 < scope ∨ (scope = 0 ∧ s.twin.st = .paired) then (.detail 4 2, s)
  else if act = 1 ∧ (q.st = .free ∨ q.st = .stopped ∨ q.st = .enabled ∨ q.unfinished) then (.done 7 [], s)
  else if act = 0 ∧ q.st ≠ .enabled then (.done 7 [], s)
  else if act = 1 ∧ (s.trkOver p ∨ s.fltOver p) then (.done 8 [], s)
  else
    match s.freePend with
    | none => (.done 8 [], s)
    | some k => (s.onBlk fun b => { b with pend := Tbl.set b.pend k (1 + 2 * act + 16 * p + 2048) }).instCmd c.mb.val 6 scope k (mbLe c 8 8)

/-- PART_ENABLE_SET (R642). -/
def execPartEnableSet (t : Ns) (c : Mbx) (s : State) : Host.Outcome State Fault Refusal :=
  .next ((s.tick t).command c 0xC104 { mgmt 16 with rsv := [3, 4, 5, 6, 7], part := some 0 } fun s => s.enableCmd c 1)

/-- PART_ENABLE_CLEAR (R642). -/
def execPartEnableClear (t : Ns) (c : Mbx) (s : State) : Host.Outcome State Fault Refusal :=
  .next ((s.tick t).command c 0xC104 { mgmt 16 with rsv := [3, 4, 5, 6, 7], part := some 0 } fun s => s.enableCmd c 0)

/-- PART_RESTART (R65, R68): a STOPPED partition that has drained becomes DISABLED. -/
def execPartRestart (t : Ns) (c : Mbx) (s : State) : Host.Outcome State Fault Refusal :=
  .next ((s.tick t).command c 0xC105 { mgmt 1 with part := some 0 } fun s =>
    let p := mbByte c 0
    if (s.part p).st ≠ .stopped ∨ !(s.part p).drained then (.done 7 [], s)
    else (.done 0 [], (s.onPart p fun q => { q with st := .disabled }).putBack (.part p)))

/-- PART_QUIET (R225): applied at once, also while the start-up refresh runs, for which step 9 has acted; else at start-up step 9. -/
def execPartQuiet (t : Ns) (c : Mbx) (s : State) : Host.Outcome State Fault Refusal :=
  .next ((s.tick t).command c 0xC106 { mgmt 1 with part := some 0 } fun s =>
    let p := mbByte c 0
    if (s.part p).st = .free ∨ (s.part p).wasEnabled then (.done 7 [], s)
    else if 10 ≤ s.pwr.step ∨ s.pwr.refreshing then (.done 0 [], s.applyQuiet p)
    else (.done 0 [], s.onPart p fun q => { q with quietPend := true }))

/-- PART_SCRATCH (R268, R642): pair 3, 5, 7 or 9. -/
def State.scratchCmd (s : State) (c : Mbx) (act : Nat) : Reply × State :=
  let p := mbByte c 0
  let k := mbByte c 1
  if !([3, 5, 7, 9] : List Nat).contains k then (.detail 4 1, s)
  else if mbByte c 2 ≠ act then (.detail 4 2, s)
  else if (s.part p).st ≠ .disabled ∨ !s.scratchReady k ∨ !s.scratchReady (k + 1) ∨ (s.parts.any fun x => x.1 != p && x.2.pairs.contains k) then (.done 7 [], s)
  else if act = 1 then (.done 0 [], s.onPart p fun q => { q with pairs := insertNat k q.pairs })
  else if !(s.part p).pairs.contains k then (.done 7 [], s)
  else (.done 0 [], s.onPart p fun q => { q with pairs := q.pairs.filter (· != k) })

/-- PART_SCRATCH_ASSIGN (R642). -/
def execPartScratchAssign (t : Ns) (c : Mbx) (s : State) : Host.Outcome State Fault Refusal :=
  .next ((s.tick t).command c 0xC107 { mgmt 3 with part := some 0 } fun s => s.scratchCmd c 1)

/-- PART_SCRATCH_RELEASE (R642). -/
def execPartScratchRelease (t : Ns) (c : Mbx) (s : State) : Host.Outcome State Fault Refusal :=
  .next ((s.tick t).command c 0xC107 { mgmt 3 with part := some 0 } fun s => s.scratchCmd c 0)

/-- HOST_PORT_SET (R29, R70, R128, R129, R642). -/
def execHostPortSet (t : Ns) (c : Mbx) (s : State) : Host.Outcome State Fault Refusal :=
  .next ((s.tick t).command c 0xC108 (mgmt 16) fun s =>
    let h := mbLe c 0 2
    let i := mbByte c 2
    let en := mbByte c 3 == 1
    let memb := BitVec.ofNat 64 (mbLe c 4 8)
    let req := mbLe c 12 2
    let rwd := mbLe c 14 2
    let q := s.hp h
    if 1023 < h then (.detail 4 0, s)
    else if 15 < i then (.detail 4 2, s)
    else if 1 < mbByte c 3 then (.detail 4 3, s)
    else if req < 1 ∨ 1024 < req then (.detail 4 12, s)
    else if rwd < 1 ∨ 512 < rwd then (.detail 4 14, s)
    else if (q.enable ∧ (i ≠ q.intake ∨ req ≠ q.reqCr ∨ rwd ≠ q.rwdCr)) ∨ s.membClash h memb then (.done 7 [], s)
    else if en ∧ !q.enable ∧ s.credOver h i req rwd then (.done 8 [], s.onHp h fun q => { q with credRes := true })
    else (.done 0 [], s.onHp h fun q => { q with memb := memb, intake := i, reqCr := req, rwdCr := rwd, enable := en, credRes := false }))

/-- HOST_PORT_RESTORE (R126, R228). -/
def execHostPortRestore (t : Ns) (c : Mbx) (s : State) : Host.Outcome State Fault Refusal :=
  .next ((s.tick t).command c 0xC109 (mgmt 2) fun s =>
    let h := mbLe c 0 2
    if 1023 < h then (.detail 4 0, s)
    else if !(s.hp h).unresp then (.done 7 [], s)
    else (.done 0 [], s.restoreHost h))

/-- Mailbox line writes of a ticket area, while intake port 0 has free ticket places (R129, R356, R713). -/
def State.areaPump (mb p left : Nat) : Nat → State → State
  | 0, s => s
  | fuel + 1, s =>
    let kept := (s.ip 0).kept
    let out := (kept.filter fun k => k.own == .ticketArea mb).length
    let q := s.part p
    if left ≤ out || 256 ≤ (kept.filter fun k => k.own != .host).length then s
    else
      State.areaPump mb p left fuel
        (s.lineWrite (.ticketArea mb) (q.dataLo + q.ticketBase * 1024 + (q.ticketSlots - left) + out) p 0)

/-- TICKET_AREA (R356, R642): the area is set and every line of it written with zeros. -/
def execTicketArea (t : Ns) (c : Mbx) (s : State) : Host.Outcome State Fault Refusal :=
  .next ((s.tick t).command c 0xC10A { CmdKind.plain true 10 with rsv := [1, 2, 3], part := some 0 } fun s =>
    let p := mbByte c 0
    let q := s.part p
    let b := mbLe c 4 4
    let n := mbLe c 8 2
    if 1024 < n then (.detail 4 8, s)
    else if q.dataLen < b * 1024 + n then (.detail 4 4, s)
    else if q.st = .free ∨ q.st = .enabled then (.done 7 [], s)
    else
      let s := s.onPart p fun q => { q with ticketBase := b, ticketSlots := n }
      if n = 0 then (.done 0 [], s) else (.wait (.lines n), State.areaPump c.mb.val p n 256 s))

/-- PART_SET (R642). -/
def execPartSet (t : Ns) (c : Mbx) (s : State) : Host.Outcome State Fault Refusal :=
  .next ((s.tick t).command c 0xC10B { mgmt 32 with rsv := [31], part := some 0 } fun s =>
    let p := mbByte c 0
    let q := s.part p
    let g := cfgOf c 0
    if q.st ≠ .disabled then (.done 7 [], s)
    else
      match cfgBad c with
      | some i => (.detail 4 i, s)
      | none =>
        if g.dataBase ≠ q.cfg.dataBase then (.detail 4 4, s)
        else if g.dataSize ≠ q.cfg.dataSize then (.detail 4 8, s)
        else if !q.winBind.isEmpty ∧ (g.winBase ≠ q.cfg.winBase ∨ g.winSlots ≠ q.cfg.winSlots) then (.detail 4 12, s)
        else if s.rangeClash p g then (.detail 4 12, s)
        else (.done 0 [], s.onPart p fun q => { q with cfg := g, reserve := mbLe c 28 2, overlap := false, trkRes := false, fltRes := false }))

/-! ### Placement (R645) -/

/-- PLACE_GOAL (R476, R645). -/
def execPlaceGoal (t : Ns) (c : Mbx) (s : State) : Host.Outcome State Fault Refusal :=
  .next ((s.tick t).command c 0xC110 { mgmt 4 with rsv := [1], part := some 0 } fun s =>
    let p := mbByte c 0
    let g := min (mbLe c 2 2) (s.part p).cfg.fastQuota.toNat
    if (s.part p).st = .free then (.done 7 [], s) else (.done 0 (leBytes 2 g), s.onPart p fun q => { q with goal := g }))

/-- FROZEN tracts of a partition: in the map, or in the frozen list with their lines in its data range (R440). -/
def State.frozenTracts (s : State) (p : Nat) : Nat :=
  s.partTracts p (fun e => meState e == 5) + (s.place.frozen.filter fun f => f.listed && (s.part p).inData (f.tract * 1024)).length

/-- PLACE_QUERY (R645). -/
def execPlaceQuery (t : Ns) (c : Mbx) (s : State) : Host.Outcome State Fault Refusal :=
  .next ((s.tick t).command c 0xC111 { CmdKind.plain true 1 with part := some 0 } fun s =>
    let p := mbByte c 0
    let q := s.part p
    if q.st = .free then (.done 7 [], s)
    else (.done 0 (leBytes 4 (s.fastTracts p) ++ leBytes 4 (s.partTracts p fun _ => true) ++ leBytes 1 q.kFactor ++ zeros 1
      ++ leBytes 2 (min q.goal q.cfg.fastQuota.toNat) ++ leBytes 4 (s.frozenTracts p) ++ leBytes 4 (s.partTracts p fun e => meState e == 6)), s))

/-! ### Plates (R646) -/

/-- The window that a plate is bound to. -/
def Part.windowOf (q : Part) (j : Nat) : Option Nat := (q.winBind.find? fun x => x.2 == j).map Prod.fst

/-- PLATE_BIND (R322, R646). -/
def execPlateBind (t : Ns) (c : Mbx) (s : State) : Host.Outcome State Fault Refusal :=
  .next ((s.tick t).command c 0xC121 { CmdKind.plain true 3 with part := some 0 } fun s =>
    let p := mbByte c 0
    let j := mbByte c 1
    let w := mbByte c 2
    let q := s.part p
    if 7 < j then (.detail 4 1, s)
    else if q.slots ≤ w then (.detail 4 2, s)
    else if !((Tbl.find q.plates j).any fun x => x.st == .exposed) ∨ (Tbl.find q.winBind w).isSome ∨ (q.windowOf j).isSome then (.done 7 [], s)
    else (.done 0 [], s.onPart p fun q => { q with winBind := Tbl.set q.winBind w j }))

/-- PLATE_UNBIND (R646, R647). -/
def execPlateUnbind (t : Ns) (c : Mbx) (s : State) : Host.Outcome State Fault Refusal :=
  .next ((s.tick t).command c 0xC122 { CmdKind.plain true 2 with part := some 0 } fun s =>
    let p := mbByte c 0
    let w := mbByte c 1
    if (Tbl.find (s.part p).winBind w).isNone then (.done 7 [], s)
    else (.done 0 [], s.onPart p fun q => { q with winBind := Tbl.del q.winBind w }))

/-- PLATE_RELEASE (R323, R646): a PENDING plate whose slot can still be cancelled cancels it. -/
def execPlateRelease (t : Ns) (c : Mbx) (s : State) : Host.Outcome State Fault Refusal :=
  .next ((s.tick t).command c 0xC123 { CmdKind.plain true 2 with part := some 0, bg := some .none } fun s =>
    let p := mbByte c 0
    let j := mbByte c 1
    let q := s.part p
    if 7 < j then (.detail 4 1, s)
    else
      match Tbl.find q.live j with
      | none => (.done 7 [], s)
      | some x =>
        if (q.windowOf j).isSome then (.done 7 [], s)
        else
          match x.st with
          | .armed =>
            let r := s.cancelSlot x.slot
            (.done (if r.1 then 0 else 7) [], r.2)
          | .exposed => (.started (.plateRelease p j) 0xFFFFFFFF, s.onPart p fun q => { q with plates := Tbl.set q.plates j { x with st := .releasing } })
          | _ => (.done 7 [], s))

/-- Two members of a list are the same. -/
def hasRepeat : List (Nat × Nat) → Bool
  | [] => false
  | a :: r => r.contains a || hasRepeat r

/-- PLATE_GROUP_NAME (R315, R646). -/
def execPlateGroupName (t : Ns) (c : Mbx) (s : State) : Host.Outcome State Fault Refusal :=
  .next ((s.tick t).command c 0xC124 { mgmt 0 with len := (4, 132), rsv := [3] } fun s =>
    let g := mbByte c 0
    let n := mbByte c 2
    let ws := (List.range n).map fun k => mbLe c (4 + 2 * k) 2
    let ms := ws.map fun w => (w % 64, w / 64 % 16)
    if 63 < g then (.detail 4 0, s)
    else if mbByte c 1 ≠ 1 then (.detail 4 1, s)
    else if n < 1 ∨ 64 < n ∨ c.input.length ≠ 4 + 2 * n then (.detail 4 2, s)
    else if (ws.any fun w => 1024 ≤ w) ∨ hasRepeat ms then (.detail 4 4, s)
    else if !s.mer.member ∨ !s.mer.domOk ∨ (s.groups.any fun x => x.1 != g && x.2.any fun m => ms.contains m) then (.done 7 [], s)
    else (.done 0 [], { s with groups := Tbl.set s.groups g ms }))

/-- PLATE_GROUP_DISSOLVE (R646, R22): COUNT and the entries are checked as for a name (DEDUCED, log 59); the
group is dissolved whole. -/
def execPlateGroupDissolve (t : Ns) (c : Mbx) (s : State) : Host.Outcome State Fault Refusal :=
  .next ((s.tick t).command c 0xC124 { mgmt 0 with len := (4, 132), rsv := [3] } fun s =>
    let g := mbByte c 0
    let n := mbByte c 2
    let ws := (List.range n).map fun k => mbLe c (4 + 2 * k) 2
    if 63 < g then (.detail 4 0, s)
    else if mbByte c 1 ≠ 0 then (.detail 4 1, s)
    else if n < 1 ∨ 64 < n ∨ c.input.length ≠ 4 + 2 * n then (.detail 4 2, s)
    else if (ws.any fun w => 1024 ≤ w) ∨ hasRepeat (ws.map fun w => (w % 64, w / 64 % 16)) then (.detail 4 4, s)
    else if !s.mer.member ∨ !s.mer.domOk ∨ (s.parts.any fun x => x.2.live.any fun y => y.2.group == some g) then (.done 7 [], s)
    else (.done 0 [], { s with groups := Tbl.del s.groups g }))

/-- STATE of PLATE_QUERY (R646). -/
def PlSt.code : PlSt → Nat
  | .armed | .pending => 1
  | .exposed => 2
  | .releasing => 3
  | .withdrawn => 4

/-- PLATE_QUERY (R646). -/
def execPlateQuery (t : Ns) (c : Mbx) (s : State) : Host.Outcome State Fault Refusal :=
  .next ((s.tick t).command c 0xC125 { CmdKind.plain true 1 with part := some 0 } fun s =>
    let q := s.part (mbByte c 0)
    let one := fun k =>
      match Tbl.find q.plates k with
      | none => [0, 0xFF] ++ zeros 14
      | some x => leBytes 1 x.st.code ++ leBytes 1 ((q.windowOf k).getD 0xFF) ++ leBytes 1 (b2n x.group.isSome) ++ zeros 1
          ++ leBytes 4 (x.map.filter fun y => y.2 == 2).length ++ leBytes 8 x.epoch
    (.done 0 ((List.range 8).map one).flatten, s))

/-! ### Fault records (R651) -/

/-- ALM_READ (R651): next RECNO is the number that the next record takes (DESIGN CHOICE, log 59). -/
def execAlmRead (t : Ns) (c : Mbx) (s : State) : Host.Outcome State Fault Refusal :=
  .next ((s.tick t).command c 0xC160 { mgmt 6 with failsafe := true } fun s =>
    let o := mbLe c 0 4
    let m := mbByte c 4
    if m < 1 ∨ 126 < m then (.detail 4 4, s)
    else if 1 < mbByte c 5 then (.detail 4 5, s)
    else
      let l := (s.win.recs.filter fun r => o == 0xFFFFFFFF || r.recno == o || later32 r.recno o).take m
      let s' := match l.getLast? with
        | some r => if mbByte c 5 = 1 then State.onWin s fun w => { w with ack := r.recno } else s
        | none => s
      (.done 0 (leBytes 4 s.win.nextRec ++ leBytes 1 l.length ++ zeros 3
        ++ ((List.range 5).map fun k => leBytes 4 (Tbl.get 0 s.live ((0x0A0940 + 8 * k) * 64) % 2 ^ 32)).flatten ++ zeros 4 ++ (l.map AlmRec.bytes).flatten), s'))

/-- The first-fault record as the command returns it (R651): the Almanac record and VALID. -/
def State.firstBytes (s : State) : List Byte :=
  match s.win.first with
  | some f =>
    match s.win.recs.find? fun r => r.recno == f.recno with
    | some r => r.bytes ++ [1]
    | none => zeros 32 ++ [1]
  | none => zeros 33

/-- FIRST_FAULT_READ (R651). -/
def execFirstFaultRead (t : Ns) (c : Mbx) (s : State) : Host.Outcome State Fault Refusal :=
  .next ((s.tick t).command c 0xC161 { mgmt 1 with failsafe := true } fun s =>
    if mbByte c 0 ≠ 0 then (.detail 4 0, s) else (.done 0 s.firstBytes, s))

/-- R562: the clear is refused while the record's reaction is in progress or the block is fail-safe. -/
def State.firstBusy (s : State) : Bool :=
  s.win.failsafe ||
    match s.win.first with
    | some f => s.win.reacts.any fun r => r.recno == f.recno && !r.done && !s.progressed r
    | none => false

/-- Clear the first-fault record (R562): ignored and counted in Winnow's IGNORED_WRITES while it is refused. -/
def State.clearFirst (s : State) : State :=
  if s.firstBusy then s.bumpWin 7 16 16 else State.onWin s fun w => { w with first := none }

/-- FIRST_FAULT_CLEAR (R562, R651). -/
def execFirstFaultClear (t : Ns) (c : Mbx) (s : State) : Host.Outcome State Fault Refusal :=
  .next ((s.tick t).command c 0xC161 { mgmt 1 with failsafe := true } fun s =>
    if mbByte c 0 ≠ 1 then (.detail 4 0, s) else (.done (if s.firstBusy then 7 else 0) s.firstBytes, s.clearFirst))

/-- The 32 bytes of a log entry (R530). -/
def CeEntry.bytes (e : CeEntry) : List Byte :=
  leBytes 1 e.kind ++ leBytes 1 e.unit ++ leBytes 1 e.symbol ++ leBytes 1 e.lane ++ leBytes 1 e.mask ++ leBytes 1 (b2n e.wb + 2 * b2n e.hard)
    ++ leBytes 2 e.count ++ leBytes 8 e.addr ++ leBytes 8 e.first ++ leBytes 8 e.last

/-- CE_LOG (R651). -/
def execCeLog (t : Ns) (c : Mbx) (s : State) : Host.Outcome State Fault Refusal :=
  .next ((s.tick t).command c 0xC162 { mgmt 1 with failsafe := true } fun s =>
    let q := s.stk (mbByte c 0)
    if 15 < mbByte c 0 then (.detail 4 0, s)
    else (.done 0 (leBytes 4 q.ceStatus ++ ((q.ceLog.map CeEntry.bytes).flatten ++ zeros 1024).take 1024), s))

/-- WARN_TIME of a last-gasp record (R605). -/
def gaspTime (b : List Byte) : Nat := ofLeBytes ((b.drop 8).take 8)

/-- The slot of the newer valid last-gasp record (R605). -/
def State.newerGasp (s : State) : Option Nat :=
  match Tbl.find s.pwr.gasp 0, Tbl.find s.pwr.gasp 1 with
  | some a, some b => some (if gaspTime a < gaspTime b then 1 else 0)
  | some _, none => some 0
  | none, some _ => some 1
  | none, none => none

/-- LASTGASP (R605, R651). -/
def execLastgasp (t : Ns) (c : Mbx) (s : State) : Host.Outcome State Fault Refusal :=
  .next ((s.tick t).command c 0xC163 { mgmt 1 with failsafe := true } fun s =>
    let k := mbByte c 0
    if 2 < k then (.detail 4 0, s)
    else
      match (if k = 2 then s.newerGasp else some k).bind fun k => Tbl.find s.pwr.gasp k with
      | some b => (.done 0 b, s)
      | none => (.done 7 [], s))

/-! ### OTP (R537, R616, R653, TWIN_PAIR) -/

/-- The start of a programming command (R588, R616): the home asks the supervisor for VDD_OTP and the command waits. -/
def State.otpStart (s : State) (g p mb : Nat) : Reply × State :=
  if s.pwr.otpJob.isSome then (.done 7 [], s)
  else if otpFrozen s.pwr.otp g then (.done 8 [], s)
  else (.wait .otp, (s.onPwr fun q => { q with otpJob := some ⟨g, p, mb⟩ }).send (.supervisor 1))

/-- The form of an OTP command (R635). -/
def otpCmd (n : Nat) : CmdKind := { mgmt n with presence := true, otp := true }

/-- OTP_REPAIR (R537, R653). -/
def execOtpRepair (t : Ns) (c : Mbx) (s : State) : Host.Outcome State Fault Refusal :=
  .next ((s.tick t).command c 0xC180 (otpCmd 0) fun s =>
    match s.nextRepairs with
    | some rs => s.otpStart 0 (packRecs 24 rs) c.mb.val
    | none => (.done 8 [], s.raiseC 0x5D8 (256 + 537) (some 2) 0 0 0 0))

/-- OTP_DEFAULTS (R614, R653). -/
def execOtpDefaults (t : Ns) (c : Mbx) (s : State) : Host.Outcome State Fault Refusal :=
  .next ((s.tick t).command c 0xC181 { otpCmd 0 with len := (2, 278), rsv := [1] } fun s =>
    let n := mbByte c 0
    let rs := (List.range n).map fun k => mbLe c (2 + 6 * k) 6
    if n < 1 ∨ 46 < n ∨ c.input.length ≠ 2 + 6 * n then (.detail 4 0, s)
    else
      match (List.range n).find? fun k => rs.getD k 0 % 4 == 3 with
      | some k => (.detail 4 (2 + 6 * k), s)
      | none => s.otpStart 3 (packRecs 48 rs) c.mb.val)

/-- OTP_FLASH_PW (R653): the flash controller changes to the new password first; it takes the passwords directly, and its
answer is no command of the table (log 12). -/
def execOtpFlashPw (t : Ns) (c : Mbx) (s : State) : Host.Outcome State Fault Refusal :=
  .next ((s.tick t).command c 0xC182 (otpCmd 16) fun s =>
    let w := mbLe c 0 16
    if w = 0 then (.detail 4 0, s)
    else
      let r := s.otpStart 4 w c.mb.val
      match r.1 with
      | .wait x => (.wait x, (r.2.onPwr fun q => { q with grant := true }).send (.flashDirect ((s.otpUse 4).getD 0) w))
      | x => (x, r.2))

/-- OTP_FACTORY_LOCK (R617, R635, R653). -/
def execOtpFactoryLock (t : Ns) (c : Mbx) (s : State) : Host.Outcome State Fault Refusal :=
  .next ((s.tick t).command c 0xC183 { otpCmd 0 with service := true } fun s =>
    if (otpNewest s.pwr.otp 5).isSome then (.done 7 [], s) else s.otpStart 5 0 c.mb.val)

/-- OTP_READ (R653): zeros for FLASH_PW. -/
def execOtpRead (t : Ns) (c : Mbx) (s : State) : Host.Outcome State Fault Refusal :=
  .next ((s.tick t).command c 0xC184 (mgmt 2) fun s =>
    let g := mbByte c 0
    let i := mbByte c 1
    if 5 < g then (.detail 4 0, s)
    else if 3 < i ∧ i ≠ 0xFF then (.detail 4 1, s)
    else
      match if i = 0xFF then otpNewest s.pwr.otp g else if otpValid s.pwr.otp g i then some i else none with
      | some i => (.done 0 (if g = 4 then zeros 16 else leBytes (otpBits g / 8) (otpPayload s.pwr.otp g i)), s)
      | none => (.done 7 [], s))

/-- TWIN_PAIR (R380, R649): writes the TWIN_PAIRING group, in effect from the next power-up. -/
def execTwinPair (t : Ns) (c : Mbx) (s : State) : Host.Outcome State Fault Refusal :=
  .next ((s.tick t).command c 0xC140 { otpCmd 16 with rsv := [11, 12, 13, 14, 15] } fun s =>
    if 1 < mbByte c 10 then (.detail 4 10, s)
    else s.otpStart 2 (mbByte c 10 + 2 * mbLe c 8 2 + 2 ^ 17 * mbLe c 0 8) c.mb.val)

/-- OTP_GOOD_RISE (R616): the slot is programmed and verified by three reads; the command completes. -/
def execOtpGoodRise (t : Ns) (readBack : BitVec 16384) (s : State) : Host.Outcome State Fault Refusal :=
  let s := (s.tick t).onPwr fun q => { q with railOtp := true }
  .next (match s.pwr.otpJob with
    | none => s
    | some j =>
      match otpNext s.pwr.otp j.group with
      | none => s.onPwr fun q => { q with otpJob := none }
      | some i =>
        let r := s.otpWrite j.group i j.payload readBack
        let s := (r.2.onPwr fun q => { q with otpJob := none, grant := q.grant && j.group != 4, railOtp := false }).send (.supervisor 2)
        if r.1 then s.mbxDone j.mb 0 (if j.group = 5 then [] else if j.group = 0 then [BitVec.ofNat 8 i, BitVec.ofNat 8 (repairRecs j.payload).length] else [BitVec.ofNat 8 i]) 0xFFFFFFFF
        else (if j.group = 4 then s.send (.flashDirect j.payload ((s.otpUse 4).getD 0)) else s).mbxDone j.mb 5 [] 0xFFFFFFFF)

/-! ### Retirement and capacity (R471, R650, R654) -/

/-- RETIRE_CLEAR_ENTRY (R654): clears a log entry of a stook; the entries below it keep their order. -/
def execRetireClearEntry (t : Ns) (c : Mbx) (s : State) : Host.Outcome State Fault Refusal :=
  .next ((s.tick t).command c 0xC190 { mgmt 12 with rsv := [3] } fun s =>
    let k := mbByte c 1
    let e := mbByte c 2
    if mbByte c 0 ≠ 1 then (.detail 4 0, s)
    else if 15 < k then (.detail 4 1, s)
    else if (s.stk k).ceLog.length ≤ e then (.done 7 [], s)
    else (.done 0 (zeros 4), s.onStk k fun q => { q with ceLog := q.ceLog.eraseIdx e }))

/-- R470: the drain estimate in ms of `n` occupied tracts at the DRAIN_CAP in force. -/
def State.drainMs (s : State) (n : Nat) : Nat :=
  let r := min (s.place.drainCap * 20480000000 * 64 / 72) 56890000000
  n * 65536 * 1000 / r

/-- CAP_QUERY (R650). -/
def execCapQuery (t : Ns) (c : Mbx) (s : State) : Host.Outcome State Fault Refusal :=
  .next ((s.tick t).command c 0xC152 (mgmt 1) fun s =>
    let m := mbByte c 0
    let q := s.mp m
    if 31 < m then (.detail 4 0, s)
    else (.done 0 (leBytes 1 (b2n q.present + 2 * b2n q.mapPort + 4 * b2n q.draining + 8 * b2n (!q.fast)) ++ zeros 3 ++ leBytes 4 q.dataTracts
      ++ leBytes 4 q.freeTracts ++ leBytes 4 (q.countSt 1) ++ leBytes 4 (q.countSt 3)
      ++ leBytes 4 (if q.draining then s.drainMs (q.countSt 1) else 0xFFFFFFFF)), s))

/-! ### Flash (R655) -/

/-- The selector copy in force: that of the higher GEN (R657). -/
def State.selector (s : State) : Option (Nat × Nat × Bool) :=
  match Tbl.find s.pwr.sels 0, Tbl.find s.pwr.sels 1 with
  | some a, some b => some (if a.1 < b.1 then (1, b) else (0, a))
  | some a, none => some (0, a)
  | none, some b => some (1, b)
  | none, none => none

/-- FLASH_INFO (R655). -/
def execFlashInfo (t : Ns) (c : Mbx) (s : State) : Host.Outcome State Fault Refusal :=
  .next ((s.tick t).command c 0xC1A0 (mgmt 0) fun s =>
    let im := fun k => Tbl.get (false, 0, 0) s.pwr.images k
    let sel := s.selector.getD (0, 0, false)
    (.done 0 (leBytes 1 (b2n s.pwr.bootBlock) ++ leBytes 1 (b2n sel.2.2) ++ leBytes 1 (b2n (im 0).1 + 2 * b2n (im 1).1 + 4 * b2n s.pwr.fellBack) ++ zeros 1
      ++ leBytes 4 sel.2.1 ++ leBytes 8 (im 0).2.1 ++ leBytes 8 (im 1).2.1 ++ leBytes 4 (im 0).2.2 ++ leBytes 4 (im 1).2.2 ++ zeros 32), s))

/-- DIR_REFRESH (R227): patrol scrub runs at up to the migration cap
until a pass completes. -/
def execDirRefresh (t : Ns) (c : Mbx) (s : State) : Host.Outcome State Fault Refusal :=
  .next ((s.tick t).command c 0xC191 { mgmt 0 with bg := some .none } fun s =>
    if s.place.refresh then (.done 7 [], s) else (.started .dirRefresh 0xFFFFFFFF, s.onPlace fun q => { q with refresh := true }))

end Sys2Proof.Machine
end

