-- ==== Sys2Proof/Machine/Ticket.lean ====
section
/-! DEFINITION. Barriers as their intake port holds them (R360 to R371): what each waits for, the ticket line (R369), and the ticket
writes in the order of the doorbells (R367, R368). -/

namespace Sys2Proof.Machine

/-- SCOPE (R355, R369). -/
def Scope.code : Scope → Nat
  | .host => 0
  | .partition => 1
  | .twin => 2
  | .domain => 3

/-- The scope that a number names. -/
def scopeOf : Nat → Scope
  | 0 => .host
  | 1 => .partition
  | 2 => .twin
  | _ => .domain

/-- The bytes of a ticket line (R369). -/
def Barrier.bytes (b : Barrier) : List Byte :=
  leBytes 4 b.ticket ++ leBytes 1 b.result ++ leBytes 1 b.scope.code ++ zeros 2
    ++ leBytes 8 (if b.scope = .domain ∧ b.result = 0 then b.serve.getD b.epoch else b.epoch) ++ leBytes 8 b.td ++ leBytes 8 (b.doneAt.getD 0) ++ zeros 32

/-- A fenced slice's replay is not wholly answered (R371). -/
def State.replaying (s : State) : Bool := s.slices.any fun c => c.2.cover.isSome

/-- A write's line and time are those that a barrier covers (R360, R363, R371); a DOMAIN barrier counts the slices' parts once the level has fallen
(R370), over every partition and up to its instant. -/
def Barrier.covers (b : Barrier) (w : Pend) : Bool :=
  if b.scope = .domain then w.accept ≤ b.instant || (w.replay && w.arrived < b.instant)
  else w.part == b.part && (w.accept ≤ b.td || (w.replay && w.arrived < b.td))

/-- Slice `n` can confirm its part of a barrier (R363, R371): every write that it covers has reached its level,
and no mirrored write of a partition taken over is still to be placed (R373). -/
def State.partServed (s : State) (n : Nat) (b : Barrier) : Bool :=
  let c := s.slc n
  !s.replaying && !(c.front.ents.any fun x => x.2.kind == .mirror && s.primary x.2.req.part && (b.scope == .domain || x.2.req.part == b.part))
    && !(c.front.pends.any fun w => w.ack.isNone && b.covers w
    && !(if b.scope = .partition && (s.twin.st != .unpaired || s.mer.member) then w.durable c.banks.wt else w.reached c.banks.wt))

/-- The barrier's covered writes have reached its level (R360 to R363): no replay that it waits for is open (R371), and once the completion level has
fallen a DOMAIN barrier waits for its own block alone (R370). -/
def State.barReady (s : State) (b : Barrier) (kept : List Kept) : Bool :=
  !(kept.any fun k => b.waits.contains k.req.tag) &&
    match b.scope with
    | .host => true
    | .partition => !s.replaying && b.slices.isEmpty
    | .twin => !s.replaying && b.slices.isEmpty && (b.twinOk || !s.twinLevel)
    | .domain => if b.result = 1 then !s.replaying && b.slices.isEmpty else b.serve.any fun e => e ≤ s.mer.domSealed

/-- A barrier completes (R369, R370): at solo-durable where its twin is absent or lost. A block configured without a twin has none to be absent, so that its
DOMAIN barrier, whose level is the domain's seal, completes at its level (DEDUCED, log 59). -/
def State.finishBar (s : State) (b : Barrier) : Barrier :=
  { b with doneAt := some s.time,
           result := match b.scope with
             | .twin => if s.twinLevel then b.result else 1
             | .domain => if s.twinLevel || s.twin.st == .unpaired then b.result else 1
             | _ => b.result }

/-- The next ticket write of host port `h` at port `i` (R367, R368): of its oldest barrier, once that is complete or refused, while a
ticket place is free (R129). -/
def State.tickets (s : State) (i h : Nat) : State :=
  match (s.ip i).bars.find? fun b => b.host == h with
  | some b =>
    if b.written || b.doneAt.isNone || 256 ≤ ((s.ip i).kept.filter fun k => k.own != .host).length then s
    else
      let q := s.part b.part
      let line := q.dataLo + q.ticketBase * 1024 + b.slot
      let s := s.onIp i fun p => { p with bars := p.bars.map fun x => if x.id = b.id then { x with written := true } else x }
      let r := { mkReq i (s.ip i).tag none .ticket line b.part (lineOf b.bytes) (BitVec.allOnes 64) s.time with tgen := Tbl.find (s.ip i).moving (tractOf line) }
      s.keep r (.ticket b.id) 0 (s.firstPlace r)
  | none => s

/-- The ticket of a barrier has been written, or fails (R366, R368, R81): the barrier is outstanding no longer; its host's next ticket
goes. -/
def State.ticketDone (s : State) (i id : Nat) : State :=
  match (s.ip i).bars.find? fun b => b.id == id with
  | some b =>
    let s := (s.release i b.echo).onIp i fun q => { q with bars := q.bars.filter fun x => x.id != id }
    (if b.refused then s else s.bumpPart b.part 1 0 32).tickets i b.host
  | none => s

/-- Every host port's next ticket. -/
def State.allTickets (s : State) : State :=
  State.each (fun (x : Nat × Intake) s => State.each (fun h s => s.tickets x.1 h) ((x.2.bars.map fun b => b.host).eraseDups) s) s.intakes s

/-- A ticket place of intake port 0 may have become free (R129): the mailbox line writes and the tickets that wait for one go on, the mailboxes
in their order. -/
def State.linePump (s : State) : State :=
  (State.each (fun mb s =>
    match (s.box mb).wait with
    | some .place =>
      match devPart mb with
      | some p => if s.lineRoom then (s.onBox mb fun b => { b with wait := some .line }).clearLine mb p else s
      | none => s
    | some (.lines k) => State.areaPump mb ((s.box mb).payload.getD 0 0).toNat k 256 s
    | _ => s) s.mbx.keys s).allTickets

/-- R292, R370: domain-scope operations are refused while a DOMAIN barrier is outstanding: it goes on as a TWIN barrier with RESULT 2. -/
def Barrier.undomain (b : Barrier) : Barrier := if b.scope = .domain ∧ b.doneAt.isNone then { b with scope := .twin, result := 2 } else b

/-- The barrier is a TWIN or DOMAIN one that has not completed (R370). -/
def Barrier.twinOpen (b : Barrier) : Bool := (b.scope == .twin || b.scope == .domain) && b.doneAt.isNone

/-- R370: the completion level falls while a TWIN or DOMAIN barrier is outstanding: every slice confirms its part anew, at solo-durable. -/
def Barrier.solo (b : Barrier) : Barrier := if b.twinOpen then { b with result := 1, slices := List.range 128 } else b

/-- R371: a slice is fenced while the barrier is outstanding: its buddy, which serves its replay, confirms its part anew. -/
def Barrier.refence (n : Nat) (b : Barrier) : Barrier :=
  if b.scope ≠ .host ∧ b.doneAt.isNone then { b with slices := insertNat n (insertNat (buddy n) b.slices) } else b

/-- Every outstanding barrier, administrative ones included, changed. -/
def State.onBars (s : State) (f : Barrier → Barrier) : State :=
  { s.allIps (fun q => { q with bars := q.bars.map f }) with adminBars := Tbl.mapv f s.adminBars }

end Sys2Proof.Machine
end

