-- ==== Sys2Proof/Machine/Serve.lean ====
section
/-! DEFINITION. Serving a tracker entry (spec chapters 3 to 6): its record (R99, R201, R418), its snoops (R101, R105 to R108, R116), holder
writebacks (R111), plate copies (R317 to R319), settle sequences and notices (R156, R157, R392), settling (R158, R256 to
R261), outcomes and their place in the filter (R105 to R110, R204 to R206), failure (R81, R711) and completion (R159, R343,
R347, R368, R713). -/

namespace Sys2Proof.Machine

/-! ### Outcomes of the transition tables (R105 to R110) -/

/-- The hosts that a record names, of the partition's host set (R71, R99, R116). -/
def State.named (s : State) (p : Nat) : HRec → List Nat
  | .inv => []
  | .shared hs => hs.filter fun h => s.member h p
  | .coarse v => (s.hostSet p).filter fun h => v.getLsbD (h / 16)
  | .many | .doubt => s.hostSet p
  | .owned h => if s.member h p then [h] else []

/-- The form's requester takes the line away from every other holder. -/
def formTakes : Form → Bool
  | .rdA | .rdI | .invA | .invI | .invNtA | .invNtI | .wrI | .wrS | .wrNo | .wrPtl | .ticket | .mbxLine => true
  | _ => false

/-- The hosts to snoop, ascending, and the snoop form (R105 to R108, R116, R202). -/
def State.snoopPlan (s : State) (r : Req) (rec' : HRec) : List Nat × SnpForm :=
  let others := fun (l : List Nat) => l.filter fun h => some h != r.host
  if r.plate.isSome || r.form == .clnEvct then ([], .inv)
  else
    match rec' with
    | .doubt => (others (s.hostSet r.part), .inv)
    | .owned g =>
      if some g == r.host then ([], .inv)
      else (s.named r.part (.owned g), if formTakes r.form then .inv else if r.form == .rdS || r.form == .rdData then .data else .cur)
    | x => if formTakes r.form then (others (s.named r.part x), .inv) else ([], .inv)

/-- The record with one more shared holder. -/
def HRec.join (h : Nat) : HRec → HRec
  | .shared hs => .shared (insertNat h hs)
  | .coarse v => .coarse (v ||| groupBits [h])
  | .many => .many
  | _ => .shared [h]

/-- The record after a request is served (R105 to R110), from the record it started with and the holders that stayed, each
with E for `true`; and whether a MemRdData is granted S. -/
def outcome (r : Req) (old : HRec) (stay : List (Nat × Bool)) (others : Bool) : HRec × Bool :=
  let h := r.host.getD 0
  let kept := fun (base : HRec) => stay.foldl (fun (x : HRec) (y : Nat × Bool) => if y.2 then HRec.owned y.1 else x.join y.1) base
  match r.form with
  | .rdA | .invA | .invNtA => (.owned h, false)
  | .rdS =>
    match old with
    | .shared _ | .coarse _ | .many => (old.join h, true)
    | _ => (HRec.join h (kept .inv), true)
  | .rdData =>
    match old with
    | .inv => (.owned h, false)
    | .shared _ | .coarse _ | .many => (old.join h, true)
    | .owned g => if some g == r.host then (.owned h, false) else (HRec.join h (kept .inv), true)
    | .doubt => if others then (HRec.join h (kept .inv), true) else (.owned h, false)
  | .rdCur | .rdNo =>
    match old with
    | .owned g => if some g == r.host then (.inv, false) else (kept .inv, false)
    | .doubt => (kept .inv, false)
    | x => (x, false)
  | .wrS => (.shared [h], false)
  | .clnEvct =>
    match old with
    | .owned g => if g = h then (.inv, false) else (old, false)
    | .shared hs =>
      let l := hs.filter (· != h)
      (if l.isEmpty then .inv else .shared l, false)
    | x => (x, false)
  | _ => (.inv, false)

/-! ### The record (R99, R154, R201, R418) -/

/-- R418: the partition's role moves here, and the line's record must come from the old primary. -/
def State.fetchDue (s : State) (p line : Nat) : Bool :=
  match Tbl.find s.twin.moves p with
  | some m => !m.old && m.phase == .handover && !m.walked.contains line && s.twin.st == .paired
  | none => false

/-- Once both lookups are done: the record of the directory copy when the filter gave none; an entry without it waits in
FETCH (R154). -/
def State.learn (s : State) (n e : Nat) : State :=
  match s.ent n e with
  | none => s
  | some x =>
    if !(x.fltDone && x.grnDone) then s
    else
      let x := if x.st = .lookup then { x with st := EState.fetch } else x
      match x.hrec, x.info with
      | none, some i =>
        if x.reread || x.fetching then s.putEnt n e x
        else
          let d := if x.lost then (HRec.doubt, false) else s.dirRec n x.req.line i
          let s := if d.2 then s.bumpSlc n 9 32 16 else s
          if d.1 == .doubt && s.fetchDue x.req.part x.req.line then
            ((s.putEnt n e { x with fetching := true }).bumpTwn 5 32 32).toTwin (.fetch x.req.line)
          else s.putEnt n e { x with hrec := some d.1, fromDir := true, lostDir := x.lost }
      | _, _ => s.putEnt n e x

/-- The snoops of the entry are decided (R118, R154): with any, the entry enters SNOOP. -/
def State.decideSnoops (s : State) (n e : Nat) : State :=
  match s.ent n e with
  | none => s
  | some x =>
    match x.hrec with
    | some h =>
      if x.snooped || !(x.fltDone && x.grnDone) then s
      else
        let pl := s.snoopPlan x.req h
        let s := if h == .doubt && x.req.form != .clnEvct then s.bumpSlc n 9 0 32 else s
        let x := { x with snooped := true, toIssue := pl.1, snp := pl.2, expect := pl.1.length }
        if pl.1.isEmpty then s.putEnt n e x
        else (s.putEnt n e { x with st := .snoop, snpOrder := (s.slc n).front.snpCount }).onFront n fun f => { f with snpCount := f.snpCount + 1 }
    | none => s

/-! ### Ways of a write (R245 to R248) -/

/-- The usable way of an entry's line: valid with this line, or FILLING for it. -/
def State.wayKey (s : State) (n : Nat) (x : Entry) : Option Nat :=
  let k := match x.way with
    | .hit k | .filling k | .evicting k => some k
    | _ => none
  k.filter fun k =>
    match Tbl.find (s.slc n).banks.grn k with
    | some g => g.line == x.req.line && g.st != .evicting
    | none => false

/-- A way for an entry that writes (R244, R245): the one it has, the line's own, or a fresh choice. -/
def State.ensureWay (s : State) (n e : Nat) : State :=
  match s.ent n e with
  | none => s
  | some x =>
    let lost := match x.way with
      | .hit _ | .filling _ => (s.wayKey n x).isNone
      | .evicting k => (s.slc n).banks.wayState k != .evicting && (s.wayKey n x).isNone
      | .none => true
      | _ => false
    if !lost then s
    else
      match (s.slc n).banks.grnFind x.req.line with
      | some k => if (s.slc n).banks.wayState k = GState.evicting then s else s.putEnt n e { x with way := .hit k }
      | none =>
        let r := s.chooseGrn n (some e) x.req.line x.req.part
        r.2.onEnt n e fun x => { x with way := r.1 }

/-! ### Plate copies (R317 to R319) -/

/-- The newest live plate of a partition whose boundary epoch is not later than `epoch`, of those that a boundary has begun. -/
def Part.plateFor (q : Part) (epoch : Nat) : Option Nat :=
  let l := q.plates.filter fun x => (x.2.st == .pending || x.2.st == .exposed || x.2.st == .releasing) && x.2.epoch ≤ epoch
  let top := l.foldl (fun m x => max m x.2.epoch) 0
  (l.find? fun x => x.2.epoch == top).map Prod.fst

/-- The reserve tract of a plate for a tract position (R318): the one that holds its copies, or a new one from the reserve. -/
def State.reserveFor (s : State) (p j pos : Nat) : Option (Nat × State) :=
  let q := s.part p
  match Tbl.find q.plates j with
  | none => none
  | some x =>
    match Tbl.find x.dir pos with
    | some r => some (r, s)
    | none =>
      if q.reserveTracts ≤ q.reserveUsed then none
      else
        match s.alloc false with
        | none => none
        | some ((m, mt), s) =>
          let r := m * 2 ^ 27 + mt
          let s := (s.setLedger m mt 2).onPart p fun q =>
            { q with resUsed := q.resUsed ++ [r], plates := Tbl.set q.plates j { x with dir := Tbl.set x.dir pos r } }
          some (r, s)

/-- The copy map entry of a plate's line written. -/
def State.setCopy (s : State) (p j pos v : Nat) : State :=
  s.onPart p fun q =>
    match Tbl.find q.plates j with
    | some x => { q with plates := Tbl.set q.plates j { x with map := Tbl.set x.map pos v } }
    | none => q

/-- R317: before a write of epoch `epoch` changes the entry's line, its current value is copied to the newest live plate that
shares it; with no value or no room the entry becomes LOST. During a split the reserve tract is marked (R409). The write's settle waits while the copy is not accepted. -/
def State.plateCopy (s : State) (n e epoch seq : Nat) : State :=
  match s.ent n e with
  | none => s
  | some x =>
    match x.base, (s.part x.req.part).plateFor epoch with
    | some v, some j =>
      let p := x.req.part
      let pos := x.req.line - (s.part p).dataLo
      let shared := match Tbl.find (s.part p).plates j with
        | some y => (Tbl.find y.map pos).isNone
        | none => false
      if !shared then s
      else
        let s := s.endResv n x.req.line
        if x.lost then s.setCopy p j pos 2
        else
          match s.reserveFor p j (pos / 1024) with
          | none => ((s.setCopy p j pos 2).bumpMer 6 0 32).raise (srcSlc n 6) (256 + 319) x.req.line p j
          | some (r, s) =>
            let s := (s.splitMark n (resMark r)).2
            let s := ((s.setCopy p j pos 1).bumpMer 5 0 64).onEnt n e fun x => { x with copyWait := true }
            s.media (r / 2 ^ 27) n (.plate seq e) x.req.line (r % 2 ^ 27) true (encodeLine v (mkMeta 0 0 0 p x.pois 0))
    | _, _ => s

/-! ### Settle sequences, notices, settle records (R156, R157, R310, R392) -/

/-- A write takes its settle sequence: its pending record, its notices, one to the port of each kept header (R157), and its settle record. `tags` are the kept headers
that it answers, `full` the line for the twin where no single echo holds it. -/
def State.takeSeq (s : State) (n : Nat) (r : Req) (tags : List (Nat × Nat)) (entry : Option Nat) (bypass : Bool) (echoes : List (Nat × Nat))
    (full : Option Line) : Nat × State :=
  let q := (s.slc n).front.seq
  let ep := r.epoch.getD s.mer.cur
  let w : Pend :=
    { seq := q, line := r.line, part := r.part, host := r.host, tags := tags, entry := entry, accept := s.sliceTime n, epoch := ep, notes := tags,
      placed := false, settled := false, twinAck := false, accepted := false, media := false, bypass := bypass, twin := s.twinLevel, arrived := r.arrived,
      replay := r.noted.isSome, after' := max (s.notBefore n r) ((entry.bind fun e => (s.ent n e).map fun x => x.after').getD 0), mb := none, ack := none }
  let s := s.onFront n fun f => { f with seq := (q + 1) % 2 ^ 32, pends := f.pends ++ [w], lastAccept := Tbl.set f.lastAccept r.line (s.sliceTime n) }
  let s := State.each (fun (g : Nat × Nat) s => s.packet (.slice n) (.intake g.1) 0x42 { prio := s.prio r.part, tag := g.2, part := r.part, line := r.line, epoch := ep, aux := q }) tags s
  if s.mirrors && s.primary r.part then
    let m := TwinMsg.settle n r.line r.part q ep echoes full
    let s := if full.isSome then (s.bumpTwn 2 0 64).bumpTwn 4 0 32 else s.bumpTwn 2 0 64
    if full.isSome then (q, (s.flushPack n).toTwin m)
    else
      let s := s.onFront n fun f => { f with pack := ⟨f.pack.recs ++ [m], if f.pack.recs.isEmpty then s.now else f.pack.since⟩ }
      (q, if 4 ≤ (s.slc n).front.pack.recs.length then s.flushPack n else s)
  else (q, s)

/-- The echoes that hold the data of requests, and the full line where no single echo does (R392). -/
def echoesOf (rs : List Req) (v : Line) : List (Nat × Nat) × Option Line :=
  let es := rs.filterMap fun r => r.echo.map fun x => (r.intake, x)
  match rs, es with
  | [r], [_] => (es, if formFull r.form && r.noted.isNone then none else some v)
  | _, _ => (es, some v)

/-- Holder writebacks take their sequences in order, once the line's value is known and its colour checked (R111, R156): the
data becomes the line's value; a full line also ends its poison (R125), and either supplies the data of a line that was lost (R710). -/
def State.commitWbs (s : State) (n e : Nat) : State :=
  State.each (fun (r : Req) s =>
    match s.ent n e with
    | none => s
    | some x =>
      match x.base with
      | some b =>
        if !x.colourOk || !(x.wbs.any fun w => w.req.tag == r.tag && w.req.intake == r.intake && w.seq.isNone) then s
        else
          let s := s.plateCopy n e (r.epoch.getD s.mer.cur) (s.slc n).front.seq
          let v := if formFull r.form then r.data else mergeBytes b r.data r.be
          let s := s.ensureWay n e
          match s.ent n e with
          | none => s
          | some x =>
            let es := echoesOf [r] v
            let q := s.takeSeq n r [(r.intake, r.tag)] none (x.way == .bypass) es.1 es.2
            q.2.onEnt n e fun x =>
              { x with base := some v, src := 1, pois := if formFull r.form then false else x.pois,
                       lost := false, info := if x.lost then x.info.map fun i => Meta.withPoison i false else x.info,
                       wbs := x.wbs.map fun w => if w.req.tag = r.tag ∧ w.req.intake = r.intake then ⟨{ r with data := v }, some q.1⟩ else w }
      | none => s)
    (match s.ent n e with
     | some x => (x.wbs.filter fun w => w.seq.isNone).map fun w => w.req
     | none => []) s

/-! ### Placing a record (R204 to R206) -/

/-- R418: the new primary of a role move has a line's record: fetched, changed, or received from the record walk. The move is DONE with the
last line. -/
def State.roleSeen (s : State) (p line : Nat) : State :=
  match Tbl.find s.twin.moves p with
  | some m =>
    if m.phase == .drain || m.walked.contains line then s
    else
      let w := insertNat line m.walked
      if m.phase = .handover ∧ 1024 * s.partTracts p (fun _ => true) ≤ w.length then (s.onTwin fun t => { t with moves := Tbl.del t.moves p }).bumpPlc 7 48 8
      else s.onTwin fun t => { t with moves := Tbl.set t.moves p { m with walked := w } }
  | none => s

/-- The new record rests on the one that the entry was served from (R231), and not on answers to snoops alone. -/
def dependsOld (r : Req) (old : HRec) : Bool :=
  match r.form, old with
  | .clnEvct, _ => true
  | .rdS, .owned _ | .rdS, .doubt | .rdCur, .owned _ | .rdCur, .doubt | .rdNo, .owned _ | .rdNo, .doubt => false
  | .rdS, _ | .rdCur, _ | .rdNo, _ => true
  | .rdData, .shared _ | .rdData, .coarse _ | .rdData, .many => true
  | _, _ => false

/-- Place a line's new record (R204) after a request of partition `p`; answers the directory writes that are not complete. An entry whose filter entry was
lost places it in the directory, MANY where it rests on the lost record (R231). -/
def State.putRec (s : State) (n e : Nat) (x : Entry) (new : HRec) : Nat × State :=
  let line := x.req.line
  let new := if x.recLost && dependsOld x.req (x.hrec.getD .inv) then HRec.many else new
  let s := if (Tbl.find s.twin.moves x.req.part).any fun m => !m.old then s.roleSeen x.req.part line else s
  let b := (s.slc n).banks
  let way := if x.dirOnly || x.unrec then none else b.fltWay line
  let old := if x.fromDir && !x.lostDir then x.hrec else none
  let pl := placeRec (way.bind fun w => b.fltAt (fltSet line) w) (inSheaf line) old new
  let s := match way, pl.entry with
    | some w, some f => s.onBanks n fun b => { b with flt := Tbl.set b.flt (fltSet line * 16 + w) f }
    | _, _ => s
  let s := if pl.coarse then s.bumpSlc n 8 32 32 else s
  let s := if pl.dirOnly then s.bumpSlc n 8 0 32 else s
  pl.writes.foldl (fun (a : Nat × State) (w : Nat × (Nat × Nat)) =>
    let r := a.2.dirWrite n (line / 16 * 16 + w.1) w.2.1 w.2.2 false (some e) none
    (if r.1 then a.1 else a.1 + 1, r.2)) (0, s)

/-! ### Failure (R81, R440, R711) -/

/-- The request of a kept header fails (R76): a ticket write is dropped, a mailbox line write completes its command. -/
def State.failReq (s : State) (r : Req) : State :=
  match s.kept? r.intake r.tag with
  | none => s
  | some k =>
    match k.own with
    | .host => s.failKept r.intake k
    | .ticket id => ((s.unkeep r.intake r.tag).ticketDone r.intake id).linePump
    | .clearPoison mb => ((s.unkeep r.intake r.tag).mbxDone mb 5 [] 0xFFFFFFFF).linePump
    | .ticketArea mb =>
      (if (s.box mb).wait.isSome then (s.unkeep r.intake r.tag).mbxDone mb 5 [] 0xFFFFFFFF else s.unkeep r.intake r.tag).linePump

/-- The record once the answers to the entry's snoops are applied (R711): the hosts that were snooped leave it, but for those that kept a copy; no
holder is added. -/
def State.answered (s : State) (x : Entry) (r : HRec) : HRec :=
  let pl := s.snoopPlan x.req r
  if !x.snooped || pl.1.isEmpty then r
  else
    let kept := match r with
      | .shared hs => hs.filter fun h => !pl.1.contains h
      | .coarse _ | .many => (s.named x.req.part r).filter fun h => some h == x.req.host
      | _ => []
    match x.stay.foldl (fun (a : HRec) (y : Nat × Bool) => if y.2 then HRec.owned y.1 else a.join y.1) (if kept.isEmpty then .inv else .shared kept) with
    | .shared [] => .inv
    | v => v

/-- The end of an entry whose request failed (R711): the answers are applied to the record, which the filter keeps when it
holds the sheaf; a line that a silent holder may have held dirty joins the poison list; the request, its merged writes and its uncommitted
writebacks are answered as failed. -/
def State.endFail (s : State) (n e : Nat) (x : Entry) : State :=
  let line := x.req.line
  let new := (x.hrec.map fun r => (r, s.answered x r)).bind fun v => if v.1 = v.2 then none else some v.2
  let s := match new, (s.slc n).banks.fltWay line with
    | some v, some w =>
      match (s.slc n).banks.fltAt (fltSet line) w with
      | some f =>
        let pl := f.place (inSheaf line) v
        let s := s.onBanks n fun b => { b with flt := Tbl.set b.flt (fltSet line * 16 + w) (pl.entry.getD f) }
        State.each (fun (y : Nat × (Nat × Nat)) s => (s.dirWrite n (line / 16 * 16 + y.1) y.2.1 y.2.2 false none none).2) pl.writes s
      | none => s
    | _, _ => s
  let s := if x.pois && !(x.info.any Meta.poison) then s.addPoison x.req.part line (Form.trans x.req.form) else s
  let s := s.onFront n fun f => { f with pends := f.pends.filter fun w => w.entry != some e }
  let s := (s.dropWay n e x).dropEnt n e
  let s := State.each (fun (w : Wb) s => if w.seq.isNone then s.failReq w.req else s) x.wbs s
  let s := State.each (fun (r : Req) s => s.failReq r) (x.req :: x.merged) s
  ((s.sealSlice n).refillAll n).drainPart x.req.part

/-- An entry meets a failure of its line: it ends once its snoops are answered (R711). -/
def State.fail (s : State) (n e : Nat) (f : Fail) : State :=
  match s.ent n e with
  | none => s
  | some x =>
    let x := { x with fail := some f }
    let s := s.putEnt n e x
    if x.expect = 0 then s.endFail n e x else s

/-- A failed colour check (R81): the tract freezes in doubt, the line leaves the Granary, and the event is raised; its detail
says whether the generation differs too (R439). -/
def State.failColour (s : State) (n e found : Nat) (gen : Bool) : State :=
  match s.ent n e with
  | none => s
  | some x =>
    let p := x.req.part
    let s := ((s.dropLine n x.req.line).freeze (tractOf x.req.line) x.req.line true).raiseC (srcSlc n 1) (256 + 81) none x.req.line p (n + 512 * b2n gen) found
    (s.record p 2 (.colour (x.req.line * 64) found)).fail n e (.colour found)

/-- Map corruption met by an entry (R439, R440): the walk-fault event, the freeze, and the request's failure. -/
def State.failWalk (s : State) (n e : Nat) (readable : Bool) : State :=
  match s.ent n e with
  | none => s
  | some x =>
    let tr := tractOf x.req.line
    (((s.raise (srcSlc n 3) (256 + 440) x.req.line x.req.part n).freeze tr x.req.line readable).onEnt n e fun x => { x with walking := false }).fail n e .walk

/-- R441: a read of a FROZEN tract fails as a walk fault; a write waits in FETCH while the tract's thaw attempt lasts. -/
def State.failFrozen (s : State) (n e : Nat) : State :=
  match s.ent n e with
  | none => s
  | some x =>
    if formWrite x.req.form && s.thawing (tractOf x.req.line) then s.putEnt n e { x with st := .fetch, walking := true }
    else (s.putEnt n e { x with walking := false }).fail n e .frozen

/-! ### Responses -/

/-- The mailbox of a TICKET_AREA learns that one more line has settled (R713). -/
def State.areaLine (s : State) (mb : Nat) : State :=
  match (s.box mb).wait with
  | some (.lines k) =>
    if k ≤ 1 then s.mbxDone mb 0 [] 0xFFFFFFFF
    else
      let p := ((s.box mb).payload.getD 0 0).toNat
      State.areaPump mb p (k - 1) 256 (s.onBox mb fun b => { b with wait := some (.lines (k - 1)) })
  | _ => s

/-- Free the entry; the head of its line's queue takes it over when it held its line (R150), and waiting requests go on. -/
def State.freeEnt (s : State) (n e p : Nat) : State :=
  let held := (s.ent n e).any Entry.holds
  let line := ((s.ent n e).map fun x => x.req.line).getD 0
  let s := s.dropEnt n e
  (((if held then s.headTakes n e line else s).refillAll n).drainPart p).handTick n

/-- A way in use becomes LOCKED (R246). -/
def State.lockWay (s : State) (n k : Nat) : State :=
  s.onBanks n fun b => b.onGrn k fun g => if g.valid && g.st == .idle then { g with st := .locked } else g

/-- The way of a line leaves LOCKED (R246). -/
def State.unlock (s : State) (n line : Nat) : State :=
  match (s.slc n).banks.grnFind line with
  | some k => if (s.slc n).banks.wayState k = GState.locked then (s.onBanks n fun b => b.onGrn k fun g => { g with st := .idle }).giveWay n k else s
  | none => s

/-- A read, invalidation or clean eviction has settled (R105 to R107, R110, R161): its responses go to the intake port and
the entry frees. A MemInvNT frees a clean Granary entry of the line (R250). -/
def State.finishRead (s : State) (n e : Nat) : State :=
  match s.ent n e with
  | none => s
  | some x =>
    let r := x.req
    let others := (s.hostSet r.part).any fun h => some h != r.host
    let g := outcome r (x.hrec.getD .inv) x.stay others
    let drs := if formRead r.form then some (if x.pois || x.lost then ((0 : Line), true) else (x.base.getD 0, false)) else none
    let ndr := if r.plate.isSome && r.form == .rdData then some NdrKind.cmpS else ndrOf r.form g.2
    let s := s.unlock n r.line
    let s := if r.form == .invNtA || r.form == .invNtI then
        match (s.slc n).banks.grnFind r.line with
        | some k => if (Tbl.find (s.slc n).banks.grn k).any fun y => !y.isDirty && y.st == .idle then s.dropLine n r.line else s
        | none => s
      else s
    (s.respond r.intake r.tag drs ndr x.after').freeEnt n e r.part

/-- The way of a line becomes LOCKED when the Granary holds the line (R246). -/
def State.lockLine (s : State) (n line : Nat) : State :=
  match (s.slc n).banks.grnFind line with
  | some k => s.lockWay n k
  | none => s

/-- The outcome grants the requester the line in E (R105, R106, R376). -/
def Req.grantsE (r : Req) : HRec → Bool
  | .owned h => some h == r.host && r.form != .clnEvct && r.form != .rdCur && r.form != .rdNo
  | _ => false

/-- A request other than a write settles (R139): its record is placed, a line that a silent holder leaves poisoned is marked (R124), a codeword that
could not be read is written where its directory copy was lost with it (R710), and it waits for its directory writes. A line joins the poison list
with the request that finds it poisoned anew; one whose metadata carried POISON before joined when that was set, and does not join again where the
list has been emptied since, at a power-up (DESIGN CHOICE: R125 does not say; log 59). -/
def State.settleRead (s : State) (n e : Nat) : State :=
  match s.ent n e with
  | none => s
  | some x =>
    let r := x.req
    if r.plate.isSome then s.finishRead n e
    else
      let others := (s.hostSet r.part).any fun h => some h != r.host
      let g := outcome r (x.hrec.getD .inv) x.stay others
      let s := s.putEnt n e { x with st := .settle }
      let s := if r.grantsE g.1 then s.endResv n r.line else s
      let known := x.info.any Meta.poison && !x.lost
      let gone := x.lostDir && x.lost
      let s := if x.pois && !known || x.lost then s.addPoison r.part r.line (Form.trans r.form) else s
      let lw : Bool × State :=
        if gone then
          let d := g.1.dir
          let place := (s.mapPlace (tractOf r.line)).getD (0, 0, 0)
          (s.dropWay n e x).wholeWrite n r.line 0 (mkMeta d.1 d.2 (s.dg (sliceOf r.line)) r.part true place.2.2) (some e)
        else (true, s)
      let s := lw.2
      let w : Nat × State := if gone then s.putRec n e { x with fromDir := true, lostDir := false, hrec := some g.1 } g.1 else s.putRec n e x g.1
      let left : Nat := if lw.1 then w.1 else w.1 + 1
      let s := w.2
      let extra : Bool × State :=
        if x.pois && !known && !gone then
          if ((s.slc n).banks.grnOwn r.line).isSome then (true, s.poisonGrn n r.line)
          else
            let d := g.1.dir
            s.dirWrite n r.line d.1 d.2 true (some e) none
        else (true, s)
      let left : Nat := if extra.1 then left else left + 1
      let s := extra.2.onEnt n e fun x => { x with dirLeft := left }
      if left = 0 then s.finishRead n e else s.lockLine n r.line

/-! ### Writes -/

/-- R258: the unbroken run of the same host port's partial writes at the front of the line's queue, at most 7. -/
def mergeRun (f : Front) (r : Req) : List Req :=
  (((f.cq.filter fun q => q.line == r.line).takeWhile fun q => q.form == .wrPtl && q.host == r.host).take 7)

/-- R258: a partial write that waited in FETCH for its media read merges the run behind it as it leaves FETCH; a bypassed one does not
(R260). -/
def State.mergePtl (s : State) (n e : Nat) : State :=
  match s.ent n e with
  | some x =>
    if x.req.form == .wrPtl && x.req.plate.isNone && x.st == .fetch && x.way != .bypass && x.merged.isEmpty then
      let run := mergeRun (s.slc n).front x.req
      let s := State.each (fun _ s => s.bumpSlc n 5 0 32) run s
      (s.onFront n fun f => { f with cq := f.cq.filter fun q => !run.contains q }).onEnt n e fun x => { x with merged := run }
    else s
  | none => s

/-- A write takes its sequence (R156): a full-line write as it leaves SNOOP or LOOKUP, a partial write once its line is in
hand, with the writes merged into it (R258). A ticket write whose port has dropped it is not performed (R372). -/
def State.takeMain (s : State) (n e : Nat) : State :=
  match s.ent n e with
  | none => s
  | some x =>
    let r := x.req
    let all := r :: x.merged
    let v := if formFull r.form then r.data else all.foldl (fun b (q : Req) => mergeBytes b q.data q.be) (x.base.getD 0)
    let es := echoesOf all v
    if r.form = .ticket ∧ (s.kept? r.intake r.tag).isNone then s.fail n e .stopped else
    let q := s.takeSeq n r (all.map fun q => (q.intake, q.tag)) (some e) (x.way == .bypass) es.1 es.2
    let s := q.2.onEnt n e fun x => { x with seq := some q.1, buf := v, st := if x.colourOk then .settle else .fetch, copyDone := false }
    match s.wayKey n x with
    | some k => s.lockWay n k
    | none => s

/-- The pending write of a sequence. -/
def State.pend? (s : State) (n seq : Nat) : Option Pend := (s.slc n).front.pends.find? fun w => w.seq == seq

/-- Pending writes of slice `n`, changed. -/
def State.onPends (s : State) (n : Nat) (t : Pend → Bool) (f : Pend → Pend) : State :=
  s.onFront n fun q => { q with pends := q.pends.map fun w => if t w then f w else w }

/-- Put a write's data where it settles (R158, R249): in its way, which is LOCKED while the entry is in SETTLE (R246), or at its media port
when it bypasses the Granary. -/
def State.putData (s : State) (n e seq : Nat) (x : Entry) (v : Line) (pois : Bool) (key : Option Nat) : State :=
  let line := x.req.line
  let place := (s.mapPlace (tractOf line)).getD (0, 0, 0)
  let i := Meta.withPoison (x.info.getD (mkMeta 0 0 (s.dg (sliceOf line)) x.req.part false place.2.2)) pois
  let s := (s.endResv n line).onPends n (fun w => w.seq == seq) fun w => { w with placed := true }
  match key with
  | some k =>
    let i := match Tbl.find (s.slc n).banks.grn k with
      | some g => if g.valid then Meta.withPoison g.info pois else i
      | none => i
    let s := if (Tbl.find (s.slc n).banks.grn k).any fun g => g.valid then s else s.bumpSlc n 2 0 32
    let s := s.onBanks n fun b =>
      { b with grn := Tbl.set b.grn k { valid := true, dirty := true, line := line, info := i, twinHeld := false, mirrorSeq := seq, st := .locked, data := v },
               fills := Tbl.del b.fills k }
    let s := s.onEnt n e fun x => { x with way := .hit k }
    if s.writesThrough n then (s.bumpSlc n 6 0 32).mediaWrite n .through line v i else s
  | none => s.mediaWrite n (.bypass seq) line v i

/-- R125: a full-line write takes its line off the poison list; a partial write into a poisoned line joins it. -/
def State.poisonAfter (s : State) (r : Req) (pois : Bool) : State :=
  if pois then s.addPoison r.part r.line (Form.trans r.form) else if formFull r.form then s.delPoison r.part r.line else s

/-- Answer the kept headers of a completed write (R159, R343): Cmp for a host; a Clear Poison command completes (R713). -/
def State.answerWrite (s : State) (w : Pend) : State :=
  State.each (fun (t : Nat × Nat) s =>
    match s.kept? t.1 t.2 with
    | none => s
    | some k =>
      match k.own with
      | .host => s.respond t.1 t.2 none (some .cmp) w.after'
      | _ => s) w.tags (match w.mb with
      | some mb => s.mbxDone mb 0 [] 0xFFFFFFFF
      | none => s)

/-- Send the completions that may go (R159, R343): in settle order among the writes of a line. -/
def State.completeAll (s : State) (n : Nat) : State :=
  if s.mute then s
  else
  let s := State.each (fun (q : Nat) s =>
    match s.pend? n q with
    | none => s
    | some w =>
      let first := ((s.slc n).front.pends.find? fun y => y.line == w.line).any fun y => y.seq == w.seq
      if !first || !w.settled || !w.reached (s.slc n).banks.wt then s
      else
        let s := match w.ack with
          | some m => (if s.twin.st = TwSt.paired then s.bumpTwn 3 0 64 else s).toTwin m
          | none => s
        let s := (s.answerWrite w).onFront n fun f => { f with pends := f.pends.filter fun y => y.seq != q }
        match w.entry with
        | some e => s.freeEnt n e w.part
        | none => s.drainPart w.part) ((s.slc n).front.pends.map fun w => w.seq) s
  s.sealSlice n

/-- Reads that waited for pending writes of other hosts (R349), entries to be looked at again. -/
def State.durWait (s : State) (n : Nat) (r : Req) : Bool :=
  formRead r.form && r.plate.isNone && (s.part r.part).cfg.visMode &&
    (s.slc n).front.pends.any fun w => w.line == r.line && w.settled && w.host.isSome && w.host != r.host && !w.reached (s.slc n).banks.wt

/-- A settled ticket or mailbox line write is answered at once and its place frees (R173, R368, R713); Clear Poison completes with the write's
completion level. -/
def State.settledOwn (s : State) (n : Nat) (w : Pend) : State :=
  State.each (fun (t : Nat × Nat) s =>
    match s.kept? t.1 t.2 with
    | none => s
    | some k =>
      match k.own with
      | .ticket id => ((s.unkeep t.1 t.2).ticketDone t.1 id).linePump
      | .ticketArea mb => ((s.unkeep t.1 t.2).areaLine mb).linePump
      | .clearPoison mb => ((s.unkeep t.1 t.2).onPends n (fun y => y.seq == w.seq) fun y => { y with mb := some mb }).linePump
      | _ => s) w.tags s

/-- The entry's own write has settled (R139, R158): the line is released, and the write waits for its durability. -/
def State.finishWrite (s : State) (n e : Nat) : State :=
  match s.ent n e with
  | none => s
  | some x =>
    match x.seq with
    | none => s
    | some q =>
      let s := (s.onPends n (fun w => w.seq == q) fun w => { w with settled := true }).unlock n x.req.line
      let s := s.onEnt n e fun x => { x with st := .durable }
      let s := match s.pend? n q with
        | some w => if w.host.isNone then s.settledOwn n w else s
        | none => s
      (s.refillAll n).completeAll n

/-- R409: before the first write of a tract settles after the split its bit is set in the split record; a slice that does not cache the bit
writes it to both map ports and waits for their acceptance, as it does for the mark of a reserve tract that a copy went to. The flag says that the
write waits. -/
def State.splitWait (s : State) (n line : Nat) : Bool × State :=
  let w := s.splitMark n (tractOf line)
  (w.1 || s.splitOpen n, w.2)

/-- A writeback that an entry took has not settled yet (R118, R163). -/
def State.wbOpen (s : State) (n : Nat) (x : Entry) : Bool :=
  x.wbs.any fun w => match w.seq with
    | some q => (s.pend? n q).any fun p => !p.placed
    | none => true

/-- A way for the write of a sequence (R244, R248): the entry's own, or a fresh choice where it was given to another line before the
write could settle; a write that bypasses the Granary settles at its media port (R158). -/
def State.settleWay (s : State) (n e seq : Nat) : State :=
  let s := s.ensureWay n e
  match s.ent n e with
  | some x => if x.way == .bypass then s.onPends n (fun w => w.seq == seq) fun w => { w with bypass := true } else s
  | none => s

/-- WRITE_SETTLE's effect (R158, R248): the write of a sequence settles once its notices are acknowledged, its line's colour is
checked, its way is there, its plate copy is accepted, and the writebacks before it have settled. A full-line write over a line whose exact E holder
stayed silent (R124) leaves no poison behind: the line joins no list and no record is placed (DESIGN CHOICE: R135 does not say; log 59). -/
def State.settleWrite (s : State) (n seq : Nat) : State :=
  match s.pend? n seq with
  | none => s
  | some w =>
    if w.placed || !w.notes.isEmpty then s
    else
      match w.entry with
      | some e =>
        let s := s.settleWay n e seq
        match s.ent n e with
        | none => s
        | some x =>
          let key := s.wayKey n x
          if x.fail.isSome || !x.colourOk || x.copyWait || !x.copyDone || s.wbOpen n x || (key.isNone && x.way != .bypass) then s
          else if (s.splitWait n x.req.line).1 then (s.splitWait n x.req.line).2
          else
            let s := (s.splitWait n x.req.line).2
            let pois := if formFull x.req.form then false else x.pois || x.lost
            let s := (s.putData n e seq x x.buf pois key).poisonAfter x.req pois
            let g := outcome x.req (x.hrec.getD .inv) x.stay false
            let r := s.putRec n e x g.1
            let s := r.2.onEnt n e fun x => { x with dirLeft := r.1, st := .settle }
            if r.1 = 0 then s.finishWrite n e else s
      | none =>
        match (s.slc n).front.ents.find? fun y => y.2.wbs.any fun b => b.seq == some seq with
        | none => s
        | some (e, _) =>
          let s := s.settleWay n e seq
          match s.ent n e with
          | none => s
          | some x =>
          match x.wbs.find? fun b => b.seq == some seq with
          | none => s
          | some b =>
            let key := s.wayKey n x
            let pois := if formFull b.req.form then false else x.pois
            if x.copyWait || (key.isNone && x.way != .bypass) then s
            else if (s.splitWait n x.req.line).1 then (s.splitWait n x.req.line).2
            else
              let s := (s.splitWait n x.req.line).2
              let s := ((s.putData n e seq x b.req.data pois key).poisonAfter b.req pois).onPends n (fun w => w.seq == seq) fun w => { w with settled := true }
              let s := if x.st == .settle then s else s.unlock n x.req.line
              s.completeAll n

/-! ### The stages of an entry -/

/-- The plate copy of the entry's own write, once its line's value is known (R317); with the colour checked the write leaves FETCH (R139). -/
def State.mainCopy (s : State) (n e : Nat) : State :=
  match s.ent n e with
  | some x =>
    match x.seq, x.base with
    | some q, some _ =>
      if x.copyDone then (if x.colourOk && x.st == .fetch then s.putEnt n e { x with st := .settle } else s)
      else
        let ep := ((s.pend? n q).map fun w => w.epoch).getD s.mer.cur
        (s.plateCopy n e ep q).onEnt n e fun x => { x with copyDone := true, st := if x.colourOk && x.st == .fetch then .settle else x.st }
    | _, _ => s
  | none => s

/-- What follows once the snoops are answered and the writebacks that the entry took have settled (R118, R154, R156, R163, R349; log 11). -/
def State.afterSnoops (s : State) (n e : Nat) : State :=
  match s.ent n e with
  | none => s
  | some x =>
    let r := x.req
    if !x.snooped || x.expect != 0 || x.hrec.isNone || x.seq.isSome || x.st == .settle || s.wbOpen n x || x.spillWait.isSome then s
    else if formWrite r.form then
      if formFull r.form || (x.base.isSome && x.colourOk) then
        let s := s.ensureWay n e
        (s.takeMain n e).mainCopy n e
      else s.putEnt n e { x with st := .fetch }
    else if formRead r.form then
      if x.base.isSome && x.colourOk && !s.durWait n r then s.settleRead n e else s.putEnt n e { x with st := .fetch }
    else s.settleRead n e

/-- Bring an entry as far as it can go. -/
def State.serve (s : State) (n e : Nat) : State :=
  match s.ent n e with
  | none => s
  | some x =>
    if x.kind != .host then s
    else if x.fail.isSome then (if x.expect = 0 then s.endFail n e x else s)
    else if x.seq.isSome then s.mainCopy n e
    else ((((s.learn n e).decideSnoops n e).commitWbs n e).afterSnoops n e)

/-- The entry that took the writeback of a sequence goes on (R163). -/
def State.serveWb (s : State) (n seq : Nat) : State :=
  match (s.slc n).front.ents.find? fun y => y.2.wbs.any fun b => b.seq == some seq with
  | some (e, _) => s.serve n e
  | none => s

/-- Entries that wait in FETCH for pending writes of their line are looked at again (R160, R349). -/
def State.wake (s : State) (n : Nat) : State :=
  State.each (fun (x : Nat × Entry) s => if x.2.st == .fetch && formRead x.2.req.form then s.serve n x.1 else s) (s.slc n).front.ents s

/-- Completions of a slice, and the reads that they let go (R159, R160, R343). -/
def State.settleUp (s : State) (n : Nat) : State := (s.completeAll n).wake n

/-- One directory write of an entry is complete (R192); the last lets it finish (R205). -/
def State.dirDone (s : State) (n e : Nat) : State :=
  match s.ent n e with
  | none => s
  | some x =>
    let left := x.dirLeft - 1
    let s := s.putEnt n e { x with dirLeft := left }
    if left ≠ 0 ∨ x.st ≠ .settle then s
    else if formWrite x.req.form then (s.finishWrite n e).wake n
    else s.finishRead n e

end Sys2Proof.Machine
end

