-- ==== Sys2Proof/Machine/Host.lean ====
section
/-! DEFINITION. The commands of the host interface and of the slice's own stages (spec chapters 3 and 4): messages from hosts,
intake arbitration, the lookups, snoops and their answers, write notices, settling, twin acknowledgements, responses, and
the limits of R67, R167 and R169. -/

namespace Sys2Proof.Machine

/-! ### Messages (R75, R102) -/

/-- MEM_RD (R105). -/
def execMemRd (t : Ns) (m : M2S) (s : State) : Host.Outcome State Fault Refusal := .next ((s.tick t).arrive m .memRd 0 0)
/-- MEM_RD_DATA (R105). -/
def execMemRdData (t : Ns) (m : M2S) (s : State) : Host.Outcome State Fault Refusal := .next ((s.tick t).arrive m .memRdData 0 0)
/-- MEM_INV (R106). -/
def execMemInv (t : Ns) (m : M2S) (s : State) : Host.Outcome State Fault Refusal := .next ((s.tick t).arrive m .memInv 0 0)
/-- MEM_INV_NT (R106, R107). -/
def execMemInvNt (t : Ns) (m : M2S) (s : State) : Host.Outcome State Fault Refusal := .next ((s.tick t).arrive m .memInvNt 0 0)
/-- MEM_CLN_EVCT (R110). -/
def execMemClnEvct (t : Ns) (m : M2S) (s : State) : Host.Outcome State Fault Refusal := .next ((s.tick t).arrive m .memClnEvct 0 0)
/-- MEM_SPEC_RD (R103). -/
def execMemSpecRd (t : Ns) (m : M2S) (s : State) : Host.Outcome State Fault Refusal := .next ((s.tick t).arrive m .memSpecRd 0 0)
/-- BI_CONFLICT (R122). -/
def execBiConflict (t : Ns) (m : M2S) (s : State) : Host.Outcome State Fault Refusal := .next ((s.tick t).arrive m .biConflict 0 0)
/-- MEM_WR (R108). -/
def execMemWr (t : Ns) (m : M2S) (data : Line) (s : State) : Host.Outcome State Fault Refusal :=
  .next ((s.tick t).arrive m .memWr data (BitVec.allOnes 64))
/-- MEM_WR_PTL (R108, R256). -/
def execMemWrPtl (t : Ns) (m : M2S) (data : Line) (be : Quad) (s : State) : Host.Outcome State Fault Refusal :=
  .next ((s.tick t).arrive m .memWrPtl data be)

/-! ### Admission (R111, R144) -/

/-- The entry has issued a BISnp to the host for the line and has not counted its answer (R111); it counts from the issue, also while the BISnp waits
at its intake port (R117, R479). -/
def State.snoopOut (s : State) (n e line : Nat) (h : Option Nat) : Bool :=
  s.intakes.any fun i => i.2.snoops.any fun y => y.2.slice == n && y.2.entry == e && y.2.line == line && some y.2.host == h

/-- The holder has written back under its snoop (R162). -/
def State.markWrote (s : State) (n e : Nat) (h : Option Nat) : State :=
  s.allIps fun q => { q with snoops := Tbl.mapv (fun (y : Snoop) => if y.slice = n ∧ y.entry = e ∧ some y.host = h then { y with wrote := true } else y) q.snoops }

/-- A clean eviction under a snoop (R111): the host leaves the record, its copy was clean, and Cmp is sent once the hold of the line's last write is
over (R293). -/
def State.takeClean (s : State) (n e : Nat) (r : Req) : State :=
  let h := r.host.getD 0
  let s := s.allIps fun q =>
    { q with snoops := Tbl.mapv (fun (y : Snoop) => if y.slice = n ∧ y.entry = e ∧ some y.host = r.host then { y with dirty := false } else y) q.snoops }
  let s := s.onEnt n e fun x =>
    { x with hrec := x.hrec.map fun y =>
        match y with
        | .shared hs => .shared (hs.filter (· != h))
        | y => y }
  s.respond r.intake r.tag none (some .cmp) (s.notBefore n r)

/-- A request leaves the arbiter: a holder's writeback or clean eviction under snoop goes to the active entry at once (R111);
any other is admitted under R144. -/
def State.admitReq (s : State) (n : Nat) (r : Req) : State :=
  match (s.slc n).front.holder r.line with
  | some e =>
    if r.plate.isNone && s.snoopOut n e r.line r.host then
      if formWrite r.form then ((s.markWrote n e r.host).onEnt n e fun x => { x with wbs := x.wbs ++ [⟨r, none⟩] }).serve n e
      else if r.form == .clnEvct then s.takeClean n e r
      else s.admitPlain n r
    else s.admitPlain n r
  | none => s.admitPlain n r

/-- The slice takes requests: it serves, and its intake queue has room (R149). -/
def State.takes (s : State) (n : Nat) : Bool :=
  let f := (s.slc n).front
  (s.slc n).phase != .fenced && f.waiters < 64

/-! ### The end of a takeover (R403 step 5, R404, R405) -/

/-- A message taken over holds a credit of its host port, which its answer returns (R130). -/
def State.takeCredit (s : State) (h : Nat) (rwd : Bool) : State :=
  s.onHp h fun q => if rwd then { q with rwdUsed := q.rwdUsed + 1 } else { q with reqUsed := q.reqUsed + 1 }

/-- A redelivered message is served (R404, R405): a request as a message of its intake port, a BIRsp dropped under R78. -/
def State.redeliver (s : State) : Redeliver → State
  | .req m op data be =>
    let s := s.bumpIp m.port.val 0 0 64
    (if s.holdsCredits m.port.val m.host.val then s.takeCredit m.host.val (opRwd op) else s).judge m op data be false
  | .birsp port host => (s.bumpIp port.val 2 48 16).raise (srcIp port.val 0) (256 + 78) 0 0 host.val

/-- An echo of the partitions taken over is still to be sent to its slice (R404). -/
def State.echoesDue (s : State) (ps : Quad) : Bool :=
  s.intakes.any fun x => x.2.kept.any fun k => bitN ps.toNat k.req.part && (k.st == .unsent || k.st == .echo)

/-- The redelivered messages are served, in redelivery order, before the new ones held meanwhile (R404, R405). -/
def State.claimEnd (s : State) (ps : Quad) (l : List Redeliver) : State :=
  let held := s.intakes.map fun x => (x.1, x.2.kept.filter fun k => k.st == .takeover)
  let s := (s.onTwin fun w => { w with tk := none, redel := none }).allIps fun q => { q with kept := q.kept.filter fun k => k.st != .takeover }
  let s := State.each (fun m s => s.redeliver m) l s
  let s := State.each (fun (x : Nat × List Kept) s => s.onIp x.1 fun q => { q with kept := q.kept ++ x.2 }) held s
  ((State.each (fun p s => if bitN ps.toNat p then s.launchHeld p else s) (List.range 64) s).toTwin .takenOver).endReact .takeover .takeover

/-- Once the last echo has been sent, the redelivered messages follow (R404); a power-fail warning stops a takeover at its step (R604). -/
def State.claimStep (s : State) : State :=
  match s.twin.tk, s.twin.redel with
  | some ps, some l => if s.echoesDue ps || s.pwr.fail.isSome then s else s.claimEnd ps l
  | _, _ => s

/-- What goes on with an arbitration of slice `n`: the requests that waited for the twin port to accept their echoes (R390), the redelivered messages of a
takeover (R404), and, where replayed requests stood ahead, the requests that intake ports held behind them (R175). -/
def State.goOn (s : State) (n : Nat) (ahead : Bool) : State :=
  let s := (State.each (fun i s => s.echoGo i) (List.range 16) s).claimStep
  if ahead && !s.replayAhead (buddy n) then State.each (fun i s => s.pumpAll i) (List.range 16) s else s

/-- INTAKE_ARBITRATION (R142 to R144); with the last replayed request of a takeover taken, the intake ports go on with the fenced slice's lines (R175). -/
def execIntakeArbitration (t : Ns) (n : SliceId) (s : State) : Host.Outcome State Fault Refusal :=
  let s := s.tick t
  .next (if !s.takes n.val ∨ (s.win.failsafe ∧ !s.win.draining) then s
  else
    match (s.slc n.val).front.pick with
    | some (i, r) => ((s.takeHead n.val i r).admitReq n.val r).goOn n.val (s.replayAhead (buddy n.val))
    | none => s.goOn n.val false)

/-! ### Lookups (R154, R207 to R212, R244 to R254) -/

/-- R207 to R209: a filter lookup that misses gives the sheaf a way, a provisional one, or none; none where the line's filter entry was lost (R231). -/
def State.fltMiss (s : State) (n e : Nat) (x : Entry) : State :=
  let line := x.req.line
  let none' := s.putEnt n e { x with fltDone := true, dirOnly := true, spillWait := none }
  if x.unrec || s.handing n line then none'
  else
    match s.chooseWay n (fltSet line) x.req.part with
    | none => none'
    | some w =>
      let r := s.giveFltWay n line x.req.part w
      r.2.putEnt n e { x with fltDone := true, dirOnly := false, spillWait := if r.1 then none else some w }

/-- An entry that waits for a spill buffer looks again (R185, R189, R208): its sheaf may have an entry by now, or take none during a handover; its
victim may be pinned or the way out of service (R232), so that it chooses afresh; else the victim leaves when a buffer is free. -/
def State.spillTry (s : State) (n e : Nat) (x : Entry) (w : Nat) : State :=
  let line := x.req.line
  let set := fltSet line
  if ((s.slc n).banks.fltWay line).isSome then (s.putEnt n e { x with spillWait := none }).serve n e
  else
    let pinned := match (s.slc n).banks.fltAt set w with
      | some v => ((s.slc n).front.pins set v.tag).isSome
      | none => false
    if pinned || bitN (s.slc n).banks.fltOff w || s.handing n line then (s.fltMiss n e x).serve n e
    else
      let r := s.giveFltWay n line x.req.part w
      if r.1 then (r.2.putEnt n e { x with spillWait := none }).serve n e else s

/-- A spill buffer is free: the entries that wait for one look again, the oldest first (DESIGN CHOICE: R208 does not order them; log 56). -/
def State.spillFreed (s : State) (n : Nat) : State :=
  let l := sortBy (fun (x : Nat × Entry) => x.2.start) ((s.slc n).front.ents.filter fun x => x.2.spillWait.isSome)
  State.each (fun (x : Nat × Entry) s =>
    match s.ent n x.1 with
    | some y =>
      match y.spillWait with
      | some w => s.spillTry n x.1 y w
      | none => s
    | none => s) l s

/-- What a read through a plate window finds (R320): a copy at a reserve tract, a LOST entry, or the home's value. -/
inductive WinVal
  | copy (m mt : Nat) | lost | live
  deriving DecidableEq, Repr, Inhabited

/-- R320: the plate's entry for the line, then those of the newer live plates in order. -/
def State.winVal (s : State) (p j line : Nat) : WinVal :=
  let q := s.part p
  let pos := line - q.dataLo
  let from' := ((Tbl.find q.plates j).map fun x => x.epoch).getD 0
  let l := q.plates.filter fun x => x.2.live && x.2.st != .armed && from' ≤ x.2.epoch
  let hits := l.filter fun x => (Tbl.find x.2.map pos).isSome
  let low := minOf (fun (x : Nat × Plate) => x.2.epoch) 0 hits
  match hits.find? fun x => x.2.epoch == low with
  | some x =>
    match Tbl.find x.2.map pos, x.2.reserveOf pos with
    | some 1, some r => .copy (r / 2 ^ 27) (r % 2 ^ 27)
    | _, _ => .lost
  | none => .live

/-- The placement that serves an entry (R155, R464): the one its generation names among the live placements, else the one that
the lookup gave. -/
def State.placeFor (s : State) (n : Nat) (r : Req) (p : Nat × Nat × Nat) : Nat × Nat × Nat :=
  match r.tgen with
  | some g => ((s.livePlaces n r.line).find? fun x => x.2.2 == g).getD p
  | none => ((s.livePlaces n r.line).head?).getD p

/-- The media read of an entry at a placement (R112). -/
def State.issueRead (s : State) (n e : Nat) (p : Nat × Nat × Nat) : State :=
  match s.ent n e with
  | none => s
  | some x =>
    let q := s.placeFor n x.req p
    let w := (s.slc n).banks.dirw.any fun d => d.line == x.req.line
    (s.putEnt n e { x with place := some q, walking := false, reread := w }).media q.1 n (.read e) x.req.line q.2.1 false 0

/-- The tract lookup that a Granary miss starts (R112, R437): the tract buffer, or a walk. -/
def State.startRead (s : State) (n e : Nat) : State :=
  match s.ent n e with
  | none => s
  | some x =>
    let tr := tractOf x.req.line
    match Tbl.find (s.slc n).banks.tbuf tr with
    | some q =>
      ((s.bumpSlc n 10 0 32).onBanks n fun b => { b with tbuf := (tr, q) :: b.tbuf.filter fun v => v.1 != tr }).issueRead n e (mePort q, meTract q, meGen q)
    | none => (s.putEnt n e { x with walking := true }).packet (.slice n) .placement 0x11 { prio := s.prio x.req.part, tag := e, part := x.req.part, line := x.req.line, tgen := x.req.tgen }

/-- The line has a fill that its way does not hold yet (R247). -/
def Banks.fillPending (b : Banks) (line : Nat) : Bool :=
  (b.grnFilling line).isSome || (b.fills.any fun f => f.2.line == line) || b.waiters.any fun w => w.line == line && w.fill.isSome

/-- A Granary hit (R80, R112): colour checked, data and metadata in hand, as the directory writes of the line leave it (R189). -/
def State.grnHit (s : State) (n e k : Nat) (x : Entry) (g : GEntry) : State :=
  let s := s.bumpSlc n 1 0 32
  let i := s.pendingDir n x.req.line g.info
  if Meta.colour g.info ≠ x.req.part then (s.putEnt n e { x with grnDone := true }).failColour n e (Meta.colour g.info) false
  else
    (s.putEnt n e { x with grnDone := true, way := if x.req.plate.isSome then .none else .hit k, src := 2, base := some g.data, info := some i,
                           pois := Meta.poison i, colourOk := true }).serve n e

/-- A Granary miss (R154, R244): a way for the forms that allocate, and the media read. -/
def State.grnMiss (s : State) (n e : Nat) (x : Entry) : State :=
  let s := s.bumpSlc n 1 32 32
  let s := s.putEnt n e { x with grnDone := true }
  let s := if x.req.plate.isNone && formAlloc x.req.form then
      let r := s.chooseGrn n (some e) x.req.line x.req.part
      r.2.onEnt n e fun x => { x with way := r.1 }
    else s
  let s := if x.req.form == .wrPtl then s.bumpSlc n 5 32 32 else s
  (s.startRead n e).serve n e

/-! ### Snoops (R116 to R126, R162 to R165) -/

/-- A silent holder (R119, R124): it may hold the line dirty when the record was exact E or in doubt. -/
def State.silent (s : State) (n e i : Nat) (may : Bool) : State :=
  let s := s.bumpIp i 4 32 32
  match s.ent n e with
  | none => s
  | some x => (s.endResv n x.req.line).putEnt n e { x with pois := x.pois || may, expect := x.expect - 1 }

/-- The record was an exact E holder or doubt (R124). -/
def mayDirty : Option HRec → Bool
  | some (.owned _) | some .doubt => true
  | _ => false

/-- The snoop of a BITag is over. -/
def State.dropSnoop (s : State) (i tag : Nat) : State := s.onIp i fun q => { q with snoops := Tbl.del q.snoops tag }

/-- A host port is declared unresponsive (R119, R124, R135); its BISnps that wait to leave are not sent, and count at once (R126). A further snoop
that has left already and times out later is a declaration of its own, with its event and its record (DESIGN CHOICE: the spec does not say; log
56). -/
def State.declare (s : State) (i h line p : Nat) (f : SnpForm) : State :=
  let s := ((s.onHp h fun q => { q with unresp := true }).raise (srcIp i 1) (256 + 124) line p h).record p 1 (.unresp h line f)
  State.each (fun (y : Nat × Snoop) s => (((s.dropSnoop i y.1).silent y.2.slice y.2.entry i y.2.dirty).serve y.2.slice y.2.entry))
    ((s.ip i).snoops.filter fun y => y.2.host == h && y.2.left.isNone) s

/-- The BITag that an intake port assigns (R117): of those neither in use nor retired (R174 step 2) the lowest (DESIGN CHOICE: the spec says a free
one; log 56). -/
def Intake.bitag (p : Intake) : Option Nat := Tbl.free ((p.snoops.map fun x => (x.1, ())) ++ p.retired.map fun t => (t, ())) 0 4096

/-- Entries with a snoop to issue (R165): the next host's intake port has a free BITag, or the host port is unresponsive. -/
def State.issuable (s : State) (n : Nat) : List (Nat × Entry) :=
  (s.slc n).front.ents.filter fun x =>
    x.2.st == .snoop &&
      match x.2.toIssue with
      | h :: _ => (s.hp h).unresp || (s.ip (s.hp h).intake).bitag.isSome
      | [] => false

/-- The entry whose next snoop is issued (R165). -/
def State.nextIssue (s : State) (n : Nat) : Option (Nat × Entry) :=
  let l := s.issuable n
  let l := if l.any fun x => 255 ≤ x.2.passed then l.filter fun x => 255 ≤ x.2.passed else l
  let low := minOf (fun (x : Nat × Entry) => x.2.snpOrder) 0 l
  l.find? fun x => x.2.snpOrder == low

/-- A BISnp leaves its intake port on a credit of the port adapter (R124, R133), with the adapter's BI-ID of the port (R117), and not before
the hold of its request is over (R293). -/
def State.sendSnoop (s : State) (i tag : Nat) : State :=
  match Tbl.find (s.ip i).snoops tag with
  | some y =>
    if (s.ip i).snpCredits = 0 ∨ y.left.isSome ∨ s.now < y.after then s
    else
      ((s.onIp i fun q => { q with snpCredits := q.snpCredits - 1, snoops := Tbl.set q.snoops tag { y with left := some s.now } }).bumpIp i 4 0 32).send
        (.bisnp i (Config.biId i) tag y.host y.line y.form)
  | none => s

/-- The BISnps of an intake port that wait for a credit or for their time leave, the lowest BITag first (DESIGN CHOICE: the spec gives no order; log
56). -/
def State.sendWaiting (s : State) (i : Nat) : State :=
  State.each (fun tag s => s.sendSnoop i tag) (((s.ip i).snoops.filter fun y => y.2.left.isNone).map Prod.fst) s

/-- R479: a write or clean eviction of the host that waits for the line, with no other request of the host for the line ahead of it. -/
def Front.waitingOf (f : Front) (h line : Nat) : Option Req :=
  match (f.queue ++ f.cq ++ f.parked).find? fun r => r.line == line && r.host == some h with
  | some r => if (formWrite r.form || r.form == .clnEvct) && r.plate.isNone then some r else none
  | none => none

/-- R479: the entry takes such a message at the moment it issues its snoop, as R111 takes one that arrives; the message's place frees. -/
def State.takeWaiting (s : State) (n e h line : Nat) : State :=
  match (s.slc n).front.waitingOf h line with
  | none => s
  | some r =>
    let s := ((s.onFront n fun f => { f with queue := f.queue.erase r, cq := f.cq.erase r, parked := f.parked.erase r }).payCredits h).unpark n
    if formWrite r.form then ((s.markWrote n e r.host).onEnt n e fun x => { x with wbs := x.wbs ++ [⟨r, none⟩] }).serve n e else s.takeClean n e r

/-- The next snoop of an entry is being issued: the other entries with one to issue were passed over once more (R165). -/
def State.issuing (s : State) (n e : Nat) (rest : List Nat) : State :=
  let others := (s.issuable n).map Prod.fst
  (s.onFront n fun f =>
    { f with ents := f.ents.map fun y => if y.1 != e && others.contains y.1 then (y.1, { y.2 with passed := y.2.passed + 1 }) else y }).onEnt n e
      fun x => { x with toIssue := rest, passed := 0 }

/-- The number of a snoop form in a packet's header (R493; DESIGN CHOICE: the spec gives none; log 19). -/
def SnpForm.num : SnpForm → Nat
  | .inv => 0
  | .data => 1
  | .cur => 2

/-- BISNP_ISSUE (R117, R121, R126, R165, R479); what waits at the intake ports goes first. -/
def execBisnpIssue (t : Ns) (n : SliceId) (s : State) : Host.Outcome State Fault Refusal :=
  let s := s.tick t
  let s := if s.mute then s else State.each (fun i s => s.sendWaiting i) (List.range 16) s
  let n := n.val
  .next (match (if s.mute then none else s.nextIssue n) with
    | none => s
    | some (e, x) =>
      match x.toIssue with
      | [] => s
      | h :: rest =>
        let s := s.issuing n e rest
        let i := (s.hp h).intake
        if (s.hp h).unresp then (s.silent n e i (mayDirty x.hrec)).serve n e
        else
          match (s.ip i).bitag with
          | none => s
          | some tag =>
            let y : Snoop := { slice := n, entry := e, host := h, line := x.req.line, part := x.req.part, form := x.snp, dirty := mayDirty x.hrec,
                               left := none, wrote := false, after := x.after' }
            let s := s.packet (.slice n) (.intake i) 0x20 { prio := s.prio y.part, tag := e, host := some h, part := y.part, line := y.line, form := y.form.num }
            ((s.onIp i fun q => { q with snoops := Tbl.set q.snoops tag y }).sendSnoop i tag).takeWaiting n e h x.req.line)

/-- BISNP_CREDIT (R133): the port adapter returns a BISnp credit, and a BISnp that waits goes. -/
def execBisnpCredit (t : Ns) (i : IntakeId) (s : State) : Host.Outcome State Fault Refusal :=
  let s := (s.tick t).onIp i.val fun q => { q with snpCredits := q.snpCredits + 1 }
  .next (if s.mute then s else s.sendWaiting i.val)

/-- R119: the holder state that a conforming answer records: none removed, S `false`, E `true`; or nonconforming. -/
def conform : SnpForm → BIAns → Option (Option Bool)
  | _, .rspI => some none
  | .data, .rspS => some (some false)
  | .cur, .rspS => some (some false)
  | .cur, .rspE => some (some true)
  | _, _ => none

/-- A BIRsp goes on to the slice's response collector (R495). -/
def State.sendRsp (s : State) (i : Nat) (y : Snoop) (ans : BIAns) : State :=
  s.packet (.intake i) (.slice y.slice) 0x41 { prio := s.prio y.part, tag := y.entry, host := some y.host, part := y.part, line := y.line, aux := match ans with
    | .rspI => 0
    | .rspS => 1
    | .rspE => 2
    | _ => 3 }

/-- BI_RSP (R78, R119, R132, R174 step 2); a power-fail warning does not stop it (R599 step 1). A BITag that a fence retired is free again once its
late BIRsp has been absorbed (DESIGN CHOICE: the spec does not say when it is; log 56). -/
def execBiRsp (t : Ns) (port : IntakeId) (host : HostId) (line : BitVec 42) (bitag : Nat) (ans : BIAns) (s : State) :
    Host.Outcome State Fault Refusal :=
  let s := s.tick t
  let i := port.val
  let drop := (s.bumpIp i 2 48 16).raise (srcIp i 0) (256 + 78) line.toNat 0 host.val
  .next (if (s.ip i).halted && s.pwr.fail.isNone then s
  else if (s.ip i).retired.contains bitag && ans != .block then
    ((s.bumpIp i 5 0 32).onIp i fun q => { q with retired := q.retired.filter (· != bitag) }).raise (srcIp i 0) (256 + 174) line.toNat 0 host.val
  else
    match Tbl.find (s.ip i).snoops bitag with
    | none => drop
    | some y =>
      if ans == .block || y.host != host.val || y.line != line.toNat || y.left.isNone then drop
      else
        let s := s.sendRsp i y ans
        match conform y.form ans with
        | some k =>
          let s := s.dropSnoop i bitag
          (s.onEnt y.slice y.entry fun x =>
            { x with expect := x.expect - 1, stay := match k with
                | some b => x.stay ++ [(y.host, b)]
                | none => x.stay }).serve y.slice y.entry
        | none =>
          let s := ((s.dropSnoop i bitag).bumpIp i 5 32 32).raise (srcIp i 2) (256 + 119) y.line y.part y.host
          ((s.declare i y.host y.line y.part y.form).silent y.slice y.entry i y.dirty).serve y.slice y.entry)

/-- SNOOP_TIMEOUT (R124). -/
def execSnoopTimeout (t : Ns) (port : IntakeId) (bitag : Nat) (s : State) : Host.Outcome State Fault Refusal :=
  let s := s.tick t
  let i := port.val
  .next (match Tbl.find (s.ip i).snoops bitag with
    | none => s
    | some y =>
      match y.left with
      | none => s
      | some t0 =>
        if s.now < t0 + s.blk.snpTmo * 1000 then s
        else (((s.dropSnoop i bitag).declare i y.host y.line y.part y.form).silent y.slice y.entry i y.dirty).serve y.slice y.entry)

/-! ### Notices, settling, acknowledgements (R157, R158, R393) -/

/-- NOTE_ACK (R157, R173, R311): the intake port records the sequence and epoch with the kept header and acknowledges the notice, once. -/
def execNoteAck (t : Ns) (port : IntakeId) (n : SliceId) (seq : Word) (tag : Nat) (s : State) : Host.Outcome State Fault Refusal :=
  let s := s.tick t
  let q := seq.toNat
  .next (match s.pend? n.val q, s.kept? port.val tag with
    | some w, some _ =>
      if !w.notes.contains (port.val, tag) then s
      else
        ((s.packet (.intake port.val) (.slice n.val) 0x43 { prio := s.prio w.part, tag := tag, part := w.part, line := w.line, aux := q }).onIp port.val fun p =>
          p.onKept tag fun k => { k with req := { k.req with noted := some q, epoch := some w.epoch } }).onPends n.val
          (fun y => y.seq == q) fun y => { y with notes := y.notes.erase (port.val, tag) }
    | _, _ => s)

/-- WRITE_SETTLE (R158). -/
def execWriteSettle (t : Ns) (n : SliceId) (seq : Word) (s : State) : Host.Outcome State Fault Refusal :=
  .next ((((s.tick t).settleWrite n.val seq.toNat).serveWb n.val seq.toNat).wake n.val)

/-- TWIN_ACK (R340, R393, R399). -/
def execTwinAck (t : Ns) (n : SliceId) (seq : Word) (s : State) : Host.Outcome State Fault Refusal :=
  let s := ((s.tick t).frame.bumpTwn 3 0 64).onPends n.val (fun w => w.seq == seq.toNat) fun w => { w with twinAck := true }
  .next ((s.twinIn (.slice n.val) 0x46 { prio := ((s.pend? n.val seq.toNat).map fun w => s.prio w.part).getD 0, aux := seq.toNat }).settleUp n.val)

/-! ### Responses (R114, R161, R293, R387, R394) -/

/-- The responses of a kept request leave its port, DRS first; its header frees and its credit returns (R130), and its latency counts at its
host port (R512). -/
def State.releaseKept (s : State) (i : Nat) (k : Kept) : State :=
  let s := (s.release i k.req.echo).unkeep i k.req.tag
  let s := match k.req.host with
    | some h => s.latency (16 + h) k.req.arrived
    | none => s
  let n := k.slice
  let s :=
    match k.req.host with
    | some h =>
      if k.req.fwd then s.toTwin (.response i k.cxl k.req.part k.drs k.ndr (s.devLoad n h))
      else
        let s := match k.drs with
          | some d => s.send (.drs i h k.cxl d.1 d.2 (s.devLoad n h))
          | none => s
        let s := match k.ndr with
          | some a => s.send (.ndr i h k.cxl a (s.devLoad n h))
          | none => s
        s.returnCredit h (formWrite k.req.form)
    | none => s
  (((s.ackStep i).drainPart k.req.part).echoGo i).pumpAll i

/-- INTAKE_RESPONSE_RELEASE (R161), once the answering slice's time has reached the hold's end (R293, R279). -/
def execIntakeResponseRelease (t : Ns) (port : IntakeId) (tag : Nat) (s : State) : Host.Outcome State Fault Refusal :=
  let s := s.tick t
  .next (match s.kept? port.val tag with
    | some k => if k.ready && k.after ≤ s.sliceNow k.slice && !s.mute && !(s.ip port.val).behindAck k then (s.releaseKept port.val k).stopTick else s
    | none => s)

/-! ### Limits (R67, R167, R169) -/

/-- HOLD_TIMEOUT (R67): held requests for 5 ms. -/
def execHoldTimeout (t : Ns) (part : PartId) (s : State) : Host.Outcome State Fault Refusal :=
  let s := s.tick t
  let q := s.part part.val
  .next (match q.heldSince with
    | some t0 =>
      if t0 + 5000000 ≤ s.now && !q.holdEv then (s.onPart part.val fun q => { q with holdEv := true }).raise (srcFw 1) (256 + 67) 0 part.val 0 else s
    | none => s)

/-- HOLD_OVERRUN (R167): a line moved under hold for 2 µs; the move is abandoned and the line released. -/
def execHoldOverrun (t : Ns) (n : SliceId) (e : Nat) (s : State) : Host.Outcome State Fault Refusal :=
  let s := s.tick t
  let n := n.val
  .next (match s.ent n e with
    | some x =>
      if x.hold && x.start + 2000 ≤ s.time then
        (((((s.dropEnt n e).unlock n x.req.line).bumpPlc 6 32 16).raise (srcSlc n 5) (256 + 167) x.req.line x.req.part n).abandonMove (tractOf x.req.line)).refillAll n
      else s
    | none => s)

/-- TRACKER_AGE (R169). -/
def execTrackerAge (t : Ns) (n : SliceId) (e : Nat) (s : State) : Host.Outcome State Fault Refusal :=
  let s := s.tick t
  let n := n.val
  .next (match s.ent n e with
    | some x =>
      if !x.aged && x.start + s.blk.trkAge * 1000000 < s.time then
        (s.putEnt n e { x with aged := true }).raise (srcSlc n 5) (256 + 169) x.req.line x.req.part n
      else s
    | none => s)

end Sys2Proof.Machine
end

