-- ==== Sys2Proof/Machine/Mirror.lean ====
section
/-! DEFINITION. Mirrored lines (R393, R412): the plate copy that a settle or resync record waits for (R317), the line's place in the
mirror's Granary, and the reads of a recall's answer (R398). Their buffers are entries from 1,024 on, which no limit of R137 counts. -/

namespace Sys2Proof.Machine

/-- A free buffer for mirror work. -/
def State.mirrorBuf (s : State) (n : Nat) : Option Nat := Tbl.free (s.slc n).front.ents 1024 8192

/-- A mirrored line is placed: it goes to its Granary entry, dirty and twin-held with the doubt marker; the twin is told once it is durable (R388,
R393); once the twin is lost there is none to tell, and the line is a write that must reach media (R345, R373). -/
def State.mirrorPlace (s : State) (n : Nat) (r : Req) (pois : Bool) : State :=
  let line := r.line
  let p := r.part
  let seq := r.noted.getD 0
  let g := match s.mapEntry (tractOf line) with
    | some e => meGen e
    | none => 0
  let up := s.mirroring
  let w : Pend :=
    { seq := 2 ^ 33 + 2 ^ 32 * r.num + seq, line := line, part := p, host := none, tags := [], entry := none, accept := if up then s.sliceTime n else 0, epoch := r.epoch.getD 0, notes := [],
      placed := true, settled := false, twinAck := true, accepted := false, media := false, bypass := false, twin := up, arrived := r.arrived, replay := false,
      after' := 0, mb := none, ack := if up then some (if r.fwd then .resyncAck line else .ack r.num seq) else none }
  let s := (s.endResv n line).onFront n fun f => { f with pends := f.pends ++ [w] }
  let s := if pois then s.addPoison p line .hostWrite else s.delPoison p line
  (s.placeDirty n p ⟨line, r.data, mkMeta 3 0x3FF (s.dg (sliceOf line)) p pois (r.tgen.getD g), some seq, true⟩).completeAll n

/-- A mirrored line that the Granary holds is placed where its entry's colour is the tract map's (R80); else the tract freezes in doubt (R82). A line
that it does not hold has had its colour read and checked by the primary. -/
def State.mirrorPut (s : State) (n : Nat) (r : Req) (pois : Bool) : State :=
  match s.grnValue n r.line with
  | some v => if Meta.colour v.2 ≠ r.part then s.colourBad n r.line (Meta.colour v.2) else s.mirrorPlace n r pois
  | none => s.mirrorPlace n r pois

/-- The plate entry that a mirrored write of the line must copy first: the newest plate of its epoch still shares the line (R317). -/
def State.mirrorShares (s : State) (r : Req) : Bool :=
  let q := s.part r.part
  match q.plateFor (r.epoch.getD 0) with
  | some j => (Tbl.find q.plates j).any fun y => (Tbl.find y.map (r.line - q.dataLo)).isNone
  | none => false

/-- An earlier record goes before this one: of its line, or of its source slice, whose records apply in the order of receipt (R393). Resync records, of
source 128, are in the order of their lines alone (R413). -/
def Entry.after (x y : Entry) : Bool :=
  y.kind == .mirror && y.snpOrder < x.snpOrder && (y.req.line == x.req.line || (y.req.num == x.req.num && x.req.num < 128))

/-- A buffered record that no earlier one precedes and that waits for nothing (R393). -/
def State.mirrorFirst (s : State) (n : Nat) : Option (Nat × Entry) :=
  let l := (s.slc n).front.ents.filter fun x => x.2.kind == .mirror
  l.find? fun x => !x.2.snooped && !x.2.copyWait && !(l.any fun y => x.2.after y.2)

/-- Work on the buffered records, as many steps as the fuel allows: one is applied at once when no plate shares its line, else the line's value is
had from the Granary or read from media. -/
def State.mirrorStep (n : Nat) : Nat → State → State
  | 0, s => s
  | fuel + 1, s =>
    match s.mirrorFirst n with
    | none => s
    | some (e, x) =>
      let line := x.req.line
      State.mirrorStep n fuel (if !s.mirrorShares x.req then (s.dropEnt n e).mirrorPut n x.req x.pois
      else
        match s.grnValue n line with
        | some v =>
          if Meta.colour v.2 ≠ x.req.part then (s.dropEnt n e).colourBad n line (Meta.colour v.2)
          else
          let s := (s.onEnt n e fun x => { x with base := some v.1, snooped := true }).plateCopy n e (x.req.epoch.getD 0) 0
          if (s.ent n e).any fun y => y.copyWait then s else (s.dropEnt n e).mirrorPut n x.req x.pois
        | none => (s.onEnt n e fun x => { x with snooped := true }).readInt n e line)

/-- The records that can go on do. -/
def State.mirrorNext (s : State) (n : Nat) : State := State.mirrorStep n (s.slc n).front.ents.length s

/-- A record arrives (R393, R412): it stands behind earlier records of its line and of its source slice. -/
def State.mirrorIn (s : State) (n : Nat) (r : Req) (pois : Bool) : State :=
  match s.mirrorBuf n with
  | none => s
  | some e =>
    let f := (s.slc n).front
    let s := (s.rouse n).putEnt n e { Entry.blank .mirror r s.time with pois := pois, snpOrder := f.snpCount }
    (s.onFront n fun f => { f with snpCount := f.snpCount + 1 }).mirrorNext n

/-- The line's old value is in hand, or lost: the copy is made and the record is applied once it is accepted. -/
def State.mirrorGot (s : State) (n e : Nat) (v : Line) (lost : Bool) : State :=
  match s.ent n e with
  | none => s
  | some x =>
    let s := (s.putEnt n e { x with base := some v, lost := lost }).plateCopy n e (x.req.epoch.getD 0) 0
    if (s.ent n e).any fun y => y.copyWait then s else ((s.dropEnt n e).mirrorPut n x.req x.pois).mirrorNext n

/-- The copy of a buffered record has been accepted. -/
def State.mirrorDone (s : State) (n e : Nat) : State :=
  match s.ent n e with
  | some x => if x.kind = .mirror then ((s.dropEnt n e).mirrorPut n x.req x.pois).mirrorNext n else s
  | none => s

/-! ### The answer to a recall (R398) -/

/-- A line as a recall returns it. -/
def recallLine (line : Nat) (d : Line) (p : Nat) (pois : Bool) (g seq : Nat) : RecallLine :=
  ⟨BitVec.ofNat 42 line, d, Fin.ofNat 64 p, pois, BitVec.ofNat 4 g, BitVec.ofNat 32 seq⟩

/-- The recall of set `m` is answered once no read of it is outstanding in slice `n`. -/
def State.recallEnd (s : State) (n m : Nat) : State :=
  if (s.slc n).front.ents.any fun x => x.2.kind == .recall && sliceOf x.2.req.line == m then s
  else (s.toTwin (.recalled m (Tbl.get [] s.twin.recalls m))).onTwin fun w => { w with recalls := Tbl.del w.recalls m }

/-- A read of the answer returns. -/
def State.recallGot (s : State) (n e : Nat) (d : Line) (p : Nat) (pois : Bool) (g : Nat) : State :=
  match s.ent n e with
  | none => s
  | some x =>
    let line := x.req.line
    let m := sliceOf line
    let l := recallLine line d p pois g (Tbl.get 0 (s.slc n).banks.held line)
    ((s.dropEnt n e).onTwin fun w => { w with recalls := Tbl.set w.recalls m (Tbl.get [] w.recalls m ++ [l]) }).recallEnd n m

/-- The slice that answers a recall of set `m`. -/
def State.recaller (s : State) (m : Nat) : Nat :=
  if (s.slc m).phase = Phase.run ∨ (s.slc m).phase = Phase.prepare ∨ (s.slc m).phase = Phase.quiesce then m else buddy m

/-- A settle record of set `m` has come and its line is not placed yet (R398): it waits for a plate copy or for a way. -/
def State.recallWaits (s : State) (m : Nat) : Bool :=
  let f := (s.slc (s.recaller m)).front
  (f.ents.any fun x => x.2.kind == .mirror && sliceOf x.2.req.line == m) || f.pends.any fun w => w.ack.isSome && !w.settled && sliceOf w.line == m

/-- A recall of set `m` is answered, after every settle record that came before it (R398, R389): the twin-held lines of the Granary whose colour is the tract map's (R80, R82), and those of the held-line record, read
from media. -/
def State.recall (s : State) (m : Nat) : State :=
  let n := s.recaller m
  let b := (s.slc n).banks
  let mine := b.grn.filter fun x => x.2.valid && x.2.twinHeld && sliceOf x.2.line == m
  let s := State.each (fun (x : Nat × GEntry) s => s.colourBad n x.2.line (Meta.colour x.2.info)) (mine.filter fun x => Meta.colour x.2.info != s.mapPart x.2.line) s
  let here := (mine.filter fun x => Meta.colour x.2.info == s.mapPart x.2.line).map fun x =>
    recallLine x.2.line x.2.data (Meta.colour x.2.info) (Meta.poison x.2.info) (Meta.tractGen x.2.info) x.2.mirrorSeq
  let away := (b.held.filter fun x => sliceOf x.1 == m && !(b.grn.any fun g => g.2.valid && g.2.twinHeld && g.2.line == x.1)).map Prod.fst
  let s := s.onTwin fun w => { w with recalls := Tbl.set w.recalls m here }
  let s := State.each (fun line s =>
    match s.mirrorBuf n with
    | some e => ((s.rouse n).putEnt n e (Entry.blank .recall (intReq line (s.mapPart line) s.time) s.time)).readInt n e line
    | none => s) away s
  s.recallEnd n m

/-- The recalls that can be answered are (R398). -/
def State.recallsGo (s : State) : State :=
  State.each (fun m s => if s.recallWaits m then s else (s.onTwin fun w => { w with recallDue := w.recallDue.filter (· != m) }).recall m) s.twin.recallDue s

end Sys2Proof.Machine
end

