-- ==== Sys2Proof/Machine/MediaCmd.lean ====
section
/-! DEFINITION. The commands at the media ports: codewords that return (R112, R439, R521, R522), metadata read-modify-writes (R191, R213),
acceptance and completion of writes (R252, R253, R263, R340, R396, R397), timeouts (R528) and faults of a port (R554). -/

namespace Sys2Proof.Machine

/-- The recogniser's controls (R543). -/
def State.laneCtl (s : State) : LaneCtl := ⟨s.blk.laneTracts, s.blk.laneWindow⟩

/-! ### Copies of a tract move, started and retried (R459 to R461, R378) -/

/-- Start the copy of line `i` of a moving record: under hold after four losses, from the Granary at once, else by a media read. -/
def State.startCopy (n : Nat) (r : MovRec) (base i : Nat) (s : State) : State :=
  let line := base + i
  let p := s.mapPart line
  if 4 ≤ r.losses.getD i 0 then
    let f := (s.slc n).front
    if (f.queue ++ f.parked ++ f.cq).any fun q => q.isHold && q.line == line then s
    else if (f.holder line).isSome || f.waiting line then (s.follow n (copyHold line p s.time)).unpark n
    else s.allocHold n (copyHold line p s.time)
  else
    match s.freeInt n .migrate with
    | none => s
    | some e =>
      match s.grnValue n line with
      | some v => if Meta.colour v.2 = p then s.copyWrite n line v.1 v.2 e else s.colourBad n line (Meta.colour v.2)
      | none => (s.openInt n e .migrate line p false).readInt n e line

/-- Slice `n` starts every copy that waits, as its internal entries allow: the lines of tracts in COPY that are neither copied nor
being copied, at ports where the engine does not yield (R44, R263). -/
def State.pumpCopies (s : State) (n : Nat) : State :=
  let rs := (s.slc n).banks.moves.filter fun r => s.place.moves.any fun v => v.tract == r.tract && v.phase == .copy
  State.each (fun (r : MovRec) s =>
    match sheafLine r.set r.tract with
    | some base =>
      State.each (fun i s =>
        match s.movRec n (base + i) with
        | some r =>
          if bitN r.mask i || s.yields r.old.1 false || s.yields r.new.1 false || (s.slc n).front.ents.any fun x => x.2.kind == .migrate && x.2.req.line == base + i then s
          else State.startCopy n r base i s
        | none => s) (List.range 16) s
    | none => s) rs s

/-- The copies that yielded at a media port go on (R44). -/
def State.pumpPort (s : State) (m : Nat) : State :=
  State.each (fun n s => s.pumpCopies n)
    ((s.slices.filter fun c => c.2.banks.moves.any fun r => (r.old.1 == m || r.new.1 == m) && !r.committed).map Prod.fst) s

/-! ### Reads that return -/

/-- What the media read of an entry is for. -/
def Entry.readPurp (x : Entry) (e : Nat) : Purp := if x.kind == .host then .read e else .scrub e

/-- Read the line of an entry again, now that its directory write is complete (R192). -/
def State.readAgain (s : State) (n e : Nat) : State :=
  match s.ent n e with
  | some x =>
    match x.place with
    | some p => (s.putEnt n e { x with reread := false }).media p.1 n (x.readPurp e) x.req.line p.2.1 false 0
    | none => s
  | none => s

/-- A codeword for a host entry that has not had its line's metadata (R80, R112, R439): checked, and used for data, fill, merge or metadata. A read
issued before a directory write of the line was complete gives the data, and a second read the metadata (R192, R212). The flag says that its colour
and generation are the line's. -/
def State.hostUse (s : State) (n e : Nat) (x : Entry) (home : Bool) (cw : Codeword) : Bool × State :=
  let line := x.req.line
  let i := Codeword.info cw
  let gen := match x.place with
    | some p => home && Meta.tractGen i != p.2.2
    | none => false
  if Meta.colour i ≠ x.req.part then (false, s.failColour n e (Meta.colour i) gen)
  else if gen then (false, s.failWalk n e true)
  else
  let first := x.base.isNone
  let v := x.base.getD (Codeword.line cw)
  let x := { x with base := some v, pois := x.pois || (first && Meta.poison i), src := if first then 3 else x.src }
  if x.reread then
    let s := s.putEnt n e x
    (true, if s.dirBusy n line then s else s.readAgain n e)
  else
    let x := { x with info := some i, colourOk := true }
    let s := (s.putEnt n e x).mergePtl n e
    (true, (if x.req.plate.isNone && !formWrite x.req.form then s.readFill n e x v i else s).serve n e)

/-- A codeword for a host entry, which is used, and written back when it was corrected and did not come from an accepted write (R522). -/
def State.hostGot (s : State) (n e m : Nat) (o : MOp) (cw : Codeword) (fixed acc : Bool) : State :=
  match s.ent n e with
  | none => s
  | some x =>
    let line := x.req.line
    let home := (s.livePlaces n line).any fun p => p.1 == m && p.2.1 == o.addr / 1024
    if x.fail.isSome || x.colourOk || o.line ≠ line then s
    else
      let wb := if fixed && !acc && home && Meta.colour (Codeword.info cw) == x.req.part then s.openWb n line else (none, s)
      let r := wb.2.hostUse n e x home cw
      if r.1 then r.2.commitWb n line m o.addr cw wb.1
      else
        match wb.1 with
        | some k => r.2.dropEnt n k
        | none => r.2

/-- No codeword for a host entry (R115, R261, R710): its data is lost, and its directory copy with it. `ev` says that the
uncorrectable-codeword event is still to be raised. -/
def State.hostLost (s : State) (n e m : Nat) (o : MOp) (ev : Bool) : State :=
  match s.ent n e with
  | none => s
  | some x =>
    let line := x.req.line
    if x.fail.isSome || x.colourOk || o.line ≠ line then s
    else
      let s := if ev then s.lostLine n line m else s
      if s.mapPart line ≠ x.req.part then s.failColour n e (s.mapPart line) false
      else
        let s := if formWrite x.req.form then s else (s.dropWay n e x).onEnt n e fun x => { x with way := .none }
        ((s.onEnt n e fun x => { x with base := some 0, lost := true, info := some (s.mapInfo line 3 0x3FF true), colourOk := true,
                                        reread := false, src := 3 }).mergePtl n e).serve n e

/-- An internal entry ends; a line that it moved under hold is LOCKED no longer (R246). -/
def State.dropInt (s : State) (n e : Nat) : State :=
  match s.ent n e with
  | some x => if x.hold then (s.dropEnt n e).unlock n x.req.line else s.dropEnt n e
  | none => s

/-- A codeword for an internal entry (R460, R539, R412); a reservation that has ended gives up the work (R376, R379, R461), and a copy's corrected
read ends its own (R376). -/
def State.intGot (s : State) (n e m : Nat) (o : MOp) (cw : Codeword) (fixed : Bool) : State :=
  match s.ent n e with
  | none => s
  | some x =>
    let line := x.req.line
    let i := Codeword.info cw
    if o.line ≠ line then s
    else
      match x.kind with
      | .scrub =>
        let s := s.bumpStk (stookOf n) 3 0 64
        (if x.resv && !x.reread then s.scrubGot n e line cw fixed m o.addr else s.scrubSkip line m).dropEnt n e
      | .migrate =>
        let gen := match x.place with
          | some p => Meta.tractGen i != p.2.2
          | none => false
        if (s.movRec n line).isNone then (s.dropInt n e).refillAll n
        else if Meta.colour i ≠ x.req.part then ((s.dropInt n e).colourBad n line (Meta.colour i)).refillAll n
        else if gen then ((s.dropInt n e).genBad n line).refillAll n
        else if x.hold && x.reread then (if s.dirBusy n line then s else s.readAgain n e)
        else if x.hold || (x.resv && !fixed) then (((s.dropInt n e).copyWrite n line (Codeword.line cw) i e).refillAll n).pumpCopies n
        else (s.copyLoss n e line true).pumpCopies n
      | .resync =>
        let s := s.dropEnt n e
        if !x.resv || fixed then s
        else if Meta.colour i ≠ x.req.part then s.colourBad n line (Meta.colour i)
        else s.resyncSend n line (Codeword.line cw)
      | .mirror => if Meta.colour i ≠ x.req.part then ((s.dropEnt n e).colourBad n line (Meta.colour i)).mirrorNext n else s.mirrorGot n e (Codeword.line cw) false
      | .recall =>
        if Meta.colour i ≠ x.req.part then ((s.dropEnt n e).colourBad n line (Meta.colour i)).recallEnd n (sliceOf line)
        else s.recallGot n e (Codeword.line cw) (Meta.colour i) (Meta.poison i) (Meta.tractGen i)
      | _ => s

/-- No codeword for an internal entry. Under hold the line's copy is written as R539 writes a lost line (log 14). -/
def State.intLost (s : State) (n e m : Nat) (o : MOp) (ev : Bool) : State :=
  match s.ent n e with
  | none => s
  | some x =>
    let line := x.req.line
    if o.line ≠ line then s
    else
      match x.kind with
      | .scrub =>
        let s := s.bumpStk (stookOf n) 3 0 64
        (if x.resv then s.scrubLost n e line m o.addr else s.scrubSkip line m).dropEnt n e
      | .migrate =>
        let s := if ev then s.lostLine n line m else s
        if x.hold then
          let s := (s.dropInt n e).copyWrite n line 0 (s.mapInfo line 3 0x3FF true) e
          ((s.addPoison x.req.part line .mediaManage).refillAll n).pumpCopies n
        else (s.copyLoss n e line true).pumpCopies n
      | .mirror => (if ev then s.lostLine n line m else s).mirrorGot n e 0 true
      | .recall => (if ev then s.lostLine n line m else s).recallGot n e 0 (s.mapPart line) true 0
      | _ => (if ev then s.lostLine n line m else s).dropEnt n e

/-- A codeword goes back to its slice (R495), and the read's latency counts (R512). -/
def State.sendCw (s : State) (m : Nat) (o : MOp) (cw : Codeword) : State :=
  let s := s.packet (.media m) (.slice o.slice) 0x61
    { prio := s.prioOf o.slice o.line o.purp, tag := o.id, line := o.line, aux := (Codeword.info cw).toNat + 2 ^ 32 * (cw.extractLsb' 544 32).toNat,
      data := lineUnits (Codeword.line cw) }
  s.latency (match s.engineOf o.slice o.purp with
    | some k => 1168 + k
    | none => 1040 + o.slice) o.since

/-- MEDIA_READ_RETURN (R112, R520, R521); a read that the interface serves from an accepted write returns what that write holds (R253), and the
codeword given is not used. -/
def execMediaReadReturn (t : Ns) (m : MediaId) (id : Nat) (cw : Codeword) (s : State) : Host.Outcome State Fault Refusal :=
  let s := s.tick t
  .next (match s.op? m.val id with
    | none => s
    | some o =>
      if o.write then s
      else
        let s := s.sendCw m.val o cw
        match o.purp with
        | .read e =>
          let g := s.decode m.val o cw s.laneCtl
          match g.1 with
          | .again => g.2.send (.media m.val o)
          | .ok c fixed acc => ((g.2.dropOp m.val id).hostGot o.slice e m.val o c fixed acc).pumpPort m.val
          | .lost => ((g.2.dropOp m.val id).hostLost o.slice e m.val o true).pumpPort m.val
        | .scrub e =>
          let g := s.decode m.val o cw s.laneCtl
          match g.1 with
          | .again => g.2.send (.media m.val o)
          | .ok c fixed _ => (g.2.dropOp m.val id).intGot o.slice e m.val o c fixed
          | .lost => (g.2.dropOp m.val id).intLost o.slice e m.val o true
        | _ => s)

/-! ### Directory writes at a media port (R191, R192, R211, R213) -/

/-- The directory write of slice `n` with an id. -/
def State.dirw? (s : State) (n id : Nat) : Option DirW := (s.slc n).banks.dirw.find? fun d => d.id == id

/-- A directory write is complete (R192): it ends the line's reservations (R214), its entry goes on, its spill loses the line, and reads that waited
are issued again. -/
def State.dirwDone (s : State) (n : Nat) (d : DirW) : State :=
  let s := (s.endResv n d.line).onBanks n fun b => { b with dirw := b.dirw.erase d }
  let s := if s.dirBusy n d.line then s
    else State.each (fun (x : Nat × Entry) s =>
      let out := s.mports.any fun q => q.2.ops.any fun o => o.slice == n && !o.write && o.purp == x.2.readPurp x.1
      if x.2.req.line = d.line ∧ x.2.reread ∧ !out then s.readAgain n x.1 else s) (s.slc n).front.ents s
  let s := match d.spill with
    | some j =>
      match Tbl.find (s.slc n).banks.spills j with
      | some p =>
        let left := p.left.filter (· != d.line)
        if left.isEmpty then (s.onBanks n fun b => { b with spills := Tbl.del b.spills j }).spillFreed n
        else s.onBanks n fun b => { b with spills := Tbl.set b.spills j { p with left := left } }
      | none => s
    | none => s
  (match d.entry with
  | some e => s.dirDone n e
  | none => s).handTick n

/-- R224: what the start-up refresh makes of a line's directory copy, as R201 gives it after the advance, and whether its age is impossible. Every copy
was written before the advance, so that its age is at least 1; the floor's age may have become 16. A quiet generation that the record holds is
younger than the floor. A mirrored partition's line takes the doubt marker (R388). -/
def State.refreshRec (s : State) (line : Nat) (i : Meta) : (Nat × Nat) × Bool :=
  let n := sliceOf line
  let up := fun (a : Nat) => if a = 0 then 16 else a
  let a := up (genAge (s.dg n) (Meta.dirGen i))
  let f := up (genAge (s.dg n) (s.fl n))
  let q := match Tbl.find s.dirGen.q (Meta.colour i * 128 + n) with
    | some v => genAge (s.dg n) v
    | none => f
  if f < a then ((3, 0x3FF), true) else if a ≤ q || !s.primary (Meta.colour i) then ((3, 0x3FF), false) else ((0, 0), false)

/-- The directory writes of a set that waited for its advance to be persisted are made (R219). -/
def State.dirRelease (s : State) (n : Nat) : State :=
  State.each (fun (x : Nat × DirW) s =>
    let d := x.2
    let s := s.onBanks x.1 fun b => { b with dirw := b.dirw.erase d }
    if d.refresh then s.refreshLine x.1 d.line
    else
      let r := match d.whole with
        | some v => s.wholeWrite x.1 d.line v.1 v.2 d.entry
        | none => s.dirWrite x.1 d.line d.state d.holder d.poison d.entry d.spill
      if r.1 then r.2.dirwDone x.1 d else r.2)
    ((s.slices.map fun c => (c.2.banks.dirw.filter fun d => d.held && sliceOf d.line == n).map fun d => (c.1, d)).flatten) s

/-- The codeword of a directory write has been read and corrected: it is written with the new fields (R191), once no advance of its set is open (R219); a
colour mismatch ends the write (R213, R82). -/
def State.rmwGot (s : State) (n : Nat) (d : DirW) (cw : Codeword) : State :=
  let i := Codeword.info cw
  if Meta.colour i ≠ s.mapPart d.line then (s.colourBad n d.line (Meta.colour i)).dirwDone n d
  else if s.advOpen d.line then s.rehold n d
  else if d.refresh then
    let r := s.refreshRec d.line i
    (if r.2 then s.bumpSlc n 9 32 16 else s).mediaWrite n (.dirw d.id) d.line (Codeword.line cw) (Meta.withDir i r.1.1 r.1.2 (s.dg (sliceOf d.line)) false)
  else s.mediaWrite n (.dirw d.id) d.line (Codeword.line cw) (Meta.withDir i d.state d.holder (s.dg (sliceOf d.line)) d.poison)

/-- The codeword of a directory write is uncorrectable (R213); the line's loss is met by the home's own media management. While an advance of its set is
open the write waits, and reads again (R219). -/
def State.rmwLost (s : State) (n m : Nat) (d : DirW) (ev : Bool) : State :=
  if s.advOpen d.line then s.rehold n d
  else
  let s := s.mediaWrite n (.dirw d.id) d.line 0 (s.mapInfo d.line d.state d.holder true)
  let s := s.addPoison (s.mapPart d.line) d.line .mediaManage
  if ev then s.lostLine n d.line m else s

/-- MEDIA_RMW (R191): the read of a metadata read-modify-write returns. -/
def execMediaRmw (t : Ns) (m : MediaId) (id : Nat) (cw : Codeword) (s : State) : Host.Outcome State Fault Refusal :=
  let s := s.tick t
  .next (match s.op? m.val id with
    | none => s
    | some o =>
      match o.write, o.purp with
      | false, .dirw k =>
        let g := (s.sendCw m.val o cw).decode m.val o cw s.laneCtl
        match g.1 with
        | .again => g.2.send (.media m.val o)
        | .ok c _ _ =>
          match g.2.dirw? o.slice k with
          | some d => (g.2.dropOp m.val id).rmwGot o.slice d c
          | none => g.2.dropOp m.val id
        | .lost =>
          match g.2.dirw? o.slice k with
          | some d => (g.2.dropOp m.val id).rmwLost o.slice m.val d true
          | none => g.2.dropOp m.val id
      | _, _ => s)

/-! ### Writes (R252, R253, R340, R396, R397) -/

/-- R252: the fill of an EVICTING way proceeds: its data is written when it is in, else the way is FILLING for the entry that took
it; a way that no entry waits for any more is given on. -/
def State.evictDone (s : State) (n k line : Nat) : State :=
  match Tbl.find (s.slc n).banks.fills k with
  | some f => (s.fillWay n k f).giveWay n k
  | none =>
    if (s.slc n).front.ents.any fun x => x.2.way == .evicting k && x.2.req.line == line then
      let fill : GEntry := { valid := false, dirty := false, line := line, info := 0, twinHeld := false, mirrorSeq := 0, st := .filling, data := 0 }
      (s.onBanks n fun b => { b with grn := Tbl.set b.grn k fill }).onFront n fun f =>
        { f with ents := Tbl.mapv (fun (x : Entry) => if x.way = .evicting k ∧ x.req.line = line then { x with way := .filling k } else x) f.ents }
    else (s.onBanks n fun b => { b with grn := Tbl.del b.grn k }).giveWay n k

/-- R397: before a twin-held line's way leaves EVICTING its line enters the held-line record; a full record keeps the way EVICTING and
asks the primary to write the line. -/
def State.evictAccepted (s : State) (n k line : Nat) : State :=
  match Tbl.find (s.slc n).banks.grn k with
  | some g =>
    if g.st != .evicting then s
    else if !g.twinHeld then s.evictDone n k line
    else if (s.slc n).banks.heldFull then s.askClean n g.line
    else (s.holdLine n g.line g.mirrorSeq).evictDone n k line
  | none => s

/-- R396: a primary slice's dirty line has been accepted by its media port. -/
def State.cleanNote (s : State) (n line seq : Nat) : State :=
  if s.mirrors && s.primary (s.mapPart line) && !((s.slc n).banks.grn.any fun g => g.2.line == line && g.2.twinHeld) then
    (s.toTwin (.clean line seq)).bumpTwn 4 32 32
  else s

/-- What follows from the acceptance of a write, by what the write is for. -/
def State.acceptedFor (s : State) (n : Nat) (o : MOp) : State :=
  match o.purp with
  | .evict k line =>
    let s := match o.mseq with
      | some q => s.cleanNote n o.line q
      | none => s
    s.evictAccepted n k line
  | .through | .drain =>
    match o.mseq with
    | some q => s.cleanNote n o.line q
    | none => s
  | .bypass q => s.cleanNote n o.line q
  | .dirw id =>
    match s.dirw? n id with
    | some d => s.dirwDone n d
    | none => s
  | .plate _ e => (s.onEnt n e fun x => { x with copyWait := false }).mirrorDone n e
  | .split tr =>
    if s.mports.any fun q => q.2.ops.any fun o => o.slice == n && o.purp == .split tr && !o.accepted then s
    else s.onBanks n fun b => { b with splitCache := (tr :: b.splitCache.filter (· != tr)).take 256 }
  | _ => s

/-- Writes that a port holds as accepted (R253). -/
def MPort.held (q : MPort) : Nat := (q.ops.filter fun o => o.write && o.accepted).length

/-- A media port interface tells a write's slice that it is accepted or complete (R495). -/
def State.sendMack (s : State) (m : Nat) (o : MOp) (done : Bool) : State :=
  s.packet (.media m) (.slice o.slice) 0x45 { prio := s.prioOf o.slice o.line o.purp, tag := o.id, line := o.line, aux := b2n done }

/-- A write of an earlier command to the same codeword address waits at the interface still (R253, R499). -/
def MPort.before (q : MPort) (o : MOp) : Bool := q.ops.any fun x => x.write && !x.accepted && x.addr == o.addr && x.id < o.id

/-- MEDIA_WRITE_ACCEPTED (R253, R340): the write goes to the media controller, after those handed over before it for its address (R499); none after the
drains of R572 and R599. -/
def execMediaWriteAccepted (t : Ns) (m : MediaId) (id : Nat) (s : State) : Host.Outcome State Fault Refusal :=
  let s := s.tick t
  .next (match s.op? m.val id with
    | none => s
    | some o =>
      if !o.write || o.accepted || 256 ≤ (s.mp m.val).held || (s.mp m.val).before o || (s.win.failsafe && !s.win.draining) || s.pwr.st == .halt then s
      else
        let s := s.onMp m.val fun q => { q with ops := q.ops.map fun x => if x.id = id then { o with accepted := true, since := s.now } else x }
        let s := (s.send (.media m.val { o with accepted := true, since := s.now })).sendMack m.val o false
        let s := s.onPends o.slice (fun w => w.line == o.line && o.holds.contains w.seq) fun w => { w with accepted := true }
        ((s.acceptedFor o.slice o).settleUp o.slice).recallsGo)

/-- R262, R263: the Granary entry of a line whose write-through or drain write is complete is clean, when it still holds what was
written; a slice that is write-through may be idle from DRAINED on (R46). -/
def State.cleanLine (s : State) (n : Nat) (o : MOp) : State :=
  match (s.slc n).banks.grnFind o.line with
  | some k =>
    (s.onBanks n fun b => b.onGrn k fun g =>
      if g.st != .evicting && g.data == Codeword.line o.cw && Meta.withGen g.info 0 == Meta.withGen (Codeword.info o.cw) 0 then { g with dirty := false } else g).onSlc n fun c => { c with busyAt := if c.banks.wt then s.now else c.busyAt }
  | none => s

/-- R572 step 7: the drain of the fail-safe state has ended. -/
def State.drainOver (s : State) : State :=
  if s.win.draining && !(s.slices.any fun c => c.2.banks.grn.any fun g => g.2.valid && g.2.dirty) && !(s.mports.any fun q => q.2.ops.any fun o => o.write) then
    s.onWin fun w => { w with draining := false }
  else s

/-- MEDIA_WRITE_COMPLETE (R263, R340). -/
def execMediaWriteComplete (t : Ns) (m : MediaId) (id : Nat) (s : State) : Host.Outcome State Fault Refusal :=
  let s := s.tick t
  .next (match s.op? m.val id with
    | none => s
    | some o =>
      if !o.write || !o.accepted then s
      else
        let s := (s.dropOp m.val id).onPends o.slice (fun w => w.line == o.line && o.holds.contains w.seq) fun w => { w with media := true }
        let s := match o.purp with
          | .through | .drain => s.cleanLine o.slice o
          | _ => s
        ((((s.sendMack m.val o true).settleUp o.slice).handTick o.slice).drainOver).pumpPort m.val)

/-! ### Timeouts and faults (R528, R529, R554) -/

/-- The command is handed over again. -/
def State.repeatOp (s : State) (m : Nat) (o : MOp) : State :=
  (s.onMp m fun q => { q with ops := q.ops.map fun x => if x.id = o.id then { x with tries := x.tries + 1, since := s.now } else x }).send (.media m o)

/-- MEDIA_READ_TIMEOUT (R528, R710). -/
def execMediaReadTimeout (t : Ns) (m : MediaId) (id : Nat) (s : State) : Host.Outcome State Fault Refusal :=
  let s := s.tick t
  .next (match s.op? m.val id with
    | none => s
    | some o =>
      if o.write || o.accepted || s.now < o.since + s.blk.readTmo * 1000 then s
      else
        let s := s.bumpMp m.val 2 0 24
        if o.tries = 0 then s.repeatOp m.val o
        else
          let s := (s.dropOp m.val id).raise (srcMp m.val 0) (256 + 528) o.line (s.mapPart o.line) o.slice
          match o.purp with
          | .read e => s.hostLost o.slice e m.val o false
          | .scrub e => s.intLost o.slice e m.val o false
          | .dirw k =>
            match s.dirw? o.slice k with
            | some d => s.rmwLost o.slice m.val d false
            | none => s
          | _ => s)

/-- MEDIA_WRITE_TIMEOUT (R528). -/
def execMediaWriteTimeout (t : Ns) (m : MediaId) (id : Nat) (s : State) : Host.Outcome State Fault Refusal :=
  let s := s.tick t
  .next (match s.op? m.val id with
    | none => s
    | some o =>
      if !o.write || !o.accepted || s.now < o.since + s.blk.writeTmo * 1000 then s
      else
        let s := (s.bumpMp m.val 2 24 24).repeatOp m.val o
        if o.tries = 0 then s else s.raise (srcMp m.val 1) (256 + 528) o.line (s.mapPart o.line) o.slice)

/-- MEDIA_PORT_FAULT (R554): a fault that the media controller reports; kind 0xFF, port lost, is GRAVE. -/
def execMediaPortFault (t : Ns) (m : MediaId) (kind : Byte) (s : State) : Host.Outcome State Fault Refusal :=
  .next ((s.tick t).raiseC (srcMp m.val 3) kind.toNat (if kind = 0xFF then some 4 else none) 0 0 m.val 0)

end Sys2Proof.Machine
end

