-- ==== Sys2Proof/Machine/Walk.lean ====
section
/-! DEFINITION. The tract-map walker and frozen tracts (R433 to R442): walks, their responses, freezes and thaws. -/

namespace Sys2Proof.Machine

/-- Lines of the map cache (R437): 65,536 in scratch way 2, twice that with way 11; none while way 2 is not carved. -/
def State.cacheLines (s : State) : Nat := if !s.scratchReady 2 then 0 else if s.scratchReady 11 then 131072 else 65536

/-- The place of a map line in the map cache can be read (R269, R270, R273): its slice is not fenced, and its scratch way there is in service. -/
def State.cacheRead (s : State) (i : Nat) : Bool := !s.fencedSlice (i % 128) && !bitN (s.slc (i % 128)).banks.grnOff (if i < 65536 then 13 else 4)

/-- The map cache holds the map line of a tract (R437); a place that cannot be read misses (R270). -/
def State.cacheHit (s : State) (tract : Nat) : Bool :=
  let k := s.cacheLines
  k != 0 && s.cacheRead (tract / 8 % k) && Tbl.find s.place.cache (tract / 8 % k) == some (tract / 8)

/-- The map line of a tract enters the map cache (R438). -/
def State.cachePut (s : State) (tract : Nat) : State :=
  let k := s.cacheLines
  if k = 0 then s else s.onPlace fun q => { q with cache := Tbl.set q.cache (tract / 8 % k) (tract / 8) }

/-- An entry as a copy holds it, with the bits that the read finds changed; zero where the map lists none. -/
def readEntry (t : Tbl Quad) (tract : Nat) (dmg : Quad) : Quad := (Tbl.find t tract).getD 0 ^^^ dmg

/-- The root pointer of a tract names a map tract (R435). -/
def State.rooted (s : State) (tract : Nat) : Bool := (Tbl.find s.place.roots (tract / 8192)).any fun w => w != 0xFFFFFFFF

/-- The entry that the walk's reads give (R438), and whether it came from the second copy; none is map corruption. -/
def State.walkRead (s : State) (tract : Nat) (rd : MapRead) : Option (Quad × Bool) :=
    if !s.rooted tract then none
    else
      let a := readEntry s.place.map tract rd.dmg0
      let b := readEntry s.place.map2 tract rd.dmg1
      if !rd.ue0 && meOk tract a then some (a, false) else if !rd.ue1 && meOk tract b then some (b, true) else none

/-- The last checks of a walk (R438): the entry is placed, names the partition, and stands in a data area of the pool. -/
def State.walkOk (s : State) (e : Quad) (p : Nat) : Bool :=
  let q := s.mp (mePort e)
  meState e != 0 && meState e != 7 && mePart e == p && q.present && meTract e < q.dataTracts

/-- The walk of an entry's tract ends with an entry of the map: the result goes back to the slice. -/
def State.walkGot (s : State) (n e tract : Nat) (q : Quad) : State :=
  match s.ent n e with
  | none => s
  | some x =>
    if !s.walkOk q x.req.part then s.failWalk n e true
    else if meState q = 5 then s.failFrozen n e
    else ((s.cachePut tract).onEnt n e fun x => { x with place := some (mePort q, meTract q, meGen q) }).packet .placement (.slice n) 0x47
      { tag := e, part := x.req.part, line := x.req.line, aux := q.toNat, engine := some 0 }

/-- TRACT_WALK (R438, R440): the frozen list first, then the map cache, then the two copies of the map line. -/
def execTractWalk (t : Ns) (n : SliceId) (e : Nat) (rd : MapRead) (s : State) : Host.Outcome State Fault Refusal :=
  let s := s.tick t
  let n := n.val
  .next (match s.ent n e with
    | none => s
    | some x =>
      let tr := tractOf x.req.line
      if !x.walking || x.place.isSome || x.fail.isSome then s
      else
        let s := s.bumpPlc 0 0 32
        if s.place.frozen.any fun f => f.tract == tr then s.failFrozen n e
        else if s.cacheHit tr then (s.bumpPlc 0 32 32).walkGot n e tr (readEntry s.place.map tr 0)
        else
          let s := s.bumpPlc 1 0 32
          match s.walkRead tr rd with
          | none => (if s.rooted tr then s.bumpPlc 1 32 16 else s).failWalk n e false
          | some (q, second) =>
            let s := if second then (s.bumpPlc 1 32 16).onPlace fun p => { p with map := Tbl.set p.map tr q } else s
            s.walkGot n e tr q)

/-- The tract buffer takes a walk's result in place of its least recently used entry (R437). -/
def State.bufPut (s : State) (n tract : Nat) (e : Quad) : State :=
  s.onBanks n fun b => { b with tbuf := ((tract, e) :: b.tbuf.filter fun v => v.1 != tract).take 256 }

/-- WALK_RESPONSE (R437): the result fills the tract buffer and the request's media read goes. -/
def execWalkResponse (t : Ns) (n : SliceId) (e : Nat) (s : State) : Host.Outcome State Fault Refusal :=
  let s := s.tick t
  let n := n.val
  .next (match s.ent n e with
    | none => s
    | some x =>
      let tr := tractOf x.req.line
      match x.walking, x.place with
      | true, some p =>
        if s.isFrozen tr then (s.putEnt n e { x with place := none }).failFrozen n e
        else
          match s.mapEntry tr with
          | some q => (s.bufPut n tr q).issueRead n e p
          | none => (s.putEnt n e { x with place := none }).failWalk n e true
      | _, _ => s)

/-- TRACT_FREEZE (R440). -/
def execTractFreeze (t : Ns) (tract : BitVec 32) (s : State) : Host.Outcome State Fault Refusal :=
  let s := s.tick t
  .next (s.freeze tract.toNat (tract.toNat * 1024) ((s.mapEntry tract.toNat).any fun e => meOk tract.toNat e))

/-- The hold of a frozen tract's writes ends (R441): sent on when it is thawed, else answered as failed. -/
def State.endFrozen (s : State) (tract : Nat) : State :=
  let held := (s.intakes.map fun x => (x.2.kept.filter fun k =>
    match k.st with
    | .frozen _ => tractOf k.req.line == tract
    | _ => false).map fun k => (x.1, k)).flatten
  let ents := (s.slices.map fun x => (x.2.front.ents.filter fun y =>
    y.2.kind == .host && tractOf y.2.req.line == tract && y.2.st == .fetch && formWrite y.2.req.form && y.2.place.isNone && y.2.fail.isNone
      && (y.2.walking || !y.2.grnDone)).map fun y => (x.1, y.1)).flatten
  if s.isFrozen tract then
    let s := State.each (fun x s => s.failKept x.1 x.2) held s
    State.each (fun x s => s.failFrozen x.1 x.2) ents s
  else State.each (fun x s => s.launch x.1 x.2.req.tag) held s

/-- R442: the entry obtained is written to both copies, with the STATE that thawing gives. -/
def State.thaw (s : State) (tract : Nat) (e : Quad) : State :=
  let st := if meState e = 6 then 6 else restState (mePlates e)
  ((s.unlist tract).putMap tract (meWith tract e st)).bumpPlc 1 56 8

/-- THAW_ATTEMPT (R442): once, within 1 ms of the freeze, and in a solo block after 100 µs. `got` is the entry obtained and `lineOk`
says that the fresh read of the line passes its checks. -/
def execThawAttempt (t : Ns) (tract : BitVec 32) (got : Option Quad) (lineOk : Bool) (s : State) : Host.Outcome State Fault Refusal :=
  let s := s.tick t
  let tr := tract.toNat
  .next (match s.place.frozen.find? fun f => f.tract == tr && !f.tried with
    | none => s
    | some f =>
      if f.since + 1000000 < s.now || (s.twin.st != .paired && s.now < f.since + 100000) then s
      else
        let s := s.onPlace fun q => { q with frozen := q.frozen.map fun g => if g.tract = tr then { g with tried := true } else g }
        match got with
        | some e => if meOk tr e && s.partOf (tr * 1024) == some (mePart e) && lineOk then (s.thaw tr e).endFrozen tr else s.endFrozen tr
        | none => s.endFrozen tr)

/-- FROZEN_WRITE_HOLD_EXPIRY (R441): 1 ms after the freeze. -/
def execFrozenWriteHoldExpiry (t : Ns) (tract : BitVec 32) (s : State) : Host.Outcome State Fault Refusal :=
  let s := s.tick t
  let tr := tract.toNat
  .next (match s.place.frozen.find? fun f => f.tract == tr && !f.tried with
    | none => s
    | some f =>
      if s.now < f.since + 1000000 then s
      else (s.onPlace fun q => { q with frozen := q.frozen.map fun g => if g.tract = tr then { g with tried := true } else g }).endFrozen tr)

/-! ### Retirement on command (R471, R654) -/

/-- A USED media tract that a move holds and on which no tract stands yet, or stands any more, is to be RETIRED (R471, R472). -/
def State.retireSpare (s : State) (m mt : Nat) : State :=
  s.onPlace fun q => { q with moves := q.moves.map fun v =>
    if v.new = (m, mt) then { v with newBad := true } else if v.old = (m, mt) then { v with why := .retire } else v }

/-- Retire one media tract (R471); the flag says that a tract became RETIRED in the map, or does at the end of its move. A FROZEN tract leaves the frozen
state with it (R442; log 59). -/
def State.retireOne (s : State) (m mt : Nat) : Bool × State :=
  match s.ledger m mt with
  | 0 => (false, s.setLedger m mt 3)
  | 1 =>
    match s.holderOf m mt with
    | some tr =>
      let s' := if (s.mapEntry tr).any fun e => meState e == 5 then ((s.unlist tr).setTractState tr 6).endFrozen tr else s.retireTract tr
      (true, s')
    | none => (false, s.retireSpare m mt)
  | 2 => (false, s.relocate m mt)
  | _ => (false, s)

/-- Retire a run of media tracts; answers how many tracts became RETIRED in the map. -/
def State.retireRun (m : Nat) : Nat → Nat → Nat → State → Nat × State
  | 0, _, n, s => (n, s)
  | k + 1, mt, n, s =>
    let r := s.retireOne m mt
    State.retireRun m k (mt + 1) (if r.1 then n + 1 else n) r.2

/-- RETIRE_RANGE (R471, R654). -/
def execRetireRange (t : Ns) (c : Mbx) (s : State) : Host.Outcome State Fault Refusal :=
  .next ((s.tick t).command c 0xC190 { mgmt 12 with rsv := [3] } fun s =>
    let m := mbByte c 1
    let q := s.mp m
    let lo := mbLe c 4 4
    let n := mbLe c 8 4
    if mbByte c 0 ≠ 0 then (.detail 4 0, s)
    else if 31 < m ∨ !q.present then (.detail 4 1, s)
    else if q.dataTracts + q.deviceTracts < lo + n then (.detail 4 4, s)
    else
      let r := State.retireRun m n lo 0 s
      (.done 0 (leBytes 4 r.1), r.2))

end Sys2Proof.Machine
end

