-- ==== Sys2Proof/Machine/Fence.lean ====
section
/-! DEFINITION. The fence of a slice or stook and the takeover by the buddy (R174 to R184, R217, R221, R509), and the commands of a planned
handover (R185 to R188). -/

namespace Sys2Proof.Machine

/-! ### What the windows read as since a fence (R676, R709) -/

/-- ENABLE, PREPARE and PREPARED of NCH_SLC_CTL (R709): PREPARED while a handover is under way (R185). -/
def State.slcBits (s : State) (n : Nat) : Nat :=
  let c := s.slc n
  s.sinceFence n 6 (b2n c.enable + 2 * b2n c.prepare + 4 * b2n (c.phase != .run && s.prepared n n))

/-- NCH_SLC_CTL of slice `n` (R709, R676). -/
def State.slcCtl (s : State) (n : Nat) : Nat := s.slcBits n + 8 * (s.slc n).phase.code

/-- The slice's registers as a fence keeps them (R676). -/
def State.seen (s : State) (n : Nat) : List Nat :=
  [s.trkStatus n, s.shfStatus n, s.shfGen n, s.grnStatus n, s.grnWays n, s.slcIgn n, s.slcBits n]

/-- The stook's registers as a fence keeps them (R676). -/
def State.stkSeen (s : State) (k : Nat) : List Nat := [s.stkStatus k, s.stkCe k, s.stkIgn k]

/-! ### The fence (R174 steps 1 to 3, R178, R180) -/

/-- Commands of a fenced slice at a media port: its reads have no taker; its writes stand, and only that (R174, R253). -/
def MPort.orphan (n : Nat) (q : MPort) : MPort :=
  { q with ops := (q.ops.filter fun o => o.slice != n || o.write).map fun o => if o.slice = n then { o with purp := .second false } else o }

/-- An intake port at a fence of slice `n`: it stops sending, retires the BITags that the slice's snoops use, and discards the responses
that wait (R174 steps 1 to 3); the replay covers what it has sent and what it still holds for the slice (R188). -/
def Intake.fence (n : Nat) (q : Intake) : Intake :=
  let mine := q.snoops.filter fun y => y.2.slice == n
  { q with
    kept := q.kept.map fun k =>
      if k.slice = n ∧ k.st = .sent then { k with st := .fenced, drs := none, ndr := none, ready := false }
      else if sliceOf k.req.line = n ∧ k.st = .unsent then { k with st := .fenced, slice := n, left := none }
      else k,
    retired := q.retired ++ (mine.filter fun y => y.2.left.isSome).map Prod.fst,
    snoops := q.snoops.filter fun y => y.2.slice != n,
    used := Tbl.set q.used n 0,
    stopped := insertNat n q.stopped }

/-- The moving records of a fenced slice as the buddy takes them (R178): the copies of a move in COPY start anew, which forgets the reservation losses
of its lines (DESIGN CHOICE: R378 does not say that they count on; log 59); a move that has copied its lines keeps them; commit marks precede the
replay lists. -/
def MovRec.retaken (copying : Bool) (r : MovRec) : MovRec := { r with mask := if copying && !r.committed then 0 else r.mask, losses := [], marks := List.range 16 }

/-- The tract's lines are being copied (R459). -/
def State.copying (s : State) (tract : Nat) : Bool := s.place.moves.any fun v => v.tract == tract && v.phase == .copy

/-- R508: local port `q` of a stook's router is a sink. -/
def State.sinkOn (s : State) (k q : Nat) : State :=
  s.onRch fun r => { r with sink := Tbl.set r.sink (stookSite k) (Tbl.get 0 r.sink (stookSite k) ||| 2 ^ q) }

/-- The steps of a takeover go out from the stook controller of the buddy to the intake ports and the buddy (R174, R495). -/
def State.fencePackets (s : State) (n : Nat) : State :=
  let k := NetUnit.stook (stookOf (buddy n))
  State.each (fun i s => s.packet k (.intake i) 0x71 { tag := n }) (List.range 16) (s.packet k (.slice (buddy n)) 0x71 { tag := n })

/-- What of a slice's work goes back to its engines at its fence (R178): patrol resumes at the first line that was not reported, and no copy of a
move counts as done. -/
def State.abandonInt (s : State) (n : Nat) : State :=
  let l := ((s.slc n).front.ents.filter fun x => x.2.kind == .scrub).map fun x => x.2.req.line
  let s := State.each (fun l s => s.scrubBack l) l s
  s.onPlace fun q => { q with moves := q.moves.map fun v => if v.phase = .copy then { v with copied := v.copied.filter (· != n) } else v }

/-- R188: a slice in PREPARE or QUIESCE whose buddy is fenced serves again, for a slice that covers its fenced buddy cannot be handed over (DESIGN
CHOICE: the spec does not say what becomes of its phase; log 59). -/
def State.endHandover (s : State) (b : Nat) : State :=
  if (s.slc b).phase = .prepare ∨ (s.slc b).phase = .quiesce then
    (s.onSlc b fun c => { c with phase := .run, prepare := false, enable := true }).stopFor b false
  else s

/-- Slice `n` is fenced and its buddy begins the takeover (R174, R178, R221); the buddy holds back messages as the slice did (R293), and credits
that only the slice withheld return (R148). The stook controller that coordinates the takeover wakes for it (R47, R49). -/
def State.fenceSlice (s : State) (n : Nat) : State :=
  let b := buddy n
  if s.fencedSlice n then s
  else
    let old := s.slc n
    let kept := s.seen n
    let s := (((s.endHandover b).abandonInt n).stookWork (s.duty (stookOf b))).fencePackets n
    let s := { s with mports := Tbl.mapv (MPort.orphan n) s.mports, credits := s.credits.filter fun c => match c with
      | .stream _ k => k.val != n
      | .snoop _ k => k.val != n
      | .media _ k => k.val != n
      | _ => true }
    let s := State.each (fun i s => (s.onIp i (Intake.fence n)).ackStep i) (List.range 16) s
    let s := ((s.advanceDg n b).sinkOn (stookOf n) (n % 8)).onBars (Barrier.refence n)
    let s := s.onSlc n fun c =>
      { c with phase := .fenced, prepare := false, cover := none, fallow := false, seen := kept, front := Front.init,
               banks := { Banks.init n with ctl := c.banks.ctl, restored := c.banks.restored, fltOff := c.banks.fltOff, grnOff := c.banks.grnOff } }
    let c : Cover := { dgDone := false, asked := false, recalled := s.twin.st != .paired, markers := [], replay := [], lines := [], serving := false,
                       sealed := old.sealed, since := s.now }
    let s := State.each (fun h s => s.payCredits h) (old.front.parked.filterMap fun r => r.host) s
    let s := s.onFront b fun f => { f with lastAccept := old.front.lastAccept.foldl (fun t x => Tbl.set t x.1 (max (Tbl.get 0 t x.1) x.2)) f.lastAccept }
    (s.rouse b).onSlc b fun x => { x with cover := some c, banks := { x.banks with moves := x.banks.moves ++ old.banks.moves.map fun r => r.retaken (s.copying r.tract) } }

/-- R180: a whole stook is fenced: its eight slices, and its controller's log, lanes, heat table, sketch and cold list go to the neighbour. The
neighbour's own entries come first, its own entry keeps a heat place that both fill, of two markers the higher stands, and 32 log and 256 cold
entries stay (DESIGN CHOICE: the spec does not say how they merge; log 56). -/
def State.fenceStook (s : State) (k : Nat) : State :=
  let old := s.stk k
  let kept := s.stkSeen k
  let s := (s.sinkOn k 8).onStk k fun q => { q with fenced := true, seen := kept, ceLog := [], lanes := [], cols := [], heat := [], got := [], marks := [], cold := [] }
  let s := (s.stookWork (k ^^^ 1)).onStk (k ^^^ 1) fun q =>
    { q with ceLog := (q.ceLog ++ old.ceLog).take 32, ceLost := min 32767 (q.ceLost + (q.ceLog.length + old.ceLog.length - 32)),
             lanes := (q.lanes ++ old.lanes).take 16, cols := q.cols ++ old.cols, got := q.got ++ old.got,
             marks := (List.range (max q.marks.length old.marks.length)).map fun j => max (q.marks.getD j 0) (old.marks.getD j 0),
             heat := old.heat.foldl (fun t x => if (Tbl.find t x.1).isSome then t else Tbl.set t x.1 x.2) q.heat, cold := (q.cold ++ old.cold).take 256 }
  State.each (fun i s => s.fenceSlice (8 * k + i)) (List.range 8) s

/-! ### The takeover (R174 steps 4 to 7, R175, R176) -/

/-- A twin-bound packet of the slice is missing (R509). -/
def State.twinGap (s : State) (n : Nat) : Bool :=
  s.resends.any fun r => match r with
    | .twinSlice k _ => k.val == n
    | _ => false

/-- The takeover of slice `n`, changed. -/
def State.onCover (s : State) (n : Nat) (f : Cover → Cover) : State := s.onSlc (buddy n) fun c => { c with cover := c.cover.map f }

/-- The takeover of fenced slice `n`. -/
def State.coverOf (s : State) (n : Nat) : Option Cover := if s.fencedSlice n then (s.slc (buddy n)).cover else none

/-- The recall goes to the twin once the advance is persisted and no packet of the slice is missing (R174, R221, R509). -/
def State.askRecall (s : State) (n : Nat) : State :=
  match s.coverOf n with
  | some c =>
    if c.dgDone && !c.asked && !c.recalled && !s.twinGap n then (s.toTwin (.recall n)).onCover n fun c => { c with asked := true } else s
  | none => s

/-- DG_ADVANCE_PERSISTED (R219, R221): the advance is in the generation record, and acknowledged by a present twin; the directory writes that waited for
it are made, and a takeover goes on. -/
def execDgAdvancePersisted (t : Ns) (n : SliceId) (s : State) : Host.Outcome State Fault Refusal :=
  let s := s.tick t
  let n := n.val
  .next (if !s.dirGen.adv.contains n then s
  else
    let s := { s with dirGen := { s.dirGen with saved := Tbl.set s.dirGen.saved n (s.dg n), adv := s.dirGen.adv.filter (· != n) } }.dirRelease n
    ((s.onCover n fun c => { c with dgDone := true }).askRecall n).refreshTick)

/-- RECALL_RETURN (R174 step 4, R217): the recalled lines are placed dirty with the doubt marker. -/
def execRecallReturn (t : Ns) (n : SliceId) (lines : List RecallLine) (s : State) : Host.Outcome State Fault Refusal :=
  let s := (s.tick t).frame
  let n := n.val
  .next (match s.coverOf n with
    | none => s
    | some c =>
      if c.recalled || !c.asked then s
      else
        let s := State.each (fun (l : RecallLine) s =>
          let s := s.twinIn (.slice (buddy n)) 0x62
            { prio := s.prio l.part.val, part := l.part.val, line := l.line.toNat, tgen := some l.tgen.toNat, pois := l.pois, aux := l.seq.toNat, data := lineUnits l.data }
          let i := mkMeta 3 0x3FF (s.dg n) l.part.val l.pois l.tgen.toNat
          let s := s.onCover n fun c => { c with lines := Tbl.set c.lines l.line.toNat l.seq.toNat }
          s.placeDirty (buddy n) l.part.val ⟨l.line.toNat, l.data, i, some l.seq.toNat, false⟩) lines s
        s.onCover n fun c => { c with recalled := true })

/-- RECALL_GAP_TIMEOUT (R509): the missing packet is given up and the recall handed over. -/
def execRecallGapTimeout (t : Ns) (n : SliceId) (s : State) : Host.Outcome State Fault Refusal :=
  let s := s.tick t
  .next (match s.coverOf n.val with
    | none => s
    | some c =>
      if c.since + 50000 ≤ s.now then
        { s with resends := s.resends.filter fun r => match r with
            | .twinSlice k _ => k.val != n.val
            | _ => true }.askRecall n.val
      else s)

/-- A kept request's place in the replay list of slice `n` (R174 step 6): by stream number, and behind those, in order of arrival, the ones that were
never sent. -/
def Intake.replayKey (p : Intake) (n : Nat) (k : Kept) : Nat := if k.left.isSome then (k.req.num + 4096 - Tbl.get 0 p.num n) % 4096 else 4096

/-- REPLAY_LIST (R174 step 6): an intake port's unanswered requests of the fenced slice, in stream-number order, and its end-of-replay marker. -/
def execReplayList (t : Ns) (port : IntakeId) (n : SliceId) (s : State) : Host.Outcome State Fault Refusal :=
  let s := s.tick t
  let i := port.val
  let n := n.val
  .next (match s.coverOf n with
    | none => s
    | some c =>
      if c.markers.contains i then s
      else
        let p := s.ip i
        let l := (sortBy (p.replayKey n) (p.kept.filter fun k => k.st == .fenced && k.slice == n)).map fun k => k.req
        let s := s.onIp i fun q => { q with kept := q.kept.map fun k => if k.st = .fenced ∧ k.slice = n then { k with st := .sent, slice := buddy n, left := some s.now } else k }
        let s := State.each (fun (r : Req) s => s.sendReq i (buddy n) r) l s
        (s.bump (0x09C800 + 64 * i + 48) 32 32 l.length).onCover n fun c => { c with markers := insertNat i c.markers, replay := c.replay ++ l })

/-- Replayed writes with an acknowledged notice in settle-sequence order (R175, R177). -/
def insertNoted (r : Req) : List Req → List Req
  | [] => [r]
  | q :: l => if later32 (q.noted.getD 0) (r.noted.getD 0) then r :: q :: l else q :: insertNoted r l

/-- R176: a replayed write that the recalled line already holds: no new settle; it waits for its level alone, and a ticket or mailbox line write is
answered at once, since it has settled (R173, R368, R713). The recalled line is in its Granary entry, or on its way there, or has left it for media, or
has gone to media past the Granary, so that it reaches its level with its media write alone (R344); where its slice writes through, it is written with
the write. Every write of the line that the slice has handed over holds it. -/
def State.alreadyHeld (s : State) (b : Nat) (r : Req) (q : Nat) : State :=
  let k := (s.slc b).banks
  let g := (k.grnFind r.line).bind fun i => Tbl.find k.grn i
  let due := k.dirtyDue r.line
  let out := (s.mports.map fun p => p.2.ops.filter fun o => o.slice == b && o.line == r.line && o.write).flatten
  let w : Pend :=
    { seq := 2 ^ 32 + q, line := r.line, part := r.part, host := r.host, tags := [(r.intake, r.tag)], entry := none, accept := s.sliceTime b, epoch := r.epoch.getD s.mer.cur,
      notes := [], placed := true, settled := !due || g.isSome, twinAck := true, accepted := out.any fun o => o.accepted,
      media := match g with
        | some x => !x.dirty
        | none => !due && out.isEmpty,
      bypass := g.isNone && !due && out.any fun o => o.purp == .drain, twin := s.twinLevel, arrived := r.arrived, replay := true, after' := 0, mb := none, ack := none }
  let s := s.onFront b fun f => { f with pends := f.pends ++ [w] }
  let s := { s with mports := Tbl.mapv (fun (p : MPort) =>
    { p with ops := p.ops.map fun o => if o.slice = b ∧ o.line = r.line ∧ o.write then { o with holds := o.holds ++ [2 ^ 32 + q] } else o }) s.mports }
  let s := if r.host.isNone then s.settledOwn b w else s
  if g.isSome && s.writesThrough b then s.drainSet b (· == r.line) else s

/-- One replayed write with an acknowledged notice is served (R175, R176); of a stopped partition it is answered as failed (R483). -/
def State.replayOne (s : State) (b : Nat) (c : Cover) (r : Req) : State :=
  if (s.part r.part).st = .stopped then s.failReq r
  else
  match r.noted, Tbl.find c.lines r.line with
  | some q, some l => if later32 q l then s.admitPlain b r else s.alreadyHeld b r q
  | _, _ => s.admitPlain b r

/-- Any other replayed request goes to the buddy's arbiter in its port's stream, ahead of every new one (R175). -/
def State.restream (s : State) (b : Nat) (r : Req) : State :=
  if (s.part r.part).st = .stopped then s.failReq r
  else
    let i := r.intake
    let num := Tbl.get 0 (s.ip i).num b
    let r' := { r with num := num }
    (s.onIp i fun p =>
      { p.onKept r.tag (fun k => { k with req := r' }) with num := Tbl.set p.num b ((num + 1) % 4096), used := Tbl.set p.used b (Tbl.get 0 p.used b + 1) }).onFront b
        fun f => { f with streams := Tbl.set f.streams i (Tbl.get [] f.streams i ++ [r']) }

/-- END_OF_REPLAY (R174 step 7, R175): with all 16 markers held, the replayed writes with acknowledged notices are served in settle order, the others
stand at the arbiter in their streams, and the new ones follow. -/
def execEndOfReplay (t : Ns) (n : SliceId) (s : State) : Host.Outcome State Fault Refusal :=
  let s := s.tick t
  let n := n.val
  let b := buddy n
  .next (match s.coverOf n with
    | none => s
    | some c =>
      if c.serving || !c.dgDone || !c.recalled || c.markers.length < 16 then s
      else
        let noted := (c.replay.filter fun r => r.noted.isSome).foldl (fun l r => insertNoted r l) []
        let rest := c.replay.filter fun r => r.noted.isNone
        let s := s.onCover n fun c => { c with serving := true }
        let s := State.each (fun (r : Req) s => s.replayOne b c r) noted s
        let s := State.each (fun (r : Req) s => s.restream b r) rest s
        let s := if c.replay.isEmpty then s.onSlc b fun x => { x with cover := none } else s
        ((s.stopFor n false).completeAll b).pumpCopies b)

/-- R174 step 4: the twin is lost while a recall is outstanding. -/
def State.recallsFail (s : State) : State :=
  State.each (fun n s =>
    match s.coverOf n with
    | some c => if c.recalled then s else s.raise (srcStk (stookOf (buddy n)) 6) (256 + 174) 0 0 n
    | none => s) (List.range 128) s

/-! ### Planned handover (R185 to R188, R697, R709) -/

/-- SLICE_PREPARE (R185, R188): ignored and counted while the buddy is in handover or fenced. -/
def execSlicePrepare (t : Ns) (n : SliceId) (s : State) : Host.Outcome State Fault Refusal :=
  let s := s.tick t
  let n := n.val
  .next (if (s.slc (buddy n)).phase ≠ Phase.run then s.ignSlc n (0x200000 + 0x4000 * n)
  else if (s.slc n).phase = Phase.run then ((((s.rouse n).onSlc n fun c => { c with prepare := true, phase := .prepare }).endWaits n).spillFreed n).handStep n
  else s)

/-- PREPARE is cleared (R185): a slice that has not been disabled serves as before. -/
def State.unprepare (s : State) (n : Nat) : State :=
  s.onSlc n fun c => { c with prepare := false, phase := if c.phase = .prepare then .run else c.phase }

/-- ENABLE of a slice cleared at an instant: QUIESCE begins (R185, R186); not while its buddy is fenced or in handover (R188). -/
def State.sliceOff (s : State) (n : Nat) : State :=
  let c := s.slc n
  if (s.slc (buddy n)).phase ≠ Phase.run then s.ignSlc n (0x200000 + 0x4000 * n)
  else if c.enable && (c.phase == .run || c.phase == .prepare) then
    (((s.rouse n).onSlc n fun c => { c with enable := false, phase := .quiesce, handAt := s.now, handOver := false }).stopFor n true).endWaits n |>.spillFreed n |>.handStep n
  else s

/-- ENABLE of a slice set at an instant: RETURN begins (R185). -/
def State.sliceOn (s : State) (n : Nat) : State :=
  match (s.slc n).phase with
  | .covered => (((s.rouse (buddy n)).onSlc n fun c => { c with enable := true, phase := .returning, handAt := s.now }).stopFor n true).endWaits (buddy n) |>.spillFreed (buddy n) |>.handStep n
  | .run => s.onSlc n fun c => { c with enable := true }
  | _ => s

/-- HANDOVER_OVERRUN (R187): HANDED_OVER not set 1 ms after the instant. -/
def execHandoverOverrun (t : Ns) (n : SliceId) (s : State) : Host.Outcome State Fault Refusal :=
  let s := s.tick t
  let c := s.slc n.val
  .next (if c.phase = Phase.quiesce ∧ !c.handOver ∧ c.handAt + 1000000 ≤ s.now then
    (s.onSlc n.val fun c => { c with handOver := true }).raise (srcSlc n.val 5) (256 + 187) 0 0 n.val
  else s)

/-- One entry of an ENABLE instant's run (R63, R644, R697): the flag says that a stopped partition was left as it is. -/
def State.enableOne (s : State) (w : Nat) : Bool × State :=
  let v := bitN w 1
  let u := fieldN w 4 7
  match fieldN w 2 2 with
  | 0 =>
    if 63 < u then (false, s.bump 0x0A0A88 0 16 1)
    else
      match (s.part u).st, v with
      | .stopped, _ => (true, s)
      | .disabled, true | .draining, true => (false, s.setEnable u)
      | .enabled, false => (false, s.clearEnable u)
      | _, _ => (false, s)
  | 1 => (false, if v then s.sliceOn u else s.sliceOff u)
  | _ => (false, s.bump 0x0A0A88 0 16 1)

/-- The run of pending-enable entries from entry `k` on (R697). -/
def State.enableRun : Nat → Nat → Bool → State → Bool × State
  | 0, _, b, s => (b, s)
  | fuel + 1, k, b, s =>
    let w := Tbl.get 0 s.blk.pend k
    let r := if bitN w 0 then s.enableOne w else (false, s)
    let s := r.2.onBlk fun q => { q with pend := Tbl.set q.pend k (w - w % 2) }
    if bitN w 11 || 63 ≤ k then (b || r.1, s) else State.enableRun fuel (k + 1) (b || r.1) s

/-- ENABLE_INSTANT (R63, R185, R644, R697). -/
def execEnableInstant (t : Ns) (k : SlotId) (s : State) : Host.Outcome State Fault Refusal :=
  let s := (s.tick t).toInstant
  .next (match s.due k.val 6 with
    | some x =>
      let r := State.enableRun 64 (x.param % 64) false s
      if r.1 then r.2.endSlot k.val .abandoned 0 else r.2.slotDone k.val
    | none => s)

end Sys2Proof.Machine
end

