-- ==== Sys2Proof/Machine/Instant.lean ====
section
/-! DEFINITION. What happens at Meridian times (spec chapter 7): holdover (R286, R292), domain notices (R291, R299, R300), epoch boundaries
(R306), seals (R312 to R314), and the instants that no other file carries out: plates (R315), RACHIS_MODE (R505, R698), TRACT_COMMIT
(R465, R473), ROLE_MOVE (R417), CAPACITY (R468, R469) and PAIR (R415). -/

namespace Sys2Proof.Machine

/-! ### Domain-scope operations (R292) -/

/-- Domain-scope operations are refused from now on: outstanding DOMAIN barriers go on as TWIN barriers (R370). -/
def State.refuseDomain (s : State) : State := (s.onMer fun m => { m with domOk := false }).onBars Barrier.undomain

/-- A domain plate that the blocks of the domain have not all confirmed 1 ms after its instant (R300, log 57). -/
def State.unconfirmedPlates (s : State) : List (Nat × Nat) :=
  (s.mer.rootSlots.filter fun x => x.2.slot.kind == 2 && x.2.slot.time + 1000000 ≤ s.now && !(s.domBlocks.all fun b => x.2.done.contains b)).map
    fun x => (x.1, x.2.slot.param)

/-- The parts of a domain plate that this pair holds are released (R300). -/
def State.withdraw (s : State) (param : Nat) : State := State.each (fun p s => s.plateWithdraw p (param / 64 % 8)) (s.plateParts param) s

/-- The domain root sends a notice down, which reaches the root too (R291, R292, R300): S_dom is twice the largest ε, DOMAIN_OK is clear while a
block is UNLOCKED or FREE, and plates that are not confirmed are withdrawn. -/
def State.notice (s : State) : State :=
  let sdom := min 4095 (max 40 (2 * (s.mer.rootEps.map Prod.snd).foldl max s.eps))
  let ok := s.mer.domainAble && s.mer.rootBad.isEmpty
  let gone := s.unconfirmedPlates
  let s := s.send (.notice sdom ok s.mer.domSealed (gone.map Prod.snd) s.mer.anchored)
  let s := s.onMer fun m => { m with sdom := sdom, noticeAt := s.now, noticeLate := false, rootSlots := m.rootSlots.filter fun x => !(gone.any fun g => g.1 == x.1) }
  let s := if ok then s.onMer fun m => { m with domOk := true } else s.refuseDomain
  State.each (fun (g : Nat × Nat) s => s.withdraw g.2) gone s

/-- The block's seal goes up the tree with its ε, and whether it is neither UNLOCKED nor FREE (R291, R292, R313). -/
def State.reportUp (s : State) : State :=
  if !s.mer.member then s
  else if s.mer.root then s.notice
  else s.send (.rootSeal s.mer.pairSealed s.eps s.mer.domainAble)

/-- The block enters FREE (R286, R292): its event; domain-scope operations are refused here, and the domain learns of it. -/
def State.toFree (s : State) : State :=
  ((s.onMer fun m => { m with st := .free }).refuseDomain.raise (srcMer 3) (256 + 292) 0 0 0).reportUp

/-- HOLDOVER_EXPIRY (R286, R287, R292): one second without the reference and without a LOCKED twin. -/
def execHoldoverExpiry (t : Ns) (s : State) : Host.Outcome State Fault Refusal :=
  let s := s.tick t
  .next (if s.mer.st = .holdover ∧ 1000 ≤ s.holdMs then
    if s.mer.noRef = .twinSteered then s.onMer fun m => { m with st := .twinSteered } else s.toFree
  else s)

/-- A block that joins the domain adopts the root's anchor, number and length (R308). -/
def State.join (s : State) (x : DomNotice) : State :=
  match x.anchor with
  | some a => if s.mer.joined then s else (s.adopt a).onMer fun m => { m with joined := true }
  | none => s

/-- DOMAIN_NOTICE (R291, R292, R300, R308, R313): at a member, a notice from the root arrives, with S_dom, DOMAIN_OK, the domain-sealed epoch, the
plates withdrawn and the domain's anchor; at the root, its notice goes down. -/
def execDomainNotice (t : Ns) (x : DomNotice) (s : State) : Host.Outcome State Fault Refusal :=
  let s := s.tick t
  .next (if !s.mer.member then s
  else if s.mer.root then s.notice
  else
    let s := (s.join x).onMer fun m => { m with sdom := min 4095 (max 40 x.sdom), noticeAt := s.now, noticeLate := false, domSealed := max m.domSealed x.sealed }
    let s := if x.ok && s.mer.domainAble then s.onMer fun m => { m with domOk := true } else s.refuseDomain
    (State.each (fun (v : Fin 1024) s => s.withdraw v.val) x.withdraw s).exposePlates)

/-! ### The twin exchange (R287 to R289) -/

/-- The state that follows without the reference (R286, R287): HOLDOVER ends with FREE once the reference has been lost for 1 s. -/
def State.unsteered (s : State) : State :=
  if s.mer.st = .twinSteered then
    if 1000 ≤ s.holdMs then s.toFree else s.onMer fun m => { m with st := .holdover }
  else s

/-- The block's own message of the exchange: its departure, and the arrival of the twin's last one (R288). -/
def State.sendTime (s : State) : State :=
  (s.toTwin (.time s.now s.mer.exArr (s.mer.st == .locked) (s.mer.st == .free) s.eps)).onMer fun m => { m with exDep := s.now }

/-- The twin's message arrives (R288): the offset from the twin and the one-way delay follow from the four times of the exchange, of which half a ns
is dropped (DESIGN CHOICE, log 41). -/
def State.measure (s : State) (x : TimeExch) : State :=
  let there : Int := (s.now : Int) - x.dep.toNat
  let back : Int := (x.arr.toNat : Int) - s.mer.exDep
  s.onMer fun m =>
    { m with exArr := s.now, ofs := if m.exDep = 0 then m.ofs else (there - back) / 2, delay := if m.exDep = 0 then m.delay else ((there + back) / 2).toNat }

/-- A valid exchange (R287 to R289): the state that it allows; a TWIN_STEERED block, and side B while both are FREE, slews to the twin. -/
def State.exchange (s : State) (x : TimeExch) : State :=
  let s := (s.measure x).onMer fun m => { m with exch := true, exchBad := 0, twinLock := x.twinLock, twinFree := x.twinFree, twinEps := x.twinEps }
  let s :=
    match s.mer.st with
    | .holdover => s.onMer fun m => { m with st := m.noRef }
    | .twinSteered => if s.mer.noRef = .twinSteered then s else s.unsteered
    | .free => if s.mer.noRef = .twinSteered then s.onMer fun m => { m with st := .twinSteered } else s
    | _ => s
  if s.mer.st = .twinSteered ∨ (s.mer.st = .free ∧ s.mer.twinFree ∧ s.side = 1) then { s with clk := { s.clk with slew := -s.mer.ofs * 65536 } } else s

/-- An exchange period that is not valid; the sixteenth in a row ends the exchange (R289). -/
def State.exchangeBad (s : State) : State :=
  let s := s.onMer fun m => { m with exchBad := min 16 (m.exchBad + 1) }
  if s.mer.exchBad = 16 ∧ s.mer.exch then
    (s.onMer fun m => { m with exch := false }).unsteered.raise (srcTwn 5) (256 + 289) 0 0 0
  else s

/-- TWIN_TIME_EXCHANGE (R288, R380, R399), while TWIN_LINK_UP is asserted; a valid one is a heartbeat. -/
def execTwinTimeExchange (t : Ns) (x : TimeExch) (s : State) : Host.Outcome State Fault Refusal :=
  let s := s.tick t
  .next (if !s.twin.linkUp ∨ s.twin.st = .unpaired then s else (if x.valid then s.frame.exchange x else s.exchangeBad).sendTime)

/-- TWIN_EXCHANGE_INVALID (R289). -/
def execTwinExchangeInvalid (t : Ns) (s : State) : Host.Outcome State Fault Refusal :=
  let s := (s.tick t).exchangeBad
  .next (if s.twin.linkUp ∧ s.twin.st ≠ .unpaired then s.sendTime else s)

/-! ### Epochs and seals (R306, R312, R313) -/

/-- EPOCH_BOUNDARY (R303, R306, R307, R312): the boundaries reached; a slice whose writes all stand at their level seals what has ended. -/
def execEpochBoundary (t : Ns) (s : State) : Host.Outcome State Fault Refusal :=
  let s := (s.tick t).toInstant
  .next (State.each (fun n s => s.sealSlice n) s.slices.keys s)

/-- The barrier of an id: at an intake port, or of a mailbox (log 11). -/
def State.onBar (s : State) (id : Nat) (f : Barrier → Barrier) : State :=
  if id % 32 < 16 then s.onIp (id % 32) fun q => { q with bars := q.bars.map fun b => if b.id = id then f b else b }
  else { s with adminBars := Tbl.mapv (fun (b : Barrier) => if b.id = id then f b else b) s.adminBars }

/-- The barrier of an id. -/
def State.bar? (s : State) (id : Nat) : Option Barrier :=
  if id % 32 < 16 then (s.ip (id % 32)).bars.find? fun b => b.id == id else (s.adminBars.find? fun x => x.2.id == id).map Prod.snd

/-- A slice confirms a seal or its part of a barrier to its stook controller, which has work (R363, R326, R47). -/
def State.confirmUp (s : State) (n : Nat) : State :=
  (s.packet (.slice n) (.stook (s.duty (stookOf n))) 0x72 { tag := n }).stookWork (s.duty (stookOf n))

/-- SEAL_CONFIRM (R312 to R314, R363): a slice seals; a stook's report moves the block-sealed and pair-sealed epochs; a slice or the twin
confirms its part of a barrier; a pair's seal reaches the domain root. -/
def execSealConfirm (t : Ns) (src : SealSrc) (s : State) : Host.Outcome State Fault Refusal :=
  let s := s.tick t
  .next (match src with
    | .slice n => (s.confirmUp n.val).sealSlice n.val
    | .stook k =>
      let s := s.packet (.stook (s.duty k.val)) .meridian 0x72 { tag := k.val }
      let s := s.onMer fun m => { m with stkSeals := Tbl.set m.stkSeals k.val (s.stookSeal k.val) }
      let s := (s.onMer fun m => { m with blkSealed := s.blockSeal }).pairSeal
      let s := if s.twin.st = .paired then s.toTwin (.blockSealed s.mer.blkSealed) else s
      s.reportUp
    | .barSlice n id =>
      match s.bar? id with
      | some b => if s.partServed n.val b then (s.confirmUp n.val).onBar id fun b => { b with slices := b.slices.filter (· != n.val) } else s
      | none => s
    | .barTwin id => s.frame.onBar id fun b => { b with twinOk := true }
    | .root b e eps able =>
      if s.mer.root then
        let s := s.onMer fun m =>
          { m with rootSeals := Tbl.set m.rootSeals (b.val / 2) (max e (Tbl.get 0 m.rootSeals (b.val / 2))), rootEps := Tbl.set m.rootEps b.val eps,
                   rootBad := if able then m.rootBad.filter (· != b.val) else insertNat b.val m.rootBad }
        s.domSeal.exposePlates.notice
      else s
    | .slotPair b key ok eps => if s.mer.root then s.rootConf b.val key.val ok eps else s
    | .slotDone b key eps => if s.mer.root then s.onMer fun m => m.rootDone key.val b.val eps else s)

/-- PAIR_SEAL_EXCHANGE (R313): the twin's block-sealed epoch arrives. -/
def execPairSealExchange (t : Ns) (twinSealed : Quad) (s : State) : Host.Outcome State Fault Refusal :=
  .next (((s.tick t).frame.onMer fun m => { m with twinSealed := max m.twinSealed twinSealed.toNat }).pairSeal)

/-! ### Instants -/

/-- PLATE_EXPOSE_INSTANT (R303, R315, R316, R322): the plates of the slot are PENDING from its boundary on. -/
def execPlateExposeInstant (t : Ns) (k : SlotId) (s : State) : Host.Outcome State Fault Refusal :=
  let s := (s.tick t).toInstant
  .next (match s.due k.val 2 with
    | some x => (s.pendPlates k.val x).exposePlates.slotDone k.val
    | none => s)

/-- RACHIS_MODE_INSTANT (R505, R607 step 10, R698): the mode; at start-up every slice that is not fenced is enabled, and writes through
where it must. -/
def execRachisModeInstant (t : Ns) (k : SlotId) (s : State) : Host.Outcome State Fault Refusal :=
  let s := (s.tick t).toInstant
  .next (match s.due k.val 4 with
    | some x =>
      let s := s.onRch fun r => { r with bonded := x.param % 2 == 1 }
      let s :=
        if s.pwr.step = 10 ∧ s.pwr.fail.isNone then
          (State.each (fun n s => if s.fencedSlice n then s else s.onSlc n fun c =>
            { c with enable := true, banks := { c.banks with wt := !s.pwr.energy || c.banks.ctl.wtForce } }) (List.range 128) s).onPwr fun p => { p with step := 11, st := .running }
        else s
      s.slotDone k.val
    | none => s)

/-- A pointer to a device record that was relocated names its new place (R473); a map tract has moved on both ports of its pair (R434). -/
def State.repoint (s : State) (v : (Nat × Nat) × (Nat × Nat)) : State :=
  let a := v.1.1 * 2 ^ 27 + v.1.2
  let b := v.2.1 * 2 ^ 27 + v.2.2
  let there := fun (r : Word) => (r.toNat % 32 == v.1.1 || (r.toNat % 32) ^^^ 1 == v.1.1) && r.toNat / 32 == v.1.2
  let s := s.onPlace fun q => { q with roots := Tbl.mapv (fun (r : Word) => if there r then BitVec.ofNat 32 (r.toNat % 32 + 32 * v.2.2) else r) q.roots }
  { s with parts := Tbl.mapv (fun (q : Part) =>
      { q with resUsed := q.resUsed.map fun r => if r = a then b else r,
               plates := Tbl.mapv (fun (x : Plate) => { x with dir := Tbl.mapv (fun r => if r = a then b else r) x.dir, passed := Tbl.mapv (fun r => if r = a then b else r) x.passed }) q.plates }) s.parts }

/-- The generation of a tract changes: every reservation of its lines ends (R376). -/
def State.endTractResv (s : State) (tr : Nat) : State :=
  s.allSlc fun c =>
    { c with front := { c.front with ents := c.front.ents.map fun x =>
        if x.2.kind != .host && tractOf x.2.req.line == tr && !x.2.hold then (x.1, { x.2 with resv := false }) else x } }

/-- A tract of a commit batch at its instant (R465): intake ports stamp g + 1 and send commit marks, slices replace their tract-buffer
entries, and the map names the new placement. -/
def State.commitTract (s : State) (v : Move) : State :=
  let tr := v.tract
  let s := (s.endTractResv tr).allIps fun q => { q with moving := if (Tbl.find q.moving tr).isSome then Tbl.set q.moving tr ((v.gen + 1) % 16) else q.moving }
  match s.mapEntry tr with
  | some e =>
    let q := mkEntry tr v.new.1 v.new.2 (v.gen + 1) (meState e) (mePlates e) (mePart e)
    let s := s.onPlace fun p => { p with map := Tbl.set p.map tr q, map2 := Tbl.set p.map2 tr q,
                                         moves := p.moves.map fun w => if w.tract = tr then { w with phase := .drain } else w }
    s.allBanks fun b =>
      { b with tbuf := b.tbuf.map (fun x => if x.1 = tr then (tr, q) else x),
               moves := b.moves.map fun r => if r.tract = tr then { r with committed := true, batch := v.batch } else r }
  | none => s

/-- Twin scope while PAIRED, else block scope (R458, R468). -/
def State.pairScope (s : State) : Nat := if s.twin.st = .paired then 1 else 0

/-- The engine arms an instant of its own at the scope's lead time (R296). Answers whether it stands. -/
def State.engineArm (s : State) (kind scope param : Nat) : Bool × State :=
  match s.anySlot with
  | none => (false, s)
  | some k =>
    let r := (s.onSlot k fun _ => ⟨kind, scope, false, .idle, 0, param, s.now + leadNs scope + 10000, .engine, none, none⟩).armSlot k (leadNs scope)
    (r.1.isNone, r.2)

/-- A slot of a kind that the engine armed still stands. -/
def State.engineBusy (s : State) (kind : Nat) : Bool := s.mer.slots.any fun x => x.2.arm && x.2.kind == kind && !x.2.ended && x.2.by' == .engine

/-- The open commit batch closes and its instant is armed, when it holds a copied tract or a pointer must change and no earlier batch waits
(R459, R465, R473); the twin learns which of its moves are in it (R458). -/
def State.armBatch (s : State) : State :=
  if s.engineBusy 5 || !(s.place.moves.any (fun v => v.own && v.phase == .copied) || !s.place.devMoves.isEmpty) then s
  else
    let b := s.place.batch
    let r := s.engineArm 5 s.pairScope (b % 65536)
    if r.1 then
      let mine := (s.place.moves.filter fun v => v.own && v.phase == .copied).map fun v => v.tract
      let s := r.2.onPlace fun q => { q with batch := b + 1, moves := q.moves.map fun v => if v.own ∧ v.phase = .copied then { v with batch := b % 65536, phase := .commit } else v }
      if s.twin.st = .paired then State.each (fun tr s => s.toTwin (.moveBatch tr (b % 65536))) mine s else s
    else r.2

/-- Every tract of a batch commits; the device areas that the batch moved are repointed (R465, R473). `own`: the batch is this block's, else the twin's
(R458). -/
def State.commitBatch (s : State) (n : Nat) (own : Bool) : State :=
  let s := State.each (fun v s => s.commitTract v) (s.place.moves.filter fun v => v.batch == n && v.own == own && v.phase == .commit) s
  if !own then s else (State.each (fun v s => s.repoint v) s.place.devMoves s).onPlace fun p => { p with devMoves := [] }

/-- TRACT_COMMIT_INSTANT (R465, R473): every tract of the batch. -/
def execTractCommitInstant (t : Ns) (k : SlotId) (s : State) : Host.Outcome State Fault Refusal :=
  let s := (s.tick t).toInstant
  .next (match s.due k.val 5 with
    | some x => (((s.commitBatch x.param (x.by' != .peer)).bumpPlc 7 0 24).slotDone k.val).armBatch
    | none => s)

/-- ROLE_MOVE_INSTANT (R417): DRAIN begins in both blocks. -/
def execRoleMoveInstant (t : Ns) (k : SlotId) (s : State) : Host.Outcome State Fault Refusal :=
  let s := (s.tick t).toInstant
  .next (match s.due k.val 7 with
    | some x =>
      let p := x.param % 64
      if s.twin.st ≠ .paired then s.endSlot k.val .abandoned 0
      else
        let old := bitN s.twin.roles.toNat p
        let s := s.onTwin fun w => { w with moves := Tbl.set w.moves p ⟨old, .drain, k.val, s.now, []⟩ }
        if old then s.roleStep p else s
    | none => s)

/-- CAPACITY_INSTANT (R429, R434, R468, R469, R650): a port, or a map pair, joins the pool with its data area FREE, or a drained port leaves it. -/
def execCapacityInstant (t : Ns) (k : SlotId) (s : State) : Host.Outcome State Fault Refusal :=
  let s := (s.tick t).toInstant
  .next (match s.due k.val 8 with
    | some x =>
      let m := x.param % 32
      let q := s.mp m
      let join := fun (m : Nat) (s : State) =>
        if (s.mp m).present || !(s.mp m).enable then s
        else s.onMp m fun q => { q with present := true, dataTracts := q.size - q.deviceTracts, ledger := [], writes := 0, traffic := 0, past := [], overRounds := 0 }
      let s :=
        if q.draining then
          let s := s.onMp m fun q => { q with present := false, draining := false, dataTracts := 0, ledger := [], writes := 0, traffic := 0, past := [], overRounds := 0 }
          match s.bgOf fun b => b == .capRemove m with
          | some mb => s.bgEnd mb 0 (zeros 8 ++ leBytes 8 x.time)
          | none => s
        else if q.mapPort then join (m ^^^ 1) (join m s)
        else join m s
      s.slotDone k.val
    | none => s)

/-- The moves of this block's engine that have not committed start in the twin as well (R458; DESIGN CHOICE, log 59), and wait for its
copies. -/
def State.sendMoves (s : State) : State :=
  let ms := s.place.moves.filter fun v => v.own && (v.phase == .start || v.phase == .copy || v.phase == .copied)
  (State.each (fun (v : Move) s => s.toTwin (.moveStart v.tract v.old v.new v.gen (v.why == .retire))) ms s).onPlace fun q =>
    { q with moves := q.moves.map fun v => if v.own ∧ v.phase = .copied then { v with phase := .copy } else v }

/-- R415: the target of a resynchronisation gets the source's generation record, its sealed epoch, its tract map, and its moves (R458). -/
def State.sendRecords (s : State) : State :=
  let s := State.each (fun n s => s.mirrorGen n) (List.range 128) s
  let s := s.toTwin (.blockSealed s.mer.blkSealed)
  (State.each (fun (x : Nat × Quad) s => if meState x.2 = 0 then s else s.toTwin (.mapRec x.1 x.2)) s.place.map s).sendMoves

/-- R346: a write that settles after the rise of the completion level waits for the twin. -/
def State.raiseLevel (s : State) : State :=
  s.allSlc fun c => { c with front := { c.front with pends := c.front.pends.map fun w => if w.settled then w else { w with twin := true } } }

/-- The pair is PAIRED (R415, R570): what a split and a resynchronisation have left is void. -/
def Twin.paired (w : Twin) : Twin :=
  { w with st := .paired, split := [], hasSplit := false, walk := [], acked := [], splitPages := [], splitRes := [], stale := false, tookOver := false,
           lostAt := none, tk := none, redel := none, abdParts := 0, toGet := 0, got := [], rePaired := false }

/-- The block becomes PAIRED (R415, R346); the source sends its records, and requests that wait for the twin go to it. -/
def State.becomePaired (s : State) : State :=
  let source := s.twin.st == .resyncSource
  let s := (((s.onTwin Twin.paired).allBanks fun b => { b with splitCache := [] }).putBack .twinPort).raiseLevel
  (if source then s.sendRecords else s).launchFwd

/-- PAIR_INSTANT (R415, R346, R570): the pair is PAIRED; the source sends its records; later writes take the twin-durable level. -/
def execPairInstant (t : Ns) (k : SlotId) (s : State) : Host.Outcome State Fault Refusal :=
  let s := (s.tick t).toInstant
  .next (match s.due k.val 9 with
    | some _ =>
      let s := if s.twin.st = .resyncSource ∨ s.twin.st = .resyncTarget then s.becomePaired else s
      s.slotDone k.val
    | none => s)

end Sys2Proof.Machine
end

