-- ==== Sys2Proof/Machine/Page.lean ====
section
/-! DEFINITION. The control pages of the partitions' CXL.io functions (R91 to R93, R702, R703): what a page reads as, and the accesses that are
refused and counted. -/

namespace Sys2Proof.Machine

/-- The plates bound to windows, as NCH_BLK_PART_WINBIND holds them (R699). -/
def Part.bindWord (q : Part) : Nat :=
  sumOf (fun w => match Tbl.find q.winBind w with
    | some j => 16 ^ w * (j % 8 + 8)
    | none => 0) (List.range 8)

/-- A control-page write is refused and counted (R92, R93, R366). -/
def State.refusePage (s : State) (p : Nat) : State := s.bump (0x0A0000 + 16 * p) 16 32 1

/-- LIVE and EXPOSED (R702). -/
def Part.plateBits (q : Part) : Nat :=
  sumOf (fun x => 2 ^ x.1) q.live + 2 ^ 8 * sumOf (fun x => 2 ^ x.1 * b2n (x.2.st == .exposed)) q.live

/-- A byte of EVENT_LOGS (R702). -/
def EvLog.byte (l : EvLog) : Nat := min 64 l.recs.length + 128 * b2n l.overflow

/-- EVENT_LOGS (R702). -/
def EvLogs.word (l : EvLogs) : Nat := l.info.byte + 2 ^ 8 * l.warn.byte + 2 ^ 16 * l.fail.byte + 2 ^ 24 * l.fatal.byte

/-- The 8 bytes at an aligned offset of partition `p`'s control page (R702); every field of a FREE partition reads zero. -/
def State.pageQuad (s : State) (p o : Nat) : Nat :=
  let q := s.part p
  let g := q.cfg
  let two := fun (a b : Nat) => a + 2 ^ 32 * b
  if q.st = .free then 0
  else if o = 0x000 then
    two (p + 2 ^ 8 * 7 + 2 ^ 16 * 0xB0) (q.st.code + 8 * b2n g.visMode + 16 * b2n s.twinLevel + 32 * b2n s.mer.domOk)
  else if o = 0x008 then two g.dataBase.toNat g.dataSize.toNat
  else if o = 0x010 then two (g.winBase.toNat + 2 ^ 18 * g.winSlots.toNat) q.ticketBase
  else if o = 0x018 then two q.ticketSlots s.mer.len
  else if o = 0x020 then s.time
  else if o = 0x028 then s.mer.pairSealed
  else if o = 0x030 then (if s.mer.member then s.mer.domSealed else 0)
  else if o = 0x038 then s.mer.recovered
  else if o = 0x040 then two q.bindWord q.plateBits
  else if o = 0x048 then two q.logs.word (min 4096 q.poison.length + 2 ^ 13 * b2n (4096 < q.poison.length))
  else 0

/-- What a member's read of 4 or 8 bytes returns (R703). -/
def State.pageValue (s : State) (p o len : Nat) : Nat :=
  if (len ≠ 4 ∧ len ≠ 8) ∨ o % len ≠ 0 ∨ 4096 ≤ o then 0 else fieldN (s.pageQuad p (o - o % 8)) (8 * (o % 8)) (8 * len)

/-- A read of a control page by host port `h` (R92): one that is not a member of the partition reads zero, and is counted. -/
def State.pageRead (s : State) (h p o len : Nat) : Nat × State :=
  if s.member h p then (s.pageValue p o len, s) else (0, s.refusePage p)

/-- A write of a control page by host port `h`, but for the 8-byte doorbell write, which is the barrier rows' (R92): a non-member's, one to a
read-only location, or one to the doorbell of another size or place is ignored and counted; a member's to a reserved location is ignored (R22). -/
def State.pageWrite (s : State) (h p o size : Nat) : State :=
  if !s.member h p || o < 0x050 || (o < 0x108 && 0x100 < o + size && !(o == 0x100 && size == 8)) then s.refusePage p else s

end Sys2Proof.Machine
end

