-- ==== Sys2Proof/Machine/Barrier.lean ====
section
/-! DEFINITION. The barrier commands: doorbell writes (R355 to R366, R373), completion (R367, R369) and the administrative barriers (R648). -/

namespace Sys2Proof.Machine

/-- The barrier instant that INSTANT_LOW names (R361): whole microseconds, within T_d − 262,144 µs and T_d + 262,143 µs. -/
def namedInstant (td low : Nat) : Nat :=
  let t := td / 1000
  let d := (low + 2 ^ 19 - t % 2 ^ 19) % 2 ^ 19
  (if d < 2 ^ 18 then t + d else t + d - 2 ^ 19) * 1000

/-- The epoch that ends at the first boundary at or after an instant, when that boundary has passed (R361). -/
def State.endedBy (s : State) (x : Nat) : Option Nat :=
  let b := s.mer.boundaryFrom x
  if s.mer.next != 0 && b < s.mer.next then some (s.mer.numberAt b - 1) else none

/-- The scope that serves a doorbell (R362): a solo block outside a domain serves HOST alone. -/
def State.servedScope (s : State) (n : Nat) : Scope :=
  if s.twin.st = .unpaired ∧ !s.mer.member ∧ n < 3 then .host else scopeOf n

/-- Outstanding barriers of an intake port, which count against its limits (R366). -/
def Intake.standing (q : Intake) : List Barrier := q.bars.filter fun b => !b.refused

/-- Refused tickets that wait for host port `h` (R366). -/
def Intake.refusals (q : Intake) (h : Nat) : Nat := (q.bars.filter fun b => b.host == h && b.refused).length

/-- The RESULT with which a barrier is refused at once, 0 for one that is accepted (R366). -/
def State.barrierWhy (s : State) (h : Nat) (word : Quad) : Nat :=
  let w := word.toNat
  let q := s.ip (s.hp h).intake
  if 8 ≤ (q.standing.filter fun b => b.host == h).length ∨ 256 ≤ q.standing.length then 3
  else if fieldN w 32 2 = 3 ∧ !(s.mer.member && s.mer.domOk) then 4
  else if fieldN w 32 2 ≠ 3 ∧ (bitN w 44 ∨ fieldN w 45 19 ≠ 0) then 4
  else 0

/-- The barrier that a doorbell write makes, accepted (`why` 0) or refused (R358, R361, R362, R366). -/
def State.barrierOf (s : State) (h p : Nat) (word : Quad) (why : Nat) : Barrier :=
  let w := word.toNat
  let i := (s.hp h).intake
  let sc := fieldN w 32 2
  let td := s.time
  let x := if bitN w 44 then namedInstant td (fieldN w 45 19) else td
  let ok := why == 0
  let scope := if ok then s.servedScope sc else scopeOf sc
  { id := i + 32 * (s.ip i).barId, host := h, part := p, scope := scope, ticket := fieldN w 0 32, slot := fieldN w 34 10, td := td, epoch := s.mer.cur,
    waits := ((s.ip i).kept.filter fun k => k.req.host == some h && k.req.part == p && formWrite k.req.form).map fun k => k.req.tag,
    slices := if scope = .host then [] else List.range 128, twinOk := false, instant := x, serve := s.endedBy x, result := why,
    doneAt := if ok then none else some td, refused := !ok, written := false, echo := if ok && s.mirrors && s.primary p then some (s.ip i).echo else none }

/-- A barrier goes into its port's queue and is counted; an accepted one of a partition that is PRIMARY here is echoed to the twin (R366,
R373, R391). -/
def State.enterBarrier (s : State) (h p : Nat) (word : Quad) (why : Nat) : State :=
  let i := (s.hp h).intake
  let b := s.barrierOf h p word why
  let td := s.time
  let s := if why = 0 then s.bumpIp i 7 0 32 else s.bumpIp i 7 32 16
  let s := s.onIp i fun q => { q with bars := q.bars ++ [b], barId := q.barId + 1 }
  let s := if b.slices.isEmpty then s else s.order { part := p, aux := b.td, tag := b.id }
  let s :=
    match b.echo with
    | some idx =>
      let put := fun (k : Pack) => (⟨k.recs ++ [TwinMsg.door i idx h p word td], if k.recs.isEmpty then s.now else k.since⟩ : Pack)
      let s := (s.onIp i fun q => { q with echo := (q.echo + 1) % 4096, echoPack := put q.echoPack }).bumpTwn 0 0 64
      if 4 ≤ (s.ip i).echoPack.recs.length then s.flushEcho i else s
    | none => s
  s.tickets i h

/-- A write of a doorbell (R358, R366): ignored and counted, refused with its ticket to be written, or accepted. -/
def State.doorbell (s : State) (h p : Nat) (word : Quad) (aligned : Bool) : State :=
  let w := word.toNat
  if (s.part p).st ≠ .enabled ∨ !s.member h p ∨ !aligned then s.refusePage p
  else if (s.part p).ticketSlots ≤ fieldN w 34 10 ∨ fieldN w 0 32 = 0 then s.refusePage p
  else if s.barrierWhy h word ≠ 0 ∧ 8 ≤ (s.ip (s.hp h).intake).refusals h then s.refusePage p
  else s.enterBarrier h p word (s.barrierWhy h word)

/-- The doorbell write of a row whose SCOPE is `n`: the row gives the word's SCOPE (log 2). In the fail-safe state no barrier starts (R574), and
what R92 and R93 ignore and count is counted still. -/
def State.ring (s : State) (n : Nat) (h p : Nat) (word : Quad) (aligned : Bool) : State :=
  let no := decide ((s.part p).st ≠ .enabled) || !s.member h p || !aligned
  if s.win.failsafe && !no then s else s.doorbell h p (putField word 32 2 n) aligned

/-- BARRIER_HOST (R355, R365, R366). -/
def execBarrierHost (t : Ns) (host : HostId) (part : PartId) (word : Quad) (aligned : Bool) (s : State) : Host.Outcome State Fault Refusal :=
  .next ((s.tick t).ring 0 host.val part.val word aligned)
/-- BARRIER_PARTITION (R355, R363, R366). -/
def execBarrierPartition (t : Ns) (host : HostId) (part : PartId) (word : Quad) (aligned : Bool) (s : State) : Host.Outcome State Fault Refusal :=
  .next ((s.tick t).ring 1 host.val part.val word aligned)
/-- BARRIER_TWIN (R355, R363, R366). -/
def execBarrierTwin (t : Ns) (host : HostId) (part : PartId) (word : Quad) (aligned : Bool) (s : State) : Host.Outcome State Fault Refusal :=
  .next ((s.tick t).ring 2 host.val part.val word aligned)
/-- BARRIER_DOMAIN (R355, R361, R366). -/
def execBarrierDomain (t : Ns) (host : HostId) (part : PartId) (word : Quad) (aligned : Bool) (s : State) : Host.Outcome State Fault Refusal :=
  .next ((s.tick t).ring 3 host.val part.val word aligned)

/-- BARRIER_COMPLETE (R363, R365, R367, R370): the barrier has what it waits for; its ticket goes in its host port's order. -/
def execBarrierComplete (t : Ns) (port : IntakeId) (id : Nat) (s : State) : Host.Outcome State Fault Refusal :=
  let s := s.tick t
  let i := port.val
  .next (match (s.ip i).bars.find? fun b => b.id == id with
    | some b =>
      let s := if b.doneAt.isNone && s.barReady b (s.ip i).kept then
          s.onIp i fun q => { q with bars := q.bars.map fun x => if x.id = id then s.finishBar x else x }
        else s
      s.tickets i b.host
    | none => s)

/-- BARRIER (R648). -/
def execBarrier (t : Ns) (c : Mbx) (s : State) : Host.Outcome State Fault Refusal :=
  .next ((s.tick t).command c 0xC130 { CmdKind.plain true 16 with rsv := [3, 4, 5, 6, 7], part := some 0, bg := some .none } fun s =>
    let p := mbByte c 0
    let sc := mbByte c 1
    let named := mbByte c 2 % 2 == 1
    let x := mbLe c 8 8
    let mb := c.mb.val
    if sc = 0 ∨ 3 < sc then (.detail 4 1, s)
    else if 1 < mbByte c 2 then (.detail 4 2, s)
    else if !named ∧ x ≠ 0 then (.detail 4 8, s)
    else if (sc = 3 ∧ !(s.mer.member && s.mer.domOk)) ∨ (sc ≠ 3 ∧ named) then (.done 7 [], s)
    else
      let td := s.time
      let x := if named then x else td
      let b : Barrier :=
        { id := 16 + 32 * mb, host := 1024, part := p, scope := scopeOf sc, ticket := 0, slot := 0, td := td, epoch := s.mer.cur, waits := [],
          slices := List.range 128, twinOk := false, instant := x, serve := s.endedBy x, result := 0, doneAt := none, refused := false, written := false, echo := none }
      (.started (.barrier b.id) 0, { s with adminBars := Tbl.set s.adminBars mb b }))

/-- An administrative barrier that has what it waits for ends its command with the bytes of R369 (R648). -/
def State.adminBar (s : State) (mb : Nat) : State :=
  match Tbl.find s.adminBars mb with
  | some b =>
    if s.barReady b [] then ({ s with adminBars := Tbl.del s.adminBars mb }).bgEnd mb 0 (s.finishBar b).bytes else s
  | none => s

/-- BARRIER_LIST (R648). -/
def execBarrierList (t : Ns) (c : Mbx) (s : State) : Host.Outcome State Fault Refusal :=
  .next ((s.tick t).command c 0xC131 (mgmt 0) fun s =>
    (.done 0 (((List.range 16).map fun i => leBytes 2 (s.ip i).standing.length).flatten ++ leBytes 4 s.adminBars.length ++ zeros 4), s))

end Sys2Proof.Machine
end

