-- ==== Sys2Proof/Machine/Flash.lean ====
section
/-! DEFINITION. The flash (R655 to R661): the descriptor ring, the boot selector, and the firmware commands. A command's descriptors are
issued one at a time, each when the one before it is done (log 17). -/

namespace Sys2Proof.Machine

/-! ### Descriptors (R656, R658, R659) -/

/-- A descriptor handed over: OP, FLASH_OFFSET, SCRATCH_OFFSET and LENGTH. -/
def flashDesc (op foff soff len : Nat) (mb : Option Nat) : FlashDesc := ⟨op, 0, 0, foff, soff, len, 0, mb⟩

/-- The offset of a boot block in the flash window (R656). -/
def blockOff (b : Nat) : Nat := 0x10000 + 0x2000000 * (b % 2)

/-- A descriptor takes the next place of the ring (R658). -/
def State.flashIssue (s : State) (d : FlashDesc) : State :=
  let i := s.pwr.flashAt
  (s.onPwr fun p => { p with flash := Tbl.set p.flash i d, flashAt := (i + 1) % 64 }).send (.flash i d)

/-- The command's next descriptor is issued; an UNLOCK names a region that the command's end locks again (R659). -/
def State.flashNext (s : State) (j : FlashJob) : State :=
  match j.todo with
  | [] => s.onPwr fun p => { p with flashJob := some { j with cur := none } }
  | d :: rest =>
    let j := { j with todo := rest, cur := some s.pwr.flashAt, unlocked := if d.op = 4 then j.unlocked ++ [d.foff] else j.unlocked }
    (s.onPwr fun p => { p with flashJob := some j }).flashIssue d

/-- A command begins to write flash (R659): the update grant, and its first descriptor. -/
def State.flashStart (s : State) (mb : Nat) (goal : FlashGoal) (todo : List FlashDesc) : State :=
  (s.onPwr fun p => { p with grant := true }).flashNext ⟨mb, goal, todo, none, false, []⟩

/-- The command that writes flash is over (R659): the grant is withdrawn and LOCK issued for what it unlocked. -/
def State.flashEnd (s : State) : State :=
  match s.pwr.flashJob with
  | some j =>
    let s := s.onPwr fun p => { p with grant := false, flashJob := none }
    State.each (fun o s => s.flashIssue (flashDesc 5 o 0 0 none)) j.unlocked s
  | none => s

/-- What the descriptors of a command have brought about once all are done: a selector copy (R657); a full image, whose version and
length are the free values that its header holds (R655, R661; log 5). -/
def State.flashGain (s : State) : FlashGoal → State
  | .selector copy gen active => s.onPwr fun p => { p with sels := Tbl.set p.sels copy (gen, active) }
  | .image block true =>
    let v := s.fresh
    let l := v.2.fresh
    l.2.onPwr fun p => { p with images := Tbl.set p.images block (true, v.1.toNat, l.1.toNat % 2 ^ 32), xfer := none }
  | .image _ false => s

/-- The result of descriptor `i` is written: STATUS and DONE_TIME; an error raises FLASH (R658, R554). -/
def State.flashMark (s : State) (i : Nat) (d : FlashDesc) (status : Nat) : State :=
  let s := s.onPwr fun p => { p with flash := Tbl.set p.flash i { d with status := status, doneAt := s.time } }
  if status = 1 then s else s.raise (srcFw 5) (256 + 658) d.foff 0 status

/-- A command's writing is over, with what it has brought about; the command that waits for it completes (R658, R659). -/
def State.flashOver (s : State) (mb status : Nat) : State :=
  if (s.box mb).wait = some (.flash 0) then (s.mbxDone mb status [] 0xFFFFFFFF).flashEnd else s

/-- FLASH_DESCRIPTOR_DONE (R658, R554): STATUS and DONE_TIME are written; an error raises FLASH and ends the command's writing. -/
def execFlashDescriptorDone (t : Ns) (i : Fin 64) (status : Byte) (s : State) : Host.Outcome State Fault Refusal :=
  let s := s.tick t
  .next (match Tbl.find s.pwr.flash i.val with
    | none => s
    | some d =>
      if d.status ≠ 0 ∨ status = 0 then s
      else
        let s := s.flashMark i.val d status.toNat
        match s.pwr.flashJob with
        | none => s
        | some j =>
          if j.cur ≠ some i.val then s
          else
            if status ≠ 1 then (s.onPwr fun p => { p with flashJob := some { j with bad := true, cur := none, todo := [] } }).flashOver j.mb 6
            else if !j.todo.isEmpty then s.flashNext j
            else ((s.flashNext j).flashGain j.goal).flashOver j.mb 0)

/-! ### The selector (R657) -/

/-- A swap: the copy that is not in force is erased and programmed with GEN one higher (R657). -/
def State.swapSelector (s : State) (mb : Nat) (active : Bool) : Reply × State :=
  let c : Nat × Nat := match s.selector with
    | some x => (1 - x.1, (x.2.1 + 1) % 2 ^ 32)
    | none => (0, 1)
  let o := 0x1000 * c.1
  let v := s.fresh
  (.wait (.flash 0), v.2.flashStart mb (.selector c.1 c.2 active)
    [flashDesc 4 o 0 0 (some mb), flashDesc 3 o 0 0 (some mb), flashDesc 2 o (v.1.toNat % 2 ^ 22) 4096 (some mb)])

/-- BOOT_SELECT (R655, R635): presence, an image that passes its check, and a block that is not named already. -/
def execBootSelect (t : Ns) (c : Mbx) (digestOk : Bool) (s : State) : Host.Outcome State Fault Refusal :=
  .next ((s.tick t).command c 0xC1A1 { mgmt 1 with presence := true } fun s =>
    let b := mbByte c 0
    if 1 < b then (.detail 4 0, s)
    else if (s.selector.any fun x => x.2.2 == (b == 1)) ∨ !digestOk ∨ s.pwr.flashJob.isSome then (.done 7 [], s)
    else s.swapSelector c.mb.val (b == 1))

/-! ### Firmware update (R661) -/

/-- GET_FW_INFO (R661, R655): two slots; the revision of a slot is its block's 8-byte version (log 13). -/
def execGetFwInfo (t : Ns) (c : Mbx) (s : State) : Host.Outcome State Fault Refusal :=
  .next ((s.tick t).command c 0x0200 (mgmt 0) fun s =>
    let rev := fun k => leBytes 8 (Tbl.get (false, 0, 0) s.pwr.images k).2.1 ++ zeros 8
    let act := 1 + b2n s.pwr.bootBlock
    let staged := match s.selector with
      | some x => 1 + b2n x.2.2
      | none => 0
    (.done 0 ([2, BitVec.ofNat 8 (act + 8 * staged), 0] ++ zeros 13 ++ rev 0 ++ rev 1 ++ zeros 32), s))

/-- A part of an image, programmed at its offset; the last part makes the image full. -/
def State.imagePart (s : State) (mb block off len : Nat) (erase last : Bool) : State :=
  let o := blockOff block
  let v := s.fresh
  let wipe := if erase then (List.range 512).map fun k => flashDesc 3 (o + 65536 * k) 0 0 (some mb) else []
  let prog := if len = 0 then [] else [flashDesc 2 (o + 128 * off) (v.1.toNat % 2 ^ 22) len (some mb)]
  v.2.flashStart mb (.image block last) (flashDesc 4 o 0 0 (some mb) :: wipe ++ prog)

/-- TRANSFER_FW (R661, R635): the slot not booted only; the initiating part needs presence, erases the block in the background and
leaves it invalid until the image is full. -/
def execTransferFw (t : Ns) (c : Mbx) (s : State) : Host.Outcome State Fault Refusal :=
  .next ((s.tick t).command c 0x0201 { mgmt 0 with len := (128, 4096), rsv := [2, 3] ++ (List.range 128).drop 8, bg := some .flash } fun s =>
    let mb := c.mb.val
    let act := mbByte c 0
    let slot := mbByte c 1
    let b := slot - 1
    let other : Bool := match s.pwr.xfer with
      | some x => x.1 != mb
      | none => false
    let mine := s.pwr.xfer == some (mb, b)
    if 4 < act then (.detail 4 0, s)
    else if act ≤ 1 ∧ !s.presenceOpen then (.done 3 [], s)
    else if other ∨ s.pwr.flashJob.isSome then (.done 7 [], s)
    else if slot = 0 ∨ 2 < slot ∨ b = b2n s.pwr.bootBlock then (.detail 4 1, s)
    else if act ≤ 1 then
      let s := s.onPwr fun p => { p with xfer := some (mb, b), images := Tbl.set p.images b (false, 0, 0) }
      (.started (.transferFw b) 0xFFFFFFFF, s.imagePart mb b (mbLe c 4 4) (c.input.length - 128) true (act == 0))
    else if !mine then (.detail 4 0, s)
    else if act = 4 then (.done 0 [], s.onPwr fun p => { p with xfer := none })
    else (.wait (.flash 0), s.imagePart mb b (mbLe c 4 4) (c.input.length - 128) false (act == 3)))

/-- ACTIVATE_FW (R661): offline activation only; the target's digest is checked and the selector swapped. -/
def execActivateFw (t : Ns) (c : Mbx) (digestOk : Bool) (s : State) : Host.Outcome State Fault Refusal :=
  .next ((s.tick t).command c 0x0202 { mgmt 2 with presence := true } fun s =>
    let act := mbByte c 0
    let slot := mbByte c 1
    if act = 0 then (.done 2 [], s)
    else if act ≠ 1 then (.detail 4 0, s)
    else if slot = 0 ∨ 2 < slot ∨ !digestOk then (.detail 4 1, s)
    else if s.pwr.flashJob.isSome then (.done 7 [], s)
    else s.swapSelector c.mb.val (slot == 2))

end Sys2Proof.Machine
end

