-- ==== Sys2Proof/Machine/Twin.lean ====
section
/-! DEFINITION. The twin (spec chapter 9): loss (R399, R400, R410), takeover (R402 to R405, R373), the handshake and resynchronisation
(R382, R383, R411 to R415), mirroring at the mirror home (R391 to R398), forwarding (R387), role moves (R417 to R419), the power-fail
notice (R604) and the twin's mailbox commands (R649). -/

namespace Sys2Proof.Machine

/-! ### The fall of the completion level (R344, R345) -/

/-- Write the dirty line of slice `n` to media at once, unless a way's eviction does so already. -/
def State.flushLine (s : State) (n line : Nat) : State :=
  match ((s.slc n).banks.grnFind line).bind fun k => Tbl.find (s.slc n).banks.grn k with
  | some g => if g.dirty && g.st != .evicting then s.mediaWrite n .drain line g.data g.info else s
  | none => s

/-- A media command holds the write of a sequence (R340). -/
def State.onMedia (s : State) (n line seq : Nat) : Bool :=
  s.mports.any fun q => q.2.ops.any fun o => o.slice == n && o.write && o.line == line && o.holds.contains seq

/-- The last media command of a port that writes a line for slice `n` stands for a further write. -/
def MPort.hookLast (n line seq : Nat) (q : MPort) : MPort :=
  match (q.ops.filter fun o => o.slice == n && o.write && o.line == line).getLast? with
  | some x => { q with ops := q.ops.map fun o => if o.id = x.id then { o with holds := o.holds ++ [seq] } else o }
  | none => q

/-- A settled write of slice `n` waits for its media write (R345, R370, R405): the line goes to media at once where its Granary entry is dirty, else the
write waits for the media command that carries it; with neither, it stands on media already. -/
def State.standFor (s : State) (n : Nat) (w : Pend) : State :=
  let live := (s.slc n).banks.grn.any fun x => x.2.valid && x.2.dirty && x.2.st != .evicting && x.2.line == w.line
  let busy := s.mports.any fun q => q.2.ops.any fun o => o.slice == n && o.write && o.line == w.line
  let s := s.onFront n fun f => { f with pends := f.pends ++ [{ w with media := !live && !busy }] }
  if live then s.flushLine n w.line else { s with mports := Tbl.mapv (MPort.hookLast n w.line w.seq) s.mports }

/-- What a line of slice `n` holds must be on media before a barrier completes (R370, R373): a write that answers nobody waits for it, accepted before
any T_d. -/
def State.awaitLine (s : State) (n line : Nat) : State :=
  if (s.slc n).front.pends.any fun w => w.seq == 2 ^ 44 + line then s
  else
    s.standFor n
      { seq := 2 ^ 44 + line, line := line, part := s.mapPart line, host := none, tags := [], entry := none, accept := 0, epoch := s.mer.cur, notes := [],
        placed := true, settled := true, twinAck := false, accepted := true, media := false, bypass := false, twin := false, arrived := 0, replay := false,
        after' := 0, mb := none, ack := none }

/-- The lines of slice `n` of which media does not hold the newest value yet: dirty ones, and those of media commands under way. -/
def State.offMedia (s : State) (n : Nat) : List Nat :=
  (((s.slc n).banks.grn.filter fun x => x.2.valid && x.2.dirty).map fun x => x.2.line)
    ++ (s.mports.map fun q => (q.2.ops.filter fun o => o.slice == n && o.write).map fun o => o.line).flatten

/-- A TWIN or DOMAIN barrier that covers writes of the partition has not completed (R370). -/
def State.barOwes (s : State) (p : Nat) : Bool :=
  s.intakes.any (fun x => x.2.bars.any fun b => b.twinOpen && (b.scope == .domain || b.part == p))
    || s.adminBars.any fun x => x.2.twinOpen && (x.2.scope == .domain || x.2.part == p)

/-- Slice `n` at the solo-durable level (R345, R370, R482): the tracts of writes that the twin has not acknowledged join the split record, a mirrored
write that is still to be placed owes the twin nothing more, and every line that holds an unanswered write, or one that an outstanding barrier covers, is
written. -/
def State.fallSlice (s : State) (n : Nat) : State :=
  let lost := ((s.slc n).front.pends.filter fun w => w.twin && !w.twinAck && w.ack.isNone).map fun w => w.line
  let s := State.each (fun l s => (s.splitWait n l).2) lost s
  let s := s.onFront n fun f =>
    { f with pends := (f.pends.filter fun w => w.ack.isNone || !w.settled).map fun w =>
        { w with twin := false, ack := none, accept := if w.ack.isSome then 0 else w.accept } }
  let ls := (((s.slc n).front.pends.filter fun w => w.placed && !w.media && !s.onMedia n w.line w.seq).map fun w => w.line).eraseDups
  let owed := ((s.offMedia n).filter fun l => !ls.contains l && s.primary (s.mapPart l) && s.barOwes (s.mapPart l)).eraseDups
  (State.each (fun l s => s.awaitLine n l) owed (State.each (fun l s => s.flushLine n l) ls s)).settleUp n

/-- The completion level falls from twin-durable (R345, R370). -/
def State.fallLevel (s : State) : State := State.each (fun n s => s.fallSlice n) s.slices.keys (s.onBars Barrier.solo)

/-! ### Loss of the twin (R399, R302, R410) -/

/-- Kept requests of every port, changed. -/
def State.onAllKept (s : State) (f : Kept → Kept) : State := s.allIps fun q => { q with kept := q.kept.map f }

/-- R418: the twin is lost while record fetches are outstanding: the lines are resolved by broadcast. -/
def State.dropFetches (s : State) : State :=
  let es := (s.slices.map fun x => (x.2.front.ents.filter fun y => y.2.fetching).map fun y => (x.1, y.1)).flatten
  State.each (fun (x : Nat × Nat) s => (s.onEnt x.1 x.2 fun y => { y with fetching := false, hrec := some .doubt, fromDir := true }).serve x.1 x.2) es s

/-- The role moves in progress end with the twin's loss; what they held goes on (R417, R418). -/
def State.dropMoves (s : State) : State :=
  let ps := s.twin.moves.keys
  State.each (fun p s => s.launchHeld p) ps (s.onTwin fun w => { w with moves := [] }).dropFetches

/-- R410: the twin is lost while the mirror copies are stale: the block is ABDICATED for the partitions that it does not own. -/
def State.staleLoss (s : State) : State :=
  (State.each (fun i s => s.holdStore i) (List.range 16) (s.onTwin fun w => { w with abdParts := ~~~w.roles })).raise (srcTwn 10) (256 + 410) 0 0 0

/-- R458: a block whose twin is lost moves its own partitions alone: the moves of the twin's engine that have not committed end here
(DESIGN CHOICE, log 59). -/
def State.dropPeerMoves (s : State) : State :=
  State.each (fun v s => s.dropMove v) (s.place.moves.filter fun v => !v.own && v.phase != .commit && v.phase != .drain) s

/-- The twin is declared lost (R399): the block is SPLIT, at the solo-durable level; forwarded requests wait 5 ms from now in the hold store (R387). -/
def State.loseTwin (s : State) : State :=
  let was := s.twin.st
  if was = .paired ∨ was = .resyncSource ∨ was = .resyncTarget then
    let s := { s with lastLoss := s.time }.onTwin fun w =>
      { w with st := .split, lostAt := some s.now, hasSplit := true, tookOver := w.tookOver && was != TwSt.paired, split := if was = TwSt.paired then [] else w.split,
               recalls := [], recallDue := [], walk := [], acked := [], toGet := 0, got := [] }
    let s := (s.bumpTwn 7 8 8).onAllKept fun k =>
      match k.st with
      | .fwd _ => { k with st := .fwd s.now }
      | _ => k
    let s := State.each (fun i s => s.holdStore i) (List.range 16) s
    let s := (s.abandonSlots.recallsFail).dropMoves.dropPeerMoves
    let s := s.fallLevel
    if was = .resyncTarget then (s.onTwin fun w => { w with stale := true }).staleLoss.raise (srcTwn 6) (256 + 415) 0 0 0 else s
  else s

/-! ### Takeover (R403) -/

/-- R403 step 2: twin-held lines become ordinary dirty lines and are written to media at once, with what the media ports still have of the partitions
taken over; barriers wait for them all (R373). The held-line record is final. -/
def State.ownLines (s : State) (ps : Quad) : State :=
  State.each (fun n s =>
    let ls := ((s.offMedia n).filter fun l => bitN ps.toNat (s.mapPart l)).eraseDups
    let s := s.onBanks n fun b => { b with grn := Tbl.mapv (fun (g : GEntry) => { g with twinHeld := false }) b.grn, held := [] }
    State.each (fun l s => s.awaitLine n l) ls s) s.slices.keys s

/-- The host ports of partitions that are taken over (R403 step 3). -/
def State.hostsOf (s : State) (ps : Quad) : List Nat := below 1024 fun h => (s.hp h).memb &&& ps != 0

/-- R403 step 3: a host port of the twin that is not enabled here is bound to the intake port that its binding names, or to the first whose credits allow
it (R128, R129). -/
def State.bindHost (s : State) (h : Nat) : State :=
  let q := s.hp h
  if q.enable then s
  else
    match (q.intake :: List.range 16).find? fun i => !s.credOver h i q.reqCr q.rwdCr with
    | some i => s.onHp h fun q => { q with intake := i, enable := true, credRes := false }
    | none => s.onHp h fun q => { q with credRes := true }

/-- Steps 1 to 4 of R403: the roles, the lines, the host ports and the claim of their identities and of the ranges, and the hold of new messages. -/
def State.takeOver (s : State) : State :=
  let w := s.twin
  if w.st ≠ .split ∨ w.tk.isSome ∨ w.tookOver ∨ !w.takeoverEn ∨ w.stale then s
  else
    let ps := ~~~w.roles
    let s := (s.onTwin fun w => { w with tk := some ps, roles := BitVec.allOnes 64, tookOver := true, takeovers := w.takeovers + 1 }).bumpTwn 7 0 8
    let s := (s.ownLines ps).onAllKept fun k =>
      match k.st with
      | .fwd _ => if bitN ps.toNat k.req.part then { k with st := .takeover } else k
      | _ => k
    let s := State.each (fun i s => s.holdStore i) (List.range 16) s
    (State.each (fun h s => s.bindHost h) (s.hostsOf ps) s).send (.claim ps (s.hostsOf ps))

/-- The loss is confirmed (R400): the block takes over, or stays SPLIT with stale mirror copies where TAKEOVER_EN is 0. -/
def State.lossKnown (s : State) : State :=
  if s.twin.stale then s.staleLoss
  else if !s.twin.takeoverEn then s.onTwin fun w => { w with stale := true }
  else (s.raise (srcTwn 1) (256 + 400) 0 0 0).takeOver

/-- A declared loss of the twin (R399, R400); one while mirror copies are stale is a second fault at once (R410). -/
def State.declareLoss (s : State) : State :=
  let was := s.twin.st
  let s := s.loseTwin
  if was = .paired ∨ was = .resyncSource then
    let s := s.raise (srcTwn 0) (256 + 399) 0 0 0
    if s.twin.peerDown || s.twin.stale then s.lossKnown else s
  else s

/-- HEARTBEAT_LOSS (R399): no valid frame for 8 µs. -/
def execHeartbeatLoss (t : Ns) (s : State) : Host.Outcome State Fault Refusal :=
  let s := s.tick t
  .next (if s.hbOk then s else s.declareLoss)

/-- TWIN_LINK_DOWN (R399, R423); for an unpaired block it is no loss (R380). -/
def execTwinLinkDown (t : Ns) (s : State) : Host.Outcome State Fault Refusal :=
  let s := (s.tick t).onTwin fun w => { w with linkUp := false }
  .next (if s.twin.st = .unpaired then s else s.declareLoss)

/-- TWIN_LINK_UP (R411, R382, R423): a SPLIT block, or a SEEKING one that has its directory decision (R220), sends its handshake; an unpaired one
ignores it (R380). -/
def execTwinLinkUp (t : Ns) (s : State) : Host.Outcome State Fault Refusal :=
  let s := (s.tick t).onTwin fun w => { w with linkUp := true }
  .next (if s.twin.st = .split ∨ (s.twin.st = .seeking ∧ s.twin.decided) then s.handshake else s)

/-- PEER_LINKS_DOWN (R400, R383, R410): the port adapters report the twin controller's links down. -/
def execPeerLinksDown (t : Ns) (s : State) : Host.Outcome State Fault Refusal :=
  let s := (s.tick t).onTwin fun w => { w with peerDown := true }
  .next (match s.twin.st with
    | .paired | .resyncSource | .resyncTarget => s.raise (srcTwn 9) (256 + 400) 0 0 0
    | .split =>
      if s.twin.tookOver then s else s.lossKnown
    | _ => s)

/-- PEER_LINKS_UP (R400, R423). -/
def execPeerLinksUp (t : Ns) (s : State) : Host.Outcome State Fault Refusal := .next ((s.tick t).onTwin fun w => { w with peerDown := false })

/-- LOSS_REPORT_TIMEOUT (R400, R410): 100 µs without a report: the block stays SPLIT, its mirror copies stale. -/
def execLossReportTimeout (t : Ns) (s : State) : Host.Outcome State Fault Refusal :=
  let s := s.tick t
  .next (if s.twin.st = .split ∧ !s.twin.tookOver ∧ !s.twin.peerDown ∧ (s.twin.lostAt.any fun x => x + 100000 ≤ s.now) then
    s.onTwin fun w => { w with stale := true }
  else s)

/-- The block takes over as on an abdication (R400, R604). -/
def State.abdicated (s : State) : State :=
  let s := (s.raise (srcTwn 8) (256 + 400) 0 0 0).loseTwin
  if s.twin.stale then s.staleLoss else s.takeOver

/-- ABDICATION_RECEIVE (R400, R420): the twin's abdication, of a drill or of its fail-safe state. -/
def execAbdicationReceive (t : Ns) (drill : Bool) (s : State) : Host.Outcome State Fault Refusal :=
  let s := (s.tick t).frame
  .next (match s.twin.st with
    | .paired | .split | .resyncSource | .resyncTarget => if s.twin.tookOver && !drill then s else s.abdicated
    | _ => s)

/-! ### Echoes served (R404, R405, R373) -/

/-- The intake port to which this block binds a host port (R386, R403 step 3). -/
def State.boundTo (s : State) (h : Nat) : Nat := (s.hp h).intake

/-- The form of an echoed message (R391): a write's data makes it a full or a partial write. -/
def Echo.form (x : Echo) : Option Form :=
  match x.data with
  | some d => some (if d.2 = BitVec.allOnes 64 then .wrS else .wrPtl)
  | none => formOfEcho (fieldN x.record.toNat 48 4)

/-- LINE of an echo. -/
def Echo.line (x : Echo) : Nat := fieldN x.record.toNat 0 42
/-- PART of an echo. -/
def Echo.part (x : Echo) : Nat := fieldN x.record.toNat 42 6

/-- The request that an echo stands for, as one of this block's intake ports keeps it. -/
def State.echoReq (s : State) (x : Echo) (f : Form) : Req :=
  let i := s.boundTo x.host
  let d := x.data.getD (0, 0)
  { mkReq i (s.ip i).tag (some x.host) f x.line x.part d.1 d.2 s.time with
    plate := if bitN x.record.toNat 52 then some (fieldN x.record.toNat 53 3) else none, tgen := Tbl.find (s.ip i).moving (tractOf x.line) }

/-- R405 item 1: a write whose settle record was applied is answered once its line is solo-durable; it was accepted before every T_d that this block
serves (R373). -/
def State.serveApplied (s : State) (x : Echo) (q : Nat) : State :=
  let f := (x.form).getD .wrS
  let r := s.echoReq x f
  let n := s.homeSlice x.line
  let s := (s.takeCredit x.host true).onIp r.intake fun p =>
    { p with tag := (p.tag + 1) % 65536, kept := p.kept ++ [⟨r, .host, x.tag, n, .sent, none, none, false, 0, none⟩] }
  let seq := 2 ^ 42 + 2 ^ 32 * (4096 * x.intake + x.idx) + q
  (s.standFor n
    { seq := seq, line := x.line, part := x.part, host := some x.host, tags := [(r.intake, r.tag)], entry := none, accept := 0, epoch := s.mer.cur, notes := [],
      placed := true, settled := true, twinAck := false, accepted := true, media := false, bypass := false, twin := false, arrived := r.arrived, replay := true,
      after' := 0, mb := none, ack := none }).completeAll n

/-- R405 item 2: an echoed request without a settle record is served as a request of this block. -/
def State.serveEcho (s : State) (x : Echo) : State :=
  match x.form with
  | none => s
  | some f =>
    let r := s.echoReq x f
    ((s.takeCredit x.host (formWrite f)).keep r .host x.tag .unsent)

/-- R373: an echoed doorbell whose ticket has not been released. -/
def State.serveDoor (s : State) (x : Echo) (word : Quad) (td : Nat) : State :=
  let w := word.toNat
  let i := s.boundTo x.host
  let sc := scopeOf (fieldN w 32 2)
  let named := bitN w 44
  let inst := if named then namedInstant td (fieldN w 45 19) else td
  let b : Barrier :=
    { id := i + 32 * (s.ip i).barId, host := x.host, part := x.part, scope := sc, ticket := fieldN w 0 32, slot := fieldN w 34 10, td := td,
      epoch := if s.mer.next ≤ td then s.mer.cur else s.mer.numberAt td,
      waits := ((s.ip i).kept.filter fun k => k.req.host == some x.host && k.req.part == x.part && formWrite k.req.form).map fun k => k.req.tag,
      slices := if sc = .host then [] else List.range 128, twinOk := true, instant := inst, serve := s.endedBy inst,
      result := if sc = .twin ∨ sc = .domain then 1 else 0, doneAt := none, refused := false, written := false, echo := none }
  s.onIp i fun q => { q with bars := q.bars ++ [b], barId := q.barId + 1 }

/-- The echoes of each intake port of the twin in echo order (R405), which their indices give modulo 4,096 (R486): an index counts from 64 before that of
the first echo received, which no echo handed over earlier can pass. -/
def echoOrder (l : List Echo) : List Echo :=
  let base := fun i => (((l.find? fun y => y.intake == i).map Echo.idx).getD 0 + 4032) % 4096
  sortBy (fun x => x.intake * 4096 + (x.idx + 4096 - base x.intake) % 4096) l

/-- R404: the echoes that a later one of the same host port and Tag supersedes go. -/
def lastEchoes : List Echo → List Echo
  | [] => []
  | x :: r => if x.door.isNone && r.any (fun y => y.door.isNone && y.host == x.host && y.tag == x.tag) then lastEchoes r else x :: lastEchoes r

/-- A redelivered message matches an echo (R404). -/
def matchesEcho (x : Echo) : Redeliver → Bool
  | .req m _ _ _ => x.door.isNone && x.host == m.host.val && x.tag == m.tag.toNat
  | .birsp _ _ => false

/-- Step 5 of R403: the echoes are served, those with an applied settle record first (R405), then the echoed doorbells (R373); the redelivered messages
wait until every echo has been sent (R404). -/
def State.claimDone (s : State) (l : List Redeliver) : State :=
  let all := lastEchoes (echoOrder s.twin.echoes)
  let hit := all.filter fun x => l.any (matchesEcho x)
  let es := all.filter fun x => !(l.any (matchesEcho x))
  let s := State.each (fun _ s => s.bumpTwn 7 48 16) hit (s.onTwin fun w => { w with echoes := [], redel := some l })
  let done := es.filterMap fun x => x.applied.map fun q => (x, q)
  let s := State.each (fun (x : Echo × Nat) s => s.serveApplied x.1 x.2) (sortBy (fun (x : Echo × Nat) => x.2) done) s
  let s := State.each (fun x s => s.serveEcho x) (es.filter fun x => x.applied.isNone && x.door.isNone) s
  (State.each (fun (x : Echo) s =>
    match x.door with
    | some d => s.serveDoor x d.1 d.2
    | none => s) es s).claimStep

/-- CLAIM_COMPLETE (R402, R403 step 5, R417 ROUTED): the claim of a takeover, or the new primary's claim in a role move. A power-fail
warning stops a takeover at its step (R604). -/
def execClaimComplete (t : Ns) (redelivered : List Redeliver) (s : State) : Host.Outcome State Fault Refusal :=
  let s := s.tick t
  .next (if s.pwr.fail.isSome then s
  else match s.twin.tk with
    | some _ => if s.twin.redel.isSome then s else s.claimDone redelivered
    | none => s.onTwin fun w => { w with moves := Tbl.mapv (fun (m : RoleMove) => if !m.old ∧ m.phase = .forward then { m with phase := .routed } else m) w.moves })

/-- The role move ends once no line of the partition is left to walk (R417 DONE). -/
def State.walkDone (s : State) (p : Nat) : State :=
  match Tbl.find s.twin.moves p with
  | some m =>
    if m.phase = .handover ∧ 1024 * s.partTracts p (fun _ => true) ≤ m.walked.length then
      let s := s.onTwin fun w => { w with moves := Tbl.del w.moves p }
      if m.old then s else s.bumpPlc 7 48 8
    else s
  | none => s

/-- The block has handed its service to its twin (R420, R424): it is ABDICATED, and every partition is PRIMARY there. -/
def Twin.handedOver (w : Twin) : Twin := { w with st := .abdicated, roles := 0 }

/-- The drill has the block hand its service over, or has done so (R420). -/
def State.drilled (s : State) : Bool := s.twin.st == .abdicated || (s.bgOf fun b => b == .twinDrill).isSome

/-- CLAIM_LOST (R402, R417, R420): with the block's consent in a role move the route-closed marker follows; with that of a drill nothing does; without
consent the event is GRAVE. -/
def execClaimLost (t : Ns) (s : State) : Host.Outcome State Fault Refusal :=
  let s := s.tick t
  .next (match s.twin.moves.filter fun x => x.2.old && x.2.phase == .forward with
    | [] => if s.drilled then s else s.raise (srcTwn 7) (256 + 402) 0 0 0
    | l => State.each (fun (x : Nat × RoleMove) s =>
        ((s.toTwin (.closed x.1)).onTwin fun w => { w with moves := Tbl.set w.moves x.1 { x.2 with phase := .handover } }).walkDone x.1) l s)

/-! ### Role moves (R417 to R419) -/

/-- DRAINED_MARKER (R417): the partition is PRIMARY here from now on, and its range is claimed. -/
def execDrainedMarker (t : Ns) (part : PartId) (s : State) : Host.Outcome State Fault Refusal :=
  let s := (s.tick t).frame
  let p := part.val
  .next (match Tbl.find s.twin.moves p with
    | some m =>
      if m.old || m.phase != .drain then s
      else
        let s := s.onTwin fun w => { w with roles := w.roles ||| BitVec.ofNat 64 (2 ^ p), moves := Tbl.set w.moves p { m with phase := .forward } }
        (s.slotDone m.slot).send (.rangeClaim p)
    | none => s)

/-- ROUTE_CLOSED_MARKER (R417): the forwarded requests are all here; the held direct ones go on, and HANDOVER begins. -/
def execRouteClosedMarker (t : Ns) (part : PartId) (s : State) : Host.Outcome State Fault Refusal :=
  let s := (s.tick t).frame
  let p := part.val
  .next (match Tbl.find s.twin.moves p with
    | some m =>
      if m.old || (m.phase != .routed && m.phase != .forward) then s
      else ((s.onTwin fun w => { w with moves := Tbl.set w.moves p { m with phase := .handover } }).launchHeld p).walkDone p
    | none => s)

/-- ROLE_MOVE_TIMEOUT (R419): DRAIN has not ended 1 ms after the instant: the move is abandoned. -/
def execRoleMoveTimeout (t : Ns) (k : SlotId) (s : State) : Host.Outcome State Fault Refusal :=
  let s := s.tick t
  .next (match s.twin.moves.find? fun x => x.2.slot == k.val && x.2.phase == .drain && x.2.since + 1000000 ≤ s.now with
    | some x => ((s.onTwin fun w => { w with moves := Tbl.del w.moves x.1 }).launchHeld x.1).endSlot k.val .abandoned 0
    | none => s)

/-- The record that directory fields spell, taken as current (R418, R199). -/
def recOfDir (r : DirRec) : HRec :=
  match r.state.toNat with
  | 0 => .inv
  | 1 => .shared [r.holder.toNat]
  | 2 => .owned r.holder.toNat
  | _ => if r.holder = 0 then .many else .doubt

/-- The old primary's record of a line (R418): from its filter, its Granary's directory copy, or its media copy `found`, each judged as R201 judges it; a
copy of an impossible age is counted. None where the line's colour is not the tract map's (R82). -/
def State.oldRecord (s : State) (l : Nat) (found : Meta) : Option DirRec × State :=
  let n := s.homeSlice l
  let b := (s.slc n).banks
  let rec' := fun (x : Nat × Nat) => (⟨BitVec.ofNat 2 x.1, BitVec.ofNat 10 x.2⟩ : DirRec)
  match ((b.fltWay l).bind fun w => b.fltAt (fltSet l) w).bind fun f => f.recOf (inSheaf l) with
  | some h => (some (rec' h.dir), s)
  | none =>
    let i := ((s.grnValue n l).map Prod.snd).getD found
    if Meta.colour i ≠ s.mapPart l then (none, s.colourBad n l (Meta.colour i))
    else
      let d := s.dirRec n l i
      (some (rec' d.1.dir), if d.2 then s.bumpSlc n 9 32 16 else s)

/-- The old primary answers a fetch (R418). -/
def State.answerFetch (s : State) (l : Nat) (found : Meta) : State :=
  let r := s.oldRecord l found
  match r.1 with
  | some d => r.2.toTwin (.fetched l d)
  | none => r.2

/-- RECORD_FETCH (R418): the old primary answers the new one's request; at the new primary the record of a doubt line arrives, is current and is placed
under R204. -/
def execRecordFetch (t : Ns) (n : SliceId) (e : Nat) (r : FetchMsg) (s : State) : Host.Outcome State Fault Refusal :=
  let s := (s.tick t).frame
  let n := n.val
  .next (match r with
    | .ask line found =>
      match s.partOf line.toNat with
      | some p => if (Tbl.find s.twin.moves p).any fun m => m.old then s.answerFetch line.toNat found else s
      | none => s
    | .record r =>
      match s.ent n e with
      | some x =>
        if !x.fetching then s
        else (((s.putEnt n e { x with fetching := false, hrec := some (recOfDir r), fromDir := false })).roleSeen x.req.part x.req.line).serve n e
      | none => s)

/-- The filter's copy of a walked line's record becomes the doubt marker (R418). -/
def State.fltDoubt (s : State) (n l : Nat) : State :=
  match (s.slc n).banks.fltWay l with
  | some w =>
    match (s.slc n).banks.fltAt (fltSet l) w with
    | some f => s.onBanks n fun b => { b with flt := Tbl.set b.flt (fltSet l * 16 + w) (f.setState (inSheaf l) 3).norm }
    | none => s
  | none => s

/-- The old primary's walk sends a line's record and writes its own copy as the doubt marker (R418). -/
def State.walkLine (s : State) (p : Nat) (m : RoleMove) (l : Nat) (found : Meta) : State :=
  let n := s.homeSlice l
  let r := s.oldRecord l found
  let s := match r.1 with
    | some d => (((r.2.toTwin (.record l d)).fltDoubt n l).dirWrite n l 3 0x3FF false none none).2
    | none => r.2
  (s.onTwin fun w => { w with moves := Tbl.set w.moves p { m with walked := insertNat l m.walked } }).walkDone p

/-- RECORD_WALK_LINE (R418): the old primary's walk reads a line, of which `found` is the metadata word on media. -/
def execRecordWalkLine (t : Ns) (line : BitVec 42) (found : Meta) (s : State) : Host.Outcome State Fault Refusal :=
  let s := s.tick t
  let l := line.toNat
  .next (match s.partOf l with
    | none => s
    | some p =>
      match Tbl.find s.twin.moves p with
      | some m =>
        if !m.old || m.phase != .handover || m.walked.contains l then s else s.walkLine p m l found
      | none => s)

/-- ROLE_RECORD_RECEIVE (R418): the new primary writes a walked line's record at its DG, unless it has fetched or changed it. -/
def execRoleRecordReceive (t : Ns) (line : BitVec 42) (r : DirRec) (s : State) : Host.Outcome State Fault Refusal :=
  let s := (s.tick t).frame
  let l := line.toNat
  .next (match s.partOf l with
    | none => s
    | some p =>
      match Tbl.find s.twin.moves p with
      | some m =>
        if m.old || m.phase != .handover || m.walked.contains l then s
        else ((s.dirWrite (s.homeSlice l) l r.state.toNat r.holder.toNat false none none).2).roleSeen p l
      | none => s)

/-! ### Handshake and resynchronisation (R382, R383, R411 to R415) -/

/-- The engine schedules the PAIR instant once nothing is left to send (R415). -/
def State.armPair (s : State) : State :=
  if s.twin.st ≠ .resyncSource ∨ !s.twin.split.isEmpty ∨ (s.mer.slots.any fun x => x.2.arm && x.2.kind == 9 && !x.2.ended) then s
  else
    (s.engineArm 9 1 0).2

/-- Step 8 of the start-up sequence is over (R607). -/
def State.step9 (s : State) : State := s.onPwr fun p => { p with step := if p.step = 8 ∧ p.fail.isNone then 9 else p.step }

/-- A block whose twin already has an anchor adopts it; when both start together side A's is taken (R308). -/
def State.adoptAnchor (s : State) (x : Handshake) : State :=
  match x.anchor with
  | some a =>
    let st := s.twin.st
    if s.mer.next = 0 ∨ s.side = 1 ∧ (st = .seeking ∨ st = .paired ∨ st = .resyncSource ∨ st = .resyncTarget) then s.adopt a else s
  | none => s

/-- The twin state that a handshake leads to is entered (R382, R411): a block that was SEEKING takes up its persisted roles, and step 8 is over. -/
def State.enterTwin (s : State) (f : Twin → Twin) : State :=
  (s.onTwin fun w => { f { w with roles := if w.st = .seeking then w.owned else w.roles } with lostAt := none, shake := none, refused := false, abdParts := 0 }).step9.launchFwd

/-- The block becomes the source of a resynchronisation (R382, R411, R412): a target that was replaced, or whose pairing number generation changed, gets
every provisioned tract. -/
def State.toSource (s : State) (x : Handshake) (both theyNew : Bool) : State :=
  let all := theyNew || x.rePaired
  (s.enterTwin fun w =>
    { w with st := .resyncSource, split := if all then s.provisioned else w.split, stale := both }).armPair

/-- The block becomes the target of a resynchronisation (R382, R411, R425). -/
def State.toTarget (s : State) (x : Handshake) : State :=
  s.enterTwin fun w => { w with st := .resyncTarget, roles := 0, stale := true, toGet := if x.weReplaced || w.rePaired then x.placed else x.marked, got := [] }

/-- The handshakes of both blocks meet (R382, R411, R457): the first row of R382 that applies; after a takeover the survivor is the source of every
partition (R411). -/
def State.meet (s : State) (x : Handshake) : State :=
  match s.twin.st, s.twin.pairing with
  | .seeking, some p | .split, some p =>
    let theyNew := x.serial.toNat != p.2.1
    if x.pairNo.toNat ≠ p.2.2 ∨ !x.mediaOk then (s.onTwin fun w => { w with refused := w.st == .seeking }).raise (srcTwn 2) (256 + 382) 0 0 0
    else
      let s := s.adoptAnchor x
      if s.twin.tookOver then s.toSource x false theyNew
      else if x.takenOver then s.toTarget x
      else if !s.twin.hasSplit && !x.split && !theyNew && !x.weReplaced then
        { s with dirGen := { s.dirGen with unclean := s.dirGen.unclean || x.unclean } }.enterTwin fun w => { w with st := .paired, stale := false, rePaired := false }
      else if s.twin.hasSplit && x.split then s.toSource x true theyNew
      else if s.twin.hasSplit || (!x.split && theyNew) then s.toSource x false theyNew
      else s.toTarget x
  | _, _ => s

/-- TWIN_HANDSHAKE (R382, R411, R457): it waits for the block's own directory decision (R220); a later one brings side B the anchor of side A (R308). -/
def execTwinHandshake (t : Ns) (x : Handshake) (s : State) : Host.Outcome State Fault Refusal :=
  let s := (s.tick t).frame
  .next (match s.twin.st with
    | .seeking => if s.twin.decided then s.meet x else s.onTwin fun w => { w with shake := some x }
    | .split => s.meet x
    | .paired | .resyncSource | .resyncTarget => s.adoptAnchor x
    | _ => s)

/-- SEEKING_TIMEOUT (R383): 500 ms without a handshake; one with another pairing number leaves the block SEEKING (R382). -/
def execSeekingTimeout (t : Ns) (s : State) : Host.Outcome State Fault Refusal :=
  let s := s.tick t
  .next (if s.twin.st = .seeking ∧ s.twin.step8 ∧ s.twin.decided ∧ !s.twin.refused ∧ s.twin.seekAt + 500000000 ≤ s.now then
    let s := (s.onTwin fun w => { w with st := .split, roles := w.owned, hasSplit := true, lostAt := some s.now }).step9
    if s.twin.peerDown && s.twin.takeoverEn then s.takeOver else s.onTwin fun w => { w with stale := true }
  else s)

/-- The walk yields at the media port of a line's tract, within RESYNC_CAP (R414, R44). -/
def State.walkYields (s : State) (l : Nat) : Bool := (s.mapPlace (tractOf l)).any fun p => (s.mp p.1).crowded s.twin.resyncCap

/-- RESYNC_WALK_LINE (R412, R414, R374, R379): a line of a marked tract, of a partition that is PRIMARY here: from the Granary at once, else read
on an internal entry under a reservation. -/
def execResyncWalkLine (t : Ns) (n : SliceId) (line : BitVec 42) (s : State) : Host.Outcome State Fault Refusal :=
  let s := s.tick t
  let n := n.val
  let l := line.toNat
  .next (if s.twin.st ≠ .resyncSource ∨ s.homeSlice l ≠ n ∨ !s.twin.split.contains (tractOf l) ∨ s.twin.walk.contains l ∨ !s.primary (s.mapPart l) ∨ s.walkYields l then s
  else if (s.slc n).front.ents.any fun y => y.2.kind == .resync && y.2.req.line == l then s
  else
    match s.grnValue n l with
    | some v => if Meta.colour v.2 ≠ s.mapPart l then s.colourBad n l (Meta.colour v.2) else s.resyncSend n l v.1
    | none =>
      match s.freeInt n .resync with
      | none => s
      | some e => (s.openInt n e .resync l (s.mapPart l) false).readInt n e l)

/-- A line of the walk has been acknowledged; the last of a tract clears its bit, and the last tract leads to the PAIR instant (R412,
R415). -/
def State.resyncAcked (s : State) (l : Nat) : State :=
  let tr := tractOf l
  let s := s.onTwin fun w => { w with walk := w.walk.filter (· != l), acked := insertNat l w.acked }
  if (s.twin.acked.filter fun y => tractOf y == tr).length < 1024 then s
  else (s.onTwin fun w => { w with acked := w.acked.filter fun y => tractOf y != tr, split := w.split.filter (· != tr) }).armPair

/-- A line of the walk has been received; with the last of a tract one tract less is to be received (R425). -/
def State.resyncGot (s : State) (l : Nat) : State :=
  let tr := tractOf l
  let s := s.onTwin fun w => { w with got := insertNat l w.got }
  if (s.twin.got.filter fun y => tractOf y == tr).length < 1024 then s
  else s.onTwin fun w => { w with got := w.got.filter fun y => tractOf y != tr, toGet := w.toGet - 1 }

/-- The source's generation record of a set, copied by the target (R415, R218). -/
def State.copyGen (s : State) (n dg fl : Nat) (q : List (Nat × Nat)) : State :=
  { s with dirGen := { s.dirGen with dg := Tbl.set s.dirGen.dg n dg, saved := Tbl.set s.dirGen.saved n dg, fl := Tbl.set s.dirGen.fl n fl,
                                     q := q.foldl (fun t (x : Nat × Nat) => Tbl.set t (x.1 * 128 + n) x.2) (s.dirGen.q.filter fun x => x.1 % 128 != n) } }.saveGen

/-- RESYNC_RECORD (R412, R415): a record is placed as a settle record is and acknowledged; an acknowledgement counts at the source. -/
def execResyncRecord (t : Ns) (x : ResyncMsg) (s : State) : Host.Outcome State Fault Refusal :=
  let s := (s.tick t).frame
  .next (match x with
    | .record line part data pois tgen seq epoch =>
      if s.twin.st ≠ .resyncTarget ∧ s.twin.st ≠ .resyncSource then s
      else
        let l := line.toNat
        let r := { mkReq 0 0 none .wrS l part.val data 0 s.time with num := 128, noted := some seq.toNat, epoch := some epoch, tgen := some tgen.toNat, fwd := true }
        let n := s.homeSlice l
        ((s.twinIn (.slice n) 0x62 { prio := s.prio part.val, part := part.val, line := l, tgen := some tgen.toNat, pois := pois, epoch := epoch, aux := seq.toNat, data := lineUnits data }).mirrorIn n r pois).resyncGot l
    | .ack line =>
      let l := line.toNat
      if s.twin.st = .resyncSource then (s.twinIn (.slice (s.homeSlice l)) 0x46 { prio := s.linePrio l, line := l }).resyncAcked l else s
    | .gen n dg fl q => if s.twin.st = .paired ∨ s.twin.st = .resyncTarget then s.copyGen n.val dg.toNat fl.toNat (q.map fun x => (x.1.val, x.2.toNat)) else s)

/-! ### The mirror home (R391 to R398) -/

/-- TWIN_ECHO_RECEIVE (R395). -/
def execTwinEchoReceive (t : Ns) (port : IntakeId) (x : EchoMsg) (s : State) : Host.Outcome State Fault Refusal :=
  let s := (s.tick t).frame
  .next (if s.mirroring then
    s.onTwin fun w => { w with echoes := w.echoes ++ [⟨port.val, x.idx.toNat, x.host.val, x.tag.toNat, x.record, x.data, x.door.map fun d => (d.1, d.2), none⟩] }
  else s)

/-- TWIN_RELEASE_RECEIVE (R394). -/
def execTwinReleaseReceive (t : Ns) (port : IntakeId) (echo : BitVec 12) (s : State) : Host.Outcome State Fault Refusal :=
  let s := (s.tick t).frame
  .next (if s.mirroring then s.onTwin fun w => { w with echoes := w.echoes.filter fun y => !(y.intake == port.val && y.idx == echo.toNat) } else s)

/-- SETTLE_RECORD_APPLY (R393, R392): the record's line, from its echo or in full, is placed; its echoes are applied. -/
def execSettleRecordApply (t : Ns) (x : SettleRec) (s : State) : Host.Outcome State Fault Refusal :=
  let s := (s.tick t).frame
  .next (if !s.mirroring then s
  else
    let names := fun (y : Echo) => x.echoes.any fun e => e.1.val == y.intake && e.2.toNat == y.idx
    let data := match x.full with
      | some d => some d
      | none => (s.twin.echoes.find? names).bind fun y => y.data.map Prod.fst
    let s := s.onTwin fun w => { w with echoes := w.echoes.map fun y => if names y then { y with applied := some x.seq.toNat } else y }
    match data with
    | none => s
    | some d =>
      let l := x.line.toNat
      let r := { mkReq 0 0 none .wrS l x.part.val d 0 s.time with num := x.src.val, noted := some x.seq.toNat, epoch := some x.epoch }
      let n := s.homeSlice l
      (s.twinIn (.slice n) 0x62 { prio := s.prio x.part.val, part := x.part.val, line := l, epoch := x.epoch, aux := x.seq.toNat, data := lineUnits d }).mirrorIn n r false)

/-- Ways whose eviction has been accepted and which stay EVICTING for want of a place in the held-line record (R397). -/
def State.stuckWays (s : State) (n : Nat) : List (Nat × GEntry) :=
  (s.slc n).banks.grn.filter fun x =>
    x.2.st == .evicting && x.2.twinHeld && !(s.mports.any fun q => q.2.ops.any fun o => o.slice == n && !o.accepted && match o.purp with
      | .evict k _ => k == x.1
      | _ => false)

/-- The line for which an EVICTING way was taken. -/
def State.takerOf (s : State) (n k : Nat) : Nat :=
  match (s.slc n).front.ents.find? fun x => x.2.way == .evicting k with
  | some x => x.2.req.line
  | none => 0

/-- The mirror copies of a line up to a sequence are the block's no longer: the way that holds one is free of its hold, an EVICTING way that
waited for it is done, and its held-line record goes (R396, R397). -/
def State.mirrorClean (s : State) (n l q : Nat) : State :=
  let stuck := (s.stuckWays n).filter fun x => x.2.line == l && x.2.mirrorSeq == q
  let free := fun (g : GEntry) => if g.valid ∧ g.twinHeld ∧ g.line = l ∧ g.mirrorSeq = q then { g with twinHeld := false } else g
  let s := s.onBanks n fun b => { b with grn := Tbl.mapv free b.grn, held := if Tbl.find b.held l = some q then Tbl.del b.held l else b.held }
  State.each (fun (x : Nat × GEntry) s => s.evictDone n x.1 (s.takerOf n x.1)) stuck s

/-- CLEAN_NOTICE (R396, R397); a held-line record that becomes free lets the first waiting eviction, or the lines that wait to bypass the Granary, go on. -/
def execCleanNotice (t : Ns) (line : BitVec 42) (seq : Word) (s : State) : Host.Outcome State Fault Refusal :=
  let s := (s.tick t).frame
  let n := s.homeSlice line.toNat
  let had := Tbl.find (s.slc n).banks.held line.toNat = some seq.toNat
  let s := s.mirrorClean n line.toNat seq.toNat
  .next (match (s.stuckWays n).head? with
    | some x => if had then s.evictAccepted n x.1 (s.takerOf n x.1) else s
    | none => if had then s.endWaits n else s)

/-- CLEAN_REQUEST (R397): the primary writes the line to media at once. -/
def execCleanRequest (t : Ns) (line : BitVec 42) (s : State) : Host.Outcome State Fault Refusal :=
  let s := (s.tick t).frame
  .next (s.flushLine (s.homeSlice line.toNat) line.toNat)

/-- TWIN_RECALL (R398): answered at once, or after the settle records that came before it. -/
def execTwinRecall (t : Ns) (n : SliceId) (s : State) : Host.Outcome State Fault Refusal :=
  let s := (s.tick t).frame
  .next (if s.twin.st = .paired then (s.onTwin fun w => { w with recallDue := insertNat n.val w.recallDue }).recallsGo else s)

/-! ### Forwarding (R387) -/

/-- The answer of a forwarded message that no header is kept for. -/
def State.answerFwd (s : State) (i tag p : Nat) (a : Bool × Bool) : State :=
  s.toTwin (.response i tag p (if a.1 then some (0, true) else none) (if a.2 then some .cmp else none) .light)

/-- FORWARDED_RECORD (R387): served as a request of the intake port of the same number; its credit stays with the port that took it. One for a partition
that has become MIRROR here goes on to its primary (R385, R417). -/
def execForwardedRecord (t : Ns) (port : IntakeId) (m : M2S) (op : ReqOp) (data : Line) (be : Quad) (s : State) : Host.Outcome State Fault Refusal :=
  let s := (s.tick t).frame
  let i := port.val
  let m := { m with port := port }
  let p := (s.partOf (m.offset.toNat / 64)).getD 64
  let s := s.twinIn (.intake i) 0x02
    { prio := s.prio p, tag := m.tag.toNat, host := some m.host.val, line := m.offset.toNat / 64, aux := be.toNat, data := if opRwd op then lineUnits data else [] }
  .next (if !s.mirroring ∨ (s.ip i).halted then s
  else
    match s.check m op data be true with
    | .fail c q => (s.countFail i c m.host.val op m.offset.toNat q).answerFwd i m.tag.toNat p (failAnswer op m.mf (formOf op m.mf m.mv m.snp))
    | .hold r => s.holdReq r m.tag.toNat
    | .pass r =>
      let st := s.firstPlace r
      match r.form with
      | .specRd => s.bumpIp i 3 32 32
      | .biConf => if st.goes then s.keep r .host m.tag.toNat st else s.conflict r m.tag.toNat
      | .clnEvct => if r.plate.isSome then (s.passEcho r m.tag.toNat).answerFwd i m.tag.toNat p (false, true) else s.keep r .host m.tag.toNat st
      | _ => s.keep r .host m.tag.toNat st)

/-- The answer to the forwarded request `k` of host port `h` leaves port `i`, its echo released first (R394), with the load of the twin's slice that
answered, or Severe while this port withholds credits (R97); its credit returns (R387). A BIConflict's is its acknowledgement (R122). The answer to a
request that the twin had forwarded here goes back to it (R417). -/
def State.forwardAnswer (s : State) (i tag : Nat) (k : Kept) (h : Nat) (drs : Option (Line × Bool)) (ndr : Option NdrKind) (load : DevLoad) : State :=
  let s := (s.release i k.req.echo).unkeep i tag
  if k.req.fwd then (s.toTwin (.response i k.cxl k.req.part drs ndr load)).drainPart k.req.part
  else
    let load := if s.withheld h then .severe else load
    let s := if k.req.form == .biConf then s.send (.conflictAck i h k.req.line load) else s
    let s := match drs with
      | some d => s.send (.drs i h k.cxl d.1 d.2 load)
      | none => s
    let s := match ndr with
      | some a => s.send (.ndr i h k.cxl a load)
      | none => s
    (s.returnCredit h (formWrite k.req.form)).drainPart k.req.part

/-- FORWARDED_RESPONSE (R387): the primary's answer leaves the intake port that forwarded the request, which its intake tag names. -/
def execForwardedResponse (t : Ns) (port : IntakeId) (tag : Nat) (drs : Option (Line × Bool)) (ndr : FwdNdr) (s : State) :
    Host.Outcome State Fault Refusal :=
  let s := (s.tick t).frame
  let i := port.val
  .next (match s.kept? i tag with
    | some k =>
      match k.st, k.req.host with
      | .fwd _, some h => s.forwardAnswer i tag k h drs ndr.kind ndr.load
      | _, _ => s
    | none => s)

/-- FORWARD_HOLD_TIMEOUT (R387): 5 ms during a split without a takeover. -/
def execForwardHoldTimeout (t : Ns) (port : IntakeId) (tag : Nat) (s : State) : Host.Outcome State Fault Refusal :=
  let s := s.tick t
  .next (match s.kept? port.val tag with
    | some k =>
      match k.st with
      | .fwd t0 => if !s.forwards k.req.part ∧ t0 + 5000000 ≤ s.now then ((s.failKept port.val k).holdStore port.val).drainPart k.req.part else s
      | _ => s
    | none => s)

/-! ### The power-fail notice (R604) -/

/-- POWER_FAIL_NOTICE (R604). -/
def execPowerFailNotice (t : Ns) (s : State) : Host.Outcome State Fault Refusal :=
  let s := (s.tick t).frame
  .next (s.onTwin fun w => { w with peerFail := some s.now })

/-- POWER_FAIL_NOTICE_TIMEOUT (R604): 50 µs without an own warning. -/
def execPowerFailNoticeTimeout (t : Ns) (s : State) : Host.Outcome State Fault Refusal :=
  let s := s.tick t
  .next (match s.twin.peerFail with
    | some t0 =>
      if s.pwr.fail.isNone ∧ !s.pwr.pfWarn ∧ t0 + 50000 ≤ s.now then
        let s := s.onTwin fun w => { w with peerFail := none }
        if s.twin.st = .paired ∨ s.twin.st = .resyncSource ∨ s.twin.st = .resyncTarget then s.abdicated else s
      else s
    | none => s)

/-! ### The twin commands (R649) -/

/-- STATE of NCH_TWN_STATUS (R423). -/
def TwSt.code : TwSt → Nat
  | .unpaired => 0
  | .seeking => 1
  | .paired => 2
  | .split => 3
  | .resyncSource => 4
  | .resyncTarget => 5
  | .abdicated => 6

/-- NCH_TWN_STATUS (R423). A SPLIT block that is ABDICATED for the partitions it does not own shows ABDICATED, which makes TWIN_STATUS report them
unavailable (R410, R649; DESIGN CHOICE, log 59). -/
def State.twnStatus (s : State) : Nat :=
  let w := s.twin
  let st := if w.st = .split ∧ w.abdParts ≠ 0 then TwSt.abdicated else w.st
  st.code + 8 * b2n w.linkUp + 16 * b2n s.hbOk + 32 * b2n s.twinLevel + 64 * b2n w.stale + 128 * b2n w.tk.isSome + 256 * b2n w.peerDown

/-- NCH_TWN_RESYNC (R425): marked tracts, or at a target those still to be received. -/
def State.twnResync (s : State) : Nat := ((if s.twin.st = .resyncTarget then s.twin.toGet else s.twin.split.length) + 15) / 16

/-- TWIN_STATUS (R649). -/
def execTwinStatus (t : Ns) (c : Mbx) (s : State) : Host.Outcome State Fault Refusal :=
  .next ((s.tick t).command c 0xC141 (mgmt 0) fun s =>
    (.done 0 (leBytes 4 s.twnStatus ++ leBytes 8 s.twin.roles.toNat ++ leBytes 4 s.twnResync
      ++ leBytes 2 (sumOf (fun (x : Nat × Slice) => x.2.banks.held.length) s.slices) ++ zeros 2 ++ leBytes 8 s.lastLoss ++ leBytes 4 s.twin.takeovers), s))

/-- TWIN_DRILL (R420, R649): intake stops and the twin is handed the service. -/
def execTwinDrill (t : Ns) (c : Mbx) (s : State) : Host.Outcome State Fault Refusal :=
  .next ((s.tick t).command c 0xC142 { mgmt 0 with bg := some .none } fun s =>
    let armed := (List.range 16).any fun k => (s.slot k).arm && !(s.slot k).ended && (s.slot k).kind == 7
    if s.twin.st ≠ .paired ∨ armed then (.done 7 [], s)
    else (.started .twinDrill 2, (State.each (fun i s => s.onIp i fun q => { q with halted := true }) (List.range 16) s).toTwin (.abdicate true)))

/-- BLOCK_RESTART (R649). -/
def execBlockRestart (t : Ns) (c : Mbx) (s : State) : Host.Outcome State Fault Refusal :=
  .next ((s.tick t).command c 0xC144 (mgmt 0) fun s =>
    if s.twin.st = .abdicated ∨ s.twin.abdParts ≠ 0 ∨ s.pwr.readyOff then (.done 0 [], s.send .restart) else (.done 7 [], s))

end Sys2Proof.Machine
end

