-- ==== Sys2Proof/Machine/Heat.lean ====
section
/-! DEFINITION. The Bolometer (R443 to R449): notes, heat tables, quantile sketches, cold lists and the cold scan; and map records and moves of
the twin's (R436, R458). -/

namespace Sys2Proof.Machine

/-! ### Heat tables (R444 to R446) -/

/-- The heat stook of a tract (R444). -/
def heatStook (tract : Nat) : Nat := stookOf (sliceOf (tract * 1024))

/-- The stook that keeps a tract's heat: its heat stook, or the neighbour that has the duties of a fenced one (R180). -/
def State.heatHome (s : State) (tract : Nat) : Nat := s.duty (heatStook tract)

/-- The keys of a tract's set in the heat table (R445). -/
def heatKeys (tract : Nat) : List Nat := (List.range 16).map fun w => tract % 1024 * 16 + w

/-- The heat entry of a tract and its key. -/
def Stook.heatOf (q : Stook) (tract : Nat) : Option (Nat × HeatEnt) :=
  (heatKeys tract).findSome? fun k =>
    match Tbl.find q.heat k with
    | some e => if e.tract = tract then some (k, e) else none
    | none => none

/-- The heat of a tract (R445). -/
def State.heatAt (s : State) (tract : Nat) : Nat := (((s.stk (s.heatHome tract)).heatOf tract).map fun x => x.2.heat).getD 0

/-- A FAST tract is offered to the cold list (R449): the 256 of lowest heat stay. -/
def Stook.offer (q : Stook) (tract p heat : Nat) : Stook :=
  { q with cold := (sortBy (fun (x : Nat × Nat × Nat) => x.2.2) ((tract, p, heat) :: q.cold.filter fun x => x.1 != tract)).take 256 }

/-- A note's count is added to its tract's heat (R445); a replaced FAST entry goes to the cold list (R449). -/
def Stook.addHeat (q : Stook) (n : Note) : Stook :=
  match q.heatOf n.tract with
  | some (k, e) => { q with heat := Tbl.set q.heat k { e with heat := min 255 (e.heat + n.count), fast := n.fast, part := n.part } }
  | none =>
    let new : HeatEnt := ⟨n.tract, n.part, n.fast, min 255 n.count⟩
    match (heatKeys n.tract).find? fun k => (Tbl.find q.heat k).isNone with
    | some k => { q with heat := Tbl.set q.heat k new }
    | none =>
      let low := minOf (fun k => ((Tbl.find q.heat k).map fun e => e.heat).getD 0) 0 (heatKeys n.tract)
      match (heatKeys n.tract).find? fun k => (Tbl.find q.heat k).any fun e => e.heat == low with
      | some k =>
        let q := match Tbl.find q.heat k with
          | some e => if e.fast then q.offer e.tract e.part e.heat else q
          | none => q
        { q with heat := Tbl.set q.heat k new }
      | none => q

/-- R446: every heat and every marker halves; FAST entries that reach 0 are offered to the cold list (R449). -/
def Stook.halve (q : Stook) : Stook :=
  let zero := (q.heat.filter fun x => x.2.fast && x.2.heat / 2 == 0).map Prod.snd
  let q := { q with heat := Tbl.mapv (fun (e : HeatEnt) => { e with heat := e.heat / 2 }) q.heat, marks := q.marks.map fun m => m / 2 }
  zero.foldl (fun q e => q.offer e.tract e.part 0) q

/-! ### The quantile sketch (R447, R448) -/

/-- The target quantiles in thousandths (R447). -/
def quantiles : List Nat := [5, 10, 20, 50, 100, 200, 300, 400, 500, 600, 700, 800, 900, 950, 990, 995]

/-- A quarter of a fraction in thousandths, in 1/256; the rounding is the configuration's. -/
def sketchStep (k q : Nat) : Nat := q * 64 / 1000 + (if q * 64 % 1000 ≠ 0 ∧ Config.sketchUp k then 1 else 0)

/-- One observation moves a marker, in 1/256 (R447). -/
def moveMarker (k q m x : Nat) : Nat :=
  if m < 256 * x then min (255 * 256) (m + sketchStep (2 * k) q) else if 256 * x < m then m - sketchStep (2 * k + 1) (1000 - q) else m

/-- One observation feeds the 16 markers (R447). -/
def Stook.feed (q : Stook) (x : Nat) : Stook :=
  { q with marks := (List.range 16).map fun k => moveMarker k (quantiles.getD k 0) (q.marks.getD k 0) x }

/-- Q10 (R448); the sketch of a fenced stook is its neighbour's (R180). -/
def State.q10 (s : State) : Nat := sumOf (fun k => ((s.stk (s.duty k)).marks.getD 4 0) / 256) (List.range 16) / 16

/-! ### Windows (R325, R444 to R449) -/

/-- A note reaches the stook that keeps its tract's heat: work of the stook's controller (R444, R47). -/
def State.putNote (s : State) (k : Nat) (n : Note) : State := (s.stookWork k).onStk k fun q => { q with got := q.got ++ [n] }

/-- HEAT_NOTE (R444, R180): a note reaches a heat stook. -/
def execHeatNote (t : Ns) (k : StookId) (note : HeatNote) (s : State) : Host.Outcome State Fault Refusal :=
  let s := s.tick t
  .next (s.putNote (s.duty k.val) ⟨note.tract.toNat, note.part.val, note.fast, note.count⟩)

/-- The notes of every slice go to their heat stooks (R444). -/
def State.sendNotes (s : State) : State :=
  State.each (fun (x : Nat × Slice) s =>
    (State.each (fun (n : Note) s => s.putNote (s.heatHome n.tract) n) x.2.front.notes s).onFront x.1 fun f => { f with notes := [] })
    (s.slices.filter fun x => !x.2.front.notes.isEmpty) s

/-- A stook at the end of a window (R445, R447): heats, then the sketch, then the cold list's known heats; `half` where a window whose
number is a multiple of 8 begins (R446). The changed tracts feed the sketch in the order of the heat table (DESIGN CHOICE, log 59). -/
def Stook.window (q : Stook) (half : Bool) : Stook :=
  let old := fun (t : Nat) => ((q.heatOf t).map fun x => x.2.heat).getD 0
  let r := q.got.foldl Stook.addHeat q
  let changed := r.heat.filter fun x => x.2.fast && old x.2.tract != x.2.heat
  let r := changed.foldl (fun r x => r.feed x.2.heat) r
  let r := { r with got := [], cold := sortBy (fun (x : Nat × Nat × Nat) => x.2.2) (r.cold.map fun x => (x.1, x.2.1, ((r.heatOf x.1).map fun e => e.2.heat).getD x.2.2)) }
  if half then r.halve else r

/-- The window ends at stook controller `k`, but a fenced one: work where notes have come or a heat is not zero (R445, R47). -/
def State.stookWindow (s : State) (k : Nat) (half : Bool) : State :=
  let q := s.stk k
  if q.fenced then s
  else
    let s := if q.got.isEmpty && q.heat.all fun x => x.2.heat == 0 then s else s.stookWork k
    s.onStk k fun q => q.window half

/-- HEAT_WINDOW_END (R325, R444 to R447): once at each whole millisecond. -/
def execHeatWindowEnd (t : Ns) (s : State) : Host.Outcome State Fault Refusal :=
  let s := s.tick t
  let w := s.now / 1000000
  .next (if w ≤ s.place.window then s
  else
    let s := s.sendNotes
    (State.each (fun k s => s.stookWindow k (w % 8 == 0)) (List.range 16) s).onPlace fun q => { q with window := w })

/-- The next 16 provisioned map pages of the cold scan, of 512 tracts each (R449). -/
def State.scanPages (s : State) : List Nat :=
  let pages := ((s.place.map.filter fun x => meState x.2 != 0).map fun x => x.1 / 512).eraseDups
  ((pages.filter fun g => s.place.scanAt ≤ g) ++ pages.filter fun g => g < s.place.scanAt).take 16

/-- The cold tracts of those pages: on fast media and without heat (R449). -/
def State.scanTracts (s : State) : List (Nat × Quad) :=
  s.place.map.filter fun x => meState x.2 != 0 && s.scanPages.contains (x.1 / 512) && (s.mp (mePort x.2)).fast && ((s.stk (s.heatHome x.1)).heatOf x.1).isNone

/-- COLD_SCAN (R449, R47): the next 16 provisioned map pages, of 512 tracts each, in round-robin order. -/
def execColdScan (t : Ns) (s : State) : Host.Outcome State Fault Refusal :=
  let s := s.tick t
  .next (if !s.place.scanEn then s
  else
    match s.scanPages.getLast? with
    | some g => (State.each (fun (x : Nat × Quad) s => (s.stookWork (s.heatHome x.1)).onStk (s.heatHome x.1) fun q => q.offer x.1 (mePart x.2) 0) s.scanTracts s).onPlace fun q => { q with scanAt := g + 1 }
    | none => s)

/-! ### Map records (R436) -/

/-- A map write of the twin for a partition that is PRIMARY there (R436, R430); the ledgers follow the placement. A move of a tract that is released is
dropped. -/
def State.mapTake (s : State) (tr : Nat) (entry : Quad) : State :=
  if !meOk tr entry then s
  else
    let s := match s.mapEntry tr with
      | some e => if mePort e = mePort entry ∧ meTract e = meTract entry then s else s.setLedger (mePort e) (meTract e) (if meState e = 6 then 3 else 0)
      | none => s
    if meState entry = 0 then
      let s := match s.openMv tr with
        | some v => s.dropMove v
        | none => s
      (s.onPlace fun q => { q with map := Tbl.del q.map tr, map2 := Tbl.del q.map2 tr }).allBanks fun b => { b with tbuf := b.tbuf.filter fun v => v.1 != tr }
    else
      ((s.setLedger (mePort entry) (meTract entry) 1).onPlace fun q => { q with map := Tbl.set q.map tr entry, map2 := Tbl.set q.map2 tr entry }).allBanks fun b =>
        { b with tbuf := b.tbuf.map fun v => if v.1 = tr then (tr, entry) else v }

/-- START of a move in a block (R459): the engine holds the move, every intake port holds T with g, and each of T's slices opens its moving record. -/
def State.openMove (s : State) (v : Move) : State :=
  let s := s.onPlace fun q => { q with moves := q.moves ++ [v] }
  let s := State.each (fun i s => s.onIp i fun q => { q with moving := Tbl.set q.moving v.tract v.gen }) (List.range 16) s
  (State.each (fun n s => s.onBanks n fun b =>
    { b with moves := b.moves ++ [⟨v.tract, n, v.old, v.new, v.gen, 0, false, [], [], false, 0⟩] }) (tractSlices v.tract).eraseDups s).bumpPlc 4 0 32

/-- A move of the twin's engine is carried out here too (R458): N is USED, and the move starts. -/
def State.joinMove (s : State) (tr : Nat) (old new : Nat × Nat) (g : Nat) (retire : Bool) : State :=
  if s.place.moves.any fun v => v.tract == tr then s
  else (s.setLedger new.1 new.2 1).openMove ⟨tr, old, new, g, .start, if retire then .retire else .spread, [], false, [], 0, false, false⟩

/-- What the twin's engine tells about a tract takes effect (R436, R458, R461): a copied move of the twin's joins its batch. -/
def State.mapMsg (s : State) (tr : Nat) : MapMsg → State
  | .entry e => s.mapTake tr e
  | .move old new g retire => s.joinMove tr (old.1.val, old.2) (new.1.val, new.2) g.toNat retire
  | .batch b => s.onPlace fun q => { q with moves := q.moves.map fun v => if v.tract = tr ∧ !v.own ∧ v.phase = .copied then { v with batch := b, phase := .commit } else v }
  | .abandon =>
    match s.openMv tr with
    | some v => s.dropMove v
    | none => s

/-- MAP_RECORD (R436, R430, R458). -/
def execMapRecord (t : Ns) (tract : BitVec 32) (entry : MapMsg) (s : State) : Host.Outcome State Fault Refusal :=
  let s := (s.tick t).frame
  .next (if !s.mirroring then s else s.mapMsg tract.toNat entry)

end Sys2Proof.Machine
end

