-- ==== Sys2Proof/Machine/Helio.lean ====
section
/-! DEFINITION. Heliostat and tract moves (R450 to R470): the round, the phases of a move, and the commands that add or remove a port or mend
a tract (R645, R650). -/

namespace Sys2Proof.Machine

/-! ### Starting a move (R459) -/

/-- The tract can be moved: placed, not FROZEN, and with no move in progress (R451, R466). -/
def State.movable (s : State) (tract : Nat) : Bool :=
  !(s.place.moves.any fun v => v.tract == tract) && !s.isFrozen tract
    && match s.mapEntry tract with
      | some e => meState e == 1 || meState e == 3 || meState e == 6
      | none => false

/-- A move of the last 100 ms abandoned the tract (R461). -/
def State.cooling (s : State) (tract : Nat) : Bool := (Tbl.find s.place.aband tract).any fun t => s.now < t + 100000000

/-- The counter of a move's reason (R690). -/
def State.countMove (s : State) : MvWhy → State
  | .promote => s.bumpPlc 2 0 32
  | .demote => s.bumpPlc 2 32 32
  | .swap => s.bumpPlc 3 0 32
  | .spread => s.bumpPlc 3 32 32
  | .retire => s.bumpPlc 6 48 16
  | .drain => s

/-- START (R459): N is USED, STATE is MOVING or SHARED_MOVING, every intake port holds T with g, each slice opens its moving record, and the
twin is told (R458). `new` has been allocated. -/
def State.startMove (s : State) (tract : Nat) (new : Nat × Nat) (why : MvWhy) : State :=
  match s.mapEntry tract with
  | none => s
  | some e =>
    let g := meGen e
    let old := (mePort e, meTract e)
    let s := s.putMap tract (mkEntry tract old.1 old.2 g (if mePlates e = 0 then 2 else 4) (mePlates e) (mePart e))
    let why' := if meState e = 6 then .retire else why
    let s := (s.openMove ⟨tract, old, new, g, .start, why', [], false, [], 0, false, true⟩).countMove why
    if s.twin.st = .paired then s.toTwin (.moveStart tract old new g (why' == .retire)) else s

/-- What is left of a round: moves within the budget, and places among the 256 (R456). -/
structure Round where
  s : State
  left : Nat
  late : Bool
  deriving DecidableEq, Repr

/-- Issue one move to a tier, while the budget and the 256 places last (R450, R454, R456). -/
def Round.move (r : Round) (tract : Nat) (fast : Bool) (why : MvWhy) : Round :=
  if r.left = 0 ∨ !r.s.movable tract then r
  else if 256 ≤ r.s.place.moves.length then { r with late := true }
  else
    match r.s.alloc fast with
    | none => r
    | some (n, s) => { r with s := s.startMove tract n why, left := r.left - 1 }

/-- Moves of a round at a cap in per cent (R456). -/
def capMoves (cap : Nat) : Nat := cap * 204800000 / 73728

/-! ### Occupancy and candidates (R451, R452) -/

/-- A tract placed FAST or on its way there, of a partition; a tract on its way out does not count. -/
def State.fastOcc (s : State) (p : Nat) : Nat :=
  s.partTracts p (fun e => (s.mp (mePort e)).fast) + (s.place.moves.filter fun v => (s.mp v.new.1).fast && !(s.mp v.old.1).fast && (s.mapEntry v.tract).any fun e => mePart e == p && !(s.mp (mePort e)).fast).length
    - (s.place.moves.filter fun v => (s.mp v.old.1).fast && !(s.mp v.new.1).fast && (s.mapEntry v.tract).any fun e => mePart e == p && (s.mp (mePort e)).fast).length

/-- FAST_QUOTA in tracts (R452). -/
def State.quota (s : State) (p : Nat) : Nat := (s.part p).cfg.fastQuota.toNat * 16384
/-- The goal in tracts, at most the quota (R453, R476). -/
def State.goalTracts (s : State) (p : Nat) : Nat := min (s.part p).goal (s.part p).cfg.fastQuota.toNat * 16384

/-- The partitions for which this engine decides (R450). -/
def State.mine (s : State) (p : Nat) : Bool := (s.part p).st != .free && s.primary p

/-- Tracts that the map places at a tier, of partitions that satisfy a test, with their partition and heat. -/
def State.tierTracts (s : State) (fast : Bool) (f : Nat → Bool) : List (Nat × Nat × Nat) :=
  (s.place.map.filter fun x => meState x.2 != 0 && (s.mp (mePort x.2)).fast == fast && f (mePart x.2)).map fun x => (x.1, mePart x.2, s.heatAt x.1)

/-- Coldest first, the lowest tract among equals. -/
def coldFirst (l : List (Nat × Nat × Nat)) : List (Nat × Nat × Nat) := sortBy (fun (x : Nat × Nat × Nat) => x.2.2 * 2 ^ 32 + x.1) l

/-- Candidates for promotion (R451), hottest first, the lowest tract among equals: CAPACITY tracts in the heat tables. -/
def State.candidates (s : State) : List (Nat × Nat × Nat) :=
  sortBy (fun (x : Nat × Nat × Nat) => (255 - x.2.2) * 2 ^ 32 + x.1)
    ((s.tierTracts false s.mine).filter fun x => 4 ≤ x.2.2 && s.movable x.1 && !s.cooling x.1)

/-- The coldest FAST tract of a partition on the cold lists, with its heat (R452). -/
def State.coldest (s : State) (f : Nat → Bool) : Option (Nat × Nat × Nat) :=
  (coldFirst (((List.range 16).map fun k => (s.stk k).cold).flatten.filter fun x =>
    f x.2.1 && s.movable x.1 && (s.mapEntry x.1).any fun e => (s.mp (mePort e)).fast && mePart e == x.2.1)).head?

/-- A swap (R452): tract `x` leaves the fast tier for `c`, which follows only once the move of `x` has been issued, so that no partition comes
above its FAST_QUOTA (R89). -/
def Round.swap (r : Round) (x c : Nat) : Round :=
  let r' := r.move x false .swap
  if r'.left < r.left then r'.move c true .swap else r'

/-- R452: where a candidate above the threshold goes. -/
def Round.promote (r : Round) (c : Nat × Nat × Nat) : Round :=
  let s := r.s
  let p := c.2.1
  let occ := s.fastOcc p
  if occ < s.goalTracts p ∧ 0 < s.tierFree true then r.move c.1 true .promote
  else if s.goalTracts p ≤ occ then
    match s.coldest (· == p) with
    | some x => if x.2.2 < c.2.2 && occ ≤ s.quota p then r.swap x.1 c.1 else r
    | none => r
  else
    match s.coldest fun q => s.goalTracts q < s.fastOcc q with
    | some x => r.swap x.1 c.1
    | none => r

/-! ### Spreading, role moves, K_p (R453 to R455) -/

/-- Codeword traffic of the last 100 ms (R454). -/
def MPort.traffic100 (q : MPort) : Nat := q.traffic + sumOf id q.past

/-- CAPACITY ports of the pool. -/
def State.capPorts (s : State) : List Nat := below 32 fun m => (s.mp m).present && !(s.mp m).fast

/-- R454: rounds in a row in which a port's traffic exceeds the mean by more than 25 %. -/
def State.countOver (s : State) : State :=
  let ps := s.capPorts
  let sum := sumOf (fun m => (s.mp m).traffic100) ps
  State.each (fun m s => s.onMp m fun q => { q with overRounds := if 5 * sum < 4 * ps.length * q.traffic100 then q.overRounds + 1 else 0 }) ps s

/-- R454: an overloaded port's hottest tracts go to other ports of the tier, at most 1 % of the budget. -/
def Round.spread (r : Round) (budget : Nat) : Round :=
  let ms := r.s.capPorts.filter fun m => 10 ≤ (r.s.mp m).overRounds
  let hot := sortBy (fun (x : Nat × Nat × Nat) => (255 - x.2.2) * 2 ^ 32 + x.1)
    ((r.s.tierTracts false r.s.mine).filter fun x => (r.s.mapEntry x.1).any fun e => ms.contains (mePort e))
  (hot.take (budget / 100)).foldl (fun (r : Round) x =>
    match r.s.mapEntry x.1 with
    | some e =>
      if r.left = 0 ∨ !r.s.movable x.1 ∨ r.s.cooling x.1 ∨ r.s.allocPort false = some (mePort e) then r else r.move x.1 false .spread
    | none => r) r

/-- R455: role moves of partitions whose requests arrive mostly as forwarded records; at most one in 10 s each. -/
def State.roleMoves (s : State) : State :=
  if !s.place.roleEn ∨ s.twin.st ≠ .paired then s
  else
    State.each (fun p s =>
      let q := s.part p
      let a := q.reqs + sumOf Prod.fst q.hist
      let f := q.fwds + sumOf Prod.snd q.hist
      let armed := s.mer.slots.any fun x => x.2.arm && !x.2.ended && x.2.kind == 7 && x.2.param % 64 == p
      let soon := q.lastRole.any fun t => s.now < t + 10000000000
      if !bitN s.twin.roles.toNat p || armed || soon || (Tbl.find s.twin.moves p).isSome || 10 * f ≤ 6 * a then s
      else
        let r := s.engineArm 7 1 p
        if r.1 then r.2.onPart p fun q => { q with lastRole := some s.now } else r.2) s.parts.keys s

/-- R453: K_p after a round; `refused` are the partitions that had a candidate below the threshold. -/
def State.adjustK (s : State) (refused : List Nat) : State :=
  State.each (fun p s =>
    let occ := s.fastOcc p
    let g := s.goalTracts p
    s.onPart p fun q =>
      { q with kFactor := if g < occ then min 64 (q.kFactor + 1) else if occ + 16384 < g ∧ refused.contains p then max 8 (q.kFactor - 1) else q.kFactor })
    (s.parts.keys.filter s.mine) s

/-- The windows of R454 and R455 move on by a round. -/
def State.rollRound (s : State) : State :=
  { s with mports := Tbl.mapv (fun (q : MPort) => { q with past := (q.traffic :: q.past).take 9, traffic := 0 }) s.mports,
           parts := Tbl.mapv (fun (q : Part) => { q with hist := ((q.reqs, q.fwds) :: q.hist).take 9, reqs := 0, fwds := 0 }) s.parts }

/-! ### Draining ports (R469, R470) -/

/-- The removal instant is armed once a draining port holds no USED media tract (R470). -/
def State.armRemoval (s : State) : State :=
  State.each (fun m s =>
    let armed := s.mer.slots.any fun x => x.2.arm && !x.2.ended && x.2.kind == 8 && x.2.param % 32 == m
    if (s.mp m).countSt 1 ≠ 0 ∨ armed ∨ (s.place.moves.any fun v => v.old.1 == m || v.new.1 == m) then s else (s.engineArm 8 s.pairScope m).2)
    (below 32 fun m => (s.mp m).draining) s

/-- R469: a tract of a draining port moves to its own tier when room remains there, else to the other, within FAST_QUOTA. -/
def Round.leave (r : Round) (tract : Nat) : Round :=
  match r.s.mapEntry tract with
  | none => r
  | some e =>
    let fast := (r.s.mp (mePort e)).fast
    let other := !fast
    if 0 < r.s.tierFree fast then r.move tract fast .drain
    else if other && r.s.quota (mePart e) ≤ r.s.fastOcc (mePart e) then r
    else r.move tract other .drain

/-- The estimate goes to the command that drains the port. -/
def State.drainLeft (s : State) : State :=
  State.each (fun m s =>
    match s.bgOf fun b => b == .capRemove m with
    | some mb => s.onBox mb fun b => { b with bgLeft := s.drainMs ((s.mp m).countSt 1) }
    | none => s) (below 32 fun m => (s.mp m).draining) s

/-! ### The round (R450) -/

/-- The first moves of a round (R450): the tracts of a draining port, then the retired ones, then the demotions. -/
def State.roundFirst (s : State) : Round :=
  let leaving := (s.place.map.filter fun x => meState x.2 != 0 && (s.mp (mePort x.2)).draining && s.mine (mePart x.2)).map Prod.fst
  let r : Round := leaving.foldl Round.leave ⟨s, if leaving.isEmpty then 0 else capMoves s.place.drainCap, false⟩
  let r : Round := ⟨r.s, capMoves s.place.migCap, r.late⟩
  let bad := (r.s.place.map.filter fun x => meState x.2 == 6 && r.s.mine (mePart x.2)).map fun x => (x.1, (r.s.mp (mePort x.2)).fast)
  let r := bad.foldl (fun (r : Round) x => r.move x.1 x.2 .retire) r
  (coldFirst (r.s.tierTracts true r.s.mine)).foldl (fun (r : Round) x =>
    if r.s.quota x.2.1 < r.s.fastOcc x.2.1 ∧ !r.s.cooling x.1 then r.move x.1 false .demote else r) r

/-- The last moves of a round (R450, R452, R453): promotions of the hot candidates, then spreading. -/
def Round.finish (r : Round) (budget : Nat) : Round :=
  ((r.s.candidates.filter fun c => (r.s.part c.2.1).kFactor * r.s.q10 < 8 * c.2.2).foldl Round.promote r).spread budget

/-- The partitions whose candidates a round refuses (R452). -/
def Round.refused (r : Round) : List Nat :=
  ((r.s.candidates.filter fun c => 8 * c.2.2 ≤ (r.s.part c.2.1).kFactor * r.s.q10).map fun c => c.2.1).eraseDups

/-- The moves of a round, in R450's order. Answers the partitions with a refused candidate. -/
def State.roundMoves (s : State) : List Nat × Bool × State :=
  let r := s.roundFirst
  let x := r.finish (capMoves s.place.migCap)
  (r.refused, x.late, x.s)

/-- HELIOSTAT_ROUND (R325, R450 to R456): once at each multiple of 10 ms. A PAIR instant that found no slot is armed then (R415). -/
def execHeliostatRound (t : Ns) (s : State) : Host.Outcome State Fault Refusal :=
  let s := s.tick t
  let w := s.now / 10000000
  .next (if w ≤ s.place.round then s
  else
    let s := (s.onPlace fun q => { q with round := w }).countOver
    let s :=
      if s.place.helio then
        let r := s.roundMoves
        let s := (r.2.2.roleMoves).adjustK r.1
        s.onPlace fun q => { q with late := r.2.1 }
      else s
    (s.armBatch.armRemoval.drainLeft.armPair).rollRound)

/-! ### The phases of a move (R459 to R466) -/

/-- MOVE_START_ACK (R459): COPY begins. -/
def execMoveStartAck (t : Ns) (tract : BitVec 32) (s : State) : Host.Outcome State Fault Refusal :=
  let s := s.tick t
  let tr := tract.toNat
  .next (match s.place.moves.find? fun v => v.tract == tr && v.phase == .start with
    | none => s
    | some _ =>
      let s := s.onPlace fun q => { q with moves := q.moves.map fun v => if v.tract = tr then { v with phase := .copy } else v }
      State.each (fun n s => s.pumpCopies n) (s.slices.keys.filter fun n => (s.slc n).banks.moves.any fun r => r.tract == tr) s)

/-- MOVE_COPIED (R459, R458): all 64 slices, and the twin, have copied; T joins the open commit batch of the engine that decides the move, and the
other block of a pair reports. -/
def execMoveCopied (t : Ns) (tract : BitVec 32) (s : State) : Host.Outcome State Fault Refusal :=
  let s := s.tick t
  let tr := tract.toNat
  .next (match s.place.moves.find? fun v => v.tract == tr && v.phase == .copy with
    | none => s
    | some v =>
      if (tractSlices tr).all fun n => v.copied.contains n then
        let s := s.onPlace fun q => { q with moves := q.moves.map fun v => if v.tract = tr then { v with phase := .copied, twinOk := true } else v }
        if v.own then s.armBatch else s.toTwin (.moveCopied tr)
      else s)

/-- A request of a tract at its old generation (R464, R466). -/
def MovRec.oldReq (r : MovRec) (q : Req) : Bool := tractOf q.line == r.tract && sliceOf q.line == r.set && q.tgen == some r.gen

/-- R466: slice `n` holds no request of the record's tract at its old generation: entries, queues and parked requests. -/
def State.oldGone (s : State) (n : Nat) (r : MovRec) : Bool :=
  let f := (s.slc n).front
  !((f.queue ++ f.parked ++ f.cq).any r.oldReq)
    && !(f.ents.any fun x => (r.oldReq x.2.req || (x.2.req.tgen.isNone && tractOf x.2.req.line == r.tract && sliceOf x.2.req.line == r.set
      && x.2.place.any fun p => p.2.2 == r.gen)))

/-- Slice `n` takes the commit mark of intake port `i` for every committed tract of which that port's stream holds no older request (R465). -/
def State.markCommit (s : State) (n i : Nat) : State :=
  let behind := fun (r : MovRec) => (Tbl.get [] (s.slc n).front.streams i).any r.oldReq
  s.onBanks n fun b => { b with moves := b.moves.map fun r => if r.committed ∧ !behind r then { r with marks := insertNat i r.marks } else r }

/-- The moves that have all their marks in slice `n`, and nothing of the old placement left (R466). -/
def State.drainedHere (s : State) (n : Nat) : List MovRec :=
  (s.slc n).banks.moves.filter fun r => r.committed && !r.drained && 16 ≤ r.marks.length && s.oldGone n r

/-- Slice `n`'s part of a move is drained (R466); once all are, the block tells the twin. -/
def State.moveDrained (s : State) (n : Nat) (r : MovRec) : State :=
  let s := (s.onBanks n fun b => { b with moves := b.moves.map fun x => if x.tract = r.tract ∧ x.set = r.set then { x with drained := true } else x }).onPlace fun q =>
    { q with moves := q.moves.map fun v => if v.tract = r.tract then { v with drained := insertNat r.set v.drained } else v }
  if s.twin.st = .paired ∧ (s.place.moves.any fun v => v.tract == r.tract && (tractSlices r.tract).all fun k => v.drained.contains k) then
    s.toTwin (.moveDrained r.tract)
  else s

/-- COMMIT_MARK (R465, R466): slice `n` takes the marks of intake port `i`, behind whatever its stream still holds at the old generation. -/
def execCommitMark (t : Ns) (n : SliceId) (i : IntakeId) (s : State) : Host.Outcome State Fault Refusal :=
  let s := (s.tick t).markCommit n.val i.val
  let full := s.drainedHere n.val
  .next (if full.isEmpty then s else State.each (fun (r : MovRec) s => s.moveDrained n.val r) full (s.bumpPlc 7 24 24))

/-- A slice still has something of a tract's old placement (R466). -/
def State.moveOpen (s : State) (tr : Nat) : Bool :=
  s.slices.any fun x => x.2.banks.moves.any fun r => r.tract == tr && !r.drained && !(16 ≤ r.marks.length && s.oldGone x.1 r)

/-- A move ends: the old media tract is FREE, or RETIRED for a retirement; intake ports and slices drop the tract; its state is the one in
which it rests, or RETIRED where its new media have been retired meanwhile (R459, R471, R472). -/
def State.endMove (s : State) (v : Move) (tr : Nat) : State :=
  let bad := v.newBad || s.ledger v.new.1 v.new.2 == 3
  let s := s.setLedger v.old.1 v.old.2 (if v.why = .retire ∨ s.ledger v.old.1 v.old.2 = 3 then 3 else 0)
  let s := (s.allIps fun q => { q with moving := Tbl.del q.moving tr }).allBanks fun b => { b with moves := b.moves.filter fun r => r.tract != tr }
  let s := s.onPlace fun q => { q with moves := q.moves.filter fun w => w.tract != tr }
  match s.mapEntry tr with
  | some e => s.setTractState tr (if meState e = 5 then 5 else if bad then 6 else restState (mePlates e))
  | none => s

/-- MOVE_DONE (R459, R466, R472): O is FREE, or RETIRED for a retirement; intake ports and slices drop T; STATE returns. -/
def execMoveDone (t : Ns) (tract : BitVec 32) (s : State) : Host.Outcome State Fault Refusal :=
  let s := s.tick t
  let tr := tract.toNat
  .next (match s.place.moves.find? fun v => v.tract == tr && v.phase == .drain with
    | none => s
    | some v => if s.moveOpen tr then s else ((s.endMove v tr).bumpPlc 4 32 32).armRemoval)

/-! ### Capacity (R468, R469, R650) -/

/-- CAP_ADD (R468, R650): the ports are marked, sized as their media controllers report, and enabled; they join at the instant. -/
def execCapAdd (t : Ns) (c : Mbx) (size pairSize : Nat) (s : State) : Host.Outcome State Fault Refusal :=
  .next ((s.tick t).command c 0xC150 { mgmt 16 with rsv := [3, 4, 5, 6, 7] } fun s =>
    let m := mbByte c 0
    let map := mbByte c 2 % 2 == 1
    let x := m ^^^ 1
    if 31 < m then (.detail 4 0, s)
    else if 1 < mbByte c 1 then (.detail 4 1, s)
    else if 1 < mbByte c 2 then (.detail 4 2, s)
    else if (s.mp m).present || size == 0 || (map && (s.mapPair.isSome || (s.mp x).present || pairSize == 0)) then (.done 7 [], s)
    else
      let put := fun (m size : Nat) (s : State) => s.onMp m fun q => { q with fast := mbByte c 1 == 0, enable := true, size := size, mapPort := map }
      let s := put m size s
      let s := if map then put x pairSize s else s
      s.instCmd c.mb.val 8 s.pairScope m (mbLe c 8 8))

/-- CAP_REMOVE (R469, R470, R650). -/
def execCapRemove (t : Ns) (c : Mbx) (s : State) : Host.Outcome State Fault Refusal :=
  .next ((s.tick t).command c 0xC151 { mgmt 1 with bg := some (.port (mbByte c 0)) } fun s =>
    let m := mbByte c 0
    if 31 < m then (.detail 4 0, s)
    else if (s.mp m).mapPort || (s.mp m).draining || !(s.mp m).present then (.done 7 [], s)
    else
      let used := (s.mp m).countSt 1
      let free := sumOf s.freeHere (below 32 fun k => k != m && (s.mp k).open')
      if 100 * free < 101 * used then (.done 8 [], s)
      else
        let s := s.onMp m fun q => { q with draining := true }
        (.started (.capRemove m) (s.drainMs ((s.mp m).countSt 1)), s.armRemoval))

/-! ### Mending a tract (R645) -/

/-- The tract counts as FROZEN for TRACT_REPAIR (R440, R645). -/
def State.frozenFor (s : State) (tr : Nat) : Bool :=
  s.isFrozen tr || match s.mapEntry tr with
    | some e => !meOk tr e
    | none => false

/-- TRACT_RETHAW (R442, R645): the thaw runs once more; BACKGROUND_COMPLETE ends it. -/
def execTractRethaw (t : Ns) (c : Mbx) (s : State) : Host.Outcome State Fault Refusal :=
  .next ((s.tick t).command c 0xC112 { mgmt 8 with rsv := [1, 2, 3], bg := some .none } fun s =>
    if mbByte c 0 ≠ 0 then (.detail 4 0, s)
    else if !s.frozenFor (mbLe c 4 4) then (.done 7 [], s)
    else (.started (.rethaw (mbLe c 4 4)) 0, s))

/-- TRACT_REBUILD (R645); BACKGROUND_COMPLETE ends it. -/
def execTractRebuild (t : Ns) (c : Mbx) (s : State) : Host.Outcome State Fault Refusal :=
  .next ((s.tick t).command c 0xC112 { mgmt 8 with rsv := [1, 2, 3], bg := some .none } fun s =>
    let tr := mbLe c 4 4
    if mbByte c 0 ≠ 1 then (.detail 4 0, s)
    else if !s.frozenFor tr then (.done 7 [], s)
    else
      let fast := match s.mapEntry tr with
        | some e => meOk tr e && (s.mp (mePort e)).fast
        | none => false
      if s.tierFree fast = 0 then (.done 8 [], s) else (.started (.rebuild tr) 0, s))

/-- The rebuild of a tract (R645): new media of the tier, lines of zeros with POISON, the poison list, the old media RETIRED; an unreadable
entry takes the partition of the data range, the CAPACITY tier, and retires nothing. -/
def State.rebuild (s : State) (tr : Nat) : State :=
  let e := (s.mapEntry tr).bind fun e => if meOk tr e then some e else none
  let p := match e with
    | some e => some (mePart e)
    | none => s.partOf (tr * 1024)
  match p, s.alloc (e.any fun e => (s.mp (mePort e)).fast) with
  | some p, some ((m, mt), s) =>
    let s := match e with
      | some e => s.setLedger (mePort e) (meTract e) 3
      | none => s
    let g := match e with
      | some e => (meGen e + 1) % 16
      | none => 0
    let plates := match e with
      | some e => mePlates e
      | none => 0
    let s := (s.unlist tr).putMap tr (mkEntry tr m mt g (restState plates) plates p)
    let s := State.each (fun i s =>
      let line := tr * 1024 + i
      let s := s.dropLine (s.homeSlice line) line
      (s.media m (s.homeSlice line) .rebuilt line mt true (encodeLine 0 (mkMeta 3 0x3FF (s.dg (sliceOf line)) p true g))).addPoison p line .mediaManage) (List.range 1024) s
    (s.allBanks fun b => { b with tbuf := b.tbuf.filter fun v => v.1 != tr }).endFrozen tr
  | _, _ => s

end Sys2Proof.Machine
end

