-- ==== Sys2Proof/Machine/Scrub.lean ====
section
/-! DEFINITION. Patrol scrub (R222, R223, R538, R539), words of arrays in error and array scrub (R229 to R232, R273, R532 to R535, R540), the
lookups of a request, which meet such words (R154), and the ends of the lane recogniser's entries and of a lane's steering (R524, R525). -/

namespace Sys2Proof.Machine

/-! ### Patrol scrub -/

/-- The next place of the pass in the share of address set `n` (R538): the lines of the set in the provisioned tracts, but those of a FROZEN one
(R441); none once the share is read through. -/
def State.scrubNext (s : State) (n : Nat) : Option Nat :=
  let at' := Tbl.get 0 s.place.passAt n
  (s.place.map.filterMap fun x =>
    if meState x.2 = 0 ∨ meState x.2 = 5 ∨ (sheafLine n x.1).isNone ∨ 16 * x.1 + 16 ≤ at' then none else some (max at' (16 * x.1))).min?

/-- PATROL_SCRUB_LINE (R538, R539, R44): slice `n` reads the next line of its share on an entry of the scrub share, while host demand and drains
leave its port room. -/
def execPatrolScrubLine (t : Ns) (n : SliceId) (line : BitVec 42) (s : State) : Host.Outcome State Fault Refusal :=
  let s := s.tick t
  let n := n.val
  let l := line.toNat
  let set := sliceOf l
  .next (match s.mapEntry (tractOf l), s.freeInt n .scrub with
    | some e, some k =>
      if !s.blk.patrolEn ∨ s.homeSlice l ≠ n ∨ s.fencedSlice n ∨ s.scrubNext set ≠ some (scrubPos l) ∨ s.win.failsafe
          ∨ ((s.livePlaces n l).any fun p => s.yields p.1 true) then s
      else
        ((s.openInt n k .scrub l (mePart e) false).readInt n k l).onPlace fun q => { q with passAt := Tbl.set q.passAt set (scrubPos l + 1) }
    | _, _ => s)

/-- The share of address set `n` is read through (R538). -/
def State.shareDone (s : State) (n : Nat) : Bool := (s.scrubNext n).isNone

/-- A scrub read has not ended yet. -/
def State.scrubbing (s : State) : Bool := s.slices.any fun c => c.2.front.ents.any fun x => x.2.kind == .scrub

/-- R223, R218: the floor of set `n` becomes the generation at the pass's start; quiet generations older than it fall to it; the generation record
and the twin's copy of it follow. -/
def State.raiseFloor (s : State) (n : Nat) : State :=
  let f := Tbl.get 0 s.place.passDg n
  let old := genAge (s.dg n) f
  let keep := fun (x : Nat × Nat) => !(x.1 % 128 == n && old < genAge (s.dg n) x.2)
  ({ s with dirGen := { s.dirGen with fl := Tbl.set s.dirGen.fl n f, q := s.dirGen.q.filter keep } }.saveGen).mirrorGen n

/-- R228: host ports restored before the pass began leave the restored vectors. -/
def State.endRestored (s : State) : State :=
  let out := (s.place.restored.filter fun x => x.2 < s.place.pass).map Prod.fst
  (s.allBanks fun b => { b with restored := b.restored.filter fun h => !out.contains h }).onPlace fun q =>
    { q with restored := q.restored.filter fun x => !out.contains x.1 }

/-- R525, R539: a port's erasure entry ends with a pass that began after its steering; the next pass begins for the others. -/
def MPort.passed (q : MPort) : MPort :=
  if q.steerDone ∧ q.passOk then
    { q with steerDone := false, passOk := false, erase := q.erasePerm, eraseSym := if q.erasePerm then q.eraseSym else 0 }
  else { q with passOk := q.steerDone }

/-- The next patrol pass begins (R228, R538). -/
def State.nextPass (s : State) : State := s.onPlace fun q => { q with refresh := false, pass := q.pass + 1, passAt := [], passDg := s.dirGen.dg }

/-- PATROL_PASS_COMPLETE (R223, R228, R525, R538): the pass ends once every share is read through, and the next one begins. -/
def execPatrolPassComplete (t : Ns) (s : State) : Host.Outcome State Fault Refusal :=
  let s := s.tick t
  .next (if !s.blk.patrolEn ∨ s.scrubbing ∨ !((List.range 128).all s.shareDone) then s
  else
    let s := (State.each (fun n s => s.raiseFloor n) (List.range 128) s).endRestored
    { s with mports := Tbl.mapv MPort.passed s.mports }.nextPass)

/-! ### Filter entries that leave (R229 to R232) -/

/-- R230, R231: tracker entries that hold a line of a sheaf place their line's new record by a directory write when they settle; the record that one of
them has had from the entry is lost. -/
def State.unrecord (s : State) (n set tag : Nat) : State :=
  s.onFront n fun f =>
    { f with ents := Tbl.mapv (fun (x : Entry) =>
        if x.holds && fltSet x.req.line == set && fltTag x.req.line == tag then { x with fromDir := false, unrec := true, recLost := x.recLost || (x.hrec.isSome && !x.fromDir) } else x) f.ents }

/-- Directory writes of a record for lines of a sheaf. -/
def State.dirAll (s : State) (n base : Nat) (d : Nat × Nat) (is : List Nat) : State :=
  State.each (fun i s => (s.dirWrite n (base + i) d.1 d.2 false none none).2) is s

/-- R229: word 1 of an entry is lost: NONE for its lines in I, the doubt marker for those in S or E, and the way is free. -/
def State.lostWord1 (s : State) (n key : Nat) (e : FEntry) : State :=
  let base := sheafBase n (key / 16) e.tag
  let s := s.dirAll n base (0, 0) (below 16 fun i => e.state i == 0)
  let s := s.dirAll n base (3, 0x3FF) (below 16 fun i => e.state i == 1 || e.state i == 2)
  (s.onBanks n fun b => { b with flt := Tbl.del b.flt key }).unrecord n (key / 16) e.tag

/-- The sets that the bank of slice `n` serves (R218, R26). -/
def State.servedSets (s : State) (n : Nat) : List Nat := if s.coversBuddy n then [n, buddy n] else [n]

/-- R219, R230: DG of a set advances, or the fault is GRAVE. -/
def State.advanceOrGrave (s : State) (n set : Nat) : State :=
  if s.advLeft set = 0 then s.raiseC (srcSlc n 6) (256 + 230) (some 4) 0 0 set 0 else s.advanceDg set n

/-- R230: the sheaf of a lost entry is not known: every set that the bank serves is in doubt. -/
def State.bankLost (s : State) (n : Nat) : State := State.each (fun m s => s.advanceOrGrave n m) (s.servedSets n) s

/-- R230: word 0 of an entry is lost: with a pin the sheaf is known, and every line of it is in doubt; without one, every set of
the bank is. -/
def State.lostWord0 (s : State) (n key : Nat) (e : FEntry) : State :=
  let free := fun (s : State) => s.onBanks n fun b => { b with flt := Tbl.del b.flt key }
  if ((s.slc n).front.pins (key / 16) e.tag).isSome then
    (free (s.dirAll n (sheafBase n (key / 16) e.tag) (3, 0x3FF) (List.range 16))).unrecord n (key / 16) e.tag
  else (free s).bankLost n

/-- A word of the filter entry of a key is uncorrectable (R229, R230). VALID is lost with word 0, so that word 0 of a way that holds no entry is
lost as that of one that no tracker entry pins. -/
def State.fltLost (s : State) (n key : Nat) (word1 : Bool) : State :=
  match (s.slc n).banks.fltAt (key / 16) (key % 16) with
  | some e => (if word1 then s.lostWord1 n key e else s.lostWord0 n key e).bumpSlc n 9 48 16
  | none => if word1 then s else (s.bankLost n).bumpSlc n 9 48 16

/-- R232: the filter ways 2j and 2j + 1 leave service; entries that do not correct are treated under R229 and R230, the others leave as victims. -/
def State.fltOut (s : State) (n j : Nat) (lost : List (Nat × Bool)) : State :=
  let s := State.each (fun (x : Nat × Bool) s => s.fltLost n x.1 x.2) (lost.filter fun x => x.1 % 16 / 2 == j) s
  (s.onBanks n fun b => { b with fltOff := b.fltOff ||| (3 * 4 ^ j) }).offWork n

/-! ### Granary entries that leave (R273, R534) -/

/-- R261, R273: the data of a dirty line is lost: the line is poisoned in media and joins the poison list; the write of its directory fields ends the
line's reservations (R214). -/
def State.poisonDirty (s : State) (n key : Nat) (g : GEntry) (i : Meta) (tr : Trans) : State :=
  let s := ((s.endResv n g.line).mediaWrite n .drain g.line 0 (Meta.withPoison i true)).onBanks n fun b => { b with grn := Tbl.del b.grn key }
  ((s.addPoison (s.mapPart g.line) g.line tr).raise (srcSlc n 2) (256 + 261) g.line (s.mapPart g.line) n).giveWay n key

/-- R534: a data word, or a tag word of a record that still names its line, is lost. A line that only the twin's clean notice keeps (R396) is in
media, and its hold goes to the held-line record. -/
def State.grnLost (s : State) (n key : Nat) (tag : Bool) (tr : Trans) : State :=
  match Tbl.find (s.slc n).banks.grn key with
  | some g =>
    if !g.valid || g.st == GState.evicting then s
    else if !g.dirty then
      (s.onBanks n fun b =>
        { b with grn := Tbl.del b.grn key, held := if g.twinHeld then Tbl.set b.held g.line g.mirrorSeq else b.held }).giveWay n key
    else s.poisonDirty n key g (if tag then s.mapInfo g.line 3 0x3FF true else g.info) tr
  | none => s

/-- Whoever waits for physical way `p` of slice `n` to be filled or to be free goes on without it (R273, R239): its line bypasses the Granary, and
a recalled or mirrored line that waits for its eviction goes to media. -/
def State.wayGone (s : State) (n p : Nat) : State :=
  let there := fun (k : Nat) => k / 512 == p
  let fs := (s.slc n).banks.fills.filter fun x => there x.1 && x.2.seq.isSome
  let s := s.onBanks n fun b => { b with grn := b.grn.filter fun x => !(there x.1 && x.2.st == .filling), fills := b.fills.filter fun x => !there x.1 }
  let s := s.onFront n fun f =>
    { f with ents := Tbl.mapv (fun (x : Entry) =>
        match x.way with
        | .filling k | .evicting k => if there k then { x with way := .bypass } else x
        | _ => x) f.ents }
  (State.each (fun (x : Nat × Fill) s => s.endWait n ⟨none, x.2.line, s.mapPart x.2.line, some x.2⟩) fs s).endWaits n

/-- R273: a physical way leaves service: its dirty lines that correct are written to media, those that do not are poisoned, and its group loses a
logical way. -/
def State.wayOut (s : State) (n p : Nat) (lost : List (Nat × Bool)) (tr : Trans) : State :=
  let s := s.onBanks n fun b => { b with grnOff := b.grnOff ||| 2 ^ p }
  let s := (State.each (fun (x : Nat × Bool) s => s.grnLost n x.1 x.2 tr) (lost.filter fun x => x.1 / 512 == p) s).wayGone n p
  let mine := (s.slc n).banks.grn.filter fun x => x.1 / 512 == p && x.2.valid && x.2.st != GState.evicting
  State.each (fun (x : Nat × GEntry) s =>
    if x.2.isDirty then
      (s.onBanks n fun b => b.onGrn x.1 fun g => { g with st := .evicting }).mediaWrite n (.evict x.1 x.2.line) x.2.line x.2.data x.2.info
    else s.onBanks n fun b => { b with grn := Tbl.del b.grn x.1 }) mine s

/-- A subarray leaves service (R232, R273, R535). -/
def State.subOut (s : State) (kind u sub : Nat) (lost : List (Nat × Bool)) (tr : Trans) : State :=
  match kind with
  | 2 => s.fltOut u (sub % 8) lost
  | 3 | 4 => s.wayOut u sub lost tr
  | _ => s

/-! ### Array scrub -/

/-- The array belongs to a stook (R530). -/
def ArrayKind.ofStook (kind : Nat) : Bool := kind == 6

/-- The stook whose log and recogniser take an array's corrections (R530, R535). -/
def arrayStook (kind u : Nat) : Nat := if kind = 6 then u % 16 else u / 8

/-- The kind bits of an array event's detail: subarray and array. -/
def arrayBits (kind sub : Nat) : Nat := sub + 16 * (if kind < 5 then kind - 2 else 3)

/-- Source of an array event: corrected words, or uncorrectable words and bitlines (R554). -/
def arraySrc (kind u : Nat) (hard : Bool) : Nat := if kind = 6 then srcStk (u % 16) (b2n hard) else srcSlc u (if hard then 7 else 0)

/-- The subarray is out of service; filter ways are read on until their last entry has left (R232). -/
def State.arrayOut (s : State) (kind u sub : Nat) : Bool :=
  match kind with
  | 2 => bitN (s.slc u).banks.fltOff (2 * (sub % 8)) && !((s.slc u).banks.flt.any fun x => x.2.valid && x.1 % 16 / 2 == sub % 8)
  | 3 | 4 => bitN (s.slc u).banks.grnOff sub
  | 5 => s.fencedSlice u
  | _ => (s.stk (u % 16)).fenced

/-- R536: the repair record of a subarray's column, its spare-used bit clear. -/
def repairOf (kind u sub col : Nat) : Nat := kind - 2 + 8 * (if kind = 6 then 0x70 + u % 16 else u) + 1024 * sub + 16384 * col

/-- R535: a correction enters the column recogniser; the answer says that the column is a broken bitline. -/
def Stook.column (q : Stook) (kind u sub col row now : Nat) : Bool × Stook :=
  let same := fun (c : ColEnt) => c.kind == kind && c.unit == u && c.sub == sub && c.col == col
  let fresh := fun (r : Nat × Nat) => r.1 != row && now < r.2 + 100000000
  let rows := match q.cols.find? same with
    | some c => (c.rows.filter fresh) ++ [(row, now)]
    | none => [(row, now)]
  let rest := q.cols.filter fun c => !same c && c.rows.any fun r => now < r.2 + 100000000
  if 3 ≤ rows.length then (true, { q with cols := rest }) else (false, { q with cols := rest ++ [⟨kind, u, sub, col, rows⟩] })

/-- R534, R535: a correctable word is corrected, written back and logged, in the stook that has its stook's duties (R180); three rows of one column
make a broken bitline. -/
def State.arrayCe (s : State) (w : ArrayWord) (lost : List (Nat × Bool)) (tr : Trans) : State :=
  let kind := w.kind.val
  let u := w.unit.val
  let sub := w.sub.val
  let row := w.row
  let word := w.word.val
  let bit := w.bit.val
  let k := s.duty (arrayStook kind u)
  let addr := row * 4 + word
  let s := (s.logCe k kind u bit sub addr 1).onStk k fun q =>
    { q with ceLog := q.ceLog.map fun e => if e.kind = kind ∧ e.unit = u ∧ e.addr = addr then { e with wb := true } else e }
  let s := if kind = 6 then s.bumpStk k 7 32 32 else s.bumpSlc u 11 (16 * (kind - 2)) 16
  let s := s.raiseC (arraySrc kind u false) (256 + 534) none addr 0 u (arrayBits kind sub)
  let c := (s.stk k).column kind u sub (4 * bit + word) row s.now
  let s := s.onStk k fun _ => c.2
  if c.1 then
    let s := s.subOut kind u sub lost tr
    let r := repairOf kind u sub (4 * bit + word)
    let s := s.onBlk fun b => { b with repairs := if b.repairs.contains r then b.repairs else b.repairs ++ [r] }
    s.raiseC (arraySrc kind u true) (256 + 535) none addr 0 u (arrayBits kind sub)
  else s

/-- R534: an uncorrectable word is handled by its array's owner, and the event is raised; other arrays are fenced by Winnow. -/
def State.arrayUe (s : State) (w : ArrayWord) (tr : Trans) : State :=
  let kind := w.kind.val
  let u := w.unit.val
  let sub := w.sub.val
  let s := if kind = 6 then s else s.bumpSlc u 13 16 16
  let s := match kind with
    | 2 => s.fltLost u (w.row * 16 + 2 * (sub % 8) + w.word.val / 2) (w.word.val % 2 == 1)
    | 3 => s.grnLost u (sub * 512 + w.row / 2) false tr
    | 4 => s.grnLost u (sub * 512 + w.row) true tr
    | _ => s
  s.raiseC (arraySrc kind u true) (256 + 534) none (w.row * 4 + w.word.val) 0 u (arrayBits kind sub)

/-- What an access to a word of an array finds is treated (R534). -/
def State.wordFault (s : State) (w : ArrayWord) (fault : WordFault) (tr : Trans) : State :=
  match fault with
  | .clean => s
  | .correctable lost => s.arrayCe w lost tr
  | .uncorrectable => s.arrayUe w tr

/-- A lookup meets a word in error (R229, R230, R534). -/
def State.meets (s : State) (err : Option (ArrayWord × WordFault)) (tr : Trans) : State :=
  match err with
  | some x => s.wordFault x.1 x.2 tr
  | none => s

/-- Array scrub reads a word: it is on, and the word's array, subarray and unit are in service (R540). -/
def State.scrubbed (s : State) (w : ArrayWord) : Bool :=
  s.blk.arrayEn && 2 ≤ w.kind.val && !s.arrayOut w.kind.val w.unit.val w.sub.val && (w.kind.val == 6 || !s.fencedSlice w.unit.val)

/-- Array scrub is work of its unit, which wakes for it (R49). -/
def State.wakeFor (s : State) (kind u : Nat) : State :=
  if kind = 6 then (if (s.stk (u % 16)).fallow then s.stookWork (u % 16) else s)
  else if (s.slc u).fallow then s.rouse u
  else s

/-- ARRAY_SCRUB_WORD (R540): a word of an array in service. -/
def execArrayScrubWord (t : Ns) (w : ArrayWord) (fault : WordFault) (s : State) : Host.Outcome State Fault Refusal :=
  let s := s.tick t
  .next (if !s.scrubbed w then s
  else ((s.wakeFor w.kind.val w.unit.val).bumpStk (s.duty (arrayStook w.kind.val w.unit.val)) 5 0 64).wordFault w fault .mediaScrub)

/-! ### Lookups that meet a word in error (R154, R229, R534) -/

/-- FILTER_LOOKUP_DONE (R99, R154, R207, R212, R229): an entry word in error that the lookup meets is treated first. -/
def execFilterLookupDone (t : Ns) (n : SliceId) (l : Lookup) (s : State) : Host.Outcome State Fault Refusal :=
  let s := s.tick t
  let n := n.val
  let e := l.entry
  .next (match s.ent n e with
    | none => s
    | some x =>
      if x.kind != .host || (x.st != .lookup && x.grnDone) || x.fltDone || (s.slc n).banks.inSpill x.req.line then s
      else
        let s := s.meets l.err (Form.trans x.req.form)
        let x := (s.ent n e).getD x
        match ((s.slc n).banks.fltWay x.req.line).bind fun w => (s.slc n).banks.fltAt (fltSet x.req.line) w with
        | some f => (s.putEnt n e { x with fltDone := true, hrec := f.recOf (inSheaf x.req.line) }).serve n e
        | none => (s.fltMiss n e x).serve n e)

/-- GRANARY_LOOKUP_DONE (R154, R247, R254, R320, R534): a word in error that the lookup meets is treated first. At an EVICTING way a read is served from
the entry, and any other request waits, since it may change the line (R254). -/
def execGranaryLookupDone (t : Ns) (n : SliceId) (l : Lookup) (s : State) : Host.Outcome State Fault Refusal :=
  let s := s.tick t
  let n := n.val
  let e := l.entry
  .next (match s.ent n e with
    | none => s
    | some x =>
      let line := x.req.line
      if x.kind != .host || x.fail.isSome || x.grnDone || (s.slc n).banks.fillPending line then s
      else
        let s := s.meets l.err (Form.trans x.req.form)
        let x := (s.ent n e).getD x
        let b := (s.slc n).banks
        if s.isFrozen (tractOf line) then
          if formWrite x.req.form && s.thawing (tractOf line) then s.putEnt n e { x with st := .fetch }
          else (s.putEnt n e { x with grnDone := true }).fail n e .frozen
        else
        match x.req.plate.map fun j => s.winVal x.req.part j line with
        | some (.copy m mt) => (s.putEnt n e { x with grnDone := true, place := some (m, mt, 0) }).media m n (.read e) line mt false 0
        | some .lost => (s.putEnt n e { x with grnDone := true, base := some 0, pois := true, colourOk := true }).serve n e
        | _ =>
          match b.grnFind line with
          | some k =>
            match Tbl.find b.grn k with
            | some g => if g.st == .evicting && !formRead x.req.form then s else s.grnHit n e k x g
            | none => s
          | none => s.grnMiss n e x)

/-! ### Lanes -/

/-- LANE_ENTRY_EXPIRY (R524): LANE_WINDOW has passed since the entry's first time; a change of the recogniser is work of its stook controller (R47). -/
def execLaneEntryExpiry (t : Ns) (k : StookId) (port : MediaId) (sym : Fin 72) (bit : Fin 8) (s : State) : Host.Outcome State Fault Refusal :=
  let s := s.tick t
  let gone := fun (e : LaneEnt) => e.port == port.val && e.sym == sym.val && e.bit == bit.val && e.first + s.blk.laneWindow * 1000000 ≤ s.now
  .next (if (s.stk k.val).lanes.any gone then (s.stookWork k.val).onStk k.val fun q => { q with lanes := q.lanes.filter fun e => !gone e } else s)

/-- LANE_STEER_DONE (R525): the lane is carried by the spare lane; the erasure entry stays for a whole patrol pass. -/
def execLaneSteerDone (t : Ns) (m : MediaId) (s : State) : Host.Outcome State Fault Refusal :=
  let s := s.tick t
  let q := s.mp m.val
  .next (if q.erase ∧ !q.erasePerm ∧ !q.spareUsed then
    s.onMp m.val fun q => { q with spareUsed := true, steered := laneOf q.eraseSym, steerDone := true, passOk := false }
  else s)

end Sys2Proof.Machine
end

