-- ==== Sys2Proof/Machine/React.lean ====
section
/-! DEFINITION. Winnow at work (R548, R549, R555 to R563, R569 to R576): an event is taken and classified, and its reaction carried
out; repeats, the event line, ALIVE, the first fault, and injected events. -/

namespace Sys2Proof.Machine

/-! ### The fail-safe state (R571 to R574) -/

/-- The drain of R572 step 6: every slice hands its dirty lines over. -/
def State.drainAll (s : State) : State := State.each (fun n s => s.drainSet n fun _ => true) s.slices.keys s

/-- The rails whose good inputs must stay asserted (R573). -/
def Pwr.railsUp (p : Pwr) : Bool := p.railRet && p.railArray && p.railCore

/-- Entry to the fail-safe state (R572); a rail fault permits no drain (R573). -/
def State.failSafe (s : State) (drain : Bool) : State :=
  if s.win.failsafe then s
  else
    let s := State.each (fun i s => s.onIp i fun q => { q with halted := true }) (List.range 16) s
    let s := if s.twin.st = .paired then (s.toTwin (.abdicate false)).onTwin fun w => { w with st := .abdicated } else s
    let s := (s.onWin fun w =>
      { w with failsafe := true, failsafeN := false, graveAt := some s.now, aliveRun := false, draining := drain }).onPwr fun p => { p with st := if p.st = .halt then .halt else .failsafe }
    let s := s.abortCommands
    if drain then s.drainAll.drainOver else s

/-! ### Reactions (R551) -/

/-- R510: a plane or a VC buffer of a router is marked out. -/
def State.markPlane (s : State) : RScope → State
  | .plane x p => s.onRch fun r => { r with planeOut := Tbl.set r.planeOut x (Tbl.get 0 r.planeOut x ||| 2 ^ p) }
  | .buf x p v => s.onRch fun r => { r with bufOut := Tbl.set r.bufOut x (Tbl.get 0 r.bufOut x ||| 2 ^ (4 * p + v % 4)) }
  | _ => s

/-- Carry a reaction out over its scope (R551, R570). -/
def State.carryOut (s : State) (k : RKind) (sc : RScope) (recno src : Nat) : State :=
  match k, sc with
  | .sliceFence, .slice n => (s.fenceSlice n).takeOut sc
  | .stookFence, .stook j => (s.fenceStook j).takeOut sc
  | .subarrayOut, .subarray kind u sub => (s.subOut kind u sub [] .mediaManage).takeOut sc
  | .laneRepair, _ => s.takeOut sc
  | .portRetire, .mport m => (s.retirePort m).takeOut sc
  | .planeOut, _ => (s.markPlane sc).takeOut sc
  | .split, _ => (if src = srcTwn 3 then s.loseTwin else s).takeOut sc
  | .timeDegraded, _ => s.refuseDomain
  | .alidadeRestart, _ => ((s.onPwr fun p => { p with bootBlock := !p.bootBlock }).send .restart).takeOut sc
  | .partStop, .part p => (s.stopPart p recno).allTickets
  | .takeover, _ => s.takeOver
  | .failsafe, _ => s.failSafe (src != srcPwr 1 && s.pwr.railsUp)
  | _, _ => s

/-! ### Events -/

/-- Winnow acknowledges an event of a source, which a CREDIT packet carries (R548, R501). -/
def State.ackEvent (s : State) (src : SrcId) (q : Nat) : State :=
  let s := match srcUnit src.val with
    | some u => s.packet .winnow u 0x44 { tag := src.val, aux := q }
    | none => s
  { s with credits := s.credits ++ [CreditRef.event src (BitVec.ofNat 16 q)] }

/-- Winnow takes an event (R548, R549, R555): it is acknowledged, counted, classified and recorded, and its reaction starts. -/
def State.takeEvent (s : State) (v : Ev) : State :=
  let s := ((s.ackEvent ⟨v.src % 1536, Nat.mod_lt _ (by decide)⟩ v.seq).onWin fun w =>
    { w with taken := Tbl.set w.taken v.src v.seq }).bumpWin 5 0 64
  let c := v.cls.getD (s.srcCfg v.src).base
  let s := if v.src < 0x400 ∧ 1 ≤ c then s.endAllResv (v.src / 8) else s
  let r := s.classify v
  let s := r.2.takeLost v.src
  match r.1 with
  | some x => s.carryOut x.1 x.2.1 x.2.2 v.src
  | none => s

/-- A source that is never raised: of a gap site, or reserved in the defaults table (R547, R554). -/
def noSource (src : Nat) : Bool :=
  if src < 0x400 then false
  else if src < 0x480 then src % 8 == 7
  else if src < 0x540 then false
  else if src < 0x5A0 then gapSite ((src - 0x540) / 2)
  else (0x5AB ≤ src && src < 0x5C0) || (0x5C8 ≤ src && src < 0x5D0) || (0x5DD ≤ src && src < 0x5F0) || 0x5F8 ≤ src

/-- WINNOW_EVENT (R555): the oldest event of a source that Winnow has not taken; `raised` is one that the source raises now. -/
def execWinnowEvent (t : Ns) (src : SrcId) (raised : Option EvIn) (s : State) : Host.Outcome State Fault Refusal :=
  let s := s.tick t
  let s := match raised with
    | some x => if noSource src.val then s else s.raiseC src.val x.kind.toNat none x.line.toNat x.part.val x.unit.val x.extra.val
    | none => s
  .next (match s.events.find? fun v => v.src == src.val && !s.evTaken v with
    | some v => s.takeEvent v
    | none => s)

/-- R548: a unit asserts its wire of the event line, and Winnow raises EVENT_PATH. -/
def State.eventLine (s : State) (unit : Nat) : State :=
  ((s.send .eventLine).bumpWin 7 0 16).raise (srcPwr 11) (256 + 548) 0 0 unit

/-- EVENT_RESEND (R548): 10 µs without an acknowledgement; Winnow discards a repeat of an event it has taken and acknowledges it again. -/
def execEventResend (t : Ns) (src : SrcId) (s : State) : Host.Outcome State Fault Refusal :=
  let s := s.tick t
  .next (match s.events.find? fun v => v.src == src.val && v.sent + 10000 ≤ s.now with
    | none => s
    | some v =>
      let k := v.repeats
      let s := { s with events := s.events.map fun (w : Ev) => if w.src = v.src ∧ w.seq = v.seq then { w with repeats := min 8 (w.repeats + 1), sent := s.now } else w }
      if 8 ≤ k then s.eventLine src.val
      else
        let s := (s.eventPacket v).bumpWin 6 32 32
        if s.evTaken v then (s.ackEvent src v.seq).bumpSrc v.src 60 4 else s)

/-- The number of a unit in an event's detail. -/
def unitNo : HsUnit → Nat
  | .slice n => n.val
  | .stook k => k.val
  | .site x => x.val
  | .intake i => i.val
  | .media m => m.val
  | _ => 0

/-- EVENT_LINE (R548). -/
def execEventLine (t : Ns) (u : HsUnit) (s : State) : Host.Outcome State Fault Refusal := .next ((s.tick t).eventLine (unitNo u))

/-- The reaction that held the event of a shadowed record back is over (R559). -/
def State.shadowOver (s : State) (q : Nat) : Bool :=
  match (s.win.recs.find? fun r => r.recno == q).bind fun r => r.parent with
  | some p => !(s.win.reacts.any fun r => r.recno == p && s.reactOn r)
  | none => true

/-- SHADOW_END (R559): the stage behind a consequential watchdog event still holds its request when the shadow ends. -/
def execShadowEnd (t : Ns) (recno : Word) (s : State) : Host.Outcome State Fault Refusal :=
  let s := (s.tick t).pruneReacts
  let q := recno.toNat
  .next (match s.win.shadowed.find? fun x => x.1 == q with
    | some x =>
      if s.shadowOver q then (s.onWin fun w => { w with shadowed := w.shadowed.filter fun y => y.1 != q }).raiseC x.2.src x.2.kind x.2.cls x.2.line x.2.part x.2.unit x.2.extra
      else s
    | none => s)

/-! ### ALIVE, the first fault, injection, the firmware watchdog -/

/-- ALIVE_TOGGLE (R34, R569). -/
def execAliveToggle (t : Ns) (s : State) : Host.Outcome State Fault Refusal :=
  let s := s.tick t
  .next (if s.win.aliveRun ∧ s.now % 500000 = 0 then s.onWin fun w => { w with alive := !w.alive } else s)

/-- FIRST_CLEAR (R562, R577). -/
def execFirstClear (t : Ns) (s : State) : Host.Outcome State Fault Refusal := .next (s.tick t).pruneReacts.clearFirst

/-- R582: the fields of a written NCH_WIN_INJECT are held, and with GO the event they name is raised. -/
def State.inject (s : State) (v : Nat) : State :=
  let src := fieldN v 0 11
  let kind := fieldN v 11 8
  let c := fieldN v 19 3
  let d := s.win.injDet
  let s := s.onWin fun w => { w with inj := (src, kind, c) }
  if bitN v 22 && src < 1536 then
    s.raiseC src kind (if c ≤ 4 then some c else none) (fieldN d 0 42) (fieldN d 42 6) (fieldN d 48 10) (fieldN d 58 6)
  else s

/-- WINNOW_INJECT (R576, R582): outside factory test mode the register is a reserved location, whose writes do nothing (R22); in the fail-safe state a
write is ignored and counted (R574, R671). -/
def execWinnowInject (t : Ns) (v : Word) (s : State) : Host.Outcome State Fault Refusal :=
  let s := s.tick t
  .next (if !s.pwr.factory then s
    else if s.win.failsafe then
      let u := s.bumpWin 7 16 16
      { u with ignLast := Tbl.set u.ignLast 0x020014 0x020040 }
    else s.inject v.toNat)

/-- ALIDADE_WATCHDOG (R554): Alidade is restarted from the active boot block. -/
def execAlidadeWatchdog (t : Ns) (s : State) : Host.Outcome State Fault Refusal :=
  let s := (s.tick t).raise (srcFw 4) (256 + 554) 0 0 0
  .next (s.onPwr fun p => { p with bootBlock := ((s.selector.map fun x => x.2.2).getD p.bootBlock) })

end Sys2Proof.Machine
end

