-- ==== Sys2Proof/Machine/Unit.lean ====
section
/-! DEFINITION. Handshake watchdogs and fallow (R36 to R53), ENERGY_OK and write-through (R262 to R265), NCH_GRN_CTL (R266, R272, R274) and
scratch (R267 to R271). -/

namespace Sys2Proof.Machine

/-! ### Watchdogs (R37, R39) -/

/-- The source of a unit's handshake-watchdog event; none for a unit whose hand-offs the watchdog does not cover (R39). -/
def hsSource : HsUnit → Option Nat
  | .slice n => some (srcSlc n.val 4)
  | .stook k => some (srcStk k.val 2)
  | .site x => some (srcRch x.val 1)
  | .intake i => some (srcIp i.val 3)
  | .meridian => some (srcMer 7)
  | .winnow => some (srcPwr 12)
  | _ => none

/-- The unit is fallow (R38). -/
def State.unitFallow (s : State) : HsUnit → Bool
  | .slice n => (s.slc n.val).fallow
  | .stook k => (s.stk k.val).fallow
  | .site x => s.rch.fallow.contains x.val
  | _ => false

/-- When a unit last woke from fallow (R38). -/
def State.wokeAt (s : State) : HsUnit → Nat
  | .slice n => (s.slc n.val).woke
  | .stook k => (s.stk k.val).woke
  | .site x => Tbl.get 0 s.rch.woke x.val
  | _ => 0

/-- The watchdog of a stage that waits on unit `on` since `since` has reached NCH_BLK_HS_WDOG (R36): of a hand-off between the block's own circuits
(R39), counted from when `on` was awake (R38). -/
def State.hsLate (s : State) (on : HsUnit) (since : Nat) : Bool :=
  (hsSource on).isSome && !s.unitFallow on && max since (s.wokeAt on) + 1000 * s.blk.hsWdog ≤ s.now

/-- HANDSHAKE_WATCHDOG (R36 to R39): a stage still waits on the unit that it raised its request to: the event of the stage's unit; the
stage's work stands. -/
def execHandshakeWatchdog (t : Ns) (u : HsWait) (s : State) : Host.Outcome State Fault Refusal :=
  let s := s.tick t
  .next (match hsSource u.unit with
    | some k => if s.hsLate u.on u.since.toNat then s.raise k (256 + 37) 0 0 0 else s
    | none => s)

/-! ### Fallow (R46 to R53) -/

/-- A scheduled instant falls within the next 20 µs (R46). -/
def State.instantNear (s : State) : Bool :=
  s.mer.slots.any fun x => x.2.arm && (x.2.st == .armed || x.2.st == .confirmed) && x.2.time ≤ s.now + 20000

/-- A ring write to a unit's window is pending (R46, R47). -/
def State.ringTo (s : State) (lo hi : Nat) : Bool := s.blk.ring.any fun r => lo ≤ r.off && r.off < hi

/-- R46: the slice is idle. -/
def State.sliceIdle (s : State) (n : Nat) : Bool :=
  let c := s.slc n
  let f := c.front
  f.ents.isEmpty && f.queue.isEmpty && f.parked.isEmpty && f.cq.isEmpty && (f.streams.all fun x => x.2.isEmpty)
    && !s.ringTo (0x200000 + 0x4000 * n) (0x204000 + 0x4000 * n) && !s.instantNear && (!c.banks.wt || c.banks.drained)

/-- SLICE_FALLOW_ENTRY (R46, R53). -/
def execSliceFallowEntry (t : Ns) (n : SliceId) (s : State) : Host.Outcome State Fault Refusal :=
  let s := s.tick t
  let c := s.slc n.val
  .next (if s.sliceIdle n.val ∧ !c.fallow ∧ c.phase ≠ Phase.fenced ∧ (s.stk (stookOf n.val)).fallowEn ∧ c.busyAt + 100000 ≤ s.now then
    (s.bumpStk (stookOf n.val) 0 0 32).onSlc n.val fun c => { c with fallow := true, busyAt := s.now }
  else s)

/-- A takeover that controller `k` coordinates has not reached its replay (R47, R174). -/
def State.takeoverDuty (s : State) (k : Nat) : Bool :=
  (List.range 128).any fun n => s.duty (stookOf (buddy n)) == k && (s.coverOf n).any fun v => !v.serving

/-- STOOK_FALLOW_ENTRY (R47, R53). -/
def execStookFallowEntry (t : Ns) (k : StookId) (s : State) : Host.Outcome State Fault Refusal :=
  let s := s.tick t
  let q := s.stk k.val
  .next (if q.fallowEn ∧ !q.fallow ∧ q.busyAt + 100000 ≤ s.now ∧ ((List.range 8).all fun i => (s.slc (8 * k.val + i)).fallow)
      ∧ !s.takeoverDuty k.val ∧ !s.ringTo (0x100000 + 0x10000 * k.val) (0x110000 + 0x10000 * k.val) then
    (s.bumpStk k.val 0 32 32).onStk k.val fun q => { q with fallow := true, busyAt := s.now }
  else s)

/-- R48: no packet has entered any port of a router for 100 µs, and none stands in it. -/
def State.routerIdle (s : State) (x : Nat) : Bool :=
  !gapSite x && Tbl.get 0 s.rch.entered x + 100000 ≤ s.now && s.rch.bufs.all fun b => 32768 ≤ b.1 || b.1 / 512 != x

/-- ROUTER_FALLOW_ENTRY (R48). -/
def execRouterFallowEntry (t : Ns) (x : SiteId) (s : State) : Host.Outcome State Fault Refusal :=
  let s := s.tick t
  .next (if s.routerIdle x.val then s.onRch fun r => { r with fallow := insertNat x.val r.fallow } else s)

/-- UNIT_WAKE (R49, R52). -/
def execUnitWake (t : Ns) (u : HsUnit) (s : State) : Host.Outcome State Fault Refusal :=
  let s := s.tick t
  .next (match u with
    | .slice n => s.rouse n.val
    | .stook k => s.stookWork k.val
    | .site x => s.rouseSites [x.val]
    | _ => s)

/-! ### ENERGY_OK (R262 to R265, R52) -/

/-- The slice's Granary is write-through (R262). -/
def State.mustWt (s : State) (n : Nat) : Bool := !s.pwr.energy || (s.slc n).banks.ctl.wtForce

/-- A slice becomes write-through and drains its dirty lines (R263, R52). -/
def State.goWt (s : State) (n : Nat) : State :=
  let c := s.slc n
  if c.phase = Phase.fenced ∨ c.banks.wt then s
  else if c.fallow ∧ c.banks.dirty = 0 then s.onSlc n fun c => { c with wtOnWake := true }
  else ((s.rouse n).onBanks n fun b => { b with wt := true }).drainSet n fun _ => true

/-- A slice is write-back again where nothing forces write-through (R265); completions that waited are looked at. -/
def State.leaveWt (s : State) (n : Nat) : State :=
  if s.mustWt n then s
  else ((s.onBanks n fun b => { b with wt := false }).onSlc n fun c => { c with wtOnWake := false }).settleUp n

/-- ENERGY_OK_FALL (R31, R263). -/
def execEnergyOkFall (t : Ns) (s : State) : Host.Outcome State Fault Refusal :=
  let s := s.tick t
  .next (if !s.pwr.energy then s
  else
    let s := (s.onPwr fun p => { p with energy := false }).raise (srcPwr 4) (256 + 263) 0 0 0
    State.each (fun n s => s.goWt n) (List.range 128) s)

/-- ENERGY_OK_RISE (R265). -/
def execEnergyOkRise (t : Ns) (s : State) : Host.Outcome State Fault Refusal :=
  let s := s.tick t
  .next (if s.pwr.energy then s else State.each (fun n s => s.leaveWt n) (s.slices.map Prod.fst) (s.onPwr fun p => { p with energy := true }))

/-! ### Scratch bytes -/

/-- A byte of scratch written at its address; a zero byte leaves the list (R272). -/
def cellSet : List Host.Cell → Nat → Byte → List Host.Cell
  | [], a, b => if b = 0 then [] else [(a, b)]
  | c :: r, a, b =>
    if a = c.1 then (if b = 0 then r else (a, b) :: r)
    else if a < c.1 then (if b = 0 then c :: r else (a, b) :: c :: r)
    else c :: cellSet r a b

/-- A byte of scratch; a byte that is not listed is zero (R272). -/
def cellGet : List Host.Cell → Nat → Byte
  | [], _ => 0
  | c :: r, a => if a = c.1 then c.2 else cellGet r a

/-- Bytes written from an address on. -/
def cellsSet : List Host.Cell → Nat → List Byte → List Host.Cell
  | m, _, [] => m
  | m, a, b :: r => cellsSet (cellSet m a b) (a + 1) r

/-- Bytes read from an address on. -/
def cellsGet (m : List Host.Cell) : Nat → Nat → List Byte
  | 0, _ => []
  | k + 1, a => cellGet m a :: cellsGet m k (a + 1)

/-- The canonical form of the scratch bytes: addresses strictly rising, and no byte that is zero listed (R272). -/
def Memory.wf : List Host.Cell → Bool
  | [] => true
  | c :: r => c.2 != 0 && (r.all fun d => decide (c.1 < d.1)) && Memory.wf r

/-- The key of an offset of a scratch region. -/
def scratchKey (way off : Nat) : Nat := way * 2 ^ 22 + off

/-- The slice that holds a scratch offset's line, or its primary copy (R269). -/
def scratchSlice (off : Nat) : Nat := off / 64 % 128

/-- The way holds the second copies of a mirrored pair (R268, R269). -/
def scratchSecond (way : Nat) : Bool := way == 1 || way == 4 || way == 6 || way == 8 || way == 10

/-! ### NCH_GRN_CTL (R266, R272) -/

/-- The fields of a written NCH_GRN_CTL word (R274). -/
def grnCtlOf (v : Nat) : GrnCtl := ⟨BitVec.ofNat 2 v, BitVec.ofNat 4 (fieldN v 2 4), bitN v 6⟩

/-- The word is valid (R266). -/
def GrnCtl.ok (c : GrnCtl) : Bool := 2 ≤ c.carve.toNat && c.carve.toNat ≤ 12 && c.groups ≤ 16 - c.carve.toNat

/-- The slice that holds the copy of a scratch line in a way (R269): a way that has the second copies of a pair holds them in the buddy slices. -/
def scratchHome (way off : Nat) : Nat := if scratchSecond way then buddy (scratchSlice off) else scratchSlice off

/-- The scratch bytes of ways `lo ≤ k < hi` that slice `n` holds are zero (R272). -/
def clearCells (n lo hi : Nat) (m : List Host.Cell) : List Host.Cell :=
  m.filter fun c => !(lo ≤ c.1 / 2 ^ 22 && c.1 / 2 ^ 22 < hi && scratchHome (c.1 / 2 ^ 22) (c.1 % 2 ^ 22) == n)

/-- The map cache loses the lines that slice `n` holds in ways `lo ≤ k < hi` (R268, R272). -/
def clearCache (n lo hi : Nat) (m : Tbl Nat) : Tbl Nat :=
  m.filter fun x => !(x.1 % 128 == n && (let w := if x.1 < 65536 then 2 else 11; lo ≤ w && w < hi))

/-- NCH_GRN_CTL of a disabled slice takes a value (R266, R272): a new geometry invalidates the bank, and newly carved ways read as
zero, so that the map cache has nothing there; WT_FORCE decides write-through. -/
def State.setGrnCtl (s : State) (n : Nat) (c : GrnCtl) : State :=
  let old := (s.slc n).banks.ctl
  let lo := min old.carve.toNat c.carve.toNat
  let s := { s with scratch := clearCells n old.carve.toNat c.carve.toNat s.scratch }.onPlace fun q =>
    { q with cache := clearCache n lo (max old.carve.toNat c.carve.toNat) q.cache }
  let s := s.onBanks n fun b =>
    if old.assoc = c.assoc ∧ old.carve = c.carve then { b with ctl := c } else { b with ctl := c, grn := [], waiters := [], fills := [] }
  (s.onBanks n fun b => { b with wt := !s.pwr.energy || c.wtForce }).endWaits n

/-- GRN_CTL_WRITE (R49, R266, R274): work of the slice, which wakes for it; ignored in whole and counted while the slice is enabled or when the word is not valid. -/
def execGrnCtlWrite (t : Ns) (n : SliceId) (v : Word) (s : State) : Host.Outcome State Fault Refusal :=
  let s := s.tick t
  let c := s.slc n.val
  let w := grnCtlOf v.toNat
  .next (if c.enable ∨ c.phase = Phase.quiesce ∨ c.phase = Phase.fenced ∨ !w.ok then s.ignSlc n.val (0x200010 + 0x4000 * n.val) else (s.rouse n.val).setGrnCtl n.val w)

/-! ### Scratch accesses (R267 to R271) -/

/-- The region an access names, by its first way (R268): Alidade and the walker name a way of it; a BAR offset names the partition's pair by its order
(R271); a control page is no scratch. -/
def State.scratchWay (s : State) (who : ScrWho) (way : Nat) : Option Nat :=
  match who with
  | .bar p _ => (s.part p.val).pairs[way]?
  | .page _ _ => none
  | _ => some (if scratchSecond way then way - 1 else way)

/-- Regions that are a mirrored pair (R268). -/
def scratchPair (k : Nat) : Bool := k != 2 && k != 11

/-- The region is usable: every slice has carved its ways (R267, R268). -/
def State.regionReady (s : State) (k : Nat) : Bool := s.scratchReady k && (!scratchPair k || s.scratchReady (k + 1))

/-- The copy of a line in a way can be used: its slice is not fenced (R269), and the way is in service there (R273). -/
def State.copyLive (s : State) (way off : Nat) : Bool :=
  let n := scratchHome way off
  !s.fencedSlice n && !bitN (s.slc n).banks.grnOff (15 - way)

/-- The ways that hold a region's line (R269). -/
def scratchCopies (k : Nat) : List Nat := if scratchPair k then [k, k + 1] else [k]

/-- The copies of a line that an access reaches; none where the region is not usable (R267, R270). -/
def State.copiesAt (s : State) (k off : Nat) : List Nat := if s.regionReady k then (scratchCopies k).filter fun w => s.copyLive w off else []

/-- The way whose copy a read takes (R269): the primary copy, or the second where that cannot be read. `bad` lists the ways whose word is
uncorrectable. -/
def State.copyRead (s : State) (k off : Nat) (bad : List Nat) : Option Nat := ((s.copiesAt k off).filter fun w => !bad.contains w).head?

/-- An access that is refused (R270): an access error to Alidade with its event, Completer Abort for a partition's read. -/
def State.scratchRefuse (s : State) (who : ScrWho) (write : Bool) : State :=
  match who with
  | .alidade => (s.send .accessError).raise (srcFw 2) (256 + 270) 0 0 0
  | .walker => s
  | .bar p h | .page p h => if write then s else s.send (.abort p.val h.val)

/-- R92: a host port outside the partition's host set reads zero and writes nothing; the access counts. -/
def State.scratchAlien (s : State) : ScrWho → Option Nat
  | .bar p h | .page p h => if s.member h.val p.val then none else some p.val
  | _ => none

/-- The bytes of an access lie in one line; a BAR access is one of 4 or 8 aligned bytes (R271). -/
def scratchFits (who : ScrWho) (off size : Nat) : Bool :=
  match who with
  | .bar _ _ | .page _ _ => (size == 4 || size == 8) && off % size == 0
  | _ => 0 < size && off % 64 + size ≤ 64

/-- The unit of Rachis from which a scratch access comes (R495): Alidade, the walker, or for a BAR the intake port of the host port (log 19). -/
def State.scrUnit (s : State) : ScrWho → NetUnit
  | .alidade => .alidade
  | .walker => .placement
  | .bar _ h | .page _ h => .intake (s.hp h.val).intake

/-- The packets of a scratch access to the slice of one copy (R495): an SCR for each 32 bytes, with the data of a write, and an SDATA back for each
of a read. -/
def State.scrPackets (s : State) (who : ScrWho) (way off size : Nat) (write : Bool) (data : Nat) : State :=
  let u := s.scrUnit who
  let n := NetUnit.slice (scratchHome way off)
  State.each (fun k s =>
    let d := BitVec.ofNat 256 (data / 2 ^ (256 * k))
    if write then s.packet u n 0x12 { line := off / 64, aux := way, data := [d] }
    else (s.packet u n 0x12 { line := off / 64, aux := way }).packet n u 0x63 { line := off / 64, data := [d] }) (List.range ((off % 32 + size + 31) / 32)) s

/-- A refused BAR access of another size or alignment (R271) counts as one that R92 refuses, and reads zero (DESIGN CHOICE, log 56). -/
def State.scratchOdd (s : State) (who : ScrWho) (read : Option (Nat × Nat)) : State :=
  match who with
  | .bar p _ =>
    let s := s.bumpPart p.val 0 16 32
    match read with
    | some r => s.send (.scratch r.1 r.2 0)
    | none => s
  | _ => s

/-- A read of a control page (R91 to R93): its value, or zero for a host port that is not a member, which counts. -/
def State.pageAccess (s : State) (p h way o size : Nat) : State :=
  let r := s.pageRead h p o size
  r.2.send (.scratch way o (BitVec.ofNat 512 r.1))

/-- SCRATCH_READ (R269 to R271): bytes from an offset, at most 64 and of one line; or a read of a control page (R92; log 59). -/
def execScratchRead (t : Ns) (who : ScrWho) (way : Fin 12) (off : BitVec 22) (read : ScrRead) (s : State) : Host.Outcome State Fault Refusal :=
  let s := s.tick t
  let o := off.toNat
  .next (match s.scratchAlien who with
    | some p => (s.bumpPart p 0 16 32).send (.scratch way.val o 0)
    | none =>
      match who with
      | .page p h => s.pageAccess p.val h.val way.val o read.size
      | _ =>
      if !scratchFits who o read.size then s.scratchOdd who (some (way.val, o))
      else
        match (s.scratchWay who way.val).bind fun k => s.copyRead k o read.bad with
        | none => s.scratchRefuse who false
        | some w =>
          let d := lineOf (cellsGet s.scratch read.size (scratchKey w o))
          (s.scrPackets who w o read.size false d.toNat).send (.scratch way.val o d))

/-- The bytes of a write go to every copy of the line that can be used (R269). -/
def State.scratchPut (s : State) (ws : List Nat) (off : Nat) (bs : List Byte) : State :=
  { s with scratch := ws.foldl (fun m w => cellsSet m (scratchKey w off) bs) s.scratch }

/-- SCRATCH_WRITE (R269 to R271): the first `size` bytes of `data` at an offset; or a write of a control page at another place than its doorbell, which
is the barrier rows' (R92; log 59). -/
def execScratchWrite (t : Ns) (who : ScrWho) (way : Fin 12) (off : BitVec 22) (size : Nat) (data : Line) (s : State) : Host.Outcome State Fault Refusal :=
  let s := s.tick t
  let o := off.toNat
  .next (match s.scratchAlien who with
    | some p => s.bumpPart p 0 16 32
    | none =>
      match who with
      | .page p h => s.pageWrite h.val p.val o size
      | _ =>
      if !scratchFits who o size then s.scratchOdd who none
      else
        match (s.scratchWay who way.val).map fun k => s.copiesAt k o with
        | none | some [] => s.scratchRefuse who true
        | some ws => (State.each (fun w s => s.scrPackets who w o size true data.toNat) ws s).scratchPut ws o (leBytes size data.toNat))

end Sys2Proof.Machine
end

