-- ==== Sys2Proof/Machine/Regs.lean ====
section
/-! DEFINITION. The register map (spec chapter 17): where a write goes, what it changes and when it is ignored (R664 to R681, R691 to
R709), the register ring, the masking pages, latched reads (R332) and voted fields (R680, R681). -/

namespace Sys2Proof.Machine

/-! ### The map (R664, R691, R699 to R709) -/

/-- The registers that a write can change; every other location is RO or reserved (R22, R668). -/
inductive Reg
  | blkCtl | hsWdog | snpTmo | trkAge | mediaTmo | scrubCtl | mpCtl (m : Nat) | pend (k : Nat)
  | part (p w : Nat) | winbind (p : Nat) | hpMemb (h w : Nat) | hpCredit (h : Nat)
  | merCtl | instCtl (k : Nat) | instTime (k w : Nat)
  | winCtl | almAck | inject | injDet (w : Nat) | srcCfg (src : Nat) | rchCtl | twnCtl | role (w : Nat)
  | plcCtl | plcPart (p : Nat) | margin | mbxSel | mbxHead (w : Nat) (sel : Bool) | mbxBuf (o : Nat) (sel : Bool)
  | stkPwr (k : Nat) | slcCtl (n : Nat) | grnCtl (n : Nat) | other
  deriving DecidableEq, Repr, Inhabited

/-- Registers of the base page, and of the partitions (R691, R699). -/
def regBlk (o : Nat) : Reg :=
  if o = 0x10 then .blkCtl else if o = 0x20 then .hsWdog else if o = 0x24 then .snpTmo else if o = 0x28 then .trkAge
  else if o = 0x2C then .mediaTmo else if o = 0x30 then .scrubCtl
  else if 0x180 ≤ o ∧ o < 0x200 then .mpCtl ((o - 0x180) / 4)
  else if 0x300 ≤ o ∧ o < 0x400 then .pend ((o - 0x300) / 4)
  else if 0x4000 ≤ o ∧ o < 0x5000 then
    (let w := (o - 0x4000) % 64 / 4
     if w < 8 then .part ((o - 0x4000) / 64) w else if w = 9 then .winbind ((o - 0x4000) / 64) else .other)
  else .other

/-- Registers of the other regions (R704, R705). -/
def regUnit (o : Nat) : Reg :=
  if o = 0x010000 then .merCtl
  else if 0x010100 ≤ o ∧ o < 0x010200 then
    (let w := (o - 0x010100) % 16 / 4
     let k := (o - 0x010100) / 16
     if w = 0 then .instCtl k else if w < 3 then .instTime k (w - 1) else .other)
  else if o = 0x020000 then .winCtl else if o = 0x020010 then .almAck else if o = 0x020040 then .inject
  else if o = 0x020044 then .injDet 0 else if o = 0x020048 then .injDet 1
  else if 0x024000 ≤ o ∧ o < 0x025000 then .srcCfg ((o - 0x024000) / 4)
  else if 0x028000 ≤ o ∧ o < 0x028800 then .srcCfg (0x400 + (o - 0x028000) / 4)
  else if o = 0x030000 then .rchCtl
  else if o = 0x040000 then .twnCtl else if o = 0x040008 then .role 0 else if o = 0x04000C then .role 1
  else if o = 0x050000 then .plcCtl
  else if 0x050100 ≤ o ∧ o < 0x050300 then (if o % 8 = 0 then .plcPart ((o - 0x050100) / 8) else .other)
  else if o = 0x060004 then .margin
  else if o = 0x070000 then .mbxSel
  else if 0x070040 ≤ o ∧ o < 0x070080 then .mbxHead ((o - 0x070040) / 4) false
  else if 0x070080 ≤ o ∧ o < 0x0700C0 then .mbxHead ((o - 0x070080) / 4) true
  else if 0x074000 ≤ o ∧ o < 0x075000 then .mbxBuf (o - 0x074000) false
  else if 0x078000 ≤ o ∧ o < 0x079000 then .mbxBuf (o - 0x078000) true
  else .other

/-- Registers of the host ports and of the stook and slice windows (R701, R707, R708). -/
def regTable (o : Nat) : Reg :=
  if o < 0x090000 then
    (let y := (o - 0x080000) % 0x4000
     let h := 256 * ((o - 0x080000) / 0x4000) + y / 16
     if 0x1000 ≤ y then .other
     else if y % 16 = 0 then .hpMemb h 0 else if y % 16 = 4 then .hpMemb h 1 else if y % 16 = 8 then .hpCredit h else .other)
  else if 0x100000 ≤ o ∧ o < 0x200000 then (if o % 0x10000 = 0 then .stkPwr ((o - 0x100000) / 0x10000) else .other)
  else if 0x200000 ≤ o ∧ o < 0x400000 then
    (if o % 0x4000 = 0 then .slcCtl ((o - 0x200000) / 0x4000) else if o % 0x4000 = 0x10 then .grnCtl ((o - 0x200000) / 0x4000) else .other)
  else .other

/-- The register at an offset of a base page. -/
def regAt (o : Nat) : Reg := if o < 0x010000 then regBlk o else if o < 0x080000 then regUnit o else regTable o

/-! ### Ignored writes (R677, R679) -/

/-- A write is ignored, counted in the block's counter, and its offset recorded. -/
def State.ignBlk (s : State) (o : Nat) : State := { s.bump 0x0A0A88 0 16 1 with ignLast := Tbl.set s.ignLast 0x018 o }

/-- The write is ignored and counted in the counter of the register's owning unit (R677, R679). -/
def State.ignore (s : State) (r : Reg) (o : Nat) : State :=
  let note := fun (s : State) (at' : Nat) => { s with ignLast := Tbl.set s.ignLast at' o }
  match r with
  | .mpCtl m => note (s.bumpMp m 2 48 16) 0x018
  | .part p _ | .winbind p => note (s.bumpPart p 0 0 16) (0x4028 + 64 * p)
  | .hpMemb h w => (s.bump (0x09C000 + 8 * (h / 4)) (16 * (h % 4)) 16 1).onBlk fun b => { b with hpIgn := h + 1024 * w }
  | .hpCredit h => (s.bump (0x09C000 + 8 * (h / 4)) (16 * (h % 4)) 16 1).onBlk fun b => { b with hpIgn := h + 2048 }
  | .merCtl | .instCtl _ | .instTime _ _ => s.ignMer o
  | .winCtl | .almAck | .inject | .injDet _ | .srcCfg _ => note (s.bumpWin 7 16 16) 0x020014
  | .rchCtl => note (s.bump 0x0A0A80 48 16 1) 0x030008
  | .twnCtl | .role _ => note (s.bumpTwn 7 16 16) 0x040014
  | .plcCtl | .plcPart _ => note (s.bumpPlc 7 56 8) 0x050008
  | .margin => note (s.bumpPwr 3 16 16) 0x060010
  | .stkPwr k => note (s.bumpStk k 7 0 16) (0x10000C + 0x10000 * k)
  | .slcCtl n | .grnCtl n => s.ignSlc n o
  | _ => s.ignBlk o

/-- A write to a mailbox's header or buffer is ignored and counted (R626, R705). -/
def State.ignMbx (s : State) (mb o : Nat) : State :=
  (s.bump (0x0A0A20 + 8 * (2 + mb / 8)) (8 * (mb % 8)) 8 1).onBlk fun b => { b with mbxIgn := o + 8192 * mb }

/-! ### The partition registers (R59, R699) -/

/-- Word `w` of a partition's registers, its RW fields. -/
def Part.word (q : Part) (w : Nat) : Nat :=
  let g := q.cfg
  match w with
  | 0 => g.dataBase.toNat
  | 1 => g.dataSize.toNat
  | 2 => g.winBase.toNat + 2 ^ 18 * g.winSlots.toNat + 2 ^ 22 * b2n g.visMode + 2 ^ 23 * b2n g.hold + 2 ^ 24 * g.priority.toNat
  | 3 => g.wayMask.toNat + 2 ^ 16 * g.fastQuota.toNat
  | 4 => g.trkMin.toNat + 2 ^ 7 * g.trkMax.toNat + 2 ^ 17 * g.cqMax.toNat
  | 5 => g.filterMin.toNat + 2 ^ 16 * g.filterMax.toNat
  | 6 => q.ticketBase
  | _ => q.ticketSlots

/-- The partition with word `w` of its registers written; a field outside its range takes the nearer bound (R699). -/
def Part.setWord (q : Part) (w v : Nat) : Part :=
  let on := fun (f : PartCfg → PartCfg) => { q with cfg := f q.cfg }
  match w with
  | 0 => on fun g => { g with dataBase := BitVec.ofNat 18 v }
  | 1 => on fun g => { g with dataSize := BitVec.ofNat 18 v }
  | 2 => on fun g =>
    { g with winBase := BitVec.ofNat 18 v, winSlots := BitVec.ofNat 4 (min 8 (fieldN v 18 4)), visMode := bitN v 22, hold := bitN v 23,
             priority := BitVec.ofNat 3 (fieldN v 24 3) }
  | 3 => on fun g => { g with wayMask := BitVec.ofNat 16 v, fastQuota := BitVec.ofNat 16 (fieldN v 16 16) }
  | 4 => on fun g =>
    { g with trkMin := BitVec.ofNat 7 (min 64 (fieldN v 0 7)), trkMax := BitVec.ofNat 10 (clampN 1 512 (fieldN v 7 10)),
             cqMax := BitVec.ofNat 8 (clampN 8 128 (fieldN v 17 8)) }
  | 5 => on fun g =>
    { g with filterMin := BitVec.ofNat 16 (min 8192 (fieldN v 0 16)), filterMax := BitVec.ofNat 16 (clampN 1 32768 (fieldN v 16 16)) }
  | 6 => { q with ticketBase := v % 2 ^ 32 }
  | _ => { q with ticketSlots := min 1024 (v % 2048) }

/-- The partition's registers take writes (R677): FREE, or ENABLE clear with DRAINED set. -/
def Part.takes (q : Part) : Bool := q.st == .free || ((q.st == .disabled || q.st == .stopped) && q.drained)

/-- A write of a partition register; a change clears the bits that report a refused enable (R669). -/
def State.writePart (s : State) (p w v o : Nat) : State :=
  let q := s.part p
  let q' := q.setWord w v
  if q'.word w = q.word w then s
  else if q.takes then s.onPart p fun _ => { q' with overlap := false, trkRes := false, fltRes := false }
  else s.ignore (.part p w) o

/-- NCH_BLK_PART_WINBIND written (R700). -/
def Part.setBind (q : Part) (v : Nat) : Part :=
  { q with winBind := ((List.range 8).filter fun w => bitN v (4 * w + 3)).map fun w => (w, fieldN v (4 * w) 3) }

/-! ### The host ports (R29, R69, R70, R128, R129, R701) -/

/-- Half `w` of a membership mask written; a change clears CREDIT_RESERVE (R669). -/
def State.writeMemb (s : State) (h w v o : Nat) : State :=
  let m := putField (s.hp h).memb (32 * w) 32 v
  if s.membClash h m then s.ignore (.hpMemb h w) o
  else s.onHp h fun q => { q with memb := m, credRes := q.credRes && q.memb == m }

/-- NCH_BLK_HP_CREDIT, its RW fields. -/
def HostPort.credit (q : HostPort) : Nat := q.reqCr % 2048 + 2 ^ 11 * (q.rwdCr % 1024) + 2 ^ 21 * q.intake + 2 ^ 25 * b2n q.enable

/-- NCH_BLK_HP_CREDIT written: gated while enabled; a setting of ENABLE that R129 refuses leaves it clear. -/
def State.writeCredit (s : State) (h v o : Nat) : State :=
  let q := s.hp h
  let req := clampN 1 1024 (fieldN v 0 11)
  let rwd := clampN 1 512 (fieldN v 11 10)
  let i := fieldN v 21 4
  let en := bitN v 25
  if q.enable ∧ (req ≠ q.reqCr ∨ rwd ≠ q.rwdCr ∨ i ≠ q.intake) then s.ignore (.hpCredit h) o
  else if en ∧ !q.enable ∧ s.credOver h i req rwd then s.onHp h fun q => { q with reqCr := req, rwdCr := rwd, intake := i, credRes := true }
  else s.onHp h fun q => { q with reqCr := req, rwdCr := rwd, intake := i, enable := en, credRes := false }

/-! ### Block control, media ports, pending enables -/

/-- NCH_BLK_SCRUB_CTL written (R543): the other fields only while PATROL_EN is clear. -/
def State.writeScrub (s : State) (v o : Nat) : State :=
  let b := s.blk
  let hours := rangeOr 1 168 24 (fieldN v 2 8)
  let tracts := rangeOr 2 15 4 (fieldN v 10 4)
  let window := rangeOr 1 255 10 (fieldN v 14 8)
  if b.patrolEn ∧ (hours ≠ b.patrolHours ∨ tracts ≠ b.laneTracts ∨ window ≠ b.laneWindow) then s.ignore .scrubCtl o
  else s.onBlk fun b => { b with patrolEn := bitN v 0, arrayEn := bitN v 1, patrolHours := hours, laneTracts := tracts, laneWindow := window }

/-- NCH_BLK_MP_CTL_m written (R30, R695). -/
def State.writeMp (s : State) (m v o : Nat) : State :=
  let q := s.mp m
  let en := bitN v 0
  let fast := !bitN v 1
  if q.enable ∧ (fast ≠ q.fast ∨ (!en ∧ q.ledger.any fun x => x.2 == 1)) then s.ignore (.mpCtl m) o
  else s.onMp m fun q => { q with enable := en, fast := fast }

/-- Entry `k` lies in the run of an armed ENABLE slot (R677, R697). -/
def State.inRun (s : State) (k : Nat) : Bool :=
  s.mer.slots.any fun x => x.2.kind == 6 && x.2.arm && !x.2.ended && x.2.param % 64 ≤ k &&
    !((List.range k).any fun j => x.2.param % 64 ≤ j && bitN (Tbl.get 0 s.blk.pend j) 11)

/-- A block register that takes writes only while no partition is ENABLED (R677). -/
def State.gated (s : State) (open' : Bool) (r : Reg) (o old new : Nat) (f : Blk → Blk) : State :=
  if old = new then s else if open' then s.onBlk f else s.ignore r o

/-! ### Meridian (R305, R327, R332) -/

/-- NCH_MER_CTL, its RW fields. -/
def Mer.ctl (m : Mer) : Nat := b2n m.member + 2 * b2n m.root + 4 * b2n m.steer + 8 * (m.pair % 16)

/-- DOMAIN_MEMBER and DOMAIN_ROOT take values; DOMAIN_OK is computed again (R292, R327). -/
def Mer.ctlSet (m : Mer) (member root : Bool) : Mer :=
  let n := { m with member := member, root := root }
  { n with domOk := n.domainAble && (!root || n.rootBad.isEmpty), joined := n.joined && m.member && member }

/-- NCH_MER_CTL written (R327). -/
def State.writeMer (s : State) (v o : Nat) : State :=
  if s.mer.ctl = v % 128 then s
  else if s.anyEnabled ∨ s.mer.slots.any fun x => x.2.st == .armed || x.2.st == .confirmed then s.ignMer o
  else s.onMer fun m => { m.ctlSet (bitN v 0) (bitN v 1) with steer := bitN v 2, pair := fieldN v 3 4 }

/-- NCH_MER_INST_CTL_k, its RW fields. -/
def Slot.rw (x : Slot) : Nat := x.kind + 16 * x.scope + 64 * b2n x.arm + 4096 * x.param

/-- NCH_MER_INST_CTL_k written (R297, R305). -/
def State.writeInst (s : State) (k v o : Nat) : State :=
  let x := s.slot k
  let kind := fieldN v 0 4
  let scope := fieldN v 4 2
  let param := fieldN v 12 16
  let same := kind == x.kind && scope == x.scope && param == x.param
  if x.arm then (if !same then s.ignMer o else if bitN v 6 then s else s.disarm k)
  else
    let s := if x.ended && !bitN v 6 then s.disarm k else s
    let s := s.onSlot k fun x => { x with kind := kind, scope := scope, param := param, by' := .register }
    if bitN v 6 then (s.armSlot k (leadNs scope)).2 else s

/-- A word of NCH_MER_INST_TIME_k written (R305, R332). -/
def State.writeTime (s : State) (k w v o : Nat) : State :=
  let x := s.slot k
  let t := (putField (BitVec.ofNat 64 x.time) (32 * w) 32 v).toNat
  if x.time = t then s else if x.arm then s.ignMer o else s.onSlot k fun x => { x with time := t }

/-- The words that a read of word 0 latches, with their offsets (R332). -/
def State.latched (s : State) (o : Nat) : List (Nat × Nat) :=
  if o = 0x010020 then [(o + 4, s.time % 2 ^ 32), (o + 8, s.time / 2 ^ 32)]
  else if o = 0x010030 then [(o + 4, s.mer.cur / 2 ^ 32)]
  else if o = 0x010038 then [(o + 4, s.mer.pairSealed / 2 ^ 32)]
  else if o = 0x010040 then [(o + 4, if s.mer.member then s.mer.domSealed / 2 ^ 32 else 0)]
  else
    match regAt o with
    | .instTime k 0 => [(o + 4, (s.slot k).time / 2 ^ 32)]
    | _ => []

/-- MERIDIAN_WORD0_READ (R332): the remaining words of the register hold what they held at the read. -/
def execMeridianWord0Read (t : Ns) (off : BitVec 24) (s : State) : Host.Outcome State Fault Refusal :=
  let s := s.tick t
  .next (s.onMer fun m => { m with latch := (s.latched off.toNat).foldl (fun l x => Tbl.set l x.1 x.2) m.latch })

/-! ### Twin, placement, Winnow -/

/-- NCH_TWN_CTL written (R422): before start-up step 8, or with nothing changed (R677); ENABLE needs a pairing. -/
def State.writeTwn (s : State) (v o : Nat) : State :=
  let w := s.twin
  if bitN v 0 = w.enable ∧ bitN v 1 = w.takeoverEn ∧ rangeOr 1 20 10 (fieldN v 2 5) = w.resyncCap then s
  else if s.twin.step8 then s.ignore .twnCtl o
  else s.onTwin fun w =>
    { w with enable := bitN v 0 && w.pairing.isSome, takeoverEn := bitN v 1, resyncCap := rangeOr 1 20 10 (fieldN v 2 5) }

/-- NCH_TWN_ROLE_LO or _HI written (R424): only while the partitions whose bits change are not ENABLED. -/
def State.writeRole (s : State) (w v o : Nat) : State :=
  let r := putField s.twin.roles (32 * w) 32 v
  if (List.range 64).any fun p => bitN (r ^^^ s.twin.roles).toNat p && (s.part p).st == .enabled then s.ignore (.role w) o
  else s.onTwin fun x => { x with roles := r }

/-- NCH_PLC_CTL, its RW fields. -/
def Place.ctl (q : Place) : Nat := b2n q.helio + 2 * b2n q.roleEn + 4 * (q.migCap % 32) + 128 * (q.drainCap % 32) + 4096 * b2n q.scanEn

/-- NCH_PLC_CTL written (R474): the caps and SCAN_EN only while HELIO_EN is clear. -/
def State.writePlc (s : State) (v o : Nat) : State :=
  let q := s.place
  let mig := rangeOr 1 20 2 (fieldN v 2 5)
  let drain := rangeOr 1 20 10 (fieldN v 7 5)
  if q.helio ∧ (mig ≠ q.migCap ∨ drain ≠ q.drainCap ∨ bitN v 12 ≠ q.scanEn) then s.ignore .plcCtl o
  else s.onPlace fun q => { q with helio := bitN v 0, roleEn := bitN v 1, migCap := mig, drainCap := drain, scanEn := bitN v 12 }

/-- A source's classification fields (R580). -/
def SrcCfg.word (c : SrcCfg) : Nat := c.base + 8 * c.ceiling + 64 * c.n + 16384 * c.wms

/-- NCH_WIN_SRC_CFG of a source written (R580): while CFG_OPEN is set, or with nothing changed (R677). -/
def State.writeSrc (s : State) (src v o : Nat) : State :=
  let c : SrcCfg := ⟨fieldN v 0 3, fieldN v 3 3, fieldN v 6 8, fieldN v 14 16⟩
  if c.read = s.srcCfg src then s
  else if s.win.cfgOpen then s.onWin fun w => { w with cfg := Tbl.set w.cfg src c }
  else s.ignore (.srcCfg src) o

/-- NCH_RCH_CTL written (R514): before start-up step 4, or with nothing changed (R677). -/
def State.writeRch (s : State) (v o : Nat) : State :=
  if bitN v 0 = s.rch.statsEn ∧ max 16 (fieldN v 1 8) = s.rch.ageGrants then s
  else if 4 ≤ s.pwr.step then s.ignore .rchCtl o else s.onRch fun r => { r with statsEn := bitN v 0, ageGrants := max 16 (fieldN v 1 8) }

/-! ### Power, mailboxes, windows -/

/-- A target margin as it is read (R619): two's complement, −8 to 8. -/
def marginOf (v : Nat) : Int := let x : Int := if fieldN v 0 5 < 16 then fieldN v 0 5 else (fieldN v 0 5 : Int) - 32; max (-8) (min 8 x)

/-- NCH_PWR_MARGIN written (R592, R619). -/
def State.writeMargin (s : State) (v : Nat) : State := s.onPwr fun p => { p with target := marginOf v }

/-- A buffer with four bytes written at an offset. -/
def putBytes (l : List Byte) (o : Nat) (bs : List Byte) : List Byte :=
  let l := l ++ List.replicate (o + bs.length - l.length) 0
  l.take o ++ bs ++ l.drop (o + bs.length)

/-- The mailbox of a window (R705). -/
def State.windowBox (s : State) (sel : Bool) : Nat := if sel then s.blk.mbxSel else 65

/-- A header word of a mailbox written (R626, R706): OPCODE and IN_LEN, BG_ABORT, TAG. The setting of DOORBELL is the command's own
row (log 12). -/
def State.writeHead (s : State) (w v : Nat) (sel : Bool) : State :=
  let mb := s.windowBox sel
  let b := s.box mb
  let abort := fun (s : State) => if w = 1 ∧ bitN v 26 then s.onBox mb fun b => if b.bgRun then { b with bgAbort := true } else b else s
  if b.doorbell then (if w = 1 ∧ bitN v 26 then abort s else s.ignMbx mb (4 * w))
  else
    match w with
    | 0 => s.onBox mb fun b => { b with opcode := fieldN v 0 16, inLen := fieldN v 16 16 }
    | 1 => abort s
    | 3 => s.onBox mb fun b => { b with tag := v % 2 ^ 32 }
    | _ => s

/-- Four bytes of a mailbox's payload buffer written (R626, R706). -/
def State.writeBuf (s : State) (o v : Nat) (sel : Bool) : State :=
  let mb := s.windowBox sel
  if (s.box mb).doorbell then s.ignMbx mb (4096 + o) else s.onBox mb fun b => { b with payload := putBytes b.payload o (leBytes 4 v) }

/-- PREPARE of NCH_SLC_CTL written (R185, R188, R709). -/
def State.writeSlc (s : State) (n v o : Nat) : State :=
  if bitN v 1 = (s.slc n).prepare then s
  else if !bitN v 1 then s.unprepare n
  else if (s.slc (buddy n)).phase ≠ Phase.run then s.ignSlc n o
  else if (s.slc n).phase = Phase.run then ((((s.rouse n).onSlc n fun c => { c with prepare := true, phase := .prepare }).endWaits n).spillFreed n).handStep n
  else s

/-- NCH_GRN_CTL written (R266, R274). -/
def State.writeGrn (s : State) (n v o : Nat) : State :=
  let c := s.slc n
  let w := grnCtlOf v
  if w = c.banks.ctl then s
  else if c.enable ∨ c.phase = Phase.quiesce ∨ !w.ok then s.ignSlc n o
  else s.setGrnCtl n w

/-! ### One write (R666 to R671, R677) -/

/-- The RW and RWV fields of a register, for the masking pages (R666). -/
def State.regValue (s : State) (r : Reg) : Nat :=
  match r with
  | .blkCtl => s.blk.ringMode
  | .hsWdog => s.blk.hsWdog
  | .snpTmo => s.blk.snpTmo
  | .trkAge => s.blk.trkAge
  | .mediaTmo => s.blk.readTmo + 2048 * s.blk.writeTmo
  | .scrubCtl => b2n s.blk.patrolEn + 2 * b2n s.blk.arrayEn + 4 * s.blk.patrolHours + 1024 * s.blk.laneTracts + 16384 * s.blk.laneWindow
  | .mpCtl m => b2n (s.mp m).enable + 2 * b2n (!(s.mp m).fast)
  | .pend k => Tbl.get 0 s.blk.pend k
  | .part p w => (s.part p).word w
  | .winbind p => (s.part p).bindWord
  | .hpMemb h w => fieldN (s.hp h).memb.toNat (32 * w) 32
  | .hpCredit h => (s.hp h).credit
  | .merCtl => s.mer.ctl
  | .instCtl k => (s.slot k).rw
  | .instTime k w => fieldN (s.slot k).time (32 * w) 32
  | .almAck => s.win.ack
  | .inject => s.win.inj.1 + 2 ^ 11 * s.win.inj.2.1 + 2 ^ 19 * s.win.inj.2.2
  | .injDet w => fieldN s.win.injDet (32 * w) 32
  | .srcCfg src => (s.srcCfg src).word
  | .rchCtl => b2n s.rch.statsEn + 2 * s.rch.ageGrants
  | .twnCtl => b2n s.twin.enable + 2 * b2n s.twin.takeoverEn + 4 * s.twin.resyncCap
  | .role w => fieldN s.twin.roles.toNat (32 * w) 32
  | .plcCtl => s.place.ctl
  | .plcPart p => (s.part p).goal
  | .margin => (BitVec.ofInt 5 s.pwr.target).toNat
  | .mbxSel => s.blk.mbxSel
  | .stkPwr k => b2n (s.stk k).fallowEn
  | .slcCtl n => 2 * b2n (s.slc n).prepare
  | .grnCtl n => s.grnCtl n
  | _ => 0

/-- The register takes a write of the fail-safe state (R574, R671): the mailboxes', and Winnow's acknowledgement. -/
def Reg.served : Reg → Bool
  | .mbxSel | .mbxHead _ _ | .mbxBuf _ _ | .almAck | .other => true
  | _ => false

/-- Winnow's injection registers (R582). -/
def Reg.injects : Reg → Bool
  | .inject | .injDet _ => true
  | _ => false

/-- Winnow's injection registers are there in factory test mode alone (R576). -/
def State.writeInj (s : State) (r : Reg) (v : Nat) : State :=
  if !s.pwr.factory then s
  else
    match r with
    | .injDet w => s.onWin fun x => { x with injDet := (putField (BitVec.ofNat 64 x.injDet) (32 * w) 32 v).toNat }
    | _ => s.inject v

/-- A write of value `v` to a register, whose offset is `o`. -/
def State.regWrite (s : State) (r : Reg) (o v : Nat) : State :=
  if s.win.failsafe && !r.served && !(r.injects && !s.pwr.factory) then s.ignore r o
  else
    match r with
    | .blkCtl => s.onBlk fun b => { b with ringMode := if fieldN v 0 2 = 1 then 1 else 0 }
    | .hsWdog => let x := rangeOr 5 1000 10 (fieldN v 0 10); s.gated (!s.anyEnabled) r o s.blk.hsWdog x fun b => { b with hsWdog := x }
    | .snpTmo => let x := rangeOr 10 1000 50 (fieldN v 0 10); s.gated (!s.anyEnabled) r o s.blk.snpTmo x fun b => { b with snpTmo := x }
    | .trkAge => let x := rangeOr 2 50 5 (fieldN v 0 6); s.gated (!s.anyEnabled) r o s.blk.trkAge x fun b => { b with trkAge := x }
    | .mediaTmo =>
      let x := rangeOr 10 1000 50 (fieldN v 0 10)
      let y := rangeOr 10 1000 200 (fieldN v 11 10)
      s.gated (!(s.mports.any fun q => q.2.enable)) r o (s.blk.readTmo + 2048 * s.blk.writeTmo) (x + 2048 * y) fun b => { b with readTmo := x, writeTmo := y }
    | .scrubCtl => s.writeScrub v o
    | .mpCtl m => s.writeMp m v o
    | .pend k => s.gated (!s.inRun k) r o (Tbl.get 0 s.blk.pend k) (v % 4096) fun b => { b with pend := Tbl.set b.pend k (v % 4096) }
    | .part p w => s.writePart p w v o
    | .winbind p => s.onPart p fun q => q.setBind v
    | .hpMemb h w => s.writeMemb h w v o
    | .hpCredit h => s.writeCredit h v o
    | .merCtl => s.writeMer v o
    | .instCtl k => s.writeInst k v o
    | .instTime k w => s.writeTime k w v o
    | .winCtl => if bitN v 0 then s.pruneReacts.clearFirst else s
    | .almAck => s.onWin fun w => { w with ack := v }
    | .inject => s.writeInj r v
    | .injDet _ => s.writeInj r v
    | .srcCfg src => s.writeSrc src v o
    | .rchCtl => s.writeRch v o
    | .twnCtl => s.writeTwn v o
    | .role w => s.writeRole w v o
    | .plcCtl => s.writePlc v o
    | .plcPart p => if fieldN v 0 16 = (s.part p).goal then s else if s.place.helio then s.ignore r o else s.onPart p fun q => { q with goal := fieldN v 0 16 }
    | .margin => s.writeMargin v
    | .mbxSel => s.onBlk fun b => { b with mbxSel := min 65 (fieldN v 0 7) }
    | .mbxHead w sel => s.writeHead w v sel
    | .mbxBuf b sel => s.writeBuf b v sel
    | .stkPwr k => if bitN v 0 = (s.stk k).fallowEn then s else if s.stookOff k then s.onStk k fun q => { q with fallowEn := bitN v 0 } else s.ignore r o
    | .slcCtl n => s.writeSlc n v o
    | .grnCtl n => s.writeGrn n v o
    | .other => s

/-- The bits that a write of a masking page acts on: a WO field, GO of NCH_WIN_INJECT, is left alone (R666). -/
def aliasBits (r : Reg) (v : Nat) : Nat := if r = .inject then v % 2 ^ 22 else v

/-- A write at an offset acts on the base page or, on a masking page, on the bits written 1 (R665, R666); the mailbox region has no masking pages. -/
def State.busWrite (s : State) (o v : Nat) : State :=
  let page := o / 0x1000 % 4
  let base := o - 0x1000 * page
  let r := regAt base
  let old := s.regValue r
  if page = 0 then s.regWrite r base v
  else if (0x070000 ≤ o ∧ o < 0x080000) ∨ r = .other ∨ r = .winCtl then s
  else
    let v := aliasBits r v
    s.regWrite r base (if page = 1 then old ||| v else if page = 2 then old ^^^ (old &&& v) else old ^^^ v)

/-! ### The ring (R672 to R676) -/

/-- RING_BUSY (R673): a posted write is on the ring. -/
def State.ringBusy (s : State) : Bool := s.blk.ring.any fun r => r.posted

/-- A write to a stook or slice window begins (R672, R673). -/
def State.ringWrite (s : State) (o v : Nat) : State :=
  if s.ringBusy then s.ignBlk o
  else (s.bump 0x0A0A88 32 32 1).onBlk fun b => { b with ring := b.ring ++ [⟨b.ringMode == 1, o, BitVec.ofNat 32 v⟩] }

/-- An access of a master to the register space: naturally aligned 4-byte writes alone act (R667). -/
def State.writeAt (s : State) (o v len : Nat) : State :=
  if len ≠ 4 ∨ o % 4 ≠ 0 then s.ignBlk o else if 0x100000 ≤ o ∧ o < 0x400000 then s.ringWrite o v else s.busWrite o v

/-- REGISTER_WRITE (R667 to R678). -/
def execRegisterWrite (t : Ns) (off : BitVec 24) (v : Word) (len : Nat) (s : State) : Host.Outcome State Fault Refusal :=
  .next ((s.tick t).writeAt off.toNat v.toNat len)

/-- ALIAS_WRITE (R665, R666). -/
def execAliasWrite (t : Ns) (off : BitVec 24) (v : Word) (len : Nat) (s : State) : Host.Outcome State Fault Refusal :=
  .next ((s.tick t).writeAt off.toNat v.toNat len)

/-- A ring write reaches its unit (R675, R676): it wakes the unit; a fenced unit ignores and counts it. -/
def State.deliver (s : State) (o v : Nat) : State :=
  if o < 0x200000 then
    let k := (o - 0x100000) / 0x10000
    if (s.stk k).fenced then s.ignore (.stkPwr k) o else (s.stookWork k).busWrite o v
  else
    let n := (o - 0x200000) / 0x4000
    if s.fencedSlice n then s.ignSlc n o else (s.rouse n).busWrite o v

/-- RING_WRITE_DELIVERED (R41, R672, R673): the oldest write on the ring is delivered. -/
def execRingWriteDelivered (t : Ns) (s : State) : Host.Outcome State Fault Refusal :=
  let s := s.tick t
  .next (match s.blk.ring with
    | [] => s
    | r :: rest => (s.onBlk fun b => { b with ring := rest }).deliver r.off r.value.toNat)

/-! ### Voted fields (R680, R681) -/

/-- The offset of the register that holds a voted field. -/
def votedOff : VotedField → Nat
  | .ringMode => 0x10
  | .dataBase p => 0x4000 + 64 * p.val
  | .dataSize p => 0x4004 + 64 * p.val
  | .winBase p | .winSlots p | .visMode p => 0x4008 + 64 * p.val
  | .partEnable p => 0x4020 + 64 * p.val
  | .membLo h => 0x080000 + 0x4000 * (h.val / 256) + 16 * (h.val % 256)
  | .membHi h => 0x080004 + 0x4000 * (h.val / 256) + 16 * (h.val % 256)
  | .hpEnable h => 0x080008 + 0x4000 * (h.val / 256) + 16 * (h.val % 256)
  | .mpEnable m => 0x180 + 4 * m.val
  | .slcEnable n => 0x200000 + 0x4000 * n.val
  | .domainMember | .domainRoot => 0x010000
  | .twnEnable | .takeoverEn => 0x040000
  | .roleLo => 0x040008
  | .roleHi => 0x04000C
  | .failsafe => 0x020004

/-- The home acts on a voted value at once, whatever gates the field (R681). -/
def State.setVoted (s : State) (f : VotedField) (v : Nat) : State :=
  match f with
  | .ringMode => s.onBlk fun b => { b with ringMode := if v = 1 then 1 else 0 }
  | .dataBase p => s.onPart p.val fun q => q.setWord 0 v
  | .dataSize p => s.onPart p.val fun q => q.setWord 1 v
  | .winBase p => s.onPart p.val fun q => { q with cfg := { q.cfg with winBase := BitVec.ofNat 18 v } }
  | .winSlots p => s.onPart p.val fun q => { q with cfg := { q.cfg with winSlots := BitVec.ofNat 4 (min 8 v) } }
  | .visMode p => s.onPart p.val fun q => { q with cfg := { q.cfg with visMode := v % 2 == 1 } }
  | .partEnable p =>
    match (s.part p.val).st with
    | .enabled => if v = 0 then s.clearEnable p.val else s
    | .disabled | .draining => if v = 0 then s else s.setEnable p.val
    | _ => s
  | .membLo h => s.onHp h.val fun q => { q with memb := putField q.memb 0 32 v }
  | .membHi h => s.onHp h.val fun q => { q with memb := putField q.memb 32 32 v }
  | .hpEnable h => s.onHp h.val fun q => { q with enable := v % 2 == 1 }
  | .mpEnable m => s.onMp m.val fun q => { q with enable := v % 2 == 1 }
  | .slcEnable n => if v = 0 then s.sliceOff n.val else s.sliceOn n.val
  | .domainMember => s.onMer fun m => m.ctlSet (v % 2 == 1) m.root
  | .domainRoot => s.onMer fun m => m.ctlSet m.member (v % 2 == 1)
  | .twnEnable => s.onTwin fun w => { w with enable := v % 2 == 1 }
  | .takeoverEn => s.onTwin fun w => { w with takeoverEn := v % 2 == 1 }
  | .roleLo => s.onTwin fun w => { w with roles := putField w.roles 0 32 v }
  | .roleHi => s.onTwin fun w => { w with roles := putField w.roles 32 32 v }
  | .failsafe => s

/-- The value of a voted field (R680). -/
def State.votedVal (s : State) : VotedField → Nat
  | .ringMode => s.blk.ringMode
  | .dataBase p => (s.part p.val).cfg.dataBase.toNat
  | .dataSize p => (s.part p.val).cfg.dataSize.toNat
  | .winBase p => (s.part p.val).cfg.winBase.toNat
  | .winSlots p => (s.part p.val).cfg.winSlots.toNat
  | .visMode p => b2n (s.part p.val).cfg.visMode
  | .partEnable p => b2n ((s.part p.val).st == .enabled)
  | .membLo h => (s.hp h.val).memb.toNat % 2 ^ 32
  | .membHi h => (s.hp h.val).memb.toNat / 2 ^ 32
  | .hpEnable h => b2n (s.hp h.val).enable
  | .mpEnable m => b2n (s.mp m.val).enable
  | .slcEnable n => b2n (s.slc n.val).enable
  | .domainMember => b2n s.mer.member
  | .domainRoot => b2n s.mer.root
  | .twnEnable => b2n s.twin.enable
  | .takeoverEn => b2n s.twin.takeoverEn
  | .roleLo => s.twin.roles.toNat % 2 ^ 32
  | .roleHi => s.twin.roles.toNat / 2 ^ 32
  | .failsafe => b2n s.win.failsafe

/-- The width of a voted field (R680). -/
def votedBits : VotedField → Nat
  | .ringMode => 2
  | .dataBase _ | .dataSize _ | .winBase _ => 18
  | .winSlots _ => 4
  | .membLo _ | .membHi _ | .roleLo | .roleHi => 32
  | _ => 1

/-- A copy of a voted field in which bits have been upset since it was last written or corrected: a write puts its value in all three copies (R21), so that
a copy differs from the field's value in its upsets alone. -/
def State.votedCopy (s : State) (f : VotedField) (upset : Word) : Nat := s.votedVal f ^^^ (upset.toNat % 2 ^ votedBits f)

/-- The vote of three copies of a field (R571, R681): the value that two of them have is the field's, and a third that differs is rewritten; three that
differ raise VOTE_2. -/
def State.vote (s : State) (f : VotedField) (c0 c1 c2 : Nat) : State :=
  if c0 ≠ c1 ∧ c0 ≠ c2 ∧ c1 ≠ c2 then s.raise (srcPwr 6) (256 + 681) (votedOff f) 0 0
  else
    let v := if c0 = c1 then c0 else c2
    let s := if c0 = c1 ∧ c1 = c2 then s
      else ((s.bump 0x0A0A88 16 16 1).onBlk fun b => { b with voteLast := votedOff f }).raise (srcPwr 5) (256 + 681) (votedOff f) 0 0
    if v = s.votedVal f then s else s.setVoted f v

/-- VOTE_SWEEP (R21, R571, R681): the three copies of a voted field, with the bits upset in each, are compared. -/
def execVoteSweep (t : Ns) (f : VotedField) (c0 c1 c2 : Word) (s : State) : Host.Outcome State Fault Refusal :=
  let s := s.tick t
  .next (s.vote f (s.votedCopy f c0) (s.votedCopy f c1) (s.votedCopy f c2))

end Sys2Proof.Machine
end

