-- ==== Sys2Proof/Machine/Power.lean ====
section
/-! DEFINITION. Power, rails and start-up (spec chapter 15): the start-up sequence (R607 to R609, R220 to R225, R467), rail faults (R586 to
R591), margining (R592), the service button (R595), forced off and shutdown (R598, R611), and the power-fail sequence (R599 to R605). -/

namespace Sys2Proof.Machine

/-! ### Partition commands at their end (R643) -/

/-- What the slices hold of the lines `lo ≤ l < hi` goes: Granary entries and filter entries. -/
def State.purge (s : State) (lo hi : Nat) : State :=
  let inside := fun (l : Nat) => lo ≤ l && l < hi
  { s with slices := s.slices.map fun (x : Nat × Slice) => (x.1, { x.2 with banks := { x.2.banks with
      grn := x.2.banks.grn.filter fun g => !inside g.2.line,
      flt := x.2.banks.flt.filter fun f => !inside (sheafBase x.1 (f.1 / 16) f.2.tag) } }) }

/-- The root pointers of the tracts `lo ≤ t < hi` name no map tract (R435). -/
def State.dropRoots (s : State) (lo hi : Nat) : State :=
  s.onPlace fun q => { q with roots := q.roots.filter fun r => r.1 < lo / 8192 || hi / 8192 ≤ r.1 }

/-- PART_CREATE's provisioning is done (R643, R218). -/
def State.created (s : State) (p : Nat) : State :=
  let q := s.part p
  let s := { s with dirGen := { s.dirGen with q := s.dirGen.q.filter fun x => x.1 / 128 != p } }.saveGen
  let s := State.each (fun n s => s.mirrorGen n) (List.range 128) s
  (s.provisionAll p (q.dataLo / 1024) (q.dataLo / 1024 + q.tracts)).onPart p fun q => { q with unfinished := false }

/-- PART_RESIZE's tracts are provisioned or released at the end of the data range (R643). -/
def State.resized (s : State) (p size : Nat) : State :=
  let q := s.part p
  let lo := q.dataLo / 1024
  let old := lo + q.tracts
  let s := s.onPart p fun q => { q with cfg := { q.cfg with dataSize := BitVec.ofNat 18 size }, unfinished := false }
  let new := lo + (s.part p).tracts
  if old ≤ new then s.provisionAll p old new else ((s.purge (new * 1024) (old * 1024)).releaseAll new old).dropRoots new old

/-- A partition's live plates are gone (R637, R643). -/
def State.dropPlates (s : State) (p : Nat) : State :=
  let js := (s.part p).plates.keys
  (State.each (fun j s => s.plateWithdraw p j) js s).onPart p fun q => { q with plates := [], winBind := [] }

/-- PART_DESTROY releases every plate, scratch pair and tract, and leaves the partition FREE (R643). -/
def State.destroyed (s : State) (p : Nat) : State :=
  let q := s.part p
  let lo := q.dataLo / 1024
  let hi := lo + q.tracts
  let s := (((s.dropPlates p).purge (lo * 1024) (hi * 1024)).releaseAll lo hi).dropRoots lo hi
  s.onPart p fun q => { q with st := .free, drained := false, unfinished := false, pairs := [], reserve := 0, poison := [], poisonAt := [],
                               ticketBase := 0, ticketSlots := 0 }

/-- Background work whose progress the map region records, so that an interruption does not end it (R631). -/
def Bg.recorded : Bg → Bool
  | .partCreate _ | .partResize _ _ | .partDestroy _ _ => true
  | _ => false

/-- The partition that recorded work is about. -/
def Bg.ofPart (g : Bg) (p : Nat) : Bool :=
  match g with
  | .partCreate q | .partResize q _ | .partDestroy q _ => q == p
  | _ => false

/-- The recorded partition commands of a power-up: those left before and those that the mailboxes were running. -/
def State.leftWork (s : State) : List Bg := s.pwr.todo ++ (s.mbx.filterMap fun x => if x.2.bgRun then x.2.bg else none).filter Bg.recorded

/-- What the map region keeps of a partition over a power cycle (R637): its label storage and its shutdown state, and what a recorded command goes on
with (R631, R643). -/
def Part.kept (q : Part) (open' : Bool) : Part :=
  let r := { Part.init with lsa := q.lsa, shutdown := q.shutdown }
  if open' then { r with cfg := q.cfg, st := q.st, reserve := q.reserve, unfinished := true } else r

/-- Start-up completes the recorded partition commands (R631, R643), before step 11. -/
def State.completeWork (s : State) : State :=
  let s' := State.each (fun g s =>
    match (g : Bg) with
    | .partCreate p => s.created p
    | .partResize p n => s.resized p n
    | .partDestroy p _ => s.destroyed p
    | _ => s) s.pwr.todo s
  s'.onPwr fun p => { p with todo := [] }

/-! ### Start-up (R607) -/

/-- Power comes up (R586): everything at reset but what OTP and the map region hold, and the levels of the pins (log 18); with ENERGY_OK low every slice is
write-through (R262). -/
def State.powerUp (s : State) : State :=
  let p := { Pwr.reset with otp := s.pwr.otp, gasp := s.pwr.gasp, energy := s.pwr.energy, pfWarn := s.pwr.pfWarn, todo := s.leftWork }
  let w := { Twin.reset with linkUp := s.twin.linkUp, peerDown := s.twin.peerDown }
  let q := s.parts.map fun (x : Nat × Part) => (x.1, x.2.kept (s.leftWork.any fun g => g.ofPart x.1))
  let t := { State.reset with parts := q, pending := s.pending, now := s.now, free := s.free, out := s.out, pwr := p, twin := w, clk := { State.reset.clk with raw := s.clk.raw } }
  if s.pwr.energy then t else State.each (fun n s => s.goWt n) (List.range 128) t

/-- RAILS_GOOD (R586, R607 step 1, R31): FACTORY_MODE is sampled; every start-up time counts from here. -/
def execRailsGood (t : Ns) (factoryMode : Bool) (s : State) : Host.Outcome State Fault Refusal :=
  let s := s.tick t
  .next (if s.pwr.railsUp then s
  else s.powerUp.onPwr fun p => { p with railRet := true, railArray := true, railCore := true, goodAt := s.now, step := 2, factory := factoryMode })

/-- The value of a register-default item (R614): it replaces the register's reset value. -/
def State.defaultItem (s : State) (item v : Nat) : State :=
  match item with
  | 0 => s.regWrite .hsWdog 0x20 v
  | 1 => s.regWrite .snpTmo 0x24 v
  | 2 => s.regWrite .trkAge 0x28 v
  | 3 => s.regWrite .mediaTmo 0x2C v
  | 4 => (s.onBlk fun b => { b with patrolEn := false }).regWrite .scrubCtl 0x30 v
  | 5 => s.regWrite .plcCtl 0x050000 v
  | 6 => s.regWrite .twnCtl 0x040000 v
  | 7 => s.regWrite .rchCtl 0x030000 v
  | 8 => s.regWrite .merCtl 0x010000 v
  | _ => s

/-- A DEFAULTS record of 48 bits (R614). -/
def State.defaultRec (s : State) (r : Nat) : State :=
  match r % 4 with
  | 1 =>
    let v := fieldN r 13 30
    if fieldN r 2 11 < 1536 then s.writeSrc (fieldN r 2 11) v 0 else s
  | 2 => s.defaultItem (fieldN r 2 8) (fieldN r 10 32)
  | _ => s

/-- R380, R612: the pairing of the newest TWIN_PAIRING generation: side, twin's serial number, pairing number. -/
def pairingOf (p : Nat) : Bool × Nat × Nat := (bitN p 0, fieldN p 17 64, fieldN p 1 16)

/-- Start-up step 2 takes what OTP holds (R609, R613, R614, R659): the pairing, the overrides of the defaults, the flash password. -/
def State.otpTake (s : State) : State :=
  let s := s.onTwin fun w => { w with pairing := (s.otpUse 2).map pairingOf, enable := (s.otpUse 2).isSome }
  let s := match s.otpUse 3 with
    | some p => State.each (fun k s => s.defaultRec (fieldN p (48 * k) 48)) (List.range 46) s
    | none => s
  match s.otpUse 4 with
  | some w => s.send (.flashDirect w w)
  | none => s

/-- The voted array is taken, its disagreements are counted, and FAILSAFE_N goes high (R607 step 2, R614, R615, R33). -/
def State.otpRead (s : State) (r0 r1 r2 : BitVec 16384) : State :=
  let o := otpVote r0 r1 r2
  let s := (s.onPwr fun p => { p with otp := o, otpUsed := o, factory := p.factory && (otpNewest o 5).isNone }).otpVotes (otpDiff r0 r1 r2)
  s.onWin fun w => { w with failsafeN := !w.failsafe }

/-- OTP_LOAD (R607 step 2, R609, R612 to R617, R422, R33): three reads are voted; FAILSAFE_N goes high; DEFAULTS are applied; the flash
password is handed over. A broken IDENT or TWIN_PAIRING group is GRAVE. -/
def execOtpLoad (t : Ns) (r0 r1 r2 : BitVec 16384) (s : State) : Host.Outcome State Fault Refusal :=
  let s := s.tick t
  .next (if s.pwr.step ≠ 2 ∨ !s.pwr.railsUp ∨ s.pwr.fail.isSome then s
  else
    let s := s.otpRead r0 r1 r2
    if otpBroken (otpVote r0 r1 r2) 1 ∨ otpBroken (otpVote r0 r1 r2) 2 then s.raiseC 0x5D7 (256 + 609) (some 4) 0 0 0 0
    else s.otpTake.onPwr fun p => { p with step := 3 })

/-- The failing columns that no repair record in effect repairs (R536). -/
def State.badColumns (s : State) (failing : List (BitVec 23)) : List Nat :=
  (failing.map BitVec.toNat).filter fun r => !((s.repairsUsed.map fun r => r % 2 ^ 23).contains r)

/-- A failing column takes its subarray out of service and joins the pending repairs (R536). -/
def State.columnOut (s : State) (r : Nat) : State :=
  let s := s.subOut (r % 8 + 2) (fieldN r 3 7) (fieldN r 10 4) [] .mediaManage
  s.onBlk fun b => { b with repairs := if b.repairs.contains r then b.repairs else b.repairs ++ [r] }

/-- ARRAY_BIST (R536, R607 steps 3 to 5): a column that fails and that no record in effect repairs takes its subarray out of service and
joins the pending repairs; Rachis is then in split-plane mode and the arrays clear. -/
def execArrayBist (t : Ns) (failing : List (BitVec 23)) (s : State) : Host.Outcome State Fault Refusal :=
  let s := s.tick t
  .next (if s.pwr.step ≠ 3 ∨ s.pwr.fail.isSome then s
  else
    (State.each (fun r s => s.columnOut r) (s.badColumns failing) s).onPwr fun p => { p with step := 6 })

/-- Alidade runs (R607 steps 7 and 8): scratch ways 0 to 2 are carved, and the pairing of step 8 begins (R380, R383). -/
def State.alidadeRuns (s : State) : State :=
  let s := State.each (fun n s => s.onBanks n fun b => { b with ctl := { b.ctl with carve := 3 } }) (List.range 128) s
  let s := s.onTwin fun w => { w with step8 := true, seekAt := s.now, st := if w.enable && w.pairing.isSome then .seeking else .unpaired }
  s.onPwr fun p => { p with step := 8 }

/-- What the boot code reads in flash: the selector copies, the last-gasp records and the two images; each retry raises its event (R587,
R605, R607 step 7). -/
def State.bootTables (s : State) (x : BootInput) : State :=
  let put := fun (k : Nat) (v : Option (Nat × Bool)) (l : Tbl (Nat × Bool)) => match v with
    | some y => Tbl.set l k (y.1 % 2 ^ 32, y.2)
    | none => l
  let gasp := fun (k : Nat) (v : Option (List Byte)) (l : Tbl (List Byte)) => match v with
    | some y => Tbl.set l k y
    | none => Tbl.del l k
  let s := s.onPwr fun p =>
    { p with sels := put 0 x.sel0 (put 1 x.sel1 []), gasp := gasp 0 x.gasp0 (gasp 1 x.gasp1 p.gasp), gaspFound := x.gasp0.isSome || x.gasp1.isSome,
             images := [(0, (x.ok0, x.ver0 % 2 ^ 64, x.len0 % 2 ^ 32)), (1, (x.ok1, x.ver1 % 2 ^ 64, x.len1 % 2 ^ 32))] }
  State.each (fun _ s => s.raise (srcPwr 2) (256 + 587) 0 0 0) (List.range x.retries) s

/-- The boot block that the selectors name ACTIVE (R657). -/
def State.activeBlock (s : State) : Bool := (s.selector.map fun y => y.2.2).getD false

/-- ALIDADE_BOOT (R607 step 7, R657, R587, R605, R609): the active block, or the other where its check fails; with neither it is GRAVE. -/
def execAlidadeBoot (t : Ns) (x : BootInput) (s : State) : Host.Outcome State Fault Refusal :=
  let s := s.tick t
  .next (if s.pwr.step ≠ 7 ∨ s.pwr.fail.isSome then s
  else
    let s := s.bootTables x
    let act := s.activeBlock
    let ok := fun (b : Bool) => if b then x.ok1 else x.ok0
    if ok act then (s.onPwr fun p => { p with bootBlock := act, fellBack := false }).alidadeRuns
    else if ok (!act) then
      ((s.onPwr fun p => { p with bootBlock := !act, fellBack := true }).raise (srcFw 6) (256 + 657) 0 0 (b2n act)).alidadeRuns
    else s.raiseC (srcFw 6) (256 + 609) (some 4) 0 0 0 0)

/-- STARTUP_DIRECTORY_DECISION (R220, R382, R412, R607 step 8): the close record decides; a paired block sends its handshake, and the twin's, where it
has come, meets it. -/
def execStartupDirectoryDecision (t : Ns) (x : CloseInput) (s : State) : Host.Outcome State Fault Refusal :=
  let s := s.tick t
  .next (if s.pwr.step ≠ 8 ∨ s.pwr.fail.isSome then s
  else
    let s := { s with dirGen := { s.dirGen with close := x.closeValid, unclean := !x.closeValid } }
    let s := s.onTwin fun w => { w with owned := x.roles, hasSplit := x.split.isSome, split := (x.split.getD []).map BitVec.toNat, decided := true, rePaired := x.rePaired }
    if s.twin.st = .unpaired then s.step9
    else
      match s.twin.shake with
      | some h => s.handshake.meet h
      | none => s.handshake)

/-- What the map region gives at step 9 (R218, R428, R431, R434, R435): generations, ledgers, map entries and roots. -/
def State.loadRecords (s : State) (x : GenInput) : State :=
  let nums := fun (l : List (BitVec 4)) => ((List.range 128).zip l).map fun (y : Nat × BitVec 4) => (y.1, y.2.toNat)
  let s := { s with dirGen := { s.dirGen with dg := nums x.dg, fl := nums x.floor, saved := nums x.dg, q := [], loaded := true } }
  let s := State.each (fun (y : PartId × SliceId × BitVec 4) s => { s with dirGen := { s.dirGen with q := Tbl.set s.dirGen.q (y.1.val * 128 + y.2.1.val) y.2.2.toNat } }) x.quiet s
  let s := s.saveGen
  let s := State.each (fun (y : MediaId × Nat × Bool) s => s.onMp y.1.val fun q => { q with present := true, dataTracts := y.2.1, mapPort := y.2.2 }) x.ports s
  let s := State.each (fun (y : MediaId × Nat) s => s.setLedger y.1.val y.2 1) x.used s
  let s := State.each (fun (y : MediaId × Nat) s => s.setLedger y.1.val y.2 3) x.retired s
  let s := State.each (fun (y : BitVec 32 × Quad) s => s.onPlace fun q => { q with map := Tbl.set q.map y.1.toNat y.2, map2 := Tbl.set q.map2 y.1.toNat y.2 }) x.map s
  State.each (fun (y : Nat × Word) s => s.onPlace fun q => { q with roots := Tbl.set q.roots y.1 y.2 }) x.roots s

/-- R467: a journal entry is settled by the GEN that its tract's entry carries. -/
def State.settleJournal (s : State) (j : JournalIn) : State :=
  let tr := j.tract.toNat
  match s.mapEntry tr with
  | some e =>
    let rest := restState (mePlates e)
    if meGen e = j.gen.toNat then
      (s.putMap tr (mkEntry tr j.oldPort.val j.oldMt (meGen e) (if j.retire then 6 else rest) (mePlates e) (mePart e))).setLedger j.newPort.val j.newMt 0
    else (s.putMap tr (meWith tr e rest)).setLedger j.oldPort.val j.oldMt (if j.retire then 3 else 0)
  | none => s

/-- R309, R354: the first epoch number of a block with no anchor adopted, and RECOVERED_EPOCH. No epoch before it holds a write of this block, so that
those are sealed (R312). Where both blocks of a pair start together, side A's anchor goes to side B with its handshake (R308; DESIGN CHOICE, log 59). -/
def State.firstEpoch (s : State) (e : Option Nat) : State :=
  let n := match e with
    | some x => x + 8192
    | none => 8192
  let s := s.onMer fun m => { m with recovered := e.getD 0, persisted := e.getD 0 }
  if s.mer.next = 0 then
    let s := s.onMer fun m => { m with anchor := s.now, anchorNum := n, cur := n, next := s.now + m.len * 1000, blkSealed := max m.blkSealed (n - 1) }
    if s.side = 0 ∧ s.mirroring then s.handshake else s
  else s

/-- R225: declarations accepted before step 9 take effect. -/
def State.applyQuiets (s : State) : State :=
  State.each (fun p s => if (s.part p).quietPend then (s.applyQuiet p).onPart p fun q => { q with quietPend := false } else s) s.parts.keys s

/-- Start-up step 9's reads: the generation and map records, the first epoch, the move journal settled, and the partition
commands left completed (R607, R309, R467, R631). -/
def State.startRecords (s : State) (x : GenInput) : State :=
  State.each (fun j s => s.settleJournal j) x.journal ((s.loadRecords x).firstEpoch x.epoch) |>.completeWork

/-- STARTUP_GENERATION_ACT (R607 step 9, R220, R225, R309, R467, R609): after an unclean stop every DG advances; a set whose floor is 15
old has the start-up refresh run first. -/
def execStartupGenerationAct (t : Ns) (x : GenInput) (s : State) : Host.Outcome State Fault Refusal :=
  let s := s.tick t
  .next (if s.pwr.step ≠ 9 ∨ s.pwr.refresh ∨ s.pwr.fail.isSome then s
  else if !x.readable then s.raiseC (srcFw 3) (256 + 609) (some 4) 0 0 0 0
  else
    let s := s.startRecords x
    if !s.dirGen.unclean then s.applyQuiets.step10
    else if (List.range 128).any fun n => s.advLeft n = 0 then s.onPwr fun p => { p with refresh := true }
    else (State.each (fun n s => s.advanceDg n n) (List.range 128) s).applyQuiets.step10)

/-- The provisioned lines (R224): those of the tracts that the map places. -/
def State.provLines (s : State) : List Nat :=
  ((s.place.map.filter fun x => meState x.2 != 0 && meState x.2 != 5).map fun x => (List.range 1024).map fun k => x.1 * 1024 + k).flatten

/-- STARTUP_REFRESH (R224): every DG advances and, once the advances are persisted (R219), every provisioned line is read, classified and
rewritten; the refresh ends with the last line. Quiet generations that equal the floor say no more than the floor does. -/
def execStartupRefresh (t : Ns) (s : State) : Host.Outcome State Fault Refusal :=
  let s := s.tick t
  .next (if !s.pwr.refresh ∨ s.pwr.refreshing ∨ s.pwr.fail.isSome then s
  else
    let s := { s with dirGen := { s.dirGen with q := s.dirGen.q.filter fun x => x.2 != s.fl (x.1 % 128) } }.onPwr fun p => { p with refreshing := true }
    let s := (State.each (fun n s => s.advanceDg n n) (List.range 128) s).applyQuiets
    State.each (fun l s => s.refreshLine (s.homeSlice l) l) s.provLines s)

/-! ### Rails (R32, R586 to R593) -/

/-- A rail-good input as it stands. -/
def Pwr.rail (p : Pwr) : Rail → Bool
  | .ret => p.railRet
  | .array => p.railArray
  | .core => p.railCore
  | .otp => p.railOtp

/-- Every rail is shut off (R589). -/
def Pwr.railsOff (p : Pwr) : Pwr := { p with railRet := false, railArray := false, railCore := false, railOtp := false }

/-- RAIL_FAULT (R589, R591, R573): the event, unless READY_OFF is set; the supervisor shuts off every rail, so that no drain goes on.
OTP_GOOD counts only while a programming command runs (R586). -/
def execRailFault (t : Ns) (rail : Rail) (s : State) : Host.Outcome State Fault Refusal :=
  let s := s.tick t
  .next (if !s.pwr.railsUp ∨ (rail = .otp ∧ s.pwr.otpJob.isNone) then s
  else
    let s := (s.onPwr Pwr.railsOff).onWin fun w => { w with draining := false }
    if s.pwr.readyOff then s else s.raise (srcPwr 1) (256 + 589) 0 0 0)

/-- RAIL_GLITCH (R32). -/
def execRailGlitch (t : Ns) (rail : Rail) (s : State) : Host.Outcome State Fault Refusal :=
  let s := s.tick t
  .next (if s.pwr.rail rail then (s.bumpPwr 1 48 16).raise (srcPwr 0) (256 + 32) 0 0 0 else s)

/-- MARGIN_WRITE (R592, R619). -/
def execMarginWrite (t : Ns) (v : Word) (s : State) : Host.Outcome State Fault Refusal := .next ((s.tick t).regWrite .margin 0x060004 v.toNat)

/-- MARGIN_STEP (R592): one step towards the target, handed to the power supervisor. -/
def execMarginStep (t : Ns) (s : State) : Host.Outcome State Fault Refusal :=
  let s := s.tick t
  let c := s.pwr.current
  .next (if c = s.pwr.target then s
  else
    let c' : Int := if c < s.pwr.target then c + 1 else c - 1
    (((s.onPwr fun p => { p with current := c' }).send (.supervisor (if c < s.pwr.target then 4 else 3))).bumpPwr 1 0 32).raise (srcPwr 10) (256 + 592) 0 0 0)

/-! ### The service button (R595, R596) -/

/-- SERVICE_BUTTON_RELEASE (R595): `held` is the length of the press; a press of 8 s or more has acted at the 8 s mark. -/
def execServiceButtonRelease (t : Ns) (held : Ns) (s : State) : Host.Outcome State Fault Refusal :=
  let s := s.tick t
  .next (if held < 50000000 then s.bumpPwr 0 0 16
  else if held ≤ 2000000000 then ((s.onPwr fun p => { p with presence := some (s.now + 60000000000) }).bumpPwr 0 16 16).bumpPwr 3 0 16
  else if held < 8000000000 then s.bumpPwr 0 32 16
  else s)

/-- PRESENCE_EXPIRY (R595, R596). -/
def execPresenceExpiry (t : Ns) (s : State) : Host.Outcome State Fault Refusal :=
  let s := s.tick t
  .next (if s.pwr.presence.any fun e => e ≤ s.now then s.onPwr fun p => { p with presence := none } else s)

/-! ### Forced off and shutdown (R598, R611) -/

/-- The entry has not reached SETTLE (R599 step 2). -/
def Entry.early (x : Entry) : Bool := x.st == .lookup || x.st == .snoop || x.st == .fetch

/-- Entries that have not reached SETTLE, and internal entries, are abandoned without effect (R599 step 2). -/
def State.abandonEntries (s : State) : State :=
  let es := (s.slices.map fun x => (x.2.front.ents.filter fun y => y.1 < 640 && (512 ≤ y.1 || y.2.early)).map fun y => (x.1, y.1, y.2)).flatten
  State.each (fun (x : Nat × Nat × Entry) s => (s.dropWay x.1 x.2.1 x.2.2).dropEnt x.1 x.2.1) es s

/-- Intake stops at every port. -/
def State.haltIntake (s : State) : State := State.each (fun i s => s.onIp i fun q => { q with halted := true }) (List.range 16) s

/-- Requests of partitions that are not enabled are answered as failed: no enable follows (R598 step 2). -/
def State.failHeld (s : State) : State :=
  let held := (s.intakes.map fun x => (x.2.kept.filter fun k => k.st == .held).map fun k => (x.1, k)).flatten
  State.each (fun (x : Nat × Kept) s => s.failKept x.1 x.2) held s

/-- Steps 2 to 4 of R598: service is handed to the twin by the drill, or intake stops and what is kept is answered; then the directory
close. Before intake is enabled step 2 is skipped. -/
def State.beginStop (s : State) : State :=
  let s := s.onPwr fun p => { p with stopping := true, st := .stopping }
  let s :=
    if s.pwr.step < 11 then s
    else if s.twin.st = .paired then
      ((s.haltIntake.toTwin (.abdicate true)).onTwin Twin.handedOver).abandonSlots.abandonEntries
    else s.haltIntake.failHeld
  s.stopTick

/-- FORCED_OFF (R595, R598): the button has been held for 8 s. -/
def execForcedOff (t : Ns) (s : State) : Host.Outcome State Fault Refusal :=
  let s := ((s.tick t).bumpPwr 0 48 16).raise (srcPwr 9) (256 + 598) 0 0 0
  .next (if s.pwr.fail.isSome ∨ s.pwr.stopping ∨ s.pwr.readyOff ∨ !s.pwr.railsUp then s else s.beginStop)

/-- SHUTDOWN (R611, R654): ends in the background once READY_OFF is set. -/
def execShutdown (t : Ns) (c : Mbx) (s : State) : Host.Outcome State Fault Refusal :=
  .next ((s.tick t).command c 0xC192 { mgmt 0 with bg := some .shutdown } fun s =>
    if s.pwr.stopping ∨ s.pwr.readyOff then (.done 7 [], s) else (.started .shutdown 0xFFFFFFFF, s.beginStop))

/-! ### The power-fail sequence (R599 to R605) -/

/-- Dirty Granary lines of the block. -/
def State.dirtyLines (s : State) : Nat := sumOf (fun (x : Nat × Slice) => x.2.banks.dirty) s.slices

/-- FLAGS of the last-gasp record as at the warning (R605). -/
def State.gaspFlags (s : State) : Nat :=
  let paired := s.twin.st == .paired
  2 * b2n s.pwr.energy + 4 * b2n (s.slices.any fun x => x.2.banks.wt) + 8 * b2n paired + 16 * b2n paired + 32 * b2n s.win.failsafe

/-- The block begins to stop for a power failure (R599 steps 1 to 3, R604, R631): commands are aborted, the record of the warning is made,
intake halts, entries are abandoned, and a PAIRED block tells its twin. -/
def State.beginFail (s : State) : State :=
  let f : PwrFail := ⟨s.time, s.mer.pairSealed, s.dirtyLines, s.gaspFlags, false, s.pwr.step < 11, none⟩
  let s := (s.abortCommands.onPwr fun p => { p with fail := some f, st := .powerFail }).bumpPwr 2 0 16
  let s := (s.raise (srcPwr 3) (256 + 599) 0 0 0).haltIntake.abandonEntries.wakeAll
  if s.twin.st = .paired then s.toTwin .powerFail else s

/-- POWER_FAIL_WARN (R599 steps 1 to 4, R604, R611, R631). -/
def execPowerFailWarn (t : Ns) (s : State) : Host.Outcome State Fault Refusal :=
  let s := (s.tick t).onPwr fun p => { p with pfWarn := true }
  .next (if s.pwr.fail.isSome ∨ s.pwr.st = .halt ∨ !s.pwr.railsUp then s
  else if s.pwr.step < 11 then s.beginFail
  else s.beginFail.drainAll)

/-- POWER_FAIL_WARN_GLITCH (R602). -/
def execPowerFailWarnGlitch (t : Ns) (s : State) : Host.Outcome State Fault Refusal := .next ((s.tick t).bumpPwr 1 32 16)

/-- HALT (R599 step 6): ALIVE stops; FAILSAFE_N stays. -/
def State.halt (s : State) : State := (s.onPwr fun p => { p with st := .halt }).onWin fun w => { w with aliveRun := false }

/-- The Almanac records of a last-gasp record (R605): the protected ones, then the newest others in descending RECNO. -/
def Win.gaspRecs (w : Win) : List AlmRec :=
  let keep := w.protectedRecs
  ((w.recs.filter fun r => keep.contains r.recno) ++ (w.recs.filter fun r => !keep.contains r.recno).reverse).take 126

/-- A last-gasp record (R605). -/
def State.gaspRecord (s : State) (f : PwrFail) (left : Nat) : List Byte :=
  let rs := s.win.gaspRecs
  let head := leBytes 4 0x4C470007 ++ leBytes 4 4096 ++ leBytes 8 f.warnTime ++ leBytes 8 f.sealedAt ++ leBytes 4 f.dirty ++ leBytes 4 left
    ++ leBytes 1 (f.flags + b2n (left == 0)) ++ leBytes 1 rs.length ++ zeros 2 ++ leBytes 4 ((s.win.first.map fun x => x.recno).getD 0xFFFFFFFF) ++ zeros 20
  let tail := ((rs.map AlmRec.bytes).flatten ++ zeros 4032).take 4032
  head ++ leBytes 4 (crc32 (head ++ zeros 4 ++ tail)) ++ tail

/-- Something of a power failure's drain is left: a write that has not ended, or a dirty line; in the fail-safe state that permits no more
writes, nothing is (R599 step 4, R604). -/
def State.draining (s : State) (f : PwrFail) : Bool :=
  let writes := s.mports.any fun q => q.2.ops.any fun o => o.write && (o.accepted || !f.early)
  (writes || (!f.early && 0 < s.dirtyLines)) && !(s.win.failsafe && !s.win.draining)

/-- The last-gasp record is written to the vault slot that does not hold the newer record, at a password handed over for it (R599 step 5,
R605). -/
def State.writeGasp (s : State) (f : PwrFail) : State :=
  let k := match s.newerGasp with
    | some x => 1 - x
    | none => 0
  let r := s.gaspRecord f (if f.early then 0 else s.dirtyLines)
  let v := s.fresh
  (v.2.onPwr fun p => { p with fail := some { f with drained := true, record := some (k, r) } }).send
    (.flash 64 { flashDesc 2 (0x2000 + 0x1000 * k) (v.1.toNat % 2 ^ 22) 4096 none with prio := 1 })

/-- POWER_FAIL_DRAIN_DONE (R599 steps 4 and 5, R604): nothing is left to write, or the fail-safe state permits no more; the vault write
goes to the slot that does not hold the newer record. Before start-up step 11 the block halts without a record. -/
def execPowerFailDrainDone (t : Ns) (s : State) : Host.Outcome State Fault Refusal :=
  let s := s.tick t
  .next (match s.pwr.fail with
    | none => s
    | some f =>
      if f.drained ∨ s.pwr.st = .halt ∨ s.draining f then s
      else
        let s := s.gauge (0x0A0A00 + 16) 16 (min (2 ^ 32 - 1) ((s.time - f.warnTime) / 1000))
        if f.early then s.halt else s.writeGasp f)

/-- LAST_GASP_DONE (R599 step 6, R605). -/
def execLastGaspDone (t : Ns) (s : State) : Host.Outcome State Fault Refusal :=
  let s := s.tick t
  .next (match s.pwr.fail.bind fun f => f.record with
    | some (k, r) => if s.pwr.st = .halt then s else (s.onPwr fun p => { p with gasp := Tbl.set p.gasp k r }).halt
    | none => s)

end Sys2Proof.Machine
end

