-- ==== Sys2Proof/Machine/Finish.lean ====
section
/-! DEFINITION. How mailbox commands end that do not end at once: the limit of R628 and R640, the background work of R629, and the reading of
counters (R683, R652). -/

namespace Sys2Proof.Machine

/-- COMMAND_TIMEOUT (R628, R640): 10 ms without the peer's answer. A slot that can still be cancelled is; otherwise R298 or R299 cancels it. -/
def execCommandTimeout (t : Ns) (mb : MbxId) (s : State) : Host.Outcome State Fault Refusal :=
  let s := s.tick t
  let m := mb.val
  .next (if !(s.box m).doorbell ∨ s.time < (s.box m).acceptAt + 10000000 then s
  else
    match (s.box m).wait with
    | some (.slot k) =>
      if (s.slot k).st = .armed ∧ s.now + leadNs (s.slot k).scope < (s.slot k).time then ((s.mbxDone m 6 [] 0xFFFFFFFF).cancelSlot k).2 else s
    | some (.flash _) => (s.mbxDone m 6 [] 0xFFFFFFFF).flashEnd
    | _ => s)

/-! ### What background work does at its end -/

/-- Sanitize and Secure Erase (R637): plates are released, and every line holds zeros without poison. -/
def State.sanitized (s : State) (p : Nat) : State :=
  let q := s.part p
  ((s.dropPlates p).purge q.dataLo (q.dataLo + q.dataLen)).onPart p fun q => { q with poison := [], poisonAt := [] }

/-- The next older live plate of a partition (R323): one that has been exposed at an earlier boundary. Plates exposed at one boundary are images of
the same moment; the spec does not order them, and neither is the older one (DESIGN CHOICE, log 59). -/
def Part.older (q : Part) (epoch : Nat) : Option Nat :=
  let l := q.live.filter fun x => x.2.st != .armed && x.2.epoch < epoch
  let top := l.foldl (fun m x => max m x.2.epoch) 0
  (l.find? fun x => x.2.epoch == top).map Prod.fst

/-- PLATE_RELEASE's passing is done (R323): entries that the next older live plate shares pass to it, each copy with the reserve tract that
holds it; the rest are freed. A reserve tract of a data tract for which the older plate has none becomes the older plate's own. -/
def State.released (s : State) (p j : Nat) : State :=
  let q := s.part p
  match Tbl.find q.plates j with
  | none => s
  | some x =>
    let drop := fun (s : State) => s.onPart p fun q => { q with plates := Tbl.del q.plates j }
    match (q.older x.epoch).bind fun o => (Tbl.find q.plates o).map fun y => (o, y) with
    | none => ((drop s).freeReserve p x.reserves).plateRefs p j false
    | some (o, y) =>
      let pass := x.map.filter fun e => (Tbl.find y.map e.1).isNone
      let dirs := x.dir.filter fun d => (Tbl.find y.dir d.1).isNone && pass.any fun e => e.2 == 1 && e.1 / 1024 == d.1
      let moved := pass.filterMap fun e =>
        if e.2 = 1 then (x.reserveOf e.1).bind fun r => if dirs.any (fun d => d.1 == e.1 / 1024 && d.2 == r) then none else some (e.1, r) else none
      let y := { y with map := pass.foldl (fun m e => Tbl.set m e.1 e.2) y.map, dir := dirs.foldl (fun m d => Tbl.set m d.1 d.2) y.dir,
                        passed := moved.foldl (fun m e => Tbl.set m e.1 e.2) y.passed }
      let s := (drop s).onPart p fun q => { q with plates := Tbl.set q.plates o y }
      (s.freeReserve p (x.reserves.filter fun r => !y.reserves.contains r)).plateRefs p j false

/-- A window read admitted against a plate has not been answered (R323, R647). -/
def State.plateRead (s : State) (p j : Nat) : Bool := s.intakes.any fun x => x.2.kept.any fun k => k.req.part == p && k.req.plate == some j

/-- STATE of a tract (R432, R645). -/
def State.tractState (s : State) (tr : Nat) : List Byte := [BitVec.ofNat 8 (((s.mapEntry tr).map meState).getD 0)]

/-- RETHAW (R442, R645): the first copy of the entry that passes its check and names the tract's partition. -/
def State.rethawed (s : State) (tr : Nat) : State :=
  let good := fun (e : Quad) => meOk tr e && s.partOf (tr * 1024) == some (mePart e)
  match ((Tbl.find s.place.map tr).toList ++ (Tbl.find s.place.map2 tr).toList).find? good with
  | some e => (s.thaw tr e).endFrozen tr
  | none => s

/-! ### Background work (R629, R630) -/

/-- The end of background work with BG_STATUS `status`. -/
def State.bgFinish (s : State) (mb : Nat) (b : Bg) (status : Nat) : State :=
  let asked := (s.box mb).bgAbort
  match b with
  | .partCreate p => (if status = 0 then s.created p else s).bgEnd mb status []
  | .partResize p v => (if status = 0 then s.resized p v else s).bgEnd mb status []
  | .partDestroy p _ => (if status = 0 then s.destroyed p else s).bgEnd mb status []
  | .sanitize p => (if status = 0 then s.sanitized p else s).bgEnd mb status []
  | .plateRelease p j => if s.plateRead p j then s else (if status = 0 then s.released p j else s).bgEnd mb status []
  | .barrier _ => s.adminBar mb
  | .capRemove m => if status = 5 ∧ asked then (s.onMp m fun q => { q with draining := false }).bgEnd mb 5 [] else s
  | .dirRefresh =>
    if status = 5 ∧ asked then (s.onPlace fun q => { q with refresh := false }).bgEnd mb 5 []
    else if status = 0 ∧ !s.place.refresh then s.bgEnd mb 0 [] else s
  | .shutdown => if s.pwr.readyOff then s.bgEnd mb 0 [] else s
  | .twinDrill => (if status = 0 then (s.onTwin Twin.handedOver).abandonSlots else s).bgEnd mb status []
  | .rethaw tr => let s := if status = 0 then s.rethawed tr else s; s.bgEnd mb status (s.tractState tr)
  | .rebuild tr => let s := if status = 0 then s.rebuild tr else s; s.bgEnd mb status (s.tractState tr)
  | .transferFw _ =>
    let ok := s.pwr.flashJob.any fun j => j.mb == mb && j.cur.isNone && !j.bad
    if status = 0 ∧ !ok then s else s.flashEnd.bgEnd mb status []

/-- BACKGROUND_COMPLETE (R629): the background work ends with a status code of R23. -/
def execBackgroundComplete (t : Ns) (mb : MbxId) (status : Fin 9) (s : State) : Host.Outcome State Fault Refusal :=
  let s := s.tick t
  .next (match (s.box mb.val).bg with
    | some b => if (s.box mb.val).bgRun then s.bgFinish mb.val b status.val else s
    | none => s)

/-! ### COUNTER_READ (R652, R683) -/

/-- The 32-bit word of the holding registers at an offset. -/
def State.holdWord (s : State) (o : Nat) : Nat :=
  let b := o - o % 8
  let v := sumOf (fun (x : Nat × Nat) => if x.1 / 64 = b then x.2 * 2 ^ (x.1 % 64) else 0) s.holding
  fieldN v (8 * (o % 8)) 32

/-- A statistics record's 64 bytes (R511). -/
def StatRec.bytes (r : StatRec) : List Byte :=
  leBytes 8 r.bytesOut ++ leBytes 8 r.bytesIn ++ leBytes 8 r.pktsOut ++ leBytes 8 r.pktsIn ++ ((List.range 8).map fun k => leBytes 4 (r.buckets.getD k 0)).flatten

/-- COUNTER_READ (R652, R683). -/
def execCounterRead (t : Ns) (c : Mbx) (s : State) : Host.Outcome State Fault Refusal :=
  .next ((s.tick t).command c 0xC171 { mgmt 10 with rsv := [1, 2, 3] } fun s =>
    let first := mbLe c 4 4
    let n := mbLe c 8 2
    let time := leBytes 8 s.blk.snapTime
    if 1 < mbByte c 0 then (.detail 4 0, s)
    else if mbByte c 0 = 0 then
      if first % 4 ≠ 0 ∨ 0x400000 ≤ first then (.detail 4 4, s)
      else if n = 0 ∨ 1020 < n ∨ 0x400000 < first + 4 * n then (.detail 4 8, s)
      else if !s.blk.snapValid then (.done 7 [], s)
      else (.done 0 (time ++ ((List.range n).map fun k => leBytes 4 (s.holdWord (first + 4 * k))).flatten), s)
    else if 1172 < first then (.detail 4 4, s)
    else if n = 0 ∨ 63 < n ∨ 1173 < first + n then (.detail 4 8, s)
    else if !s.blk.snapValid then (.done 7 [], s)
    else (.done 0 (time ++ ((List.range n).map fun k => StatRec.bytes (Tbl.get default s.rch.frozen (first + k))).flatten), s))

end Sys2Proof.Machine
end

