-- ==== Sys2Proof/Machine/Grid.lean ====
section
/-! DEFINITION. Rachis (R484 to R516) as its own commands show it: packing buffers, credits, gaps in streams, sinks and relays. Packets and
their way through the routers are in Net.lean. -/

namespace Sys2Proof.Machine

/-- PACK_BUFFER_TIMEOUT (R486): 20 ns after a packing buffer's first record. -/
def execPackBufferTimeout (t : Ns) (x : PackRef) (s : State) : Host.Outcome State Fault Refusal :=
  let s := s.tick t
  let old := fun (p : Pack) => !p.recs.isEmpty && p.since + 20 ≤ s.now
  .next (match x with
    | .echo i => if old (s.ip i.val).echoPack then s.flushEcho i.val else s
    | .release i => if old (s.ip i.val).relPack then s.flushRel i.val else s
    | .settle n =>
      let p := (s.slc n.val).front.pack
      if old p then s.flushPack n.val else s)

/-- CREDIT_RETURN (R501, R141, R548): a CREDIT packet in flight arrives: a stream credit lets its port send on; an event's acknowledgement
frees its place at the source. -/
def execCreditReturn (t : Ns) (x : CreditRef) (s : State) : Host.Outcome State Fault Refusal :=
  let s := s.tick t
  .next (if !s.credits.contains x then s
  else
    let s := { s with credits := s.credits.erase x }
    match x with
    | .stream i n => State.pump i.val n.val 4 (s.onIp i.val fun p => { p with used := Tbl.set p.used n.val (Tbl.get 0 p.used n.val - 1) })
    | .event src seq => { s with events := s.events.filter fun v => !(v.src == src.val && v.seq == seq.toNat) }
    | _ => s)

/-- The packet RESEND of a missing stream number (R507): the STREAM value that the receiver asks its sender for. -/
def State.askAgain (s : State) : StreamRef → State
  | .req i n num => s.packet (.slice n.val) (.intake i.val) 0x49 { stream := num.toNat }
  | .twinSlice n num => s.packet (.slice n.val) (twinOfSlice n.val) 0x49 { stream := num.toNat }
  | .twinIntake i num => s.packet (.intake i.val) (twinOfIntake i.val num.toNat) 0x49 { stream := num.toNat }

/-- STREAM_GAP_TIMEOUT (R507): the receiver sends RESEND for the missing stream number. -/
def execStreamGapTimeout (t : Ns) (x : StreamRef) (s : State) : Host.Outcome State Fault Refusal :=
  let s := s.tick t
  .next (if s.resends.contains x then s else { s.askAgain x with resends := s.resends ++ [x] })

/-- The kept request of a stream number goes to its slice again; one that the slice holds or has taken is discarded there (R140). -/
def State.resendReq (s : State) (i n num : Nat) : State :=
  match (s.ip i).kept.find? fun k => k.st == .sent && k.slice == n && k.req.num == num with
  | some k =>
    let f := (s.slc n).front
    let l := Tbl.get [] f.streams i
    let ahead := (num + 4096 - Tbl.get 0 f.nextNum i) % 4096
    let s := s.sendReq i n k.req
    if (l.any fun r => r.num == num) || 2048 ≤ ahead then s
    else s.onFront n fun f => { f with streams := Tbl.set f.streams i (insertBy (fun (r : Req) => (r.num + 4096 - Tbl.get 0 f.nextNum i) % 4096) k.req l) }
  | none => s

/-- RESEND (R507): the sender sends the kept packet of that stream number again; a twin-bound one's records have been handed over already. -/
def execResend (t : Ns) (x : StreamRef) (s : State) : Host.Outcome State Fault Refusal :=
  let s := s.tick t
  .next (if !s.resends.contains x then s
  else
    let s := { s with resends := s.resends.erase x }
    match x with
    | .req i n num => s.resendReq i.val n.val num.toNat
    | _ => s)

/-- The slice at whose router port a sink stands. -/
def sinkSlice : SinkErr → Nat
  | .intake _ n _ | .bisnp n _ | .walk n _ | .scratch n _ => n.val

/-- SINK_ERR (R508): the sink has discarded a packet for a fenced slice and answers its source. An intake port ignores it for a request that
it keeps for replay (R174); a scratch access goes to the second copy, or is refused, in its own command (R269, R270). -/
def execSinkErr (t : Ns) (x : SinkErr) (s : State) : Host.Outcome State Fault Refusal :=
  let s := s.tick t
  let n := sinkSlice x
  .next (if !s.fencedSlice n then s
  else
    let c := 0x0A0400 + 24 * stookSite (stookOf n) + 16
    let s := match x with
      | .intake i _ tag => s.packet (.slice n) (.intake i.val) 0x48 { tag := tag, aux := 0x01 }
      | .scratch _ _ => s.packet (.slice n) .alidade 0x48 { aux := 0x12 }
      | _ => s
    (s.bump c 32 16 1).bump c 48 8 1)

/-- A packet of a media port as its relay stook sends it on (R488). -/
def State.relayOn (s : State) (k : Nat) : RelayDest → State
  | .walker id => s.packet (.stook k) .placement 0x61 { tag := id, engine := some 0 }
  | .engine id => s.packet (.stook k) .placement 0x61 { tag := id, engine := some 0 }
  | .winnow kind => s.packet (.stook k) .winnow 0x70 { aux := kind.toNat }

/-- MEDIA_RELAY (R488, R47): the relay stook's controller sends the packet on, and wakes for it. What the packet brings, its own command
does at its destination. -/
def execMediaRelay (t : Ns) (m : MediaId) (dest : RelayDest) (s : State) : Host.Outcome State Fault Refusal :=
  let s := s.tick t
  let k := relayStook m.val
  .next (if (s.stk k).fenced then s else (s.stookWork k).relayOn k dest)

end Sys2Proof.Machine
end

