-- ==== Sys2Proof/Machine/Dispatch.lean ====
section
/-! DEFINITION. The meaning of a command: one arm per constructor of Instr, each one direct call of its meaning. -/

namespace Sys2Proof.Machine

def exec (i : Instr) (s : State) : Host.Outcome State Fault Refusal :=
  match i with
  | .memRd t m => Sys2Proof.Machine.execMemRd t m s
  | .memRdData t m => Sys2Proof.Machine.execMemRdData t m s
  | .memInv t m => Sys2Proof.Machine.execMemInv t m s
  | .memInvNt t m => Sys2Proof.Machine.execMemInvNt t m s
  | .memClnEvct t m => Sys2Proof.Machine.execMemClnEvct t m s
  | .memSpecRd t m => Sys2Proof.Machine.execMemSpecRd t m s
  | .biConflict t m => Sys2Proof.Machine.execBiConflict t m s
  | .memWr t m data => Sys2Proof.Machine.execMemWr t m data s
  | .memWrPtl t m data be => Sys2Proof.Machine.execMemWrPtl t m data be s
  | .biRsp t port host line bitag ans => Sys2Proof.Machine.execBiRsp t port host line bitag ans s
  | .holdTimeout t part => Sys2Proof.Machine.execHoldTimeout t part s
  | .intakeArbitration t n => Sys2Proof.Machine.execIntakeArbitration t n s
  | .filterLookupDone t n e => Sys2Proof.Machine.execFilterLookupDone t n e s
  | .granaryLookupDone t n e => Sys2Proof.Machine.execGranaryLookupDone t n e s
  | .bisnpIssue t n => Sys2Proof.Machine.execBisnpIssue t n s
  | .snoopTimeout t port bitag => Sys2Proof.Machine.execSnoopTimeout t port bitag s
  | .mediaReadReturn t m id cw => Sys2Proof.Machine.execMediaReadReturn t m id cw s
  | .mediaRmw t m id cw => Sys2Proof.Machine.execMediaRmw t m id cw s
  | .mediaWriteAccepted t m id => Sys2Proof.Machine.execMediaWriteAccepted t m id s
  | .mediaWriteComplete t m id => Sys2Proof.Machine.execMediaWriteComplete t m id s
  | .mediaReadTimeout t m id => Sys2Proof.Machine.execMediaReadTimeout t m id s
  | .mediaWriteTimeout t m id => Sys2Proof.Machine.execMediaWriteTimeout t m id s
  | .mediaPortFault t m kind => Sys2Proof.Machine.execMediaPortFault t m kind s
  | .tractWalk t n e rd => Sys2Proof.Machine.execTractWalk t n e rd s
  | .walkResponse t n e => Sys2Proof.Machine.execWalkResponse t n e s
  | .tractFreeze t tract => Sys2Proof.Machine.execTractFreeze t tract s
  | .thawAttempt t tract got lineOk => Sys2Proof.Machine.execThawAttempt t tract got lineOk s
  | .frozenWriteHoldExpiry t tract => Sys2Proof.Machine.execFrozenWriteHoldExpiry t tract s
  | .noteAck t port n seq tag => Sys2Proof.Machine.execNoteAck t port n seq tag s
  | .writeSettle t n seq => Sys2Proof.Machine.execWriteSettle t n seq s
  | .twinAck t n seq => Sys2Proof.Machine.execTwinAck t n seq s
  | .intakeResponseRelease t port tag => Sys2Proof.Machine.execIntakeResponseRelease t port tag s
  | .holdOverrun t n e => Sys2Proof.Machine.execHoldOverrun t n e s
  | .trackerAge t n e => Sys2Proof.Machine.execTrackerAge t n e s
  | .handshakeWatchdog t u => Sys2Proof.Machine.execHandshakeWatchdog t u s
  | .sliceFallowEntry t n => Sys2Proof.Machine.execSliceFallowEntry t n s
  | .stookFallowEntry t k => Sys2Proof.Machine.execStookFallowEntry t k s
  | .routerFallowEntry t x => Sys2Proof.Machine.execRouterFallowEntry t x s
  | .unitWake t u => Sys2Proof.Machine.execUnitWake t u s
  | .dgAdvancePersisted t n => Sys2Proof.Machine.execDgAdvancePersisted t n s
  | .recallReturn t n lines => Sys2Proof.Machine.execRecallReturn t n lines s
  | .recallGapTimeout t n => Sys2Proof.Machine.execRecallGapTimeout t n s
  | .replayList t port n => Sys2Proof.Machine.execReplayList t port n s
  | .endOfReplay t n => Sys2Proof.Machine.execEndOfReplay t n s
  | .slicePrepare t n => Sys2Proof.Machine.execSlicePrepare t n s
  | .handoverOverrun t n => Sys2Proof.Machine.execHandoverOverrun t n s
  | .energyOkFall t => Sys2Proof.Machine.execEnergyOkFall t s
  | .energyOkRise t => Sys2Proof.Machine.execEnergyOkRise t s
  | .grnCtlWrite t n v => Sys2Proof.Machine.execGrnCtlWrite t n v s
  | .scratchRead t who way off read => Sys2Proof.Machine.execScratchRead t who way off read s
  | .scratchWrite t who way off size data => Sys2Proof.Machine.execScratchWrite t who way off size data s
  | .timeRefLoss t => Sys2Proof.Machine.execTimeRefLoss t s
  | .alignWord t count check sub => Sys2Proof.Machine.execAlignWord t count check sub s
  | .alignWordMissing t => Sys2Proof.Machine.execAlignWordMissing t s
  | .meridianLock t => Sys2Proof.Machine.execMeridianLock t s
  | .holdoverExpiry t => Sys2Proof.Machine.execHoldoverExpiry t s
  | .twinTimeExchange t x => Sys2Proof.Machine.execTwinTimeExchange t x s
  | .twinExchangeInvalid t => Sys2Proof.Machine.execTwinExchangeInvalid t s
  | .domainNotice t x => Sys2Proof.Machine.execDomainNotice t x s
  | .domainNoticeTimeout t => Sys2Proof.Machine.execDomainNoticeTimeout t s
  | .instantArm t k => Sys2Proof.Machine.execInstantArm t k s
  | .instantDisarm t k => Sys2Proof.Machine.execInstantDisarm t k s
  | .twinSlotReceive t k kind scope param time => Sys2Proof.Machine.execTwinSlotReceive t k kind scope param time s
  | .twinSlotAck t k ans => Sys2Proof.Machine.execTwinSlotAck t k ans s
  | .slotConfirmDeadline t k => Sys2Proof.Machine.execSlotConfirmDeadline t k s
  | .domainSlotConfirm t key => Sys2Proof.Machine.execDomainSlotConfirm t key s
  | .slotCancelReceive t v => Sys2Proof.Machine.execSlotCancelReceive t v s
  | .epochBoundary t => Sys2Proof.Machine.execEpochBoundary t s
  | .epochLenInstant t k => Sys2Proof.Machine.execEpochLenInstant t k s
  | .plateExposeInstant t k => Sys2Proof.Machine.execPlateExposeInstant t k s
  | .snapshotInstant t k => Sys2Proof.Machine.execSnapshotInstant t k s
  | .rachisModeInstant t k => Sys2Proof.Machine.execRachisModeInstant t k s
  | .tractCommitInstant t k => Sys2Proof.Machine.execTractCommitInstant t k s
  | .enableInstant t k => Sys2Proof.Machine.execEnableInstant t k s
  | .roleMoveInstant t k => Sys2Proof.Machine.execRoleMoveInstant t k s
  | .capacityInstant t k => Sys2Proof.Machine.execCapacityInstant t k s
  | .pairInstant t k => Sys2Proof.Machine.execPairInstant t k s
  | .sealConfirm t src => Sys2Proof.Machine.execSealConfirm t src s
  | .pairSealExchange t twinSealed => Sys2Proof.Machine.execPairSealExchange t twinSealed s
  | .sealedEpochPersist t => Sys2Proof.Machine.execSealedEpochPersist t s
  | .barrierHost t host part word aligned => Sys2Proof.Machine.execBarrierHost t host part word aligned s
  | .barrierPartition t host part word aligned => Sys2Proof.Machine.execBarrierPartition t host part word aligned s
  | .barrierTwin t host part word aligned => Sys2Proof.Machine.execBarrierTwin t host part word aligned s
  | .barrierDomain t host part word aligned => Sys2Proof.Machine.execBarrierDomain t host part word aligned s
  | .barrierComplete t port id => Sys2Proof.Machine.execBarrierComplete t port id s
  | .twinHandshake t x => Sys2Proof.Machine.execTwinHandshake t x s
  | .seekingTimeout t => Sys2Proof.Machine.execSeekingTimeout t s
  | .twinEchoReceive t port x => Sys2Proof.Machine.execTwinEchoReceive t port x s
  | .settleRecordApply t x => Sys2Proof.Machine.execSettleRecordApply t x s
  | .twinReleaseReceive t port echo => Sys2Proof.Machine.execTwinReleaseReceive t port echo s
  | .cleanNotice t line seq => Sys2Proof.Machine.execCleanNotice t line seq s
  | .cleanRequest t line => Sys2Proof.Machine.execCleanRequest t line s
  | .twinRecall t n => Sys2Proof.Machine.execTwinRecall t n s
  | .heartbeatLoss t => Sys2Proof.Machine.execHeartbeatLoss t s
  | .twinLinkDown t => Sys2Proof.Machine.execTwinLinkDown t s
  | .twinLinkUp t => Sys2Proof.Machine.execTwinLinkUp t s
  | .peerLinksDown t => Sys2Proof.Machine.execPeerLinksDown t s
  | .lossReportTimeout t => Sys2Proof.Machine.execLossReportTimeout t s
  | .abdicationReceive t drill => Sys2Proof.Machine.execAbdicationReceive t drill s
  | .claimComplete t redelivered => Sys2Proof.Machine.execClaimComplete t redelivered s
  | .claimLost t => Sys2Proof.Machine.execClaimLost t s
  | .forwardedRecord t port m op data be => Sys2Proof.Machine.execForwardedRecord t port m op data be s
  | .forwardHoldTimeout t port tag => Sys2Proof.Machine.execForwardHoldTimeout t port tag s
  | .resyncWalkLine t n line => Sys2Proof.Machine.execResyncWalkLine t n line s
  | .resyncRecord t x => Sys2Proof.Machine.execResyncRecord t x s
  | .drainedMarker t part => Sys2Proof.Machine.execDrainedMarker t part s
  | .routeClosedMarker t part => Sys2Proof.Machine.execRouteClosedMarker t part s
  | .recordFetch t n e r => Sys2Proof.Machine.execRecordFetch t n e r s
  | .roleMoveTimeout t k => Sys2Proof.Machine.execRoleMoveTimeout t k s
  | .powerFailNotice t => Sys2Proof.Machine.execPowerFailNotice t s
  | .powerFailNoticeTimeout t => Sys2Proof.Machine.execPowerFailNoticeTimeout t s
  | .mapRecord t tract entry => Sys2Proof.Machine.execMapRecord t tract entry s
  | .heatNote t k note => Sys2Proof.Machine.execHeatNote t k note s
  | .heatWindowEnd t => Sys2Proof.Machine.execHeatWindowEnd t s
  | .coldScan t => Sys2Proof.Machine.execColdScan t s
  | .heliostatRound t => Sys2Proof.Machine.execHeliostatRound t s
  | .moveStartAck t tract => Sys2Proof.Machine.execMoveStartAck t tract s
  | .moveCopied t tract => Sys2Proof.Machine.execMoveCopied t tract s
  | .commitMark t n j => Sys2Proof.Machine.execCommitMark t n j s
  | .moveDone t tract => Sys2Proof.Machine.execMoveDone t tract s
  | .patrolScrubLine t n line => Sys2Proof.Machine.execPatrolScrubLine t n line s
  | .patrolPassComplete t => Sys2Proof.Machine.execPatrolPassComplete t s
  | .arrayScrubWord t w fault => Sys2Proof.Machine.execArrayScrubWord t w fault s
  | .laneEntryExpiry t k port sym bit => Sys2Proof.Machine.execLaneEntryExpiry t k port sym bit s
  | .laneSteerDone t m => Sys2Proof.Machine.execLaneSteerDone t m s
  | .winnowEvent t src raised => Sys2Proof.Machine.execWinnowEvent t src raised s
  | .eventResend t src => Sys2Proof.Machine.execEventResend t src s
  | .eventLine t u => Sys2Proof.Machine.execEventLine t u s
  | .shadowEnd t recno => Sys2Proof.Machine.execShadowEnd t recno s
  | .aliveToggle t => Sys2Proof.Machine.execAliveToggle t s
  | .voteSweep t f c0 c1 c2 => Sys2Proof.Machine.execVoteSweep t f c0 c1 c2 s
  | .firstClear t => Sys2Proof.Machine.execFirstClear t s
  | .winnowInject t v => Sys2Proof.Machine.execWinnowInject t v s
  | .alidadeWatchdog t => Sys2Proof.Machine.execAlidadeWatchdog t s
  | .railsGood t factoryMode => Sys2Proof.Machine.execRailsGood t factoryMode s
  | .otpLoad t r0 r1 r2 => Sys2Proof.Machine.execOtpLoad t r0 r1 r2 s
  | .arrayBist t failing => Sys2Proof.Machine.execArrayBist t failing s
  | .alidadeBoot t x => Sys2Proof.Machine.execAlidadeBoot t x s
  | .startupDirectoryDecision t x => Sys2Proof.Machine.execStartupDirectoryDecision t x s
  | .startupGenerationAct t x => Sys2Proof.Machine.execStartupGenerationAct t x s
  | .startupRefresh t => Sys2Proof.Machine.execStartupRefresh t s
  | .meridianLockTimeout t => Sys2Proof.Machine.execMeridianLockTimeout t s
  | .railFault t rail => Sys2Proof.Machine.execRailFault t rail s
  | .railGlitch t rail => Sys2Proof.Machine.execRailGlitch t rail s
  | .marginWrite t v => Sys2Proof.Machine.execMarginWrite t v s
  | .marginStep t => Sys2Proof.Machine.execMarginStep t s
  | .serviceButtonRelease t held => Sys2Proof.Machine.execServiceButtonRelease t held s
  | .presenceExpiry t => Sys2Proof.Machine.execPresenceExpiry t s
  | .forcedOff t => Sys2Proof.Machine.execForcedOff t s
  | .powerFailWarn t => Sys2Proof.Machine.execPowerFailWarn t s
  | .powerFailDrainDone t => Sys2Proof.Machine.execPowerFailDrainDone t s
  | .lastGaspDone t => Sys2Proof.Machine.execLastGaspDone t s
  | .flashDescriptorDone t j status => Sys2Proof.Machine.execFlashDescriptorDone t j status s
  | .streamGapTimeout t x => Sys2Proof.Machine.execStreamGapTimeout t x s
  | .resend t x => Sys2Proof.Machine.execResend t x s
  | .sinkErr t x => Sys2Proof.Machine.execSinkErr t x s
  | .mediaRelay t m dest => Sys2Proof.Machine.execMediaRelay t m dest s
  | .packBufferTimeout t x => Sys2Proof.Machine.execPackBufferTimeout t x s
  | .creditReturn t x => Sys2Proof.Machine.execCreditReturn t x s
  | .ringWriteDelivered t => Sys2Proof.Machine.execRingWriteDelivered t s
  | .aliasWrite t off v len => Sys2Proof.Machine.execAliasWrite t off v len s
  | .meridianWord0Read t off => Sys2Proof.Machine.execMeridianWord0Read t off s
  | .registerWrite t off v len => Sys2Proof.Machine.execRegisterWrite t off v len s
  | .bgAbort t mb => Sys2Proof.Machine.execBgAbort t mb s
  | .commandTimeout t mb => Sys2Proof.Machine.execCommandTimeout t mb s
  | .backgroundComplete t mb status => Sys2Proof.Machine.execBackgroundComplete t mb status s
  | .identify t c => Sys2Proof.Machine.execIdentify t c s
  | .backgroundOperationStatus t c => Sys2Proof.Machine.execBackgroundOperationStatus t c s
  | .requestAbortBackgroundOp t c => Sys2Proof.Machine.execRequestAbortBackgroundOp t c s
  | .getEventRecords t c => Sys2Proof.Machine.execGetEventRecords t c s
  | .clearEventRecords t c => Sys2Proof.Machine.execClearEventRecords t c s
  | .getEventInterruptPolicy t c => Sys2Proof.Machine.execGetEventInterruptPolicy t c s
  | .setEventInterruptPolicy t c => Sys2Proof.Machine.execSetEventInterruptPolicy t c s
  | .getFwInfo t c => Sys2Proof.Machine.execGetFwInfo t c s
  | .transferFw t c => Sys2Proof.Machine.execTransferFw t c s
  | .activateFw t c digestOk => Sys2Proof.Machine.execActivateFw t c digestOk s
  | .getTimestamp t c => Sys2Proof.Machine.execGetTimestamp t c s
  | .setTimestamp t c => Sys2Proof.Machine.execSetTimestamp t c s
  | .getSupportedLogs t c => Sys2Proof.Machine.execGetSupportedLogs t c s
  | .getLog t c => Sys2Proof.Machine.execGetLog t c s
  | .identifyMemoryDevice t c => Sys2Proof.Machine.execIdentifyMemoryDevice t c s
  | .getPartitionInfo t c => Sys2Proof.Machine.execGetPartitionInfo t c s
  | .getHealthInfo t c => Sys2Proof.Machine.execGetHealthInfo t c s
  | .getAlertConfiguration t c => Sys2Proof.Machine.execGetAlertConfiguration t c s
  | .setAlertConfiguration t c => Sys2Proof.Machine.execSetAlertConfiguration t c s
  | .getShutdownState t c => Sys2Proof.Machine.execGetShutdownState t c s
  | .setShutdownState t c => Sys2Proof.Machine.execSetShutdownState t c s
  | .getLsa t c => Sys2Proof.Machine.execGetLsa t c s
  | .setLsa t c => Sys2Proof.Machine.execSetLsa t c s
  | .getPoisonList t c => Sys2Proof.Machine.execGetPoisonList t c s
  | .clearPoison t c => Sys2Proof.Machine.execClearPoison t c s
  | .sanitize t c => Sys2Proof.Machine.execSanitize t c s
  | .secureErase t c => Sys2Proof.Machine.execSecureErase t c s
  | .unsupportedCommand t c opcode => Sys2Proof.Machine.execUnsupportedCommand t c opcode s
  | .partCreate t c => Sys2Proof.Machine.execPartCreate t c s
  | .partResize t c => Sys2Proof.Machine.execPartResize t c s
  | .partDestroy t c => Sys2Proof.Machine.execPartDestroy t c s
  | .partQuery t c => Sys2Proof.Machine.execPartQuery t c s
  | .partEnableSet t c => Sys2Proof.Machine.execPartEnableSet t c s
  | .partEnableClear t c => Sys2Proof.Machine.execPartEnableClear t c s
  | .partRestart t c => Sys2Proof.Machine.execPartRestart t c s
  | .partQuiet t c => Sys2Proof.Machine.execPartQuiet t c s
  | .partScratchAssign t c => Sys2Proof.Machine.execPartScratchAssign t c s
  | .partScratchRelease t c => Sys2Proof.Machine.execPartScratchRelease t c s
  | .hostPortSet t c => Sys2Proof.Machine.execHostPortSet t c s
  | .hostPortRestore t c => Sys2Proof.Machine.execHostPortRestore t c s
  | .ticketArea t c => Sys2Proof.Machine.execTicketArea t c s
  | .partSet t c => Sys2Proof.Machine.execPartSet t c s
  | .placeGoal t c => Sys2Proof.Machine.execPlaceGoal t c s
  | .placeQuery t c => Sys2Proof.Machine.execPlaceQuery t c s
  | .tractRethaw t c => Sys2Proof.Machine.execTractRethaw t c s
  | .tractRebuild t c => Sys2Proof.Machine.execTractRebuild t c s
  | .plateExpose t c => Sys2Proof.Machine.execPlateExpose t c s
  | .plateBind t c => Sys2Proof.Machine.execPlateBind t c s
  | .plateUnbind t c => Sys2Proof.Machine.execPlateUnbind t c s
  | .plateRelease t c => Sys2Proof.Machine.execPlateRelease t c s
  | .plateGroupName t c => Sys2Proof.Machine.execPlateGroupName t c s
  | .plateGroupDissolve t c => Sys2Proof.Machine.execPlateGroupDissolve t c s
  | .plateQuery t c => Sys2Proof.Machine.execPlateQuery t c s
  | .epochLen t c => Sys2Proof.Machine.execEpochLen t c s
  | .barrier t c => Sys2Proof.Machine.execBarrier t c s
  | .barrierList t c => Sys2Proof.Machine.execBarrierList t c s
  | .twinPair t c => Sys2Proof.Machine.execTwinPair t c s
  | .twinStatus t c => Sys2Proof.Machine.execTwinStatus t c s
  | .twinDrill t c => Sys2Proof.Machine.execTwinDrill t c s
  | .roleMove t c => Sys2Proof.Machine.execRoleMove t c s
  | .blockRestart t c => Sys2Proof.Machine.execBlockRestart t c s
  | .capAdd t c size pairSize => Sys2Proof.Machine.execCapAdd t c size pairSize s
  | .capRemove t c => Sys2Proof.Machine.execCapRemove t c s
  | .capQuery t c => Sys2Proof.Machine.execCapQuery t c s
  | .almRead t c => Sys2Proof.Machine.execAlmRead t c s
  | .firstFaultRead t c => Sys2Proof.Machine.execFirstFaultRead t c s
  | .firstFaultClear t c => Sys2Proof.Machine.execFirstFaultClear t c s
  | .ceLog t c => Sys2Proof.Machine.execCeLog t c s
  | .lastgasp t c => Sys2Proof.Machine.execLastgasp t c s
  | .snapshot t c => Sys2Proof.Machine.execSnapshot t c s
  | .counterRead t c => Sys2Proof.Machine.execCounterRead t c s
  | .otpRepair t c => Sys2Proof.Machine.execOtpRepair t c s
  | .otpDefaults t c => Sys2Proof.Machine.execOtpDefaults t c s
  | .otpFlashPw t c => Sys2Proof.Machine.execOtpFlashPw t c s
  | .otpFactoryLock t c => Sys2Proof.Machine.execOtpFactoryLock t c s
  | .otpRead t c => Sys2Proof.Machine.execOtpRead t c s
  | .retireRange t c => Sys2Proof.Machine.execRetireRange t c s
  | .retireClearEntry t c => Sys2Proof.Machine.execRetireClearEntry t c s
  | .dirRefresh t c => Sys2Proof.Machine.execDirRefresh t c s
  | .shutdown t c => Sys2Proof.Machine.execShutdown t c s
  | .instantCancel t c => Sys2Proof.Machine.execInstantCancel t c s
  | .instantList t c => Sys2Proof.Machine.execInstantList t c s
  | .flashInfo t c => Sys2Proof.Machine.execFlashInfo t c s
  | .bootSelect t c digestOk => Sys2Proof.Machine.execBootSelect t c digestOk s
  | .domainSlotReceive t k kind param time => Sys2Proof.Machine.execDomainSlotReceive t k kind param time s
  | .forwardedResponse t port tag drs ndr => Sys2Proof.Machine.execForwardedResponse t port tag drs ndr s
  | .recordWalkLine t line found => Sys2Proof.Machine.execRecordWalkLine t line found s
  | .roleRecordReceive t line r => Sys2Proof.Machine.execRoleRecordReceive t line r s
  | .otpGoodRise t readBack => Sys2Proof.Machine.execOtpGoodRise t readBack s
  | .powerFailWarnGlitch t => Sys2Proof.Machine.execPowerFailWarnGlitch t s
  | .peerLinksUp t => Sys2Proof.Machine.execPeerLinksUp t s
  | .bisnpCredit t j => Sys2Proof.Machine.execBisnpCredit t j s

end Sys2Proof.Machine
end

