-- ==== Sys2Proof/Safety.lean ====
section
/-! DEFINITION. The terms in which statements about the home are made: what it means that a command does something, when a
mailbox serves a command, what a host message is, and what a safe state is. -/

namespace Sys2Proof

open Machine

/-! ### Classes of commands -/

/-- The commands that may change a byte of scratch: a scratch write (R269), the write of NCH_GRN_CTL or of any register, which
clears carved ways (R272, R274), and the power-up, which leaves scratch all zeros (R272). -/
def Instr.mayWriteScratch : Instr → Bool
  | .scratchWrite .. | .grnCtlWrite .. | .registerWrite .. | .aliasWrite .. | .ringWriteDelivered .. | .railsGood .. => true
  | _ => false

/-- The commands that may change the contents of the OTP: the load at power-up and the end of a programming (R612, R616). -/
def Instr.mayWriteOtp : Instr → Bool
  | .otpLoad .. | .otpGoodRise .. => true
  | _ => false

/-- The one command that may end the fail-safe state: a power-up (R571). -/
def Instr.isPowerUp : Instr → Bool
  | .railsGood .. => true
  | _ => false

/-- The one command that may set the time of the block back: the first lock, which takes over the timekeeper's count (R280, R286). -/
def Instr.isLock : Instr → Bool
  | .meridianLock .. => true
  | _ => false

/-- The commands of the mailboxes: time, caller, opcode, and what the tables of R637 and R641 to R655 ask of the command. -/
def Instr.mailbox : Instr → Option (Ns × Mbx × Nat × CmdKind)
  | .identify t c => some (t, c, 0x0001, { CmdKind.plain true 0 with failsafe := true })
  | .backgroundOperationStatus t c => some (t, c, 0x0002, { CmdKind.plain true 0 with failsafe := true })
  | .requestAbortBackgroundOp t c => some (t, c, 0x0005, (CmdKind.plain true 0))
  | .getEventRecords t c => some (t, c, 0x0100, (CmdKind.plain true 1))
  | .clearEventRecords t c => some (t, c, 0x0101, { CmdKind.plain true 0 with len := (6, 516), rsv := [3, 4, 5] })
  | .getEventInterruptPolicy t c => some (t, c, 0x0102, (CmdKind.plain true 0))
  | .setEventInterruptPolicy t c => some (t, c, 0x0103, { CmdKind.plain true 0 with len := (4, 5) })
  | .getTimestamp t c => some (t, c, 0x0300, (CmdKind.plain true 0))
  | .setTimestamp t c => some (t, c, 0x0301, { CmdKind.plain true 0 with len := (0, 4096) })
  | .getSupportedLogs t c => some (t, c, 0x0400, (CmdKind.plain true 0))
  | .getLog t c => some (t, c, 0x0401, (CmdKind.plain true 24))
  | .identifyMemoryDevice t c => some (t, c, 0x4000, (CmdKind.plain true 0))
  | .getPartitionInfo t c => some (t, c, 0x4100, (CmdKind.plain true 0))
  | .getHealthInfo t c => some (t, c, 0x4200, { CmdKind.plain true 0 with failsafe := true })
  | .getAlertConfiguration t c => some (t, c, 0x4201, (CmdKind.plain true 0))
  | .setAlertConfiguration t c => some (t, c, 0x4202, { CmdKind.plain true 12 with rsv := [3] })
  | .getShutdownState t c => some (t, c, 0x4203, (CmdKind.plain true 0))
  | .setShutdownState t c => some (t, c, 0x4204, (CmdKind.plain true 1))
  | .getLsa t c => some (t, c, 0x4102, (CmdKind.plain true 8))
  | .setLsa t c => some (t, c, 0x4103, { CmdKind.plain true 0 with len := (8, 4096), rsv := [4, 5, 6, 7] })
  | .getPoisonList t c => some (t, c, 0x4300, (CmdKind.plain true 16))
  | .clearPoison t c => some (t, c, 0x4302, (CmdKind.plain true 72))
  | .sanitize t c => some (t, c, 0x4400, { CmdKind.plain true 0 with presence := true, bg := some .none })
  | .secureErase t c => some (t, c, 0x4401, { CmdKind.plain true 0 with presence := true, bg := some .none })
  | .unsupportedCommand t c opcode => some (t, c, opcode.toNat, { CmdKind.plain true 0 with len := (0, 4096) })
  | .instantCancel t c => some (t, c, 0xC193, (CmdKind.plain false 1))
  | .instantList t c => some (t, c, 0xC194, (CmdKind.plain false 0))
  | .snapshot t c => some (t, c, 0xC170, { CmdKind.plain false 16 with rsv := [2, 3, 4, 5, 6, 7] })
  | .epochLen t c => some (t, c, 0xC126, { CmdKind.plain false 16 with rsv := [5, 6, 7] })
  | .plateExpose t c => some (t, c, 0xC120, { CmdKind.plain true 16 with rsv := [3, 4, 5, 6, 7] })
  | .roleMove t c => some (t, c, 0xC143, { CmdKind.plain false 16 with rsv := [1, 2, 3, 4, 5, 6, 7], part := some 0 })
  | .partCreate t c => some (t, c, 0xC100, { mgmt 32 with presence := true, rsv := [31], part := some 0, bg := some .none })
  | .partResize t c => some (t, c, 0xC101, { mgmt 8 with rsv := [1, 2, 3], part := some 0, bg := some .none })
  | .partDestroy t c => some (t, c, 0xC102, { mgmt 2 with presence := true, part := some 0, bg := some .none })
  | .partQuery t c => some (t, c, 0xC103, { CmdKind.plain true 1 with part := some 0 })
  | .partEnableSet t c => some (t, c, 0xC104, { mgmt 16 with rsv := [3, 4, 5, 6, 7], part := some 0 })
  | .partEnableClear t c => some (t, c, 0xC104, { mgmt 16 with rsv := [3, 4, 5, 6, 7], part := some 0 })
  | .partRestart t c => some (t, c, 0xC105, { mgmt 1 with part := some 0 })
  | .partQuiet t c => some (t, c, 0xC106, { mgmt 1 with part := some 0 })
  | .partScratchAssign t c => some (t, c, 0xC107, { mgmt 3 with part := some 0 })
  | .partScratchRelease t c => some (t, c, 0xC107, { mgmt 3 with part := some 0 })
  | .hostPortSet t c => some (t, c, 0xC108, (mgmt 16))
  | .hostPortRestore t c => some (t, c, 0xC109, (mgmt 2))
  | .ticketArea t c => some (t, c, 0xC10A, { CmdKind.plain true 10 with rsv := [1, 2, 3], part := some 0 })
  | .partSet t c => some (t, c, 0xC10B, { mgmt 32 with rsv := [31], part := some 0 })
  | .placeGoal t c => some (t, c, 0xC110, { mgmt 4 with rsv := [1], part := some 0 })
  | .placeQuery t c => some (t, c, 0xC111, { CmdKind.plain true 1 with part := some 0 })
  | .plateBind t c => some (t, c, 0xC121, { CmdKind.plain true 3 with part := some 0 })
  | .plateUnbind t c => some (t, c, 0xC122, { CmdKind.plain true 2 with part := some 0 })
  | .plateRelease t c => some (t, c, 0xC123, { CmdKind.plain true 2 with part := some 0, bg := some .none })
  | .plateGroupName t c => some (t, c, 0xC124, { mgmt 0 with len := (4, 132), rsv := [3] })
  | .plateGroupDissolve t c => some (t, c, 0xC124, { mgmt 0 with len := (4, 132), rsv := [3] })
  | .plateQuery t c => some (t, c, 0xC125, { CmdKind.plain true 1 with part := some 0 })
  | .almRead t c => some (t, c, 0xC160, { mgmt 6 with failsafe := true })
  | .firstFaultRead t c => some (t, c, 0xC161, { mgmt 1 with failsafe := true })
  | .firstFaultClear t c => some (t, c, 0xC161, { mgmt 1 with failsafe := true })
  | .ceLog t c => some (t, c, 0xC162, { mgmt 1 with failsafe := true })
  | .lastgasp t c => some (t, c, 0xC163, { mgmt 1 with failsafe := true })
  | .otpRepair t c => some (t, c, 0xC180, (otpCmd 0))
  | .otpDefaults t c => some (t, c, 0xC181, { otpCmd 0 with len := (2, 278), rsv := [1] })
  | .otpFlashPw t c => some (t, c, 0xC182, (otpCmd 16))
  | .otpFactoryLock t c => some (t, c, 0xC183, { otpCmd 0 with service := true })
  | .otpRead t c => some (t, c, 0xC184, (mgmt 2))
  | .twinPair t c => some (t, c, 0xC140, { otpCmd 16 with rsv := [11, 12, 13, 14, 15] })
  | .retireRange t c => some (t, c, 0xC190, { mgmt 12 with rsv := [3] })
  | .retireClearEntry t c => some (t, c, 0xC190, { mgmt 12 with rsv := [3] })
  | .capQuery t c => some (t, c, 0xC152, (mgmt 1))
  | .flashInfo t c => some (t, c, 0xC1A0, (mgmt 0))
  | .dirRefresh t c => some (t, c, 0xC191, { mgmt 0 with bg := some .none })
  | .barrier t c => some (t, c, 0xC130, { CmdKind.plain true 16 with rsv := [3, 4, 5, 6, 7], part := some 0, bg := some .none })
  | .barrierList t c => some (t, c, 0xC131, (mgmt 0))
  | .twinStatus t c => some (t, c, 0xC141, (mgmt 0))
  | .twinDrill t c => some (t, c, 0xC142, { mgmt 0 with bg := some .none })
  | .blockRestart t c => some (t, c, 0xC144, (mgmt 0))
  | .capAdd t c _ _ => some (t, c, 0xC150, { mgmt 16 with rsv := [3, 4, 5, 6, 7] })
  | .capRemove t c => some (t, c, 0xC151, { mgmt 1 with bg := some (.port (mbByte c 0)) })
  | .tractRethaw t c => some (t, c, 0xC112, { mgmt 8 with rsv := [1, 2, 3], bg := some .none })
  | .tractRebuild t c => some (t, c, 0xC112, { mgmt 8 with rsv := [1, 2, 3], bg := some .none })
  | .bootSelect t c _ => some (t, c, 0xC1A1, { mgmt 1 with presence := true })
  | .getFwInfo t c => some (t, c, 0x0200, (mgmt 0))
  | .transferFw t c => some (t, c, 0x0201, { mgmt 0 with len := (128, 4096), rsv := [2, 3] ++ (List.range 128).drop 8, bg := some .flash })
  | .activateFw t c _ => some (t, c, 0x0202, { mgmt 2 with presence := true })
  | .shutdown t c => some (t, c, 0xC192, { mgmt 0 with bg := some .shutdown })
  | .counterRead t c => some (t, c, 0xC171, { mgmt 10 with rsv := [1, 2, 3] })
  | _ => none

end Sys2Proof

namespace Sys2Proof.Machine

/-! ### What a command does -/

/-- At any time `t`, in any state whose state at that time satisfies `H`, the command answers the next state `E`. -/
def Does (c : Ns → Instr) (H : State → Prop) (E : State → State) : Prop :=
  ∀ t s, H (s.tick t) → exec (c t) s = .next (E (s.tick t))

/-- An invariant that every step keeps, in every state, reached or not. -/
def KeptByStep (I : State → Prop) : Prop := ∀ s u, I s → step s = .next u → I u

/-! ### Safe states -/

/-- Scratch is in its canonical form: addresses strictly rising, no byte of zero listed (R269, R272; assumption log 4). -/
abbrev State.scratchCanonical (s : State) : Prop := Memory.wf s.scratch = true

/-- The byte of scratch at a key: way × 2^22 + offset (R269). -/
def State.scratchByte (s : State) (a : Nat) : Byte := cellGet s.scratch a

/-! ### Host messages (R75, R102, R130) -/

/-- The opcode has a row of the table. -/
def opHasRow : ReqOp → Bool
  | .memRdFwd | .memWrFwd | .other _ _ _ | .undef _ => false
  | _ => true

/-- The row of a host message by its opcode: an opcode that no row names travels in a row of its class (log 11). A read carries no data; MemWr
writes every byte. -/
def hostMessage (op : ReqOp) (t : Ns) (m : M2S) (data : Line) (be : Quad) : Instr :=
  let m := { m with enc := if opHasRow op then none else some op }
  match op with
  | .memRd => .memRd t m
  | .memRdData => .memRdData t m
  | .memInv => .memInv t m
  | .memInvNt => .memInvNt t m
  | .memClnEvct => .memClnEvct t m
  | .memSpecRd => .memSpecRd t m
  | .biConflict => .biConflict t m
  | .memWr => .memWr t m data
  | .memWrPtl => .memWrPtl t m data be
  | op => if opRwd op then .memWr t m data else .memRd t m

/-- The data that a message carries. -/
def msgData (op : ReqOp) (data : Line) : Line := if opRwd op then data else 0

/-- The byte enables of a message. -/
def msgBe (op : ReqOp) (be : Quad) : Quad :=
  match op with
  | .memWr | .other true _ _ | .undef true => BitVec.allOnes 64
  | .memWrPtl => be
  | _ => 0

/-- The intake port takes messages, and the message's host port is bound to it and has a credit left (R130, R131). -/
def State.hasCredit (s : State) (m : M2S) (op : ReqOp) : Bool :=
  let q := s.hp m.host.val
  !(s.ip m.port.val).halted && s.holdsCredits m.port.val m.host.val &&
    decide (if opRwd op then q.rwdUsed < q.rwdCr else q.reqUsed < q.reqCr)

/-- The message is counted and its credit consumed (R130). -/
def State.charged (s : State) (m : M2S) (op : ReqOp) : State :=
  (s.bumpIp m.port.val 0 0 64).onHp m.host.val fun q =>
    if opRwd op then { q with rwdUsed := q.rwdUsed + 1 } else { q with reqUsed := q.reqUsed + 1 }

/-! ### Mailbox commands (R622 to R639) -/

/-- The mailbox takes the command and serves it: Alidade serves mailboxes, the caller may use this one, no command runs on it,
and the common checks pass (R623, R625, R626, R631, R635, R636, R639). -/
def State.serves (s : State) (c : Mbx) (op : Nat) (k : CmdKind) : Bool :=
  s.alidadeUp && (decide (64 ≤ c.mb.val) || s.member c.host.val c.mb.val) && !(s.box c.mb.val).doorbell &&
    ((s.accept c op k.otp).commonCheck c k).isNone

/-- What a command of the mailboxes does where it is served: in any state in which its mailbox serves it and its own conditions `H`
hold of the state that has accepted it, it answers the next state `E` of that state. -/
def MbxDoes (i : Ns → Mbx → Instr) (H : Mbx → State → Prop) (E : Mbx → State → State) : Prop :=
  ∀ t c s op k, (i t c).mailbox = some (t, c, op, k) → (s.tick t).serves c op k = true →
    H c ((s.tick t).accept c op k.otp) → exec (i t c) s = .next (E c ((s.tick t).accept c op k.otp))

/-- The command completes with status 0x00 and an output (R625). -/
def State.completes (s : State) (c : Mbx) (out : List Byte) : State := s.mbxDone c.mb.val 0 out 0xFFFFFFFF

/-- The command completes with an error status and no DETAIL (R625, R637). -/
def State.refuses (s : State) (c : Mbx) (status : Nat) : State := s.mbxDone c.mb.val status [] 0xFFFFFFFF

/-- The command completes with status 0x04 and, in DETAIL, the offset of the field that is at fault (R625, R635). -/
def State.badField (s : State) (c : Mbx) (off : Nat) : State := s.mbxDone c.mb.val 4 [] off

/-- The command starts background work (R629). -/
def State.begins (s : State) (c : Mbx) (b : Bg) (leftMs : Nat) : State := s.mbxStart c.mb.val b leftMs

/-- The command waits in the foreground (R628). -/
def State.waitsFor (s : State) (c : Mbx) (w : Wait) : State := s.onBox c.mb.val fun b => { b with wait := some w }

end Sys2Proof.Machine
end

