-- ==== Sys2Proof/Certificates/Slice0/Obligations.lean ====
section
/-! DEFINITION. The statements about the home. Each says, for the commands it names, at what states they complete and the whole
next state they answer, which is their effect and their frame at once; or what no command can do. -/

open Sys2Proof Sys2Proof.Machine

/-- For every command c and state s: a step of s with c at the front of its queue is exec of c on s with the queue’s rest. With
nothing waiting the step changes nothing (assumption log 1). [01_home_in_the_appliance.md] -/
def Obligations.AStepRunsTheCommandAtTheFrontOfTheQueue : Prop :=
  (∀ (c : Instr) (rest : List Instr) (s : State), step { s with pending := c :: rest } = exec c { s with pending := rest })
  ∧ (∀ s : State, s.pending = [] → step s = .next s)

/-- The state after reset: nothing waits and nothing has left the block; start-up is at step 1 with no rail up, no failure and the
presence window closed; Meridian is UNLOCKED and reads 0; the block is not fail-safe, holds no Almanac record and no first
fault; no snapshot is valid; every mailbox has DOORBELL and BG_RUN clear; every partition is FREE; every scratch byte reads
zero. Where the spec states no reset value the model’s own choice (assumption log 7) is not claimed here. [07_meridian.md,
09_twin.md, 15_power_startup.md, 16_mailbox.md, 17_registers.md, R33, R286, R383, R587, R609, R624, R693] -/
def Obligations.ResetHoldsTheValuesOfTheSpec : Prop :=
  State.reset.pending = [] ∧ State.reset.out = [] ∧ State.reset.pwr.step = 1 ∧ State.reset.pwr.railsUp = false ∧ State.reset.pwr.fail = none ∧ State.reset.presenceOpen = false
      ∧ State.reset.mer.st = .unlocked ∧ State.reset.time = 0 ∧ State.reset.win.failsafe = false ∧ State.reset.win.recs = [] ∧ State.reset.win.first = none
      ∧ State.reset.blk.snapValid = false ∧ (∀ mb : Nat, (State.reset.box mb).doorbell = false ∧ (State.reset.box mb).bgRun = false)
      ∧ (∀ p : Nat, (State.reset.part p).st = .free) ∧ (∀ a : Nat, State.reset.scratchByte a = 0)

/-- For every command and every state, reached or not, exec answers a next state. It leaves the waiting commands as they are, and
the time of the block does not run back, but at the first lock, where Meridian time steps to the timekeeper’s count (R280 has
later corrections slew it); a lock of a block that has locked leaves the time as it stands. A power-up starts the block from
its reset state at its time. [01_home_in_the_appliance.md, 98_reader.md] -/
def Obligations.EveryCommandCompletesAndKeepsTheQueue : Prop :=
  (∀ (i : Instr) (s : State), ∃ u, exec i s = .next u ∧ u.pending = s.pending ∧ (i.isLock = false → s.now ≤ u.now))
  ∧ (∀ (t : Ns) (s : State), (s.tick t).mer.st ≠ .unlocked → ∃ u, exec (.meridianLock t) s = .next u ∧ s.now ≤ u.now ∧ u.now = (s.tick t).now)

/-- Whatever the state, reached or not, in which scratch is canonical: if a step answers a next state, scratch is canonical there,
so that equal scratch contents are equal data. Scratch is written by SCRATCH_WRITE, by the write of NCH_GRN_CTL and every
register row that reaches it, and by a power-up; no other command touches it. The form itself is the model’s (assumption log
4). [06_granary.md, R269, R272] -/
def Obligations.StepsKeepScratchCanonical : Prop :=
  KeptByStep fun s => s.scratchCanonical

/-- After reset scratch lists nothing, so that every byte of it reads zero and the form holds (assumption log 4). [06_granary.md,
R269, R272] -/
def Obligations.ResetScratchIsCanonical : Prop :=
  State.reset.scratchCanonical

/-- In any fail-safe state, reached or not, every command but RAILS_GOOD answers a next state that is fail-safe (R571: the block
never leaves the fail-safe state through a voting fault; R33 and R571: FAILSAFE_N is driven low on entry to it). RAILS_GOOD
ends it only as the power-up that resets the block. [01_home_in_the_appliance.md, 14_faults.md, R33, R571] -/
def Obligations.FailSafeEndsOnlyAtAPowerUp : Prop :=
  (∀ (i : Instr) (s : State), s.win.failsafe = true → i.isPowerUp = false → ∃ u, exec i s = .next u ∧ u.win.failsafe = true)
  ∧ (∀ (t : Ns) (f : Bool) (s : State), (s.tick t).win.failsafe = true → (s.tick t).pwr.railsUp = false → ∃ u, exec (.railsGood t f) s = .next u ∧ u.win.failsafe = false)

/-- For every command and state. A command other than OTP_LOAD (step 2 votes the three copies) and OTP_GOOD_RISE (a programming)
leaves every bit of the OTP unchanged, through a power-up too. A command other than SCRATCH_WRITE, the register rows that may
write NCH_GRN_CTL, which clears carved ways, and RAILS_GOOD leaves every byte of scratch unchanged. [06_granary.md,
15_power_startup.md, R269, R272, R612, R616] -/
def Obligations.OnlyTheirCommandsChangeOtpAndScratch : Prop :=
  (∀ (i : Instr) (s : State), i.mayWriteOtp = false → ∃ u, exec i s = .next u ∧ u.pwr.otp = s.pwr.otp)
  ∧ (∀ (i : Instr) (s : State) (a : Nat), i.mayWriteScratch = false → ∃ u, exec i s = .next u ∧ u.scratchByte a = s.scratchByte a)

/-- MEM_RD, MEM_RD_DATA, MEM_INV, MEM_INV_NT, MEM_CLN_EVCT, MEM_WR and MEM_WR_PTL, with a credit left at a bound and enabled host
port: the message is counted, its credit is consumed, and a request that passes the checks of R75 is kept with the CXL Tag of
its message and sent on from its intake port. A clean eviction in a plate window, a speculative read and a BIConflict are not
kept: their own statement says what they do. [02_address_partitions.md, 03_host_protocol.md, 04_slice_serialization.md, R75,
R129, R130, R173] -/
def Obligations.HostRequestWithCreditIsKept : Prop :=
  ∀ (op : ReqOp) (m : M2S) (data : Line) (be : Quad) (r : Req), Does (fun t => hostMessage op t m data be)
    (fun s => s.hasCredit m op = true ∧ (s.charged m op).check m op (msgData op data) (msgBe op be) false = .pass r ∧
      r.form ≠ .specRd ∧ r.form ≠ .biConf ∧ ¬(r.form = .clnEvct ∧ r.plate.isSome = true))
    fun s => (s.charged m op).keep r .host m.tag.toNat ((s.charged m op).firstPlace r)

/-- MEM_SPEC_RD and BI_CONFLICT, and MEM_CLN_EVCT in a plate window, with a credit left at a bound and enabled host port and past
the checks of R75: the speculative read is only counted; a BIConflict whose host port has no earlier response for the line
left at the port receives its acknowledgement, with the line; one behind such responses is remembered with their tags and
acknowledged after them; one that goes to the twin or waits for a takeover is kept (assumption log 11); the clean eviction
receives Cmp with the CXL Tag of its message, its echo, where the block mirrors, released before; each that is answered
returns its credit, and nothing else is kept. (R102 gives a clean eviction in a window; that intake answers it itself is the
reading of assumption log 11.) [03_host_protocol.md, R102, R103, R110, R122, R130] -/
def Obligations.UnkeptHostMessagesAreAnsweredAtOnce : Prop :=
  (∀ (m : M2S) (r : Req), Does (fun t => .memSpecRd t { m with enc := none })
      (fun s => s.hasCredit m .memSpecRd = true ∧ (s.charged m .memSpecRd).check m .memSpecRd 0 0 false = .pass r ∧ r.form = .specRd)
      fun s => ((s.charged m .memSpecRd).bumpIp r.intake 3 32 32).returnCredit (r.host.getD 0) false)
  ∧ (∀ (m : M2S) (r : Req), Does (fun t => .biConflict t { m with enc := none })
      (fun s => s.hasCredit m .biConflict = true ∧ (s.charged m .biConflict).check m .biConflict 0 0 false = .pass r ∧ r.form = .biConf ∧
        ((s.charged m .biConflict).firstPlace r).goes = false ∧ (s.charged m .biConflict).handed r.intake (r.host.getD 0) r.line = [])
      fun s => ((s.charged m .biConflict).send (.conflictAck r.intake (r.host.getD 0) r.line ((s.charged m .biConflict).devLoad ((s.charged m .biConflict).homeSlice r.line) (r.host.getD 0)))).returnCredit (r.host.getD 0) false)
  ∧ (∀ (m : M2S) (r : Req), Does (fun t => .biConflict t { m with enc := none })
      (fun s => s.hasCredit m .biConflict = true ∧ (s.charged m .biConflict).check m .biConflict 0 0 false = .pass r ∧ r.form = .biConf ∧
        ((s.charged m .biConflict).firstPlace r).goes = false ∧ (s.charged m .biConflict).handed r.intake (r.host.getD 0) r.line ≠ [])
      fun s => (s.charged m .biConflict).onIp r.intake fun p =>
          { p with acks := p.acks ++ [⟨r.host.getD 0, r.line, m.tag.toNat, false, (s.charged m .biConflict).handed r.intake (r.host.getD 0) r.line⟩] })
  ∧ (∀ (m : M2S) (r : Req), Does (fun t => .biConflict t { m with enc := none })
      (fun s => s.hasCredit m .biConflict = true ∧ (s.charged m .biConflict).check m .biConflict 0 0 false = .pass r ∧ r.form = .biConf ∧
        ((s.charged m .biConflict).firstPlace r).goes = true)
      fun s => (s.charged m .biConflict).keep r .host m.tag.toNat ((s.charged m .biConflict).firstPlace r))
  ∧ (∀ (m : M2S) (r : Req), Does (fun t => .memClnEvct t { m with enc := none })
      (fun s => s.hasCredit m .memClnEvct = true ∧ (s.charged m .memClnEvct).check m .memClnEvct 0 0 false = .pass r ∧ r.form = .clnEvct ∧ r.plate.isSome = true)
      fun s => (((s.charged m .memClnEvct).passEcho r m.tag.toNat).send (.ndr r.intake (r.host.getD 0) m.tag.toNat .cmp ((s.charged m .memClnEvct).ownLoad (r.host.getD 0)))).returnCredit (r.host.getD 0) false)

/-- For every host message (MEM_RD, MEM_RD_DATA, MEM_INV, MEM_INV_NT, MEM_CLN_EVCT, MEM_SPEC_RD, BI_CONFLICT, MEM_WR, MEM_WR_PTL):
where a check of R75 fails, the failure is counted and raised, the failed answer of R76 leaves with the CXL Tag of the
message, and the credit returns (of a host port that is not bound here and enabled there is none to return); where the
partition holds its requests, the request joins the hold store; at a port whose intake is stopped nothing happens.
[02_address_partitions.md, R66, R75, R76, R77] -/
def Obligations.HostMessageFailsOrIsHeld : Prop :=
  (∀ (op : ReqOp) (m : M2S) (data : Line) (be : Quad) (k : Nat) (p : Option Nat), Does (fun t => hostMessage op t m data be)
      (fun s => s.hasCredit m op = true ∧ (s.charged m op).check m op (msgData op data) (msgBe op be) false = .fail k p)
      fun s => ((((s.charged m op).countFail m.port.val k m.host.val op m.offset.toNat p).failOut m.port.val m.host.val m.tag.toNat
        (failAnswer op m.mf (formOf op m.mf m.mv m.snp))).returnCredit m.host.val (opRwd op)))
  ∧ (∀ (op : ReqOp) (m : M2S) (data : Line) (be : Quad) (k : Nat) (p : Option Nat), Does (fun t => hostMessage op t m data be)
      (fun s => (s.ip m.port.val).halted = false ∧ s.holdsCredits m.port.val m.host.val = false ∧ (s.bumpIp m.port.val 0 0 64).check m op (msgData op data) (msgBe op be) false = .fail k p)
      fun s => (((s.bumpIp m.port.val 0 0 64).countFail m.port.val k m.host.val op m.offset.toNat p).failOut m.port.val m.host.val m.tag.toNat
        (failAnswer op m.mf (formOf op m.mf m.mv m.snp))))
  ∧ (∀ (op : ReqOp) (m : M2S) (data : Line) (be : Quad) (r : Req), Does (fun t => hostMessage op t m data be)
      (fun s => s.hasCredit m op = true ∧ (s.charged m op).check m op (msgData op data) (msgBe op be) false = .hold r)
      fun s => (s.charged m op).holdReq r m.tag.toNat)
  ∧ (∀ (op : ReqOp) (m : M2S) (data : Line) (be : Quad), Does (fun t => hostMessage op t m data be)
      (fun s => (s.ip m.port.val).halted = true)
      fun s => s)

/-- A host message (MEM_RD, MEM_RD_DATA, MEM_INV, MEM_INV_NT, MEM_CLN_EVCT, MEM_SPEC_RD, BI_CONFLICT, MEM_WR, MEM_WR_PTL) that
arrives, at an intake port that takes messages, for a host port that is bound to it and has no credit of the message’s class
left: the port’s message counter and its credit-overrun counter rise by one, the credit-overrun event is raised on the port’s
source (the kind byte of its records is free: assumption log 9), and where the address lies in a range of the host port’s
partition the partition records the overrun (R135). Nothing else changes: nothing is kept, no credit is used, nothing is
answered. [R131] -/
def Obligations.HostMessageWithoutCreditIsDiscarded : Prop :=
  ∀ (op : ReqOp) (m : M2S) (data : Line) (be : Quad), Does (fun t => hostMessage op t m data be)
    (fun s => (s.ip m.port.val).halted = false ∧ s.holdsCredits m.port.val m.host.val = true ∧
      (if opRwd op then (s.hp m.host.val).rwdCr ≤ (s.hp m.host.val).rwdUsed else (s.hp m.host.val).reqCr ≤ (s.hp m.host.val).reqUsed))
    fun s => (match (s.bumpIp m.port.val 0 0 64).overrunPart m.host.val m.offset.toNat with
      | some p => ((((s.bumpIp m.port.val 0 0 64).bumpIp m.port.val 3 0 32).raise (srcIp m.port.val 2) (256 + 131) (m.offset.toNat / 64 % 2 ^ 42) p m.host.val).record p 0
          (.overrun m.host.val (opRwd op)))
      | none => (((s.bumpIp m.port.val 0 0 64).bumpIp m.port.val 3 0 32).raise (srcIp m.port.val 2) (256 + 131) (m.offset.toNat / 64 % 2 ^ 42) 0 m.host.val))

/-- BI_RSP: an answer to an outstanding snoop that conforms to its form frees the BITag, counts down the entry and records whether
the holder stays; one that does not conform declares the host port unresponsive and counts the holder as silent; one that
matches no outstanding snoop is discarded, counted and raised. SNOOP_TIMEOUT: an answer still missing after the snoop timeout
declares the host port unresponsive and counts the holder as silent. BISNP_ISSUE: the snoops that wait at the intake ports and
may leave now go first; then the entry whose turn it is sends its next snoop with a free BITag of the holder’s intake port
(the lowest one is the model’s choice: assumption log 56); an unresponsive holder counts as silent at once. BISNP_CREDIT,
outside a power failure: the credit is counted, and the snoops that wait at the port leave on what credits it has, the lowest
BITag first (assumption log 56). [02_address_partitions.md, 03_host_protocol.md, 04_slice_serialization.md, R78, R117, R119,
R124, R133, R165, R174] -/
def Obligations.SnoopAnswersReachTheirEntry : Prop :=
  (∀ (port : IntakeId) (host : HostId) (line : BitVec 42) (bitag : Nat) (ans : BIAns) (y : Snoop) (k : Option Bool), Does (fun t => .biRsp t port host line bitag ans)
      (fun s => (s.ip port.val).halted = false ∧ (s.ip port.val).retired.contains bitag = false ∧ Tbl.find (s.ip port.val).snoops bitag = some y ∧
        ans ≠ .block ∧ y.host = host.val ∧ y.line = line.toNat ∧ y.left.isSome = true ∧ conform y.form ans = some k)
      fun s => (((s.sendRsp port.val y ans).dropSnoop port.val bitag).onEnt y.slice y.entry fun x =>
        { x with expect := x.expect - 1, stay := match k with
            | some b => x.stay ++ [(y.host, b)]
            | none => x.stay }).serve y.slice y.entry)
  ∧ (∀ (port : IntakeId) (host : HostId) (line : BitVec 42) (bitag : Nat) (ans : BIAns) (y : Snoop), Does (fun t => .biRsp t port host line bitag ans)
      (fun s => (s.ip port.val).halted = false ∧ (s.ip port.val).retired.contains bitag = false ∧ Tbl.find (s.ip port.val).snoops bitag = some y ∧
        ans ≠ .block ∧ y.host = host.val ∧ y.line = line.toNat ∧ y.left.isSome = true ∧ conform y.form ans = none)
      fun s => ((((((s.sendRsp port.val y ans).dropSnoop port.val bitag).bumpIp port.val 5 32 32).raise (srcIp port.val 2) (256 + 119) y.line y.part y.host).declare
        port.val y.host y.line y.part y.form).silent y.slice y.entry port.val y.dirty).serve y.slice y.entry)
  ∧ (∀ (port : IntakeId) (host : HostId) (line : BitVec 42) (bitag : Nat) (ans : BIAns), Does (fun t => .biRsp t port host line bitag ans)
      (fun s => (s.ip port.val).halted = false ∧ (s.ip port.val).retired.contains bitag = false ∧ Tbl.find (s.ip port.val).snoops bitag = none)
      fun s => (s.bumpIp port.val 2 48 16).raise (srcIp port.val 0) (256 + 78) line.toNat 0 host.val)
  ∧ (∀ (port : IntakeId) (bitag : Nat) (y : Snoop) (t0 : Nat), Does (fun t => .snoopTimeout t port bitag)
      (fun s => Tbl.find (s.ip port.val).snoops bitag = some y ∧ y.left = some t0 ∧ t0 + s.blk.snpTmo * 1000 ≤ s.now)
      fun s => (((s.dropSnoop port.val bitag).declare port.val y.host y.line y.part y.form).silent y.slice y.entry port.val y.dirty).serve y.slice y.entry)
  ∧ (∀ (n : SliceId) (e w : Nat) (rest : List Nat) (x : Entry) (tag : Nat) (v : State), Does (fun t => .bisnpIssue t n)
      (fun s => s.mute = false ∧ State.each (fun i s => s.sendWaiting i) (List.range 16) s = v ∧ v.mute = false ∧ v.nextIssue n.val = some (e, x) ∧
        x.toIssue = w :: rest ∧ (v.hp w).unresp = false ∧ (v.ip (v.hp w).intake).bitag = some tag)
      fun s => (let v := State.each (fun i s => s.sendWaiting i) (List.range 16) s
        let y : Snoop := { slice := n.val, entry := e, host := w, line := x.req.line, part := x.req.part, form := x.snp, dirty := mayDirty x.hrec,
                           left := none, wrote := false, after := x.after' }
        let u := (v.issuing n.val e rest).packet (.slice n.val) (.intake (v.hp w).intake) 0x20
          { prio := (v.issuing n.val e rest).prio x.req.part, tag := e, host := some w, part := x.req.part, line := x.req.line, form := x.snp.num }
        (((u.onIp (v.hp w).intake fun q => { q with snoops := Tbl.set q.snoops tag y }).sendSnoop (v.hp w).intake tag).takeWaiting n.val e w x.req.line)))
  ∧ (∀ (n : SliceId) (e w : Nat) (rest : List Nat) (x : Entry) (v : State), Does (fun t => .bisnpIssue t n)
      (fun s => s.mute = false ∧ State.each (fun i s => s.sendWaiting i) (List.range 16) s = v ∧ v.mute = false ∧ v.nextIssue n.val = some (e, x) ∧
        x.toIssue = w :: rest ∧ (v.hp w).unresp = true)
      fun s => (let v := State.each (fun i s => s.sendWaiting i) (List.range 16) s
        ((v.issuing n.val e rest).silent n.val e (v.hp w).intake (mayDirty x.hrec)).serve n.val e))
  ∧ (∀ (i : IntakeId), Does (fun t => .bisnpCredit t i)
      (fun s => (s.onIp i.val fun q => { q with snpCredits := q.snpCredits + 1 }).mute = false)
      fun s => (s.onIp i.val fun q => { q with snpCredits := q.snpCredits + 1 }).sendWaiting i.val)

/-- INTAKE_ARBITRATION takes the head of the stream whose turn it is, moves the stream and the pointer on, and admits the request;
then the requests that waited for the twin port, the redelivered messages of a takeover and the requests held behind a replay
go on where they may. FILTER_LOOKUP_DONE gives the entry the holder record of a hit, or a way (or the directory alone) on a
miss, and serves it. GRANARY_LOOKUP_DONE takes the data of a hit or starts the media read of a miss. NOTE_ACK records the
settle sequence and epoch with the kept header and counts the notice. WRITE_SETTLE settles the write of a sequence and serves
the entry that took it as a writeback, and TWIN_ACK marks the writes of a sequence as held by the twin and settles what that
completes. INTAKE_RESPONSE_RELEASE sends a complete response whose time has come by the answering slice’s replica and that no
BIConflict acknowledgement must precede. [05_sheaf_filter.md, 06_granary.md, 09_twin.md, R112, R144, R154, R157, R158, R161,
R207, R244, R393] -/
def Obligations.SliceStagesAdvanceTheirRequest : Prop :=
  (∀ (n : SliceId) (i : Nat) (r : Req), Does (fun t => .intakeArbitration t n)
      (fun s => s.takes n.val = true ∧ s.win.failsafe = false ∧ (s.slc n.val).front.pick = some (i, r))
      fun s => ((s.takeHead n.val i r).admitReq n.val r).goOn n.val (s.replayAhead (buddy n.val)))
  ∧ (∀ (n : SliceId) (e w : Nat) (err : Option (ArrayWord × WordFault)) (x y : Entry) (f : FEntry), Does (fun t => .filterLookupDone t n ⟨e, err⟩)
      (fun s => s.ent n.val e = some x ∧ x.kind = .host ∧ x.st = .lookup ∧ x.fltDone = false ∧ (s.slc n.val).banks.inSpill x.req.line = false ∧
        (s.meets err (Form.trans x.req.form)).ent n.val e = some y ∧ ((s.meets err (Form.trans x.req.form)).slc n.val).banks.fltWay y.req.line = some w ∧
        ((s.meets err (Form.trans x.req.form)).slc n.val).banks.fltAt (fltSet y.req.line) w = some f)
      fun s => ((s.meets err (Form.trans x.req.form)).putEnt n.val e { y with fltDone := true, hrec := f.recOf (inSheaf y.req.line) }).serve n.val e)
  ∧ (∀ (n : SliceId) (e : Nat) (err : Option (ArrayWord × WordFault)) (x y : Entry), Does (fun t => .filterLookupDone t n ⟨e, err⟩)
      (fun s => s.ent n.val e = some x ∧ x.kind = .host ∧ x.st = .lookup ∧ x.fltDone = false ∧ (s.slc n.val).banks.inSpill x.req.line = false ∧
        (s.meets err (Form.trans x.req.form)).ent n.val e = some y ∧ ((s.meets err (Form.trans x.req.form)).slc n.val).banks.fltWay y.req.line = none)
      fun s => ((s.meets err (Form.trans x.req.form)).fltMiss n.val e y).serve n.val e)
  ∧ (∀ (n : SliceId) (e k : Nat) (err : Option (ArrayWord × WordFault)) (x y : Entry) (g : GEntry), Does (fun t => .granaryLookupDone t n ⟨e, err⟩)
      (fun s => s.ent n.val e = some x ∧ x.kind = .host ∧ x.fail = none ∧ x.grnDone = false ∧ (s.slc n.val).banks.fillPending x.req.line = false ∧
        (s.meets err (Form.trans x.req.form)).ent n.val e = some y ∧ (s.meets err (Form.trans x.req.form)).isFrozen (tractOf x.req.line) = false ∧
        y.req.plate = none ∧ ((s.meets err (Form.trans x.req.form)).slc n.val).banks.grnFind x.req.line = some k ∧
        Tbl.find ((s.meets err (Form.trans x.req.form)).slc n.val).banks.grn k = some g ∧ g.st ≠ .evicting)
      fun s => (s.meets err (Form.trans x.req.form)).grnHit n.val e k y g)
  ∧ (∀ (n : SliceId) (e : Nat) (err : Option (ArrayWord × WordFault)) (x y : Entry), Does (fun t => .granaryLookupDone t n ⟨e, err⟩)
      (fun s => s.ent n.val e = some x ∧ x.kind = .host ∧ x.fail = none ∧ x.grnDone = false ∧ (s.slc n.val).banks.fillPending x.req.line = false ∧
        (s.meets err (Form.trans x.req.form)).ent n.val e = some y ∧ (s.meets err (Form.trans x.req.form)).isFrozen (tractOf x.req.line) = false ∧
        y.req.plate = none ∧ ((s.meets err (Form.trans x.req.form)).slc n.val).banks.grnFind x.req.line = none)
      fun s => (s.meets err (Form.trans x.req.form)).grnMiss n.val e y)
  ∧ (∀ (port : IntakeId) (n : SliceId) (seq : Word) (tag : Nat) (w : Pend) (k : Kept), Does (fun t => .noteAck t port n seq tag)
      (fun s => s.pend? n.val seq.toNat = some w ∧ s.kept? port.val tag = some k ∧ w.notes.contains (port.val, tag) = true)
      fun s => ((s.packet (.intake port.val) (.slice n.val) 0x43 { prio := s.prio w.part, tag := tag, part := w.part, line := w.line, aux := seq.toNat }).onIp port.val
        fun p => p.onKept tag fun k => { k with req := { k.req with noted := some seq.toNat, epoch := some w.epoch } }).onPends n.val
        (fun y => y.seq == seq.toNat) fun y => { y with notes := y.notes.erase (port.val, tag) })
  ∧ (∀ (n : SliceId) (seq : Word), Does (fun t => .writeSettle t n seq)
      (fun _ => True)
      fun s => ((s.settleWrite n.val seq.toNat).serveWb n.val seq.toNat).wake n.val)
  ∧ (∀ (n : SliceId) (seq : Word), Does (fun t => .twinAck t n seq)
      (fun _ => True)
      fun s => let u := (s.frame.bumpTwn 3 0 64).onPends n.val (fun w => w.seq == seq.toNat) fun w => { w with twinAck := true }
        (u.twinIn (.slice n.val) 0x46 { prio := ((u.pend? n.val seq.toNat).map fun w => u.prio w.part).getD 0, aux := seq.toNat }).settleUp n.val)
  ∧ (∀ (port : IntakeId) (tag : Nat) (k : Kept), Does (fun t => .intakeResponseRelease t port tag)
      (fun s => s.kept? port.val tag = some k ∧ k.ready = true ∧ k.after ≤ s.sliceNow k.slice ∧ s.mute = false ∧ (s.ip port.val).behindAck k = false)
      fun s => (s.releaseKept port.val k).stopTick)

/-- HOLD_TIMEOUT: when a partition has held requests for 5 ms, the event of R67 is raised once and the held requests remain.
HOLD_OVERRUN: a line moved under hold for 2 µs is released, the move is abandoned, and the event of R167 is raised.
TRACKER_AGE: an entry older than AGE_LIMIT raises the event of R169 once and continues unchanged. [02_address_partitions.md,
04_slice_serialization.md, R67, R167, R169] -/
def Obligations.RequestAgeLimitsRaiseTheirEvent : Prop :=
  (∀ (part : PartId) (t0 : Nat), Does (fun t => .holdTimeout t part)
      (fun s => (s.part part.val).heldSince = some t0 ∧ t0 + 5000000 ≤ s.now ∧ (s.part part.val).holdEv = false)
      fun s => (s.onPart part.val fun q => { q with holdEv := true }).raise (srcFw 1) (256 + 67) 0 part.val 0)
  ∧ (∀ (n : SliceId) (e : Nat) (x : Entry), Does (fun t => .holdOverrun t n e)
      (fun s => s.ent n.val e = some x ∧ x.hold = true ∧ x.start + 2000 ≤ s.time)
      fun s => (((((s.dropEnt n.val e).unlock n.val x.req.line).bumpPlc 6 32 16).raise (srcSlc n.val 5) (256 + 167) x.req.line x.req.part n.val).abandonMove
        (tractOf x.req.line)).refillAll n.val)
  ∧ (∀ (n : SliceId) (e : Nat) (x : Entry), Does (fun t => .trackerAge t n e)
      (fun s => s.ent n.val e = some x ∧ x.aged = false ∧ x.start + s.blk.trkAge * 1000000 < s.time)
      fun s => (s.putEnt n.val e { x with aged := true }).raise (srcSlc n.val 5) (256 + 169) x.req.line x.req.part n.val)

/-- MEDIA_READ_RETURN: a codeword that decodes leaves its port and gives the request (or the internal entry) its data; one that
does not is read a second time, and then lost; what the port’s queue can take next is issued after a host’s read. MEDIA_RMW: a
codeword that decodes gives the directory write its codeword; one that is lost ends the write as R192 and R710 say.
MEDIA_WRITE_ACCEPTED: outside the halt and the fail-safe state, with fewer than 256 accepted writes held, the write becomes an
accepted write, the pending writes that its codeword holds are marked, and what is thereby done settles. MEDIA_WRITE_COMPLETE:
the write leaves its port, the writes that its codeword holds are marked as in the media, and a drained line is clean.
[03_host_protocol.md, 05_sheaf_filter.md, 06_granary.md, 08_ordering_durability.md, 13_line_integrity.md, R112, R191, R253,
R263, R340, R520, R521] -/
def Obligations.MediaAnswersReachTheirRequest : Prop :=
  (∀ (m : MediaId) (id : Nat) (cw : Codeword) (o : MOp) (e : Nat) (c : Codeword) (f a : Bool), Does (fun t => .mediaReadReturn t m id cw)
      (fun s => s.op? m.val id = some o ∧ o.write = false ∧ o.purp = .read e ∧ ((s.sendCw m.val o cw).decode m.val o cw (s.sendCw m.val o cw).laneCtl).1 = .ok c f a)
      fun s => ((((s.sendCw m.val o cw).decode m.val o cw (s.sendCw m.val o cw).laneCtl).2.dropOp m.val id).hostGot o.slice e m.val o c f a).pumpPort m.val)
  ∧ (∀ (m : MediaId) (id : Nat) (cw : Codeword) (o : MOp) (e : Nat), Does (fun t => .mediaReadReturn t m id cw)
      (fun s => s.op? m.val id = some o ∧ o.write = false ∧ o.purp = .read e ∧ ((s.sendCw m.val o cw).decode m.val o cw (s.sendCw m.val o cw).laneCtl).1 = .again)
      fun s => ((s.sendCw m.val o cw).decode m.val o cw (s.sendCw m.val o cw).laneCtl).2.send (.media m.val o))
  ∧ (∀ (m : MediaId) (id : Nat) (cw : Codeword) (o : MOp) (e : Nat), Does (fun t => .mediaReadReturn t m id cw)
      (fun s => s.op? m.val id = some o ∧ o.write = false ∧ o.purp = .read e ∧ ((s.sendCw m.val o cw).decode m.val o cw (s.sendCw m.val o cw).laneCtl).1 = .lost)
      fun s => ((((s.sendCw m.val o cw).decode m.val o cw (s.sendCw m.val o cw).laneCtl).2.dropOp m.val id).hostLost o.slice e m.val o true).pumpPort m.val)
  ∧ (∀ (m : MediaId) (id : Nat) (cw : Codeword) (o : MOp) (e : Nat) (c : Codeword) (f a : Bool), Does (fun t => .mediaReadReturn t m id cw)
      (fun s => s.op? m.val id = some o ∧ o.write = false ∧ o.purp = .scrub e ∧ ((s.sendCw m.val o cw).decode m.val o cw (s.sendCw m.val o cw).laneCtl).1 = .ok c f a)
      fun s => (((s.sendCw m.val o cw).decode m.val o cw (s.sendCw m.val o cw).laneCtl).2.dropOp m.val id).intGot o.slice e m.val o c f)
  ∧ (∀ (m : MediaId) (id : Nat) (cw : Codeword) (o : MOp) (e : Nat), Does (fun t => .mediaReadReturn t m id cw)
      (fun s => s.op? m.val id = some o ∧ o.write = false ∧ o.purp = .scrub e ∧ ((s.sendCw m.val o cw).decode m.val o cw (s.sendCw m.val o cw).laneCtl).1 = .lost)
      fun s => (((s.sendCw m.val o cw).decode m.val o cw (s.sendCw m.val o cw).laneCtl).2.dropOp m.val id).intLost o.slice e m.val o true)
  ∧ (∀ (m : MediaId) (id : Nat) (cw : Codeword) (o : MOp) (e : Nat), Does (fun t => .mediaReadReturn t m id cw)
      (fun s => s.op? m.val id = some o ∧ o.write = false ∧ o.purp = .scrub e ∧ ((s.sendCw m.val o cw).decode m.val o cw (s.sendCw m.val o cw).laneCtl).1 = .again)
      fun s => ((s.sendCw m.val o cw).decode m.val o cw (s.sendCw m.val o cw).laneCtl).2.send (.media m.val o))
  ∧ (∀ (m : MediaId) (id : Nat) (cw : Codeword) (o : MOp) (k : Nat) (c : Codeword) (f a : Bool) (d : DirW), Does (fun t => .mediaRmw t m id cw)
      (fun s => s.op? m.val id = some o ∧ o.write = false ∧ o.purp = .dirw k ∧ ((s.sendCw m.val o cw).decode m.val o cw s.laneCtl).1 = .ok c f a ∧ ((s.sendCw m.val o cw).decode m.val o cw s.laneCtl).2.dirw? o.slice k = some d)
      fun s => (((s.sendCw m.val o cw).decode m.val o cw s.laneCtl).2.dropOp m.val id).rmwGot o.slice d c)
  ∧ (∀ (m : MediaId) (id : Nat) (cw : Codeword) (o : MOp) (k : Nat) (d : DirW), Does (fun t => .mediaRmw t m id cw)
      (fun s => s.op? m.val id = some o ∧ o.write = false ∧ o.purp = .dirw k ∧ ((s.sendCw m.val o cw).decode m.val o cw s.laneCtl).1 = .lost ∧ ((s.sendCw m.val o cw).decode m.val o cw s.laneCtl).2.dirw? o.slice k = some d)
      fun s => (((s.sendCw m.val o cw).decode m.val o cw s.laneCtl).2.dropOp m.val id).rmwLost o.slice m.val d true)
  ∧ (∀ (m : MediaId) (id : Nat) (cw : Codeword) (o : MOp) (k : Nat), Does (fun t => .mediaRmw t m id cw)
      (fun s => s.op? m.val id = some o ∧ o.write = false ∧ o.purp = .dirw k ∧ ((s.sendCw m.val o cw).decode m.val o cw s.laneCtl).1 = .again)
      fun s => ((s.sendCw m.val o cw).decode m.val o cw s.laneCtl).2.send (.media m.val o))
  ∧ (∀ (m : MediaId) (id : Nat) (o : MOp), Does (fun t => .mediaWriteAccepted t m id)
      (fun s => s.op? m.val id = some o ∧ o.write = true ∧ o.accepted = false ∧ (s.mp m.val).held < 256 ∧ (s.mp m.val).before o = false ∧ s.win.failsafe = false ∧ s.pwr.st ≠ .halt)
      fun s => ((((((s.onMp m.val fun q => { q with ops := q.ops.map fun x => if x.id = id then { o with accepted := true, since := s.now } else x }).send
        (.media m.val { o with accepted := true, since := s.now })).sendMack m.val o false).onPends o.slice
          (fun w => w.line == o.line && o.holds.contains w.seq) fun w => { w with accepted := true }).acceptedFor o.slice o).settleUp o.slice).recallsGo)
  ∧ (∀ (m : MediaId) (id : Nat) (o : MOp), Does (fun t => .mediaWriteComplete t m id)
      (fun s => s.op? m.val id = some o ∧ o.write = true ∧ o.accepted = true ∧ (o.purp = .through ∨ o.purp = .drain))
      fun s => ((((((((s.dropOp m.val id).onPends o.slice (fun w => w.line == o.line && o.holds.contains w.seq) fun w => { w with media := true }).cleanLine
        o.slice o).sendMack m.val o true).settleUp o.slice).handTick o.slice).drainOver).pumpPort m.val))
  ∧ (∀ (m : MediaId) (id : Nat) (o : MOp), Does (fun t => .mediaWriteComplete t m id)
      (fun s => s.op? m.val id = some o ∧ o.write = true ∧ o.accepted = true ∧ o.purp ≠ .through ∧ o.purp ≠ .drain)
      fun s => (((((((s.dropOp m.val id).onPends o.slice (fun w => w.line == o.line && o.holds.contains w.seq) fun w => { w with media := true }).sendMack
        m.val o true).settleUp o.slice).handTick o.slice).drainOver).pumpPort m.val))

/-- MEDIA_READ_TIMEOUT: a read past READ_TMO counts; the first time it is repeated, and the second time it leaves its port, the
event of R528 is raised, and the request is served as of a lost codeword. MEDIA_WRITE_TIMEOUT: an accepted write past
WRITE_TMO counts and is repeated; from the second time on the event of R528 is raised with it. MEDIA_PORT_FAULT raises the
event that the media controller reports, of class GRAVE for kind 0xFF (port lost). [05_sheaf_filter.md, 13_line_integrity.md,
14_faults.md, R528, R554, R710] -/
def Obligations.MediaTimeoutsRepeatOnceAndFaultsAreRaised : Prop :=
  (∀ (m : MediaId) (id : Nat) (o : MOp), Does (fun t => .mediaReadTimeout t m id)
      (fun s => s.op? m.val id = some o ∧ o.write = false ∧ o.accepted = false ∧ o.since + s.blk.readTmo * 1000 ≤ s.now ∧ o.tries = 0)
      fun s => (s.bumpMp m.val 2 0 24).repeatOp m.val o)
  ∧ (∀ (m : MediaId) (id : Nat) (o : MOp) (e : Nat), Does (fun t => .mediaReadTimeout t m id)
      (fun s => s.op? m.val id = some o ∧ o.write = false ∧ o.accepted = false ∧ o.since + s.blk.readTmo * 1000 ≤ s.now ∧ o.tries ≠ 0 ∧ o.purp = .read e)
      fun s => (((((s.bumpMp m.val 2 0 24).dropOp m.val id).raise (srcMp m.val 0) (256 + 528) o.line
        (State.mapPart (s.bumpMp m.val 2 0 24) o.line) o.slice).hostLost o.slice e m.val o false)))
  ∧ (∀ (m : MediaId) (id : Nat) (o : MOp) (e : Nat), Does (fun t => .mediaReadTimeout t m id)
      (fun s => s.op? m.val id = some o ∧ o.write = false ∧ o.accepted = false ∧ o.since + s.blk.readTmo * 1000 ≤ s.now ∧ o.tries ≠ 0 ∧ o.purp = .scrub e)
      fun s => (((((s.bumpMp m.val 2 0 24).dropOp m.val id).raise (srcMp m.val 0) (256 + 528) o.line
        (State.mapPart (s.bumpMp m.val 2 0 24) o.line) o.slice).intLost o.slice e m.val o false)))
  ∧ (∀ (m : MediaId) (id : Nat) (o : MOp), Does (fun t => .mediaWriteTimeout t m id)
      (fun s => s.op? m.val id = some o ∧ o.write = true ∧ o.accepted = true ∧ o.since + s.blk.writeTmo * 1000 ≤ s.now ∧ o.tries = 0)
      fun s => (s.bumpMp m.val 2 24 24).repeatOp m.val o)
  ∧ (∀ (m : MediaId) (id : Nat) (o : MOp), Does (fun t => .mediaWriteTimeout t m id)
      (fun s => s.op? m.val id = some o ∧ o.write = true ∧ o.accepted = true ∧ o.since + s.blk.writeTmo * 1000 ≤ s.now ∧ o.tries ≠ 0)
      fun s => ((s.bumpMp m.val 2 24 24).repeatOp m.val o).raise (srcMp m.val 1) (256 + 528) o.line
        (State.mapPart ((s.bumpMp m.val 2 24 24).repeatOp m.val o) o.line) o.slice)
  ∧ (∀ (m : MediaId) (kind : Byte), Does (fun t => .mediaPortFault t m kind)
      (fun _ => True)
      fun s => s.raiseC (srcMp m.val 3) kind.toNat (if kind = 0xFF then some 4 else none) 0 0 m.val 0)

/-- TRACT_WALK: for a walking entry the frozen list comes first, then the map cache, then the two copies of the map line; a good
entry gives the placement (from the second copy, the first is rewritten), and no good copy freezes the tract. WALK_RESPONSE:
the result fills the tract buffer and the media read goes. TRACT_FREEZE freezes the tract. THAW_ATTEMPT: once, within 1 ms of
the freeze: with a good entry of the partition and a good line the tract thaws, otherwise the attempt ends without it.
FROZEN_WRITE_HOLD_EXPIRY: 1 ms after the freeze the held writes of the tract end. [10_placement.md, R437, R438, R440, R441,
R442] -/
def Obligations.TractWalksFreezesAndThaws : Prop :=
  (∀ (n : SliceId) (e : Nat) (x : Entry) (rd : MapRead), Does (fun t => .tractWalk t n e rd)
      (fun s => s.ent n.val e = some x ∧ x.walking = true ∧ x.place = none ∧ x.fail = none ∧ (s.place.frozen.any fun f => f.tract == tractOf x.req.line) = true)
      fun s => (s.bumpPlc 0 0 32).failFrozen n.val e)
  ∧ (∀ (n : SliceId) (e : Nat) (x : Entry) (rd : MapRead), Does (fun t => .tractWalk t n e rd)
      (fun s => s.ent n.val e = some x ∧ x.walking = true ∧ x.place = none ∧ x.fail = none ∧ (s.place.frozen.any fun f => f.tract == tractOf x.req.line) = false ∧
        s.cacheHit (tractOf x.req.line) = true)
      fun s => ((s.bumpPlc 0 0 32).bumpPlc 0 32 32).walkGot n.val e (tractOf x.req.line) (readEntry s.place.map (tractOf x.req.line) 0))
  ∧ (∀ (n : SliceId) (e : Nat) (x : Entry) (rd : MapRead) (q : Quad), Does (fun t => .tractWalk t n e rd)
      (fun s => s.ent n.val e = some x ∧ x.walking = true ∧ x.place = none ∧ x.fail = none ∧ (s.place.frozen.any fun f => f.tract == tractOf x.req.line) = false ∧
        s.cacheHit (tractOf x.req.line) = false ∧ s.walkRead (tractOf x.req.line) rd = some (q, false))
      fun s => ((s.bumpPlc 0 0 32).bumpPlc 1 0 32).walkGot n.val e (tractOf x.req.line) q)
  ∧ (∀ (n : SliceId) (e : Nat) (x : Entry) (rd : MapRead) (q : Quad), Does (fun t => .tractWalk t n e rd)
      (fun s => s.ent n.val e = some x ∧ x.walking = true ∧ x.place = none ∧ x.fail = none ∧ (s.place.frozen.any fun f => f.tract == tractOf x.req.line) = false ∧
        s.cacheHit (tractOf x.req.line) = false ∧ s.walkRead (tractOf x.req.line) rd = some (q, true))
      fun s => ((((s.bumpPlc 0 0 32).bumpPlc 1 0 32).bumpPlc 1 32 16).onPlace fun p => { p with map := Tbl.set p.map (tractOf x.req.line) q }).walkGot n.val e
        (tractOf x.req.line) q)
  ∧ (∀ (n : SliceId) (e : Nat) (x : Entry) (rd : MapRead), Does (fun t => .tractWalk t n e rd)
      (fun s => s.ent n.val e = some x ∧ x.walking = true ∧ x.place = none ∧ x.fail = none ∧ (s.place.frozen.any fun f => f.tract == tractOf x.req.line) = false ∧
        s.cacheHit (tractOf x.req.line) = false ∧ s.walkRead (tractOf x.req.line) rd = none)
      fun s => (if s.rooted (tractOf x.req.line) then ((s.bumpPlc 0 0 32).bumpPlc 1 0 32).bumpPlc 1 32 16 else (s.bumpPlc 0 0 32).bumpPlc 1 0 32).failWalk n.val e false)
  ∧ (∀ (n : SliceId) (e : Nat) (x : Entry) (p : Nat × Nat × Nat) (q : Quad), Does (fun t => .walkResponse t n e)
      (fun s => s.ent n.val e = some x ∧ x.walking = true ∧ x.place = some p ∧ s.isFrozen (tractOf x.req.line) = false ∧ s.mapEntry (tractOf x.req.line) = some q)
      fun s => (s.bufPut n.val (tractOf x.req.line) q).issueRead n.val e p)
  ∧ (∀ (tract : BitVec 32), Does (fun t => .tractFreeze t tract)
      (fun _ => True)
      fun s => s.freeze tract.toNat (tract.toNat * 1024) ((s.mapEntry tract.toNat).any fun e => meOk tract.toNat e))
  ∧ (∀ (tract : BitVec 32) (q : Quad) (f : Freeze), Does (fun t => .thawAttempt t tract (some q) true)
      (fun s => (s.place.frozen.find? fun f => f.tract == tract.toNat && !f.tried) = some f ∧ s.now ≤ f.since + 1000000 ∧
        (s.twin.st = .paired ∨ f.since + 100000 ≤ s.now) ∧ meOk tract.toNat q = true ∧ s.partOf (tract.toNat * 1024) = some (mePart q))
      fun s => ((s.onPlace fun p => { p with frozen := p.frozen.map fun g => if g.tract = tract.toNat then { g with tried := true } else g }).thaw tract.toNat
        q).endFrozen tract.toNat)
  ∧ (∀ (tract : BitVec 32) (lineOk : Bool) (f : Freeze), Does (fun t => .thawAttempt t tract none lineOk)
      (fun s => (s.place.frozen.find? fun f => f.tract == tract.toNat && !f.tried) = some f ∧ s.now ≤ f.since + 1000000 ∧
        (s.twin.st = .paired ∨ f.since + 100000 ≤ s.now))
      fun s => (s.onPlace fun p => { p with frozen := p.frozen.map fun g => if g.tract = tract.toNat then { g with tried := true } else g }).endFrozen tract.toNat)
  ∧ (∀ (tract : BitVec 32) (f : Freeze), Does (fun t => .frozenWriteHoldExpiry t tract)
      (fun s => (s.place.frozen.find? fun f => f.tract == tract.toNat && !f.tried) = some f ∧ f.since + 1000000 ≤ s.now)
      fun s => (s.onPlace fun p => { p with frozen := p.frozen.map fun g => if g.tract = tract.toNat then { g with tried := true } else g }).endFrozen tract.toNat)

/-- DG_ADVANCE_PERSISTED, of a set whose advance waits for it, records the directory generation as saved, makes the directory
writes that waited for it, marks the advance of a takeover as done and asks for the recall; without such an advance nothing
changes. RECALL_RETURN places every recalled line dirty with the doubt marker and its sequence; RECALL_GAP_TIMEOUT gives a
missing recall packet up after 50 µs. REPLAY_LIST moves an intake port’s unanswered requests of the fenced slice to the
covering slice and takes its marker. END_OF_REPLAY, with all 16 markers, the persisted generation and the recall, serves the
replayed writes in order of their sequences, gives the other requests back to the slice’s arbiter in their order, and opens
the ports; with nothing to replay the cover ends. SLICE_PREPARE of a slice in service whose buddy is in service begins its
handover, and HANDOVER_OVERRUN raises its event 1 ms after the instant. ENABLE_INSTANT makes the pending enables of its slot
effective; a run that meets a STOPPED partition leaves it as it is and ABANDONS the slot. [04_slice_serialization.md,
05_sheaf_filter.md, 12_rachis.md, 17_registers.md, R174, R175, R185, R187, R219, R221, R509, R697] -/
def Obligations.BuddyTakeoverStagesAndHandover : Prop :=
  (∀ (n : SliceId), Does (fun t => .dgAdvancePersisted t n)
      (fun s => s.dirGen.adv.contains n.val = true)
      fun s => ((((({ s with dirGen := { s.dirGen with saved := Tbl.set s.dirGen.saved n.val (s.dg n.val), adv := s.dirGen.adv.filter (· != n.val) } } : State).dirRelease
        n.val).onCover n.val fun c => { c with dgDone := true }).askRecall n.val).refreshTick))
  ∧ (∀ (n : SliceId), Does (fun t => .dgAdvancePersisted t n)
      (fun s => s.dirGen.adv.contains n.val = false)
      fun s => s)
  ∧ (∀ (n : SliceId) (lines : List RecallLine) (c : Cover), Does (fun t => .recallReturn t n lines)
      (fun s => let s := s.frame
        s.coverOf n.val = some c ∧ c.asked = true ∧ c.recalled = false)
      fun s => let s := s.frame
        (State.each (fun (l : RecallLine) s =>
        let s := s.twinIn (.slice (buddy n.val)) 0x62
          { prio := s.prio l.part.val, part := l.part.val, line := l.line.toNat, tgen := some l.tgen.toNat, pois := l.pois, aux := l.seq.toNat, data := lineUnits l.data }
        (s.onCover n.val fun c => { c with lines := Tbl.set c.lines l.line.toNat l.seq.toNat }).placeDirty (buddy n.val) l.part.val
          ⟨l.line.toNat, l.data, mkMeta 3 0x3FF (s.dg n.val) l.part.val l.pois l.tgen.toNat, some l.seq.toNat, false⟩) lines s).onCover n.val fun c => { c with recalled := true })
  ∧ (∀ (n : SliceId) (c : Cover), Does (fun t => .recallGapTimeout t n)
      (fun s => s.coverOf n.val = some c ∧ c.since + 50000 ≤ s.now)
      fun s => ({ s with resends := s.resends.filter fun r => match r with
        | .twinSlice k _ => k.val != n.val
        | _ => true } : State).askRecall n.val)
  ∧ (∀ (port : IntakeId) (n : SliceId) (c : Cover) (l : List Req), Does (fun t => .replayList t port n)
      (fun s => s.coverOf n.val = some c ∧ c.markers.contains port.val = false ∧
        (sortBy ((s.ip port.val).replayKey n.val) ((s.ip port.val).kept.filter fun k => k.st == .fenced && k.slice == n.val)).map (fun k => k.req) = l)
      fun s => ((State.each (fun (r : Req) s => s.sendReq port.val (buddy n.val) r) l (s.onIp port.val fun q => { q with kept := q.kept.map fun k =>
          if k.st = .fenced ∧ k.slice = n.val then { k with st := .sent, slice := buddy n.val, left := some s.now } else k })).bump
        (0x09C800 + 64 * port.val + 48) 32 32 l.length).onCover n.val fun c => { c with markers := insertNat port.val c.markers, replay := c.replay ++ l })
  ∧ (∀ (n : SliceId) (c : Cover), Does (fun t => .endOfReplay t n)
      (fun s => s.coverOf n.val = some c ∧ c.serving = false ∧ c.dgDone = true ∧ c.recalled = true ∧ 16 ≤ c.markers.length ∧ c.replay ≠ [])
      fun s => (((State.each (fun (r : Req) s => s.restream (buddy n.val) r) (c.replay.filter fun r => r.noted.isNone)
        (State.each (fun (r : Req) s => s.replayOne (buddy n.val) c r) ((c.replay.filter fun r => r.noted.isSome).foldl (fun l r => insertNoted r l) [])
          (s.onCover n.val fun c => { c with serving := true }))).stopFor n.val false).completeAll (buddy n.val)).pumpCopies (buddy n.val))
  ∧ (∀ (n : SliceId) (c : Cover), Does (fun t => .endOfReplay t n)
      (fun s => s.coverOf n.val = some c ∧ c.serving = false ∧ c.dgDone = true ∧ c.recalled = true ∧ 16 ≤ c.markers.length ∧ c.replay = [])
      fun s => (((((s.onCover n.val fun c => { c with serving := true }).onSlc (buddy n.val) fun x => { x with cover := none }).stopFor n.val false).completeAll
        (buddy n.val)).pumpCopies (buddy n.val)))
  ∧ (∀ (n : SliceId), Does (fun t => .slicePrepare t n)
      (fun s => (s.slc (buddy n.val)).phase = .run ∧ (s.slc n.val).phase = .run)
      fun s => ((((s.rouse n.val).onSlc n.val fun c => { c with prepare := true, phase := .prepare }).endWaits n.val).spillFreed n.val).handStep n.val)
  ∧ (∀ (n : SliceId), Does (fun t => .slicePrepare t n)
      (fun s => (s.slc (buddy n.val)).phase ≠ .run)
      fun s => s.ignSlc n.val (0x200000 + 0x4000 * n.val))
  ∧ (∀ (n : SliceId), Does (fun t => .handoverOverrun t n)
      (fun s => (s.slc n.val).phase = .quiesce ∧ (s.slc n.val).handOver = false ∧ (s.slc n.val).handAt + 1000000 ≤ s.now)
      fun s => (s.onSlc n.val fun c => { c with handOver := true }).raise (srcSlc n.val 5) (256 + 187) 0 0 n.val)
  ∧ (∀ (k : SlotId) (x : Slot), Does (fun t => .enableInstant t k)
      (fun s => s.toInstant.due k.val 6 = some x ∧ (State.enableRun 64 (x.param % 64) false s.toInstant).1 = false)
      fun s => (State.enableRun 64 (x.param % 64) false s.toInstant).2.slotDone k.val)
  ∧ (∀ (k : SlotId) (x : Slot), Does (fun t => .enableInstant t k)
      (fun s => s.toInstant.due k.val 6 = some x ∧ (State.enableRun 64 (x.param % 64) false s.toInstant).1 = true)
      fun s => (State.enableRun 64 (x.param % 64) false s.toInstant).2.endSlot k.val .abandoned 0)

/-- HANDSHAKE_WATCHDOG raises the watchdog event of the unit when its stage has waited NCH_BLK_HS_WDOG on a unit of the block that
is not fallow, counted from when that unit was awake; otherwise nothing changes. SLICE_FALLOW_ENTRY: an idle slice that is not
fenced, of a stook that permits it, goes fallow after 100 µs without work, and the entry is counted. STOOK_FALLOW_ENTRY: a
stook controller whose eight slices are fallow, with no register write on the way to it, goes fallow after 100 µs.
ROUTER_FALLOW_ENTRY: the router of a site that has one goes fallow when no packet has entered it for 100 µs and its buffers
are empty. UNIT_WAKE: a slice, a stook or a router wakes; another unit has no fallow state. [01_home_in_the_appliance.md, R37,
R46, R47, R48, R49, R53] -/
def Obligations.UnitsGoFallowAndWake : Prop :=
  (∀ (w on : HsUnit) (since : Quad) (k : Nat), Does (fun t => .handshakeWatchdog t ⟨w, on, since⟩)
      (fun s => hsSource w = some k ∧ s.hsLate on since.toNat = true)
      fun s => s.raise k (256 + 37) 0 0 0)
  ∧ (∀ (w on : HsUnit) (since : Quad), Does (fun t => .handshakeWatchdog t ⟨w, on, since⟩)
      (fun s => s.hsLate on since.toNat = false)
      fun s => s)
  ∧ (∀ (n : SliceId), Does (fun t => .sliceFallowEntry t n)
      (fun s => s.sliceIdle n.val = true ∧ (s.slc n.val).fallow = false ∧ (s.slc n.val).phase ≠ .fenced ∧ (s.stk (stookOf n.val)).fallowEn = true ∧
        (s.slc n.val).busyAt + 100000 ≤ s.now)
      fun s => (s.bumpStk (stookOf n.val) 0 0 32).onSlc n.val fun c => { c with fallow := true, busyAt := s.now })
  ∧ (∀ (k : StookId), Does (fun t => .stookFallowEntry t k)
      (fun s => (s.stk k.val).fallowEn = true ∧ (s.stk k.val).fallow = false ∧ (s.stk k.val).busyAt + 100000 ≤ s.now ∧
        ((List.range 8).all fun i => (s.slc (8 * k.val + i)).fallow) = true ∧ s.takeoverDuty k.val = false ∧ s.ringTo (0x100000 + 0x10000 * k.val) (0x110000 + 0x10000 * k.val) = false)
      fun s => (s.bumpStk k.val 0 32 32).onStk k.val fun q => { q with fallow := true, busyAt := s.now })
  ∧ (∀ (x : SiteId), Does (fun t => .routerFallowEntry t x)
      (fun s => s.routerIdle x.val = true)
      fun s => s.onRch fun r => { r with fallow := insertNat x.val r.fallow })
  ∧ (∀ (n : SliceId), Does (fun t => .unitWake t (.slice n))
      (fun _ => True)
      fun s => s.rouse n.val)
  ∧ (∀ (k : StookId), Does (fun t => .unitWake t (.stook k))
      (fun _ => True)
      fun s => s.stookWork k.val)
  ∧ (∀ (x : SiteId), Does (fun t => .unitWake t (.site x))
      (fun _ => True)
      fun s => s.rouseSites [x.val])
  ∧ (∀ (w : HsUnit), Does (fun t => .unitWake t w)
      (fun _ => (match w with | .slice _ | .stook _ | .site _ => False | _ => True))
      fun s => s)

/-- ENERGY_OK_FALL raises the event of R263 and turns every slice to write-through; ENERGY_OK_RISE lets the slices leave write-
through. GRN_CTL_WRITE: a valid word for a slice that is not enabled is taken, and the ways that it newly carves read as
zeros; any other is ignored in whole and counted. [06_granary.md, R263, R264, R265, R266, R272, R274] -/
def Obligations.EnergyAndCarvedWaysOfTheGranary : Prop :=
  (Does (fun t => .energyOkFall t)
      (fun s => s.pwr.energy = true)
      fun s => State.each (fun n s => s.goWt n) (List.range 128) ((s.onPwr fun p => { p with energy := false }).raise (srcPwr 4) (256 + 263) 0 0 0))
  ∧ (Does (fun t => .energyOkRise t)
      (fun s => s.pwr.energy = false)
      fun s => State.each (fun n s => s.leaveWt n) (s.slices.map Prod.fst) (s.onPwr fun p => { p with energy := true }))
  ∧ (∀ (n : SliceId) (v : Word), Does (fun t => .grnCtlWrite t n v)
      (fun s => (s.slc n.val).enable = false ∧ (s.slc n.val).phase ≠ .quiesce ∧ (s.slc n.val).phase ≠ .fenced ∧ (grnCtlOf v.toNat).ok = true)
      fun s => (s.rouse n.val).setGrnCtl n.val (grnCtlOf v.toNat))
  ∧ (∀ (n : SliceId) (v : Word), Does (fun t => .grnCtlWrite t n v)
      (fun s => (s.slc n.val).enable = true ∨ (s.slc n.val).phase = .quiesce ∨ (s.slc n.val).phase = .fenced ∨ (grnCtlOf v.toNat).ok = false)
      fun s => s.ignSlc n.val (0x200010 + 0x4000 * n.val))

/-- SCRATCH_READ within its limits, with a copy that can be read, answers the bytes of the offset from that copy (the primary, or
the second where the primary cannot be read), after the packets that carry them. SCRATCH_WRITE within its limits, with a copy
that can be used, stores its first `size` bytes from the offset on in every such copy, and leaves every other byte of scratch
as it was; both are stated. An access of a host port outside the partition’s host set is counted, and reads zero; a BAR access
of a size or alignment that R271 does not name is counted too (that it counts is the model’s choice: assumption log 56); one
that no copy can serve is refused: an access error and the event of R270 for Alidade, Completer Abort for a partition’s read.
None of those changes a byte. The rows also bring the accesses to a control page (the model’s choice: assumption log 59): a
member’s read answers the value of R703; a member’s write to a read-only location, or to a part of the doorbell, is counted;
one beyond the doorbell is ignored; neither changes a byte. [06_granary.md, R268, R269, R270, R271] -/
def Obligations.ScratchAccessesReadAndWriteTheirBytes : Prop :=
  (∀ (who : ScrWho) (way : Fin 12) (off : BitVec 22) (size : Nat) (bad : List Nat) (k w : Nat), Does (fun t => .scratchRead t who way off ⟨size, bad⟩)
      (fun s => s.scratchAlien who = none ∧ scratchFits who off.toNat size = true ∧ s.scratchWay who way.val = some k ∧ s.copyRead k off.toNat bad = some w)
      fun s => (s.scrPackets who w off.toNat size false (lineOf (cellsGet s.scratch size (scratchKey w off.toNat))).toNat).send
        (.scratch way.val off.toNat (lineOf (cellsGet s.scratch size (scratchKey w off.toNat)))))
  ∧ (∀ (who : ScrWho) (way : Fin 12) (off : BitVec 22) (size : Nat) (data : Line) (k : Nat), Does (fun t => .scratchWrite t who way off size data)
      (fun s => s.scratchAlien who = none ∧ scratchFits who off.toNat size = true ∧ s.scratchWay who way.val = some k ∧ s.copiesAt k off.toNat ≠ [])
      fun s => (State.each (fun w s => s.scrPackets who w off.toNat size true data.toNat) (s.copiesAt k off.toNat) s).scratchPut (s.copiesAt k off.toNat) off.toNat
        (leBytes size data.toNat))
  ∧ (∀ t who way off size data s k (a : Nat), (s.tick t).scratchAlien who = none → scratchFits who (BitVec.toNat off) size = true →
        (s.tick t).scratchWay who (Fin.val way) = some k → (s.tick t).copiesAt k (BitVec.toNat off) ≠ [] →
        (∀ w ∈ (s.tick t).copiesAt k (BitVec.toNat off), a < scratchKey w off.toNat ∨ scratchKey w off.toNat + size ≤ a) →
        ∃ u, exec (.scratchWrite t who way off size data) s = .next u ∧ u.scratchByte a = s.scratchByte a)
  ∧ (∀ t who way off size data s k w (i : Nat), s.scratchCanonical → (s.tick t).scratchAlien who = none →
        scratchFits who (BitVec.toNat off) size = true → (s.tick t).scratchWay who (Fin.val way) = some k → w ∈ (s.tick t).copiesAt k (BitVec.toNat off) →
        i < size →
        ∃ u, exec (.scratchWrite t who way off size data) s = .next u ∧ u.scratchByte (scratchKey w off.toNat + i) = BitVec.ofNat 8 (data.toNat / 256 ^ i))
  ∧ (∀ (who : ScrWho) (way : Fin 12) (off : BitVec 22) (size : Nat) (data : Line) (p : Nat), Does (fun t => .scratchWrite t who way off size data)
      (fun s => s.scratchAlien who = some p)
      fun s => s.bumpPart p 0 16 32)
  ∧ (∀ (who : ScrWho) (way : Fin 12) (off : BitVec 22) (size : Nat) (bad : List Nat) (p : Nat), Does (fun t => .scratchRead t who way off ⟨size, bad⟩)
      (fun s => s.scratchAlien who = some p)
      fun s => (s.bumpPart p 0 16 32).send (.scratch way.val off.toNat 0))
  ∧ (∀ (p : PartId) (q : HostId) (way : Fin 12) (off : BitVec 22) (size : Nat) (data : Line), Does (fun t => .scratchWrite t (.bar p q) way off size data)
      (fun s => s.member q.val p.val = true ∧ scratchFits (.bar p q) off.toNat size = false)
      fun s => s.bumpPart p.val 0 16 32)
  ∧ (∀ (p : PartId) (q : HostId) (way : Fin 12) (off : BitVec 22) (size : Nat) (bad : List Nat), Does (fun t => .scratchRead t (.bar p q) way off ⟨size, bad⟩)
      (fun s => s.member q.val p.val = true ∧ scratchFits (.bar p q) off.toNat size = false)
      fun s => (s.bumpPart p.val 0 16 32).send (.scratch way.val off.toNat 0))
  ∧ (∀ (way : Fin 12) (off : BitVec 22) (size : Nat) (bad : List Nat), Does (fun t => .scratchRead t .alidade way off ⟨size, bad⟩)
      (fun s => s.scratchWay .alidade way.val = some way.val ∧ scratchFits .alidade off.toNat size = true ∧ s.copyRead way.val off.toNat bad = none)
      fun s => (s.send .accessError).raise (srcFw 2) (256 + 270) 0 0 0)
  ∧ (∀ (p : PartId) (q : HostId) (way : Fin 12) (off : BitVec 22) (size : Nat) (bad : List Nat), Does (fun t => .scratchRead t (.bar p q) way off ⟨size, bad⟩)
      (fun s => s.member q.val p.val = true ∧ scratchFits (.bar p q) off.toNat size = true ∧ (s.part p.val).pairs[way.val]? = none)
      fun s => s.send (.abort p.val q.val))
  ∧ (∀ (p : PartId) (q : HostId) (way : Fin 12) (off : BitVec 22) (size : Nat) (bad : List Nat), Does (fun t => .scratchRead t (.page p q) way off ⟨size, bad⟩)
      (fun s => s.member q.val p.val = true)
      fun s => s.send (.scratch way.val off.toNat (BitVec.ofNat 512 (s.pageValue p.val off.toNat size))))
  ∧ (∀ (p : PartId) (q : HostId) (way : Fin 12) (off : BitVec 22) (size : Nat) (data : Line), Does (fun t => .scratchWrite t (.page p q) way off size data)
      (fun s => s.member q.val p.val = true ∧ (off.toNat < 0x050 ∨ (off.toNat < 0x108 ∧ 0x100 < off.toNat + size ∧ ¬(off.toNat = 0x100 ∧ size = 8))))
      fun s => s.refusePage p.val)
  ∧ (∀ (p : PartId) (q : HostId) (way : Fin 12) (off : BitVec 22) (size : Nat) (data : Line), Does (fun t => .scratchWrite t (.page p q) way off size data)
      (fun s => s.member q.val p.val = true ∧ 0x108 ≤ off.toNat)
      fun s => s)
  ∧ (∀ (way : Fin 12) (off : BitVec 22) (size : Nat) (data : Line), Does (fun t => .scratchWrite t .alidade way off size data)
      (fun s => s.scratchWay .alidade way.val = some way.val ∧ scratchFits .alidade off.toNat size = true ∧ s.copiesAt way.val off.toNat = [])
      fun s => (s.send .accessError).raise (srcFw 2) (256 + 270) 0 0 0)

/-- TIME_REF_LOSS raises its event and a LOCKED unit loses its reference. ALIGN_WORD: a word whose check is wrong, that does not
count up, or that lies more than 1 µs from the unit’s own time is discarded with the event of R283; any other is accepted with
its offset (0 before the first lock: there is no own time to compare; the check is an open function of the count, assumption
log 5). ALIGN_WORD_MISSING: 1.536 µs without an accepted word raises the same event. MERIDIAN_LOCK: the first lock, once a
word has been accepted, steps Meridian time to the timekeeper’s, makes the unit LOCKED, starts ALIVE unless the block is fail-
safe, and ends start-up step 6. MERIDIAN_LOCK_TIMEOUT: no lock within 1 s of rails good is GRAVE. HOLDOVER_EXPIRY: after 1,000
ms in HOLDOVER the unit is FREE (TWIN_STEERED when the twin can steer it). [01_home_in_the_appliance.md, 07_meridian.md,
15_power_startup.md, R31, R280, R283, R284, R285, R286, R287, R292, R609] -/
def Obligations.ReferenceWordsDriveTheMeridianState : Prop :=
  (Does (fun t => .timeRefLoss t)
      (fun s => s.mer.st = .locked)
      fun s => (((s.onMer fun m => { m with refOk := false, good := 0 }).raise (srcMer 0) (256 + 31) 0 0 0).onMer fun m =>
        { m with st := m.noRef, lostAt := s.now, good := 0 }).raise (srcMer 2) (256 + 285) 0 0 0)
  ∧ (Does (fun t => .timeRefLoss t)
      (fun s => s.mer.st ≠ .locked)
      fun s => (s.onMer fun m => { m with refOk := false, good := 0 }).raise (srcMer 0) (256 + 31) 0 0 0)
  ∧ (∀ (count : Quad) (check : Byte) (sub : BitVec 16) (o : Int), Does (fun t => .alignWord t count check sub)
      (fun s => s.mer.st ≠ .unlocked ∧ check = Config.timeCheck count ∧ s.mer.lastCount < count.toNat ∧
        (count.toNat * 65536 : Int) - (s.now * 65536 + s.clk.frac + sub.toNat : Int) = o ∧ o.natAbs ≤ 65536000)
      fun s => s.goodWord count.toNat o)
  ∧ (∀ (count : Quad) (check : Byte) (sub : BitVec 16), Does (fun t => .alignWord t count check sub)
      (fun s => s.mer.st = .unlocked ∧ check = Config.timeCheck count ∧ s.mer.lastCount < count.toNat)
      fun s => s.goodWord count.toNat 0)
  ∧ (∀ (count : Quad) (check : Byte) (sub : BitVec 16), Does (fun t => .alignWord t count check sub)
      (fun s => check ≠ Config.timeCheck count ∨ count.toNat ≤ s.mer.lastCount ∨
        (s.mer.st ≠ .unlocked ∧ 65536000 < ((count.toNat * 65536 : Int) - (s.now * 65536 + s.clk.frac + sub.toNat : Int)).natAbs))
      fun s => s.badWord 0)
  ∧ (Does (fun t => .alignWordMissing t)
      (fun s => s.mer.lastAt + 1536 ≤ s.now)
      fun s => s.badWord 32)
  ∧ (Does (fun t => .meridianLock t)
      (fun s => s.mer.st = .unlocked ∧ 0 < s.mer.good)
      fun s => ((s.stepTime.onMer fun m => { m with st := .locked, refOk := true }).onWin fun w => { w with aliveRun := !w.failsafe }).onPwr fun p =>
        { p with step := if p.step = 6 ∧ p.fail.isNone then 7 else p.step })
  ∧ (Does (fun t => .meridianLock t)
      (fun s => s.mer.st = .unlocked ∧ s.mer.good = 0)
      fun s => s)
  ∧ (Does (fun t => .meridianLockTimeout t)
      (fun s => s.mer.st = .unlocked ∧ s.pwr.goodAt + 1000000000 ≤ s.now)
      fun s => s.raiseC (srcMer 3) (256 + 609) (some 4) 0 0 0 0)
  ∧ (Does (fun t => .holdoverExpiry t)
      (fun s => s.mer.st = .holdover ∧ 1000 ≤ s.holdMs ∧ s.mer.noRef ≠ .twinSteered)
      fun s => ((s.onMer fun m => { m with st := .free }).refuseDomain.raise (srcMer 3) (256 + 292) 0 0 0).reportUp)
  ∧ (Does (fun t => .holdoverExpiry t)
      (fun s => s.mer.st = .holdover ∧ 1000 ≤ s.holdMs ∧ s.mer.noRef = .twinSteered)
      fun s => s.onMer fun m => { m with st := .twinSteered })

/-- TWIN_TIME_EXCHANGE while the link is up: a valid exchange sets the offset, the delay and the twin’s report and may steer the
unit, one that is not valid counts, and the block’s own message goes back. TWIN_EXCHANGE_INVALID counts a period, and the
sixteenth in a row ends the exchange with an event. DOMAIN_NOTICE: a member that is not the root takes S_dom (at least 40 ns)
and the domain-sealed epoch, on joining the domain its anchor, number and epoch length, and DOMAIN_OK where its own state
allows it; the plates that the notice withdraws are withdrawn; the root’s own notice goes down instead. DOMAIN_NOTICE_TIMEOUT:
1 ms without a notice marks the notices as overdue and raises its event once; S_dom is then twice ε plus 40 ns.
DOMAIN_SLOT_RECEIVE: at the root, a slot from the block that armed it is recorded, goes down to every other participating
pair, and is armed in the root’s own pair; at the designated block of a pair a slot from the root that passes the checks of
R298 is ARMED and goes to the twin, or in a solo block is confirmed up the tree at once; one without an IDLE slot or that
fails a check is refused up the tree. DOMAIN_SLOT_CONFIRM: the root’s CONFIRMED makes the ARMED slot CONFIRMED, and a block of
a whole pair passes it to its twin. SLOT_CANCEL_RECEIVE of a domain-scope slot: at the root it goes down to every pair, and at
any block the slot is cancelled and the twin of a whole pair is told. How a pair’s slot is named on the way, and which pairs
the root knows, is the model’s choice (assumption log 57). [07_meridian.md, R288, R289, R291, R292, R299, R300, R301, R313] -/
def Obligations.TimeExchangesAndDomainNotices : Prop :=
  (∀ (x : TimeExch), Does (fun t => .twinTimeExchange t x)
      (fun s => s.twin.linkUp = true ∧ s.twin.st ≠ .unpaired ∧ x.valid = true)
      fun s => (s.frame.exchange x).sendTime)
  ∧ (∀ (x : TimeExch), Does (fun t => .twinTimeExchange t x)
      (fun s => s.twin.linkUp = true ∧ s.twin.st ≠ .unpaired ∧ x.valid = false)
      fun s => s.exchangeBad.sendTime)
  ∧ (∀ (x : TimeExch), Does (fun t => .twinTimeExchange t x)
      (fun s => s.twin.linkUp = false ∨ s.twin.st = .unpaired)
      fun s => s)
  ∧ (Does (fun t => .twinExchangeInvalid t)
      (fun s => s.mer.exchBad < 15 ∧ s.twin.linkUp = true ∧ s.twin.st ≠ .unpaired)
      fun s => (s.onMer fun m => { m with exchBad := m.exchBad + 1 }).sendTime)
  ∧ (Does (fun t => .twinExchangeInvalid t)
      (fun s => s.mer.exchBad < 15 ∧ (s.twin.linkUp = false ∨ s.twin.st = .unpaired))
      fun s => s.onMer fun m => { m with exchBad := m.exchBad + 1 })
  ∧ (Does (fun t => .twinExchangeInvalid t)
      (fun s => 15 ≤ s.mer.exchBad ∧ s.mer.exch = true ∧ s.twin.linkUp = false ∧ (s.mer.st ≠ .twinSteered ∨ s.holdMs < 1000))
      fun s => (s.onMer fun m => { m with exchBad := 16, exch := false, st := if m.st = .twinSteered then .holdover else m.st }).raise (srcTwn 5) (256 + 289) 0 0 0)
  ∧ (Does (fun t => .twinExchangeInvalid t)
      (fun s => 15 ≤ s.mer.exchBad ∧ s.mer.exch = true ∧ s.mer.st = .twinSteered ∧ 1000 ≤ s.holdMs)
      fun s => (let v := (s.onMer fun m => { m with exchBad := 16, exch := false }).toFree.raise (srcTwn 5) (256 + 289) 0 0 0
        if v.twin.linkUp ∧ v.twin.st ≠ .unpaired then v.sendTime else v))
  ∧ (∀ (x : DomNotice), Does (fun t => .domainNotice t x)
      (fun s => s.mer.member = true ∧ s.mer.root = false ∧ x.ok = true ∧ s.mer.domainAble = true)
      fun s => (State.each (fun (v : Fin 1024) s => s.withdraw v.val) x.withdraw ((s.join x).onMer fun m =>
        { m with sdom := min 4095 (max 40 x.sdom), noticeAt := s.now, noticeLate := false, domSealed := max m.domSealed x.sealed, domOk := true })).exposePlates)
  ∧ (∀ (x : DomNotice), Does (fun t => .domainNotice t x)
      (fun s => s.mer.member = true ∧ s.mer.root = false ∧ (x.ok = false ∨ s.mer.domainAble = false))
      fun s => (State.each (fun (v : Fin 1024) s => s.withdraw v.val) x.withdraw ((s.join x).onMer fun m =>
        { m with sdom := min 4095 (max 40 x.sdom), noticeAt := s.now, noticeLate := false, domSealed := max m.domSealed x.sealed }).refuseDomain).exposePlates)
  ∧ (∀ (x : DomNotice), Does (fun t => .domainNotice t x)
      (fun s => s.mer.member = true ∧ s.mer.root = true)
      fun s => s.notice)
  ∧ (Does (fun t => .domainNoticeTimeout t)
      (fun s => s.mer.member = true ∧ s.mer.noticeLate = false ∧ s.mer.noticeAt + 1000000 ≤ s.now)
      fun s => (s.onMer fun m => { m with noticeLate := true }).raise (srcMer 6) (256 + 291) 0 0 0)
  ∧ (∀ s : State, s.mer.noticeLate = true → s.skew = min 4095 (2 * s.eps + 40))
  ∧ (∀ (key : Fin 512) (kind : BitVec 4) (param : BitVec 16) (time : Quad), Does (fun t => .domainSlotReceive t ⟨false, key⟩ kind param time)
      (fun s => s.mer.root = true)
      fun s => (State.sendDown (s.onMer fun m => { m with rootSlots := (Tbl.set m.rootSlots key.val
          ⟨⟨kind.toNat, 2, false, .idle, 0, param.toNat, time.toNat, .peer, none, some key.val⟩, [], [], false⟩) }) fun p =>
            .downSlot p key.val ⟨kind.toNat, 2, false, .idle, 0, param.toNat, time.toNat, .peer, none, some key.val⟩).armDown key.val
        ⟨kind.toNat, 2, false, .idle, 0, param.toNat, time.toNat, .peer, none, some key.val⟩)
  ∧ (∀ (key : Fin 512) (kind : BitVec 4) (param : BitVec 16) (time : Quad) (j : Nat), Does (fun t => .domainSlotReceive t ⟨true, key⟩ kind param time)
      (fun s => s.keySlot key.val = none ∧ s.idleSlot (key.val % 16) = some j ∧ s.armCheck kind.toNat 2 param.toNat time.toNat 10000 = none ∧ kind.toNat ≠ 2)
      fun s => (let v := (s.onSlot j fun _ => ⟨kind.toNat, 2, true, .armed, 0, param.toNat, time.toNat, .peer, none, some key.val⟩).order { tag := j }
        if v.twin.st = .paired then v.toTwin (.slot j { v.slot j with key := some key.val }) else v.confUp key.val true))
  ∧ (∀ (key : Fin 512) (kind : BitVec 4) (param : BitVec 16) (time : Quad) (j : Nat), Does (fun t => .domainSlotReceive t ⟨true, key⟩ kind param time)
      (fun s => s.keySlot key.val = none ∧ s.idleSlot (key.val % 16) = some j ∧ s.armCheck kind.toNat 2 param.toNat time.toNat 10000 = none ∧ kind.toNat = 2)
      fun s => (let v := ((s.onSlot j fun _ => ⟨2, 2, true, .armed, 0, param.toNat, time.toNat, .peer, none, some key.val⟩).order { tag := j }).plateArm j param.toNat time.toNat
        if v.twin.st = .paired then v.toTwin (.slot j { v.slot j with key := some key.val }) else v.confUp key.val true))
  ∧ (∀ (key : Fin 512) (kind : BitVec 4) (param : BitVec 16) (time : Quad) (j : Nat), Does (fun t => .domainSlotReceive t ⟨true, key⟩ kind param time)
      (fun s => s.keySlot key.val = some j ∧ s.twin.st = .paired)
      fun s => s.toTwin (.slot j { s.slot j with key := some key.val }))
  ∧ (∀ (key : Fin 512) (kind : BitVec 4) (param : BitVec 16) (time : Quad), Does (fun t => .domainSlotReceive t ⟨true, key⟩ kind param time)
      (fun s => s.keySlot key.val = none ∧ (s.idleSlot (key.val % 16) = none ∨ (s.armCheck kind.toNat 2 param.toNat time.toNat 10000).isSome = true))
      fun s => s.confUp key.val false)
  ∧ (∀ (key : Fin 512) (j : Nat), Does (fun t => .domainSlotConfirm t key)
      (fun s => s.keySlot key.val = some j ∧ (s.slot j).st = .armed ∧ (s.confirmSlot j).twin.st = .paired)
      fun s => (s.confirmSlot j).toTwin (.slotAck j .confirmed))
  ∧ (∀ (key : Fin 512) (j : Nat), Does (fun t => .domainSlotConfirm t key)
      (fun s => s.keySlot key.val = some j ∧ (s.slot j).st = .armed ∧ (s.confirmSlot j).twin.st ≠ .paired)
      fun s => s.confirmSlot j)
  ∧ (∀ (key : Fin 512) (j : Nat) (a : Bool), Does (fun t => .slotCancelReceive t (.domain key a))
      (fun s => s.mer.root = false ∧ s.keySlot key.val = some j ∧ s.twin.st ≠ .paired)
      fun s => s.endSlot j .cancelled (cancelReason a))
  ∧ (∀ (key : Fin 512) (j : Nat) (a : Bool), Does (fun t => .slotCancelReceive t (.domain key a))
      (fun s => s.mer.root = false ∧ s.keySlot key.val = some j ∧ s.twin.st = .paired)
      fun s => (s.toTwin (match (s.slot j).peer with | some k => .slotCancel true k a | none => .slotCancel false j a)).endSlot j .cancelled (cancelReason a))
  ∧ (∀ (key : Fin 512) (a : Bool), Does (fun t => .slotCancelReceive t (.domain key a))
      (fun s => s.mer.root = true)
      fun s => (State.sendDown (s.onMer fun m => { m with rootSlots := Tbl.del m.rootSlots key.val }) fun p => .downCancel p key.val a).cancelDown key.val a)

/-- INSTANT_ARM of a slot whose ARM is clear and whose written time, kind, scope and parameter pass the checks of R297 and R315:
the slot is ARMED, a PLATE_EXPOSE reserves its plates, the stooks learn of it, and a twin-scope slot goes to the twin and a
domain-scope one to the domain root (taken at once by a block that is the root). A slot that fails a check ends REJECTED with
its reason. INSTANT_DISARM returns a slot that has ended to IDLE; while it is ARMED or CONFIRMED the write is ignored and
counted. TWIN_SLOT_RECEIVE: a slot of the twin passes the same checks with 10 µs of lead, takes an IDLE slot (its own number
where that is IDLE), is ARMED there with the twin’s number and acknowledged; with no IDLE slot or a failed check it is
refused; a domain-scope slot that stands here already takes the twin’s number and is acknowledged. TWIN_SLOT_ACK: an
acknowledgement makes an ARMED twin-scope slot CONFIRMED and tells the twin so; a refusal cancels it in both blocks; the
twin’s news that its own slot is CONFIRMED makes the slot here CONFIRMED. SLOT_CONFIRM_DEADLINE: a twin-scope slot still ARMED
10 µs before its instant, or a domain-scope one 50 µs before, is cancelled with the event of R298. SLOT_CANCEL_RECEIVE: the
twin’s cancel, by either block’s number, cancels the slot. [07_meridian.md, 16_mailbox.md, R297, R298, R301, R305, R315, R640] -/
def Obligations.InstantSlotsAreArmedConfirmedAndEnded : Prop :=
  (∀ (k : SlotId) (x : Slot), Does (fun t => .instantArm t k)
      (fun s => s.slot k.val = x ∧ x.arm = false ∧ x.scope = 0 ∧ s.armCheck x.kind x.scope x.param x.time 10000 = none)
      fun s => (let v := s.onSlot k.val fun _ => { x with arm := true, st := .armed, reason := 0, by' := .register, peer := none, key := none }
        (if x.kind = 2 then v.plateArm k.val x.param x.time else v).order { tag := k.val }))
  ∧ (∀ (k : SlotId) (x : Slot), Does (fun t => .instantArm t k)
      (fun s => s.slot k.val = x ∧ x.arm = false ∧ x.scope = 1 ∧ s.armCheck x.kind x.scope x.param x.time 50000 = none)
      fun s => ((let v := s.onSlot k.val fun _ => { x with arm := true, st := .armed, reason := 0, by' := .register, peer := none, key := none }
        (if x.kind = 2 then v.plateArm k.val x.param x.time else v).order { tag := k.val }).toTwin (.slot k.val { x with by' := .register, peer := none, key := none })))
  ∧ (∀ (k : SlotId) (x : Slot), Does (fun t => .instantArm t k)
      (fun s => s.slot k.val = x ∧ x.arm = false ∧ x.scope = 2 ∧ s.armCheck x.kind x.scope x.param x.time 500000 = none)
      fun s => (let v := s.onSlot k.val fun _ => { x with arm := true, st := .armed, reason := 0, by' := .register, peer := none, key := some (s.domId * 16 + k.val) }
        let v := (if x.kind = 2 then v.plateArm k.val x.param x.time else v).order { tag := k.val }
        if v.mer.root then v.rootTake (v.slotKey k.val) (v.slot k.val) else v.send (.rootSlot (v.slotKey k.val) (v.slot k.val) v.eps)))
  ∧ (∀ (k : SlotId) (x : Slot) (r : Nat × Nat), Does (fun t => .instantArm t k)
      (fun s => s.slot k.val = x ∧ x.arm = false ∧ s.armCheck x.kind x.scope x.param x.time (leadNs x.scope) = some r)
      fun s => (s.onSlot k.val fun _ => { x with arm := true, by' := .register, peer := none, key := none }).endSlot k.val .rejected r.1)
  ∧ (∀ (k : SlotId), Does (fun t => .instantArm t k)
      (fun s => (s.slot k.val).arm = true)
      fun s => s)
  ∧ (∀ (k : SlotId), Does (fun t => .instantDisarm t k)
      (fun s => (s.slot k.val).ended = true)
      fun s => s.onSlot k.val fun x => { x with arm := false, st := .idle, reason := 0 })
  ∧ (∀ (k : SlotId), Does (fun t => .instantDisarm t k)
      (fun s => (s.slot k.val).arm = true ∧ (s.slot k.val).ended = false)
      fun s => s.ignMer (0x010100 + 16 * k.val))
  ∧ (∀ (k : SlotId) (kind : BitVec 4) (scope : BitVec 2) (param : BitVec 16) (time : Quad) (key : Option (Fin 512)) (j : Nat), Does (fun t => .twinSlotReceive t ⟨k, key⟩ kind scope param time)
      (fun s => let s := s.frame
        (scope.toNat = 2 → (key.map Fin.val).bind s.keySlot = none) ∧ s.idleSlot k.val = some j ∧
        s.armCheck kind.toNat scope.toNat param.toNat time.toNat 10000 = none)
      fun s => let s := s.frame
        (let v := s.onSlot j fun _ => ⟨kind.toNat, scope.toNat, true, .armed, 0, param.toNat, time.toNat, .peer, some k.val, key.map Fin.val⟩
        (if kind.toNat = 2 then v.plateArm j param.toNat time.toNat else v).toTwin (.slotAck k.val .ack)))
  ∧ (∀ (k : SlotId) (kind : BitVec 4) (scope : BitVec 2) (param : BitVec 16) (time : Quad) (key : Option (Fin 512)), Does (fun t => .twinSlotReceive t ⟨k, key⟩ kind scope param time)
      (fun s => let s := s.frame
        (scope.toNat = 2 → (key.map Fin.val).bind s.keySlot = none) ∧
        (s.idleSlot k.val = none ∨ (s.armCheck kind.toNat scope.toNat param.toNat time.toNat 10000).isSome = true))
      fun s => let s := s.frame
        s.toTwin (.slotAck k.val .refuse))
  ∧ (∀ (k : SlotId) (kind : BitVec 4) (param : BitVec 16) (time : Quad) (key : Fin 512) (j : Nat), Does (fun t => .twinSlotReceive t ⟨k, some key⟩ kind 2 param time)
      (fun s => let s := s.frame
        s.keySlot key.val = some j)
      fun s => let s := s.frame
        (s.onSlot j fun y => { y with peer := some k.val }).toTwin (.slotAck k.val .ack))
  ∧ (∀ (k : SlotId) (x : Slot), Does (fun t => .twinSlotAck t k .ack)
      (fun s => let s := s.frame
        s.slot k.val = x ∧ x.arm = true ∧ x.st = .armed ∧ x.scope = 1)
      fun s => let s := s.frame
        (s.confirmSlot k.val).toTwin (.slotAck k.val .confirmed))
  ∧ (∀ (k : SlotId) (x : Slot), Does (fun t => .twinSlotAck t k .refuse)
      (fun s => let s := s.frame
        s.slot k.val = x ∧ x.arm = true ∧ x.st = .armed ∧ x.scope = 1)
      fun s => let s := s.frame
        s.unconfirmed k.val)
  ∧ (∀ (k : SlotId) (j : Nat), Does (fun t => .twinSlotAck t k .confirmed)
      (fun s => let s := s.frame
        s.peerSlot k.val = some j ∧ (s.slot j).st = .armed)
      fun s => let s := s.frame
        s.confirmSlot j)
  ∧ (∀ (k : SlotId) (x : Slot), Does (fun t => .twinSlotAck t k .ack)
      (fun s => let s := s.frame
        s.slot k.val = x ∧ x.arm = true ∧ x.st = .armed ∧ x.scope = 2)
      fun s => let s := s.frame
        s.confUp (s.slotKey k.val) true)
  ∧ (∀ (k : SlotId) (x : Slot), Does (fun t => .twinSlotAck t k .refuse)
      (fun s => let s := s.frame
        s.slot k.val = x ∧ x.arm = true ∧ x.st = .armed ∧ x.scope = 2)
      fun s => let s := s.frame
        s.confUp (s.slotKey k.val) false)
  ∧ (∀ (k : SlotId) (x : Slot), Does (fun t => .slotConfirmDeadline t k)
      (fun s => s.slot k.val = x ∧ x.arm = true ∧ x.st = .armed ∧ x.scope = 1 ∧ x.time ≤ s.now + 10000)
      fun s => s.unconfirmed k.val)
  ∧ (∀ (k : SlotId) (x : Slot), Does (fun t => .slotConfirmDeadline t k)
      (fun s => s.slot k.val = x ∧ x.arm = true ∧ x.st = .armed ∧ 1 < x.scope ∧ x.time ≤ s.now + 50000)
      fun s => s.unconfirmed k.val)
  ∧ (∀ (s : State) (k : Nat), (s.slot k).scope = 1 → s.waitOf (.slot k) = none →
        s.unconfirmed k = ((s.cancelTwin k false).endSlot k .cancelled 2).raise (srcMer 4) (256 + 298) 0 0 k)
  ∧ (∀ (k : SlotId) (j : Nat) (a : Bool), Does (fun t => .slotCancelReceive t (.sent k a))
      (fun s => s.frame.peerSlot k.val = some j)
      fun s => s.frame.endSlot j .cancelled (cancelReason a))
  ∧ (∀ (k : SlotId) (a : Bool), Does (fun t => .slotCancelReceive t (.own k a))
      (fun s => (s.frame.slot k.val).arm = true ∧ (s.frame.slot k.val).ended = false)
      fun s => s.frame.endSlot k.val .cancelled (cancelReason a))

/-- EPOCH_BOUNDARY: the boundaries that have been reached pass, and every slice seals what it can. EPOCH_LEN_INSTANT: its time
becomes the anchor, with the number that the epoch beginning there would have had, and the new length. SEAL_CONFIRM: a slice’s
confirmation reaches its stook controller and the slice seals what it can; a stook’s report moves the block-sealed and pair-
sealed epochs, which a whole pair’s block tells its twin and a member of the domain reports up (R313); a confirmation of a
barrier is recorded where the slice has served it; at the domain root a pair’s seal, with its ε and whether it is in time,
moves the domain-sealed epoch and the notice goes down, a pair’s confirmation of a slot is recorded, and so is that a block’s
action has taken effect. PAIR_SEAL_EXCHANGE: the twin’s block-sealed epoch never falls and moves the pair-sealed epoch.
SEALED_EPOCH_PERSIST writes the pair-sealed epoch with its time. [07_meridian.md, R299, R300, R306, R307, R309, R312, R313,
R314] -/
def Obligations.EpochsAreNumberedSealedAndPersisted : Prop :=
  (Does (fun t => .epochBoundary t)
      (fun _ => True)
      fun s => State.each (fun n s => s.sealSlice n) s.toInstant.slices.keys s.toInstant)
  ∧ (∀ (k : SlotId) (x : Slot), Does (fun t => .epochLenInstant t k)
      (fun s => s.toInstant.due k.val 1 = some x)
      fun s => (s.toInstant.onMer fun m =>
        { m with len := x.param, anchor := x.time, anchorNum := s.toInstant.mer.numberAt x.time,
                 cur := s.toInstant.mer.numberAt x.time, next := x.time + x.param * 1000 }).slotDone k.val)
  ∧ (∀ (n : SliceId), Does (fun t => .sealConfirm t (.slice n))
      (fun _ => True)
      fun s => (s.confirmUp n.val).sealSlice n.val)
  ∧ (∀ (k : StookId), Does (fun t => .sealConfirm t (.stook k))
      (fun s => s.twin.st ≠ .paired ∧ s.mer.member = false)
      fun s => (let v := s.packet (.stook (s.duty k.val)) .meridian 0x72 { tag := k.val }
        let v := v.onMer fun m => { m with stkSeals := Tbl.set m.stkSeals k.val (v.stookSeal k.val) }
        let v := (v.onMer fun m => { m with blkSealed := v.blockSeal }).pairSeal
        v))
  ∧ (∀ (k : StookId), Does (fun t => .sealConfirm t (.stook k))
      (fun s => s.twin.st = .paired ∧ s.mer.member = false)
      fun s => (let v := s.packet (.stook (s.duty k.val)) .meridian 0x72 { tag := k.val }
        let v := v.onMer fun m => { m with stkSeals := Tbl.set m.stkSeals k.val (v.stookSeal k.val) }
        let v := (v.onMer fun m => { m with blkSealed := v.blockSeal }).pairSeal
        v.toTwin (.blockSealed v.mer.blkSealed)))
  ∧ (∀ (k : StookId), Does (fun t => .sealConfirm t (.stook k))
      (fun s => s.mer.member = true)
      fun s => (let v := s.packet (.stook (s.duty k.val)) .meridian 0x72 { tag := k.val }
        let v := v.onMer fun m => { m with stkSeals := Tbl.set m.stkSeals k.val (v.stookSeal k.val) }
        let v := (v.onMer fun m => { m with blkSealed := v.blockSeal }).pairSeal
        (if v.twin.st = .paired then v.toTwin (.blockSealed v.mer.blkSealed) else v).reportUp))
  ∧ (∀ (n : SliceId) (id : Nat) (b : Barrier), Does (fun t => .sealConfirm t (.barSlice n id))
      (fun s => s.bar? id = some b ∧ s.partServed n.val b = true)
      fun s => (s.confirmUp n.val).onBar id fun b => { b with slices := b.slices.filter (· != n.val) })
  ∧ (∀ (n : SliceId) (id : Nat), Does (fun t => .sealConfirm t (.barSlice n id))
      (fun s => ∀ b, s.bar? id = some b → s.partServed n.val b = false)
      fun s => s)
  ∧ (∀ (id : Nat), Does (fun t => .sealConfirm t (.barTwin id))
      (fun _ => True)
      fun s => s.frame.onBar id fun b => { b with twinOk := true })
  ∧ (∀ (b : Fin 32) (e d : Nat) (able : Bool), Does (fun t => .sealConfirm t (.root b e d able))
      (fun s => s.mer.root = true)
      fun s => (let v := s.onMer fun m =>
          { m with rootSeals := Tbl.set m.rootSeals (b.val / 2) (max e (Tbl.get 0 m.rootSeals (b.val / 2))), rootEps := Tbl.set m.rootEps b.val d,
                   rootBad := if able then m.rootBad.filter (· != b.val) else insertNat b.val m.rootBad }
        v.domSeal.exposePlates.notice))
  ∧ (∀ (b : Fin 32) (key : Fin 512) (ok : Bool) (d : Nat), Does (fun t => .sealConfirm t (.slotPair b key ok d))
      (fun s => s.mer.root = true)
      fun s => s.rootConf b.val key.val ok d)
  ∧ (∀ (b : Fin 32) (key : Fin 512) (d : Nat), Does (fun t => .sealConfirm t (.slotDone b key d))
      (fun s => s.mer.root = true)
      fun s => s.onMer fun m => m.rootDone key.val b.val d)
  ∧ (∀ (e : Quad), Does (fun t => .pairSealExchange t e)
      (fun _ => True)
      fun s => (s.frame.onMer fun m => { m with twinSealed := max m.twinSealed e.toNat }).pairSeal)
  ∧ (Does (fun t => .sealedEpochPersist t)
      (fun _ => True)
      fun s => s.onMer fun m => { m with persisted := m.pairSealed, persistAt := s.now })

/-- With the boundaries that have been reached passed first, an instant whose slot is armed (confirmed, when its scope is not the
block) and whose time has come acts: PLATE_EXPOSE makes the armed plates PENDING at the epoch of its boundary; SNAPSHOT copies
all counters to their holding registers, but for those in the window of a fenced unit, and clears the live ones when asked;
RACHIS_MODE sets the mode and, at step 10 of start-up, enables the slices and makes the block RUNNING; TRACT_COMMIT commits
the batch, this block’s own or, for a slot of the twin’s, the twin’s; ROLE_MOVE begins DRAIN in a PAIRED block, and is
ABANDONED in another; CAPACITY removes a drained port, and completes the command that waits for it, or adds an enabled one
(with its pair, for a map port); PAIR makes a resynchronizing block PAIRED. An instant whose slot is not due changes nothing
more. [17_registers.md, R294, R303, R322, R324, R415, R417, R465, R468, R505, R513, R676] -/
def Obligations.InstantsActOnceAtTheirTime : Prop :=
  (∀ (k : SlotId) (x : Slot), Does (fun t => .plateExposeInstant t k)
      (fun s => s.toInstant.due k.val 2 = some x)
      fun s => (s.toInstant.pendPlates k.val x).exposePlates.slotDone k.val)
  ∧ (∀ (k : SlotId) (x : Slot), Does (fun t => .snapshotInstant t k)
      (fun s => s.toInstant.due k.val 3 = some x ∧ x.param % 2 = 0)
      fun s => ((({ s.toInstant with holding := (s.toInstant.holding.filter fun (h : Nat × Nat) => s.toInstant.keyFenced h.1).foldl (fun t (h : Nat × Nat) => Tbl.set t h.1 h.2) (s.toInstant.live.filter fun (h : Nat × Nat) => !s.toInstant.keyFenced h.1) }.onRch fun r => { r with frozen := r.stats }).onBlk fun b =>
          { b with snapValid := true, snapTime := x.time }).bump 0x0A0A90 0 32 1).slotDone k.val)
  ∧ (∀ (k : SlotId) (x : Slot), Does (fun t => .snapshotInstant t k)
      (fun s => s.toInstant.due k.val 3 = some x ∧ x.param % 2 = 1)
      fun s => (((({ s.toInstant with holding := (s.toInstant.holding.filter fun (h : Nat × Nat) => s.toInstant.keyFenced h.1).foldl (fun t (h : Nat × Nat) => Tbl.set t h.1 h.2) (s.toInstant.live.filter fun (h : Nat × Nat) => !s.toInstant.keyFenced h.1), live := [] }.allStks fun q => { q with ceLost := 0 }).onRch fun r =>
          { r with frozen := r.stats, stats := [] }).onBlk fun b => { b with snapValid := true, snapTime := x.time }).bump 0x0A0A90 0 32 1).slotDone k.val)
  ∧ (∀ (k : SlotId) (x : Slot), Does (fun t => .rachisModeInstant t k)
      (fun s => s.toInstant.due k.val 4 = some x ∧ (s.toInstant.pwr.step ≠ 10 ∨ s.toInstant.pwr.fail ≠ none))
      fun s => (s.toInstant.onRch fun r => { r with bonded := x.param % 2 == 1 }).slotDone k.val)
  ∧ (∀ (k : SlotId) (x : Slot), Does (fun t => .rachisModeInstant t k)
      (fun s => s.toInstant.due k.val 4 = some x ∧ s.toInstant.pwr.step = 10 ∧ s.toInstant.pwr.fail = none)
      fun s => ((State.each (fun n u => if u.fencedSlice n then u else u.onSlc n fun c =>
            { c with enable := true, banks := { c.banks with wt := !u.pwr.energy || c.banks.ctl.wtForce } })
          (List.range 128) (s.toInstant.onRch fun r => { r with bonded := x.param % 2 == 1 })).onPwr fun p =>
          { p with step := 11, st := .running }).slotDone k.val)
  ∧ (∀ (k : SlotId) (x : Slot), Does (fun t => .tractCommitInstant t k)
      (fun s => s.toInstant.due k.val 5 = some x)
      fun s => (((s.toInstant.commitBatch x.param (x.by' != .peer)).bumpPlc 7 0 24).slotDone k.val).armBatch)
  ∧ (∀ (k : SlotId) (x : Slot), Does (fun t => .roleMoveInstant t k)
      (fun s => s.toInstant.due k.val 7 = some x ∧ s.toInstant.twin.st = .paired ∧ bitN s.toInstant.twin.roles.toNat (x.param % 64) = false)
      fun s => s.toInstant.onTwin fun w => { w with moves := Tbl.set w.moves (x.param % 64) ⟨false, .drain, k.val, s.toInstant.now, []⟩ })
  ∧ (∀ (k : SlotId) (x : Slot), Does (fun t => .roleMoveInstant t k)
      (fun s => s.toInstant.due k.val 7 = some x ∧ s.toInstant.twin.st = .paired ∧ bitN s.toInstant.twin.roles.toNat (x.param % 64) = true)
      fun s => (s.toInstant.onTwin fun w => { w with moves := Tbl.set w.moves (x.param % 64) ⟨true, .drain, k.val, s.toInstant.now, []⟩ }).roleStep (x.param % 64))
  ∧ (∀ (k : SlotId) (x : Slot), Does (fun t => .roleMoveInstant t k)
      (fun s => s.toInstant.due k.val 7 = some x ∧ s.toInstant.twin.st ≠ .paired)
      fun s => s.toInstant.endSlot k.val .abandoned 0)
  ∧ (∀ (k : SlotId) (x : Slot) (mb : Nat), Does (fun t => .capacityInstant t k)
      (fun s => s.toInstant.due k.val 8 = some x ∧ (s.toInstant.mp (x.param % 32)).draining = true ∧ s.toInstant.bgOf (fun b => b == .capRemove (x.param % 32)) = some mb)
      fun s => ((s.toInstant.onMp (x.param % 32) fun q =>
          { q with present := false, draining := false, dataTracts := 0, ledger := [], writes := 0, traffic := 0, past := [], overRounds := 0 }).bgEnd mb 0
            (zeros 8 ++ leBytes 8 x.time)).slotDone k.val)
  ∧ (∀ (k : SlotId) (x : Slot), Does (fun t => .capacityInstant t k)
      (fun s => s.toInstant.due k.val 8 = some x ∧ (s.toInstant.mp (x.param % 32)).draining = true ∧ s.toInstant.bgOf (fun b => b == .capRemove (x.param % 32)) = none)
      fun s => (s.toInstant.onMp (x.param % 32) fun q =>
          { q with present := false, draining := false, dataTracts := 0, ledger := [], writes := 0, traffic := 0, past := [], overRounds := 0 }).slotDone k.val)
  ∧ (∀ (k : SlotId) (x : Slot), Does (fun t => .capacityInstant t k)
      (fun s => s.toInstant.due k.val 8 = some x ∧ (s.toInstant.mp (x.param % 32)).draining = false ∧ (s.toInstant.mp (x.param % 32)).mapPort = false
          ∧ (s.toInstant.mp (x.param % 32)).present = false ∧ (s.toInstant.mp (x.param % 32)).enable = true)
      fun s => (s.toInstant.onMp (x.param % 32) fun q =>
          { q with present := true, dataTracts := q.size - q.deviceTracts, ledger := [], writes := 0, traffic := 0, past := [], overRounds := 0 }).slotDone k.val)
  ∧ (∀ (k : SlotId) (x : Slot), Does (fun t => .capacityInstant t k)
      (fun s => s.toInstant.due k.val 8 = some x ∧ (s.toInstant.mp (x.param % 32)).draining = false ∧ (s.toInstant.mp (x.param % 32)).mapPort = true
          ∧ (s.toInstant.mp (x.param % 32)).present = false ∧ (s.toInstant.mp (x.param % 32)).enable = true
          ∧ (s.toInstant.mp (x.param % 32 ^^^ 1)).present = true)
      fun s => (s.toInstant.onMp (x.param % 32) fun q =>
          { q with present := true, dataTracts := q.size - q.deviceTracts, ledger := [], writes := 0, traffic := 0, past := [], overRounds := 0 }).slotDone k.val)
  ∧ (∀ (k : SlotId) (x : Slot), Does (fun t => .capacityInstant t k)
      (fun s => s.toInstant.due k.val 8 = some x ∧ (s.toInstant.mp (x.param % 32)).draining = false ∧ (s.toInstant.mp (x.param % 32)).mapPort = false
          ∧ ((s.toInstant.mp (x.param % 32)).present = true ∨ (s.toInstant.mp (x.param % 32)).enable = false))
      fun s => s.toInstant.slotDone k.val)
  ∧ (∀ (k : SlotId) (x : Slot), Does (fun t => .pairInstant t k)
      (fun s => s.toInstant.due k.val 9 = some x ∧ (s.toInstant.twin.st = .resyncSource ∨ s.toInstant.twin.st = .resyncTarget))
      fun s => (let v := (((s.toInstant.onTwin fun w =>
            { w with st := .paired, split := [], hasSplit := false, walk := [], acked := [], splitPages := [], splitRes := [], stale := false,
                     tookOver := false, lostAt := none, tk := none, redel := none, abdParts := 0, toGet := 0, got := [],
                     rePaired := false }).allBanks fun b => { b with splitCache := [] }).putBack .twinPort).raiseLevel
        (if s.toInstant.twin.st = .resyncSource then v.sendRecords else v).launchFwd.slotDone k.val))
  ∧ (∀ (k : SlotId) (x : Slot), Does (fun t => .pairInstant t k)
      (fun s => s.toInstant.due k.val 9 = some x ∧ s.toInstant.twin.st ≠ .resyncSource ∧ s.toInstant.twin.st ≠ .resyncTarget)
      fun s => s.toInstant.slotDone k.val)
  ∧ (∀ (k : SlotId), Does (fun t => .plateExposeInstant t k)
      (fun s => s.toInstant.due k.val 2 = none)
      fun s => s.toInstant)
  ∧ (∀ (k : SlotId), Does (fun t => .snapshotInstant t k)
      (fun s => s.toInstant.due k.val 3 = none)
      fun s => s.toInstant)
  ∧ (∀ (k : SlotId), Does (fun t => .rachisModeInstant t k)
      (fun s => s.toInstant.due k.val 4 = none)
      fun s => s.toInstant)
  ∧ (∀ (k : SlotId), Does (fun t => .tractCommitInstant t k)
      (fun s => s.toInstant.due k.val 5 = none)
      fun s => s.toInstant)
  ∧ (∀ (k : SlotId), Does (fun t => .roleMoveInstant t k)
      (fun s => s.toInstant.due k.val 7 = none)
      fun s => s.toInstant)
  ∧ (∀ (k : SlotId), Does (fun t => .capacityInstant t k)
      (fun s => s.toInstant.due k.val 8 = none)
      fun s => s.toInstant)
  ∧ (∀ (k : SlotId), Does (fun t => .pairInstant t k)
      (fun s => s.toInstant.due k.val 9 = none)
      fun s => s.toInstant)

/-- For the four BARRIER rows: a write to a partition that is not ENABLED, of a host port that is not a member, or that is not one
aligned 8-byte write is ignored and counted; in the fail-safe state no barrier starts; else a write is ignored and counted
whose SLOT is not below TICKET_SLOTS or whose TICKET is 0; a barrier that would be refused while 8 refused tickets of its host
port wait is counted and gets no ticket; any other is entered, refused with RESULT 3 (8 outstanding barriers of the host port,
or 256 of the intake port) or 4 (a DOMAIN barrier of a block that may not serve it; NAMED or INSTANT_LOW in another scope), or
accepted. [08_ordering_durability.md, R355, R358, R366] -/
def Obligations.BarrierDoorbellsAreIgnoredRefusedOrAccepted : Prop :=
  (∀ (p : HostId) (part : PartId) (word : Quad) (al : Bool), Does (fun t => .barrierHost t p part word al)
      (fun s => (s.part part.val).st ≠ .enabled ∨ s.member p.val part.val = false ∨ al = false)
      fun s => s.refusePage part.val)
  ∧ (∀ (p : HostId) (part : PartId) (word : Quad), Does (fun t => .barrierHost t p part word true)
      (fun s => s.win.failsafe = true ∧ (s.part part.val).st = .enabled ∧ s.member p.val part.val = true)
      fun s => s)
  ∧ (∀ (p : HostId) (part : PartId) (word : Quad), Does (fun t => .barrierHost t p part word true)
      (fun s => s.win.failsafe = false ∧ (s.part part.val).st = .enabled ∧ s.member p.val part.val = true
          ∧ ((s.part part.val).ticketSlots ≤ fieldN (putField word 32 2 0).toNat 34 10 ∨ fieldN (putField word 32 2 0).toNat 0 32 = 0))
      fun s => s.refusePage part.val)
  ∧ (∀ (p : HostId) (part : PartId) (word : Quad), Does (fun t => .barrierHost t p part word true)
      (fun s => s.win.failsafe = false ∧ (s.part part.val).st = .enabled ∧ s.member p.val part.val = true
          ∧ fieldN (putField word 32 2 0).toNat 34 10 < (s.part part.val).ticketSlots ∧ fieldN (putField word 32 2 0).toNat 0 32 ≠ 0
          ∧ s.barrierWhy p.val (putField word 32 2 0) ≠ 0 ∧ 8 ≤ (s.ip (s.hp p.val).intake).refusals p.val)
      fun s => s.refusePage part.val)
  ∧ (∀ (p : HostId) (part : PartId) (word : Quad), Does (fun t => .barrierHost t p part word true)
      (fun s => s.win.failsafe = false ∧ (s.part part.val).st = .enabled ∧ s.member p.val part.val = true
          ∧ fieldN (putField word 32 2 0).toNat 34 10 < (s.part part.val).ticketSlots ∧ fieldN (putField word 32 2 0).toNat 0 32 ≠ 0
          ∧ (s.barrierWhy p.val (putField word 32 2 0) = 0 ∨ (s.ip (s.hp p.val).intake).refusals p.val < 8))
      fun s => s.enterBarrier p.val part.val (putField word 32 2 0) (s.barrierWhy p.val (putField word 32 2 0)))
  ∧ (∀ (p : HostId) (part : PartId) (word : Quad) (al : Bool), Does (fun t => .barrierPartition t p part word al)
      (fun s => (s.part part.val).st ≠ .enabled ∨ s.member p.val part.val = false ∨ al = false)
      fun s => s.refusePage part.val)
  ∧ (∀ (p : HostId) (part : PartId) (word : Quad), Does (fun t => .barrierPartition t p part word true)
      (fun s => s.win.failsafe = true ∧ (s.part part.val).st = .enabled ∧ s.member p.val part.val = true)
      fun s => s)
  ∧ (∀ (p : HostId) (part : PartId) (word : Quad), Does (fun t => .barrierPartition t p part word true)
      (fun s => s.win.failsafe = false ∧ (s.part part.val).st = .enabled ∧ s.member p.val part.val = true
          ∧ ((s.part part.val).ticketSlots ≤ fieldN (putField word 32 2 1).toNat 34 10 ∨ fieldN (putField word 32 2 1).toNat 0 32 = 0))
      fun s => s.refusePage part.val)
  ∧ (∀ (p : HostId) (part : PartId) (word : Quad), Does (fun t => .barrierPartition t p part word true)
      (fun s => s.win.failsafe = false ∧ (s.part part.val).st = .enabled ∧ s.member p.val part.val = true
          ∧ fieldN (putField word 32 2 1).toNat 34 10 < (s.part part.val).ticketSlots ∧ fieldN (putField word 32 2 1).toNat 0 32 ≠ 0
          ∧ s.barrierWhy p.val (putField word 32 2 1) ≠ 0 ∧ 8 ≤ (s.ip (s.hp p.val).intake).refusals p.val)
      fun s => s.refusePage part.val)
  ∧ (∀ (p : HostId) (part : PartId) (word : Quad), Does (fun t => .barrierPartition t p part word true)
      (fun s => s.win.failsafe = false ∧ (s.part part.val).st = .enabled ∧ s.member p.val part.val = true
          ∧ fieldN (putField word 32 2 1).toNat 34 10 < (s.part part.val).ticketSlots ∧ fieldN (putField word 32 2 1).toNat 0 32 ≠ 0
          ∧ (s.barrierWhy p.val (putField word 32 2 1) = 0 ∨ (s.ip (s.hp p.val).intake).refusals p.val < 8))
      fun s => s.enterBarrier p.val part.val (putField word 32 2 1) (s.barrierWhy p.val (putField word 32 2 1)))
  ∧ (∀ (p : HostId) (part : PartId) (word : Quad) (al : Bool), Does (fun t => .barrierTwin t p part word al)
      (fun s => (s.part part.val).st ≠ .enabled ∨ s.member p.val part.val = false ∨ al = false)
      fun s => s.refusePage part.val)
  ∧ (∀ (p : HostId) (part : PartId) (word : Quad), Does (fun t => .barrierTwin t p part word true)
      (fun s => s.win.failsafe = true ∧ (s.part part.val).st = .enabled ∧ s.member p.val part.val = true)
      fun s => s)
  ∧ (∀ (p : HostId) (part : PartId) (word : Quad), Does (fun t => .barrierTwin t p part word true)
      (fun s => s.win.failsafe = false ∧ (s.part part.val).st = .enabled ∧ s.member p.val part.val = true
          ∧ ((s.part part.val).ticketSlots ≤ fieldN (putField word 32 2 2).toNat 34 10 ∨ fieldN (putField word 32 2 2).toNat 0 32 = 0))
      fun s => s.refusePage part.val)
  ∧ (∀ (p : HostId) (part : PartId) (word : Quad), Does (fun t => .barrierTwin t p part word true)
      (fun s => s.win.failsafe = false ∧ (s.part part.val).st = .enabled ∧ s.member p.val part.val = true
          ∧ fieldN (putField word 32 2 2).toNat 34 10 < (s.part part.val).ticketSlots ∧ fieldN (putField word 32 2 2).toNat 0 32 ≠ 0
          ∧ s.barrierWhy p.val (putField word 32 2 2) ≠ 0 ∧ 8 ≤ (s.ip (s.hp p.val).intake).refusals p.val)
      fun s => s.refusePage part.val)
  ∧ (∀ (p : HostId) (part : PartId) (word : Quad), Does (fun t => .barrierTwin t p part word true)
      (fun s => s.win.failsafe = false ∧ (s.part part.val).st = .enabled ∧ s.member p.val part.val = true
          ∧ fieldN (putField word 32 2 2).toNat 34 10 < (s.part part.val).ticketSlots ∧ fieldN (putField word 32 2 2).toNat 0 32 ≠ 0
          ∧ (s.barrierWhy p.val (putField word 32 2 2) = 0 ∨ (s.ip (s.hp p.val).intake).refusals p.val < 8))
      fun s => s.enterBarrier p.val part.val (putField word 32 2 2) (s.barrierWhy p.val (putField word 32 2 2)))
  ∧ (∀ (p : HostId) (part : PartId) (word : Quad) (al : Bool), Does (fun t => .barrierDomain t p part word al)
      (fun s => (s.part part.val).st ≠ .enabled ∨ s.member p.val part.val = false ∨ al = false)
      fun s => s.refusePage part.val)
  ∧ (∀ (p : HostId) (part : PartId) (word : Quad), Does (fun t => .barrierDomain t p part word true)
      (fun s => s.win.failsafe = true ∧ (s.part part.val).st = .enabled ∧ s.member p.val part.val = true)
      fun s => s)
  ∧ (∀ (p : HostId) (part : PartId) (word : Quad), Does (fun t => .barrierDomain t p part word true)
      (fun s => s.win.failsafe = false ∧ (s.part part.val).st = .enabled ∧ s.member p.val part.val = true
          ∧ ((s.part part.val).ticketSlots ≤ fieldN (putField word 32 2 3).toNat 34 10 ∨ fieldN (putField word 32 2 3).toNat 0 32 = 0))
      fun s => s.refusePage part.val)
  ∧ (∀ (p : HostId) (part : PartId) (word : Quad), Does (fun t => .barrierDomain t p part word true)
      (fun s => s.win.failsafe = false ∧ (s.part part.val).st = .enabled ∧ s.member p.val part.val = true
          ∧ fieldN (putField word 32 2 3).toNat 34 10 < (s.part part.val).ticketSlots ∧ fieldN (putField word 32 2 3).toNat 0 32 ≠ 0
          ∧ s.barrierWhy p.val (putField word 32 2 3) ≠ 0 ∧ 8 ≤ (s.ip (s.hp p.val).intake).refusals p.val)
      fun s => s.refusePage part.val)
  ∧ (∀ (p : HostId) (part : PartId) (word : Quad), Does (fun t => .barrierDomain t p part word true)
      (fun s => s.win.failsafe = false ∧ (s.part part.val).st = .enabled ∧ s.member p.val part.val = true
          ∧ fieldN (putField word 32 2 3).toNat 34 10 < (s.part part.val).ticketSlots ∧ fieldN (putField word 32 2 3).toNat 0 32 ≠ 0
          ∧ (s.barrierWhy p.val (putField word 32 2 3) = 0 ∨ (s.ip (s.hp p.val).intake).refusals p.val < 8))
      fun s => s.enterBarrier p.val part.val (putField word 32 2 3) (s.barrierWhy p.val (putField word 32 2 3)))

/-- BARRIER_COMPLETE names an outstanding barrier. When its covered writes have reached its level (R360 to R363) it is finished:
its completion time is the Meridian time now, and a TWIN or DOMAIN barrier finished below the twin-durable level has RESULT 1.
Then the oldest barrier of its host port, once complete or refused, gets its ticket write. A barrier that still waits leaves
only that second part. [08_ordering_durability.md, R363, R367, R369] -/
def Obligations.BarrierCompletionWritesTheTicketsInOrder : Prop :=
  (∀ (port : IntakeId) (id : Nat) (b : Barrier), Does (fun t => .barrierComplete t port id)
      (fun s => ((s.ip port.val).bars.find? fun b => b.id == id) = some b ∧ b.doneAt = none ∧ s.barReady b (s.ip port.val).kept = true)
      fun s => (s.onIp port.val fun q => { q with bars := q.bars.map fun x => if x.id = id then s.finishBar x else x }).tickets port.val b.host)
  ∧ (∀ (port : IntakeId) (id : Nat) (b : Barrier), Does (fun t => .barrierComplete t port id)
      (fun s => ((s.ip port.val).bars.find? fun b => b.id == id) = some b ∧ (b.doneAt ≠ none ∨ s.barReady b (s.ip port.val).kept = false))
      fun s => s.tickets port.val b.host)

/-- TWIN_HANDSHAKE in SEEKING waits for the block’s own directory decision; then, or in SPLIT, with a valid pairing: a pairing
number or media that do not agree raise the event and pair nothing; after a takeover the survivor is the source and the other
block the target; no split record on either side and no new block gives PAIRED; split records on both sides give RESYNC_SOURCE
with stale copies; a split record here alone, or a replaced twin, gives RESYNC_SOURCE, with every provisioned tract for a
replaced or newly paired twin; otherwise RESYNC_TARGET with all roles MIRROR. Once paired or resynchronizing, a handshake
brings side B the anchor only. SEEKING_TIMEOUT: 500 ms after step 8 began, decided and with no refused handshake, the block is
SPLIT with its own roles and a split record, and takes over when the adapters report the twin down and TAKEOVER_EN is 1; a
block whose handshake was refused stays SEEKING. [05_sheaf_filter.md, 07_meridian.md, 09_twin.md, 10_placement.md, R220, R308,
R382, R383, R411, R412, R457] -/
def Obligations.HandshakeSetsTheTwinState : Prop :=
  (∀ (x : Handshake), Does (fun t => .twinHandshake t x)
      (fun s => let s := s.frame
        s.twin.st = .seeking ∧ s.twin.decided = false)
      fun s => let s := s.frame
        s.onTwin fun w => { w with shake := some x })
  ∧ (∀ (x : Handshake), Does (fun t => .twinHandshake t x)
      (fun s => let s := s.frame
        s.twin.st = .paired ∨ s.twin.st = .resyncSource ∨ s.twin.st = .resyncTarget)
      fun s => let s := s.frame
        s.adoptAnchor x)
  ∧ (∀ (x : Handshake) (p : Bool × Nat × Nat), Does (fun t => .twinHandshake t x)
      (fun s => let s := s.frame
        (s.twin.st = .seeking ∧ s.twin.decided = true ∨ s.twin.st = .split) ∧ s.twin.pairing = some p ∧ (x.pairNo.toNat ≠ p.2.2 ∨ x.mediaOk = false))
      fun s => let s := s.frame
        (s.onTwin fun w => { w with refused := w.st == .seeking }).raise (srcTwn 2) (256 + 382) 0 0 0)
  ∧ (∀ (x : Handshake) (p : Bool × Nat × Nat), Does (fun t => .twinHandshake t x)
      (fun s => let s := s.frame
        (s.twin.st = .seeking ∧ s.twin.decided = true ∨ s.twin.st = .split) ∧ s.twin.pairing = some p ∧ x.pairNo.toNat = p.2.2 ∧ x.mediaOk = true ∧ s.twin.tookOver = true)
      fun s => let s := s.frame
        (State.launchFwd (State.step9 ((s.adoptAnchor x).onTwin fun w =>
          { w with st := .resyncSource, split := if x.serial.toNat ≠ p.2.1 ∨ x.rePaired = true then s.provisioned else w.split, stale := false,
                   roles := if w.st = .seeking then w.owned else w.roles, lostAt := none, shake := none, refused := false, abdParts := 0 }))).armPair)
  ∧ (∀ (x : Handshake) (p : Bool × Nat × Nat), Does (fun t => .twinHandshake t x)
      (fun s => let s := s.frame
        (s.twin.st = .seeking ∧ s.twin.decided = true ∨ s.twin.st = .split) ∧ s.twin.pairing = some p ∧ x.pairNo.toNat = p.2.2 ∧ x.mediaOk = true
          ∧ (s.twin.tookOver = false ∧ x.takenOver = true))
      fun s => let s := s.frame
        State.launchFwd (State.step9 ((s.adoptAnchor x).onTwin fun w =>
          { w with st := .resyncTarget, roles := 0, stale := true, toGet := if x.weReplaced = true ∨ w.rePaired = true then x.placed else x.marked, got := [],
                   lostAt := none, shake := none, refused := false, abdParts := 0 })))
  ∧ (∀ (x : Handshake) (p : Bool × Nat × Nat), Does (fun t => .twinHandshake t x)
      (fun s => let s := s.frame
        (s.twin.st = .seeking ∧ s.twin.decided = true ∨ s.twin.st = .split) ∧ s.twin.pairing = some p ∧ x.pairNo.toNat = p.2.2 ∧ x.mediaOk = true
          ∧ (s.twin.tookOver = false ∧ x.takenOver = false ∧ s.twin.hasSplit = false ∧ x.split = false ∧ x.serial.toNat = p.2.1 ∧ x.weReplaced = false))
      fun s => let s := s.frame
        State.launchFwd (State.step9 (State.onTwin { s.adoptAnchor x with dirGen := { s.dirGen with unclean := s.dirGen.unclean || x.unclean } } fun w =>
          { w with st := .paired, stale := false, rePaired := false,
                   roles := if w.st = .seeking then w.owned else w.roles, lostAt := none, shake := none, refused := false, abdParts := 0 })))
  ∧ (∀ (x : Handshake) (p : Bool × Nat × Nat), Does (fun t => .twinHandshake t x)
      (fun s => let s := s.frame
        (s.twin.st = .seeking ∧ s.twin.decided = true ∨ s.twin.st = .split) ∧ s.twin.pairing = some p ∧ x.pairNo.toNat = p.2.2 ∧ x.mediaOk = true
          ∧ (s.twin.tookOver = false ∧ x.takenOver = false ∧ s.twin.hasSplit = true ∧ x.split = true))
      fun s => let s := s.frame
        (State.launchFwd (State.step9 ((s.adoptAnchor x).onTwin fun w =>
          { w with st := .resyncSource, split := if x.serial.toNat ≠ p.2.1 ∨ x.rePaired = true then s.provisioned else w.split, stale := true,
                   roles := if w.st = .seeking then w.owned else w.roles, lostAt := none, shake := none, refused := false, abdParts := 0 }))).armPair)
  ∧ (∀ (x : Handshake) (p : Bool × Nat × Nat), Does (fun t => .twinHandshake t x)
      (fun s => let s := s.frame
        (s.twin.st = .seeking ∧ s.twin.decided = true ∨ s.twin.st = .split) ∧ s.twin.pairing = some p ∧ x.pairNo.toNat = p.2.2 ∧ x.mediaOk = true
          ∧ (s.twin.tookOver = false ∧ x.takenOver = false ∧ x.split = false ∧ (s.twin.hasSplit = true ∨ x.serial.toNat ≠ p.2.1)))
      fun s => let s := s.frame
        (State.launchFwd (State.step9 ((s.adoptAnchor x).onTwin fun w =>
          { w with st := .resyncSource, split := if x.serial.toNat ≠ p.2.1 ∨ x.rePaired = true then s.provisioned else w.split, stale := false,
                   roles := if w.st = .seeking then w.owned else w.roles, lostAt := none, shake := none, refused := false, abdParts := 0 }))).armPair)
  ∧ (∀ (x : Handshake) (p : Bool × Nat × Nat), Does (fun t => .twinHandshake t x)
      (fun s => let s := s.frame
        (s.twin.st = .seeking ∧ s.twin.decided = true ∨ s.twin.st = .split) ∧ s.twin.pairing = some p ∧ x.pairNo.toNat = p.2.2 ∧ x.mediaOk = true
          ∧ (s.twin.tookOver = false ∧ x.takenOver = false ∧ s.twin.hasSplit = false ∧ (x.split = true ∨ (x.serial.toNat = p.2.1 ∧ x.weReplaced = true))))
      fun s => let s := s.frame
        State.launchFwd (State.step9 ((s.adoptAnchor x).onTwin fun w =>
          { w with st := .resyncTarget, roles := 0, stale := true, toGet := if x.weReplaced = true ∨ w.rePaired = true then x.placed else x.marked, got := [],
                   lostAt := none, shake := none, refused := false, abdParts := 0 })))
  ∧ (Does (fun t => .seekingTimeout t)
      (fun s => (s.twin.st = .seeking ∧ s.twin.step8 = true ∧ s.twin.decided = true ∧ s.twin.refused = false ∧ s.twin.seekAt + 500000000 ≤ s.now)
          ∧ (s.twin.peerDown = false ∨ s.twin.takeoverEn = false))
      fun s => ((s.onTwin fun w => { w with st := .split, roles := w.owned, hasSplit := true, lostAt := some s.now }).step9).onTwin fun w => { w with stale := true })
  ∧ (Does (fun t => .seekingTimeout t)
      (fun s => (s.twin.st = .seeking ∧ s.twin.step8 = true ∧ s.twin.decided = true ∧ s.twin.refused = false ∧ s.twin.seekAt + 500000000 ≤ s.now)
          ∧ s.twin.peerDown = true ∧ s.twin.takeoverEn = true)
      fun s => ((s.onTwin fun w => { w with st := .split, roles := w.owned, hasSplit := true, lostAt := some s.now }).step9).takeOver)
  ∧ (Does (fun t => .seekingTimeout t)
      (fun s => s.twin.refused = true)
      fun s => s)

/-- HEARTBEAT_LOSS, with no valid frame for 8 µs, in PAIRED or RESYNC_SOURCE declares the twin lost: the block is SPLIT and the
event of R399 is raised; with the adapters’ report already there, or with stale copies, the loss is confirmed; in
RESYNC_TARGET the loss ends the resynchronisation. TWIN_LINK_DOWN does the same with LINK_UP clear; TWIN_LINK_UP sets LINK_UP,
and a SPLIT block, or a SEEKING one that has its decision, sends its handshake with what R382 names; for an unpaired block
they are no loss and no handshake. PEER_LINKS_DOWN sets PEER_DOWN: it raises the event while the block is paired or
resynchronizing, and confirms the loss of a SPLIT block that has not taken over. PEER_LINKS_UP clears PEER_DOWN.
LOSS_REPORT_TIMEOUT: 100 µs after the loss without a report, the copies are stale. ABDICATION_RECEIVE: the block takes over,
or is ABDICATED when its copies are stale. [09_twin.md, R380, R387, R399, R400, R409, R410, R411, R420, R423] -/
def Obligations.TwinLossIsDeclaredAndConfirmed : Prop :=
  (Does (fun t => .heartbeatLoss t)
      (fun s => s.hbOk = true)
      fun s => s)
  ∧ (Does (fun t => .heartbeatLoss t)
      (fun s => s.hbOk = false ∧ (s.twin.st = .paired ∨ s.twin.st = .resyncSource) ∧ s.loseTwin.twin.peerDown = false ∧ s.loseTwin.twin.stale = false)
      fun s => s.loseTwin.raise (srcTwn 0) (256 + 399) 0 0 0)
  ∧ (Does (fun t => .heartbeatLoss t)
      (fun s => s.hbOk = false ∧ (s.twin.st = .paired ∨ s.twin.st = .resyncSource) ∧ (s.loseTwin.twin.peerDown = true ∨ s.loseTwin.twin.stale = true))
      fun s => (s.loseTwin.raise (srcTwn 0) (256 + 399) 0 0 0).lossKnown)
  ∧ (Does (fun t => .heartbeatLoss t)
      (fun s => s.hbOk = false ∧ s.twin.st = .resyncTarget)
      fun s => s.loseTwin)
  ∧ (Does (fun t => .heartbeatLoss t)
      (fun s => s.twin.st = .unpaired ∨ s.twin.st = .seeking ∨ s.twin.st = .split ∨ s.twin.st = .abdicated)
      fun s => s)
  ∧ (Does (fun t => .twinLinkDown t)
      (fun s => s.twin.st ≠ .unpaired)
      fun s => (s.onTwin fun w => { w with linkUp := false }).declareLoss)
  ∧ (Does (fun t => .twinLinkUp t)
      (fun s => s.twin.st = .split ∨ (s.twin.st = .seeking ∧ s.twin.decided = true))
      fun s => (s.onTwin fun w => { w with linkUp := true }).toTwin
        (.handshake s.serial (s.twin.pairing.getD (false, 0, 0)).2.2 (s.twin.pairing.getD (false, 0, 0)).2.1 (s.side = 1) s.dirGen.unclean s.twin.hasSplit
          s.mer.anchored (if s.twin.st = .seeking then s.twin.owned else s.twin.roles) s.twin.rePaired s.twin.split.length s.provisioned.length))
  ∧ (Does (fun t => .twinLinkUp t)
      (fun s => s.twin.st ≠ .split ∧ (s.twin.st ≠ .seeking ∨ s.twin.decided = false))
      fun s => s.onTwin fun w => { w with linkUp := true })
  ∧ (Does (fun t => .twinLinkDown t)
      (fun s => s.twin.st = .unpaired)
      fun s => s.onTwin fun w => { w with linkUp := false })
  ∧ (Does (fun t => .peerLinksDown t)
      (fun s => s.twin.st = .paired ∨ s.twin.st = .resyncSource ∨ s.twin.st = .resyncTarget)
      fun s => (s.onTwin fun w => { w with peerDown := true }).raise (srcTwn 9) (256 + 400) 0 0 0)
  ∧ (Does (fun t => .peerLinksDown t)
      (fun s => s.twin.st = .split ∧ s.twin.tookOver = false)
      fun s => (s.onTwin fun w => { w with peerDown := true }).lossKnown)
  ∧ (Does (fun t => .peerLinksDown t)
      (fun s => s.twin.st = .unpaired ∨ s.twin.st = .seeking ∨ (s.twin.st = .split ∧ s.twin.tookOver = true))
      fun s => s.onTwin fun w => { w with peerDown := true })
  ∧ (Does (fun t => .peerLinksUp t)
      (fun _ => True)
      fun s => s.onTwin fun w => { w with peerDown := false })
  ∧ (Does (fun t => .lossReportTimeout t)
      (fun s => s.twin.st = .split ∧ s.twin.tookOver = false ∧ s.twin.peerDown = false ∧ ∃ x, s.twin.lostAt = some x ∧ x + 100000 ≤ s.now)
      fun s => s.onTwin fun w => { w with stale := true })
  ∧ (∀ (drill : Bool), Does (fun t => .abdicationReceive t drill)
      (fun s => let s := s.frame
        (s.twin.st = .paired ∨ s.twin.st = .split ∨ s.twin.st = .resyncSource ∨ s.twin.st = .resyncTarget) ∧ (s.twin.tookOver = false ∨ drill = true))
      fun s => let s := s.frame
        s.abdicated)

/-- CLAIM_COMPLETE ends a takeover, serving its echoes and then the redelivered messages, or makes the role moves that forward
routed; during a power failure it does nothing. CLAIM_LOST is GRAVE unless role moves or a drill consent to it; then for each
the route-closed marker follows and HANDOVER begins. DRAINED_MARKER makes the partition PRIMARY here, and claims its range;
ROUTE_CLOSED_MARKER lets its held requests go on. RECORD_FETCH: the old primary answers the new one’s request; at the new one
the record resolves a doubt line’s entry and serves it. ROLE_MOVE_TIMEOUT abandons a move whose DRAIN takes 1 ms.
RECORD_WALK_LINE walks a line at the old primary only; ROLE_RECORD_RECEIVE writes a walked line’s record at the new one unless
it has been fetched or changed. [09_twin.md, R402, R403, R417, R418, R419] -/
def Obligations.ClaimsAndRoleMovesAdvance : Prop :=
  (∀ (ps : Quad) (l : List Redeliver), Does (fun t => .claimComplete t l)
      (fun s => s.pwr.fail = none ∧ s.twin.tk = some ps ∧ s.twin.redel = none)
      fun s => s.claimDone l)
  ∧ (∀ (ps : Quad) (l r : List Redeliver), Does (fun t => .claimComplete t l)
      (fun s => s.pwr.fail = none ∧ s.twin.tk = some ps ∧ s.twin.redel = some r)
      fun s => s)
  ∧ (∀ (l : List Redeliver), Does (fun t => .claimComplete t l)
      (fun s => s.pwr.fail = none ∧ s.twin.tk = none)
      fun s => s.onTwin fun w => { w with moves := Tbl.mapv (fun (m : RoleMove) => if !m.old ∧ m.phase = .forward then { m with phase := .routed } else m) w.moves })
  ∧ (∀ (l : List Redeliver), Does (fun t => .claimComplete t l)
      (fun s => s.pwr.fail.isSome = true)
      fun s => s)
  ∧ (Does (fun t => .claimLost t)
      (fun s => (s.twin.moves.filter fun x => x.2.old && x.2.phase == .forward) = [] ∧ s.drilled = false)
      fun s => s.raise (srcTwn 7) (256 + 402) 0 0 0)
  ∧ (Does (fun t => .claimLost t)
      (fun s => (s.twin.moves.filter fun x => x.2.old && x.2.phase == .forward) = [] ∧ s.drilled = true)
      fun s => s)
  ∧ (∀ (l : Tbl RoleMove), Does (fun t => .claimLost t)
      (fun s => (s.twin.moves.filter fun x => x.2.old && x.2.phase == .forward) = l ∧ l ≠ [])
      fun s => State.each (fun (x : Nat × RoleMove) s =>
        ((s.toTwin (.closed x.1)).onTwin fun w => { w with moves := Tbl.set w.moves x.1 { x.2 with phase := .handover } }).walkDone x.1) l s)
  ∧ (∀ (part : PartId) (m : RoleMove), Does (fun t => .drainedMarker t part)
      (fun s => let s := s.frame
        Tbl.find s.twin.moves part.val = some m ∧ m.old = false ∧ m.phase = .drain)
      fun s => let s := s.frame
        ((s.onTwin fun w => { w with roles := w.roles ||| BitVec.ofNat 64 (2 ^ part.val), moves := Tbl.set w.moves part.val { m with phase := .forward } }).slotDone m.slot).send (.rangeClaim part.val))
  ∧ (∀ (part : PartId) (m : RoleMove), Does (fun t => .drainedMarker t part)
      (fun s => let s := s.frame
        Tbl.find s.twin.moves part.val = some m ∧ (m.old = true ∨ m.phase ≠ .drain))
      fun s => let s := s.frame
        s)
  ∧ (∀ (part : PartId) (m : RoleMove), Does (fun t => .routeClosedMarker t part)
      (fun s => let s := s.frame
        Tbl.find s.twin.moves part.val = some m ∧ m.old = false ∧ (m.phase = .routed ∨ m.phase = .forward))
      fun s => let s := s.frame
        ((s.onTwin fun w => { w with moves := Tbl.set w.moves part.val { m with phase := .handover } }).launchHeld part.val).walkDone part.val)
  ∧ (∀ (n : SliceId) (e : Nat) (r : DirRec) (x : Entry), Does (fun t => .recordFetch t n e (.record r))
      (fun s => let s := s.frame
        s.ent n.val e = some x ∧ x.fetching = true)
      fun s => let s := s.frame
        ((s.putEnt n.val e { x with fetching := false, hrec := some (recOfDir r), fromDir := false }).roleSeen x.req.part x.req.line).serve n.val e)
  ∧ (∀ (n : SliceId) (e : Nat) (line : BitVec 42) (f : Meta) (p : Nat) (m : RoleMove), Does (fun t => .recordFetch t n e (.ask line f))
      (fun s => let s := s.frame
        s.partOf line.toNat = some p ∧ Tbl.find s.twin.moves p = some m ∧ m.old = true)
      fun s => let s := s.frame
        s.answerFetch line.toNat f)
  ∧ (∀ (k : SlotId) (p : Nat) (m : RoleMove), Does (fun t => .roleMoveTimeout t k)
      (fun s => (s.twin.moves.find? fun x => x.2.slot == k.val && x.2.phase == .drain && x.2.since + 1000000 ≤ s.now) = some (p, m))
      fun s => ((s.onTwin fun w => { w with moves := Tbl.del w.moves p }).launchHeld p).endSlot k.val .abandoned 0)
  ∧ (∀ (part : PartId) (line : BitVec 42) (f : Meta) (m : RoleMove), Does (fun t => .recordWalkLine t line f)
      (fun s => s.partOf line.toNat = some part.val ∧ Tbl.find s.twin.moves part.val = some m ∧ (m.old = false ∨ m.phase ≠ .handover ∨ m.walked.contains line.toNat = true))
      fun s => s)
  ∧ (∀ (part : PartId) (line : BitVec 42) (f : Meta) (m : RoleMove), Does (fun t => .recordWalkLine t line f)
      (fun s => s.partOf line.toNat = some part.val ∧ Tbl.find s.twin.moves part.val = some m ∧ m.old = true ∧ m.phase = .handover ∧ m.walked.contains line.toNat = false)
      fun s => s.walkLine part.val m line.toNat f)
  ∧ (∀ (part : PartId) (line : BitVec 42) (r : DirRec) (m : RoleMove), Does (fun t => .roleRecordReceive t line r)
      (fun s => let s := s.frame
        s.partOf line.toNat = some part.val ∧ Tbl.find s.twin.moves part.val = some m ∧ m.old = false ∧ m.phase = .handover ∧ m.walked.contains line.toNat = false)
      fun s => let s := s.frame
        ((s.dirWrite (s.homeSlice line.toNat) line.toNat r.state.toNat r.holder.toNat false none none).2).roleSeen part.val line.toNat)

/-- While the block is PAIRED or resynchronizing: TWIN_ECHO_RECEIVE adds the echo; SETTLE_RECORD_APPLY marks the echoes that a
record names as applied with its sequence and places the record’s line, from the record in full or from its echo (a record
with neither places nothing); TWIN_RELEASE_RECEIVE drops the echo. In other states they do nothing. CLEAN_NOTICE frees the
copy of that line and sequence, and an eviction that waited for it goes on. CLEAN_REQUEST writes the dirty line to media.
TWIN_RECALL in PAIRED gathers the slice’s copies for the twin, once the settle records that came before it are placed.
[09_twin.md, R391, R392, R393, R394, R395, R396, R397, R398] -/
def Obligations.TheMirrorTakesEchoesRecordsAndReleases : Prop :=
  (∀ (port : IntakeId) (x : EchoMsg), Does (fun t => .twinEchoReceive t port x)
      (fun s => let s := s.frame
        s.mirroring = true)
      fun s => let s := s.frame
        s.onTwin fun w => { w with echoes := w.echoes ++ [⟨port.val, x.idx.toNat, x.host.val, x.tag.toNat, x.record, x.data, x.door.map fun d => (d.1, d.2), none⟩] })
  ∧ (∀ (port : IntakeId) (x : EchoMsg), Does (fun t => .twinEchoReceive t port x)
      (fun s => let s := s.frame
        s.mirroring = false)
      fun s => let s := s.frame
        s)
  ∧ (∀ (x : SettleRec) (d : Line), Does (fun t => .settleRecordApply t x)
      (fun s => let s := s.frame
        s.mirroring = true ∧ x.full = some d)
      fun s => let s := s.frame
        ((s.onTwin fun w => { w with echoes := w.echoes.map fun y =>
            if (x.echoes.any fun e => e.1.val == y.intake && e.2.toNat == y.idx) = true then { y with applied := some x.seq.toNat } else y }).twinIn (.slice (s.homeSlice x.line.toNat)) 0x62
          { prio := s.prio x.part.val, part := x.part.val, line := x.line.toNat, epoch := x.epoch, aux := x.seq.toNat, data := lineUnits d }).mirrorIn (s.homeSlice x.line.toNat)
          { mkReq 0 0 none .wrS x.line.toNat x.part.val d 0 s.time with num := x.src.val, noted := some x.seq.toNat, epoch := some x.epoch } false)
  ∧ (∀ (x : SettleRec) (y : Echo) (d : Line × Quad), Does (fun t => .settleRecordApply t x)
      (fun s => let s := s.frame
        s.mirroring = true ∧ x.full = none ∧ (s.twin.echoes.find? fun y => x.echoes.any fun e => e.1.val == y.intake && e.2.toNat == y.idx) = some y ∧ y.data = some d)
      fun s => let s := s.frame
        ((s.onTwin fun w => { w with echoes := w.echoes.map fun y =>
            if (x.echoes.any fun e => e.1.val == y.intake && e.2.toNat == y.idx) = true then { y with applied := some x.seq.toNat } else y }).twinIn (.slice (s.homeSlice x.line.toNat)) 0x62
          { prio := s.prio x.part.val, part := x.part.val, line := x.line.toNat, epoch := x.epoch, aux := x.seq.toNat, data := lineUnits d.1 }).mirrorIn (s.homeSlice x.line.toNat)
          { mkReq 0 0 none .wrS x.line.toNat x.part.val d.1 0 s.time with num := x.src.val, noted := some x.seq.toNat, epoch := some x.epoch } false)
  ∧ (∀ (x : SettleRec), Does (fun t => .settleRecordApply t x)
      (fun s => let s := s.frame
        s.mirroring = true ∧ x.full = none ∧ ∀ y ∈ s.twin.echoes, x.echoes.any (fun e => e.1.val == y.intake && e.2.toNat == y.idx) = false)
      fun s => let s := s.frame
        s)
  ∧ (∀ (x : SettleRec), Does (fun t => .settleRecordApply t x)
      (fun s => let s := s.frame
        s.mirroring = false)
      fun s => let s := s.frame
        s)
  ∧ (∀ (port : IntakeId) (echo : BitVec 12), Does (fun t => .twinReleaseReceive t port echo)
      (fun s => let s := s.frame
        s.mirroring = true)
      fun s => let s := s.frame
        s.onTwin fun w => { w with echoes := w.echoes.filter fun y => !(y.intake == port.val && y.idx == echo.toNat) })
  ∧ (∀ (port : IntakeId) (echo : BitVec 12), Does (fun t => .twinReleaseReceive t port echo)
      (fun s => let s := s.frame
        s.mirroring = false)
      fun s => let s := s.frame
        s)
  ∧ (∀ (line : BitVec 42) (q : Word), Does (fun t => .cleanNotice t line q)
      (fun s => let s := s.frame
        Tbl.find (s.slc (s.homeSlice line.toNat)).banks.held line.toNat ≠ some q.toNat)
      fun s => let s := s.frame
        s.mirrorClean (s.homeSlice line.toNat) line.toNat q.toNat)
  ∧ (∀ (line : BitVec 42) (q : Word), Does (fun t => .cleanNotice t line q)
      (fun s => let s := s.frame
        Tbl.find (s.slc (s.homeSlice line.toNat)).banks.held line.toNat = some q.toNat ∧ (s.mirrorClean (s.homeSlice line.toNat) line.toNat q.toNat).stuckWays (s.homeSlice line.toNat) = [])
      fun s => let s := s.frame
        (s.mirrorClean (s.homeSlice line.toNat) line.toNat q.toNat).endWaits (s.homeSlice line.toNat))
  ∧ (∀ (line : BitVec 42) (q : Word) (x : Nat × GEntry) (l : List (Nat × GEntry)), Does (fun t => .cleanNotice t line q)
      (fun s => let s := s.frame
        Tbl.find (s.slc (s.homeSlice line.toNat)).banks.held line.toNat = some q.toNat ∧ (s.mirrorClean (s.homeSlice line.toNat) line.toNat q.toNat).stuckWays (s.homeSlice line.toNat) = x :: l)
      fun s => let s := s.frame
        (s.mirrorClean (s.homeSlice line.toNat) line.toNat q.toNat).evictAccepted (s.homeSlice line.toNat) x.1
          ((s.mirrorClean (s.homeSlice line.toNat) line.toNat q.toNat).takerOf (s.homeSlice line.toNat) x.1))
  ∧ (∀ (line : BitVec 42), Does (fun t => .cleanRequest t line)
      (fun _ => True)
      fun s => let s := s.frame
        s.flushLine (s.homeSlice line.toNat) line.toNat)
  ∧ (∀ (n : SliceId), Does (fun t => .twinRecall t n)
      (fun s => let s := s.frame
        s.twin.st = .paired)
      fun s => let s := s.frame
        (s.onTwin fun w => { w with recallDue := insertNat n.val w.recallDue }).recallsGo)
  ∧ (∀ (n : SliceId), Does (fun t => .twinRecall t n)
      (fun s => let s := s.frame
        s.twin.st ≠ .paired)
      fun s => let s := s.frame
        s)

/-- RESYNC_WALK_LINE in RESYNC_SOURCE sends a line of a marked tract, PRIMARY here and not yet sent, from the Granary at once, or
reads it on an internal entry. RESYNC_RECORD: a record is placed as a settle record is while the block resynchronizes; an
acknowledgement counts at the source; the source’s generation record of a set is copied. MAP_RECORD while mirroring: a map
record sets or removes the entry, its ledger and the tract buffers’ copies; a move of the twin’s engine starts here too, joins
its batch once copied, or is dropped. FORWARDED_RECORD while the block mirrors is checked as a request of the same port: it
fails with an answer to the twin, is held, or is served. FORWARDED_RESPONSE answers the host of the request forwarded under
its tag and returns its credit. FORWARD_HOLD_TIMEOUT: 5 ms in a split, the forwarded request fails. POWER_FAIL_NOTICE records
the notice; 50 µs later without a warning of its own the block treats it as an abdication. [08_ordering_durability.md,
09_twin.md, 10_placement.md, 15_power_startup.md, R374, R387, R412, R430, R436, R458, R604] -/
def Obligations.ResyncMapAndForwardedMessages : Prop :=
  (∀ (n : SliceId) (line : BitVec 42) (v : Line × Meta), Does (fun t => .resyncWalkLine t n line)
      (fun s => (s.twin.st = .resyncSource ∧ s.homeSlice line.toNat = n.val ∧ s.twin.split.contains (tractOf line.toNat) = true ∧ s.twin.walk.contains line.toNat = false
          ∧ s.primary (s.mapPart line.toNat) = true ∧ s.walkYields line.toNat = false ∧ ((s.slc n.val).front.ents.any fun y => y.2.kind == .resync && y.2.req.line == line.toNat) = false)
          ∧ s.grnValue n.val line.toNat = some v ∧ Meta.colour v.2 = s.mapPart line.toNat)
      fun s => s.resyncSend n.val line.toNat v.1)
  ∧ (∀ (n : SliceId) (line : BitVec 42) (v : Line × Meta), Does (fun t => .resyncWalkLine t n line)
      (fun s => (s.twin.st = .resyncSource ∧ s.homeSlice line.toNat = n.val ∧ s.twin.split.contains (tractOf line.toNat) = true ∧ s.twin.walk.contains line.toNat = false
          ∧ s.primary (s.mapPart line.toNat) = true ∧ s.walkYields line.toNat = false ∧ ((s.slc n.val).front.ents.any fun y => y.2.kind == .resync && y.2.req.line == line.toNat) = false)
          ∧ s.grnValue n.val line.toNat = some v ∧ Meta.colour v.2 ≠ s.mapPart line.toNat)
      fun s => s.colourBad n.val line.toNat (Meta.colour v.2))
  ∧ (∀ (n : SliceId) (line : BitVec 42), Does (fun t => .resyncWalkLine t n line)
      (fun s => ((s.slc n.val).front.ents.any fun y => y.2.kind == .resync && y.2.req.line == line.toNat) = true)
      fun s => s)
  ∧ (∀ (n : SliceId) (line : BitVec 42), Does (fun t => .resyncWalkLine t n line)
      (fun s => s.grnValue n.val line.toNat = none ∧ s.freeInt n.val .resync = none)
      fun s => s)
  ∧ (∀ (n : SliceId) (line : BitVec 42) (e : Nat), Does (fun t => .resyncWalkLine t n line)
      (fun s => (s.twin.st = .resyncSource ∧ s.homeSlice line.toNat = n.val ∧ s.twin.split.contains (tractOf line.toNat) = true ∧ s.twin.walk.contains line.toNat = false
          ∧ s.primary (s.mapPart line.toNat) = true ∧ s.walkYields line.toNat = false ∧ ((s.slc n.val).front.ents.any fun y => y.2.kind == .resync && y.2.req.line == line.toNat) = false)
          ∧ s.grnValue n.val line.toNat = none ∧ s.freeInt n.val .resync = some e)
      fun s => (s.openInt n.val e .resync line.toNat (s.mapPart line.toNat) false).readInt n.val e line.toNat)
  ∧ (∀ (n : SliceId) (line : BitVec 42), Does (fun t => .resyncWalkLine t n line)
      (fun s => s.twin.st ≠ .resyncSource ∨ s.homeSlice line.toNat ≠ n.val ∨ s.twin.split.contains (tractOf line.toNat) = false ∨ s.twin.walk.contains line.toNat = true ∨ s.primary (s.mapPart line.toNat) = false ∨ s.walkYields line.toNat = true)
      fun s => s)
  ∧ (∀ (line : BitVec 42) (part : PartId) (d : Line) (po : Bool) (g : BitVec 4) (q : Word) (e : Nat), Does (fun t => .resyncRecord t (.record line part d po g q e))
      (fun s => let s := s.frame
        s.twin.st = .resyncTarget ∨ s.twin.st = .resyncSource)
      fun s => let s := s.frame
        (s.twinIn (.slice (s.homeSlice line.toNat)) 0x62
          { prio := s.prio part.val, part := part.val, line := line.toNat, tgen := some g.toNat, pois := po, epoch := e, aux := q.toNat, data := lineUnits d }).mirrorIn (s.homeSlice line.toNat)
          { mkReq 0 0 none .wrS line.toNat part.val d 0 s.time with num := 128, noted := some q.toNat, epoch := some e, tgen := some g.toNat, fwd := true } po |>.resyncGot line.toNat)
  ∧ (∀ (line : BitVec 42), Does (fun t => .resyncRecord t (.ack line))
      (fun s => let s := s.frame
        s.twin.st = .resyncSource)
      fun s => let s := s.frame
        (s.twinIn (.slice (s.homeSlice line.toNat)) 0x46 { prio := s.linePrio line.toNat, line := line.toNat }).resyncAcked line.toNat)
  ∧ (∀ (n : SliceId) (dg fl : BitVec 4) (q : List (PartId × BitVec 4)), Does (fun t => .resyncRecord t (.gen n dg fl q))
      (fun s => let s := s.frame
        s.twin.st = .paired ∨ s.twin.st = .resyncTarget)
      fun s => let s := s.frame
        s.copyGen n.val dg.toNat fl.toNat (q.map fun x => (x.1.val, x.2.toNat)))
  ∧ (∀ (tr : BitVec 32) (e : MapMsg), Does (fun t => .mapRecord t tr e)
      (fun s => let s := s.frame
        s.mirroring = false)
      fun s => let s := s.frame
        s)
  ∧ (∀ (tr : BitVec 32) (e : Quad), Does (fun t => .mapRecord t tr (.entry e))
      (fun _ => meOk tr.toNat e = false)
      fun s => let s := s.frame
        s)
  ∧ (∀ (tr : BitVec 32) (e : Quad), Does (fun t => .mapRecord t tr (.entry e))
      (fun s => let s := s.frame
        s.mirroring = true ∧ meOk tr.toNat e = true ∧ meState e ≠ 0 ∧ s.mapEntry tr.toNat = none)
      fun s => let s := s.frame
        ((s.setLedger (mePort e) (meTract e) 1).onPlace fun q => { q with map := Tbl.set q.map tr.toNat e, map2 := Tbl.set q.map2 tr.toNat e }).allBanks fun b =>
          { b with tbuf := b.tbuf.map fun v => if v.1 = tr.toNat then (tr.toNat, e) else v })
  ∧ (∀ (tr : BitVec 32) (e x : Quad), Does (fun t => .mapRecord t tr (.entry e))
      (fun s => let s := s.frame
        s.mirroring = true ∧ meOk tr.toNat e = true ∧ meState e = 0 ∧ s.openMv tr.toNat = none ∧ s.mapEntry tr.toNat = some x ∧ (mePort x ≠ mePort e ∨ meTract x ≠ meTract e))
      fun s => let s := s.frame
        ((s.setLedger (mePort x) (meTract x) (if meState x = 6 then 3 else 0)).onPlace fun q =>
          { q with map := Tbl.del q.map tr.toNat, map2 := Tbl.del q.map2 tr.toNat }).allBanks fun b => { b with tbuf := b.tbuf.filter fun v => v.1 != tr.toNat })
  ∧ (∀ (tr : BitVec 32) (old new : MediaId × Nat) (g : BitVec 4) (r : Bool), Does (fun t => .mapRecord t tr (.move old new g r))
      (fun s => let s := s.frame
        s.mirroring = true ∧ (s.place.moves.any fun v => v.tract == tr.toNat) = false)
      fun s => let s := s.frame
        (s.setLedger new.1.val new.2 1).openMove
          ⟨tr.toNat, (old.1.val, old.2), (new.1.val, new.2), g.toNat, .start, if r then .retire else .spread, [], false, [], 0, false, false⟩)
  ∧ (∀ (tr : BitVec 32) (b : Nat), Does (fun t => .mapRecord t tr (.batch b))
      (fun s => let s := s.frame
        s.mirroring = true)
      fun s => let s := s.frame
        s.onPlace fun q => { q with moves := q.moves.map fun v => if v.tract = tr.toNat ∧ !v.own ∧ v.phase = .copied then { v with batch := b, phase := .commit } else v })
  ∧ (∀ (tr : BitVec 32) (v : Move), Does (fun t => .mapRecord t tr .abandon)
      (fun s => let s := s.frame
        s.mirroring = true ∧ s.openMv tr.toNat = some v)
      fun s => let s := s.frame
        s.dropMove v)
  ∧ (∀ (port : IntakeId) (v : State) (m : M2S) (op : ReqOp) (d : Line) (be : Quad), Does (fun t => .forwardedRecord t port m op d be)
      (fun s => let s := s.frame
        s.twinIn (.intake port.val) 0x02 { prio := s.prio ((s.partOf (m.offset.toNat / 64)).getD 64), tag := m.tag.toNat, host := some m.host.val, line := m.offset.toNat / 64, aux := be.toNat, data := if opRwd op then lineUnits d else [] } = v
          ∧ (v.mirroring = false ∨ (v.ip port.val).halted = true))
      fun _ => v)
  ∧ (∀ (port : IntakeId) (v : State) (m : M2S) (op : ReqOp) (d : Line) (be : Quad) (c : Nat) (p : Option Nat), Does (fun t => .forwardedRecord t port m op d be)
      (fun s => let s := s.frame
        s.twinIn (.intake port.val) 0x02 { prio := s.prio ((s.partOf (m.offset.toNat / 64)).getD 64), tag := m.tag.toNat, host := some m.host.val, line := m.offset.toNat / 64, aux := be.toNat, data := if opRwd op then lineUnits d else [] } = v
          ∧ v.mirroring = true ∧ (v.ip port.val).halted = false ∧ v.check { m with port := port } op d be true = .fail c p)
      fun s => let s := s.frame
        (v.countFail port.val c m.host.val op m.offset.toNat p).answerFwd port.val m.tag.toNat ((s.partOf (m.offset.toNat / 64)).getD 64) (failAnswer op m.mf (formOf op m.mf m.mv m.snp)))
  ∧ (∀ (port : IntakeId) (v : State) (m : M2S) (op : ReqOp) (d : Line) (be : Quad) (r : Req), Does (fun t => .forwardedRecord t port m op d be)
      (fun s => let s := s.frame
        s.twinIn (.intake port.val) 0x02 { prio := s.prio ((s.partOf (m.offset.toNat / 64)).getD 64), tag := m.tag.toNat, host := some m.host.val, line := m.offset.toNat / 64, aux := be.toNat, data := if opRwd op then lineUnits d else [] } = v
          ∧ v.mirroring = true ∧ (v.ip port.val).halted = false ∧ v.check { m with port := port } op d be true = .hold r)
      fun _ => v.holdReq r m.tag.toNat)
  ∧ (∀ (port : IntakeId) (v : State) (m : M2S) (op : ReqOp) (d : Line) (be : Quad) (r : Req), Does (fun t => .forwardedRecord t port m op d be)
      (fun s => let s := s.frame
        s.twinIn (.intake port.val) 0x02 { prio := s.prio ((s.partOf (m.offset.toNat / 64)).getD 64), tag := m.tag.toNat, host := some m.host.val, line := m.offset.toNat / 64, aux := be.toNat, data := if opRwd op then lineUnits d else [] } = v
          ∧ v.mirroring = true ∧ (v.ip port.val).halted = false ∧ v.check { m with port := port } op d be true = .pass r ∧ r.form ≠ .specRd ∧ r.form ≠ .biConf ∧ (r.form = .clnEvct → r.plate = none))
      fun _ => v.keep r .host m.tag.toNat (v.firstPlace r))
  ∧ (∀ (port : IntakeId) (v : State) (m : M2S) (op : ReqOp) (d : Line) (be : Quad) (r : Req), Does (fun t => .forwardedRecord t port m op d be)
      (fun s => let s := s.frame
        s.twinIn (.intake port.val) 0x02 { prio := s.prio ((s.partOf (m.offset.toNat / 64)).getD 64), tag := m.tag.toNat, host := some m.host.val, line := m.offset.toNat / 64, aux := be.toNat, data := if opRwd op then lineUnits d else [] } = v
          ∧ v.mirroring = true ∧ (v.ip port.val).halted = false ∧ v.check { m with port := port } op d be true = .pass r ∧ r.form = .specRd)
      fun _ => v.bumpIp port.val 3 32 32)
  ∧ (∀ (port : IntakeId) (v : State) (m : M2S) (op : ReqOp) (d : Line) (be : Quad) (r : Req), Does (fun t => .forwardedRecord t port m op d be)
      (fun s => let s := s.frame
        s.twinIn (.intake port.val) 0x02 { prio := s.prio ((s.partOf (m.offset.toNat / 64)).getD 64), tag := m.tag.toNat, host := some m.host.val, line := m.offset.toNat / 64, aux := be.toNat, data := if opRwd op then lineUnits d else [] } = v
          ∧ v.mirroring = true ∧ (v.ip port.val).halted = false ∧ v.check { m with port := port } op d be true = .pass r ∧ r.form = .biConf ∧ (v.firstPlace r).goes = false)
      fun _ => v.conflict r m.tag.toNat)
  ∧ (∀ (port : IntakeId) (v : State) (m : M2S) (op : ReqOp) (d : Line) (be : Quad) (r : Req), Does (fun t => .forwardedRecord t port m op d be)
      (fun s => let s := s.frame
        s.twinIn (.intake port.val) 0x02 { prio := s.prio ((s.partOf (m.offset.toNat / 64)).getD 64), tag := m.tag.toNat, host := some m.host.val, line := m.offset.toNat / 64, aux := be.toNat, data := if opRwd op then lineUnits d else [] } = v
          ∧ v.mirroring = true ∧ (v.ip port.val).halted = false ∧ v.check { m with port := port } op d be true = .pass r ∧ r.form = .biConf ∧ (v.firstPlace r).goes = true)
      fun _ => v.keep r .host m.tag.toNat (v.firstPlace r))
  ∧ (∀ (port : IntakeId) (v : State) (m : M2S) (op : ReqOp) (d : Line) (be : Quad) (r : Req), Does (fun t => .forwardedRecord t port m op d be)
      (fun s => let s := s.frame
        s.twinIn (.intake port.val) 0x02 { prio := s.prio ((s.partOf (m.offset.toNat / 64)).getD 64), tag := m.tag.toNat, host := some m.host.val, line := m.offset.toNat / 64, aux := be.toNat, data := if opRwd op then lineUnits d else [] } = v
          ∧ v.mirroring = true ∧ (v.ip port.val).halted = false ∧ v.check { m with port := port } op d be true = .pass r ∧ r.form = .clnEvct ∧ r.plate.isSome = true)
      fun s => let s := s.frame
        (v.passEcho r m.tag.toNat).answerFwd port.val m.tag.toNat ((s.partOf (m.offset.toNat / 64)).getD 64) (false, true))
  ∧ (∀ (port : IntakeId) (tag : Nat) (drs : Option (Line × Bool)) (ndr : Option NdrKind) (load : DevLoad) (k : Kept) (t0 hh : Nat), Does (fun t => .forwardedResponse t port tag drs ⟨ndr, load⟩)
      (fun s => let s := s.frame
        s.kept? port.val tag = some k ∧ k.st = .fwd t0 ∧ k.req.host = some hh)
      fun s => let s := s.frame
        s.forwardAnswer port.val tag k hh drs ndr load)
  ∧ (∀ (port : IntakeId) (tag : Nat) (k : Kept) (t0 : Nat), Does (fun t => .forwardHoldTimeout t port tag)
      (fun s => s.kept? port.val tag = some k ∧ k.st = .fwd t0 ∧ s.forwards k.req.part = false ∧ t0 + 5000000 ≤ s.now)
      fun s => ((s.failKept port.val k).holdStore port.val).drainPart k.req.part)
  ∧ (Does (fun t => .powerFailNotice t)
      (fun _ => True)
      fun s => let s := s.frame
        s.onTwin fun w => { w with peerFail := some s.now })
  ∧ (∀ (t0 : Nat), Does (fun t => .powerFailNoticeTimeout t)
      (fun s => s.twin.peerFail = some t0 ∧ s.pwr.fail = none ∧ s.pwr.pfWarn = false ∧ t0 + 50000 ≤ s.now ∧ (s.twin.st = .paired ∨ s.twin.st = .resyncSource ∨ s.twin.st = .resyncTarget))
      fun s => (s.onTwin fun w => { w with peerFail := none }).abdicated)
  ∧ (∀ (t0 : Nat), Does (fun t => .powerFailNoticeTimeout t)
      (fun s => s.twin.peerFail = some t0 ∧ s.pwr.fail = none ∧ s.pwr.pfWarn = false ∧ t0 + 50000 ≤ s.now ∧ s.twin.st = .split)
      fun s => s.onTwin fun w => { w with peerFail := none })

/-- HEAT_NOTE is added to the notes of its heat stook. HEAT_WINDOW_END, once for each whole millisecond of Meridian time, sends
the slices’ notes and ends the window of every heat stook, with the decay every eighth. COLD_SCAN, when enabled, offers the
tracts on fast media without heat among the next 16 provisioned map pages, and goes on after the last of them.
HELIOSTAT_ROUND, once for each multiple of 10 ms, counts overloaded rounds, issues its moves when enabled, arms what waits and
starts the next round. [07_meridian.md, 10_placement.md, R325, R444, R445, R447, R449, R450, R451] -/
def Obligations.HeatIsGatheredAndRoundsAreMade : Prop :=
  (∀ (k : StookId) (x : HeatNote), Does (fun t => .heatNote t k x)
      (fun _ => True)
      fun s => (s.stookWork (s.duty k.val)).onStk (s.duty k.val) fun q => { q with got := q.got ++ [⟨x.tract.toNat, x.part.val, x.fast, x.count⟩] })
  ∧ (Does (fun t => .heatWindowEnd t)
      (fun s => s.place.window < s.now / 1000000)
      fun s => (State.each (fun k u => u.stookWindow k (s.now / 1000000 % 8 == 0)) (List.range 16) s.sendNotes).onPlace fun q => { q with window := s.now / 1000000 })
  ∧ (Does (fun t => .heatWindowEnd t)
      (fun s => s.now / 1000000 ≤ s.place.window)
      fun s => s)
  ∧ (Does (fun t => .coldScan t)
      (fun s => s.place.scanEn = false)
      fun s => s)
  ∧ (Does (fun t => .coldScan t)
      (fun s => s.place.scanEn = true ∧ s.scanPages = [])
      fun s => s)
  ∧ (∀ (l : List Nat) (g : Nat), Does (fun t => .coldScan t)
      (fun s => s.place.scanEn = true ∧ s.scanPages = l ++ [g])
      fun s => (State.each (fun (x : Nat × Quad) u => (u.stookWork (u.heatHome x.1)).onStk (u.heatHome x.1) fun q => q.offer x.1 (mePart x.2) 0) s.scanTracts s).onPlace fun q => { q with scanAt := g + 1 })
  ∧ (Does (fun t => .heliostatRound t)
      (fun s => s.place.round < s.now / 10000000 ∧ s.place.helio = false)
      fun s => (((s.onPlace fun q => { q with round := s.now / 10000000 }).countOver).armBatch.armRemoval.drainLeft.armPair).rollRound)
  ∧ (Does (fun t => .heliostatRound t)
      (fun s => s.place.round < s.now / 10000000 ∧ s.place.helio = true)
      fun s => ((((((s.onPlace fun q => { q with round := s.now / 10000000 }).countOver).roundMoves.2.2).roleMoves.adjustK ((s.onPlace fun q => { q with round := s.now / 10000000 }).countOver).roundMoves.1).onPlace fun q => { q with late := ((s.onPlace fun q => { q with round := s.now / 10000000 }).countOver).roundMoves.2.1 }).armBatch.armRemoval.drainLeft.armPair).rollRound)
  ∧ (Does (fun t => .heliostatRound t)
      (fun s => s.now / 10000000 ≤ s.place.round)
      fun s => s)

/-- MOVE_START_ACK puts the move in COPY and its slices begin. MOVE_COPIED: once all 64 slices have copied, the move is COPIED;
the block whose engine decides the move arms the batch, and the other block of the pair tells it. COMMIT_MARK: a slice counts
the mark of an intake port once no older request of that port is in its stream; with all 16 marks and nothing of the old
placement left, its part is drained. MOVE_DONE: when no slice has anything left, the old media tract is FREE (RETIRED for a
retirement), intake ports and slices drop the tract, its state is what it rests in, and the move is counted and gone.
[10_placement.md, R458, R459, R465, R466, R472] -/
def Obligations.TractMovesCopyCommitDrainAndEnd : Prop :=
  (∀ (tr : BitVec 32) (v : Move), Does (fun t => .moveStartAck t tr)
      (fun s => (s.place.moves.find? fun v => v.tract == tr.toNat && v.phase == .start) = some v)
      fun s => State.each (fun n s => s.pumpCopies n) (s.slices.keys.filter fun n => (s.slc n).banks.moves.any fun r => r.tract == tr.toNat)
        (s.onPlace fun q => { q with moves := q.moves.map fun v => if v.tract = tr.toNat then { v with phase := .copy } else v }))
  ∧ (∀ (tr : BitVec 32), Does (fun t => .moveStartAck t tr)
      (fun s => (s.place.moves.find? fun v => v.tract == tr.toNat && v.phase == .start) = none)
      fun s => s)
  ∧ (∀ (tr : BitVec 32) (v : Move), Does (fun t => .moveCopied t tr)
      (fun s => (s.place.moves.find? fun v => v.tract == tr.toNat && v.phase == .copy) = some v ∧ (tractSlices tr.toNat).all (fun n => v.copied.contains n) = true ∧ v.own = true)
      fun s => (s.onPlace fun q => { q with moves := q.moves.map fun v => if v.tract = tr.toNat then { v with phase := .copied, twinOk := true } else v }).armBatch)
  ∧ (∀ (tr : BitVec 32) (v : Move), Does (fun t => .moveCopied t tr)
      (fun s => (s.place.moves.find? fun v => v.tract == tr.toNat && v.phase == .copy) = some v ∧ (tractSlices tr.toNat).all (fun n => v.copied.contains n) = true ∧ v.own = false)
      fun s => (s.onPlace fun q => { q with moves := q.moves.map fun v => if v.tract = tr.toNat then { v with phase := .copied, twinOk := true } else v }).toTwin (.moveCopied tr.toNat))
  ∧ (∀ (tr : BitVec 32) (v : Move), Does (fun t => .moveCopied t tr)
      (fun s => (s.place.moves.find? fun v => v.tract == tr.toNat && v.phase == .copy) = some v ∧ (tractSlices tr.toNat).all (fun n => v.copied.contains n) = false)
      fun s => s)
  ∧ (∀ (n : SliceId) (i : IntakeId), Does (fun t => .commitMark t n i)
      (fun s => (s.markCommit n.val i.val).drainedHere n.val = [])
      fun s => s.markCommit n.val i.val)
  ∧ (∀ (n : SliceId) (i : IntakeId) (r : MovRec) (l : List MovRec), Does (fun t => .commitMark t n i)
      (fun s => (s.markCommit n.val i.val).drainedHere n.val = r :: l)
      fun s => State.each (fun (r : MovRec) s => s.moveDrained n.val r) (r :: l) ((s.markCommit n.val i.val).bumpPlc 7 24 24))
  ∧ (∀ (tr : BitVec 32) (v : Move), Does (fun t => .moveDone t tr)
      (fun s => (s.place.moves.find? fun v => v.tract == tr.toNat && v.phase == .drain) = some v ∧ s.moveOpen tr.toNat = false)
      fun s => ((s.endMove v tr.toNat).bumpPlc 4 32 32).armRemoval)
  ∧ (∀ (tr : BitVec 32) (v : Move), Does (fun t => .moveDone t tr)
      (fun s => (s.place.moves.find? fun v => v.tract == tr.toNat && v.phase == .drain) = some v ∧ s.moveOpen tr.toNat = true)
      fun s => s)

/-- PATROL_SCRUB_LINE: with patrol on, the home slice in service, an entry of the scrub share free, the line the next of its
share’s pass and its ports yielded by no host demand or drain, a slice opens a read of the line and the pass moves on.
PATROL_PASS_COMPLETE: with every share read through and no scrub read open, each slice’s floor is raised, restored quiet
generations end, and the next pass begins. ARRAY_SCRUB_WORD counts the word, and logs a correctable or an uncorrectable one as
its kind of array does; a word of an array or subarray out of service, or with the scrub off, does nothing. LANE_ENTRY_EXPIRY
drops the entry once LANE_WINDOW has passed. LANE_STEER_DONE puts the spare lane in use for an erasure that is not permanent.
[05_sheaf_filter.md, 13_line_integrity.md, R228, R523, R524, R525, R538, R539, R540] -/
def Obligations.ScrubsReadTheirLinesAndWords : Prop :=
  (∀ (n : SliceId) (line : BitVec 42) (e : Quad) (k : Nat), Does (fun t => .patrolScrubLine t n line)
      (fun s => s.mapEntry (tractOf line.toNat) = some e ∧ s.freeInt n.val .scrub = some k ∧ s.blk.patrolEn = true ∧ s.homeSlice line.toNat = n.val ∧ s.fencedSlice n.val = false
          ∧ s.scrubNext (sliceOf line.toNat) = some (scrubPos line.toNat) ∧ s.win.failsafe = false ∧ ((s.livePlaces n.val line.toNat).any fun p => s.yields p.1 true) = false)
      fun s => ((s.openInt n.val k .scrub line.toNat (mePart e) false).readInt n.val k line.toNat).onPlace fun q =>
          { q with passAt := Tbl.set q.passAt (sliceOf line.toNat) (scrubPos line.toNat + 1) })
  ∧ (∀ (n : SliceId) (line : BitVec 42), Does (fun t => .patrolScrubLine t n line)
      (fun s => s.blk.patrolEn = false ∨ s.homeSlice line.toNat ≠ n.val ∨ s.scrubNext (sliceOf line.toNat) ≠ some (scrubPos line.toNat)
          ∨ ((s.livePlaces n.val line.toNat).any fun p => s.yields p.1 true) = true ∨ s.mapEntry (tractOf line.toNat) = none ∨ s.freeInt n.val .scrub = none)
      fun s => s)
  ∧ (Does (fun t => .patrolPassComplete t)
      (fun s => s.blk.patrolEn = true ∧ s.scrubbing = false ∧ (List.range 128).all s.shareDone = true)
      fun s => { State.endRestored (State.each (fun n s => s.raiseFloor n) (List.range 128) s) with
            mports := Tbl.mapv MPort.passed (State.endRestored (State.each (fun n s => s.raiseFloor n) (List.range 128) s)).mports }.nextPass)
  ∧ (Does (fun t => .patrolPassComplete t)
      (fun s => s.blk.patrolEn = false ∨ s.scrubbing = true ∨ (List.range 128).all s.shareDone = false)
      fun s => s)
  ∧ (∀ (w : ArrayWord), Does (fun t => .arrayScrubWord t w .clean)
      (fun s => s.scrubbed w = true)
      fun s => (s.wakeFor w.kind.val w.unit.val).bumpStk (s.duty (arrayStook w.kind.val w.unit.val)) 5 0 64)
  ∧ (∀ (w : ArrayWord) (lost : List (Nat × Bool)), Does (fun t => .arrayScrubWord t w (.correctable lost))
      (fun s => s.scrubbed w = true)
      fun s => ((s.wakeFor w.kind.val w.unit.val).bumpStk (s.duty (arrayStook w.kind.val w.unit.val)) 5 0 64).arrayCe w lost .mediaScrub)
  ∧ (∀ (w : ArrayWord), Does (fun t => .arrayScrubWord t w .uncorrectable)
      (fun s => s.scrubbed w = true)
      fun s => ((s.wakeFor w.kind.val w.unit.val).bumpStk (s.duty (arrayStook w.kind.val w.unit.val)) 5 0 64).arrayUe w .mediaScrub)
  ∧ (∀ (w : ArrayWord) (f : WordFault), Does (fun t => .arrayScrubWord t w f)
      (fun s => s.scrubbed w = false)
      fun s => s)
  ∧ (∀ (k : StookId) (m : MediaId) (sym : Fin 72) (bit : Fin 8), Does (fun t => .laneEntryExpiry t k m sym bit)
      (fun s => ((s.stk k.val).lanes.any fun e => e.port == m.val && e.sym == sym.val && e.bit == bit.val && e.first + s.blk.laneWindow * 1000000 ≤ s.now) = true)
      fun s => (s.stookWork k.val).onStk k.val fun q => { q with lanes := q.lanes.filter fun e => !(e.port == m.val && e.sym == sym.val && e.bit == bit.val && e.first + s.blk.laneWindow * 1000000 ≤ s.now) })
  ∧ (∀ (k : StookId) (m : MediaId) (sym : Fin 72) (bit : Fin 8), Does (fun t => .laneEntryExpiry t k m sym bit)
      (fun s => ((s.stk k.val).lanes.any fun e => e.port == m.val && e.sym == sym.val && e.bit == bit.val && e.first + s.blk.laneWindow * 1000000 ≤ s.now) = false)
      fun s => s)
  ∧ (∀ (m : MediaId), Does (fun t => .laneSteerDone t m)
      (fun s => (s.mp m.val).erase = true ∧ (s.mp m.val).erasePerm = false ∧ (s.mp m.val).spareUsed = false)
      fun s => s.onMp m.val fun q => { q with spareUsed := true, steered := laneOf q.eraseSym, steerDone := true, passOk := false })
  ∧ (∀ (m : MediaId), Does (fun t => .laneSteerDone t m)
      (fun s => (s.mp m.val).erase = false ∨ (s.mp m.val).erasePerm = true ∨ (s.mp m.val).spareUsed = true)
      fun s => s)

/-- WINNOW_EVENT takes the oldest event of its source that Winnow has not taken: it is acknowledged, counted, classified,
recorded, and its reaction starts. With a raised event the source first raises it: with fewer than 4 outstanding it is sent
and queued, else counted under the source’s base class; a reserved source raises nothing. EVENT_RESEND: an event that has gone
10 µs without acknowledgement is sent again in a packet; Winnow counts the repeat and acknowledges one that it has taken;
after 8 repeats the unit asserts the event line. EVENT_LINE raises EVENT_PATH with the unit. [14_faults.md, R547, R548, R555] -/
def Obligations.WinnowTakesEachEventOnce : Prop :=
  (∀ (src : SrcId) (v : Ev), Does (fun t => .winnowEvent t src none)
      (fun s => (s.events.find? fun v => v.src == src.val && !s.evTaken v) = some v)
      fun s => s.takeEvent v)
  ∧ (∀ (src : SrcId), Does (fun t => .winnowEvent t src none)
      (fun s => (s.events.find? fun v => v.src == src.val && !s.evTaken v) = none)
      fun s => s)
  ∧ (∀ (src : SrcId) (x : EvIn) (v : Ev), Does (fun t => .winnowEvent t src (some x))
      (fun s => noSource src.val = false ∧ ((s.raiseC src.val x.kind.toNat none x.line.toNat x.part.val x.unit.val x.extra.val).events.find? fun v => v.src == src.val && !(s.raiseC src.val x.kind.toNat none x.line.toNat x.part.val x.unit.val x.extra.val).evTaken v) = some v)
      fun s => (s.raiseC src.val x.kind.toNat none x.line.toNat x.part.val x.unit.val x.extra.val).takeEvent v)
  ∧ (∀ (src : SrcId) (x : EvIn), Does (fun t => .winnowEvent t src (some x))
      (fun s => noSource src.val = true ∧ (s.events.find? fun v => v.src == src.val && !s.evTaken v) = none)
      fun s => s)
  ∧ (∀ (src : SrcId) (x : EvIn), Does (fun t => .winnowEvent t src (some x))
      (fun s => noSource src.val = false ∧ s.win.taken = [] ∧ s.events = [])
      fun s => State.takeEvent { s.eventPacket (⟨src.val, Tbl.get 0 s.evSeq src.val, x.kind.toNat, s.time, none, x.line.toNat, x.part.val, x.unit.val, x.extra.val, 0, s.now⟩ : Ev) with
              evSeq := Tbl.set s.evSeq src.val ((Tbl.get 0 s.evSeq src.val + 1) % 65536)
              events := [(⟨src.val, Tbl.get 0 s.evSeq src.val, x.kind.toNat, s.time, none, x.line.toNat, x.part.val, x.unit.val, x.extra.val, 0, s.now⟩ : Ev)] } (⟨src.val, Tbl.get 0 s.evSeq src.val, x.kind.toNat, s.time, none, x.line.toNat, x.part.val, x.unit.val, x.extra.val, 0, s.now⟩ : Ev))
  ∧ (∀ (src : SrcId) (x : EvIn), Does (fun t => .winnowEvent t src (some x))
      (fun s => noSource src.val = false ∧ 4 ≤ (s.events.filter fun w => w.src == src.val).length ∧ (s.events.find? fun w => w.src == src.val && !s.evTaken w) = none)
      fun s => { s with evLost := Tbl.set s.evLost (src.val * 8 + (s.srcCfg src.val).base) (Tbl.get 0 s.evLost (src.val * 8 + (s.srcCfg src.val).base) + 1) })
  ∧ (∀ (src : SrcId) (v : Ev), Does (fun t => .eventResend t src)
      (fun s => (s.events.find? fun v => v.src == src.val && v.sent + 10000 ≤ s.now) = some v ∧ v.repeats < 8 ∧ s.evTaken v = false)
      fun s => (State.eventPacket { s with events := s.events.map fun (w : Ev) => if w.src = v.src ∧ w.seq = v.seq then { w with repeats := min 8 (w.repeats + 1), sent := s.now } else w } v).bumpWin 6 32 32)
  ∧ (∀ (src : SrcId) (v : Ev), Does (fun t => .eventResend t src)
      (fun s => (s.events.find? fun v => v.src == src.val && v.sent + 10000 ≤ s.now) = some v ∧ v.repeats < 8 ∧ s.evTaken v = true)
      fun s => (State.ackEvent (State.bumpWin (State.eventPacket { s with events := s.events.map fun (w : Ev) => if w.src = v.src ∧ w.seq = v.seq then { w with repeats := min 8 (w.repeats + 1), sent := s.now } else w } v) 6 32 32) src v.seq).bumpSrc v.src 60 4)
  ∧ (∀ (src : SrcId) (v : Ev), Does (fun t => .eventResend t src)
      (fun s => (s.events.find? fun v => v.src == src.val && v.sent + 10000 ≤ s.now) = some v ∧ 8 ≤ v.repeats)
      fun s => State.eventLine { s with events := s.events.map fun (w : Ev) => if w.src = v.src ∧ w.seq = v.seq then { w with repeats := min 8 (w.repeats + 1), sent := s.now } else w } src.val)
  ∧ (∀ (src : SrcId), Does (fun t => .eventResend t src)
      (fun s => (s.events.find? fun v => v.src == src.val && v.sent + 10000 ≤ s.now) = none)
      fun s => s)
  ∧ (∀ (x : HsUnit), Does (fun t => .eventLine t x)
      (fun _ => True)
      fun s => ((s.send .eventLine).bumpWin 7 0 16).raise (srcPwr 11) (256 + 548) 0 0 (unitNo x))

/-- SHADOW_END raises a watchdog event that was held back, once the reaction that held it is over. ALIVE_TOGGLE toggles ALIVE at
each whole 500 µs while it runs. VOTE_SWEEP: each copy is the field’s value with the bits upset in it; three equal copies
change nothing but the value they then have; one that differs is outvoted, counted and raises VOTE_1; three that all differ
raise VOTE_2. FIRST_CLEAR clears the first-fault record, or is counted as ignored while it is refused. WINNOW_INJECT raises
the event that its fields name, in factory test mode only, and is ignored and counted there in the fail-safe state.
ALIDADE_WATCHDOG raises its event and Alidade starts again from the active block. [14_faults.md, 17_registers.md, R554, R559,
R562, R569, R571, R576, R582, R681] -/
def Obligations.WinnowDutiesBesideClassification : Prop :=
  (∀ (recno : Word), Does (fun t => .shadowEnd t recno)
      (fun s => (s.pruneReacts.win.shadowed.find? fun x => x.1 == recno.toNat) = none)
      fun s => s.pruneReacts)
  ∧ (∀ (recno : Word) (x : Nat × Ev), Does (fun t => .shadowEnd t recno)
      (fun s => (s.pruneReacts.win.shadowed.find? fun x => x.1 == recno.toNat) = some x ∧ s.pruneReacts.shadowOver recno.toNat = true)
      fun s => (s.pruneReacts.onWin fun w => { w with shadowed := w.shadowed.filter fun y => y.1 != recno.toNat }).raiseC x.2.src x.2.kind x.2.cls x.2.line x.2.part x.2.unit x.2.extra)
  ∧ (∀ (recno : Word) (x : Nat × Ev), Does (fun t => .shadowEnd t recno)
      (fun s => (s.pruneReacts.win.shadowed.find? fun x => x.1 == recno.toNat) = some x ∧ s.pruneReacts.shadowOver recno.toNat = false)
      fun s => s.pruneReacts)
  ∧ (Does (fun t => .aliveToggle t)
      (fun s => s.win.aliveRun = true ∧ s.now % 500000 = 0)
      fun s => s.onWin fun w => { w with alive := !w.alive })
  ∧ (Does (fun t => .aliveToggle t)
      (fun s => s.win.aliveRun = false ∨ s.now % 500000 ≠ 0)
      fun s => s)
  ∧ (∀ (f : VotedField) (a b c : Word), Does (fun t => .voteSweep t f a b c)
      (fun s => s.votedCopy f a = s.votedCopy f b ∧ s.votedCopy f b = s.votedCopy f c)
      fun s => if s.votedCopy f a = s.votedVal f then s else s.setVoted f (s.votedCopy f a))
  ∧ (∀ (f : VotedField) (a b : Word) (k : Fin 3), Does (fun t => .voteSweep t f (if k = 0 then b else a) (if k = 1 then b else a) (if k = 2 then b else a))
      (fun s => s.votedCopy f a ≠ s.votedCopy f b)
      fun s => let z := ((s.bump 0x0A0A88 16 16 1).onBlk fun b => { b with voteLast := votedOff f }).raise (srcPwr 5) (256 + 681) (votedOff f) 0 0
        if s.votedCopy f a = z.votedVal f then z else z.setVoted f (s.votedCopy f a))
  ∧ (∀ (f : VotedField) (a b c : Word), Does (fun t => .voteSweep t f a b c)
      (fun s => s.votedCopy f a ≠ s.votedCopy f b ∧ s.votedCopy f a ≠ s.votedCopy f c ∧ s.votedCopy f b ≠ s.votedCopy f c)
      fun s => s.raise (srcPwr 6) (256 + 681) (votedOff f) 0 0)
  ∧ (Does (fun t => .firstClear t)
      (fun s => s.pruneReacts.firstBusy = false)
      fun s => s.pruneReacts.onWin fun w => { w with first := none })
  ∧ (Does (fun t => .firstClear t)
      (fun s => s.pruneReacts.firstBusy = true)
      fun s => s.pruneReacts.bumpWin 7 16 16)
  ∧ (∀ (v : Word), Does (fun t => .winnowInject t v)
      (fun s => s.pwr.factory = true ∧ s.win.failsafe = false)
      fun s => s.inject v.toNat)
  ∧ (∀ (v : Word), Does (fun t => .winnowInject t v)
      (fun s => s.pwr.factory = false)
      fun s => s)
  ∧ (∀ (v : Word), Does (fun t => .winnowInject t v)
      (fun s => s.pwr.factory = true ∧ s.win.failsafe = true)
      fun s => { s.bumpWin 7 16 16 with ignLast := Tbl.set s.ignLast 0x020014 0x020040 })
  ∧ (Does (fun t => .alidadeWatchdog t)
      (fun s => s.selector = none)
      fun s => s.raise (srcFw 4) (256 + 554) 0 0 0)
  ∧ (∀ (x : Nat × Nat × Bool), Does (fun t => .alidadeWatchdog t)
      (fun s => s.selector = some x)
      fun s => (s.raise (srcFw 4) (256 + 554) 0 0 0).onPwr fun p => { p with bootBlock := x.2.2 })

/-- RAILS_GOOD with the rails down powers the block up, samples FACTORY_MODE and starts step 2; otherwise it does nothing.
OTP_LOAD in step 2 votes three reads and counts their disagreements; a broken IDENT or TWIN_PAIRING group is GRAVE, else the
groups take effect and step 3 begins. ARRAY_BIST in step 3 takes the subarray of each failing column that no repair covers out
of service, and step 6 begins. ALIDADE_BOOT in step 7 boots from the active block, else from the other with an event, else it
is GRAVE. In another step, or during a power failure, these do nothing. [13_line_integrity.md, 15_power_startup.md,
16_mailbox.md, R31, R536, R586, R587, R607, R609, R613, R615, R657] -/
def Obligations.StartUpStepsFollowOneAnother : Prop :=
  (∀ (fm : Bool), Does (fun t => .railsGood t fm)
      (fun s => s.pwr.railsUp = false)
      fun s => s.powerUp.onPwr fun p => { p with railRet := true, railArray := true, railCore := true, goodAt := s.now, step := 2, factory := fm })
  ∧ (∀ (fm : Bool), Does (fun t => .railsGood t fm)
      (fun s => s.pwr.railsUp = true)
      fun s => s)
  ∧ (∀ (a b c : BitVec 16384), Does (fun t => .otpLoad t a b c)
      (fun s => s.pwr.step = 2 ∧ s.pwr.railsUp = true ∧ s.pwr.fail = none ∧ otpBroken (otpVote a b c) 1 = false ∧ otpBroken (otpVote a b c) 2 = false)
      fun s => (s.otpRead a b c).otpTake.onPwr fun p => { p with step := 3 })
  ∧ (∀ (a b c : BitVec 16384), Does (fun t => .otpLoad t a b c)
      (fun s => s.pwr.step = 2 ∧ s.pwr.railsUp = true ∧ s.pwr.fail = none ∧ (otpBroken (otpVote a b c) 1 = true ∨ otpBroken (otpVote a b c) 2 = true))
      fun s => (s.otpRead a b c).raiseC 0x5D7 (256 + 609) (some 4) 0 0 0 0)
  ∧ (∀ (a b c : BitVec 16384), Does (fun t => .otpLoad t a b c)
      (fun s => s.pwr.step ≠ 2 ∨ s.pwr.railsUp = false ∨ s.pwr.fail.isSome = true)
      fun s => s)
  ∧ (∀ (l : List (BitVec 23)), Does (fun t => .arrayBist t l)
      (fun s => s.pwr.step = 3 ∧ s.pwr.fail = none)
      fun s => (State.each (fun r s => s.columnOut r) (s.badColumns l) s).onPwr fun p => { p with step := 6 })
  ∧ (∀ (l : List (BitVec 23)), Does (fun t => .arrayBist t l)
      (fun s => s.pwr.step ≠ 3 ∨ s.pwr.fail.isSome = true)
      fun s => s)
  ∧ (∀ (x : BootInput), Does (fun t => .alidadeBoot t x)
      (fun s => s.pwr.step = 7 ∧ s.pwr.fail = none ∧ (if (s.bootTables x).activeBlock then x.ok1 else x.ok0) = true)
      fun s => ((s.bootTables x).onPwr fun p => { p with bootBlock := (s.bootTables x).activeBlock, fellBack := false }).alidadeRuns)
  ∧ (∀ (x : BootInput), Does (fun t => .alidadeBoot t x)
      (fun s => s.pwr.step = 7 ∧ s.pwr.fail = none ∧ (if (s.bootTables x).activeBlock then x.ok1 else x.ok0) = false ∧ (if (s.bootTables x).activeBlock then x.ok0 else x.ok1) = true)
      fun s => (((s.bootTables x).onPwr fun p => { p with bootBlock := !(s.bootTables x).activeBlock, fellBack := true }).raise (srcFw 6) (256 + 657) 0 0
            (b2n (s.bootTables x).activeBlock)).alidadeRuns)
  ∧ (∀ (x : BootInput), Does (fun t => .alidadeBoot t x)
      (fun s => s.pwr.step = 7 ∧ s.pwr.fail = none ∧ x.ok0 = false ∧ x.ok1 = false)
      fun s => (s.bootTables x).raiseC (srcFw 6) (256 + 609) (some 4) 0 0 0 0)
  ∧ (∀ (x : BootInput), Does (fun t => .alidadeBoot t x)
      (fun s => s.pwr.step ≠ 7 ∨ s.pwr.fail.isSome = true)
      fun s => s)

/-- STARTUP_DIRECTORY_DECISION in step 8: an invalid close record makes the stop unclean; the owned roles and the split record are
taken; an unpaired block goes on to step 9, another sends its handshake, and the twin’s meets it where it has come already.
STARTUP_GENERATION_ACT in step 9: unreadable records are GRAVE; after a clean stop the quiet generations apply and step 10
begins; after an unclean one every directory generation advances first, or the refresh runs where a set has no advance left.
STARTUP_REFRESH, once: quiet generations equal to their floor are dropped, every generation advances, the quiet declarations
apply, and the read and rewrite of every provisioned line begins. [09_twin.md, 10_placement.md, 15_power_startup.md, R220,
R223, R224, R225, R309, R382, R412, R467, R607] -/
def Obligations.StartUpReadsTheRecordsOfTheLastStop : Prop :=
  (∀ (x : CloseInput), Does (fun t => .startupDirectoryDecision t x)
      (fun s => s.pwr.step = 8 ∧ s.pwr.fail = none ∧ s.twin.st = .unpaired)
      fun s => State.step9 ({ s with dirGen := { s.dirGen with close := x.closeValid, unclean := !x.closeValid } }.onTwin fun w =>
          { w with owned := x.roles, hasSplit := x.split.isSome, split := (x.split.getD []).map BitVec.toNat, decided := true, rePaired := x.rePaired }))
  ∧ (∀ (x : CloseInput), Does (fun t => .startupDirectoryDecision t x)
      (fun s => s.pwr.step = 8 ∧ s.pwr.fail = none ∧ s.twin.st ≠ .unpaired ∧ s.twin.shake = none)
      fun s => State.handshake ({ s with dirGen := { s.dirGen with close := x.closeValid, unclean := !x.closeValid } }.onTwin fun w =>
          { w with owned := x.roles, hasSplit := x.split.isSome, split := (x.split.getD []).map BitVec.toNat, decided := true, rePaired := x.rePaired }))
  ∧ (∀ (x : CloseInput) (y : Handshake), Does (fun t => .startupDirectoryDecision t x)
      (fun s => s.pwr.step = 8 ∧ s.pwr.fail = none ∧ s.twin.st ≠ .unpaired ∧ s.twin.shake = some y)
      fun s => State.meet (State.handshake ({ s with dirGen := { s.dirGen with close := x.closeValid, unclean := !x.closeValid } }.onTwin fun w =>
          { w with owned := x.roles, hasSplit := x.split.isSome, split := (x.split.getD []).map BitVec.toNat, decided := true, rePaired := x.rePaired })) y)
  ∧ (∀ (x : CloseInput), Does (fun t => .startupDirectoryDecision t x)
      (fun s => s.pwr.step ≠ 8 ∨ s.pwr.fail.isSome = true)
      fun s => s)
  ∧ (∀ (x : GenInput), Does (fun t => .startupGenerationAct t x)
      (fun s => s.pwr.step = 9 ∧ s.pwr.refresh = false ∧ s.pwr.fail = none ∧ x.readable = false)
      fun s => s.raiseC (srcFw 3) (256 + 609) (some 4) 0 0 0 0)
  ∧ (∀ (x : GenInput), Does (fun t => .startupGenerationAct t x)
      (fun s => s.pwr.step = 9 ∧ s.pwr.refresh = false ∧ s.pwr.fail = none ∧ x.readable = true ∧ (s.startRecords x).dirGen.unclean = false)
      fun s => (s.startRecords x).applyQuiets.step10)
  ∧ (∀ (x : GenInput), Does (fun t => .startupGenerationAct t x)
      (fun s => s.pwr.step = 9 ∧ s.pwr.refresh = false ∧ s.pwr.fail = none ∧ x.readable = true ∧ (s.startRecords x).dirGen.unclean = true ∧ ((List.range 128).any fun n => (s.startRecords x).advLeft n = 0) = false)
      fun s => (State.each (fun n s => s.advanceDg n n) (List.range 128) (s.startRecords x)).applyQuiets.step10)
  ∧ (∀ (x : GenInput), Does (fun t => .startupGenerationAct t x)
      (fun s => s.pwr.step = 9 ∧ s.pwr.refresh = false ∧ s.pwr.fail = none ∧ x.readable = true ∧ (s.startRecords x).dirGen.unclean = true ∧ ((List.range 128).any fun n => (s.startRecords x).advLeft n = 0) = true)
      fun s => (s.startRecords x).onPwr fun p => { p with refresh := true })
  ∧ (∀ (x : GenInput), Does (fun t => .startupGenerationAct t x)
      (fun s => s.pwr.step ≠ 9 ∨ s.pwr.refresh = true ∨ s.pwr.fail.isSome = true)
      fun s => s)
  ∧ (Does (fun t => .startupRefresh t)
      (fun s => s.pwr.refresh = true ∧ s.pwr.refreshing = false ∧ s.pwr.fail = none)
      fun s => State.each (fun l s => s.refreshLine (s.homeSlice l) l)
          ((State.each (fun n s => s.advanceDg n n) (List.range 128)
              (State.onPwr { s with dirGen := { s.dirGen with q := s.dirGen.q.filter fun x => x.2 != s.fl (x.1 % 128) } } fun p => { p with refreshing := true })).applyQuiets).provLines
          ((State.each (fun n s => s.advanceDg n n) (List.range 128)
              (State.onPwr { s with dirGen := { s.dirGen with q := s.dirGen.q.filter fun x => x.2 != s.fl (x.1 % 128) } } fun p => { p with refreshing := true })).applyQuiets))
  ∧ (Does (fun t => .startupRefresh t)
      (fun s => s.pwr.refresh = false ∨ s.pwr.refreshing = true ∨ s.pwr.fail.isSome = true)
      fun s => s)

/-- RAIL_GLITCH of a rail that is good is counted and raised as an event of the power sources whose class is NOTE by default;
every rail stays as it was. On a rail that is not good there is no fall to count. [R32] -/
def Obligations.RailGlitchIsOnlyCounted : Prop :=
  (∀ (r : Rail), Does (fun t => .railGlitch t r)
      (fun s => s.pwr.rail r = true)
      fun s => (s.bumpPwr 1 48 16).raise (srcPwr 0) (256 + 32) 0 0 0)
  ∧ (∀ (r : Rail), Does (fun t => .railGlitch t r)
      (fun s => s.pwr.rail r = false)
      fun s => s)
  ∧ (∀ s : State, ((s.bumpPwr 1 48 16).raise (srcPwr 0) (256 + 32) 0 0 0).pwr = s.pwr)
  ∧ ((State.srcCfg State.reset (srcPwr 0)).base = 0)

/-- RAIL_FAULT with the rails up (OTP_GOOD counts only while a programming command runs) shuts every rail off, ends the drain, and
raises its event unless READY_OFF is set. MARGIN_WRITE, outside the fail-safe state, sets TARGET: −16 to −9 are read as −8 and
9 to 15 as +8. MARGIN_STEP moves CURRENT one step towards TARGET, hands the step to the supervisor, counts it and raises
MARGIN; at the target it does nothing. [14_faults.md, 15_power_startup.md, R573, R586, R589, R591, R592, R619] -/
def Obligations.RailFaultAndMarginSteps : Prop :=
  (∀ (r : Rail), Does (fun t => .railFault t r)
      (fun s => s.pwr.railsUp = true ∧ s.pwr.readyOff = false ∧ (r = .otp → s.pwr.otpJob.isSome = true))
      fun s => ((s.onPwr Pwr.railsOff).onWin fun w => { w with draining := false }).raise (srcPwr 1) (256 + 589) 0 0 0)
  ∧ (∀ (r : Rail), Does (fun t => .railFault t r)
      (fun s => s.pwr.railsUp = true ∧ s.pwr.readyOff = true ∧ r ≠ .otp)
      fun s => (s.onPwr Pwr.railsOff).onWin fun w => { w with draining := false })
  ∧ (∀ (r : Rail), Does (fun t => .railFault t r)
      (fun s => s.pwr.railsUp = false ∨ (r = .otp ∧ s.pwr.otpJob = none))
      fun s => s)
  ∧ (∀ (v : Word), Does (fun t => .marginWrite t v)
      (fun s => s.win.failsafe = false)
      fun s => s.onPwr fun p => { p with target := marginOf v.toNat })
  ∧ (∀ v, v < 32 → marginOf v = (if v < 16 then (min 8 v : Int) else max (-8) (v - 32)))
  ∧ (Does (fun t => .marginStep t)
      (fun s => s.pwr.current < s.pwr.target)
      fun s => (((s.onPwr fun p => { p with current := s.pwr.current + 1 }).send (.supervisor 4)).bumpPwr 1 0 32).raise (srcPwr 10) (256 + 592) 0 0 0)
  ∧ (Does (fun t => .marginStep t)
      (fun s => s.pwr.target < s.pwr.current)
      fun s => (((s.onPwr fun p => { p with current := s.pwr.current - 1 }).send (.supervisor 3)).bumpPwr 1 0 32).raise (srcPwr 10) (256 + 592) 0 0 0)
  ∧ (Does (fun t => .marginStep t)
      (fun s => s.pwr.current = s.pwr.target)
      fun s => s)

/-- SERVICE_BUTTON_RELEASE: a press below 50 ms is counted; one of 50 ms to 2 s is counted and opens or restarts the presence
window at 60 s; one above 2 s and below 8 s is counted and does not open it; one of 8 s or more has acted at the 8 s mark.
There FORCED_OFF is counted and raised under R598, and the stop begins unless the block is already stopping, has stopped,
fails or has no rails. PRESENCE_EXPIRY closes the window at its end. [R595] -/
def Obligations.ServiceButtonPressActsByItsLength : Prop :=
  (∀ (d : Ns), Does (fun t => .serviceButtonRelease t d)
      (fun _ => d < 50000000)
      fun s => s.bumpPwr 0 0 16)
  ∧ (∀ (d : Ns), Does (fun t => .serviceButtonRelease t d)
      (fun _ => 50000000 ≤ d ∧ d ≤ 2000000000)
      fun s => ((s.onPwr fun p => { p with presence := some (s.now + 60000000000) }).bumpPwr 0 16 16).bumpPwr 3 0 16)
  ∧ (∀ (d : Ns), Does (fun t => .serviceButtonRelease t d)
      (fun _ => 2000000000 < d ∧ d < 8000000000)
      fun s => s.bumpPwr 0 32 16)
  ∧ (∀ (d : Ns), Does (fun t => .serviceButtonRelease t d)
      (fun _ => 8000000000 ≤ d)
      fun s => s)
  ∧ (Does (fun t => .forcedOff t)
      (fun s => s.pwr.fail = none ∧ s.pwr.stopping = false ∧ s.pwr.readyOff = false ∧ s.pwr.railsUp = true)
      fun s => ((s.bumpPwr 0 48 16).raise (srcPwr 9) (256 + 598) 0 0 0).beginStop)
  ∧ (Does (fun t => .forcedOff t)
      (fun s => s.pwr.fail.isSome = true ∨ s.pwr.stopping = true ∨ s.pwr.readyOff = true ∨ s.pwr.railsUp = false)
      fun s => (s.bumpPwr 0 48 16).raise (srcPwr 9) (256 + 598) 0 0 0)
  ∧ (∀ (e : Nat), Does (fun t => .presenceExpiry t)
      (fun s => s.pwr.presence = some e ∧ e ≤ s.now)
      fun s => s.onPwr fun p => { p with presence := none })
  ∧ (Does (fun t => .presenceExpiry t)
      (fun s => ∀ e, s.pwr.presence = some e → s.now < e)
      fun s => s)

/-- POWER_FAIL_WARN with the rails up begins the power failure: commands are aborted, the record of the warning is made, intake
halts, entries are abandoned, a PAIRED block tells its twin; after start-up step 11 the drain begins. A block that fails
already, or is in HALT, only shows the level. POWER_FAIL_WARN_GLITCH is counted. POWER_FAIL_DRAIN_DONE with nothing left
records the drain time and writes the last-gasp record, or halts without one before step 11. LAST_GASP_DONE halts with the
record in its slot. [15_power_startup.md, 16_mailbox.md, R599, R602, R604, R605, R611, R631] -/
def Obligations.PowerFailureRunsToHalt : Prop :=
  (Does (fun t => .powerFailWarn t)
      (fun s => s.pwr.fail = none ∧ s.pwr.st ≠ .halt ∧ s.pwr.railsUp = true ∧ 11 ≤ s.pwr.step)
      fun s => (s.onPwr fun p => { p with pfWarn := true }).beginFail.drainAll)
  ∧ (Does (fun t => .powerFailWarn t)
      (fun s => s.pwr.fail = none ∧ s.pwr.st ≠ .halt ∧ s.pwr.railsUp = true ∧ s.pwr.step < 11)
      fun s => (s.onPwr fun p => { p with pfWarn := true }).beginFail)
  ∧ (Does (fun t => .powerFailWarn t)
      (fun s => s.pwr.fail.isSome = true ∨ s.pwr.st = .halt ∨ s.pwr.railsUp = false)
      fun s => s.onPwr fun p => { p with pfWarn := true })
  ∧ (Does (fun t => .powerFailWarnGlitch t)
      (fun _ => True)
      fun s => s.bumpPwr 1 32 16)
  ∧ (∀ (f : PwrFail), Does (fun t => .powerFailDrainDone t)
      (fun s => s.pwr.fail = some f ∧ f.drained = false ∧ s.pwr.st ≠ .halt ∧ s.draining f = false ∧ f.early = false)
      fun s => (s.gauge (0x0A0A00 + 16) 16 (min (2 ^ 32 - 1) ((s.time - f.warnTime) / 1000))).writeGasp f)
  ∧ (∀ (f : PwrFail), Does (fun t => .powerFailDrainDone t)
      (fun s => s.pwr.fail = some f ∧ f.drained = false ∧ s.pwr.st ≠ .halt ∧ s.draining f = false ∧ f.early = true)
      fun s => (s.gauge (0x0A0A00 + 16) 16 (min (2 ^ 32 - 1) ((s.time - f.warnTime) / 1000))).halt)
  ∧ (∀ (f : PwrFail), Does (fun t => .powerFailDrainDone t)
      (fun s => s.pwr.fail = some f ∧ (f.drained = true ∨ s.pwr.st = .halt ∨ s.draining f = true))
      fun s => s)
  ∧ (Does (fun t => .powerFailDrainDone t)
      (fun s => s.pwr.fail = none)
      fun s => s)
  ∧ (∀ (k : Nat) (r : List Byte), Does (fun t => .lastGaspDone t)
      (fun s => (s.pwr.fail.bind fun f => f.record) = some (k, r) ∧ s.pwr.st ≠ .halt)
      fun s => (s.onPwr fun p => { p with gasp := Tbl.set p.gasp k r }).halt)
  ∧ (Does (fun t => .lastGaspDone t)
      (fun s => (s.pwr.fail.bind fun f => f.record) = none)
      fun s => s)

/-- FLASH_DESCRIPTOR_DONE of a descriptor that has no result yet writes STATUS and DONE_TIME; an error raises FLASH. For the
descriptor that its command waits for: success goes on to the next one, or, after the last, brings about what the command was
for and completes it with status 0; an error ends the command’s writing with status 6. OTP_GOOD_RISE with a programming
command in progress writes and verifies the slot, hands the rail back, and completes the command, with the slot or with status
5; without a command only the rail is good. [14_faults.md, 15_power_startup.md, 16_mailbox.md, R554, R586, R616, R657, R658,
R659] -/
def Obligations.FlashDescriptorsAndOtpRowsComplete : Prop :=
  (∀ (i : Fin 64) (v : Byte), Does (fun t => .flashDescriptorDone t i v)
      (fun s => Tbl.find s.pwr.flash i.val = none)
      fun s => s)
  ∧ (∀ (i : Fin 64) (v : Byte) (d : FlashDesc), Does (fun t => .flashDescriptorDone t i v)
      (fun s => Tbl.find s.pwr.flash i.val = some d ∧ (d.status ≠ 0 ∨ v = 0))
      fun s => s)
  ∧ (∀ (i : Fin 64) (v : Byte) (d : FlashDesc), Does (fun t => .flashDescriptorDone t i v)
      (fun s => Tbl.find s.pwr.flash i.val = some d ∧ d.status = 0 ∧ v ≠ 0 ∧ (s.pwr.flashJob = none ∨ ∃ j, s.pwr.flashJob = some j ∧ j.cur ≠ some i.val))
      fun s => s.flashMark i.val d v.toNat)
  ∧ (∀ (i : Fin 64) (d : FlashDesc) (j : FlashJob), Does (fun t => .flashDescriptorDone t i 1)
      (fun s => Tbl.find s.pwr.flash i.val = some d ∧ d.status = 0 ∧ s.pwr.flashJob = some j ∧ j.cur = some i.val ∧ j.todo ≠ [])
      fun s => (s.flashMark i.val d 1).flashNext j)
  ∧ (∀ (i : Fin 64) (d : FlashDesc) (j : FlashJob), Does (fun t => .flashDescriptorDone t i 1)
      (fun s => Tbl.find s.pwr.flash i.val = some d ∧ d.status = 0 ∧ s.pwr.flashJob = some j ∧ j.cur = some i.val ∧ j.todo = [])
      fun s => (((s.flashMark i.val d 1).flashNext j).flashGain j.goal).flashOver j.mb 0)
  ∧ (∀ (i : Fin 64) (v : Byte) (d : FlashDesc) (j : FlashJob), Does (fun t => .flashDescriptorDone t i v)
      (fun s => Tbl.find s.pwr.flash i.val = some d ∧ d.status = 0 ∧ v ≠ 0 ∧ v ≠ 1 ∧ s.pwr.flashJob = some j ∧ j.cur = some i.val)
      fun s => ((s.flashMark i.val d v.toNat).onPwr fun p => { p with flashJob := some { j with bad := true, cur := none, todo := [] } }).flashOver j.mb 6)
  ∧ (∀ (x : BitVec 16384), Does (fun t => .otpGoodRise t x)
      (fun s => s.pwr.otpJob = none)
      fun s => s.onPwr fun q => { q with railOtp := true })
  ∧ (∀ (x : BitVec 16384) (j : OtpJob) (k : Nat), Does (fun t => .otpGoodRise t x)
      (fun s => s.pwr.otpJob = some j ∧ otpNext s.pwr.otp j.group = some k ∧ ((s.onPwr fun q => { q with railOtp := true }).otpWrite j.group k j.payload x).1 = true)
      fun s => ((((s.onPwr fun q => { q with railOtp := true }).otpWrite j.group k j.payload x).2.onPwr fun q =>
              { q with otpJob := none, grant := q.grant && j.group != 4, railOtp := false }).send (.supervisor 2)).mbxDone j.mb 0
            (if j.group = 5 then [] else if j.group = 0 then [BitVec.ofNat 8 k, BitVec.ofNat 8 (repairRecs j.payload).length] else [BitVec.ofNat 8 k]) 0xFFFFFFFF)
  ∧ (∀ (x : BitVec 16384) (j : OtpJob) (k : Nat), Does (fun t => .otpGoodRise t x)
      (fun s => s.pwr.otpJob = some j ∧ otpNext s.pwr.otp j.group = some k ∧ ((s.onPwr fun q => { q with railOtp := true }).otpWrite j.group k j.payload x).1 = false ∧ j.group ≠ 4)
      fun s => ((((s.onPwr fun q => { q with railOtp := true }).otpWrite j.group k j.payload x).2.onPwr fun q =>
              { q with otpJob := none, grant := q.grant && j.group != 4, railOtp := false }).send (.supervisor 2)).mbxDone j.mb 5 [] 0xFFFFFFFF)
  ∧ (∀ (x : BitVec 16384) (j : OtpJob), Does (fun t => .otpGoodRise t x)
      (fun s => s.pwr.otpJob = some j ∧ otpNext s.pwr.otp j.group = none)
      fun s => s.onPwr fun q => { q with railOtp := true, otpJob := none })

/-- STREAM_GAP_TIMEOUT sends the sender a RESEND packet for the missing number, once. RESEND: the kept packet of that number is
sent again; one that is not asked for does nothing. CREDIT_RETURN of a credit in flight: a stream credit lets its intake port
send on to that slice, an event’s acknowledgement frees its place at its source, another credit is only taken.
PACK_BUFFER_TIMEOUT: a packing buffer whose first record is 20 ns old is sent. SINK_ERR from a fenced slice answers an intake
port or Alidade with an error packet and is counted at its router. MEDIA_RELAY: the relay stook, unless it is fenced, wakes
and sends the packet on. [04_slice_serialization.md, 12_rachis.md, 14_faults.md, R141, R486, R488, R501, R507, R508, R548] -/
def Obligations.RachisDeliversWhatItCarries : Prop :=
  (∀ (n : SliceId) (i : IntakeId) (k : BitVec 12), Does (fun t => .streamGapTimeout t (.req i n k))
      (fun s => s.resends.contains (.req i n k) = false)
      fun s => { s.packet (.slice n.val) (.intake i.val) 0x49 { stream := k.toNat } with resends := s.resends ++ [.req i n k] })
  ∧ (∀ (n : SliceId) (k : BitVec 12), Does (fun t => .streamGapTimeout t (.twinSlice n k))
      (fun s => s.resends.contains (.twinSlice n k) = false)
      fun s => { s.packet (.slice n.val) (twinOfSlice n.val) 0x49 { stream := k.toNat } with resends := s.resends ++ [.twinSlice n k] })
  ∧ (∀ (i : IntakeId) (k : BitVec 12), Does (fun t => .streamGapTimeout t (.twinIntake i k))
      (fun s => s.resends.contains (.twinIntake i k) = false)
      fun s => { s.packet (.intake i.val) (twinOfIntake i.val k.toNat) 0x49 { stream := k.toNat } with resends := s.resends ++ [.twinIntake i k] })
  ∧ (∀ (x : StreamRef), Does (fun t => .streamGapTimeout t x)
      (fun s => s.resends.contains x = true)
      fun s => s)
  ∧ (∀ (i : IntakeId) (n : SliceId) (k : BitVec 12), Does (fun t => .resend t (.req i n k))
      (fun s => s.resends.contains (.req i n k) = true)
      fun s => { s with resends := s.resends.erase (.req i n k) }.resendReq i.val n.val k.toNat)
  ∧ (∀ (x : StreamRef), Does (fun t => .resend t x)
      (fun s => s.resends.contains x = true ∧ ∀ i n k, x ≠ .req i n k)
      fun s => { s with resends := s.resends.erase x })
  ∧ (∀ (x : StreamRef), Does (fun t => .resend t x)
      (fun s => s.resends.contains x = false)
      fun s => s)
  ∧ (∀ (i : IntakeId) (n : SliceId), Does (fun t => .creditReturn t (.stream i n))
      (fun s => s.credits.contains (.stream i n) = true)
      fun s => State.pump i.val n.val 4 ({ s with credits := s.credits.erase (.stream i n) }.onIp i.val fun p => { p with used := Tbl.set p.used n.val (Tbl.get 0 p.used n.val - 1) }))
  ∧ (∀ (src : SrcId) (q : BitVec 16), Does (fun t => .creditReturn t (.event src q))
      (fun s => s.credits.contains (.event src q) = true)
      fun s => { s with credits := s.credits.erase (.event src q), events := s.events.filter fun v => !(v.src == src.val && v.seq == q.toNat) })
  ∧ (∀ (x : CreditRef), Does (fun t => .creditReturn t x)
      (fun s => s.credits.contains x = true ∧ (∀ i n, x ≠ .stream i n) ∧ ∀ a b, x ≠ .event a b)
      fun s => { s with credits := s.credits.erase x })
  ∧ (∀ (x : CreditRef), Does (fun t => .creditReturn t x)
      (fun s => s.credits.contains x = false)
      fun s => s)
  ∧ (∀ (i : IntakeId), Does (fun t => .packBufferTimeout t (.echo i))
      (fun s => (s.ip i.val).echoPack.recs ≠ [] ∧ (s.ip i.val).echoPack.since + 20 ≤ s.now)
      fun s => s.flushEcho i.val)
  ∧ (∀ (i : IntakeId), Does (fun t => .packBufferTimeout t (.release i))
      (fun s => (s.ip i.val).relPack.recs ≠ [] ∧ (s.ip i.val).relPack.since + 20 ≤ s.now)
      fun s => s.flushRel i.val)
  ∧ (∀ (n : SliceId), Does (fun t => .packBufferTimeout t (.settle n))
      (fun s => (s.slc n.val).front.pack.recs ≠ [] ∧ (s.slc n.val).front.pack.since + 20 ≤ s.now)
      fun s => (s.toTwinPack (.slice n.val) (s.slc n.val).front.pack.recs).onFront n.val fun f => { f with pack := ⟨[], 0⟩ })
  ∧ (∀ (i : IntakeId), Does (fun t => .packBufferTimeout t (.echo i))
      (fun s => (s.ip i.val).echoPack.recs = [] ∨ s.now < (s.ip i.val).echoPack.since + 20)
      fun s => s)
  ∧ (∀ (i : IntakeId) (n : SliceId) (tag : Nat), Does (fun t => .sinkErr t (.intake i n tag))
      (fun s => s.fencedSlice n.val = true)
      fun s => ((s.packet (.slice n.val) (.intake i.val) 0x48 { tag := tag, aux := 1 }).bump (0x0A0400 + 24 * stookSite (stookOf n.val) + 16) 32 16 1).bump (0x0A0400 + 24 * stookSite (stookOf n.val) + 16) 48 8 1)
  ∧ (∀ (n : SliceId) (who : ScrWho), Does (fun t => .sinkErr t (.scratch n who))
      (fun s => s.fencedSlice n.val = true)
      fun s => ((s.packet (.slice n.val) .alidade 0x48 { aux := 0x12 }).bump (0x0A0400 + 24 * stookSite (stookOf n.val) + 16) 32 16 1).bump (0x0A0400 + 24 * stookSite (stookOf n.val) + 16) 48 8 1)
  ∧ (∀ (n : SliceId) (x : SinkErr), Does (fun t => .sinkErr t x)
      (fun s => s.fencedSlice n.val = true ∧ ((∃ k, x = .bisnp n k) ∨ ∃ k, x = .walk n k))
      fun s => (s.bump (0x0A0400 + 24 * stookSite (stookOf n.val) + 16) 32 16 1).bump (0x0A0400 + 24 * stookSite (stookOf n.val) + 16) 48 8 1)
  ∧ (∀ (x : SinkErr), Does (fun t => .sinkErr t x)
      (fun s => s.fencedSlice (sinkSlice x) = false)
      fun s => s)
  ∧ (∀ (m : MediaId) (x : RelayDest), Does (fun t => .mediaRelay t m x)
      (fun s => (s.stk (relayStook m.val)).fenced = false)
      fun s => (s.stookWork (relayStook m.val)).relayOn (relayStook m.val) x)
  ∧ (∀ (m : MediaId) (x : RelayDest), Does (fun t => .mediaRelay t m x)
      (fun s => (s.stk (relayStook m.val)).fenced = true)
      fun s => s)

/-- REGISTER_WRITE and ALIAS_WRITE: a write that is not one aligned 4-byte write is ignored and counted. A base-page write outside
the stook and slice windows writes its register. A set, clear or toggle page writes its register with those bits set, cleared
or toggled, but for the WO field GO of NCH_WIN_INJECT; reserved alias pages and write-only registers take nothing. A write to
a stook or slice window goes on the ring, or is ignored and counted while RING_BUSY is set. RING_WRITE_DELIVERED delivers the
oldest: it wakes the stook or slice and writes there; a fenced one ignores and counts it. MERIDIAN_WORD0_READ latches the
remaining words. [01_home_in_the_appliance.md, 07_meridian.md, 17_registers.md, R41, R332, R665, R666, R667, R672, R673, R675] -/
def Obligations.RegisterWritesActByPageAndWindow : Prop :=
  (∀ (off : BitVec 24) (v : Word) (len : Nat), Does (fun t => .registerWrite t off v len)
      (fun _ => len ≠ 4 ∨ off.toNat % 4 ≠ 0)
      fun s => s.ignBlk off.toNat)
  ∧ (∀ (off : BitVec 24) (v : Word), Does (fun t => .registerWrite t off v 4)
      (fun _ => off.toNat % 4 = 0 ∧ (off.toNat < 0x100000 ∨ 0x400000 ≤ off.toNat) ∧ off.toNat / 0x1000 % 4 = 0)
      fun s => s.regWrite (regAt off.toNat) off.toNat v.toNat)
  ∧ (∀ (off : BitVec 24) (v : Word), Does (fun t => .registerWrite t off v 4)
      (fun s => off.toNat % 4 = 0 ∧ 0x100000 ≤ off.toNat ∧ off.toNat < 0x400000 ∧ s.ringBusy = false)
      fun s => (s.bump 0x0A0A88 32 32 1).onBlk fun b => { b with ring := b.ring ++ [⟨b.ringMode == 1, off.toNat, v⟩] })
  ∧ (∀ (off : BitVec 24) (v : Word), Does (fun t => .registerWrite t off v 4)
      (fun s => off.toNat % 4 = 0 ∧ 0x100000 ≤ off.toNat ∧ off.toNat < 0x400000 ∧ s.ringBusy = true)
      fun s => s.ignBlk off.toNat)
  ∧ (∀ (off : BitVec 24) (v : Word) (len : Nat), Does (fun t => .aliasWrite t off v len)
      (fun _ => len ≠ 4 ∨ off.toNat % 4 ≠ 0)
      fun s => s.ignBlk off.toNat)
  ∧ (∀ (off : BitVec 24) (v : Word), Does (fun t => .aliasWrite t off v 4)
      (fun _ => off.toNat % 4 = 0 ∧ (off.toNat < 0x100000 ∨ 0x400000 ≤ off.toNat) ∧ off.toNat / 0x1000 % 4 = 1 ∧ ¬(0x070000 ≤ off.toNat ∧ off.toNat < 0x080000) ∧ regAt (off.toNat - 4096) ≠ .other ∧ regAt (off.toNat - 4096) ≠ .winCtl)
      fun s => s.regWrite (regAt (off.toNat - 4096)) (off.toNat - 4096) (s.regValue (regAt (off.toNat - 4096)) ||| aliasBits (regAt (off.toNat - 4096)) v.toNat))
  ∧ (∀ (off : BitVec 24) (v : Word), Does (fun t => .aliasWrite t off v 4)
      (fun _ => off.toNat % 4 = 0 ∧ (off.toNat < 0x100000 ∨ 0x400000 ≤ off.toNat) ∧ off.toNat / 0x1000 % 4 = 2 ∧ ¬(0x070000 ≤ off.toNat ∧ off.toNat < 0x080000) ∧ regAt (off.toNat - 8192) ≠ .other ∧ regAt (off.toNat - 8192) ≠ .winCtl)
      fun s => s.regWrite (regAt (off.toNat - 8192)) (off.toNat - 8192) (s.regValue (regAt (off.toNat - 8192)) ^^^ (s.regValue (regAt (off.toNat - 8192)) &&& aliasBits (regAt (off.toNat - 8192)) v.toNat)))
  ∧ (∀ (off : BitVec 24) (v : Word), Does (fun t => .aliasWrite t off v 4)
      (fun _ => off.toNat % 4 = 0 ∧ (off.toNat < 0x100000 ∨ 0x400000 ≤ off.toNat) ∧ off.toNat / 0x1000 % 4 = 3 ∧ ¬(0x070000 ≤ off.toNat ∧ off.toNat < 0x080000) ∧ regAt (off.toNat - 12288) ≠ .other ∧ regAt (off.toNat - 12288) ≠ .winCtl)
      fun s => s.regWrite (regAt (off.toNat - 12288)) (off.toNat - 12288) (s.regValue (regAt (off.toNat - 12288)) ^^^ aliasBits (regAt (off.toNat - 12288)) v.toNat))
  ∧ (∀ (off : BitVec 24) (v : Word), Does (fun t => .aliasWrite t off v 4)
      (fun _ => off.toNat % 4 = 0 ∧ 0x070000 ≤ off.toNat ∧ off.toNat < 0x080000 ∧ off.toNat / 0x1000 % 4 ≠ 0)
      fun s => s)
  ∧ (Does (fun t => .ringWriteDelivered t)
      (fun s => s.blk.ring = [])
      fun s => s)
  ∧ (∀ (r : RingOp) (l : List RingOp), Does (fun t => .ringWriteDelivered t)
      (fun s => s.blk.ring = r :: l ∧ r.off < 0x200000 ∧ (s.stk ((r.off - 0x100000) / 0x10000)).fenced = false)
      fun s => ((s.onBlk fun b => { b with ring := l }).stookWork ((r.off - 0x100000) / 0x10000)).busWrite r.off r.value.toNat)
  ∧ (∀ (r : RingOp) (l : List RingOp), Does (fun t => .ringWriteDelivered t)
      (fun s => s.blk.ring = r :: l ∧ 0x200000 ≤ r.off ∧ s.fencedSlice ((r.off - 0x200000) / 0x4000) = false)
      fun s => ((s.onBlk fun b => { b with ring := l }).rouse ((r.off - 0x200000) / 0x4000)).busWrite r.off r.value.toNat)
  ∧ (∀ (r : RingOp) (l : List RingOp), Does (fun t => .ringWriteDelivered t)
      (fun s => s.blk.ring = r :: l ∧ r.off < 0x200000 ∧ (s.stk ((r.off - 0x100000) / 0x10000)).fenced = true)
      fun s => (s.onBlk fun b => { b with ring := l }).ignore (.stkPwr ((r.off - 0x100000) / 0x10000)) r.off)
  ∧ (∀ (r : RingOp) (l : List RingOp), Does (fun t => .ringWriteDelivered t)
      (fun s => s.blk.ring = r :: l ∧ 0x200000 ≤ r.off ∧ s.fencedSlice ((r.off - 0x200000) / 0x4000) = true)
      fun s => (s.onBlk fun b => { b with ring := l }).ignSlc ((r.off - 0x200000) / 0x4000) r.off)
  ∧ (Does (fun t => .meridianWord0Read t 0x010020)
      (fun _ => True)
      fun s => s.onMer fun m => { m with latch := Tbl.set (Tbl.set m.latch 0x010024 (s.time % 2 ^ 32)) 0x010028 (s.time / 2 ^ 32) })
  ∧ (Does (fun t => .meridianWord0Read t 0x010030)
      (fun _ => True)
      fun s => s.onMer fun m => { m with latch := Tbl.set m.latch 0x010034 (s.mer.cur / 2 ^ 32) })
  ∧ (∀ (off : BitVec 24), Does (fun t => .meridianWord0Read t off)
      (fun s => s.latched off.toNat = [])
      fun s => s)

/-- Served: IDENTIFY, BACKGROUND_OPERATION_STATUS, GET_EVENT_RECORDS (31 of the oldest records of a log at most),
GET_EVENT_INTERRUPT_POLICY, GET_TIMESTAMP (Meridian ns), GET_SUPPORTED_LOGS and GET_LOG (the Command Effects Log),
IDENTIFY_MEMORY_DEVICE, GET_PARTITION_INFO, GET_HEALTH_INFO, GET_ALERT_CONFIGURATION, GET_SHUTDOWN_STATE, GET_LSA and
GET_POISON_LIST complete with the bytes of their tables. Bytes that the source does not give are free values (assumption log
5). A range that lies outside the log or the label area completes with status 0x04 and its field; a query of a partition on a
mailbox that has none with 0x02. [03_host_protocol.md, 16_mailbox.md, R136, R624, R637, R638] -/
def Obligations.MailboxQueriesAnswerTheirBytes : Prop :=
  (MbxDoes (fun t c => .identify t c)
      (fun _ _ => True)
      fun c s => s.identify.2.completes c ((State.freeBytes 8 s).1 ++ leBytes 8 s.serial ++ [12, 3] ++ leBytes 16 (((s.otpUse 1).getD 0) / 2 ^ 96 % 2 ^ 128)))
  ∧ (MbxDoes (fun t c => .backgroundOperationStatus t c)
      (fun _ _ => True)
      fun c s => s.completes c (leBytes 2 (b2n (s.box c.mb.val).bgRun + 2 * (s.box c.mb.val).bgProgress) ++ leBytes 2 (s.box c.mb.val).bgOpcode
          ++ leBytes 2 (if (s.box c.mb.val).bgRun then 0 else returnCode (s.box c.mb.val).bgStatus)
          ++ leBytes 2 (if (s.box c.mb.val).bgRun then 0 else (s.box c.mb.val).bgStatus)))
  ∧ (MbxDoes (fun t c => .getEventRecords t c)
      (fun c _ => mbByte c 0 ≤ 3)
      fun c s => s.completes c (leBytes 2 (b2n ((s.logs c.mb.val).log (mbByte c 0)).overflow + 2 * b2n (min 31 ((s.logs c.mb.val).log (mbByte c 0)).recs.length < ((s.logs c.mb.val).log (mbByte c 0)).recs.length)) ++ leBytes 2 (min 65535 ((s.logs c.mb.val).log (mbByte c 0)).lost)
          ++ leBytes 8 ((s.logs c.mb.val).log (mbByte c 0)).firstLost ++ leBytes 8 ((s.logs c.mb.val).log (mbByte c 0)).lastLost ++ leBytes 2 (min 31 ((s.logs c.mb.val).log (mbByte c 0)).recs.length) ++ zeros 10
          ++ ((((s.logs c.mb.val).log (mbByte c 0)).recs.take (min 31 ((s.logs c.mb.val).log (mbByte c 0)).recs.length)).map (s.recBytes (mbByte c 0))).flatten))
  ∧ (MbxDoes (fun t c => .getEventRecords t c)
      (fun c _ => 3 < mbByte c 0)
      fun c s => s.badField c 0)
  ∧ (MbxDoes (fun t c => .getEventInterruptPolicy t c)
      (fun _ _ => True)
      fun c s => s.completes c (if c.mb.val = 65 then zeros 4 else (s.logs c.mb.val).policy))
  ∧ (MbxDoes (fun t c => .getTimestamp t c)
      (fun _ _ => True)
      fun c s => s.completes c (leBytes 8 s.time))
  ∧ (MbxDoes (fun t c => .getSupportedLogs t c)
      (fun _ _ => True)
      fun c s => s.completes c (leBytes 2 1 ++ zeros 6 ++ leBytes 16 celUuid ++ leBytes 4 celBytes.length))
  ∧ (MbxDoes (fun t c => .getLog t c)
      (fun c _ => mbLe c 0 16 = celUuid ∧ mbLe c 16 4 + mbLe c 20 4 ≤ celBytes.length)
      fun c s => s.completes c ((celBytes.drop (mbLe c 16 4)).take (mbLe c 20 4)))
  ∧ (MbxDoes (fun t c => .getLog t c)
      (fun c _ => mbLe c 0 16 = celUuid ∧ celBytes.length < mbLe c 16 4 + mbLe c 20 4)
      fun c s => s.badField c 16)
  ∧ (MbxDoes (fun t c => .getLog t c)
      (fun c _ => mbLe c 0 16 ≠ celUuid)
      fun c s => s.badField c 0)
  ∧ (MbxDoes (fun t c => .identifyMemoryDevice t c)
      (fun c _ => c.mb.val < 64)
      fun c s => (State.freeBytes 2 (State.freeBytes 16 s).2).2.completes c ((State.freeBytes 16 s).1 ++ leBytes 8 (4 * ((s.part c.mb.val).cfg.dataSize.toNat + 1)) ++ zeros 8
          ++ leBytes 8 (4 * ((s.part c.mb.val).cfg.dataSize.toNat + 1)) ++ zeros 8 ++ leBytes 2 64 ++ leBytes 2 64 ++ leBytes 2 64 ++ leBytes 2 64 ++ leBytes 4 131072
          ++ leBytes 3 4096 ++ leBytes 2 0 ++ (State.freeBytes 2 (State.freeBytes 16 s).2).1))
  ∧ (MbxDoes (fun t c => .identifyMemoryDevice t c)
      (fun c _ => 64 ≤ c.mb.val)
      fun c s => (State.freeBytes 2 (State.freeBytes 8 (State.freeBytes 16 s).2).2).2.completes c ((State.freeBytes 16 s).1 ++ (State.freeBytes 8 (State.freeBytes 16 s).2).1 ++ zeros 8
          ++ (State.freeBytes 8 (State.freeBytes 16 s).2).1 ++ zeros 8 ++ leBytes 2 64 ++ leBytes 2 64 ++ leBytes 2 64 ++ leBytes 2 64 ++ leBytes 4 131072
          ++ leBytes 3 4096 ++ leBytes 2 0 ++ (State.freeBytes 2 (State.freeBytes 8 (State.freeBytes 16 s).2).2).1))
  ∧ (MbxDoes (fun t c => .getPartitionInfo t c)
      (fun c _ => c.mb.val < 64)
      fun c s => s.completes c (zeros 8 ++ leBytes 8 (4 * ((s.part c.mb.val).cfg.dataSize.toNat + 1)) ++ zeros 16))
  ∧ (MbxDoes (fun t c => .getPartitionInfo t c)
      (fun c _ => 64 ≤ c.mb.val)
      fun c s => (State.freeBytes 8 s).2.completes c (zeros 8 ++ (State.freeBytes 8 s).1 ++ zeros 16))
  ∧ (MbxDoes (fun t c => .getHealthInfo t c)
      (fun _ _ => True)
      fun c s => (State.freeBytes 12 (State.freeBytes 3 s).2).2.completes c (leBytes 1 (b2n s.win.service) ++ (State.freeBytes 3 s).1 ++ leBytes 2 0x7FFF ++ (State.freeBytes 12 (State.freeBytes 3 s).2).1))
  ∧ (MbxDoes (fun t c => .getAlertConfiguration t c)
      (fun c _ => 64 ≤ c.mb.val)
      fun c s => (State.freeBytes 8 s).2.completes c ((State.freeBytes 8 s).1 ++ zeros 8))
  ∧ (MbxDoes (fun t c => .getAlertConfiguration t c)
      (fun c _ => c.mb.val < 64)
      fun c s => (State.freeBytes 8 s).2.completes c ((State.freeBytes 8 s).1 ++ ((s.part c.mb.val).alerts.drop 4 ++ zeros 8).take 8))
  ∧ (MbxDoes (fun t c => .getShutdownState t c)
      (fun c _ => c.mb.val < 64)
      fun c s => s.completes c [(s.part c.mb.val).shutdown])
  ∧ (MbxDoes (fun t c => .getShutdownState t c)
      (fun c _ => 64 ≤ c.mb.val)
      fun c s => s.refuses c 2)
  ∧ (MbxDoes (fun t c => .getLsa t c)
      (fun c _ => c.mb.val < 64 ∧ mbLe c 0 4 + mbLe c 4 4 ≤ 131072 ∧ mbLe c 4 4 ≤ 4096)
      fun c s => s.completes c ((List.range (mbLe c 4 4)).map fun k => Tbl.get 0 (s.part c.mb.val).lsa (mbLe c 0 4 + k)))
  ∧ (MbxDoes (fun t c => .getLsa t c)
      (fun c _ => c.mb.val < 64 ∧ 131072 < mbLe c 0 4 + mbLe c 4 4)
      fun c s => s.badField c 0)
  ∧ (MbxDoes (fun t c => .getLsa t c)
      (fun c _ => c.mb.val < 64 ∧ mbLe c 0 4 + mbLe c 4 4 ≤ 131072 ∧ 4096 < mbLe c 4 4)
      fun c s => s.badField c 4)
  ∧ (MbxDoes (fun t c => .getLsa t c)
      (fun c _ => 64 ≤ c.mb.val)
      fun c s => s.refuses c 2)
  ∧ (MbxDoes (fun t c => .getPoisonList t c)
      (fun c _ => c.mb.val < 64)
      fun c s => s.completes c (leBytes 2 (b2n (min 254 (((s.part c.mb.val).poison.take 4096).filter fun x => (s.part c.mb.val).dataLo + mbLe c 0 8 / 64 ≤ x && x < (s.part c.mb.val).dataLo + mbLe c 0 8 / 64 + mbLe c 8 8).length < (((s.part c.mb.val).poison.take 4096).filter fun x => (s.part c.mb.val).dataLo + mbLe c 0 8 / 64 ≤ x && x < (s.part c.mb.val).dataLo + mbLe c 0 8 / 64 + mbLe c 8 8).length) + 2 * b2n (4096 < (s.part c.mb.val).poison.length))
          ++ leBytes 8 ((((s.part c.mb.val).poison.drop 4096).head?.map fun x => Tbl.get 0 (s.part c.mb.val).poisonAt x).getD 0) ++ leBytes 2 (min 254 (((s.part c.mb.val).poison.take 4096).filter fun x => (s.part c.mb.val).dataLo + mbLe c 0 8 / 64 ≤ x && x < (s.part c.mb.val).dataLo + mbLe c 0 8 / 64 + mbLe c 8 8).length) ++ zeros 20
          ++ (((((s.part c.mb.val).poison.take 4096).filter fun x => (s.part c.mb.val).dataLo + mbLe c 0 8 / 64 ≤ x && x < (s.part c.mb.val).dataLo + mbLe c 0 8 / 64 + mbLe c 8 8).take (min 254 (((s.part c.mb.val).poison.take 4096).filter fun x => (s.part c.mb.val).dataLo + mbLe c 0 8 / 64 ≤ x && x < (s.part c.mb.val).dataLo + mbLe c 0 8 / 64 + mbLe c 8 8).length)).map fun x => leBytes 8 (64 * x) ++ leBytes 4 1 ++ zeros 4).flatten))
  ∧ (MbxDoes (fun t c => .getPoisonList t c)
      (fun c _ => 64 ≤ c.mb.val)
      fun c s => s.refuses c 2)

/-- Served: REQUEST_ABORT_BACKGROUND_OP sets the abort flag of running work; CLEAR_EVENT_RECORDS removes the records of its
handles, or all, and the overflow indication; SET_EVENT_INTERRUPT_POLICY (not on the service mailbox),
SET_ALERT_CONFIGURATION, SET_SHUTDOWN_STATE and SET_LSA store what they carry, the last also at the twin; CLEAR_POISON writes
the line and waits for it, or for one of port 0’s 256 ticket places; SANITIZE and SECURE_ERASE start in the background on a
DISABLED partition whose work is free, else complete with 0x07; SET_TIMESTAMP and every other opcode complete with 0x02; a
reserved bit that is set completes with 0x04 and its byte. [03_host_protocol.md, 08_ordering_durability.md, 16_mailbox.md,
R134, R630, R637, R638, R713] -/
def Obligations.MailboxWritesOfThePartitionTakeEffect : Prop :=
  (MbxDoes (fun t c => .requestAbortBackgroundOp t c)
      (fun _ _ => True)
      fun c s => (s.askAbort c.mb.val).completes c [])
  ∧ (MbxDoes (fun t c => .clearEventRecords t c)
      (fun c _ => mbByte c 0 ≤ 3 ∧ mbByte c 1 = 1)
      fun c s => (s.onLogs c.mb.val fun q => q.onLog (mbByte c 0) fun l => { l with recs := [], overflow := false, lost := 0, firstLost := 0, lastLost := 0 }).completes c [])
  ∧ (MbxDoes (fun t c => .clearEventRecords t c)
      (fun c s => mbByte c 0 ≤ 3 ∧ mbByte c 1 = 0 ∧ (((List.range (mbByte c 2)).map fun j => mbLe c (6 + 2 * j) 2).find? fun h => !((s.logs c.mb.val).log (mbByte c 0)).recs.any fun r => r.1 == h) = none)
      fun c s => (s.onLogs c.mb.val fun q => q.onLog (mbByte c 0) fun l =>
          { l with recs := l.recs.filter fun r => !((List.range (mbByte c 2)).map fun j => mbLe c (6 + 2 * j) 2).contains r.1, overflow := false, lost := 0, firstLost := 0, lastLost := 0 }).completes c [])
  ∧ (MbxDoes (fun t c => .clearEventRecords t c)
      (fun c s => mbByte c 0 ≤ 3 ∧ mbByte c 1 = 0 ∧ (((List.range (mbByte c 2)).map fun j => mbLe c (6 + 2 * j) 2).find? fun h => !((s.logs c.mb.val).log (mbByte c 0)).recs.any fun r => r.1 == h).isSome = true)
      fun c s => s.badField c 6)
  ∧ (MbxDoes (fun t c => .clearEventRecords t c)
      (fun c _ => mbByte c 1 ≤ 1 ∧ 3 < mbByte c 0)
      fun c s => s.badField c 0)
  ∧ (MbxDoes (fun t c => .clearEventRecords t c)
      (fun c _ => 1 < mbByte c 1)
      fun c s => s.badField c 1)
  ∧ (MbxDoes (fun t c => .setEventInterruptPolicy t c)
      (fun c _ => ((List.range c.input.length).find? fun i => mbByte c i / 4 % 4 != 0) = none ∧ c.mb.val ≠ 65)
      fun c s => (s.onLogs c.mb.val fun l => { l with policy := c.input.take 4 }).completes c [])
  ∧ (MbxDoes (fun t c => .setEventInterruptPolicy t c)
      (fun c _ => ((List.range c.input.length).find? fun i => mbByte c i / 4 % 4 != 0) = none ∧ c.mb.val = 65)
      fun c s => s.refuses c 2)
  ∧ (∀ (i : Nat), MbxDoes (fun t c => .setEventInterruptPolicy t c)
      (fun c _ => ((List.range c.input.length).find? fun i => mbByte c i / 4 % 4 != 0) = some i)
      fun c s => s.badField c i)
  ∧ (MbxDoes (fun t c => .setTimestamp t c)
      (fun _ _ => True)
      fun c s => s.refuses c 2)
  ∧ (MbxDoes (fun t c => .setAlertConfiguration t c)
      (fun c _ => mbByte c 0 < 32 ∧ mbByte c 1 < 32 ∧ c.mb.val < 64)
      fun c s => (s.onPart c.mb.val fun q => { q with alerts := c.input }).completes c [])
  ∧ (MbxDoes (fun t c => .setShutdownState t c)
      (fun c _ => mbByte c 0 ≤ 1 ∧ c.mb.val < 64)
      fun c s => (s.onPart c.mb.val fun q => { q with shutdown := BitVec.ofNat 8 (mbByte c 0) }).completes c [])
  ∧ (MbxDoes (fun t c => .setAlertConfiguration t c)
      (fun c _ => mbByte c 0 < 32 ∧ mbByte c 1 < 32 ∧ 64 ≤ c.mb.val)
      fun c s => s.refuses c 2)
  ∧ (MbxDoes (fun t c => .setAlertConfiguration t c)
      (fun c _ => 32 ≤ mbByte c 0)
      fun c s => s.badField c 0)
  ∧ (MbxDoes (fun t c => .setAlertConfiguration t c)
      (fun c _ => mbByte c 0 < 32 ∧ 32 ≤ mbByte c 1)
      fun c s => s.badField c 1)
  ∧ (MbxDoes (fun t c => .setShutdownState t c)
      (fun c _ => mbByte c 0 ≤ 1 ∧ 64 ≤ c.mb.val)
      fun c s => s.refuses c 2)
  ∧ (MbxDoes (fun t c => .setShutdownState t c)
      (fun c _ => 1 < mbByte c 0)
      fun c s => s.badField c 0)
  ∧ (MbxDoes (fun t c => .setLsa t c)
      (fun c _ => 64 ≤ c.mb.val)
      fun c s => s.refuses c 2)
  ∧ (MbxDoes (fun t c => .setLsa t c)
      (fun c _ => c.mb.val < 64 ∧ 131072 < mbLe c 0 4 + (c.input.drop 8).length)
      fun c s => s.badField c 0)
  ∧ (MbxDoes (fun t c => .setLsa t c)
      (fun c s => c.mb.val < 64 ∧ mbLe c 0 4 + (c.input.drop 8).length ≤ 131072 ∧ s.mirrors = false)
      fun c s => (s.onPart c.mb.val fun q => { q with lsa := putLsa q.lsa (mbLe c 0 4) (c.input.drop 8) }).completes c [])
  ∧ (MbxDoes (fun t c => .setLsa t c)
      (fun c s => c.mb.val < 64 ∧ mbLe c 0 4 + (c.input.drop 8).length ≤ 131072 ∧ s.mirrors = true)
      fun c s => ((s.onPart c.mb.val fun q => { q with lsa := putLsa q.lsa (mbLe c 0 4) (c.input.drop 8) }).toTwin (.lsa c.mb.val (mbLe c 0 4) (c.input.drop 8))).completes c [])
  ∧ (MbxDoes (fun t c => .clearPoison t c)
      (fun c s => c.mb.val < 64 ∧ mbLe c 0 8 % 64 = 0 ∧ mbLe c 0 8 < (s.part c.mb.val).dataLen * 64 ∧ (s.part c.mb.val).st ≠ .free ∧ s.lineRoom = true)
      fun c s => (s.clearLine c.mb.val c.mb.val).waitsFor c .line)
  ∧ (MbxDoes (fun t c => .clearPoison t c)
      (fun c s => c.mb.val < 64 ∧ mbLe c 0 8 % 64 = 0 ∧ mbLe c 0 8 < (s.part c.mb.val).dataLen * 64 ∧ (s.part c.mb.val).st ≠ .free ∧ s.lineRoom = false)
      fun c s => s.waitsFor c .place)
  ∧ (MbxDoes (fun t c => .clearPoison t c)
      (fun c s => c.mb.val < 64 ∧ (mbLe c 0 8 % 64 ≠ 0 ∨ (s.part c.mb.val).dataLen * 64 ≤ mbLe c 0 8 ∨ (s.part c.mb.val).st = .free))
      fun c s => s.badField c 0)
  ∧ (MbxDoes (fun t c => .clearPoison t c)
      (fun c _ => 64 ≤ c.mb.val)
      fun c s => s.refuses c 2)
  ∧ (MbxDoes (fun t c => .sanitize t c)
      (fun c s => c.mb.val < 64 ∧ (s.part c.mb.val).st = .disabled ∧ s.bgHeld (.part c.mb.val) = false)
      fun c s => s.begins c (.sanitize c.mb.val) 0xFFFFFFFF)
  ∧ (MbxDoes (fun t c => .secureErase t c)
      (fun c s => c.mb.val < 64 ∧ (s.part c.mb.val).st = .disabled ∧ s.bgHeld (.part c.mb.val) = false)
      fun c s => s.begins c (.sanitize c.mb.val) 0xFFFFFFFF)
  ∧ (MbxDoes (fun t c => .sanitize t c)
      (fun c s => c.mb.val < 64 ∧ ((s.part c.mb.val).st ≠ .disabled ∨ s.bgHeld (.part c.mb.val) = true))
      fun c s => s.refuses c 7)
  ∧ (MbxDoes (fun t c => .secureErase t c)
      (fun c s => c.mb.val < 64 ∧ ((s.part c.mb.val).st ≠ .disabled ∨ s.bgHeld (.part c.mb.val) = true))
      fun c s => s.refuses c 7)
  ∧ (MbxDoes (fun t c => .sanitize t c)
      (fun c _ => 64 ≤ c.mb.val)
      fun c s => s.refuses c 2)
  ∧ (MbxDoes (fun t c => .secureErase t c)
      (fun c _ => 64 ≤ c.mb.val)
      fun c s => s.refuses c 2)
  ∧ (∀ (opcode : BitVec 16), MbxDoes (fun t c => .unsupportedCommand t c opcode)
      (fun _ _ => True)
      fun c s => s.refuses c 2)

/-- Served: PART_CREATE of a FREE partition with a configuration in range and room in the capacity tier makes it DISABLED and
UNFINISHED and starts in the background; without room 0x08. PART_RESIZE and PART_DESTROY of a DISABLED, drained partition
start in the background. PART_QUERY answers its 48 bytes. PART_ENABLE and its clearing need a free pending entry, and arm an
instant. PART_RESTART makes a drained STOPPED partition DISABLED. PART_QUIET applies at once, or at start-up step 9.
PART_SCRATCH assigns or releases a ready pair of ways. PART_SET changes the configuration of a DISABLED partition, not its
data range. A partition in another state gives 0x07. [02_address_partitions.md, 05_sheaf_filter.md, 16_mailbox.md, R65, R68,
R225, R635, R642, R643] -/
def Obligations.PartitionCommandsConfigureTheirPartition : Prop :=
  (MbxDoes (fun t c => .partCreate t c)
      (fun c s => (s.part (mbByte c 0)).st = .free ∧ s.mapPair.isSome = true ∧ cfgBad c = none ∧ s.rangeClash (mbByte c 0) (cfgOf c 0) = false
          ∧ ((cfgOf c 0).dataSize.toNat + 1) * 16384 + ((cfgOf c 0).dataSize.toNat + 1) * 16384 / 8192 + mbLe c 28 2 * 16384 ≤ s.tierFree false)
      fun c s => (s.onPart (mbByte c 0) fun q =>
          { q with cfg := cfgOf c 0, reserve := mbLe c 28 2, st := .disabled, drained := true, unfinished := true, overlap := false, trkRes := false, fltRes := false }).begins c
          (.partCreate (mbByte c 0)) 0xFFFFFFFF)
  ∧ (MbxDoes (fun t c => .partCreate t c)
      (fun c s => (s.part (mbByte c 0)).st ≠ .free)
      fun c s => s.refuses c 7)
  ∧ (MbxDoes (fun t c => .partCreate t c)
      (fun c s => (s.part (mbByte c 0)).st = .free ∧ s.mapPair.isSome = true ∧ cfgBad c = none ∧ s.rangeClash (mbByte c 0) (cfgOf c 0) = false
          ∧ s.tierFree false < ((cfgOf c 0).dataSize.toNat + 1) * 16384 + ((cfgOf c 0).dataSize.toNat + 1) * 16384 / 8192 + mbLe c 28 2 * 16384)
      fun c s => s.refuses c 8)
  ∧ (MbxDoes (fun t c => .partResize t c)
      (fun c s => (s.part (mbByte c 0)).st = .disabled ∧ (s.part (mbByte c 0)).drained = true ∧ (s.part (mbByte c 0)).live = [] ∧ mbLe c 4 4 ≤ 262143 ∧ s.rangeClash (mbByte c 0) { (s.part (mbByte c 0)).cfg with dataSize := BitVec.ofNat 18 (mbLe c 4 4) } = false
          ∧ (mbLe c 4 4 - (s.part (mbByte c 0)).cfg.dataSize.toNat) * 16384 + (mbLe c 4 4 - (s.part (mbByte c 0)).cfg.dataSize.toNat) * 16384 / 8192 ≤ s.tierFree false)
      fun c s => (s.onPart (mbByte c 0) fun q => { q with unfinished := true, overlap := false, trkRes := false, fltRes := false }).begins c (.partResize (mbByte c 0) (mbLe c 4 4)) 0xFFFFFFFF)
  ∧ (MbxDoes (fun t c => .partResize t c)
      (fun c s => (s.part (mbByte c 0)).st ≠ .disabled)
      fun c s => s.refuses c 7)
  ∧ (MbxDoes (fun t c => .partDestroy t c)
      (fun c s => mbByte c 1 ≤ 1 ∧ (((s.part (mbByte c 0)).st = .disabled ∧ (s.part (mbByte c 0)).drained = true) ∨ (s.part (mbByte c 0)).st = .stopped))
      fun c s => s.begins c (.partDestroy (mbByte c 0) (mbByte c 1 == 1)) 0xFFFFFFFF)
  ∧ (MbxDoes (fun t c => .partDestroy t c)
      (fun c s => mbByte c 1 ≤ 1 ∧ (s.part (mbByte c 0)).st = .enabled)
      fun c s => s.refuses c 7)
  ∧ (MbxDoes (fun t c => .partQuery t c)
      (fun _ _ => True)
      fun c s => s.completes c (leBytes 1 (s.part (mbByte c 0)).st.code ++ leBytes 1 (b2n (s.part (mbByte c 0)).overlap + 2 * b2n (s.part (mbByte c 0)).trkRes + 4 * b2n (s.part (mbByte c 0)).fltRes
          + 8 * b2n (s.part (mbByte c 0)).drained + 16 * b2n (s.part (mbByte c 0)).unfinished) ++ zeros 6 ++ (s.part (mbByte c 0)).cfgBytes (mbByte c 0) ++ leBytes 4 (s.hostSet (mbByte c 0)).length
          ++ leBytes 1 (sumOf (fun x => 2 ^ x.1) (s.part (mbByte c 0)).live) ++ zeros 3))
  ∧ (∀ (k : Nat), MbxDoes (fun t c => .partEnableSet t c)
      (fun c s => mbByte c 1 = 1 ∧ mbByte c 2 ≤ 1 ∧ (mbByte c 2 = 0 → s.twin.st ≠ .paired) ∧ ((s.part (mbByte c 0)).st = .disabled ∨ (s.part (mbByte c 0)).st = .draining) ∧ (s.part (mbByte c 0)).unfinished = false ∧ s.trkOver (mbByte c 0) = false ∧ s.fltOver (mbByte c 0) = false ∧ s.freePend = some k)
      fun c s => ((s.onBlk fun b => { b with pend := Tbl.set b.pend k (3 + 16 * mbByte c 0 + 2048) }).instCmd c.mb.val 6 (mbByte c 2) k (mbLe c 8 8)).2.answer c.mb.val
          ((s.onBlk fun b => { b with pend := Tbl.set b.pend k (3 + 16 * mbByte c 0 + 2048) }).instCmd c.mb.val 6 (mbByte c 2) k (mbLe c 8 8)).1)
  ∧ (∀ (k : Nat), MbxDoes (fun t c => .partEnableClear t c)
      (fun c s => mbByte c 1 = 0 ∧ mbByte c 2 ≤ 1 ∧ (mbByte c 2 = 0 → s.twin.st ≠ .paired) ∧ (s.part (mbByte c 0)).st = .enabled ∧ s.freePend = some k)
      fun c s => ((s.onBlk fun b => { b with pend := Tbl.set b.pend k (1 + 16 * mbByte c 0 + 2048) }).instCmd c.mb.val 6 (mbByte c 2) k (mbLe c 8 8)).2.answer c.mb.val
          ((s.onBlk fun b => { b with pend := Tbl.set b.pend k (1 + 16 * mbByte c 0 + 2048) }).instCmd c.mb.val 6 (mbByte c 2) k (mbLe c 8 8)).1)
  ∧ (MbxDoes (fun t c => .partEnableSet t c)
      (fun c s => mbByte c 1 = 1 ∧ mbByte c 2 ≤ 1 ∧ (mbByte c 2 = 0 → s.twin.st ≠ .paired) ∧ ((s.part (mbByte c 0)).st = .free ∨ (s.part (mbByte c 0)).st = .stopped ∨ (s.part (mbByte c 0)).st = .enabled ∨ (s.part (mbByte c 0)).unfinished = true))
      fun c s => s.refuses c 7)
  ∧ (MbxDoes (fun t c => .partEnableSet t c)
      (fun c s => mbByte c 1 = 1 ∧ mbByte c 2 ≤ 1 ∧ (mbByte c 2 = 0 → s.twin.st ≠ .paired) ∧ (s.part (mbByte c 0)).st = .disabled ∧ (s.part (mbByte c 0)).unfinished = false ∧ (s.trkOver (mbByte c 0) = true ∨ s.fltOver (mbByte c 0) = true))
      fun c s => s.refuses c 8)
  ∧ (MbxDoes (fun t c => .partEnableSet t c)
      (fun c s => mbByte c 1 = 1 ∧ mbByte c 2 = 0 ∧ s.twin.st = .paired)
      fun c s => s.badField c 2)
  ∧ (MbxDoes (fun t c => .partEnableClear t c)
      (fun c s => mbByte c 1 = 0 ∧ mbByte c 2 ≤ 1 ∧ (mbByte c 2 = 0 → s.twin.st ≠ .paired) ∧ (s.part (mbByte c 0)).st ≠ .enabled)
      fun c s => s.refuses c 7)
  ∧ (MbxDoes (fun t c => .partRestart t c)
      (fun c s => (s.part (mbByte c 0)).st = .stopped ∧ (s.part (mbByte c 0)).drained = true)
      fun c s => ((s.onPart (mbByte c 0) fun q => { q with st := .disabled }).putBack (.part (mbByte c 0))).completes c [])
  ∧ (MbxDoes (fun t c => .partRestart t c)
      (fun c s => (s.part (mbByte c 0)).st ≠ .stopped)
      fun c s => s.refuses c 7)
  ∧ (MbxDoes (fun t c => .partQuiet t c)
      (fun c s => (s.part (mbByte c 0)).st ≠ .free ∧ (s.part (mbByte c 0)).wasEnabled = false ∧ (10 ≤ s.pwr.step ∨ s.pwr.refreshing = true))
      fun c s => (s.applyQuiet (mbByte c 0)).completes c [])
  ∧ (MbxDoes (fun t c => .partQuiet t c)
      (fun c s => (s.part (mbByte c 0)).st ≠ .free ∧ (s.part (mbByte c 0)).wasEnabled = false ∧ s.pwr.step < 10 ∧ s.pwr.refreshing = false)
      fun c s => (s.onPart (mbByte c 0) fun q => { q with quietPend := true }).completes c [])
  ∧ (MbxDoes (fun t c => .partQuiet t c)
      (fun c s => (s.part (mbByte c 0)).st = .free ∨ (s.part (mbByte c 0)).wasEnabled = true)
      fun c s => s.refuses c 7)
  ∧ (MbxDoes (fun t c => .partScratchAssign t c)
      (fun c s => (mbByte c 1 = 3 ∨ mbByte c 1 = 5 ∨ mbByte c 1 = 7 ∨ mbByte c 1 = 9) ∧ mbByte c 2 = 1 ∧ (s.part (mbByte c 0)).st = .disabled ∧ s.scratchReady (mbByte c 1) = true ∧ s.scratchReady (mbByte c 1 + 1) = true
          ∧ (s.parts.any fun x => x.1 != mbByte c 0 && x.2.pairs.contains (mbByte c 1)) = false)
      fun c s => (s.onPart (mbByte c 0) fun q => { q with pairs := insertNat (mbByte c 1) q.pairs }).completes c [])
  ∧ (MbxDoes (fun t c => .partScratchRelease t c)
      (fun c s => (mbByte c 1 = 3 ∨ mbByte c 1 = 5 ∨ mbByte c 1 = 7 ∨ mbByte c 1 = 9) ∧ mbByte c 2 = 0 ∧ (s.part (mbByte c 0)).st = .disabled ∧ s.scratchReady (mbByte c 1) = true ∧ s.scratchReady (mbByte c 1 + 1) = true
          ∧ (s.parts.any fun x => x.1 != mbByte c 0 && x.2.pairs.contains (mbByte c 1)) = false ∧ (s.part (mbByte c 0)).pairs.contains (mbByte c 1) = true)
      fun c s => (s.onPart (mbByte c 0) fun q => { q with pairs := q.pairs.filter (· != mbByte c 1) }).completes c [])
  ∧ (MbxDoes (fun t c => .partScratchAssign t c)
      (fun c _ => mbByte c 1 = 4)
      fun c s => s.badField c 1)
  ∧ (MbxDoes (fun t c => .partSet t c)
      (fun c s => (s.part (mbByte c 0)).st = .disabled ∧ cfgBad c = none ∧ (cfgOf c 0).dataBase = (s.part (mbByte c 0)).cfg.dataBase ∧ (cfgOf c 0).dataSize = (s.part (mbByte c 0)).cfg.dataSize ∧ (s.part (mbByte c 0)).winBind = [] ∧ s.rangeClash (mbByte c 0) (cfgOf c 0) = false)
      fun c s => (s.onPart (mbByte c 0) fun q => { q with cfg := cfgOf c 0, reserve := mbLe c 28 2, overlap := false, trkRes := false, fltRes := false }).completes c [])
  ∧ (MbxDoes (fun t c => .partSet t c)
      (fun c s => (s.part (mbByte c 0)).st ≠ .disabled)
      fun c s => s.refuses c 7)

/-- Served: HOST_PORT_SET with fields in range sets membership, binding, credits and enable of a host port; a binding or credit
change of an enabled port, or a membership that clashes, gives 0x07, and credits beyond the intake port’s give 0x08 with the
reason kept. HOST_PORT_RESTORE of a host that does not respond restores it. TICKET_AREA of a partition that is not ENABLED
sets the area and writes each of its lines with zeros; with no slots it completes at once. PLACE_GOAL sets the goal, cut to
the quota, and answers it. PLACE_QUERY answers the counts of its tracts. [03_host_protocol.md, 08_ordering_durability.md,
10_placement.md, 16_mailbox.md, R29, R70, R126, R129, R356, R476, R642, R645] -/
def Obligations.HostPortTicketAndPlacementCommands : Prop :=
  (MbxDoes (fun t c => .hostPortSet t c)
      (fun c s => mbLe c 0 2 ≤ 1023 ∧ mbByte c 2 ≤ 15 ∧ mbByte c 3 ≤ 1 ∧ 1 ≤ mbLe c 12 2 ∧ mbLe c 12 2 ≤ 1024 ∧ 1 ≤ mbLe c 14 2 ∧ mbLe c 14 2 ≤ 512 ∧ ((s.hp (mbLe c 0 2)).enable = true → mbByte c 2 = (s.hp (mbLe c 0 2)).intake ∧ mbLe c 12 2 = (s.hp (mbLe c 0 2)).reqCr ∧ mbLe c 14 2 = (s.hp (mbLe c 0 2)).rwdCr)
          ∧ s.membClash (mbLe c 0 2) (BitVec.ofNat 64 (mbLe c 4 8)) = false ∧ (mbByte c 3 = 1 → (s.hp (mbLe c 0 2)).enable = false → s.credOver (mbLe c 0 2) (mbByte c 2) (mbLe c 12 2) (mbLe c 14 2) = false))
      fun c s => (s.onHp (mbLe c 0 2) fun q => { q with memb := BitVec.ofNat 64 (mbLe c 4 8), intake := mbByte c 2, reqCr := mbLe c 12 2, rwdCr := mbLe c 14 2, enable := mbByte c 3 == 1, credRes := false }).completes
          c [])
  ∧ (MbxDoes (fun t c => .hostPortSet t c)
      (fun c s => mbLe c 0 2 ≤ 1023 ∧ mbByte c 2 ≤ 15 ∧ mbByte c 3 ≤ 1 ∧ 1 ≤ mbLe c 12 2 ∧ mbLe c 12 2 ≤ 1024 ∧ 1 ≤ mbLe c 14 2 ∧ mbLe c 14 2 ≤ 512 ∧ mbByte c 3 = 1 ∧ (s.hp (mbLe c 0 2)).enable = false
          ∧ s.membClash (mbLe c 0 2) (BitVec.ofNat 64 (mbLe c 4 8)) = false ∧ s.credOver (mbLe c 0 2) (mbByte c 2) (mbLe c 12 2) (mbLe c 14 2) = true)
      fun c s => (s.onHp (mbLe c 0 2) fun q => { q with credRes := true }).refuses c 8)
  ∧ (MbxDoes (fun t c => .hostPortSet t c)
      (fun c s => mbLe c 0 2 ≤ 1023 ∧ mbByte c 2 ≤ 15 ∧ mbByte c 3 ≤ 1 ∧ 1 ≤ mbLe c 12 2 ∧ mbLe c 12 2 ≤ 1024 ∧ 1 ≤ mbLe c 14 2 ∧ mbLe c 14 2 ≤ 512 ∧ s.membClash (mbLe c 0 2) (BitVec.ofNat 64 (mbLe c 4 8)) = true)
      fun c s => s.refuses c 7)
  ∧ (MbxDoes (fun t c => .hostPortSet t c)
      (fun c _ => 1023 < mbLe c 0 2)
      fun c s => s.badField c 0)
  ∧ (MbxDoes (fun t c => .hostPortSet t c)
      (fun c _ => mbLe c 0 2 ≤ 1023 ∧ mbByte c 2 ≤ 15 ∧ mbByte c 3 ≤ 1 ∧ (mbLe c 12 2 < 1 ∨ 1024 < mbLe c 12 2))
      fun c s => s.badField c 12)
  ∧ (MbxDoes (fun t c => .hostPortSet t c)
      (fun c s => mbLe c 0 2 ≤ 1023 ∧ mbByte c 2 ≤ 15 ∧ mbByte c 3 ≤ 1 ∧ 1 ≤ mbLe c 12 2 ∧ mbLe c 12 2 ≤ 1024 ∧ 1 ≤ mbLe c 14 2 ∧ mbLe c 14 2 ≤ 512 ∧ (s.hp (mbLe c 0 2)).enable = true ∧ (mbByte c 2 ≠ (s.hp (mbLe c 0 2)).intake ∨ mbLe c 12 2 ≠ (s.hp (mbLe c 0 2)).reqCr ∨ mbLe c 14 2 ≠ (s.hp (mbLe c 0 2)).rwdCr))
      fun c s => s.refuses c 7)
  ∧ (MbxDoes (fun t c => .hostPortRestore t c)
      (fun c s => mbLe c 0 2 ≤ 1023 ∧ (s.hp (mbLe c 0 2)).unresp = true)
      fun c s => (s.restoreHost (mbLe c 0 2)).completes c [])
  ∧ (MbxDoes (fun t c => .hostPortRestore t c)
      (fun c s => mbLe c 0 2 ≤ 1023 ∧ (s.hp (mbLe c 0 2)).unresp = false)
      fun c s => s.refuses c 7)
  ∧ (MbxDoes (fun t c => .ticketArea t c)
      (fun c s => mbLe c 8 2 ≤ 1024 ∧ mbLe c 4 4 * 1024 + mbLe c 8 2 ≤ (s.part (mbByte c 0)).dataLen ∧ (s.part (mbByte c 0)).st ≠ .free ∧ (s.part (mbByte c 0)).st ≠ .enabled ∧ mbLe c 8 2 ≠ 0)
      fun c s => (State.areaPump c.mb.val (mbByte c 0) (mbLe c 8 2) 256 (s.onPart (mbByte c 0) fun q => { q with ticketBase := mbLe c 4 4, ticketSlots := mbLe c 8 2 })).waitsFor c (.lines (mbLe c 8 2)))
  ∧ (MbxDoes (fun t c => .ticketArea t c)
      (fun c s => (s.part (mbByte c 0)).st ≠ .free ∧ (s.part (mbByte c 0)).st ≠ .enabled ∧ mbLe c 4 4 * 1024 ≤ (s.part (mbByte c 0)).dataLen ∧ mbLe c 8 2 = 0)
      fun c s => (s.onPart (mbByte c 0) fun q => { q with ticketBase := mbLe c 4 4, ticketSlots := 0 }).completes c [])
  ∧ (MbxDoes (fun t c => .ticketArea t c)
      (fun c s => mbLe c 8 2 ≤ 1024 ∧ mbLe c 4 4 * 1024 + mbLe c 8 2 ≤ (s.part (mbByte c 0)).dataLen ∧ (s.part (mbByte c 0)).st = .enabled)
      fun c s => s.refuses c 7)
  ∧ (MbxDoes (fun t c => .placeGoal t c)
      (fun c s => (s.part (mbByte c 0)).st ≠ .free)
      fun c s => (s.onPart (mbByte c 0) fun q => { q with goal := min (mbLe c 2 2) (s.part (mbByte c 0)).cfg.fastQuota.toNat }).completes c (leBytes 2 (min (mbLe c 2 2) (s.part (mbByte c 0)).cfg.fastQuota.toNat)))
  ∧ (MbxDoes (fun t c => .placeQuery t c)
      (fun c s => (s.part (mbByte c 0)).st ≠ .free)
      fun c s => s.completes c (leBytes 4 (s.fastTracts (mbByte c 0)) ++ leBytes 4 (s.partTracts (mbByte c 0) fun _ => true) ++ leBytes 1 (s.part (mbByte c 0)).kFactor ++ zeros 1
          ++ leBytes 2 (min (s.part (mbByte c 0)).goal (s.part (mbByte c 0)).cfg.fastQuota.toNat) ++ leBytes 4 (s.frozenTracts (mbByte c 0)) ++ leBytes 4 (s.partTracts (mbByte c 0) fun e => meState e == 6)))
  ∧ (MbxDoes (fun t c => .placeGoal t c)
      (fun c s => (s.part (mbByte c 0)).st = .free)
      fun c s => s.refuses c 7)
  ∧ (MbxDoes (fun t c => .placeQuery t c)
      (fun c s => (s.part (mbByte c 0)).st = .free)
      fun c s => s.refuses c 7)

/-- Served: PLATE_BIND binds an EXPOSED plate of the partition, not yet bound, to a free window slot; PLATE_UNBIND frees the slot;
PLATE_RELEASE of an unbound plate cancels the slot of an ARMED one (0x07 when it cannot be cancelled), and starts in the
background for an EXPOSED one, which is RELEASING from then on. PLATE_GROUP_NAME and PLATE_GROUP_DISSOLVE set and remove a
group in a domain member whose domain is in order. PLATE_QUERY answers 16 bytes for each of the 8 plates. A plate or window in
another state gives 0x07. [07_meridian.md, 16_mailbox.md, R315, R322, R323, R646, R647] -/
def Obligations.PlateCommandsBindReleaseAndGroup : Prop :=
  (MbxDoes (fun t c => .plateBind t c)
      (fun c s => mbByte c 1 ≤ 7 ∧ mbByte c 2 < (s.part (mbByte c 0)).slots ∧ ((Tbl.find (s.part (mbByte c 0)).plates (mbByte c 1)).any fun x => x.st == .exposed) = true ∧ Tbl.find (s.part (mbByte c 0)).winBind (mbByte c 2) = none ∧ (s.part (mbByte c 0)).windowOf (mbByte c 1) = none)
      fun c s => (s.onPart (mbByte c 0) fun q => { q with winBind := Tbl.set q.winBind (mbByte c 2) (mbByte c 1) }).completes c [])
  ∧ (MbxDoes (fun t c => .plateBind t c)
      (fun c s => mbByte c 1 ≤ 7 ∧ mbByte c 2 < (s.part (mbByte c 0)).slots ∧ (((Tbl.find (s.part (mbByte c 0)).plates (mbByte c 1)).any fun x => x.st == .exposed) = false ∨ (Tbl.find (s.part (mbByte c 0)).winBind (mbByte c 2)).isSome = true ∨ ((s.part (mbByte c 0)).windowOf (mbByte c 1)).isSome = true))
      fun c s => s.refuses c 7)
  ∧ (MbxDoes (fun t c => .plateBind t c)
      (fun c _ => 7 < mbByte c 1)
      fun c s => s.badField c 1)
  ∧ (MbxDoes (fun t c => .plateBind t c)
      (fun c s => mbByte c 1 ≤ 7 ∧ (s.part (mbByte c 0)).slots ≤ mbByte c 2)
      fun c s => s.badField c 2)
  ∧ (MbxDoes (fun t c => .plateUnbind t c)
      (fun c s => (Tbl.find (s.part (mbByte c 0)).winBind (mbByte c 1)).isSome = true)
      fun c s => (s.onPart (mbByte c 0) fun q => { q with winBind := Tbl.del q.winBind (mbByte c 1) }).completes c [])
  ∧ (MbxDoes (fun t c => .plateUnbind t c)
      (fun c s => Tbl.find (s.part (mbByte c 0)).winBind (mbByte c 1) = none)
      fun c s => s.refuses c 7)
  ∧ (∀ (x : Plate), MbxDoes (fun t c => .plateRelease t c)
      (fun c s => mbByte c 1 ≤ 7 ∧ Tbl.find (s.part (mbByte c 0)).live (mbByte c 1) = some x ∧ (s.part (mbByte c 0)).windowOf (mbByte c 1) = none ∧ x.st = .exposed)
      fun c s => (s.onPart (mbByte c 0) fun q => { q with plates := Tbl.set q.plates (mbByte c 1) { x with st := .releasing } }).begins c (.plateRelease (mbByte c 0) (mbByte c 1)) 0xFFFFFFFF)
  ∧ (∀ (x : Plate), MbxDoes (fun t c => .plateRelease t c)
      (fun c s => mbByte c 1 ≤ 7 ∧ Tbl.find (s.part (mbByte c 0)).live (mbByte c 1) = some x ∧ (s.part (mbByte c 0)).windowOf (mbByte c 1) = none ∧ x.st = .armed)
      fun c s => (s.cancelSlot x.slot).2.mbxDone c.mb.val (if (s.cancelSlot x.slot).1 then 0 else 7) [] 0xFFFFFFFF)
  ∧ (MbxDoes (fun t c => .plateRelease t c)
      (fun c s => mbByte c 1 ≤ 7 ∧ Tbl.find (s.part (mbByte c 0)).live (mbByte c 1) = none)
      fun c s => s.refuses c 7)
  ∧ (∀ (x : Plate), MbxDoes (fun t c => .plateRelease t c)
      (fun c s => mbByte c 1 ≤ 7 ∧ Tbl.find (s.part (mbByte c 0)).live (mbByte c 1) = some x ∧ (((s.part (mbByte c 0)).windowOf (mbByte c 1)).isSome = true ∨ x.st = .pending ∨ x.st = .releasing ∨ x.st = .withdrawn))
      fun c s => s.refuses c 7)
  ∧ (MbxDoes (fun t c => .plateRelease t c)
      (fun c _ => 7 < mbByte c 1)
      fun c s => s.badField c 1)
  ∧ (MbxDoes (fun t c => .plateGroupName t c)
      (fun c s => mbByte c 0 ≤ 63 ∧ mbByte c 1 = 1 ∧ 1 ≤ mbByte c 2 ∧ mbByte c 2 ≤ 64 ∧ c.input.length = 4 + 2 * mbByte c 2 ∧ (((List.range (mbByte c 2)).map fun k => mbLe c (4 + 2 * k) 2).any fun w => 1024 ≤ w) = false ∧ hasRepeat (((List.range (mbByte c 2)).map fun k => mbLe c (4 + 2 * k) 2).map fun w => (w % 64, w / 64 % 16)) = false ∧ s.mer.member = true ∧ s.mer.domOk = true
          ∧ (s.groups.any fun x => x.1 != mbByte c 0 && x.2.any fun m => (((List.range (mbByte c 2)).map fun k => mbLe c (4 + 2 * k) 2).map fun w => (w % 64, w / 64 % 16)).contains m) = false)
      fun c s => { s with groups := Tbl.set s.groups (mbByte c 0) (((List.range (mbByte c 2)).map fun k => mbLe c (4 + 2 * k) 2).map fun w => (w % 64, w / 64 % 16)) }.completes c [])
  ∧ (MbxDoes (fun t c => .plateGroupName t c)
      (fun c s => mbByte c 0 ≤ 63 ∧ mbByte c 1 = 1 ∧ 1 ≤ mbByte c 2 ∧ mbByte c 2 ≤ 64 ∧ c.input.length = 4 + 2 * mbByte c 2 ∧ (((List.range (mbByte c 2)).map fun k => mbLe c (4 + 2 * k) 2).any fun w => 1024 ≤ w) = false ∧ hasRepeat (((List.range (mbByte c 2)).map fun k => mbLe c (4 + 2 * k) 2).map fun w => (w % 64, w / 64 % 16)) = false ∧ (s.mer.member = false ∨ s.mer.domOk = false ∨ (s.groups.any fun x => x.1 != mbByte c 0 && x.2.any fun m => (((List.range (mbByte c 2)).map fun k => mbLe c (4 + 2 * k) 2).map fun w => (w % 64, w / 64 % 16)).contains m) = true))
      fun c s => s.refuses c 7)
  ∧ (MbxDoes (fun t c => .plateGroupName t c)
      (fun c _ => mbByte c 0 ≤ 63 ∧ mbByte c 1 = 1 ∧ 1 ≤ mbByte c 2 ∧ mbByte c 2 ≤ 64 ∧ c.input.length = 4 + 2 * mbByte c 2 ∧ ((((List.range (mbByte c 2)).map fun k => mbLe c (4 + 2 * k) 2).any fun w => 1024 ≤ w) = true ∨ hasRepeat (((List.range (mbByte c 2)).map fun k => mbLe c (4 + 2 * k) 2).map fun w => (w % 64, w / 64 % 16)) = true))
      fun c s => s.badField c 4)
  ∧ (MbxDoes (fun t c => .plateGroupDissolve t c)
      (fun c s => mbByte c 0 ≤ 63 ∧ mbByte c 1 = 0 ∧ 1 ≤ mbByte c 2 ∧ mbByte c 2 ≤ 64 ∧ c.input.length = 4 + 2 * mbByte c 2 ∧ (((List.range (mbByte c 2)).map fun k => mbLe c (4 + 2 * k) 2).any fun w => 1024 ≤ w) = false ∧ hasRepeat (((List.range (mbByte c 2)).map fun k => mbLe c (4 + 2 * k) 2).map fun w => (w % 64, w / 64 % 16)) = false ∧ s.mer.member = true ∧ s.mer.domOk = true ∧ (s.parts.any fun x => x.2.live.any fun y => y.2.group == some (mbByte c 0)) = false)
      fun c s => { s with groups := Tbl.del s.groups (mbByte c 0) }.completes c [])
  ∧ (MbxDoes (fun t c => .plateGroupDissolve t c)
      (fun c s => mbByte c 0 ≤ 63 ∧ mbByte c 1 = 0 ∧ 1 ≤ mbByte c 2 ∧ mbByte c 2 ≤ 64 ∧ c.input.length = 4 + 2 * mbByte c 2 ∧ (((List.range (mbByte c 2)).map fun k => mbLe c (4 + 2 * k) 2).any fun w => 1024 ≤ w) = false ∧ hasRepeat (((List.range (mbByte c 2)).map fun k => mbLe c (4 + 2 * k) 2).map fun w => (w % 64, w / 64 % 16)) = false ∧ (s.mer.member = false ∨ s.mer.domOk = false ∨ (s.parts.any fun x => x.2.live.any fun y => y.2.group == some (mbByte c 0)) = true))
      fun c s => s.refuses c 7)
  ∧ (MbxDoes (fun t c => .plateGroupDissolve t c)
      (fun c _ => mbByte c 0 ≤ 63 ∧ mbByte c 1 = 0 ∧ 1 ≤ mbByte c 2 ∧ mbByte c 2 ≤ 64 ∧ c.input.length = 4 + 2 * mbByte c 2 ∧ ((((List.range (mbByte c 2)).map fun k => mbLe c (4 + 2 * k) 2).any fun w => 1024 ≤ w) = true ∨ hasRepeat (((List.range (mbByte c 2)).map fun k => mbLe c (4 + 2 * k) 2).map fun w => (w % 64, w / 64 % 16)) = true))
      fun c s => s.badField c 4)
  ∧ (MbxDoes (fun t c => .plateQuery t c)
      (fun _ _ => True)
      fun c s => s.completes c ((List.range 8).map fun k =>
          match Tbl.find (s.part (mbByte c 0)).plates k with
          | none => [0, 0xFF] ++ zeros 14
          | some x => leBytes 1 x.st.code ++ leBytes 1 (((s.part (mbByte c 0)).windowOf k).getD 0xFF) ++ leBytes 1 (b2n x.group.isSome) ++ zeros 1
              ++ leBytes 4 (x.map.filter fun y => y.2 == 2).length ++ leBytes 8 x.epoch).flatten)

/-- An instant command (R640) with no free slot gives 0x08. Else its slot is filled with its kind, scope, parameter and time, and
armed with the lead time of its scope: refused, it completes with the refusal’s status and its REASON in DETAIL; armed at
block scope it completes with the slot and the time; at another it waits. Served with fields in range, SNAPSHOT, EPOCH_LEN,
PLATE_EXPOSE (twin scope while PAIRED, domain scope for a group, else block scope) and ROLE_MOVE (of a partition PRIMARY here,
in a PAIRED block, with no move of it armed) do this. INSTANT_CANCEL cancels a slot that can still be cancelled, else gives
0x07; INSTANT_LIST answers all 16. [07_meridian.md, 09_twin.md, 16_mailbox.md, R301, R308, R315, R416, R640, R646, R649, R652,
R654] -/
def Obligations.InstantCommandsTakeASlot : Prop :=
  (∀ (s : State) (mb kind scope param inst : Nat), s.anySlot = none → s.instCmd mb kind scope param inst = (.done 8 [], s))
  ∧ (∀ (s : State) (mb kind scope param inst k : Nat) (u : State), s.anySlot = some k →
        (s.onSlot k fun _ => ⟨kind, scope, false, .idle, 0, param, s.instTime kind scope inst, .mailbox mb, none, none⟩).armSlot k (leadNs scope) = (none, u) →
        s.instCmd mb kind scope param inst = (if scope = 0 then .done 0 (u.instReply k) else .wait (.slot k), u))
  ∧ (∀ (s : State) (mb kind scope param inst k st : Nat) (u : State), s.anySlot = some k →
        (s.onSlot k fun _ => ⟨kind, scope, false, .idle, 0, param, s.instTime kind scope inst, .mailbox mb, none, none⟩).armSlot k (leadNs scope) = (some st, u) →
        s.instCmd mb kind scope param inst = (.detail st (u.slot k).reason, u))
  ∧ (MbxDoes (fun t c => .snapshot t c)
      (fun c _ => mbByte c 0 ≤ 1 ∧ mbByte c 1 ≤ 1)
      fun c s => (s.instCmd c.mb.val 3 (mbByte c 1) (mbByte c 0) (mbLe c 8 8)).2.answer c.mb.val
          (s.instCmd c.mb.val 3 (mbByte c 1) (mbByte c 0) (mbLe c 8 8)).1)
  ∧ (MbxDoes (fun t c => .epochLen t c)
      (fun c s => 10 ≤ mbLe c 0 4 ∧ mbLe c 0 4 ≤ 10000 ∧ mbByte c 4 ≤ 2 ∧ s.scopeOk 1 (mbByte c 4) (mbLe c 0 4) = true)
      fun c s => (s.instCmd c.mb.val 1 (mbByte c 4) (mbLe c 0 4) (mbLe c 8 8)).2.answer c.mb.val
          (s.instCmd c.mb.val 1 (mbByte c 4) (mbLe c 0 4) (mbLe c 8 8)).1)
  ∧ (MbxDoes (fun t c => .epochLen t c)
      (fun c _ => mbLe c 0 4 < 10 ∨ 10000 < mbLe c 0 4)
      fun c s => s.badField c 0)
  ∧ (MbxDoes (fun t c => .plateExpose t c)
      (fun c s => mbByte c 1 = 0 ∧ mbByte c 0 ≤ 63 ∧ (64 ≤ c.mb.val ∨ mbByte c 0 = c.mb.val) ∧ mbByte c 2 ≤ 7
          ∧ ((s.plateParts (mbByte c 0 % 64 + 64 * mbByte c 2)).any fun p => (s.part p).st == .free || (s.part p).live.any fun y => y.1 == mbByte c 2) = false)
      fun c s => (s.instCmd c.mb.val 2 (if s.twin.st = .paired then 1 else 0) (mbByte c 0 % 64 + 64 * mbByte c 2) (mbLe c 8 8)).2.answer c.mb.val
          (s.instCmd c.mb.val 2 (if s.twin.st = .paired then 1 else 0) (mbByte c 0 % 64 + 64 * mbByte c 2) (mbLe c 8 8)).1)
  ∧ (MbxDoes (fun t c => .plateExpose t c)
      (fun c s => 64 ≤ c.mb.val ∧ mbByte c 1 = 1 ∧ mbByte c 0 ≤ 63 ∧ mbByte c 2 ≤ 7 ∧ (Tbl.find s.groups (mbByte c 0)).isSome = true ∧ s.mer.domOk = true
          ∧ ((s.plateParts (mbByte c 0 % 64 + 64 * mbByte c 2 + 512)).any fun p => (s.part p).st == .free || (s.part p).live.any fun y => y.1 == mbByte c 2) = false)
      fun c s => (s.instCmd c.mb.val 2 2 (mbByte c 0 % 64 + 64 * mbByte c 2 + 512) (mbLe c 8 8)).2.answer c.mb.val
          (s.instCmd c.mb.val 2 2 (mbByte c 0 % 64 + 64 * mbByte c 2 + 512) (mbLe c 8 8)).1)
  ∧ (MbxDoes (fun t c => .roleMove t c)
      (fun c s => s.twin.st = .paired ∧ bitN s.twin.roles.toNat (mbByte c 0) = true ∧ Tbl.find s.twin.moves (mbByte c 0) = none
          ∧ ((List.range 16).any fun k => (s.slot k).arm && !(s.slot k).ended && (s.slot k).kind == 7 && (s.slot k).param % 64 == mbByte c 0) = false)
      fun c s => (s.instCmd c.mb.val 7 1 (mbByte c 0) (mbLe c 8 8)).2.answer c.mb.val
          (s.instCmd c.mb.val 7 1 (mbByte c 0) (mbLe c 8 8)).1)
  ∧ (MbxDoes (fun t c => .roleMove t c)
      (fun c s => s.twin.st ≠ .paired ∨ bitN s.twin.roles.toNat (mbByte c 0) = false ∨ (Tbl.find s.twin.moves (mbByte c 0)).isSome = true
          ∨ ((List.range 16).any fun k => (s.slot k).arm && !(s.slot k).ended && (s.slot k).kind == 7 && (s.slot k).param % 64 == mbByte c 0) = true)
      fun c s => s.refuses c 7)
  ∧ (MbxDoes (fun t c => .plateExpose t c)
      (fun c s => (64 ≤ c.mb.val ∨ (mbByte c 1 = 0 ∧ mbByte c 0 = c.mb.val)) ∧ mbByte c 1 ≤ 1 ∧ mbByte c 0 ≤ 63 ∧ mbByte c 2 ≤ 7
          ∧ ((mbByte c 1 = 1 ∧ ((Tbl.find s.groups (mbByte c 0)).isNone = true ∨ s.mer.domOk = false))
              ∨ ((s.plateParts (mbByte c 0 % 64 + 64 * mbByte c 2 + 512 * b2n (mbByte c 1 % 2 == 1))).any fun p => (s.part p).st == .free || (s.part p).live.any fun y => y.1 == mbByte c 2) = true))
      fun c s => s.refuses c 7)
  ∧ (MbxDoes (fun t c => .snapshot t c)
      (fun c _ => 1 < mbByte c 0)
      fun c s => s.badField c 0)
  ∧ (MbxDoes (fun t c => .epochLen t c)
      (fun c s => 10 ≤ mbLe c 0 4 ∧ mbLe c 0 4 ≤ 10000 ∧ (2 < mbByte c 4 ∨ s.scopeOk 1 (mbByte c 4) (mbLe c 0 4) = false))
      fun c s => s.badField c 4)
  ∧ (MbxDoes (fun t c => .instantCancel t c)
      (fun c _ => mbByte c 0 ≤ 15)
      fun c s => (s.cancelSlot (mbByte c 0)).2.mbxDone c.mb.val (if (s.cancelSlot (mbByte c 0)).1 then 0 else 7) [] 0xFFFFFFFF)
  ∧ (MbxDoes (fun t c => .instantList t c)
      (fun _ _ => True)
      fun c s => s.completes c ((List.range 16).map fun k => leBytes 4 (s.slot k).ctl ++ zeros 4 ++ leBytes 8 (s.slot k).time).flatten)

/-- Served: BARRIER with a scope that the block serves starts in the background with the barrier outstanding; BARRIER_LIST,
TWIN_STATUS and CAP_QUERY answer their bytes. TWIN_DRILL in a PAIRED block with no role move armed halts intake and hands the
service to the twin, in the background. BLOCK_RESTART acts in an ABDICATED or shut-down block. CAP_ADD marks, sizes and
enables an absent port and arranges its instant; CAP_REMOVE drains a present data port for which the rest has room, in the
background, else gives 0x08. TRACT RETHAW and REBUILD of a FROZEN tract, DIR_REFRESH and SHUTDOWN start in the background.
[10_placement.md, 15_power_startup.md, 16_mailbox.md, R420, R468, R469, R470, R611, R648, R649, R650, R654] -/
def Obligations.TwinBarrierAndCapacityCommands : Prop :=
  (MbxDoes (fun t c => .barrier t c)
      (fun c s => 1 ≤ mbByte c 1 ∧ mbByte c 1 ≤ 3 ∧ mbByte c 2 ≤ 1 ∧ (mbByte c 2 = 0 → mbLe c 8 8 = 0) ∧ (mbByte c 1 = 3 → s.mer.member = true ∧ s.mer.domOk = true) ∧ (mbByte c 1 ≠ 3 → mbByte c 2 = 0))
      fun c s => ({ s with
            adminBars := Tbl.set s.adminBars c.mb.val
              ({ id := 16 + 32 * c.mb.val, host := 1024, part := mbByte c 0, scope := scopeOf (mbByte c 1), ticket := 0, slot := 0, td := s.time, epoch := s.mer.cur,
                 waits := [], slices := List.range 128, twinOk := false, instant := if mbByte c 2 = 1 then mbLe c 8 8 else s.time,
                 serve := s.endedBy (if mbByte c 2 = 1 then mbLe c 8 8 else s.time), result := 0, doneAt := none, refused := false,
                 written := false, echo := none } : Barrier) } : State).begins c (.barrier (16 + 32 * c.mb.val)) 0)
  ∧ (MbxDoes (fun t c => .barrier t c)
      (fun c s => 1 ≤ mbByte c 1 ∧ mbByte c 1 ≤ 3 ∧ mbByte c 2 ≤ 1 ∧ (mbByte c 2 = 0 → mbLe c 8 8 = 0) ∧ ((mbByte c 1 = 3 ∧ (s.mer.member && s.mer.domOk) = false) ∨ (mbByte c 1 ≠ 3 ∧ mbByte c 2 = 1)))
      fun c s => s.refuses c 7)
  ∧ (MbxDoes (fun t c => .barrier t c)
      (fun c _ => mbByte c 1 = 0 ∨ 3 < mbByte c 1)
      fun c s => s.badField c 1)
  ∧ (MbxDoes (fun t c => .barrier t c)
      (fun c _ => 1 ≤ mbByte c 1 ∧ mbByte c 1 ≤ 3 ∧ 1 < mbByte c 2)
      fun c s => s.badField c 2)
  ∧ (MbxDoes (fun t c => .barrier t c)
      (fun c _ => 1 ≤ mbByte c 1 ∧ mbByte c 1 ≤ 3 ∧ mbByte c 2 = 0 ∧ mbLe c 8 8 ≠ 0)
      fun c s => s.badField c 8)
  ∧ (MbxDoes (fun t c => .barrierList t c)
      (fun _ _ => True)
      fun c s => s.completes c (((List.range 16).map fun i => leBytes 2 (s.ip i).standing.length).flatten ++ leBytes 4 s.adminBars.length ++ zeros 4))
  ∧ (MbxDoes (fun t c => .twinStatus t c)
      (fun _ _ => True)
      fun c s => s.completes c (leBytes 4 s.twnStatus ++ leBytes 8 s.twin.roles.toNat ++ leBytes 4 s.twnResync
          ++ leBytes 2 (sumOf (fun (x : Nat × Slice) => x.2.banks.held.length) s.slices) ++ zeros 2 ++ leBytes 8 s.lastLoss ++ leBytes 4 s.twin.takeovers))
  ∧ (MbxDoes (fun t c => .twinDrill t c)
      (fun _ s => s.twin.st = .paired ∧ ((List.range 16).any fun k => (s.slot k).arm && !(s.slot k).ended && (s.slot k).kind == 7) = false)
      fun c s => ((State.each (fun i s => s.onIp i fun q => { q with halted := true }) (List.range 16) s).toTwin (.abdicate true)).begins c .twinDrill 2)
  ∧ (MbxDoes (fun t c => .twinDrill t c)
      (fun _ s => s.twin.st ≠ .paired ∨ ((List.range 16).any fun k => (s.slot k).arm && !(s.slot k).ended && (s.slot k).kind == 7) = true)
      fun c s => s.refuses c 7)
  ∧ (MbxDoes (fun t c => .blockRestart t c)
      (fun _ s => s.twin.st = .abdicated ∨ s.twin.abdParts ≠ 0 ∨ s.pwr.readyOff = true)
      fun c s => (s.send .restart).completes c [])
  ∧ (MbxDoes (fun t c => .blockRestart t c)
      (fun _ s => s.twin.st ≠ .abdicated ∧ s.twin.abdParts = 0 ∧ s.pwr.readyOff = false)
      fun c s => s.refuses c 7)
  ∧ (MbxDoes (fun t c => .capQuery t c)
      (fun c _ => mbByte c 0 ≤ 31)
      fun c s => s.completes c (leBytes 1 (b2n (s.mp (mbByte c 0)).present + 2 * b2n (s.mp (mbByte c 0)).mapPort + 4 * b2n (s.mp (mbByte c 0)).draining
          + 8 * b2n (!(s.mp (mbByte c 0)).fast)) ++ zeros 3 ++ leBytes 4 (s.mp (mbByte c 0)).dataTracts ++ leBytes 4 (s.mp (mbByte c 0)).freeTracts
          ++ leBytes 4 ((s.mp (mbByte c 0)).countSt 1) ++ leBytes 4 ((s.mp (mbByte c 0)).countSt 3)
          ++ leBytes 4 (if (s.mp (mbByte c 0)).draining then s.drainMs ((s.mp (mbByte c 0)).countSt 1) else 0xFFFFFFFF)))
  ∧ (∀ (size pair : Nat), MbxDoes (fun t c => .capAdd t c size pair)
      (fun c s => mbByte c 0 ≤ 31 ∧ mbByte c 1 ≤ 1 ∧ mbByte c 2 = 0 ∧ (s.mp (mbByte c 0)).present = false ∧ size ≠ 0)
      fun c s => ((s.onMp (mbByte c 0) fun q => { q with fast := mbByte c 1 == 0, enable := true, size := size, mapPort := false }).instCmd c.mb.val 8
              (s.onMp (mbByte c 0) fun q => { q with fast := mbByte c 1 == 0, enable := true, size := size, mapPort := false }).pairScope (mbByte c 0) (mbLe c 8 8)).2.answer c.mb.val
          ((s.onMp (mbByte c 0) fun q => { q with fast := mbByte c 1 == 0, enable := true, size := size, mapPort := false }).instCmd c.mb.val 8
              (s.onMp (mbByte c 0) fun q => { q with fast := mbByte c 1 == 0, enable := true, size := size, mapPort := false }).pairScope (mbByte c 0) (mbLe c 8 8)).1)
  ∧ (∀ (size pair : Nat), MbxDoes (fun t c => .capAdd t c size pair)
      (fun c s => mbByte c 0 ≤ 31 ∧ mbByte c 1 ≤ 1 ∧ mbByte c 2 = 1 ∧ (s.mp (mbByte c 0)).present = false ∧ size ≠ 0 ∧ s.mapPair = none ∧ (s.mp (mbByte c 0 ^^^ 1)).present = false ∧ pair ≠ 0)
      fun c s => (((s.onMp (mbByte c 0) fun q => { q with fast := mbByte c 1 == 0, enable := true, size := size, mapPort := true }).onMp (mbByte c 0 ^^^ 1) fun q => { q with fast := mbByte c 1 == 0, enable := true, size := pair, mapPort := true }).instCmd c.mb.val 8 ((s.onMp (mbByte c 0) fun q => { q with fast := mbByte c 1 == 0, enable := true, size := size, mapPort := true }).onMp (mbByte c 0 ^^^ 1) fun q => { q with fast := mbByte c 1 == 0, enable := true, size := pair, mapPort := true }).pairScope (mbByte c 0) (mbLe c 8 8)).2.answer c.mb.val
          (((s.onMp (mbByte c 0) fun q => { q with fast := mbByte c 1 == 0, enable := true, size := size, mapPort := true }).onMp (mbByte c 0 ^^^ 1) fun q => { q with fast := mbByte c 1 == 0, enable := true, size := pair, mapPort := true }).instCmd c.mb.val 8 ((s.onMp (mbByte c 0) fun q => { q with fast := mbByte c 1 == 0, enable := true, size := size, mapPort := true }).onMp (mbByte c 0 ^^^ 1) fun q => { q with fast := mbByte c 1 == 0, enable := true, size := pair, mapPort := true }).pairScope (mbByte c 0) (mbLe c 8 8)).1)
  ∧ (∀ (size pair : Nat), MbxDoes (fun t c => .capAdd t c size pair)
      (fun c s => mbByte c 0 ≤ 31 ∧ mbByte c 1 ≤ 1 ∧ mbByte c 2 ≤ 1 ∧ ((s.mp (mbByte c 0)).present = true ∨ size = 0 ∨ (mbByte c 2 = 1 ∧ (s.mapPair.isSome = true ∨ (s.mp (mbByte c 0 ^^^ 1)).present = true ∨ pair = 0))))
      fun c s => s.refuses c 7)
  ∧ (MbxDoes (fun t c => .capRemove t c)
      (fun c s => mbByte c 0 ≤ 31 ∧ (s.mp (mbByte c 0)).mapPort = false ∧ (s.mp (mbByte c 0)).draining = false ∧ (s.mp (mbByte c 0)).present = true
          ∧ 101 * (s.mp (mbByte c 0)).countSt 1 ≤ 100 * sumOf s.freeHere (below 32 fun k => k != mbByte c 0 && (s.mp k).open'))
      fun c s => (s.onMp (mbByte c 0) fun q => { q with draining := true }).armRemoval.begins c (.capRemove (mbByte c 0))
          ((s.onMp (mbByte c 0) fun q => { q with draining := true }).drainMs (((s.onMp (mbByte c 0) fun q => { q with draining := true }).mp (mbByte c 0)).countSt 1)))
  ∧ (MbxDoes (fun t c => .capRemove t c)
      (fun c s => mbByte c 0 ≤ 31 ∧ (s.mp (mbByte c 0)).mapPort = false ∧ (s.mp (mbByte c 0)).draining = false ∧ (s.mp (mbByte c 0)).present = true
          ∧ 100 * sumOf s.freeHere (below 32 fun k => k != mbByte c 0 && (s.mp k).open') < 101 * (s.mp (mbByte c 0)).countSt 1)
      fun c s => s.refuses c 8)
  ∧ (MbxDoes (fun t c => .capRemove t c)
      (fun c s => mbByte c 0 ≤ 31 ∧ ((s.mp (mbByte c 0)).mapPort = true ∨ (s.mp (mbByte c 0)).draining = true ∨ (s.mp (mbByte c 0)).present = false))
      fun c s => s.refuses c 7)
  ∧ (MbxDoes (fun t c => .tractRethaw t c)
      (fun c s => mbByte c 0 = 0 ∧ s.frozenFor (mbLe c 4 4) = true)
      fun c s => s.begins c (.rethaw (mbLe c 4 4)) 0)
  ∧ (MbxDoes (fun t c => .tractRethaw t c)
      (fun c s => mbByte c 0 = 0 ∧ s.frozenFor (mbLe c 4 4) = false)
      fun c s => s.refuses c 7)
  ∧ (MbxDoes (fun t c => .tractRebuild t c)
      (fun c s => mbByte c 0 = 1 ∧ s.frozenFor (mbLe c 4 4) = true ∧ s.tierFree ((s.mapEntry (mbLe c 4 4)).any fun e => meOk (mbLe c 4 4) e && (s.mp (mePort e)).fast) ≠ 0)
      fun c s => s.begins c (.rebuild (mbLe c 4 4)) 0)
  ∧ (MbxDoes (fun t c => .tractRebuild t c)
      (fun c s => mbByte c 0 = 1 ∧ s.frozenFor (mbLe c 4 4) = true ∧ s.tierFree ((s.mapEntry (mbLe c 4 4)).any fun e => meOk (mbLe c 4 4) e && (s.mp (mePort e)).fast) = 0)
      fun c s => s.refuses c 8)
  ∧ (MbxDoes (fun t c => .tractRebuild t c)
      (fun c s => mbByte c 0 = 1 ∧ s.frozenFor (mbLe c 4 4) = false)
      fun c s => s.refuses c 7)
  ∧ (MbxDoes (fun t c => .dirRefresh t c)
      (fun _ s => s.place.refresh = false)
      fun c s => (s.onPlace fun q => { q with refresh := true }).begins c .dirRefresh 0xFFFFFFFF)
  ∧ (MbxDoes (fun t c => .dirRefresh t c)
      (fun _ s => s.place.refresh = true)
      fun c s => s.refuses c 7)
  ∧ (MbxDoes (fun t c => .shutdown t c)
      (fun _ s => s.pwr.stopping = false ∧ s.pwr.readyOff = false)
      fun c s => s.beginStop.begins c .shutdown 0xFFFFFFFF)
  ∧ (MbxDoes (fun t c => .shutdown t c)
      (fun _ s => s.pwr.stopping = true ∨ s.pwr.readyOff = true)
      fun c s => s.refuses c 7)

/-- Served: ALM_READ returns the next RECNO, up to MAX records later than FROM or all of the oldest for 0xFFFFFFFF, with the LOST
counts, and with ACK it sets the acknowledged RECNO to the last one it returns. FIRST_FAULT returns the first-fault record and
VALID; with 1 it also clears the record, and where the clear is refused (R562) it completes with 0x07, still returns the
record, and the ignored write is counted. CE_LOG returns a stook’s status and 32 log entries. LASTGASP returns the record of
slot 0 or 1, or the newer valid one, and 0x07 without a valid record. A field out of range gives 0x04 with its offset.
[13_line_integrity.md, 14_faults.md, 15_power_startup.md, 16_mailbox.md, R530, R562, R565, R566, R568, R605, R651] -/
def Obligations.FaultRecordsAreReadAndCleared : Prop :=
  (MbxDoes (fun t c => .almRead t c)
      (fun c _ => 1 ≤ mbByte c 4 ∧ mbByte c 4 ≤ 126 ∧ mbByte c 5 = 0)
      fun c s => s.completes c (leBytes 4 s.win.nextRec ++ leBytes 1 ((s.win.recs.filter fun r => mbLe c 0 4 == 0xFFFFFFFF || r.recno == mbLe c 0 4 || later32 r.recno (mbLe c 0 4)).take (mbByte c 4)).length
          ++ zeros 3 ++ ((List.range 5).map fun k => leBytes 4 (Tbl.get 0 s.live ((0x0A0940 + 8 * k) * 64) % 2 ^ 32)).flatten ++ zeros 4
          ++ (((s.win.recs.filter fun r => mbLe c 0 4 == 0xFFFFFFFF || r.recno == mbLe c 0 4 || later32 r.recno (mbLe c 0 4)).take (mbByte c 4)).map AlmRec.bytes).flatten))
  ∧ (∀ (r : AlmRec), MbxDoes (fun t c => .almRead t c)
      (fun c s => 1 ≤ mbByte c 4 ∧ mbByte c 4 ≤ 126 ∧ mbByte c 5 = 1 ∧ ((s.win.recs.filter fun r => mbLe c 0 4 == 0xFFFFFFFF || r.recno == mbLe c 0 4 || later32 r.recno (mbLe c 0 4)).take (mbByte c 4)).getLast? = some r)
      fun c s => (s.onWin fun w => { w with ack := r.recno }).completes c (leBytes 4 s.win.nextRec ++ leBytes 1 ((s.win.recs.filter fun r => mbLe c 0 4 == 0xFFFFFFFF || r.recno == mbLe c 0 4 || later32 r.recno (mbLe c 0 4)).take (mbByte c 4)).length ++ zeros 3
          ++ ((List.range 5).map fun k => leBytes 4 (Tbl.get 0 s.live ((0x0A0940 + 8 * k) * 64) % 2 ^ 32)).flatten ++ zeros 4 ++ (((s.win.recs.filter fun r => mbLe c 0 4 == 0xFFFFFFFF || r.recno == mbLe c 0 4 || later32 r.recno (mbLe c 0 4)).take (mbByte c 4)).map AlmRec.bytes).flatten))
  ∧ (MbxDoes (fun t c => .almRead t c)
      (fun c s => 1 ≤ mbByte c 4 ∧ mbByte c 4 ≤ 126 ∧ mbByte c 5 = 1 ∧ ((s.win.recs.filter fun r => mbLe c 0 4 == 0xFFFFFFFF || r.recno == mbLe c 0 4 || later32 r.recno (mbLe c 0 4)).take (mbByte c 4)).getLast? = none)
      fun c s => s.completes c (leBytes 4 s.win.nextRec ++ leBytes 1 ((s.win.recs.filter fun r => mbLe c 0 4 == 0xFFFFFFFF || r.recno == mbLe c 0 4 || later32 r.recno (mbLe c 0 4)).take (mbByte c 4)).length ++ zeros 3
          ++ ((List.range 5).map fun k => leBytes 4 (Tbl.get 0 s.live ((0x0A0940 + 8 * k) * 64) % 2 ^ 32)).flatten ++ zeros 4 ++ (((s.win.recs.filter fun r => mbLe c 0 4 == 0xFFFFFFFF || r.recno == mbLe c 0 4 || later32 r.recno (mbLe c 0 4)).take (mbByte c 4)).map AlmRec.bytes).flatten))
  ∧ (MbxDoes (fun t c => .almRead t c)
      (fun c _ => 1 ≤ mbByte c 4 ∧ mbByte c 4 ≤ 126 ∧ 1 < mbByte c 5)
      fun c s => s.badField c 5)
  ∧ (MbxDoes (fun t c => .almRead t c)
      (fun c _ => mbByte c 4 < 1 ∨ 126 < mbByte c 4)
      fun c s => s.badField c 4)
  ∧ (MbxDoes (fun t c => .firstFaultRead t c)
      (fun c _ => mbByte c 0 = 0)
      fun c s => s.completes c s.firstBytes)
  ∧ (MbxDoes (fun t c => .firstFaultClear t c)
      (fun c s => mbByte c 0 = 1 ∧ s.firstBusy = false)
      fun c s => (s.onWin fun w => { w with first := none }).completes c s.firstBytes)
  ∧ (MbxDoes (fun t c => .firstFaultClear t c)
      (fun c s => mbByte c 0 = 1 ∧ s.firstBusy = true)
      fun c s => (s.bumpWin 7 16 16).mbxDone c.mb.val 7 s.firstBytes 0xFFFFFFFF)
  ∧ (MbxDoes (fun t c => .ceLog t c)
      (fun c _ => mbByte c 0 ≤ 15)
      fun c s => s.completes c (leBytes 4 (s.stk (mbByte c 0)).ceStatus ++ (((s.stk (mbByte c 0)).ceLog.map CeEntry.bytes).flatten ++ zeros 1024).take 1024))
  ∧ (MbxDoes (fun t c => .ceLog t c)
      (fun c _ => 15 < mbByte c 0)
      fun c s => s.badField c 0)
  ∧ (∀ (b : List Byte), MbxDoes (fun t c => .lastgasp t c)
      (fun c s => mbByte c 0 ≤ 1 ∧ Tbl.find s.pwr.gasp (mbByte c 0) = some b)
      fun c s => s.completes c b)
  ∧ (∀ (k : Nat) (b : List Byte), MbxDoes (fun t c => .lastgasp t c)
      (fun c s => mbByte c 0 = 2 ∧ s.newerGasp = some k ∧ Tbl.find s.pwr.gasp k = some b)
      fun c s => s.completes c b)
  ∧ (MbxDoes (fun t c => .lastgasp t c)
      (fun c s => (mbByte c 0 ≤ 1 ∧ Tbl.find s.pwr.gasp (mbByte c 0) = none) ∨ (mbByte c 0 = 2 ∧ s.newerGasp = none))
      fun c s => s.refuses c 7)

/-- Served, COUNTER_READ with KIND 0 returns the time of the snapshot and COUNT words of the holding registers from FIRST, with
KIND 1 the frozen statistics records of COUNT numbers from FIRST. No valid snapshot gives status 0x07. A kind, offset or count
out of range gives 0x04 with the offset of its field. It changes nothing but its own mailbox. [12_rachis.md, 16_mailbox.md,
17_registers.md, R513, R652, R693] -/
def Obligations.CountersAreReadFromTheSnapshot : Prop :=
  (MbxDoes (fun t c => .counterRead t c)
      (fun c s => mbByte c 0 = 0 ∧ mbLe c 4 4 % 4 = 0 ∧ mbLe c 4 4 < 0x400000 ∧ 1 ≤ mbLe c 8 2 ∧ mbLe c 8 2 ≤ 1020 ∧ mbLe c 4 4 + 4 * mbLe c 8 2 ≤ 0x400000 ∧ s.blk.snapValid = true)
      fun c s => s.completes c (leBytes 8 s.blk.snapTime ++ ((List.range (mbLe c 8 2)).map fun k => leBytes 4 (s.holdWord (mbLe c 4 4 + 4 * k))).flatten))
  ∧ (MbxDoes (fun t c => .counterRead t c)
      (fun c s => mbByte c 0 = 1 ∧ mbLe c 4 4 ≤ 1172 ∧ 1 ≤ mbLe c 8 2 ∧ mbLe c 8 2 ≤ 63 ∧ mbLe c 4 4 + mbLe c 8 2 ≤ 1173 ∧ s.blk.snapValid = true)
      fun c s => s.completes c (leBytes 8 s.blk.snapTime ++ ((List.range (mbLe c 8 2)).map fun k => StatRec.bytes (Tbl.get default s.rch.frozen (mbLe c 4 4 + k))).flatten))
  ∧ (MbxDoes (fun t c => .counterRead t c)
      (fun c s => s.blk.snapValid = false ∧ ((mbByte c 0 = 0 ∧ mbLe c 4 4 % 4 = 0 ∧ mbLe c 4 4 < 0x400000 ∧ 1 ≤ mbLe c 8 2 ∧ mbLe c 8 2 ≤ 1020 ∧ mbLe c 4 4 + 4 * mbLe c 8 2 ≤ 0x400000)
          ∨ (mbByte c 0 = 1 ∧ mbLe c 4 4 ≤ 1172 ∧ 1 ≤ mbLe c 8 2 ∧ mbLe c 8 2 ≤ 63 ∧ mbLe c 4 4 + mbLe c 8 2 ≤ 1173)))
      fun c s => s.refuses c 7)
  ∧ (MbxDoes (fun t c => .counterRead t c)
      (fun c _ => 1 < mbByte c 0)
      fun c s => s.badField c 0)
  ∧ (MbxDoes (fun t c => .counterRead t c)
      (fun c _ => (mbByte c 0 = 0 ∧ (mbLe c 4 4 % 4 ≠ 0 ∨ 0x400000 ≤ mbLe c 4 4)) ∨ (mbByte c 0 = 1 ∧ 1172 < mbLe c 4 4))
      fun c s => s.badField c 4)
  ∧ (MbxDoes (fun t c => .counterRead t c)
      (fun c _ => (mbByte c 0 = 0 ∧ mbLe c 4 4 % 4 = 0 ∧ mbLe c 4 4 < 0x400000 ∧ (mbLe c 8 2 = 0 ∨ 1020 < mbLe c 8 2 ∨ 0x400000 < mbLe c 4 4 + 4 * mbLe c 8 2))
          ∨ (mbByte c 0 = 1 ∧ mbLe c 4 4 ≤ 1172 ∧ (mbLe c 8 2 = 0 ∨ 63 < mbLe c 8 2 ∨ 1173 < mbLe c 4 4 + mbLe c 8 2)))
      fun c s => s.badField c 8)

/-- Served: OTP_REPAIR with room for its repairs, OTP_DEFAULTS of 1 to 46 records none of which has form 3, OTP_FLASH_PW with a
password that is not zero, OTP_FACTORY_LOCK of a part that is not locked, and TWIN_PAIR start the job of groups 0, 3, 4, 5 and
2 and wait for it; OTP_FLASH_PW also hands the flash controller both passwords. While a job runs the command completes with
0x07; with every slot of its group written, or repairs without room, with 0x08. OTP_READ returns the payload of a valid slot,
or of the newest, zeros for FLASH_PW, and 0x07 without one. [09_twin.md, 13_line_integrity.md, 15_power_startup.md,
16_mailbox.md, R380, R537, R588, R613, R614, R616, R617, R653] -/
def Obligations.OtpCommandsAskForTheRailAndWait : Prop :=
  (∀ (rs : List Nat), MbxDoes (fun t c => .otpRepair t c)
      (fun _ s => s.pwr.otpJob = none ∧ otpFrozen s.pwr.otp 0 = false ∧ s.nextRepairs = some rs)
      fun c s => ((s.onPwr fun q => { q with otpJob := some ⟨0, packRecs 24 rs, c.mb.val⟩ }).send (.supervisor 1)).waitsFor c .otp)
  ∧ (∀ (rs : List Nat), MbxDoes (fun t c => .otpRepair t c)
      (fun _ s => s.pwr.otpJob.isSome = true ∧ s.nextRepairs = some rs)
      fun c s => s.refuses c 7)
  ∧ (MbxDoes (fun t c => .otpRepair t c)
      (fun _ s => s.nextRepairs = none)
      fun c s => (s.raiseC 0x5D8 (256 + 537) (some 2) 0 0 0 0).refuses c 8)
  ∧ (MbxDoes (fun t c => .otpDefaults t c)
      (fun c s => s.pwr.otpJob.isSome = true ∧ s.pwr.otpJob ≠ none ∧ 1 ≤ mbByte c 0 ∧ mbByte c 0 ≤ 46 ∧ c.input.length = 2 + 6 * mbByte c 0 ∧ (∀ k ∈ List.range (mbByte c 0), mbLe c (2 + 6 * k) 6 % 4 ≠ 3))
      fun c s => s.refuses c 7)
  ∧ (MbxDoes (fun t c => .otpFlashPw t c)
      (fun c s => s.pwr.otpJob.isSome = true ∧ mbLe c 0 16 ≠ 0)
      fun c s => s.refuses c 7)
  ∧ (MbxDoes (fun t c => .otpFactoryLock t c)
      (fun _ s => s.pwr.otpJob.isSome = true ∧ otpNewest s.pwr.otp 5 = none)
      fun c s => s.refuses c 7)
  ∧ (MbxDoes (fun t c => .otpFactoryLock t c)
      (fun _ s => s.pwr.otpJob = none ∧ otpFrozen s.pwr.otp 5 = true ∧ otpNewest s.pwr.otp 5 = none)
      fun c s => s.refuses c 8)
  ∧ (MbxDoes (fun t c => .twinPair t c)
      (fun c s => s.pwr.otpJob = none ∧ otpFrozen s.pwr.otp 2 = true ∧ mbByte c 10 ≤ 1)
      fun c s => s.refuses c 8)
  ∧ (MbxDoes (fun t c => .otpDefaults t c)
      (fun c s => s.pwr.otpJob = none ∧ otpFrozen s.pwr.otp 3 = false ∧ 1 ≤ mbByte c 0 ∧ mbByte c 0 ≤ 46 ∧ c.input.length = 2 + 6 * mbByte c 0 ∧ (∀ k ∈ List.range (mbByte c 0), mbLe c (2 + 6 * k) 6 % 4 ≠ 3))
      fun c s => ((s.onPwr fun q => { q with otpJob := some ⟨3, packRecs 48 ((List.range (mbByte c 0)).map fun k => mbLe c (2 + 6 * k) 6), c.mb.val⟩ }).send (.supervisor 1)).waitsFor c .otp)
  ∧ (MbxDoes (fun t c => .otpDefaults t c)
      (fun c s => s.pwr.otpJob = none ∧ otpFrozen s.pwr.otp 3 = true ∧ 1 ≤ mbByte c 0 ∧ mbByte c 0 ≤ 46 ∧ c.input.length = 2 + 6 * mbByte c 0 ∧ (∀ k ∈ List.range (mbByte c 0), mbLe c (2 + 6 * k) 6 % 4 ≠ 3))
      fun c s => s.refuses c 8)
  ∧ (MbxDoes (fun t c => .otpDefaults t c)
      (fun c _ => mbByte c 0 < 1 ∨ 46 < mbByte c 0 ∨ c.input.length ≠ 2 + 6 * mbByte c 0)
      fun c s => s.badField c 0)
  ∧ (MbxDoes (fun t c => .otpFlashPw t c)
      (fun c s => s.pwr.otpJob = none ∧ otpFrozen s.pwr.otp 4 = false ∧ mbLe c 0 16 ≠ 0)
      fun c s => ((((s.onPwr fun q => { q with otpJob := some ⟨4, mbLe c 0 16, c.mb.val⟩ }).send (.supervisor 1)).onPwr fun q => { q with grant := true }).send
          (.flashDirect ((s.otpUse 4).getD 0) (mbLe c 0 16))).waitsFor c .otp)
  ∧ (MbxDoes (fun t c => .otpFlashPw t c)
      (fun c _ => mbLe c 0 16 = 0)
      fun c s => s.badField c 0)
  ∧ (MbxDoes (fun t c => .otpFlashPw t c)
      (fun c s => s.pwr.otpJob = none ∧ otpFrozen s.pwr.otp 4 = true ∧ mbLe c 0 16 ≠ 0)
      fun c s => s.refuses c 8)
  ∧ (MbxDoes (fun t c => .otpFactoryLock t c)
      (fun _ s => s.pwr.otpJob = none ∧ otpFrozen s.pwr.otp 5 = false ∧ otpNewest s.pwr.otp 5 = none)
      fun c s => ((s.onPwr fun q => { q with otpJob := some ⟨5, 0, c.mb.val⟩ }).send (.supervisor 1)).waitsFor c .otp)
  ∧ (MbxDoes (fun t c => .otpFactoryLock t c)
      (fun _ s => (otpNewest s.pwr.otp 5).isSome = true)
      fun c s => s.refuses c 7)
  ∧ (MbxDoes (fun t c => .twinPair t c)
      (fun c s => s.pwr.otpJob = none ∧ otpFrozen s.pwr.otp 2 = false ∧ mbByte c 10 ≤ 1)
      fun c s => ((s.onPwr fun q => { q with otpJob := some ⟨2, mbByte c 10 + 2 * mbLe c 8 2 + 2 ^ 17 * mbLe c 0 8, c.mb.val⟩ }).send (.supervisor 1)).waitsFor c .otp)
  ∧ (MbxDoes (fun t c => .twinPair t c)
      (fun c _ => 1 < mbByte c 10)
      fun c s => s.badField c 10)
  ∧ (MbxDoes (fun t c => .twinPair t c)
      (fun c s => s.pwr.otpJob.isSome = true ∧ mbByte c 10 ≤ 1)
      fun c s => s.refuses c 7)
  ∧ (∀ (i : Nat), MbxDoes (fun t c => .otpRead t c)
      (fun c s => mbByte c 0 ≤ 5 ∧ mbByte c 0 ≠ 4 ∧ mbByte c 1 = 0xFF ∧ otpNewest s.pwr.otp (mbByte c 0) = some i)
      fun c s => s.completes c (leBytes (otpBits (mbByte c 0) / 8) (otpPayload s.pwr.otp (mbByte c 0) i)))
  ∧ (MbxDoes (fun t c => .otpRead t c)
      (fun c s => mbByte c 0 ≤ 5 ∧ mbByte c 0 ≠ 4 ∧ mbByte c 1 ≤ 3 ∧ otpValid s.pwr.otp (mbByte c 0) (mbByte c 1) = true)
      fun c s => s.completes c (leBytes (otpBits (mbByte c 0) / 8) (otpPayload s.pwr.otp (mbByte c 0) (mbByte c 1))))
  ∧ (MbxDoes (fun t c => .otpRead t c)
      (fun c s => mbByte c 0 = 4 ∧ mbByte c 1 = 0xFF ∧ (otpNewest s.pwr.otp 4).isSome = true)
      fun c s => s.completes c (zeros 16))
  ∧ (MbxDoes (fun t c => .otpRead t c)
      (fun c s => mbByte c 0 = 4 ∧ mbByte c 1 ≤ 3 ∧ otpValid s.pwr.otp 4 (mbByte c 1) = true)
      fun c s => s.completes c (zeros 16))
  ∧ (MbxDoes (fun t c => .otpRead t c)
      (fun c s => mbByte c 0 ≤ 5 ∧ mbByte c 1 ≤ 3 ∧ otpValid s.pwr.otp (mbByte c 0) (mbByte c 1) = false)
      fun c s => s.refuses c 7)
  ∧ (MbxDoes (fun t c => .otpRead t c)
      (fun c s => mbByte c 0 ≤ 5 ∧ mbByte c 1 = 0xFF ∧ otpNewest s.pwr.otp (mbByte c 0) = none)
      fun c s => s.refuses c 7)

/-- Served: FLASH_INFO and GET_FW_INFO answer the bytes of their tables. BOOT_SELECT, and ACTIVATE_FW offline, program the copy of
the selector that is not in force with GEN one higher and the block named, and wait; BOOT_SELECT of the block already named,
or of an image that fails its check, gives 0x07, ACTIVATE_FW of such an image 0x04, online activation 0x02. An initiating
TRANSFER_FW of the slot not booted marks the block invalid, erases it and starts in the background; a later part programs its
bytes and waits; an abort ends the transfer; another mailbox’s transfer gives 0x07. RETIRE_RANGE retires a run of a port’s
tracts and counts them; RETIRE_CLEAR_ENTRY removes one entry of a stook’s log, 0x07 when it holds none. [10_placement.md,
16_mailbox.md, R471, R654, R655, R657, R659, R661] -/
def Obligations.FlashAndRetirementCommands : Prop :=
  (MbxDoes (fun t c => .flashInfo t c)
      (fun _ _ => True)
      fun c s => s.completes c (leBytes 1 (b2n s.pwr.bootBlock) ++ leBytes 1 (b2n (s.selector.getD (0, 0, false)).2.2)
          ++ leBytes 1 (b2n (Tbl.get (false, 0, 0) s.pwr.images 0).1 + 2 * b2n (Tbl.get (false, 0, 0) s.pwr.images 1).1 + 4 * b2n s.pwr.fellBack) ++ zeros 1
          ++ leBytes 4 (s.selector.getD (0, 0, false)).2.1 ++ leBytes 8 (Tbl.get (false, 0, 0) s.pwr.images 0).2.1 ++ leBytes 8 (Tbl.get (false, 0, 0) s.pwr.images 1).2.1
          ++ leBytes 4 (Tbl.get (false, 0, 0) s.pwr.images 0).2.2 ++ leBytes 4 (Tbl.get (false, 0, 0) s.pwr.images 1).2.2 ++ zeros 32))
  ∧ (MbxDoes (fun t c => .getFwInfo t c)
      (fun _ _ => True)
      fun c s => s.completes c ([2, BitVec.ofNat 8 (1 + b2n s.pwr.bootBlock + 8 * (match s.selector with
              | some x => 1 + b2n x.2.2
              | none => 0)), 0] ++ zeros 13 ++ (leBytes 8 (Tbl.get (false, 0, 0) s.pwr.images 0).2.1 ++ zeros 8)
          ++ (leBytes 8 (Tbl.get (false, 0, 0) s.pwr.images 1).2.1 ++ zeros 8) ++ zeros 32))
  ∧ (MbxDoes (fun t c => .bootSelect t c true)
      (fun c s => mbByte c 0 ≤ 1 ∧ (s.selector.any fun x => x.2.2 == (mbByte c 0 == 1)) = false ∧ s.pwr.flashJob = none)
      fun c s => (s.fresh.2.flashStart c.mb.val (.selector ((s.selector.map fun x => (1 - x.1, (x.2.1 + 1) % 2 ^ 32)).getD (0, 1)).1 ((s.selector.map fun x => (1 - x.1, (x.2.1 + 1) % 2 ^ 32)).getD (0, 1)).2 (mbByte c 0 == 1)) [flashDesc 4 (0x1000 * ((s.selector.map fun x => (1 - x.1, (x.2.1 + 1) % 2 ^ 32)).getD (0, 1)).1) 0 0 (some c.mb.val), flashDesc 3 (0x1000 * ((s.selector.map fun x => (1 - x.1, (x.2.1 + 1) % 2 ^ 32)).getD (0, 1)).1) 0 0 (some c.mb.val),
          flashDesc 2 (0x1000 * ((s.selector.map fun x => (1 - x.1, (x.2.1 + 1) % 2 ^ 32)).getD (0, 1)).1) (s.fresh.1.toNat % 2 ^ 22) 4096 (some c.mb.val)]).waitsFor c (.flash 0))
  ∧ (∀ (ok : Bool), MbxDoes (fun t c => .bootSelect t c ok)
      (fun c s => mbByte c 0 ≤ 1 ∧ ((s.selector.any fun x => x.2.2 == (mbByte c 0 == 1)) = true ∨ s.pwr.flashJob.isSome = true))
      fun c s => s.refuses c 7)
  ∧ (MbxDoes (fun t c => .bootSelect t c false)
      (fun c _ => mbByte c 0 ≤ 1)
      fun c s => s.refuses c 7)
  ∧ (MbxDoes (fun t c => .activateFw t c true)
      (fun c s => mbByte c 0 = 1 ∧ (mbByte c 1 = 1 ∨ mbByte c 1 = 2) ∧ s.pwr.flashJob = none)
      fun c s => (s.fresh.2.flashStart c.mb.val (.selector ((s.selector.map fun x => (1 - x.1, (x.2.1 + 1) % 2 ^ 32)).getD (0, 1)).1 ((s.selector.map fun x => (1 - x.1, (x.2.1 + 1) % 2 ^ 32)).getD (0, 1)).2 (mbByte c 1 == 2)) [flashDesc 4 (0x1000 * ((s.selector.map fun x => (1 - x.1, (x.2.1 + 1) % 2 ^ 32)).getD (0, 1)).1) 0 0 (some c.mb.val), flashDesc 3 (0x1000 * ((s.selector.map fun x => (1 - x.1, (x.2.1 + 1) % 2 ^ 32)).getD (0, 1)).1) 0 0 (some c.mb.val),
          flashDesc 2 (0x1000 * ((s.selector.map fun x => (1 - x.1, (x.2.1 + 1) % 2 ^ 32)).getD (0, 1)).1) (s.fresh.1.toNat % 2 ^ 22) 4096 (some c.mb.val)]).waitsFor c (.flash 0))
  ∧ (MbxDoes (fun t c => .activateFw t c true)
      (fun c s => mbByte c 0 = 1 ∧ (mbByte c 1 = 1 ∨ mbByte c 1 = 2) ∧ s.pwr.flashJob.isSome = true)
      fun c s => s.refuses c 7)
  ∧ (∀ (ok : Bool), MbxDoes (fun t c => .activateFw t c ok)
      (fun c _ => mbByte c 0 = 0)
      fun c s => s.refuses c 2)
  ∧ (MbxDoes (fun t c => .activateFw t c false)
      (fun c _ => mbByte c 0 = 1)
      fun c s => s.badField c 1)
  ∧ (MbxDoes (fun t c => .transferFw t c)
      (fun c s => mbByte c 0 ≤ 1 ∧ s.presenceOpen = true ∧ (s.pwr.xfer.any fun x => x.1 != c.mb.val) = false ∧ (mbByte c 1 = 1 ∨ mbByte c 1 = 2) ∧ mbByte c 1 - 1 ≠ b2n s.pwr.bootBlock ∧ s.pwr.flashJob = none)
      fun c s => ((s.onPwr fun p => { p with xfer := some (c.mb.val, mbByte c 1 - 1), images := Tbl.set p.images (mbByte c 1 - 1) (false, 0, 0) }).fresh.2.flashStart c.mb.val (.image (mbByte c 1 - 1) (mbByte c 0 == 0)) (flashDesc 4 (blockOff (mbByte c 1 - 1)) 0 0 (some c.mb.val)
          :: ((List.range 512).map fun k => flashDesc 3 (blockOff (mbByte c 1 - 1) + 65536 * k) 0 0 (some c.mb.val))
          ++ (if c.input.length - 128 = 0 then [] else [flashDesc 2 (blockOff (mbByte c 1 - 1) + 128 * mbLe c 4 4) ((s.onPwr fun p => { p with xfer := some (c.mb.val, mbByte c 1 - 1), images := Tbl.set p.images (mbByte c 1 - 1) (false, 0, 0) }).fresh.1.toNat % 2 ^ 22) (c.input.length - 128) (some c.mb.val)]))).begins c (.transferFw (mbByte c 1 - 1)) 0xFFFFFFFF)
  ∧ (MbxDoes (fun t c => .transferFw t c)
      (fun c s => mbByte c 0 ≤ 1 ∧ s.presenceOpen = false)
      fun c s => s.refuses c 3)
  ∧ (MbxDoes (fun t c => .transferFw t c)
      (fun c s => mbByte c 0 ≤ 4 ∧ (mbByte c 0 ≤ 1 → s.presenceOpen = true) ∧ ((s.pwr.xfer.any fun x => x.1 != c.mb.val) = true ∨ s.pwr.flashJob.isSome = true))
      fun c s => s.refuses c 7)
  ∧ (MbxDoes (fun t c => .transferFw t c)
      (fun c s => mbByte c 0 ≤ 4 ∧ (mbByte c 0 ≤ 1 → s.presenceOpen = true) ∧ s.pwr.xfer = none ∧ s.pwr.flashJob = none ∧ (mbByte c 1 = 0 ∨ 2 < mbByte c 1 ∨ mbByte c 1 - 1 = b2n s.pwr.bootBlock))
      fun c s => s.badField c 1)
  ∧ (MbxDoes (fun t c => .transferFw t c)
      (fun c s => 2 ≤ mbByte c 0 ∧ mbByte c 0 ≤ 4 ∧ s.pwr.xfer = none ∧ (mbByte c 1 = 1 ∨ mbByte c 1 = 2) ∧ mbByte c 1 - 1 ≠ b2n s.pwr.bootBlock ∧ s.pwr.flashJob = none)
      fun c s => s.badField c 0)
  ∧ (MbxDoes (fun t c => .transferFw t c)
      (fun c s => (mbByte c 0 = 2 ∨ mbByte c 0 = 3) ∧ s.pwr.xfer = some (c.mb.val, mbByte c 1 - 1) ∧ (mbByte c 1 = 1 ∨ mbByte c 1 = 2) ∧ mbByte c 1 - 1 ≠ b2n s.pwr.bootBlock ∧ s.pwr.flashJob = none)
      fun c s => (s.fresh.2.flashStart c.mb.val (.image (mbByte c 1 - 1) (mbByte c 0 == 3)) (flashDesc 4 (blockOff (mbByte c 1 - 1)) 0 0 (some c.mb.val)
          :: []
          ++ (if c.input.length - 128 = 0 then [] else [flashDesc 2 (blockOff (mbByte c 1 - 1) + 128 * mbLe c 4 4) (s.fresh.1.toNat % 2 ^ 22) (c.input.length - 128) (some c.mb.val)]))).waitsFor c (.flash 0))
  ∧ (MbxDoes (fun t c => .transferFw t c)
      (fun c s => mbByte c 0 = 4 ∧ s.pwr.xfer = some (c.mb.val, mbByte c 1 - 1) ∧ (mbByte c 1 = 1 ∨ mbByte c 1 = 2) ∧ mbByte c 1 - 1 ≠ b2n s.pwr.bootBlock ∧ s.pwr.flashJob = none)
      fun c s => (s.onPwr fun p => { p with xfer := none }).completes c [])
  ∧ (MbxDoes (fun t c => .retireRange t c)
      (fun c s => mbByte c 0 = 0 ∧ mbByte c 1 ≤ 31 ∧ (s.mp (mbByte c 1)).present = true ∧ mbLe c 4 4 + mbLe c 8 4 ≤ (s.mp (mbByte c 1)).dataTracts + (s.mp (mbByte c 1)).deviceTracts)
      fun c s => (State.retireRun (mbByte c 1) (mbLe c 8 4) (mbLe c 4 4) 0 s).2.completes c (leBytes 4 (State.retireRun (mbByte c 1) (mbLe c 8 4) (mbLe c 4 4) 0 s).1))
  ∧ (MbxDoes (fun t c => .retireRange t c)
      (fun c s => mbByte c 0 = 0 ∧ mbByte c 1 ≤ 31 ∧ (s.mp (mbByte c 1)).present = true ∧ (s.mp (mbByte c 1)).dataTracts + (s.mp (mbByte c 1)).deviceTracts < mbLe c 4 4 + mbLe c 8 4)
      fun c s => s.badField c 4)
  ∧ (MbxDoes (fun t c => .retireRange t c)
      (fun c s => mbByte c 0 = 0 ∧ (31 < mbByte c 1 ∨ (s.mp (mbByte c 1)).present = false))
      fun c s => s.badField c 1)
  ∧ (MbxDoes (fun t c => .retireClearEntry t c)
      (fun c _ => mbByte c 0 = 1 ∧ 15 < mbByte c 1)
      fun c s => s.badField c 1)
  ∧ (MbxDoes (fun t c => .retireClearEntry t c)
      (fun c s => mbByte c 0 = 1 ∧ mbByte c 1 ≤ 15 ∧ mbByte c 2 < (s.stk (mbByte c 1)).ceLog.length)
      fun c s => (s.onStk (mbByte c 1) fun q => { q with ceLog := q.ceLog.eraseIdx (mbByte c 2) }).completes c (zeros 4))
  ∧ (MbxDoes (fun t c => .retireClearEntry t c)
      (fun c s => mbByte c 0 = 1 ∧ mbByte c 1 ≤ 15 ∧ (s.stk (mbByte c 1)).ceLog.length ≤ mbByte c 2)
      fun c s => s.refuses c 7)

/-- BG_ABORT sets BG_ABORT of a mailbox whose background work runs. COMMAND_TIMEOUT, once 10 ms have passed since acceptance: a
command that waits for a slot that can still be cancelled, or for the flash, completes with 0x06, and the slot is cancelled or
the flash command ends; a command that waits for the OTP or for lines, which no peer answers, and one within its 10 ms, is not
touched. BACKGROUND_COMPLETE does nothing where no work runs; with status 0 the work’s effect happens (the partition is
created, resized, destroyed or sanitized, the plate released, the tract rethawed or rebuilt, the twin in service), with
another it does not, and the work ends with that status in BG_STATUS. CAP_REMOVE and DIR_REFRESH end so only when the caller
asked them to abort. [10_placement.md, 16_mailbox.md, R469, R625, R626, R628, R629, R630, R632, R645] -/
def Obligations.MailboxControlsAbortTimeOutAndComplete : Prop :=
  (∀ (mb : MbxId), Does (fun t => .bgAbort t mb)
      (fun s => (s.box mb.val).bgRun = true)
      fun s => s.onBox mb.val fun b => { b with bgAbort := true })
  ∧ (∀ (mb : MbxId), Does (fun t => .bgAbort t mb)
      (fun s => (s.box mb.val).bgRun = false)
      fun s => s.onBox mb.val fun b => b)
  ∧ (∀ (mb : MbxId), Does (fun t => .commandTimeout t mb)
      (fun s => (s.box mb.val).doorbell = false ∨ s.time < (s.box mb.val).acceptAt + 10000000)
      fun s => s)
  ∧ (∀ (mb : MbxId) (k : Nat), Does (fun t => .commandTimeout t mb)
      (fun s => (s.box mb.val).doorbell = true ∧ (s.box mb.val).acceptAt + 10000000 ≤ s.time ∧ (s.box mb.val).wait = some (.slot k) ∧ (s.slot k).st = .armed ∧ s.now + leadNs (s.slot k).scope < (s.slot k).time)
      fun s => ((s.mbxDone mb.val 6 [] 0xFFFFFFFF).cancelSlot k).2)
  ∧ (∀ (mb : MbxId) (k : Nat), Does (fun t => .commandTimeout t mb)
      (fun s => (s.box mb.val).wait = some (.slot k) ∧ ¬((s.slot k).st = .armed ∧ s.now + leadNs (s.slot k).scope < (s.slot k).time))
      fun s => s)
  ∧ (∀ (mb : MbxId) (k : Nat), Does (fun t => .commandTimeout t mb)
      (fun s => (s.box mb.val).doorbell = true ∧ (s.box mb.val).acceptAt + 10000000 ≤ s.time ∧ (s.box mb.val).wait = some (.flash k))
      fun s => (s.mbxDone mb.val 6 [] 0xFFFFFFFF).flashEnd)
  ∧ (∀ (mb : MbxId), Does (fun t => .commandTimeout t mb)
      (fun s => (s.box mb.val).wait = none ∨ (s.box mb.val).wait = some .otp ∨ (s.box mb.val).wait = some .line ∨ ∃ k, (s.box mb.val).wait = some (.lines k))
      fun s => s)
  ∧ (∀ (mb : MbxId) (v : Fin 9), Does (fun t => .backgroundComplete t mb v)
      (fun s => (s.box mb.val).bg = none ∨ (s.box mb.val).bgRun = false)
      fun s => s)
  ∧ (∀ (mb : MbxId) (p : Nat) (v : Fin 9), Does (fun t => .backgroundComplete t mb v)
      (fun s => (s.box mb.val).bg = some (.partCreate p) ∧ (s.box mb.val).bgRun = true)
      fun s => (if v.val = 0 then s.created p else s).bgEnd mb.val v.val [])
  ∧ (∀ (mb : MbxId) (p n : Nat) (v : Fin 9), Does (fun t => .backgroundComplete t mb v)
      (fun s => (s.box mb.val).bg = some (.partResize p n) ∧ (s.box mb.val).bgRun = true)
      fun s => (if v.val = 0 then s.resized p n else s).bgEnd mb.val v.val [])
  ∧ (∀ (mb : MbxId) (p : Nat) (e : Bool) (v : Fin 9), Does (fun t => .backgroundComplete t mb v)
      (fun s => (s.box mb.val).bg = some (.partDestroy p e) ∧ (s.box mb.val).bgRun = true)
      fun s => (if v.val = 0 then s.destroyed p else s).bgEnd mb.val v.val [])
  ∧ (∀ (mb : MbxId) (p : Nat) (v : Fin 9), Does (fun t => .backgroundComplete t mb v)
      (fun s => (s.box mb.val).bg = some (.sanitize p) ∧ (s.box mb.val).bgRun = true)
      fun s => (if v.val = 0 then s.sanitized p else s).bgEnd mb.val v.val [])
  ∧ (∀ (mb : MbxId) (p j : Nat) (v : Fin 9), Does (fun t => .backgroundComplete t mb v)
      (fun s => (s.box mb.val).bg = some (.plateRelease p j) ∧ (s.box mb.val).bgRun = true ∧ s.plateRead p j = false)
      fun s => (if v.val = 0 then s.released p j else s).bgEnd mb.val v.val [])
  ∧ (∀ (mb : MbxId) (p j : Nat) (v : Fin 9), Does (fun t => .backgroundComplete t mb v)
      (fun s => (s.box mb.val).bg = some (.plateRelease p j) ∧ (s.box mb.val).bgRun = true ∧ s.plateRead p j = true)
      fun s => s)
  ∧ (∀ (mb : MbxId) (m : Nat), Does (fun t => .backgroundComplete t mb 5)
      (fun s => (s.box mb.val).bg = some (.capRemove m) ∧ (s.box mb.val).bgRun = true ∧ (s.box mb.val).bgAbort = true)
      fun s => (s.onMp m fun q => { q with draining := false }).bgEnd mb.val 5 [])
  ∧ (∀ (mb : MbxId), Does (fun t => .backgroundComplete t mb 0)
      (fun s => (s.box mb.val).bg = some (.dirRefresh) ∧ (s.box mb.val).bgRun = true ∧ s.place.refresh = false)
      fun s => s.bgEnd mb.val 0 [])
  ∧ (∀ (mb : MbxId) (v : Fin 9), Does (fun t => .backgroundComplete t mb v)
      (fun s => (s.box mb.val).bg = some (.shutdown) ∧ (s.box mb.val).bgRun = true ∧ s.pwr.readyOff = true)
      fun s => s.bgEnd mb.val 0 [])
  ∧ (∀ (mb : MbxId) (v : Fin 9), Does (fun t => .backgroundComplete t mb v)
      (fun s => (s.box mb.val).bg = some (.twinDrill) ∧ (s.box mb.val).bgRun = true)
      fun s => (if v.val = 0 then (s.onTwin fun w => { w with st := .abdicated, roles := 0 }).abandonSlots else s).bgEnd mb.val v.val [])
  ∧ (∀ (mb : MbxId) (tr : Nat) (v : Fin 9), Does (fun t => .backgroundComplete t mb v)
      (fun s => (s.box mb.val).bg = some (.rethaw tr) ∧ (s.box mb.val).bgRun = true)
      fun s => (if v.val = 0 then s.rethawed tr else s).bgEnd mb.val v.val ((if v.val = 0 then s.rethawed tr else s).tractState tr))
  ∧ (∀ (mb : MbxId) (tr : Nat) (v : Fin 9), Does (fun t => .backgroundComplete t mb v)
      (fun s => (s.box mb.val).bg = some (.rebuild tr) ∧ (s.box mb.val).bgRun = true)
      fun s => (if v.val = 0 then s.rebuild tr else s).bgEnd mb.val v.val ((if v.val = 0 then s.rebuild tr else s).tractState tr))
  ∧ (∀ (mb : MbxId) (b : Nat) (v : Fin 9), Does (fun t => .backgroundComplete t mb v)
      (fun s => (s.box mb.val).bg = some (.transferFw b) ∧ (s.box mb.val).bgRun = true ∧ (s.pwr.flashJob.any fun j => j.mb == mb.val && j.cur.isNone && !j.bad) = true)
      fun s => s.flashEnd.bgEnd mb.val v.val [])

/-- For each of the 84 commands of the mailboxes. While Alidade serves no mailbox it has no effect. From a host port that is no
member of the partition its writes are ignored and counted in the partition’s refusal counter. While a command runs on the
mailbox its writes are ignored and counted, and the management mailbox answers at once with status 0x07. Where it is accepted
and a common check fails (the fail-safe state, a mailbox that may not issue it, presence, seal, an ENABLED partition, the
input length, a reserved byte, the PART field, running background work) it completes with that check’s status and DETAIL. The
order in which the checks are made is assumption log 12. [14_faults.md, 16_mailbox.md, R574, R623, R626, R629, R633, R635,
R636, R639] -/
def Obligations.MailboxCommandsThatAreNotServed : Prop :=
  (∀ (i : Instr) (t : Ns) (c : Mbx) (op : Nat) (k : CmdKind) (s : State), i.mailbox = some (t, c, op, k) →
        (s.tick t).alidadeUp = false →
        exec i s = .next (s.tick t))
  ∧ (∀ (i : Instr) (t : Ns) (c : Mbx) (op : Nat) (k : CmdKind) (s : State), i.mailbox = some (t, c, op, k) →
        (s.tick t).alidadeUp = true ∧ c.mb.val < 64 ∧ (s.tick t).member c.host.val c.mb.val = false →
        exec i s = .next ((s.tick t).bump (0x0A0000 + 16 * c.mb.val) 16 32 (mbWrites c)))
  ∧ (∀ (i : Instr) (t : Ns) (c : Mbx) (op : Nat) (k : CmdKind) (s : State), i.mailbox = some (t, c, op, k) →
        (s.tick t).alidadeUp = true ∧ (64 ≤ c.mb.val ∨ (s.tick t).member c.host.val c.mb.val = true) ∧ c.mb.val ≠ 64 ∧ ((s.tick t).box c.mb.val).doorbell = true →
        exec i s = .next ((s.tick t).mbxIgnored c.mb.val (mbWrites c)))
  ∧ (∀ (i : Instr) (t : Ns) (c : Mbx) (op : Nat) (k : CmdKind) (s : State), i.mailbox = some (t, c, op, k) →
        (s.tick t).alidadeUp = true ∧ c.mb.val = 64 ∧ ((s.tick t).box c.mb.val).doorbell = true →
        exec i s = .next ((s.tick t).send (.mgmtReply 7)))
  ∧ (∀ (i : Instr) (t : Ns) (c : Mbx) (op : Nat) (k : CmdKind) (s : State) (st d : Nat), i.mailbox = some (t, c, op, k) →
        (s.tick t).alidadeUp = true ∧ (64 ≤ c.mb.val ∨ (s.tick t).member c.host.val c.mb.val = true) ∧ ((s.tick t).box c.mb.val).doorbell = false ∧ ((s.tick t).accept c op k.otp).commonCheck c k = some (st, d) →
        exec i s = .next (((s.tick t).accept c op k.otp).mbxDone c.mb.val st [] d))
  ∧ (∀ (s : State) (c : Mbx) (k : CmdKind),
        (s.win.failsafe = true ∧ (c.mb.val < 64 ∨ k.failsafe = false) → s.commonCheck c k = some (7, 0xFFFFFFFF)) ∧
        (s.win.failsafe = false → (c.mb.val < 64 ∧ k.a = false) ∨ (k.service = true ∧ c.mb.val ≠ 65) → s.commonCheck c k = some (2, 0xFFFFFFFF)) ∧
        (s.win.failsafe = false → (64 ≤ c.mb.val ∨ k.a = true) ∧ (k.service = false ∨ c.mb.val = 65) →
          ((k.presence = true ∧ s.presenceOpen = false) ∨ (k.otp = true ∧ c.otpSeal = false) → s.commonCheck c k = some (3, 0xFFFFFFFF)) ∧
          ((k.presence = false ∨ s.presenceOpen = true) ∧ (k.otp = false ∨ c.otpSeal = true) →
            (k.otp = true ∧ s.anyEnabled = true → s.commonCheck c k = some (7, 0xFFFFFFFF)) ∧
            ((k.otp = false ∨ s.anyEnabled = false) →
              (c.input.length < k.len.1 ∨ k.len.2 < c.input.length → s.commonCheck c k = some (4, 0)) ∧
              (k.len.1 ≤ c.input.length ∧ c.input.length ≤ k.len.2 → ∀ i, (k.rsv.find? fun i => mbByte c i != 0) = some i → s.commonCheck c k = some (4, i)) ∧
              (k.len.1 ≤ c.input.length ∧ c.input.length ≤ k.len.2 → (k.rsv.find? fun i => mbByte c i != 0) = none → ∀ i, k.part = some i →
                (63 < mbByte c i → s.commonCheck c k = some (4, i)) ∧
                (mbByte c i ≤ 63 ∧ c.mb.val < 64 ∧ mbByte c i ≠ c.mb.val → s.commonCheck c k = some (2, i)))))))
end

