-- ==== Sys2Proof/Laws/State.lean ====
section
/-! SUPPORT. What each update of the state leaves of each field: one lemma a field and update, true by unfolding, and the read-after-write
laws of the sparse tables and of the units they hold. -/

namespace Sys2Proof.Machine

set_option Elab.async false

variable (s : State)

/-! ### State.onPart -/
@[simp] theorem State.onPart_pending (p : Nat) (f : Part → Part) : (s.onPart p f).pending = s.pending := rfl
@[simp] theorem State.onPart_now (p : Nat) (f : Part → Part) : (s.onPart p f).now = s.now := rfl
@[simp] theorem State.onPart_free (p : Nat) (f : Part → Part) : (s.onPart p f).free = s.free := rfl
@[simp] theorem State.onPart_out (p : Nat) (f : Part → Part) : (s.onPart p f).out = s.out := rfl
@[simp] theorem State.onPart_parts (p : Nat) (f : Part → Part) : (s.onPart p f).parts = Tbl.set s.parts p (f (s.part p)) := rfl
@[simp] theorem State.onPart_hosts (p : Nat) (f : Part → Part) : (s.onPart p f).hosts = s.hosts := rfl
@[simp] theorem State.onPart_intakes (p : Nat) (f : Part → Part) : (s.onPart p f).intakes = s.intakes := rfl
@[simp] theorem State.onPart_slices (p : Nat) (f : Part → Part) : (s.onPart p f).slices = s.slices := rfl
@[simp] theorem State.onPart_stooks (p : Nat) (f : Part → Part) : (s.onPart p f).stooks = s.stooks := rfl
@[simp] theorem State.onPart_mports (p : Nat) (f : Part → Part) : (s.onPart p f).mports = s.mports := rfl
@[simp] theorem State.onPart_mer (p : Nat) (f : Part → Part) : (s.onPart p f).mer = s.mer := rfl
@[simp] theorem State.onPart_twin (p : Nat) (f : Part → Part) : (s.onPart p f).twin = s.twin := rfl
@[simp] theorem State.onPart_place (p : Nat) (f : Part → Part) : (s.onPart p f).place = s.place := rfl
@[simp] theorem State.onPart_dirGen (p : Nat) (f : Part → Part) : (s.onPart p f).dirGen = s.dirGen := rfl
@[simp] theorem State.onPart_events (p : Nat) (f : Part → Part) : (s.onPart p f).events = s.events := rfl
@[simp] theorem State.onPart_evSeq (p : Nat) (f : Part → Part) : (s.onPart p f).evSeq = s.evSeq := rfl
@[simp] theorem State.onPart_evLost (p : Nat) (f : Part → Part) : (s.onPart p f).evLost = s.evLost := rfl
@[simp] theorem State.onPart_live (p : Nat) (f : Part → Part) : (s.onPart p f).live = s.live := rfl
@[simp] theorem State.onPart_holding (p : Nat) (f : Part → Part) : (s.onPart p f).holding = s.holding := rfl
@[simp] theorem State.onPart_ignLast (p : Nat) (f : Part → Part) : (s.onPart p f).ignLast = s.ignLast := rfl
@[simp] theorem State.onPart_credits (p : Nat) (f : Part → Part) : (s.onPart p f).credits = s.credits := rfl
@[simp] theorem State.onPart_resends (p : Nat) (f : Part → Part) : (s.onPart p f).resends = s.resends := rfl
@[simp] theorem State.onPart_win (p : Nat) (f : Part → Part) : (s.onPart p f).win = s.win := rfl
@[simp] theorem State.onPart_rch (p : Nat) (f : Part → Part) : (s.onPart p f).rch = s.rch := rfl
@[simp] theorem State.onPart_blk (p : Nat) (f : Part → Part) : (s.onPart p f).blk = s.blk := rfl
@[simp] theorem State.onPart_pwr (p : Nat) (f : Part → Part) : (s.onPart p f).pwr = s.pwr := rfl
@[simp] theorem State.onPart_mbx (p : Nat) (f : Part → Part) : (s.onPart p f).mbx = s.mbx := rfl
@[simp] theorem State.onPart_blkLogs (p : Nat) (f : Part → Part) : (s.onPart p f).blkLogs = s.blkLogs := rfl
@[simp] theorem State.onPart_scratch (p : Nat) (f : Part → Part) : (s.onPart p f).scratch = s.scratch := rfl
@[simp] theorem State.onPart_groups (p : Nat) (f : Part → Part) : (s.onPart p f).groups = s.groups := rfl
@[simp] theorem State.onPart_adminBars (p : Nat) (f : Part → Part) : (s.onPart p f).adminBars = s.adminBars := rfl
@[simp] theorem State.onPart_lastLoss (p : Nat) (f : Part → Part) : (s.onPart p f).lastLoss = s.lastLoss := rfl
@[simp] theorem State.onPart_clk (p : Nat) (f : Part → Part) : (s.onPart p f).clk = s.clk := rfl

/-! ### State.onHp -/
@[simp] theorem State.onHp_pending (h : Nat) (f : HostPort → HostPort) : (s.onHp h f).pending = s.pending := rfl
@[simp] theorem State.onHp_now (h : Nat) (f : HostPort → HostPort) : (s.onHp h f).now = s.now := rfl
@[simp] theorem State.onHp_free (h : Nat) (f : HostPort → HostPort) : (s.onHp h f).free = s.free := rfl
@[simp] theorem State.onHp_out (h : Nat) (f : HostPort → HostPort) : (s.onHp h f).out = s.out := rfl
@[simp] theorem State.onHp_parts (h : Nat) (f : HostPort → HostPort) : (s.onHp h f).parts = s.parts := rfl
@[simp] theorem State.onHp_hosts (h : Nat) (f : HostPort → HostPort) : (s.onHp h f).hosts = Tbl.set s.hosts h (f (s.hp h)) := rfl
@[simp] theorem State.onHp_intakes (h : Nat) (f : HostPort → HostPort) : (s.onHp h f).intakes = s.intakes := rfl
@[simp] theorem State.onHp_slices (h : Nat) (f : HostPort → HostPort) : (s.onHp h f).slices = s.slices := rfl
@[simp] theorem State.onHp_stooks (h : Nat) (f : HostPort → HostPort) : (s.onHp h f).stooks = s.stooks := rfl
@[simp] theorem State.onHp_mports (h : Nat) (f : HostPort → HostPort) : (s.onHp h f).mports = s.mports := rfl
@[simp] theorem State.onHp_mer (h : Nat) (f : HostPort → HostPort) : (s.onHp h f).mer = s.mer := rfl
@[simp] theorem State.onHp_twin (h : Nat) (f : HostPort → HostPort) : (s.onHp h f).twin = s.twin := rfl
@[simp] theorem State.onHp_place (h : Nat) (f : HostPort → HostPort) : (s.onHp h f).place = s.place := rfl
@[simp] theorem State.onHp_dirGen (h : Nat) (f : HostPort → HostPort) : (s.onHp h f).dirGen = s.dirGen := rfl
@[simp] theorem State.onHp_events (h : Nat) (f : HostPort → HostPort) : (s.onHp h f).events = s.events := rfl
@[simp] theorem State.onHp_evSeq (h : Nat) (f : HostPort → HostPort) : (s.onHp h f).evSeq = s.evSeq := rfl
@[simp] theorem State.onHp_evLost (h : Nat) (f : HostPort → HostPort) : (s.onHp h f).evLost = s.evLost := rfl
@[simp] theorem State.onHp_live (h : Nat) (f : HostPort → HostPort) : (s.onHp h f).live = s.live := rfl
@[simp] theorem State.onHp_holding (h : Nat) (f : HostPort → HostPort) : (s.onHp h f).holding = s.holding := rfl
@[simp] theorem State.onHp_ignLast (h : Nat) (f : HostPort → HostPort) : (s.onHp h f).ignLast = s.ignLast := rfl
@[simp] theorem State.onHp_credits (h : Nat) (f : HostPort → HostPort) : (s.onHp h f).credits = s.credits := rfl
@[simp] theorem State.onHp_resends (h : Nat) (f : HostPort → HostPort) : (s.onHp h f).resends = s.resends := rfl
@[simp] theorem State.onHp_win (h : Nat) (f : HostPort → HostPort) : (s.onHp h f).win = s.win := rfl
@[simp] theorem State.onHp_rch (h : Nat) (f : HostPort → HostPort) : (s.onHp h f).rch = s.rch := rfl
@[simp] theorem State.onHp_blk (h : Nat) (f : HostPort → HostPort) : (s.onHp h f).blk = s.blk := rfl
@[simp] theorem State.onHp_pwr (h : Nat) (f : HostPort → HostPort) : (s.onHp h f).pwr = s.pwr := rfl
@[simp] theorem State.onHp_mbx (h : Nat) (f : HostPort → HostPort) : (s.onHp h f).mbx = s.mbx := rfl
@[simp] theorem State.onHp_blkLogs (h : Nat) (f : HostPort → HostPort) : (s.onHp h f).blkLogs = s.blkLogs := rfl
@[simp] theorem State.onHp_scratch (h : Nat) (f : HostPort → HostPort) : (s.onHp h f).scratch = s.scratch := rfl
@[simp] theorem State.onHp_groups (h : Nat) (f : HostPort → HostPort) : (s.onHp h f).groups = s.groups := rfl
@[simp] theorem State.onHp_adminBars (h : Nat) (f : HostPort → HostPort) : (s.onHp h f).adminBars = s.adminBars := rfl
@[simp] theorem State.onHp_lastLoss (h : Nat) (f : HostPort → HostPort) : (s.onHp h f).lastLoss = s.lastLoss := rfl
@[simp] theorem State.onHp_clk (h : Nat) (f : HostPort → HostPort) : (s.onHp h f).clk = s.clk := rfl

/-! ### State.onIp -/
@[simp] theorem State.onIp_pending (i : Nat) (f : Intake → Intake) : (s.onIp i f).pending = s.pending := rfl
@[simp] theorem State.onIp_now (i : Nat) (f : Intake → Intake) : (s.onIp i f).now = s.now := rfl
@[simp] theorem State.onIp_free (i : Nat) (f : Intake → Intake) : (s.onIp i f).free = s.free := rfl
@[simp] theorem State.onIp_out (i : Nat) (f : Intake → Intake) : (s.onIp i f).out = s.out := rfl
@[simp] theorem State.onIp_parts (i : Nat) (f : Intake → Intake) : (s.onIp i f).parts = s.parts := rfl
@[simp] theorem State.onIp_hosts (i : Nat) (f : Intake → Intake) : (s.onIp i f).hosts = s.hosts := rfl
@[simp] theorem State.onIp_intakes (i : Nat) (f : Intake → Intake) : (s.onIp i f).intakes = Tbl.set s.intakes i (f (s.ip i)) := rfl
@[simp] theorem State.onIp_slices (i : Nat) (f : Intake → Intake) : (s.onIp i f).slices = s.slices := rfl
@[simp] theorem State.onIp_stooks (i : Nat) (f : Intake → Intake) : (s.onIp i f).stooks = s.stooks := rfl
@[simp] theorem State.onIp_mports (i : Nat) (f : Intake → Intake) : (s.onIp i f).mports = s.mports := rfl
@[simp] theorem State.onIp_mer (i : Nat) (f : Intake → Intake) : (s.onIp i f).mer = s.mer := rfl
@[simp] theorem State.onIp_twin (i : Nat) (f : Intake → Intake) : (s.onIp i f).twin = s.twin := rfl
@[simp] theorem State.onIp_place (i : Nat) (f : Intake → Intake) : (s.onIp i f).place = s.place := rfl
@[simp] theorem State.onIp_dirGen (i : Nat) (f : Intake → Intake) : (s.onIp i f).dirGen = s.dirGen := rfl
@[simp] theorem State.onIp_events (i : Nat) (f : Intake → Intake) : (s.onIp i f).events = s.events := rfl
@[simp] theorem State.onIp_evSeq (i : Nat) (f : Intake → Intake) : (s.onIp i f).evSeq = s.evSeq := rfl
@[simp] theorem State.onIp_evLost (i : Nat) (f : Intake → Intake) : (s.onIp i f).evLost = s.evLost := rfl
@[simp] theorem State.onIp_live (i : Nat) (f : Intake → Intake) : (s.onIp i f).live = s.live := rfl
@[simp] theorem State.onIp_holding (i : Nat) (f : Intake → Intake) : (s.onIp i f).holding = s.holding := rfl
@[simp] theorem State.onIp_ignLast (i : Nat) (f : Intake → Intake) : (s.onIp i f).ignLast = s.ignLast := rfl
@[simp] theorem State.onIp_credits (i : Nat) (f : Intake → Intake) : (s.onIp i f).credits = s.credits := rfl
@[simp] theorem State.onIp_resends (i : Nat) (f : Intake → Intake) : (s.onIp i f).resends = s.resends := rfl
@[simp] theorem State.onIp_win (i : Nat) (f : Intake → Intake) : (s.onIp i f).win = s.win := rfl
@[simp] theorem State.onIp_rch (i : Nat) (f : Intake → Intake) : (s.onIp i f).rch = s.rch := rfl
@[simp] theorem State.onIp_blk (i : Nat) (f : Intake → Intake) : (s.onIp i f).blk = s.blk := rfl
@[simp] theorem State.onIp_pwr (i : Nat) (f : Intake → Intake) : (s.onIp i f).pwr = s.pwr := rfl
@[simp] theorem State.onIp_mbx (i : Nat) (f : Intake → Intake) : (s.onIp i f).mbx = s.mbx := rfl
@[simp] theorem State.onIp_blkLogs (i : Nat) (f : Intake → Intake) : (s.onIp i f).blkLogs = s.blkLogs := rfl
@[simp] theorem State.onIp_scratch (i : Nat) (f : Intake → Intake) : (s.onIp i f).scratch = s.scratch := rfl
@[simp] theorem State.onIp_groups (i : Nat) (f : Intake → Intake) : (s.onIp i f).groups = s.groups := rfl
@[simp] theorem State.onIp_adminBars (i : Nat) (f : Intake → Intake) : (s.onIp i f).adminBars = s.adminBars := rfl
@[simp] theorem State.onIp_lastLoss (i : Nat) (f : Intake → Intake) : (s.onIp i f).lastLoss = s.lastLoss := rfl
@[simp] theorem State.onIp_clk (i : Nat) (f : Intake → Intake) : (s.onIp i f).clk = s.clk := rfl

/-! ### State.onSlc -/
@[simp] theorem State.onSlc_pending (n : Nat) (f : Slice → Slice) : (s.onSlc n f).pending = s.pending := rfl
@[simp] theorem State.onSlc_now (n : Nat) (f : Slice → Slice) : (s.onSlc n f).now = s.now := rfl
@[simp] theorem State.onSlc_free (n : Nat) (f : Slice → Slice) : (s.onSlc n f).free = s.free := rfl
@[simp] theorem State.onSlc_out (n : Nat) (f : Slice → Slice) : (s.onSlc n f).out = s.out := rfl
@[simp] theorem State.onSlc_parts (n : Nat) (f : Slice → Slice) : (s.onSlc n f).parts = s.parts := rfl
@[simp] theorem State.onSlc_hosts (n : Nat) (f : Slice → Slice) : (s.onSlc n f).hosts = s.hosts := rfl
@[simp] theorem State.onSlc_intakes (n : Nat) (f : Slice → Slice) : (s.onSlc n f).intakes = s.intakes := rfl
@[simp] theorem State.onSlc_slices (n : Nat) (f : Slice → Slice) : (s.onSlc n f).slices = Tbl.set s.slices n (f (s.slc n)) := rfl
@[simp] theorem State.onSlc_stooks (n : Nat) (f : Slice → Slice) : (s.onSlc n f).stooks = s.stooks := rfl
@[simp] theorem State.onSlc_mports (n : Nat) (f : Slice → Slice) : (s.onSlc n f).mports = s.mports := rfl
@[simp] theorem State.onSlc_mer (n : Nat) (f : Slice → Slice) : (s.onSlc n f).mer = s.mer := rfl
@[simp] theorem State.onSlc_twin (n : Nat) (f : Slice → Slice) : (s.onSlc n f).twin = s.twin := rfl
@[simp] theorem State.onSlc_place (n : Nat) (f : Slice → Slice) : (s.onSlc n f).place = s.place := rfl
@[simp] theorem State.onSlc_dirGen (n : Nat) (f : Slice → Slice) : (s.onSlc n f).dirGen = s.dirGen := rfl
@[simp] theorem State.onSlc_events (n : Nat) (f : Slice → Slice) : (s.onSlc n f).events = s.events := rfl
@[simp] theorem State.onSlc_evSeq (n : Nat) (f : Slice → Slice) : (s.onSlc n f).evSeq = s.evSeq := rfl
@[simp] theorem State.onSlc_evLost (n : Nat) (f : Slice → Slice) : (s.onSlc n f).evLost = s.evLost := rfl
@[simp] theorem State.onSlc_live (n : Nat) (f : Slice → Slice) : (s.onSlc n f).live = s.live := rfl
@[simp] theorem State.onSlc_holding (n : Nat) (f : Slice → Slice) : (s.onSlc n f).holding = s.holding := rfl
@[simp] theorem State.onSlc_ignLast (n : Nat) (f : Slice → Slice) : (s.onSlc n f).ignLast = s.ignLast := rfl
@[simp] theorem State.onSlc_credits (n : Nat) (f : Slice → Slice) : (s.onSlc n f).credits = s.credits := rfl
@[simp] theorem State.onSlc_resends (n : Nat) (f : Slice → Slice) : (s.onSlc n f).resends = s.resends := rfl
@[simp] theorem State.onSlc_win (n : Nat) (f : Slice → Slice) : (s.onSlc n f).win = s.win := rfl
@[simp] theorem State.onSlc_rch (n : Nat) (f : Slice → Slice) : (s.onSlc n f).rch = s.rch := rfl
@[simp] theorem State.onSlc_blk (n : Nat) (f : Slice → Slice) : (s.onSlc n f).blk = s.blk := rfl
@[simp] theorem State.onSlc_pwr (n : Nat) (f : Slice → Slice) : (s.onSlc n f).pwr = s.pwr := rfl
@[simp] theorem State.onSlc_mbx (n : Nat) (f : Slice → Slice) : (s.onSlc n f).mbx = s.mbx := rfl
@[simp] theorem State.onSlc_blkLogs (n : Nat) (f : Slice → Slice) : (s.onSlc n f).blkLogs = s.blkLogs := rfl
@[simp] theorem State.onSlc_scratch (n : Nat) (f : Slice → Slice) : (s.onSlc n f).scratch = s.scratch := rfl
@[simp] theorem State.onSlc_groups (n : Nat) (f : Slice → Slice) : (s.onSlc n f).groups = s.groups := rfl
@[simp] theorem State.onSlc_adminBars (n : Nat) (f : Slice → Slice) : (s.onSlc n f).adminBars = s.adminBars := rfl
@[simp] theorem State.onSlc_lastLoss (n : Nat) (f : Slice → Slice) : (s.onSlc n f).lastLoss = s.lastLoss := rfl
@[simp] theorem State.onSlc_clk (n : Nat) (f : Slice → Slice) : (s.onSlc n f).clk = s.clk := rfl

/-! ### State.onFront -/
@[simp] theorem State.onFront_pending (n : Nat) (f : Front → Front) : (s.onFront n f).pending = s.pending := rfl
@[simp] theorem State.onFront_now (n : Nat) (f : Front → Front) : (s.onFront n f).now = s.now := rfl
@[simp] theorem State.onFront_free (n : Nat) (f : Front → Front) : (s.onFront n f).free = s.free := rfl
@[simp] theorem State.onFront_out (n : Nat) (f : Front → Front) : (s.onFront n f).out = s.out := rfl
@[simp] theorem State.onFront_parts (n : Nat) (f : Front → Front) : (s.onFront n f).parts = s.parts := rfl
@[simp] theorem State.onFront_hosts (n : Nat) (f : Front → Front) : (s.onFront n f).hosts = s.hosts := rfl
@[simp] theorem State.onFront_intakes (n : Nat) (f : Front → Front) : (s.onFront n f).intakes = s.intakes := rfl
@[simp] theorem State.onFront_stooks (n : Nat) (f : Front → Front) : (s.onFront n f).stooks = s.stooks := rfl
@[simp] theorem State.onFront_mports (n : Nat) (f : Front → Front) : (s.onFront n f).mports = s.mports := rfl
@[simp] theorem State.onFront_mer (n : Nat) (f : Front → Front) : (s.onFront n f).mer = s.mer := rfl
@[simp] theorem State.onFront_twin (n : Nat) (f : Front → Front) : (s.onFront n f).twin = s.twin := rfl
@[simp] theorem State.onFront_place (n : Nat) (f : Front → Front) : (s.onFront n f).place = s.place := rfl
@[simp] theorem State.onFront_dirGen (n : Nat) (f : Front → Front) : (s.onFront n f).dirGen = s.dirGen := rfl
@[simp] theorem State.onFront_events (n : Nat) (f : Front → Front) : (s.onFront n f).events = s.events := rfl
@[simp] theorem State.onFront_evSeq (n : Nat) (f : Front → Front) : (s.onFront n f).evSeq = s.evSeq := rfl
@[simp] theorem State.onFront_evLost (n : Nat) (f : Front → Front) : (s.onFront n f).evLost = s.evLost := rfl
@[simp] theorem State.onFront_live (n : Nat) (f : Front → Front) : (s.onFront n f).live = s.live := rfl
@[simp] theorem State.onFront_holding (n : Nat) (f : Front → Front) : (s.onFront n f).holding = s.holding := rfl
@[simp] theorem State.onFront_ignLast (n : Nat) (f : Front → Front) : (s.onFront n f).ignLast = s.ignLast := rfl
@[simp] theorem State.onFront_credits (n : Nat) (f : Front → Front) : (s.onFront n f).credits = s.credits := rfl
@[simp] theorem State.onFront_resends (n : Nat) (f : Front → Front) : (s.onFront n f).resends = s.resends := rfl
@[simp] theorem State.onFront_win (n : Nat) (f : Front → Front) : (s.onFront n f).win = s.win := rfl
@[simp] theorem State.onFront_rch (n : Nat) (f : Front → Front) : (s.onFront n f).rch = s.rch := rfl
@[simp] theorem State.onFront_blk (n : Nat) (f : Front → Front) : (s.onFront n f).blk = s.blk := rfl
@[simp] theorem State.onFront_pwr (n : Nat) (f : Front → Front) : (s.onFront n f).pwr = s.pwr := rfl
@[simp] theorem State.onFront_mbx (n : Nat) (f : Front → Front) : (s.onFront n f).mbx = s.mbx := rfl
@[simp] theorem State.onFront_blkLogs (n : Nat) (f : Front → Front) : (s.onFront n f).blkLogs = s.blkLogs := rfl
@[simp] theorem State.onFront_scratch (n : Nat) (f : Front → Front) : (s.onFront n f).scratch = s.scratch := rfl
@[simp] theorem State.onFront_groups (n : Nat) (f : Front → Front) : (s.onFront n f).groups = s.groups := rfl
@[simp] theorem State.onFront_adminBars (n : Nat) (f : Front → Front) : (s.onFront n f).adminBars = s.adminBars := rfl
@[simp] theorem State.onFront_lastLoss (n : Nat) (f : Front → Front) : (s.onFront n f).lastLoss = s.lastLoss := rfl
@[simp] theorem State.onFront_clk (n : Nat) (f : Front → Front) : (s.onFront n f).clk = s.clk := rfl

/-! ### State.onBanks -/
@[simp] theorem State.onBanks_pending (n : Nat) (f : Banks → Banks) : (s.onBanks n f).pending = s.pending := rfl
@[simp] theorem State.onBanks_now (n : Nat) (f : Banks → Banks) : (s.onBanks n f).now = s.now := rfl
@[simp] theorem State.onBanks_free (n : Nat) (f : Banks → Banks) : (s.onBanks n f).free = s.free := rfl
@[simp] theorem State.onBanks_out (n : Nat) (f : Banks → Banks) : (s.onBanks n f).out = s.out := rfl
@[simp] theorem State.onBanks_parts (n : Nat) (f : Banks → Banks) : (s.onBanks n f).parts = s.parts := rfl
@[simp] theorem State.onBanks_hosts (n : Nat) (f : Banks → Banks) : (s.onBanks n f).hosts = s.hosts := rfl
@[simp] theorem State.onBanks_intakes (n : Nat) (f : Banks → Banks) : (s.onBanks n f).intakes = s.intakes := rfl
@[simp] theorem State.onBanks_stooks (n : Nat) (f : Banks → Banks) : (s.onBanks n f).stooks = s.stooks := rfl
@[simp] theorem State.onBanks_mports (n : Nat) (f : Banks → Banks) : (s.onBanks n f).mports = s.mports := rfl
@[simp] theorem State.onBanks_mer (n : Nat) (f : Banks → Banks) : (s.onBanks n f).mer = s.mer := rfl
@[simp] theorem State.onBanks_twin (n : Nat) (f : Banks → Banks) : (s.onBanks n f).twin = s.twin := rfl
@[simp] theorem State.onBanks_place (n : Nat) (f : Banks → Banks) : (s.onBanks n f).place = s.place := rfl
@[simp] theorem State.onBanks_dirGen (n : Nat) (f : Banks → Banks) : (s.onBanks n f).dirGen = s.dirGen := rfl
@[simp] theorem State.onBanks_events (n : Nat) (f : Banks → Banks) : (s.onBanks n f).events = s.events := rfl
@[simp] theorem State.onBanks_evSeq (n : Nat) (f : Banks → Banks) : (s.onBanks n f).evSeq = s.evSeq := rfl
@[simp] theorem State.onBanks_evLost (n : Nat) (f : Banks → Banks) : (s.onBanks n f).evLost = s.evLost := rfl
@[simp] theorem State.onBanks_live (n : Nat) (f : Banks → Banks) : (s.onBanks n f).live = s.live := rfl
@[simp] theorem State.onBanks_holding (n : Nat) (f : Banks → Banks) : (s.onBanks n f).holding = s.holding := rfl
@[simp] theorem State.onBanks_ignLast (n : Nat) (f : Banks → Banks) : (s.onBanks n f).ignLast = s.ignLast := rfl
@[simp] theorem State.onBanks_credits (n : Nat) (f : Banks → Banks) : (s.onBanks n f).credits = s.credits := rfl
@[simp] theorem State.onBanks_resends (n : Nat) (f : Banks → Banks) : (s.onBanks n f).resends = s.resends := rfl
@[simp] theorem State.onBanks_win (n : Nat) (f : Banks → Banks) : (s.onBanks n f).win = s.win := rfl
@[simp] theorem State.onBanks_rch (n : Nat) (f : Banks → Banks) : (s.onBanks n f).rch = s.rch := rfl
@[simp] theorem State.onBanks_blk (n : Nat) (f : Banks → Banks) : (s.onBanks n f).blk = s.blk := rfl
@[simp] theorem State.onBanks_pwr (n : Nat) (f : Banks → Banks) : (s.onBanks n f).pwr = s.pwr := rfl
@[simp] theorem State.onBanks_mbx (n : Nat) (f : Banks → Banks) : (s.onBanks n f).mbx = s.mbx := rfl
@[simp] theorem State.onBanks_blkLogs (n : Nat) (f : Banks → Banks) : (s.onBanks n f).blkLogs = s.blkLogs := rfl
@[simp] theorem State.onBanks_scratch (n : Nat) (f : Banks → Banks) : (s.onBanks n f).scratch = s.scratch := rfl
@[simp] theorem State.onBanks_groups (n : Nat) (f : Banks → Banks) : (s.onBanks n f).groups = s.groups := rfl
@[simp] theorem State.onBanks_adminBars (n : Nat) (f : Banks → Banks) : (s.onBanks n f).adminBars = s.adminBars := rfl
@[simp] theorem State.onBanks_lastLoss (n : Nat) (f : Banks → Banks) : (s.onBanks n f).lastLoss = s.lastLoss := rfl
@[simp] theorem State.onBanks_clk (n : Nat) (f : Banks → Banks) : (s.onBanks n f).clk = s.clk := rfl

/-! ### State.onStk -/
@[simp] theorem State.onStk_pending (k : Nat) (f : Stook → Stook) : (s.onStk k f).pending = s.pending := rfl
@[simp] theorem State.onStk_now (k : Nat) (f : Stook → Stook) : (s.onStk k f).now = s.now := rfl
@[simp] theorem State.onStk_free (k : Nat) (f : Stook → Stook) : (s.onStk k f).free = s.free := rfl
@[simp] theorem State.onStk_out (k : Nat) (f : Stook → Stook) : (s.onStk k f).out = s.out := rfl
@[simp] theorem State.onStk_parts (k : Nat) (f : Stook → Stook) : (s.onStk k f).parts = s.parts := rfl
@[simp] theorem State.onStk_hosts (k : Nat) (f : Stook → Stook) : (s.onStk k f).hosts = s.hosts := rfl
@[simp] theorem State.onStk_intakes (k : Nat) (f : Stook → Stook) : (s.onStk k f).intakes = s.intakes := rfl
@[simp] theorem State.onStk_slices (k : Nat) (f : Stook → Stook) : (s.onStk k f).slices = s.slices := rfl
@[simp] theorem State.onStk_stooks (k : Nat) (f : Stook → Stook) : (s.onStk k f).stooks = Tbl.set s.stooks k (f (s.stk k)) := rfl
@[simp] theorem State.onStk_mports (k : Nat) (f : Stook → Stook) : (s.onStk k f).mports = s.mports := rfl
@[simp] theorem State.onStk_mer (k : Nat) (f : Stook → Stook) : (s.onStk k f).mer = s.mer := rfl
@[simp] theorem State.onStk_twin (k : Nat) (f : Stook → Stook) : (s.onStk k f).twin = s.twin := rfl
@[simp] theorem State.onStk_place (k : Nat) (f : Stook → Stook) : (s.onStk k f).place = s.place := rfl
@[simp] theorem State.onStk_dirGen (k : Nat) (f : Stook → Stook) : (s.onStk k f).dirGen = s.dirGen := rfl
@[simp] theorem State.onStk_events (k : Nat) (f : Stook → Stook) : (s.onStk k f).events = s.events := rfl
@[simp] theorem State.onStk_evSeq (k : Nat) (f : Stook → Stook) : (s.onStk k f).evSeq = s.evSeq := rfl
@[simp] theorem State.onStk_evLost (k : Nat) (f : Stook → Stook) : (s.onStk k f).evLost = s.evLost := rfl
@[simp] theorem State.onStk_live (k : Nat) (f : Stook → Stook) : (s.onStk k f).live = s.live := rfl
@[simp] theorem State.onStk_holding (k : Nat) (f : Stook → Stook) : (s.onStk k f).holding = s.holding := rfl
@[simp] theorem State.onStk_ignLast (k : Nat) (f : Stook → Stook) : (s.onStk k f).ignLast = s.ignLast := rfl
@[simp] theorem State.onStk_credits (k : Nat) (f : Stook → Stook) : (s.onStk k f).credits = s.credits := rfl
@[simp] theorem State.onStk_resends (k : Nat) (f : Stook → Stook) : (s.onStk k f).resends = s.resends := rfl
@[simp] theorem State.onStk_win (k : Nat) (f : Stook → Stook) : (s.onStk k f).win = s.win := rfl
@[simp] theorem State.onStk_rch (k : Nat) (f : Stook → Stook) : (s.onStk k f).rch = s.rch := rfl
@[simp] theorem State.onStk_blk (k : Nat) (f : Stook → Stook) : (s.onStk k f).blk = s.blk := rfl
@[simp] theorem State.onStk_pwr (k : Nat) (f : Stook → Stook) : (s.onStk k f).pwr = s.pwr := rfl
@[simp] theorem State.onStk_mbx (k : Nat) (f : Stook → Stook) : (s.onStk k f).mbx = s.mbx := rfl
@[simp] theorem State.onStk_blkLogs (k : Nat) (f : Stook → Stook) : (s.onStk k f).blkLogs = s.blkLogs := rfl
@[simp] theorem State.onStk_scratch (k : Nat) (f : Stook → Stook) : (s.onStk k f).scratch = s.scratch := rfl
@[simp] theorem State.onStk_groups (k : Nat) (f : Stook → Stook) : (s.onStk k f).groups = s.groups := rfl
@[simp] theorem State.onStk_adminBars (k : Nat) (f : Stook → Stook) : (s.onStk k f).adminBars = s.adminBars := rfl
@[simp] theorem State.onStk_lastLoss (k : Nat) (f : Stook → Stook) : (s.onStk k f).lastLoss = s.lastLoss := rfl
@[simp] theorem State.onStk_clk (k : Nat) (f : Stook → Stook) : (s.onStk k f).clk = s.clk := rfl

/-! ### State.onMp -/
@[simp] theorem State.onMp_pending (m : Nat) (f : MPort → MPort) : (s.onMp m f).pending = s.pending := rfl
@[simp] theorem State.onMp_now (m : Nat) (f : MPort → MPort) : (s.onMp m f).now = s.now := rfl
@[simp] theorem State.onMp_free (m : Nat) (f : MPort → MPort) : (s.onMp m f).free = s.free := rfl
@[simp] theorem State.onMp_out (m : Nat) (f : MPort → MPort) : (s.onMp m f).out = s.out := rfl
@[simp] theorem State.onMp_parts (m : Nat) (f : MPort → MPort) : (s.onMp m f).parts = s.parts := rfl
@[simp] theorem State.onMp_hosts (m : Nat) (f : MPort → MPort) : (s.onMp m f).hosts = s.hosts := rfl
@[simp] theorem State.onMp_intakes (m : Nat) (f : MPort → MPort) : (s.onMp m f).intakes = s.intakes := rfl
@[simp] theorem State.onMp_slices (m : Nat) (f : MPort → MPort) : (s.onMp m f).slices = s.slices := rfl
@[simp] theorem State.onMp_stooks (m : Nat) (f : MPort → MPort) : (s.onMp m f).stooks = s.stooks := rfl
@[simp] theorem State.onMp_mports (m : Nat) (f : MPort → MPort) : (s.onMp m f).mports = Tbl.set s.mports m (f (s.mp m)) := rfl
@[simp] theorem State.onMp_mer (m : Nat) (f : MPort → MPort) : (s.onMp m f).mer = s.mer := rfl
@[simp] theorem State.onMp_twin (m : Nat) (f : MPort → MPort) : (s.onMp m f).twin = s.twin := rfl
@[simp] theorem State.onMp_place (m : Nat) (f : MPort → MPort) : (s.onMp m f).place = s.place := rfl
@[simp] theorem State.onMp_dirGen (m : Nat) (f : MPort → MPort) : (s.onMp m f).dirGen = s.dirGen := rfl
@[simp] theorem State.onMp_events (m : Nat) (f : MPort → MPort) : (s.onMp m f).events = s.events := rfl
@[simp] theorem State.onMp_evSeq (m : Nat) (f : MPort → MPort) : (s.onMp m f).evSeq = s.evSeq := rfl
@[simp] theorem State.onMp_evLost (m : Nat) (f : MPort → MPort) : (s.onMp m f).evLost = s.evLost := rfl
@[simp] theorem State.onMp_live (m : Nat) (f : MPort → MPort) : (s.onMp m f).live = s.live := rfl
@[simp] theorem State.onMp_holding (m : Nat) (f : MPort → MPort) : (s.onMp m f).holding = s.holding := rfl
@[simp] theorem State.onMp_ignLast (m : Nat) (f : MPort → MPort) : (s.onMp m f).ignLast = s.ignLast := rfl
@[simp] theorem State.onMp_credits (m : Nat) (f : MPort → MPort) : (s.onMp m f).credits = s.credits := rfl
@[simp] theorem State.onMp_resends (m : Nat) (f : MPort → MPort) : (s.onMp m f).resends = s.resends := rfl
@[simp] theorem State.onMp_win (m : Nat) (f : MPort → MPort) : (s.onMp m f).win = s.win := rfl
@[simp] theorem State.onMp_rch (m : Nat) (f : MPort → MPort) : (s.onMp m f).rch = s.rch := rfl
@[simp] theorem State.onMp_blk (m : Nat) (f : MPort → MPort) : (s.onMp m f).blk = s.blk := rfl
@[simp] theorem State.onMp_pwr (m : Nat) (f : MPort → MPort) : (s.onMp m f).pwr = s.pwr := rfl
@[simp] theorem State.onMp_mbx (m : Nat) (f : MPort → MPort) : (s.onMp m f).mbx = s.mbx := rfl
@[simp] theorem State.onMp_blkLogs (m : Nat) (f : MPort → MPort) : (s.onMp m f).blkLogs = s.blkLogs := rfl
@[simp] theorem State.onMp_scratch (m : Nat) (f : MPort → MPort) : (s.onMp m f).scratch = s.scratch := rfl
@[simp] theorem State.onMp_groups (m : Nat) (f : MPort → MPort) : (s.onMp m f).groups = s.groups := rfl
@[simp] theorem State.onMp_adminBars (m : Nat) (f : MPort → MPort) : (s.onMp m f).adminBars = s.adminBars := rfl
@[simp] theorem State.onMp_lastLoss (m : Nat) (f : MPort → MPort) : (s.onMp m f).lastLoss = s.lastLoss := rfl
@[simp] theorem State.onMp_clk (m : Nat) (f : MPort → MPort) : (s.onMp m f).clk = s.clk := rfl

/-! ### State.allSlc -/
@[simp] theorem State.allSlc_pending (f : Slice → Slice) : (s.allSlc f).pending = s.pending := rfl
@[simp] theorem State.allSlc_now (f : Slice → Slice) : (s.allSlc f).now = s.now := rfl
@[simp] theorem State.allSlc_free (f : Slice → Slice) : (s.allSlc f).free = s.free := rfl
@[simp] theorem State.allSlc_out (f : Slice → Slice) : (s.allSlc f).out = s.out := rfl
@[simp] theorem State.allSlc_parts (f : Slice → Slice) : (s.allSlc f).parts = s.parts := rfl
@[simp] theorem State.allSlc_hosts (f : Slice → Slice) : (s.allSlc f).hosts = s.hosts := rfl
@[simp] theorem State.allSlc_intakes (f : Slice → Slice) : (s.allSlc f).intakes = s.intakes := rfl
@[simp] theorem State.allSlc_slices (f : Slice → Slice) : (s.allSlc f).slices = Tbl.mapv f s.slices := rfl
@[simp] theorem State.allSlc_stooks (f : Slice → Slice) : (s.allSlc f).stooks = s.stooks := rfl
@[simp] theorem State.allSlc_mports (f : Slice → Slice) : (s.allSlc f).mports = s.mports := rfl
@[simp] theorem State.allSlc_mer (f : Slice → Slice) : (s.allSlc f).mer = s.mer := rfl
@[simp] theorem State.allSlc_twin (f : Slice → Slice) : (s.allSlc f).twin = s.twin := rfl
@[simp] theorem State.allSlc_place (f : Slice → Slice) : (s.allSlc f).place = s.place := rfl
@[simp] theorem State.allSlc_dirGen (f : Slice → Slice) : (s.allSlc f).dirGen = s.dirGen := rfl
@[simp] theorem State.allSlc_events (f : Slice → Slice) : (s.allSlc f).events = s.events := rfl
@[simp] theorem State.allSlc_evSeq (f : Slice → Slice) : (s.allSlc f).evSeq = s.evSeq := rfl
@[simp] theorem State.allSlc_evLost (f : Slice → Slice) : (s.allSlc f).evLost = s.evLost := rfl
@[simp] theorem State.allSlc_live (f : Slice → Slice) : (s.allSlc f).live = s.live := rfl
@[simp] theorem State.allSlc_holding (f : Slice → Slice) : (s.allSlc f).holding = s.holding := rfl
@[simp] theorem State.allSlc_ignLast (f : Slice → Slice) : (s.allSlc f).ignLast = s.ignLast := rfl
@[simp] theorem State.allSlc_credits (f : Slice → Slice) : (s.allSlc f).credits = s.credits := rfl
@[simp] theorem State.allSlc_resends (f : Slice → Slice) : (s.allSlc f).resends = s.resends := rfl
@[simp] theorem State.allSlc_win (f : Slice → Slice) : (s.allSlc f).win = s.win := rfl
@[simp] theorem State.allSlc_rch (f : Slice → Slice) : (s.allSlc f).rch = s.rch := rfl
@[simp] theorem State.allSlc_blk (f : Slice → Slice) : (s.allSlc f).blk = s.blk := rfl
@[simp] theorem State.allSlc_pwr (f : Slice → Slice) : (s.allSlc f).pwr = s.pwr := rfl
@[simp] theorem State.allSlc_mbx (f : Slice → Slice) : (s.allSlc f).mbx = s.mbx := rfl
@[simp] theorem State.allSlc_blkLogs (f : Slice → Slice) : (s.allSlc f).blkLogs = s.blkLogs := rfl
@[simp] theorem State.allSlc_scratch (f : Slice → Slice) : (s.allSlc f).scratch = s.scratch := rfl
@[simp] theorem State.allSlc_groups (f : Slice → Slice) : (s.allSlc f).groups = s.groups := rfl
@[simp] theorem State.allSlc_adminBars (f : Slice → Slice) : (s.allSlc f).adminBars = s.adminBars := rfl
@[simp] theorem State.allSlc_lastLoss (f : Slice → Slice) : (s.allSlc f).lastLoss = s.lastLoss := rfl
@[simp] theorem State.allSlc_clk (f : Slice → Slice) : (s.allSlc f).clk = s.clk := rfl

/-! ### State.allBanks -/
@[simp] theorem State.allBanks_pending (f : Banks → Banks) : (s.allBanks f).pending = s.pending := rfl
@[simp] theorem State.allBanks_now (f : Banks → Banks) : (s.allBanks f).now = s.now := rfl
@[simp] theorem State.allBanks_free (f : Banks → Banks) : (s.allBanks f).free = s.free := rfl
@[simp] theorem State.allBanks_out (f : Banks → Banks) : (s.allBanks f).out = s.out := rfl
@[simp] theorem State.allBanks_parts (f : Banks → Banks) : (s.allBanks f).parts = s.parts := rfl
@[simp] theorem State.allBanks_hosts (f : Banks → Banks) : (s.allBanks f).hosts = s.hosts := rfl
@[simp] theorem State.allBanks_intakes (f : Banks → Banks) : (s.allBanks f).intakes = s.intakes := rfl
@[simp] theorem State.allBanks_stooks (f : Banks → Banks) : (s.allBanks f).stooks = s.stooks := rfl
@[simp] theorem State.allBanks_mports (f : Banks → Banks) : (s.allBanks f).mports = s.mports := rfl
@[simp] theorem State.allBanks_mer (f : Banks → Banks) : (s.allBanks f).mer = s.mer := rfl
@[simp] theorem State.allBanks_twin (f : Banks → Banks) : (s.allBanks f).twin = s.twin := rfl
@[simp] theorem State.allBanks_place (f : Banks → Banks) : (s.allBanks f).place = s.place := rfl
@[simp] theorem State.allBanks_dirGen (f : Banks → Banks) : (s.allBanks f).dirGen = s.dirGen := rfl
@[simp] theorem State.allBanks_events (f : Banks → Banks) : (s.allBanks f).events = s.events := rfl
@[simp] theorem State.allBanks_evSeq (f : Banks → Banks) : (s.allBanks f).evSeq = s.evSeq := rfl
@[simp] theorem State.allBanks_evLost (f : Banks → Banks) : (s.allBanks f).evLost = s.evLost := rfl
@[simp] theorem State.allBanks_live (f : Banks → Banks) : (s.allBanks f).live = s.live := rfl
@[simp] theorem State.allBanks_holding (f : Banks → Banks) : (s.allBanks f).holding = s.holding := rfl
@[simp] theorem State.allBanks_ignLast (f : Banks → Banks) : (s.allBanks f).ignLast = s.ignLast := rfl
@[simp] theorem State.allBanks_credits (f : Banks → Banks) : (s.allBanks f).credits = s.credits := rfl
@[simp] theorem State.allBanks_resends (f : Banks → Banks) : (s.allBanks f).resends = s.resends := rfl
@[simp] theorem State.allBanks_win (f : Banks → Banks) : (s.allBanks f).win = s.win := rfl
@[simp] theorem State.allBanks_rch (f : Banks → Banks) : (s.allBanks f).rch = s.rch := rfl
@[simp] theorem State.allBanks_blk (f : Banks → Banks) : (s.allBanks f).blk = s.blk := rfl
@[simp] theorem State.allBanks_pwr (f : Banks → Banks) : (s.allBanks f).pwr = s.pwr := rfl
@[simp] theorem State.allBanks_mbx (f : Banks → Banks) : (s.allBanks f).mbx = s.mbx := rfl
@[simp] theorem State.allBanks_blkLogs (f : Banks → Banks) : (s.allBanks f).blkLogs = s.blkLogs := rfl
@[simp] theorem State.allBanks_scratch (f : Banks → Banks) : (s.allBanks f).scratch = s.scratch := rfl
@[simp] theorem State.allBanks_groups (f : Banks → Banks) : (s.allBanks f).groups = s.groups := rfl
@[simp] theorem State.allBanks_adminBars (f : Banks → Banks) : (s.allBanks f).adminBars = s.adminBars := rfl
@[simp] theorem State.allBanks_lastLoss (f : Banks → Banks) : (s.allBanks f).lastLoss = s.lastLoss := rfl
@[simp] theorem State.allBanks_clk (f : Banks → Banks) : (s.allBanks f).clk = s.clk := rfl

/-! ### State.allIps -/
@[simp] theorem State.allIps_pending (f : Intake → Intake) : (s.allIps f).pending = s.pending := rfl
@[simp] theorem State.allIps_now (f : Intake → Intake) : (s.allIps f).now = s.now := rfl
@[simp] theorem State.allIps_free (f : Intake → Intake) : (s.allIps f).free = s.free := rfl
@[simp] theorem State.allIps_out (f : Intake → Intake) : (s.allIps f).out = s.out := rfl
@[simp] theorem State.allIps_parts (f : Intake → Intake) : (s.allIps f).parts = s.parts := rfl
@[simp] theorem State.allIps_hosts (f : Intake → Intake) : (s.allIps f).hosts = s.hosts := rfl
@[simp] theorem State.allIps_intakes (f : Intake → Intake) : (s.allIps f).intakes = Tbl.mapv f s.intakes := rfl
@[simp] theorem State.allIps_slices (f : Intake → Intake) : (s.allIps f).slices = s.slices := rfl
@[simp] theorem State.allIps_stooks (f : Intake → Intake) : (s.allIps f).stooks = s.stooks := rfl
@[simp] theorem State.allIps_mports (f : Intake → Intake) : (s.allIps f).mports = s.mports := rfl
@[simp] theorem State.allIps_mer (f : Intake → Intake) : (s.allIps f).mer = s.mer := rfl
@[simp] theorem State.allIps_twin (f : Intake → Intake) : (s.allIps f).twin = s.twin := rfl
@[simp] theorem State.allIps_place (f : Intake → Intake) : (s.allIps f).place = s.place := rfl
@[simp] theorem State.allIps_dirGen (f : Intake → Intake) : (s.allIps f).dirGen = s.dirGen := rfl
@[simp] theorem State.allIps_events (f : Intake → Intake) : (s.allIps f).events = s.events := rfl
@[simp] theorem State.allIps_evSeq (f : Intake → Intake) : (s.allIps f).evSeq = s.evSeq := rfl
@[simp] theorem State.allIps_evLost (f : Intake → Intake) : (s.allIps f).evLost = s.evLost := rfl
@[simp] theorem State.allIps_live (f : Intake → Intake) : (s.allIps f).live = s.live := rfl
@[simp] theorem State.allIps_holding (f : Intake → Intake) : (s.allIps f).holding = s.holding := rfl
@[simp] theorem State.allIps_ignLast (f : Intake → Intake) : (s.allIps f).ignLast = s.ignLast := rfl
@[simp] theorem State.allIps_credits (f : Intake → Intake) : (s.allIps f).credits = s.credits := rfl
@[simp] theorem State.allIps_resends (f : Intake → Intake) : (s.allIps f).resends = s.resends := rfl
@[simp] theorem State.allIps_win (f : Intake → Intake) : (s.allIps f).win = s.win := rfl
@[simp] theorem State.allIps_rch (f : Intake → Intake) : (s.allIps f).rch = s.rch := rfl
@[simp] theorem State.allIps_blk (f : Intake → Intake) : (s.allIps f).blk = s.blk := rfl
@[simp] theorem State.allIps_pwr (f : Intake → Intake) : (s.allIps f).pwr = s.pwr := rfl
@[simp] theorem State.allIps_mbx (f : Intake → Intake) : (s.allIps f).mbx = s.mbx := rfl
@[simp] theorem State.allIps_blkLogs (f : Intake → Intake) : (s.allIps f).blkLogs = s.blkLogs := rfl
@[simp] theorem State.allIps_scratch (f : Intake → Intake) : (s.allIps f).scratch = s.scratch := rfl
@[simp] theorem State.allIps_groups (f : Intake → Intake) : (s.allIps f).groups = s.groups := rfl
@[simp] theorem State.allIps_adminBars (f : Intake → Intake) : (s.allIps f).adminBars = s.adminBars := rfl
@[simp] theorem State.allIps_lastLoss (f : Intake → Intake) : (s.allIps f).lastLoss = s.lastLoss := rfl
@[simp] theorem State.allIps_clk (f : Intake → Intake) : (s.allIps f).clk = s.clk := rfl

/-! ### State.allStks -/
@[simp] theorem State.allStks_pending (f : Stook → Stook) : (s.allStks f).pending = s.pending := rfl
@[simp] theorem State.allStks_now (f : Stook → Stook) : (s.allStks f).now = s.now := rfl
@[simp] theorem State.allStks_free (f : Stook → Stook) : (s.allStks f).free = s.free := rfl
@[simp] theorem State.allStks_out (f : Stook → Stook) : (s.allStks f).out = s.out := rfl
@[simp] theorem State.allStks_parts (f : Stook → Stook) : (s.allStks f).parts = s.parts := rfl
@[simp] theorem State.allStks_hosts (f : Stook → Stook) : (s.allStks f).hosts = s.hosts := rfl
@[simp] theorem State.allStks_intakes (f : Stook → Stook) : (s.allStks f).intakes = s.intakes := rfl
@[simp] theorem State.allStks_slices (f : Stook → Stook) : (s.allStks f).slices = s.slices := rfl
@[simp] theorem State.allStks_stooks (f : Stook → Stook) : (s.allStks f).stooks = Tbl.mapv f s.stooks := rfl
@[simp] theorem State.allStks_mports (f : Stook → Stook) : (s.allStks f).mports = s.mports := rfl
@[simp] theorem State.allStks_mer (f : Stook → Stook) : (s.allStks f).mer = s.mer := rfl
@[simp] theorem State.allStks_twin (f : Stook → Stook) : (s.allStks f).twin = s.twin := rfl
@[simp] theorem State.allStks_place (f : Stook → Stook) : (s.allStks f).place = s.place := rfl
@[simp] theorem State.allStks_dirGen (f : Stook → Stook) : (s.allStks f).dirGen = s.dirGen := rfl
@[simp] theorem State.allStks_events (f : Stook → Stook) : (s.allStks f).events = s.events := rfl
@[simp] theorem State.allStks_evSeq (f : Stook → Stook) : (s.allStks f).evSeq = s.evSeq := rfl
@[simp] theorem State.allStks_evLost (f : Stook → Stook) : (s.allStks f).evLost = s.evLost := rfl
@[simp] theorem State.allStks_live (f : Stook → Stook) : (s.allStks f).live = s.live := rfl
@[simp] theorem State.allStks_holding (f : Stook → Stook) : (s.allStks f).holding = s.holding := rfl
@[simp] theorem State.allStks_ignLast (f : Stook → Stook) : (s.allStks f).ignLast = s.ignLast := rfl
@[simp] theorem State.allStks_credits (f : Stook → Stook) : (s.allStks f).credits = s.credits := rfl
@[simp] theorem State.allStks_resends (f : Stook → Stook) : (s.allStks f).resends = s.resends := rfl
@[simp] theorem State.allStks_win (f : Stook → Stook) : (s.allStks f).win = s.win := rfl
@[simp] theorem State.allStks_rch (f : Stook → Stook) : (s.allStks f).rch = s.rch := rfl
@[simp] theorem State.allStks_blk (f : Stook → Stook) : (s.allStks f).blk = s.blk := rfl
@[simp] theorem State.allStks_pwr (f : Stook → Stook) : (s.allStks f).pwr = s.pwr := rfl
@[simp] theorem State.allStks_mbx (f : Stook → Stook) : (s.allStks f).mbx = s.mbx := rfl
@[simp] theorem State.allStks_blkLogs (f : Stook → Stook) : (s.allStks f).blkLogs = s.blkLogs := rfl
@[simp] theorem State.allStks_scratch (f : Stook → Stook) : (s.allStks f).scratch = s.scratch := rfl
@[simp] theorem State.allStks_groups (f : Stook → Stook) : (s.allStks f).groups = s.groups := rfl
@[simp] theorem State.allStks_adminBars (f : Stook → Stook) : (s.allStks f).adminBars = s.adminBars := rfl
@[simp] theorem State.allStks_lastLoss (f : Stook → Stook) : (s.allStks f).lastLoss = s.lastLoss := rfl
@[simp] theorem State.allStks_clk (f : Stook → Stook) : (s.allStks f).clk = s.clk := rfl

/-! ### State.onSlot -/
@[simp] theorem State.onSlot_pending (k : Nat) (f : Slot → Slot) : (s.onSlot k f).pending = s.pending := rfl
@[simp] theorem State.onSlot_now (k : Nat) (f : Slot → Slot) : (s.onSlot k f).now = s.now := rfl
@[simp] theorem State.onSlot_free (k : Nat) (f : Slot → Slot) : (s.onSlot k f).free = s.free := rfl
@[simp] theorem State.onSlot_out (k : Nat) (f : Slot → Slot) : (s.onSlot k f).out = s.out := rfl
@[simp] theorem State.onSlot_parts (k : Nat) (f : Slot → Slot) : (s.onSlot k f).parts = s.parts := rfl
@[simp] theorem State.onSlot_hosts (k : Nat) (f : Slot → Slot) : (s.onSlot k f).hosts = s.hosts := rfl
@[simp] theorem State.onSlot_intakes (k : Nat) (f : Slot → Slot) : (s.onSlot k f).intakes = s.intakes := rfl
@[simp] theorem State.onSlot_slices (k : Nat) (f : Slot → Slot) : (s.onSlot k f).slices = s.slices := rfl
@[simp] theorem State.onSlot_stooks (k : Nat) (f : Slot → Slot) : (s.onSlot k f).stooks = s.stooks := rfl
@[simp] theorem State.onSlot_mports (k : Nat) (f : Slot → Slot) : (s.onSlot k f).mports = s.mports := rfl
@[simp] theorem State.onSlot_twin (k : Nat) (f : Slot → Slot) : (s.onSlot k f).twin = s.twin := rfl
@[simp] theorem State.onSlot_place (k : Nat) (f : Slot → Slot) : (s.onSlot k f).place = s.place := rfl
@[simp] theorem State.onSlot_dirGen (k : Nat) (f : Slot → Slot) : (s.onSlot k f).dirGen = s.dirGen := rfl
@[simp] theorem State.onSlot_events (k : Nat) (f : Slot → Slot) : (s.onSlot k f).events = s.events := rfl
@[simp] theorem State.onSlot_evSeq (k : Nat) (f : Slot → Slot) : (s.onSlot k f).evSeq = s.evSeq := rfl
@[simp] theorem State.onSlot_evLost (k : Nat) (f : Slot → Slot) : (s.onSlot k f).evLost = s.evLost := rfl
@[simp] theorem State.onSlot_live (k : Nat) (f : Slot → Slot) : (s.onSlot k f).live = s.live := rfl
@[simp] theorem State.onSlot_holding (k : Nat) (f : Slot → Slot) : (s.onSlot k f).holding = s.holding := rfl
@[simp] theorem State.onSlot_ignLast (k : Nat) (f : Slot → Slot) : (s.onSlot k f).ignLast = s.ignLast := rfl
@[simp] theorem State.onSlot_credits (k : Nat) (f : Slot → Slot) : (s.onSlot k f).credits = s.credits := rfl
@[simp] theorem State.onSlot_resends (k : Nat) (f : Slot → Slot) : (s.onSlot k f).resends = s.resends := rfl
@[simp] theorem State.onSlot_win (k : Nat) (f : Slot → Slot) : (s.onSlot k f).win = s.win := rfl
@[simp] theorem State.onSlot_rch (k : Nat) (f : Slot → Slot) : (s.onSlot k f).rch = s.rch := rfl
@[simp] theorem State.onSlot_blk (k : Nat) (f : Slot → Slot) : (s.onSlot k f).blk = s.blk := rfl
@[simp] theorem State.onSlot_pwr (k : Nat) (f : Slot → Slot) : (s.onSlot k f).pwr = s.pwr := rfl
@[simp] theorem State.onSlot_mbx (k : Nat) (f : Slot → Slot) : (s.onSlot k f).mbx = s.mbx := rfl
@[simp] theorem State.onSlot_blkLogs (k : Nat) (f : Slot → Slot) : (s.onSlot k f).blkLogs = s.blkLogs := rfl
@[simp] theorem State.onSlot_scratch (k : Nat) (f : Slot → Slot) : (s.onSlot k f).scratch = s.scratch := rfl
@[simp] theorem State.onSlot_groups (k : Nat) (f : Slot → Slot) : (s.onSlot k f).groups = s.groups := rfl
@[simp] theorem State.onSlot_adminBars (k : Nat) (f : Slot → Slot) : (s.onSlot k f).adminBars = s.adminBars := rfl
@[simp] theorem State.onSlot_lastLoss (k : Nat) (f : Slot → Slot) : (s.onSlot k f).lastLoss = s.lastLoss := rfl
@[simp] theorem State.onSlot_clk (k : Nat) (f : Slot → Slot) : (s.onSlot k f).clk = s.clk := rfl

/-! ### State.onMer -/
@[simp] theorem State.onMer_pending (f : Mer → Mer) : (s.onMer f).pending = s.pending := rfl
@[simp] theorem State.onMer_now (f : Mer → Mer) : (s.onMer f).now = s.now := rfl
@[simp] theorem State.onMer_free (f : Mer → Mer) : (s.onMer f).free = s.free := rfl
@[simp] theorem State.onMer_out (f : Mer → Mer) : (s.onMer f).out = s.out := rfl
@[simp] theorem State.onMer_parts (f : Mer → Mer) : (s.onMer f).parts = s.parts := rfl
@[simp] theorem State.onMer_hosts (f : Mer → Mer) : (s.onMer f).hosts = s.hosts := rfl
@[simp] theorem State.onMer_intakes (f : Mer → Mer) : (s.onMer f).intakes = s.intakes := rfl
@[simp] theorem State.onMer_slices (f : Mer → Mer) : (s.onMer f).slices = s.slices := rfl
@[simp] theorem State.onMer_stooks (f : Mer → Mer) : (s.onMer f).stooks = s.stooks := rfl
@[simp] theorem State.onMer_mports (f : Mer → Mer) : (s.onMer f).mports = s.mports := rfl
@[simp] theorem State.onMer_mer (f : Mer → Mer) : (s.onMer f).mer = f s.mer := rfl
@[simp] theorem State.onMer_twin (f : Mer → Mer) : (s.onMer f).twin = s.twin := rfl
@[simp] theorem State.onMer_place (f : Mer → Mer) : (s.onMer f).place = s.place := rfl
@[simp] theorem State.onMer_dirGen (f : Mer → Mer) : (s.onMer f).dirGen = s.dirGen := rfl
@[simp] theorem State.onMer_events (f : Mer → Mer) : (s.onMer f).events = s.events := rfl
@[simp] theorem State.onMer_evSeq (f : Mer → Mer) : (s.onMer f).evSeq = s.evSeq := rfl
@[simp] theorem State.onMer_evLost (f : Mer → Mer) : (s.onMer f).evLost = s.evLost := rfl
@[simp] theorem State.onMer_live (f : Mer → Mer) : (s.onMer f).live = s.live := rfl
@[simp] theorem State.onMer_holding (f : Mer → Mer) : (s.onMer f).holding = s.holding := rfl
@[simp] theorem State.onMer_ignLast (f : Mer → Mer) : (s.onMer f).ignLast = s.ignLast := rfl
@[simp] theorem State.onMer_credits (f : Mer → Mer) : (s.onMer f).credits = s.credits := rfl
@[simp] theorem State.onMer_resends (f : Mer → Mer) : (s.onMer f).resends = s.resends := rfl
@[simp] theorem State.onMer_win (f : Mer → Mer) : (s.onMer f).win = s.win := rfl
@[simp] theorem State.onMer_rch (f : Mer → Mer) : (s.onMer f).rch = s.rch := rfl
@[simp] theorem State.onMer_blk (f : Mer → Mer) : (s.onMer f).blk = s.blk := rfl
@[simp] theorem State.onMer_pwr (f : Mer → Mer) : (s.onMer f).pwr = s.pwr := rfl
@[simp] theorem State.onMer_mbx (f : Mer → Mer) : (s.onMer f).mbx = s.mbx := rfl
@[simp] theorem State.onMer_blkLogs (f : Mer → Mer) : (s.onMer f).blkLogs = s.blkLogs := rfl
@[simp] theorem State.onMer_scratch (f : Mer → Mer) : (s.onMer f).scratch = s.scratch := rfl
@[simp] theorem State.onMer_groups (f : Mer → Mer) : (s.onMer f).groups = s.groups := rfl
@[simp] theorem State.onMer_adminBars (f : Mer → Mer) : (s.onMer f).adminBars = s.adminBars := rfl
@[simp] theorem State.onMer_lastLoss (f : Mer → Mer) : (s.onMer f).lastLoss = s.lastLoss := rfl
@[simp] theorem State.onMer_clk (f : Mer → Mer) : (s.onMer f).clk = s.clk := rfl

/-! ### State.onTwin -/
@[simp] theorem State.onTwin_pending (f : Twin → Twin) : (s.onTwin f).pending = s.pending := rfl
@[simp] theorem State.onTwin_now (f : Twin → Twin) : (s.onTwin f).now = s.now := rfl
@[simp] theorem State.onTwin_free (f : Twin → Twin) : (s.onTwin f).free = s.free := rfl
@[simp] theorem State.onTwin_out (f : Twin → Twin) : (s.onTwin f).out = s.out := rfl
@[simp] theorem State.onTwin_parts (f : Twin → Twin) : (s.onTwin f).parts = s.parts := rfl
@[simp] theorem State.onTwin_hosts (f : Twin → Twin) : (s.onTwin f).hosts = s.hosts := rfl
@[simp] theorem State.onTwin_intakes (f : Twin → Twin) : (s.onTwin f).intakes = s.intakes := rfl
@[simp] theorem State.onTwin_slices (f : Twin → Twin) : (s.onTwin f).slices = s.slices := rfl
@[simp] theorem State.onTwin_stooks (f : Twin → Twin) : (s.onTwin f).stooks = s.stooks := rfl
@[simp] theorem State.onTwin_mports (f : Twin → Twin) : (s.onTwin f).mports = s.mports := rfl
@[simp] theorem State.onTwin_mer (f : Twin → Twin) : (s.onTwin f).mer = s.mer := rfl
@[simp] theorem State.onTwin_twin (f : Twin → Twin) : (s.onTwin f).twin = f s.twin := rfl
@[simp] theorem State.onTwin_place (f : Twin → Twin) : (s.onTwin f).place = s.place := rfl
@[simp] theorem State.onTwin_dirGen (f : Twin → Twin) : (s.onTwin f).dirGen = s.dirGen := rfl
@[simp] theorem State.onTwin_events (f : Twin → Twin) : (s.onTwin f).events = s.events := rfl
@[simp] theorem State.onTwin_evSeq (f : Twin → Twin) : (s.onTwin f).evSeq = s.evSeq := rfl
@[simp] theorem State.onTwin_evLost (f : Twin → Twin) : (s.onTwin f).evLost = s.evLost := rfl
@[simp] theorem State.onTwin_live (f : Twin → Twin) : (s.onTwin f).live = s.live := rfl
@[simp] theorem State.onTwin_holding (f : Twin → Twin) : (s.onTwin f).holding = s.holding := rfl
@[simp] theorem State.onTwin_ignLast (f : Twin → Twin) : (s.onTwin f).ignLast = s.ignLast := rfl
@[simp] theorem State.onTwin_credits (f : Twin → Twin) : (s.onTwin f).credits = s.credits := rfl
@[simp] theorem State.onTwin_resends (f : Twin → Twin) : (s.onTwin f).resends = s.resends := rfl
@[simp] theorem State.onTwin_win (f : Twin → Twin) : (s.onTwin f).win = s.win := rfl
@[simp] theorem State.onTwin_rch (f : Twin → Twin) : (s.onTwin f).rch = s.rch := rfl
@[simp] theorem State.onTwin_blk (f : Twin → Twin) : (s.onTwin f).blk = s.blk := rfl
@[simp] theorem State.onTwin_pwr (f : Twin → Twin) : (s.onTwin f).pwr = s.pwr := rfl
@[simp] theorem State.onTwin_mbx (f : Twin → Twin) : (s.onTwin f).mbx = s.mbx := rfl
@[simp] theorem State.onTwin_blkLogs (f : Twin → Twin) : (s.onTwin f).blkLogs = s.blkLogs := rfl
@[simp] theorem State.onTwin_scratch (f : Twin → Twin) : (s.onTwin f).scratch = s.scratch := rfl
@[simp] theorem State.onTwin_groups (f : Twin → Twin) : (s.onTwin f).groups = s.groups := rfl
@[simp] theorem State.onTwin_adminBars (f : Twin → Twin) : (s.onTwin f).adminBars = s.adminBars := rfl
@[simp] theorem State.onTwin_lastLoss (f : Twin → Twin) : (s.onTwin f).lastLoss = s.lastLoss := rfl
@[simp] theorem State.onTwin_clk (f : Twin → Twin) : (s.onTwin f).clk = s.clk := rfl

/-! ### State.onPlace -/
@[simp] theorem State.onPlace_pending (f : Place → Place) : (s.onPlace f).pending = s.pending := rfl
@[simp] theorem State.onPlace_now (f : Place → Place) : (s.onPlace f).now = s.now := rfl
@[simp] theorem State.onPlace_free (f : Place → Place) : (s.onPlace f).free = s.free := rfl
@[simp] theorem State.onPlace_out (f : Place → Place) : (s.onPlace f).out = s.out := rfl
@[simp] theorem State.onPlace_parts (f : Place → Place) : (s.onPlace f).parts = s.parts := rfl
@[simp] theorem State.onPlace_hosts (f : Place → Place) : (s.onPlace f).hosts = s.hosts := rfl
@[simp] theorem State.onPlace_intakes (f : Place → Place) : (s.onPlace f).intakes = s.intakes := rfl
@[simp] theorem State.onPlace_slices (f : Place → Place) : (s.onPlace f).slices = s.slices := rfl
@[simp] theorem State.onPlace_stooks (f : Place → Place) : (s.onPlace f).stooks = s.stooks := rfl
@[simp] theorem State.onPlace_mports (f : Place → Place) : (s.onPlace f).mports = s.mports := rfl
@[simp] theorem State.onPlace_mer (f : Place → Place) : (s.onPlace f).mer = s.mer := rfl
@[simp] theorem State.onPlace_twin (f : Place → Place) : (s.onPlace f).twin = s.twin := rfl
@[simp] theorem State.onPlace_place (f : Place → Place) : (s.onPlace f).place = f s.place := rfl
@[simp] theorem State.onPlace_dirGen (f : Place → Place) : (s.onPlace f).dirGen = s.dirGen := rfl
@[simp] theorem State.onPlace_events (f : Place → Place) : (s.onPlace f).events = s.events := rfl
@[simp] theorem State.onPlace_evSeq (f : Place → Place) : (s.onPlace f).evSeq = s.evSeq := rfl
@[simp] theorem State.onPlace_evLost (f : Place → Place) : (s.onPlace f).evLost = s.evLost := rfl
@[simp] theorem State.onPlace_live (f : Place → Place) : (s.onPlace f).live = s.live := rfl
@[simp] theorem State.onPlace_holding (f : Place → Place) : (s.onPlace f).holding = s.holding := rfl
@[simp] theorem State.onPlace_ignLast (f : Place → Place) : (s.onPlace f).ignLast = s.ignLast := rfl
@[simp] theorem State.onPlace_credits (f : Place → Place) : (s.onPlace f).credits = s.credits := rfl
@[simp] theorem State.onPlace_resends (f : Place → Place) : (s.onPlace f).resends = s.resends := rfl
@[simp] theorem State.onPlace_win (f : Place → Place) : (s.onPlace f).win = s.win := rfl
@[simp] theorem State.onPlace_rch (f : Place → Place) : (s.onPlace f).rch = s.rch := rfl
@[simp] theorem State.onPlace_blk (f : Place → Place) : (s.onPlace f).blk = s.blk := rfl
@[simp] theorem State.onPlace_pwr (f : Place → Place) : (s.onPlace f).pwr = s.pwr := rfl
@[simp] theorem State.onPlace_mbx (f : Place → Place) : (s.onPlace f).mbx = s.mbx := rfl
@[simp] theorem State.onPlace_blkLogs (f : Place → Place) : (s.onPlace f).blkLogs = s.blkLogs := rfl
@[simp] theorem State.onPlace_scratch (f : Place → Place) : (s.onPlace f).scratch = s.scratch := rfl
@[simp] theorem State.onPlace_groups (f : Place → Place) : (s.onPlace f).groups = s.groups := rfl
@[simp] theorem State.onPlace_adminBars (f : Place → Place) : (s.onPlace f).adminBars = s.adminBars := rfl
@[simp] theorem State.onPlace_lastLoss (f : Place → Place) : (s.onPlace f).lastLoss = s.lastLoss := rfl
@[simp] theorem State.onPlace_clk (f : Place → Place) : (s.onPlace f).clk = s.clk := rfl

/-! ### State.onWin -/
@[simp] theorem State.onWin_pending (f : Win → Win) : (s.onWin f).pending = s.pending := rfl
@[simp] theorem State.onWin_now (f : Win → Win) : (s.onWin f).now = s.now := rfl
@[simp] theorem State.onWin_free (f : Win → Win) : (s.onWin f).free = s.free := rfl
@[simp] theorem State.onWin_out (f : Win → Win) : (s.onWin f).out = s.out := rfl
@[simp] theorem State.onWin_parts (f : Win → Win) : (s.onWin f).parts = s.parts := rfl
@[simp] theorem State.onWin_hosts (f : Win → Win) : (s.onWin f).hosts = s.hosts := rfl
@[simp] theorem State.onWin_intakes (f : Win → Win) : (s.onWin f).intakes = s.intakes := rfl
@[simp] theorem State.onWin_slices (f : Win → Win) : (s.onWin f).slices = s.slices := rfl
@[simp] theorem State.onWin_stooks (f : Win → Win) : (s.onWin f).stooks = s.stooks := rfl
@[simp] theorem State.onWin_mports (f : Win → Win) : (s.onWin f).mports = s.mports := rfl
@[simp] theorem State.onWin_mer (f : Win → Win) : (s.onWin f).mer = s.mer := rfl
@[simp] theorem State.onWin_twin (f : Win → Win) : (s.onWin f).twin = s.twin := rfl
@[simp] theorem State.onWin_place (f : Win → Win) : (s.onWin f).place = s.place := rfl
@[simp] theorem State.onWin_dirGen (f : Win → Win) : (s.onWin f).dirGen = s.dirGen := rfl
@[simp] theorem State.onWin_events (f : Win → Win) : (s.onWin f).events = s.events := rfl
@[simp] theorem State.onWin_evSeq (f : Win → Win) : (s.onWin f).evSeq = s.evSeq := rfl
@[simp] theorem State.onWin_evLost (f : Win → Win) : (s.onWin f).evLost = s.evLost := rfl
@[simp] theorem State.onWin_live (f : Win → Win) : (s.onWin f).live = s.live := rfl
@[simp] theorem State.onWin_holding (f : Win → Win) : (s.onWin f).holding = s.holding := rfl
@[simp] theorem State.onWin_ignLast (f : Win → Win) : (s.onWin f).ignLast = s.ignLast := rfl
@[simp] theorem State.onWin_credits (f : Win → Win) : (s.onWin f).credits = s.credits := rfl
@[simp] theorem State.onWin_resends (f : Win → Win) : (s.onWin f).resends = s.resends := rfl
@[simp] theorem State.onWin_win (f : Win → Win) : (s.onWin f).win = f s.win := rfl
@[simp] theorem State.onWin_rch (f : Win → Win) : (s.onWin f).rch = s.rch := rfl
@[simp] theorem State.onWin_blk (f : Win → Win) : (s.onWin f).blk = s.blk := rfl
@[simp] theorem State.onWin_pwr (f : Win → Win) : (s.onWin f).pwr = s.pwr := rfl
@[simp] theorem State.onWin_mbx (f : Win → Win) : (s.onWin f).mbx = s.mbx := rfl
@[simp] theorem State.onWin_blkLogs (f : Win → Win) : (s.onWin f).blkLogs = s.blkLogs := rfl
@[simp] theorem State.onWin_scratch (f : Win → Win) : (s.onWin f).scratch = s.scratch := rfl
@[simp] theorem State.onWin_groups (f : Win → Win) : (s.onWin f).groups = s.groups := rfl
@[simp] theorem State.onWin_adminBars (f : Win → Win) : (s.onWin f).adminBars = s.adminBars := rfl
@[simp] theorem State.onWin_lastLoss (f : Win → Win) : (s.onWin f).lastLoss = s.lastLoss := rfl
@[simp] theorem State.onWin_clk (f : Win → Win) : (s.onWin f).clk = s.clk := rfl

/-! ### State.onRch -/
@[simp] theorem State.onRch_pending (f : Rachis → Rachis) : (s.onRch f).pending = s.pending := rfl
@[simp] theorem State.onRch_now (f : Rachis → Rachis) : (s.onRch f).now = s.now := rfl
@[simp] theorem State.onRch_free (f : Rachis → Rachis) : (s.onRch f).free = s.free := rfl
@[simp] theorem State.onRch_out (f : Rachis → Rachis) : (s.onRch f).out = s.out := rfl
@[simp] theorem State.onRch_parts (f : Rachis → Rachis) : (s.onRch f).parts = s.parts := rfl
@[simp] theorem State.onRch_hosts (f : Rachis → Rachis) : (s.onRch f).hosts = s.hosts := rfl
@[simp] theorem State.onRch_intakes (f : Rachis → Rachis) : (s.onRch f).intakes = s.intakes := rfl
@[simp] theorem State.onRch_slices (f : Rachis → Rachis) : (s.onRch f).slices = s.slices := rfl
@[simp] theorem State.onRch_stooks (f : Rachis → Rachis) : (s.onRch f).stooks = s.stooks := rfl
@[simp] theorem State.onRch_mports (f : Rachis → Rachis) : (s.onRch f).mports = s.mports := rfl
@[simp] theorem State.onRch_mer (f : Rachis → Rachis) : (s.onRch f).mer = s.mer := rfl
@[simp] theorem State.onRch_twin (f : Rachis → Rachis) : (s.onRch f).twin = s.twin := rfl
@[simp] theorem State.onRch_place (f : Rachis → Rachis) : (s.onRch f).place = s.place := rfl
@[simp] theorem State.onRch_dirGen (f : Rachis → Rachis) : (s.onRch f).dirGen = s.dirGen := rfl
@[simp] theorem State.onRch_events (f : Rachis → Rachis) : (s.onRch f).events = s.events := rfl
@[simp] theorem State.onRch_evSeq (f : Rachis → Rachis) : (s.onRch f).evSeq = s.evSeq := rfl
@[simp] theorem State.onRch_evLost (f : Rachis → Rachis) : (s.onRch f).evLost = s.evLost := rfl
@[simp] theorem State.onRch_live (f : Rachis → Rachis) : (s.onRch f).live = s.live := rfl
@[simp] theorem State.onRch_holding (f : Rachis → Rachis) : (s.onRch f).holding = s.holding := rfl
@[simp] theorem State.onRch_ignLast (f : Rachis → Rachis) : (s.onRch f).ignLast = s.ignLast := rfl
@[simp] theorem State.onRch_credits (f : Rachis → Rachis) : (s.onRch f).credits = s.credits := rfl
@[simp] theorem State.onRch_resends (f : Rachis → Rachis) : (s.onRch f).resends = s.resends := rfl
@[simp] theorem State.onRch_win (f : Rachis → Rachis) : (s.onRch f).win = s.win := rfl
@[simp] theorem State.onRch_rch (f : Rachis → Rachis) : (s.onRch f).rch = f s.rch := rfl
@[simp] theorem State.onRch_blk (f : Rachis → Rachis) : (s.onRch f).blk = s.blk := rfl
@[simp] theorem State.onRch_pwr (f : Rachis → Rachis) : (s.onRch f).pwr = s.pwr := rfl
@[simp] theorem State.onRch_mbx (f : Rachis → Rachis) : (s.onRch f).mbx = s.mbx := rfl
@[simp] theorem State.onRch_blkLogs (f : Rachis → Rachis) : (s.onRch f).blkLogs = s.blkLogs := rfl
@[simp] theorem State.onRch_scratch (f : Rachis → Rachis) : (s.onRch f).scratch = s.scratch := rfl
@[simp] theorem State.onRch_groups (f : Rachis → Rachis) : (s.onRch f).groups = s.groups := rfl
@[simp] theorem State.onRch_adminBars (f : Rachis → Rachis) : (s.onRch f).adminBars = s.adminBars := rfl
@[simp] theorem State.onRch_lastLoss (f : Rachis → Rachis) : (s.onRch f).lastLoss = s.lastLoss := rfl
@[simp] theorem State.onRch_clk (f : Rachis → Rachis) : (s.onRch f).clk = s.clk := rfl

/-! ### State.onBlk -/
@[simp] theorem State.onBlk_pending (f : Blk → Blk) : (s.onBlk f).pending = s.pending := rfl
@[simp] theorem State.onBlk_now (f : Blk → Blk) : (s.onBlk f).now = s.now := rfl
@[simp] theorem State.onBlk_free (f : Blk → Blk) : (s.onBlk f).free = s.free := rfl
@[simp] theorem State.onBlk_out (f : Blk → Blk) : (s.onBlk f).out = s.out := rfl
@[simp] theorem State.onBlk_parts (f : Blk → Blk) : (s.onBlk f).parts = s.parts := rfl
@[simp] theorem State.onBlk_hosts (f : Blk → Blk) : (s.onBlk f).hosts = s.hosts := rfl
@[simp] theorem State.onBlk_intakes (f : Blk → Blk) : (s.onBlk f).intakes = s.intakes := rfl
@[simp] theorem State.onBlk_slices (f : Blk → Blk) : (s.onBlk f).slices = s.slices := rfl
@[simp] theorem State.onBlk_stooks (f : Blk → Blk) : (s.onBlk f).stooks = s.stooks := rfl
@[simp] theorem State.onBlk_mports (f : Blk → Blk) : (s.onBlk f).mports = s.mports := rfl
@[simp] theorem State.onBlk_mer (f : Blk → Blk) : (s.onBlk f).mer = s.mer := rfl
@[simp] theorem State.onBlk_twin (f : Blk → Blk) : (s.onBlk f).twin = s.twin := rfl
@[simp] theorem State.onBlk_place (f : Blk → Blk) : (s.onBlk f).place = s.place := rfl
@[simp] theorem State.onBlk_dirGen (f : Blk → Blk) : (s.onBlk f).dirGen = s.dirGen := rfl
@[simp] theorem State.onBlk_events (f : Blk → Blk) : (s.onBlk f).events = s.events := rfl
@[simp] theorem State.onBlk_evSeq (f : Blk → Blk) : (s.onBlk f).evSeq = s.evSeq := rfl
@[simp] theorem State.onBlk_evLost (f : Blk → Blk) : (s.onBlk f).evLost = s.evLost := rfl
@[simp] theorem State.onBlk_live (f : Blk → Blk) : (s.onBlk f).live = s.live := rfl
@[simp] theorem State.onBlk_holding (f : Blk → Blk) : (s.onBlk f).holding = s.holding := rfl
@[simp] theorem State.onBlk_ignLast (f : Blk → Blk) : (s.onBlk f).ignLast = s.ignLast := rfl
@[simp] theorem State.onBlk_credits (f : Blk → Blk) : (s.onBlk f).credits = s.credits := rfl
@[simp] theorem State.onBlk_resends (f : Blk → Blk) : (s.onBlk f).resends = s.resends := rfl
@[simp] theorem State.onBlk_win (f : Blk → Blk) : (s.onBlk f).win = s.win := rfl
@[simp] theorem State.onBlk_rch (f : Blk → Blk) : (s.onBlk f).rch = s.rch := rfl
@[simp] theorem State.onBlk_blk (f : Blk → Blk) : (s.onBlk f).blk = f s.blk := rfl
@[simp] theorem State.onBlk_pwr (f : Blk → Blk) : (s.onBlk f).pwr = s.pwr := rfl
@[simp] theorem State.onBlk_mbx (f : Blk → Blk) : (s.onBlk f).mbx = s.mbx := rfl
@[simp] theorem State.onBlk_blkLogs (f : Blk → Blk) : (s.onBlk f).blkLogs = s.blkLogs := rfl
@[simp] theorem State.onBlk_scratch (f : Blk → Blk) : (s.onBlk f).scratch = s.scratch := rfl
@[simp] theorem State.onBlk_groups (f : Blk → Blk) : (s.onBlk f).groups = s.groups := rfl
@[simp] theorem State.onBlk_adminBars (f : Blk → Blk) : (s.onBlk f).adminBars = s.adminBars := rfl
@[simp] theorem State.onBlk_lastLoss (f : Blk → Blk) : (s.onBlk f).lastLoss = s.lastLoss := rfl
@[simp] theorem State.onBlk_clk (f : Blk → Blk) : (s.onBlk f).clk = s.clk := rfl

/-! ### State.onPwr -/
@[simp] theorem State.onPwr_pending (f : Pwr → Pwr) : (s.onPwr f).pending = s.pending := rfl
@[simp] theorem State.onPwr_now (f : Pwr → Pwr) : (s.onPwr f).now = s.now := rfl
@[simp] theorem State.onPwr_free (f : Pwr → Pwr) : (s.onPwr f).free = s.free := rfl
@[simp] theorem State.onPwr_out (f : Pwr → Pwr) : (s.onPwr f).out = s.out := rfl
@[simp] theorem State.onPwr_parts (f : Pwr → Pwr) : (s.onPwr f).parts = s.parts := rfl
@[simp] theorem State.onPwr_hosts (f : Pwr → Pwr) : (s.onPwr f).hosts = s.hosts := rfl
@[simp] theorem State.onPwr_intakes (f : Pwr → Pwr) : (s.onPwr f).intakes = s.intakes := rfl
@[simp] theorem State.onPwr_slices (f : Pwr → Pwr) : (s.onPwr f).slices = s.slices := rfl
@[simp] theorem State.onPwr_stooks (f : Pwr → Pwr) : (s.onPwr f).stooks = s.stooks := rfl
@[simp] theorem State.onPwr_mports (f : Pwr → Pwr) : (s.onPwr f).mports = s.mports := rfl
@[simp] theorem State.onPwr_mer (f : Pwr → Pwr) : (s.onPwr f).mer = s.mer := rfl
@[simp] theorem State.onPwr_twin (f : Pwr → Pwr) : (s.onPwr f).twin = s.twin := rfl
@[simp] theorem State.onPwr_place (f : Pwr → Pwr) : (s.onPwr f).place = s.place := rfl
@[simp] theorem State.onPwr_dirGen (f : Pwr → Pwr) : (s.onPwr f).dirGen = s.dirGen := rfl
@[simp] theorem State.onPwr_events (f : Pwr → Pwr) : (s.onPwr f).events = s.events := rfl
@[simp] theorem State.onPwr_evSeq (f : Pwr → Pwr) : (s.onPwr f).evSeq = s.evSeq := rfl
@[simp] theorem State.onPwr_evLost (f : Pwr → Pwr) : (s.onPwr f).evLost = s.evLost := rfl
@[simp] theorem State.onPwr_live (f : Pwr → Pwr) : (s.onPwr f).live = s.live := rfl
@[simp] theorem State.onPwr_holding (f : Pwr → Pwr) : (s.onPwr f).holding = s.holding := rfl
@[simp] theorem State.onPwr_ignLast (f : Pwr → Pwr) : (s.onPwr f).ignLast = s.ignLast := rfl
@[simp] theorem State.onPwr_credits (f : Pwr → Pwr) : (s.onPwr f).credits = s.credits := rfl
@[simp] theorem State.onPwr_resends (f : Pwr → Pwr) : (s.onPwr f).resends = s.resends := rfl
@[simp] theorem State.onPwr_win (f : Pwr → Pwr) : (s.onPwr f).win = s.win := rfl
@[simp] theorem State.onPwr_rch (f : Pwr → Pwr) : (s.onPwr f).rch = s.rch := rfl
@[simp] theorem State.onPwr_blk (f : Pwr → Pwr) : (s.onPwr f).blk = s.blk := rfl
@[simp] theorem State.onPwr_pwr (f : Pwr → Pwr) : (s.onPwr f).pwr = f s.pwr := rfl
@[simp] theorem State.onPwr_mbx (f : Pwr → Pwr) : (s.onPwr f).mbx = s.mbx := rfl
@[simp] theorem State.onPwr_blkLogs (f : Pwr → Pwr) : (s.onPwr f).blkLogs = s.blkLogs := rfl
@[simp] theorem State.onPwr_scratch (f : Pwr → Pwr) : (s.onPwr f).scratch = s.scratch := rfl
@[simp] theorem State.onPwr_groups (f : Pwr → Pwr) : (s.onPwr f).groups = s.groups := rfl
@[simp] theorem State.onPwr_adminBars (f : Pwr → Pwr) : (s.onPwr f).adminBars = s.adminBars := rfl
@[simp] theorem State.onPwr_lastLoss (f : Pwr → Pwr) : (s.onPwr f).lastLoss = s.lastLoss := rfl
@[simp] theorem State.onPwr_clk (f : Pwr → Pwr) : (s.onPwr f).clk = s.clk := rfl

/-! ### State.onBox -/
@[simp] theorem State.onBox_pending (m : Nat) (f : MBox → MBox) : (s.onBox m f).pending = s.pending := rfl
@[simp] theorem State.onBox_now (m : Nat) (f : MBox → MBox) : (s.onBox m f).now = s.now := rfl
@[simp] theorem State.onBox_free (m : Nat) (f : MBox → MBox) : (s.onBox m f).free = s.free := rfl
@[simp] theorem State.onBox_out (m : Nat) (f : MBox → MBox) : (s.onBox m f).out = s.out := rfl
@[simp] theorem State.onBox_parts (m : Nat) (f : MBox → MBox) : (s.onBox m f).parts = s.parts := rfl
@[simp] theorem State.onBox_hosts (m : Nat) (f : MBox → MBox) : (s.onBox m f).hosts = s.hosts := rfl
@[simp] theorem State.onBox_intakes (m : Nat) (f : MBox → MBox) : (s.onBox m f).intakes = s.intakes := rfl
@[simp] theorem State.onBox_slices (m : Nat) (f : MBox → MBox) : (s.onBox m f).slices = s.slices := rfl
@[simp] theorem State.onBox_stooks (m : Nat) (f : MBox → MBox) : (s.onBox m f).stooks = s.stooks := rfl
@[simp] theorem State.onBox_mports (m : Nat) (f : MBox → MBox) : (s.onBox m f).mports = s.mports := rfl
@[simp] theorem State.onBox_mer (m : Nat) (f : MBox → MBox) : (s.onBox m f).mer = s.mer := rfl
@[simp] theorem State.onBox_twin (m : Nat) (f : MBox → MBox) : (s.onBox m f).twin = s.twin := rfl
@[simp] theorem State.onBox_place (m : Nat) (f : MBox → MBox) : (s.onBox m f).place = s.place := rfl
@[simp] theorem State.onBox_dirGen (m : Nat) (f : MBox → MBox) : (s.onBox m f).dirGen = s.dirGen := rfl
@[simp] theorem State.onBox_events (m : Nat) (f : MBox → MBox) : (s.onBox m f).events = s.events := rfl
@[simp] theorem State.onBox_evSeq (m : Nat) (f : MBox → MBox) : (s.onBox m f).evSeq = s.evSeq := rfl
@[simp] theorem State.onBox_evLost (m : Nat) (f : MBox → MBox) : (s.onBox m f).evLost = s.evLost := rfl
@[simp] theorem State.onBox_live (m : Nat) (f : MBox → MBox) : (s.onBox m f).live = s.live := rfl
@[simp] theorem State.onBox_holding (m : Nat) (f : MBox → MBox) : (s.onBox m f).holding = s.holding := rfl
@[simp] theorem State.onBox_ignLast (m : Nat) (f : MBox → MBox) : (s.onBox m f).ignLast = s.ignLast := rfl
@[simp] theorem State.onBox_credits (m : Nat) (f : MBox → MBox) : (s.onBox m f).credits = s.credits := rfl
@[simp] theorem State.onBox_resends (m : Nat) (f : MBox → MBox) : (s.onBox m f).resends = s.resends := rfl
@[simp] theorem State.onBox_win (m : Nat) (f : MBox → MBox) : (s.onBox m f).win = s.win := rfl
@[simp] theorem State.onBox_rch (m : Nat) (f : MBox → MBox) : (s.onBox m f).rch = s.rch := rfl
@[simp] theorem State.onBox_blk (m : Nat) (f : MBox → MBox) : (s.onBox m f).blk = s.blk := rfl
@[simp] theorem State.onBox_pwr (m : Nat) (f : MBox → MBox) : (s.onBox m f).pwr = s.pwr := rfl
@[simp] theorem State.onBox_mbx (m : Nat) (f : MBox → MBox) : (s.onBox m f).mbx = Tbl.set s.mbx m (f (s.box m)) := rfl
@[simp] theorem State.onBox_blkLogs (m : Nat) (f : MBox → MBox) : (s.onBox m f).blkLogs = s.blkLogs := rfl
@[simp] theorem State.onBox_scratch (m : Nat) (f : MBox → MBox) : (s.onBox m f).scratch = s.scratch := rfl
@[simp] theorem State.onBox_groups (m : Nat) (f : MBox → MBox) : (s.onBox m f).groups = s.groups := rfl
@[simp] theorem State.onBox_adminBars (m : Nat) (f : MBox → MBox) : (s.onBox m f).adminBars = s.adminBars := rfl
@[simp] theorem State.onBox_lastLoss (m : Nat) (f : MBox → MBox) : (s.onBox m f).lastLoss = s.lastLoss := rfl
@[simp] theorem State.onBox_clk (m : Nat) (f : MBox → MBox) : (s.onBox m f).clk = s.clk := rfl

/-! ### State.putEnt -/
@[simp] theorem State.putEnt_pending (n e : Nat) (x : Entry) : (s.putEnt n e x).pending = s.pending := rfl
@[simp] theorem State.putEnt_now (n e : Nat) (x : Entry) : (s.putEnt n e x).now = s.now := rfl
@[simp] theorem State.putEnt_free (n e : Nat) (x : Entry) : (s.putEnt n e x).free = s.free := rfl
@[simp] theorem State.putEnt_out (n e : Nat) (x : Entry) : (s.putEnt n e x).out = s.out := rfl
@[simp] theorem State.putEnt_parts (n e : Nat) (x : Entry) : (s.putEnt n e x).parts = s.parts := rfl
@[simp] theorem State.putEnt_hosts (n e : Nat) (x : Entry) : (s.putEnt n e x).hosts = s.hosts := rfl
@[simp] theorem State.putEnt_intakes (n e : Nat) (x : Entry) : (s.putEnt n e x).intakes = s.intakes := rfl
@[simp] theorem State.putEnt_stooks (n e : Nat) (x : Entry) : (s.putEnt n e x).stooks = s.stooks := rfl
@[simp] theorem State.putEnt_mports (n e : Nat) (x : Entry) : (s.putEnt n e x).mports = s.mports := rfl
@[simp] theorem State.putEnt_mer (n e : Nat) (x : Entry) : (s.putEnt n e x).mer = s.mer := rfl
@[simp] theorem State.putEnt_twin (n e : Nat) (x : Entry) : (s.putEnt n e x).twin = s.twin := rfl
@[simp] theorem State.putEnt_place (n e : Nat) (x : Entry) : (s.putEnt n e x).place = s.place := rfl
@[simp] theorem State.putEnt_dirGen (n e : Nat) (x : Entry) : (s.putEnt n e x).dirGen = s.dirGen := rfl
@[simp] theorem State.putEnt_events (n e : Nat) (x : Entry) : (s.putEnt n e x).events = s.events := rfl
@[simp] theorem State.putEnt_evSeq (n e : Nat) (x : Entry) : (s.putEnt n e x).evSeq = s.evSeq := rfl
@[simp] theorem State.putEnt_evLost (n e : Nat) (x : Entry) : (s.putEnt n e x).evLost = s.evLost := rfl
@[simp] theorem State.putEnt_live (n e : Nat) (x : Entry) : (s.putEnt n e x).live = s.live := rfl
@[simp] theorem State.putEnt_holding (n e : Nat) (x : Entry) : (s.putEnt n e x).holding = s.holding := rfl
@[simp] theorem State.putEnt_ignLast (n e : Nat) (x : Entry) : (s.putEnt n e x).ignLast = s.ignLast := rfl
@[simp] theorem State.putEnt_credits (n e : Nat) (x : Entry) : (s.putEnt n e x).credits = s.credits := rfl
@[simp] theorem State.putEnt_resends (n e : Nat) (x : Entry) : (s.putEnt n e x).resends = s.resends := rfl
@[simp] theorem State.putEnt_win (n e : Nat) (x : Entry) : (s.putEnt n e x).win = s.win := rfl
@[simp] theorem State.putEnt_rch (n e : Nat) (x : Entry) : (s.putEnt n e x).rch = s.rch := rfl
@[simp] theorem State.putEnt_blk (n e : Nat) (x : Entry) : (s.putEnt n e x).blk = s.blk := rfl
@[simp] theorem State.putEnt_pwr (n e : Nat) (x : Entry) : (s.putEnt n e x).pwr = s.pwr := rfl
@[simp] theorem State.putEnt_mbx (n e : Nat) (x : Entry) : (s.putEnt n e x).mbx = s.mbx := rfl
@[simp] theorem State.putEnt_blkLogs (n e : Nat) (x : Entry) : (s.putEnt n e x).blkLogs = s.blkLogs := rfl
@[simp] theorem State.putEnt_scratch (n e : Nat) (x : Entry) : (s.putEnt n e x).scratch = s.scratch := rfl
@[simp] theorem State.putEnt_groups (n e : Nat) (x : Entry) : (s.putEnt n e x).groups = s.groups := rfl
@[simp] theorem State.putEnt_adminBars (n e : Nat) (x : Entry) : (s.putEnt n e x).adminBars = s.adminBars := rfl
@[simp] theorem State.putEnt_lastLoss (n e : Nat) (x : Entry) : (s.putEnt n e x).lastLoss = s.lastLoss := rfl
@[simp] theorem State.putEnt_clk (n e : Nat) (x : Entry) : (s.putEnt n e x).clk = s.clk := rfl

/-! ### State.dropEnt -/
@[simp] theorem State.dropEnt_pending (n e : Nat) : (s.dropEnt n e).pending = s.pending := rfl
@[simp] theorem State.dropEnt_now (n e : Nat) : (s.dropEnt n e).now = s.now := rfl
@[simp] theorem State.dropEnt_free (n e : Nat) : (s.dropEnt n e).free = s.free := rfl
@[simp] theorem State.dropEnt_out (n e : Nat) : (s.dropEnt n e).out = s.out := rfl
@[simp] theorem State.dropEnt_parts (n e : Nat) : (s.dropEnt n e).parts = s.parts := rfl
@[simp] theorem State.dropEnt_hosts (n e : Nat) : (s.dropEnt n e).hosts = s.hosts := rfl
@[simp] theorem State.dropEnt_intakes (n e : Nat) : (s.dropEnt n e).intakes = s.intakes := rfl
@[simp] theorem State.dropEnt_stooks (n e : Nat) : (s.dropEnt n e).stooks = s.stooks := rfl
@[simp] theorem State.dropEnt_mer (n e : Nat) : (s.dropEnt n e).mer = s.mer := rfl
@[simp] theorem State.dropEnt_twin (n e : Nat) : (s.dropEnt n e).twin = s.twin := rfl
@[simp] theorem State.dropEnt_place (n e : Nat) : (s.dropEnt n e).place = s.place := rfl
@[simp] theorem State.dropEnt_dirGen (n e : Nat) : (s.dropEnt n e).dirGen = s.dirGen := rfl
@[simp] theorem State.dropEnt_events (n e : Nat) : (s.dropEnt n e).events = s.events := rfl
@[simp] theorem State.dropEnt_evSeq (n e : Nat) : (s.dropEnt n e).evSeq = s.evSeq := rfl
@[simp] theorem State.dropEnt_evLost (n e : Nat) : (s.dropEnt n e).evLost = s.evLost := rfl
@[simp] theorem State.dropEnt_live (n e : Nat) : (s.dropEnt n e).live = s.live := rfl
@[simp] theorem State.dropEnt_holding (n e : Nat) : (s.dropEnt n e).holding = s.holding := rfl
@[simp] theorem State.dropEnt_ignLast (n e : Nat) : (s.dropEnt n e).ignLast = s.ignLast := rfl
@[simp] theorem State.dropEnt_credits (n e : Nat) : (s.dropEnt n e).credits = s.credits := rfl
@[simp] theorem State.dropEnt_resends (n e : Nat) : (s.dropEnt n e).resends = s.resends := rfl
@[simp] theorem State.dropEnt_win (n e : Nat) : (s.dropEnt n e).win = s.win := rfl
@[simp] theorem State.dropEnt_rch (n e : Nat) : (s.dropEnt n e).rch = s.rch := rfl
@[simp] theorem State.dropEnt_blk (n e : Nat) : (s.dropEnt n e).blk = s.blk := rfl
@[simp] theorem State.dropEnt_pwr (n e : Nat) : (s.dropEnt n e).pwr = s.pwr := rfl
@[simp] theorem State.dropEnt_mbx (n e : Nat) : (s.dropEnt n e).mbx = s.mbx := rfl
@[simp] theorem State.dropEnt_blkLogs (n e : Nat) : (s.dropEnt n e).blkLogs = s.blkLogs := rfl
@[simp] theorem State.dropEnt_scratch (n e : Nat) : (s.dropEnt n e).scratch = s.scratch := rfl
@[simp] theorem State.dropEnt_groups (n e : Nat) : (s.dropEnt n e).groups = s.groups := rfl
@[simp] theorem State.dropEnt_adminBars (n e : Nat) : (s.dropEnt n e).adminBars = s.adminBars := rfl
@[simp] theorem State.dropEnt_lastLoss (n e : Nat) : (s.dropEnt n e).lastLoss = s.lastLoss := rfl
@[simp] theorem State.dropEnt_clk (n e : Nat) : (s.dropEnt n e).clk = s.clk := rfl

/-! ### State.send -/
@[simp] theorem State.send_pending (o : Out) : (s.send o).pending = s.pending := rfl
@[simp] theorem State.send_now (o : Out) : (s.send o).now = s.now := rfl
@[simp] theorem State.send_free (o : Out) : (s.send o).free = s.free := rfl
@[simp] theorem State.send_out (o : Out) : (s.send o).out = s.out ++ [o] := rfl
@[simp] theorem State.send_parts (o : Out) : (s.send o).parts = s.parts := rfl
@[simp] theorem State.send_hosts (o : Out) : (s.send o).hosts = s.hosts := rfl
@[simp] theorem State.send_intakes (o : Out) : (s.send o).intakes = s.intakes := rfl
@[simp] theorem State.send_slices (o : Out) : (s.send o).slices = s.slices := rfl
@[simp] theorem State.send_stooks (o : Out) : (s.send o).stooks = s.stooks := rfl
@[simp] theorem State.send_mports (o : Out) : (s.send o).mports = s.mports := rfl
@[simp] theorem State.send_mer (o : Out) : (s.send o).mer = s.mer := rfl
@[simp] theorem State.send_twin (o : Out) : (s.send o).twin = s.twin := rfl
@[simp] theorem State.send_place (o : Out) : (s.send o).place = s.place := rfl
@[simp] theorem State.send_dirGen (o : Out) : (s.send o).dirGen = s.dirGen := rfl
@[simp] theorem State.send_events (o : Out) : (s.send o).events = s.events := rfl
@[simp] theorem State.send_evSeq (o : Out) : (s.send o).evSeq = s.evSeq := rfl
@[simp] theorem State.send_evLost (o : Out) : (s.send o).evLost = s.evLost := rfl
@[simp] theorem State.send_live (o : Out) : (s.send o).live = s.live := rfl
@[simp] theorem State.send_holding (o : Out) : (s.send o).holding = s.holding := rfl
@[simp] theorem State.send_ignLast (o : Out) : (s.send o).ignLast = s.ignLast := rfl
@[simp] theorem State.send_credits (o : Out) : (s.send o).credits = s.credits := rfl
@[simp] theorem State.send_resends (o : Out) : (s.send o).resends = s.resends := rfl
@[simp] theorem State.send_win (o : Out) : (s.send o).win = s.win := rfl
@[simp] theorem State.send_rch (o : Out) : (s.send o).rch = s.rch := rfl
@[simp] theorem State.send_blk (o : Out) : (s.send o).blk = s.blk := rfl
@[simp] theorem State.send_pwr (o : Out) : (s.send o).pwr = s.pwr := rfl
@[simp] theorem State.send_mbx (o : Out) : (s.send o).mbx = s.mbx := rfl
@[simp] theorem State.send_blkLogs (o : Out) : (s.send o).blkLogs = s.blkLogs := rfl
@[simp] theorem State.send_scratch (o : Out) : (s.send o).scratch = s.scratch := rfl
@[simp] theorem State.send_groups (o : Out) : (s.send o).groups = s.groups := rfl
@[simp] theorem State.send_adminBars (o : Out) : (s.send o).adminBars = s.adminBars := rfl
@[simp] theorem State.send_lastLoss (o : Out) : (s.send o).lastLoss = s.lastLoss := rfl
@[simp] theorem State.send_clk (o : Out) : (s.send o).clk = s.clk := rfl

/-! ### State.gauge -/
@[simp] theorem State.gauge_pending (off lsb v : Nat) : (s.gauge off lsb v).pending = s.pending := rfl
@[simp] theorem State.gauge_now (off lsb v : Nat) : (s.gauge off lsb v).now = s.now := rfl
@[simp] theorem State.gauge_free (off lsb v : Nat) : (s.gauge off lsb v).free = s.free := rfl
@[simp] theorem State.gauge_out (off lsb v : Nat) : (s.gauge off lsb v).out = s.out := rfl
@[simp] theorem State.gauge_parts (off lsb v : Nat) : (s.gauge off lsb v).parts = s.parts := rfl
@[simp] theorem State.gauge_hosts (off lsb v : Nat) : (s.gauge off lsb v).hosts = s.hosts := rfl
@[simp] theorem State.gauge_intakes (off lsb v : Nat) : (s.gauge off lsb v).intakes = s.intakes := rfl
@[simp] theorem State.gauge_slices (off lsb v : Nat) : (s.gauge off lsb v).slices = s.slices := rfl
@[simp] theorem State.gauge_stooks (off lsb v : Nat) : (s.gauge off lsb v).stooks = s.stooks := rfl
@[simp] theorem State.gauge_mports (off lsb v : Nat) : (s.gauge off lsb v).mports = s.mports := rfl
@[simp] theorem State.gauge_mer (off lsb v : Nat) : (s.gauge off lsb v).mer = s.mer := rfl
@[simp] theorem State.gauge_twin (off lsb v : Nat) : (s.gauge off lsb v).twin = s.twin := rfl
@[simp] theorem State.gauge_place (off lsb v : Nat) : (s.gauge off lsb v).place = s.place := rfl
@[simp] theorem State.gauge_dirGen (off lsb v : Nat) : (s.gauge off lsb v).dirGen = s.dirGen := rfl
@[simp] theorem State.gauge_events (off lsb v : Nat) : (s.gauge off lsb v).events = s.events := rfl
@[simp] theorem State.gauge_evSeq (off lsb v : Nat) : (s.gauge off lsb v).evSeq = s.evSeq := rfl
@[simp] theorem State.gauge_evLost (off lsb v : Nat) : (s.gauge off lsb v).evLost = s.evLost := rfl
@[simp] theorem State.gauge_live (off lsb v : Nat) : (s.gauge off lsb v).live = Tbl.set s.live (off * 64 + lsb) v := rfl
@[simp] theorem State.gauge_holding (off lsb v : Nat) : (s.gauge off lsb v).holding = s.holding := rfl
@[simp] theorem State.gauge_ignLast (off lsb v : Nat) : (s.gauge off lsb v).ignLast = s.ignLast := rfl
@[simp] theorem State.gauge_credits (off lsb v : Nat) : (s.gauge off lsb v).credits = s.credits := rfl
@[simp] theorem State.gauge_resends (off lsb v : Nat) : (s.gauge off lsb v).resends = s.resends := rfl
@[simp] theorem State.gauge_win (off lsb v : Nat) : (s.gauge off lsb v).win = s.win := rfl
@[simp] theorem State.gauge_rch (off lsb v : Nat) : (s.gauge off lsb v).rch = s.rch := rfl
@[simp] theorem State.gauge_blk (off lsb v : Nat) : (s.gauge off lsb v).blk = s.blk := rfl
@[simp] theorem State.gauge_pwr (off lsb v : Nat) : (s.gauge off lsb v).pwr = s.pwr := rfl
@[simp] theorem State.gauge_mbx (off lsb v : Nat) : (s.gauge off lsb v).mbx = s.mbx := rfl
@[simp] theorem State.gauge_blkLogs (off lsb v : Nat) : (s.gauge off lsb v).blkLogs = s.blkLogs := rfl
@[simp] theorem State.gauge_scratch (off lsb v : Nat) : (s.gauge off lsb v).scratch = s.scratch := rfl
@[simp] theorem State.gauge_groups (off lsb v : Nat) : (s.gauge off lsb v).groups = s.groups := rfl
@[simp] theorem State.gauge_adminBars (off lsb v : Nat) : (s.gauge off lsb v).adminBars = s.adminBars := rfl
@[simp] theorem State.gauge_lastLoss (off lsb v : Nat) : (s.gauge off lsb v).lastLoss = s.lastLoss := rfl
@[simp] theorem State.gauge_clk (off lsb v : Nat) : (s.gauge off lsb v).clk = s.clk := rfl

/-! ### State.bump -/
theorem State.bump_only (off lsb w k : Nat) : s.bump off lsb w k = { s with live := (s.bump off lsb w k).live } := by
  unfold State.bump; dsimp only; split <;> rfl
@[simp] theorem State.bump_pending (off lsb w k : Nat) : (s.bump off lsb w k).pending = s.pending := (congrArg State.pending (s.bump_only off lsb w k)).trans rfl
@[simp] theorem State.bump_now (off lsb w k : Nat) : (s.bump off lsb w k).now = s.now := (congrArg State.now (s.bump_only off lsb w k)).trans rfl
@[simp] theorem State.bump_free (off lsb w k : Nat) : (s.bump off lsb w k).free = s.free := (congrArg State.free (s.bump_only off lsb w k)).trans rfl
@[simp] theorem State.bump_out (off lsb w k : Nat) : (s.bump off lsb w k).out = s.out := (congrArg State.out (s.bump_only off lsb w k)).trans rfl
@[simp] theorem State.bump_parts (off lsb w k : Nat) : (s.bump off lsb w k).parts = s.parts := (congrArg State.parts (s.bump_only off lsb w k)).trans rfl
@[simp] theorem State.bump_hosts (off lsb w k : Nat) : (s.bump off lsb w k).hosts = s.hosts := (congrArg State.hosts (s.bump_only off lsb w k)).trans rfl
@[simp] theorem State.bump_intakes (off lsb w k : Nat) : (s.bump off lsb w k).intakes = s.intakes := (congrArg State.intakes (s.bump_only off lsb w k)).trans rfl
@[simp] theorem State.bump_slices (off lsb w k : Nat) : (s.bump off lsb w k).slices = s.slices := (congrArg State.slices (s.bump_only off lsb w k)).trans rfl
@[simp] theorem State.bump_stooks (off lsb w k : Nat) : (s.bump off lsb w k).stooks = s.stooks := (congrArg State.stooks (s.bump_only off lsb w k)).trans rfl
@[simp] theorem State.bump_mports (off lsb w k : Nat) : (s.bump off lsb w k).mports = s.mports := (congrArg State.mports (s.bump_only off lsb w k)).trans rfl
@[simp] theorem State.bump_mer (off lsb w k : Nat) : (s.bump off lsb w k).mer = s.mer := (congrArg State.mer (s.bump_only off lsb w k)).trans rfl
@[simp] theorem State.bump_twin (off lsb w k : Nat) : (s.bump off lsb w k).twin = s.twin := (congrArg State.twin (s.bump_only off lsb w k)).trans rfl
@[simp] theorem State.bump_place (off lsb w k : Nat) : (s.bump off lsb w k).place = s.place := (congrArg State.place (s.bump_only off lsb w k)).trans rfl
@[simp] theorem State.bump_dirGen (off lsb w k : Nat) : (s.bump off lsb w k).dirGen = s.dirGen := (congrArg State.dirGen (s.bump_only off lsb w k)).trans rfl
@[simp] theorem State.bump_events (off lsb w k : Nat) : (s.bump off lsb w k).events = s.events := (congrArg State.events (s.bump_only off lsb w k)).trans rfl
@[simp] theorem State.bump_evSeq (off lsb w k : Nat) : (s.bump off lsb w k).evSeq = s.evSeq := (congrArg State.evSeq (s.bump_only off lsb w k)).trans rfl
@[simp] theorem State.bump_evLost (off lsb w k : Nat) : (s.bump off lsb w k).evLost = s.evLost := (congrArg State.evLost (s.bump_only off lsb w k)).trans rfl
@[simp] theorem State.bump_holding (off lsb w k : Nat) : (s.bump off lsb w k).holding = s.holding := (congrArg State.holding (s.bump_only off lsb w k)).trans rfl
@[simp] theorem State.bump_ignLast (off lsb w k : Nat) : (s.bump off lsb w k).ignLast = s.ignLast := (congrArg State.ignLast (s.bump_only off lsb w k)).trans rfl
@[simp] theorem State.bump_credits (off lsb w k : Nat) : (s.bump off lsb w k).credits = s.credits := (congrArg State.credits (s.bump_only off lsb w k)).trans rfl
@[simp] theorem State.bump_resends (off lsb w k : Nat) : (s.bump off lsb w k).resends = s.resends := (congrArg State.resends (s.bump_only off lsb w k)).trans rfl
@[simp] theorem State.bump_win (off lsb w k : Nat) : (s.bump off lsb w k).win = s.win := (congrArg State.win (s.bump_only off lsb w k)).trans rfl
@[simp] theorem State.bump_rch (off lsb w k : Nat) : (s.bump off lsb w k).rch = s.rch := (congrArg State.rch (s.bump_only off lsb w k)).trans rfl
@[simp] theorem State.bump_blk (off lsb w k : Nat) : (s.bump off lsb w k).blk = s.blk := (congrArg State.blk (s.bump_only off lsb w k)).trans rfl
@[simp] theorem State.bump_pwr (off lsb w k : Nat) : (s.bump off lsb w k).pwr = s.pwr := (congrArg State.pwr (s.bump_only off lsb w k)).trans rfl
@[simp] theorem State.bump_mbx (off lsb w k : Nat) : (s.bump off lsb w k).mbx = s.mbx := (congrArg State.mbx (s.bump_only off lsb w k)).trans rfl
@[simp] theorem State.bump_blkLogs (off lsb w k : Nat) : (s.bump off lsb w k).blkLogs = s.blkLogs := (congrArg State.blkLogs (s.bump_only off lsb w k)).trans rfl
@[simp] theorem State.bump_scratch (off lsb w k : Nat) : (s.bump off lsb w k).scratch = s.scratch := (congrArg State.scratch (s.bump_only off lsb w k)).trans rfl
@[simp] theorem State.bump_groups (off lsb w k : Nat) : (s.bump off lsb w k).groups = s.groups := (congrArg State.groups (s.bump_only off lsb w k)).trans rfl
@[simp] theorem State.bump_adminBars (off lsb w k : Nat) : (s.bump off lsb w k).adminBars = s.adminBars := (congrArg State.adminBars (s.bump_only off lsb w k)).trans rfl
@[simp] theorem State.bump_lastLoss (off lsb w k : Nat) : (s.bump off lsb w k).lastLoss = s.lastLoss := (congrArg State.lastLoss (s.bump_only off lsb w k)).trans rfl
@[simp] theorem State.bump_clk (off lsb w k : Nat) : (s.bump off lsb w k).clk = s.clk := (congrArg State.clk (s.bump_only off lsb w k)).trans rfl

/-! ### State.bumpMbx -/
theorem State.bumpMbx_only (c lsb w : Nat) : s.bumpMbx c lsb w = { s with live := (s.bumpMbx c lsb w).live } := s.bump_only _ _ _ _
@[simp] theorem State.bumpMbx_pending (c lsb w : Nat) : (s.bumpMbx c lsb w).pending = s.pending := (congrArg State.pending (s.bumpMbx_only c lsb w)).trans rfl
@[simp] theorem State.bumpMbx_now (c lsb w : Nat) : (s.bumpMbx c lsb w).now = s.now := (congrArg State.now (s.bumpMbx_only c lsb w)).trans rfl
@[simp] theorem State.bumpMbx_free (c lsb w : Nat) : (s.bumpMbx c lsb w).free = s.free := (congrArg State.free (s.bumpMbx_only c lsb w)).trans rfl
@[simp] theorem State.bumpMbx_out (c lsb w : Nat) : (s.bumpMbx c lsb w).out = s.out := (congrArg State.out (s.bumpMbx_only c lsb w)).trans rfl
@[simp] theorem State.bumpMbx_parts (c lsb w : Nat) : (s.bumpMbx c lsb w).parts = s.parts := (congrArg State.parts (s.bumpMbx_only c lsb w)).trans rfl
@[simp] theorem State.bumpMbx_hosts (c lsb w : Nat) : (s.bumpMbx c lsb w).hosts = s.hosts := (congrArg State.hosts (s.bumpMbx_only c lsb w)).trans rfl
@[simp] theorem State.bumpMbx_intakes (c lsb w : Nat) : (s.bumpMbx c lsb w).intakes = s.intakes := (congrArg State.intakes (s.bumpMbx_only c lsb w)).trans rfl
@[simp] theorem State.bumpMbx_slices (c lsb w : Nat) : (s.bumpMbx c lsb w).slices = s.slices := (congrArg State.slices (s.bumpMbx_only c lsb w)).trans rfl
@[simp] theorem State.bumpMbx_stooks (c lsb w : Nat) : (s.bumpMbx c lsb w).stooks = s.stooks := (congrArg State.stooks (s.bumpMbx_only c lsb w)).trans rfl
@[simp] theorem State.bumpMbx_mports (c lsb w : Nat) : (s.bumpMbx c lsb w).mports = s.mports := (congrArg State.mports (s.bumpMbx_only c lsb w)).trans rfl
@[simp] theorem State.bumpMbx_mer (c lsb w : Nat) : (s.bumpMbx c lsb w).mer = s.mer := (congrArg State.mer (s.bumpMbx_only c lsb w)).trans rfl
@[simp] theorem State.bumpMbx_twin (c lsb w : Nat) : (s.bumpMbx c lsb w).twin = s.twin := (congrArg State.twin (s.bumpMbx_only c lsb w)).trans rfl
@[simp] theorem State.bumpMbx_place (c lsb w : Nat) : (s.bumpMbx c lsb w).place = s.place := (congrArg State.place (s.bumpMbx_only c lsb w)).trans rfl
@[simp] theorem State.bumpMbx_dirGen (c lsb w : Nat) : (s.bumpMbx c lsb w).dirGen = s.dirGen := (congrArg State.dirGen (s.bumpMbx_only c lsb w)).trans rfl
@[simp] theorem State.bumpMbx_events (c lsb w : Nat) : (s.bumpMbx c lsb w).events = s.events := (congrArg State.events (s.bumpMbx_only c lsb w)).trans rfl
@[simp] theorem State.bumpMbx_evSeq (c lsb w : Nat) : (s.bumpMbx c lsb w).evSeq = s.evSeq := (congrArg State.evSeq (s.bumpMbx_only c lsb w)).trans rfl
@[simp] theorem State.bumpMbx_evLost (c lsb w : Nat) : (s.bumpMbx c lsb w).evLost = s.evLost := (congrArg State.evLost (s.bumpMbx_only c lsb w)).trans rfl
@[simp] theorem State.bumpMbx_holding (c lsb w : Nat) : (s.bumpMbx c lsb w).holding = s.holding := (congrArg State.holding (s.bumpMbx_only c lsb w)).trans rfl
@[simp] theorem State.bumpMbx_ignLast (c lsb w : Nat) : (s.bumpMbx c lsb w).ignLast = s.ignLast := (congrArg State.ignLast (s.bumpMbx_only c lsb w)).trans rfl
@[simp] theorem State.bumpMbx_credits (c lsb w : Nat) : (s.bumpMbx c lsb w).credits = s.credits := (congrArg State.credits (s.bumpMbx_only c lsb w)).trans rfl
@[simp] theorem State.bumpMbx_resends (c lsb w : Nat) : (s.bumpMbx c lsb w).resends = s.resends := (congrArg State.resends (s.bumpMbx_only c lsb w)).trans rfl
@[simp] theorem State.bumpMbx_win (c lsb w : Nat) : (s.bumpMbx c lsb w).win = s.win := (congrArg State.win (s.bumpMbx_only c lsb w)).trans rfl
@[simp] theorem State.bumpMbx_rch (c lsb w : Nat) : (s.bumpMbx c lsb w).rch = s.rch := (congrArg State.rch (s.bumpMbx_only c lsb w)).trans rfl
@[simp] theorem State.bumpMbx_blk (c lsb w : Nat) : (s.bumpMbx c lsb w).blk = s.blk := (congrArg State.blk (s.bumpMbx_only c lsb w)).trans rfl
@[simp] theorem State.bumpMbx_pwr (c lsb w : Nat) : (s.bumpMbx c lsb w).pwr = s.pwr := (congrArg State.pwr (s.bumpMbx_only c lsb w)).trans rfl
@[simp] theorem State.bumpMbx_mbx (c lsb w : Nat) : (s.bumpMbx c lsb w).mbx = s.mbx := (congrArg State.mbx (s.bumpMbx_only c lsb w)).trans rfl
@[simp] theorem State.bumpMbx_blkLogs (c lsb w : Nat) : (s.bumpMbx c lsb w).blkLogs = s.blkLogs := (congrArg State.blkLogs (s.bumpMbx_only c lsb w)).trans rfl
@[simp] theorem State.bumpMbx_scratch (c lsb w : Nat) : (s.bumpMbx c lsb w).scratch = s.scratch := (congrArg State.scratch (s.bumpMbx_only c lsb w)).trans rfl
@[simp] theorem State.bumpMbx_groups (c lsb w : Nat) : (s.bumpMbx c lsb w).groups = s.groups := (congrArg State.groups (s.bumpMbx_only c lsb w)).trans rfl
@[simp] theorem State.bumpMbx_adminBars (c lsb w : Nat) : (s.bumpMbx c lsb w).adminBars = s.adminBars := (congrArg State.adminBars (s.bumpMbx_only c lsb w)).trans rfl
@[simp] theorem State.bumpMbx_lastLoss (c lsb w : Nat) : (s.bumpMbx c lsb w).lastLoss = s.lastLoss := (congrArg State.lastLoss (s.bumpMbx_only c lsb w)).trans rfl
@[simp] theorem State.bumpMbx_clk (c lsb w : Nat) : (s.bumpMbx c lsb w).clk = s.clk := (congrArg State.clk (s.bumpMbx_only c lsb w)).trans rfl

/-! ### State.bumpPwr -/
theorem State.bumpPwr_only (c lsb w : Nat) : s.bumpPwr c lsb w = { s with live := (s.bumpPwr c lsb w).live } := s.bump_only _ _ _ _
@[simp] theorem State.bumpPwr_pending (c lsb w : Nat) : (s.bumpPwr c lsb w).pending = s.pending := (congrArg State.pending (s.bumpPwr_only c lsb w)).trans rfl
@[simp] theorem State.bumpPwr_now (c lsb w : Nat) : (s.bumpPwr c lsb w).now = s.now := (congrArg State.now (s.bumpPwr_only c lsb w)).trans rfl
@[simp] theorem State.bumpPwr_free (c lsb w : Nat) : (s.bumpPwr c lsb w).free = s.free := (congrArg State.free (s.bumpPwr_only c lsb w)).trans rfl
@[simp] theorem State.bumpPwr_out (c lsb w : Nat) : (s.bumpPwr c lsb w).out = s.out := (congrArg State.out (s.bumpPwr_only c lsb w)).trans rfl
@[simp] theorem State.bumpPwr_parts (c lsb w : Nat) : (s.bumpPwr c lsb w).parts = s.parts := (congrArg State.parts (s.bumpPwr_only c lsb w)).trans rfl
@[simp] theorem State.bumpPwr_hosts (c lsb w : Nat) : (s.bumpPwr c lsb w).hosts = s.hosts := (congrArg State.hosts (s.bumpPwr_only c lsb w)).trans rfl
@[simp] theorem State.bumpPwr_intakes (c lsb w : Nat) : (s.bumpPwr c lsb w).intakes = s.intakes := (congrArg State.intakes (s.bumpPwr_only c lsb w)).trans rfl
@[simp] theorem State.bumpPwr_slices (c lsb w : Nat) : (s.bumpPwr c lsb w).slices = s.slices := (congrArg State.slices (s.bumpPwr_only c lsb w)).trans rfl
@[simp] theorem State.bumpPwr_stooks (c lsb w : Nat) : (s.bumpPwr c lsb w).stooks = s.stooks := (congrArg State.stooks (s.bumpPwr_only c lsb w)).trans rfl
@[simp] theorem State.bumpPwr_mports (c lsb w : Nat) : (s.bumpPwr c lsb w).mports = s.mports := (congrArg State.mports (s.bumpPwr_only c lsb w)).trans rfl
@[simp] theorem State.bumpPwr_mer (c lsb w : Nat) : (s.bumpPwr c lsb w).mer = s.mer := (congrArg State.mer (s.bumpPwr_only c lsb w)).trans rfl
@[simp] theorem State.bumpPwr_twin (c lsb w : Nat) : (s.bumpPwr c lsb w).twin = s.twin := (congrArg State.twin (s.bumpPwr_only c lsb w)).trans rfl
@[simp] theorem State.bumpPwr_place (c lsb w : Nat) : (s.bumpPwr c lsb w).place = s.place := (congrArg State.place (s.bumpPwr_only c lsb w)).trans rfl
@[simp] theorem State.bumpPwr_dirGen (c lsb w : Nat) : (s.bumpPwr c lsb w).dirGen = s.dirGen := (congrArg State.dirGen (s.bumpPwr_only c lsb w)).trans rfl
@[simp] theorem State.bumpPwr_events (c lsb w : Nat) : (s.bumpPwr c lsb w).events = s.events := (congrArg State.events (s.bumpPwr_only c lsb w)).trans rfl
@[simp] theorem State.bumpPwr_evSeq (c lsb w : Nat) : (s.bumpPwr c lsb w).evSeq = s.evSeq := (congrArg State.evSeq (s.bumpPwr_only c lsb w)).trans rfl
@[simp] theorem State.bumpPwr_evLost (c lsb w : Nat) : (s.bumpPwr c lsb w).evLost = s.evLost := (congrArg State.evLost (s.bumpPwr_only c lsb w)).trans rfl
@[simp] theorem State.bumpPwr_holding (c lsb w : Nat) : (s.bumpPwr c lsb w).holding = s.holding := (congrArg State.holding (s.bumpPwr_only c lsb w)).trans rfl
@[simp] theorem State.bumpPwr_ignLast (c lsb w : Nat) : (s.bumpPwr c lsb w).ignLast = s.ignLast := (congrArg State.ignLast (s.bumpPwr_only c lsb w)).trans rfl
@[simp] theorem State.bumpPwr_credits (c lsb w : Nat) : (s.bumpPwr c lsb w).credits = s.credits := (congrArg State.credits (s.bumpPwr_only c lsb w)).trans rfl
@[simp] theorem State.bumpPwr_resends (c lsb w : Nat) : (s.bumpPwr c lsb w).resends = s.resends := (congrArg State.resends (s.bumpPwr_only c lsb w)).trans rfl
@[simp] theorem State.bumpPwr_win (c lsb w : Nat) : (s.bumpPwr c lsb w).win = s.win := (congrArg State.win (s.bumpPwr_only c lsb w)).trans rfl
@[simp] theorem State.bumpPwr_rch (c lsb w : Nat) : (s.bumpPwr c lsb w).rch = s.rch := (congrArg State.rch (s.bumpPwr_only c lsb w)).trans rfl
@[simp] theorem State.bumpPwr_blk (c lsb w : Nat) : (s.bumpPwr c lsb w).blk = s.blk := (congrArg State.blk (s.bumpPwr_only c lsb w)).trans rfl
@[simp] theorem State.bumpPwr_pwr (c lsb w : Nat) : (s.bumpPwr c lsb w).pwr = s.pwr := (congrArg State.pwr (s.bumpPwr_only c lsb w)).trans rfl
@[simp] theorem State.bumpPwr_mbx (c lsb w : Nat) : (s.bumpPwr c lsb w).mbx = s.mbx := (congrArg State.mbx (s.bumpPwr_only c lsb w)).trans rfl
@[simp] theorem State.bumpPwr_blkLogs (c lsb w : Nat) : (s.bumpPwr c lsb w).blkLogs = s.blkLogs := (congrArg State.blkLogs (s.bumpPwr_only c lsb w)).trans rfl
@[simp] theorem State.bumpPwr_scratch (c lsb w : Nat) : (s.bumpPwr c lsb w).scratch = s.scratch := (congrArg State.scratch (s.bumpPwr_only c lsb w)).trans rfl
@[simp] theorem State.bumpPwr_groups (c lsb w : Nat) : (s.bumpPwr c lsb w).groups = s.groups := (congrArg State.groups (s.bumpPwr_only c lsb w)).trans rfl
@[simp] theorem State.bumpPwr_adminBars (c lsb w : Nat) : (s.bumpPwr c lsb w).adminBars = s.adminBars := (congrArg State.adminBars (s.bumpPwr_only c lsb w)).trans rfl
@[simp] theorem State.bumpPwr_lastLoss (c lsb w : Nat) : (s.bumpPwr c lsb w).lastLoss = s.lastLoss := (congrArg State.lastLoss (s.bumpPwr_only c lsb w)).trans rfl
@[simp] theorem State.bumpPwr_clk (c lsb w : Nat) : (s.bumpPwr c lsb w).clk = s.clk := (congrArg State.clk (s.bumpPwr_only c lsb w)).trans rfl

/-! ### State.bumpPlc -/
theorem State.bumpPlc_only (c lsb w : Nat) : s.bumpPlc c lsb w = { s with live := (s.bumpPlc c lsb w).live } := s.bump_only _ _ _ _
@[simp] theorem State.bumpPlc_pending (c lsb w : Nat) : (s.bumpPlc c lsb w).pending = s.pending := (congrArg State.pending (s.bumpPlc_only c lsb w)).trans rfl
@[simp] theorem State.bumpPlc_now (c lsb w : Nat) : (s.bumpPlc c lsb w).now = s.now := (congrArg State.now (s.bumpPlc_only c lsb w)).trans rfl
@[simp] theorem State.bumpPlc_free (c lsb w : Nat) : (s.bumpPlc c lsb w).free = s.free := (congrArg State.free (s.bumpPlc_only c lsb w)).trans rfl
@[simp] theorem State.bumpPlc_out (c lsb w : Nat) : (s.bumpPlc c lsb w).out = s.out := (congrArg State.out (s.bumpPlc_only c lsb w)).trans rfl
@[simp] theorem State.bumpPlc_parts (c lsb w : Nat) : (s.bumpPlc c lsb w).parts = s.parts := (congrArg State.parts (s.bumpPlc_only c lsb w)).trans rfl
@[simp] theorem State.bumpPlc_hosts (c lsb w : Nat) : (s.bumpPlc c lsb w).hosts = s.hosts := (congrArg State.hosts (s.bumpPlc_only c lsb w)).trans rfl
@[simp] theorem State.bumpPlc_intakes (c lsb w : Nat) : (s.bumpPlc c lsb w).intakes = s.intakes := (congrArg State.intakes (s.bumpPlc_only c lsb w)).trans rfl
@[simp] theorem State.bumpPlc_slices (c lsb w : Nat) : (s.bumpPlc c lsb w).slices = s.slices := (congrArg State.slices (s.bumpPlc_only c lsb w)).trans rfl
@[simp] theorem State.bumpPlc_stooks (c lsb w : Nat) : (s.bumpPlc c lsb w).stooks = s.stooks := (congrArg State.stooks (s.bumpPlc_only c lsb w)).trans rfl
@[simp] theorem State.bumpPlc_mports (c lsb w : Nat) : (s.bumpPlc c lsb w).mports = s.mports := (congrArg State.mports (s.bumpPlc_only c lsb w)).trans rfl
@[simp] theorem State.bumpPlc_mer (c lsb w : Nat) : (s.bumpPlc c lsb w).mer = s.mer := (congrArg State.mer (s.bumpPlc_only c lsb w)).trans rfl
@[simp] theorem State.bumpPlc_twin (c lsb w : Nat) : (s.bumpPlc c lsb w).twin = s.twin := (congrArg State.twin (s.bumpPlc_only c lsb w)).trans rfl
@[simp] theorem State.bumpPlc_place (c lsb w : Nat) : (s.bumpPlc c lsb w).place = s.place := (congrArg State.place (s.bumpPlc_only c lsb w)).trans rfl
@[simp] theorem State.bumpPlc_dirGen (c lsb w : Nat) : (s.bumpPlc c lsb w).dirGen = s.dirGen := (congrArg State.dirGen (s.bumpPlc_only c lsb w)).trans rfl
@[simp] theorem State.bumpPlc_events (c lsb w : Nat) : (s.bumpPlc c lsb w).events = s.events := (congrArg State.events (s.bumpPlc_only c lsb w)).trans rfl
@[simp] theorem State.bumpPlc_evSeq (c lsb w : Nat) : (s.bumpPlc c lsb w).evSeq = s.evSeq := (congrArg State.evSeq (s.bumpPlc_only c lsb w)).trans rfl
@[simp] theorem State.bumpPlc_evLost (c lsb w : Nat) : (s.bumpPlc c lsb w).evLost = s.evLost := (congrArg State.evLost (s.bumpPlc_only c lsb w)).trans rfl
@[simp] theorem State.bumpPlc_holding (c lsb w : Nat) : (s.bumpPlc c lsb w).holding = s.holding := (congrArg State.holding (s.bumpPlc_only c lsb w)).trans rfl
@[simp] theorem State.bumpPlc_ignLast (c lsb w : Nat) : (s.bumpPlc c lsb w).ignLast = s.ignLast := (congrArg State.ignLast (s.bumpPlc_only c lsb w)).trans rfl
@[simp] theorem State.bumpPlc_credits (c lsb w : Nat) : (s.bumpPlc c lsb w).credits = s.credits := (congrArg State.credits (s.bumpPlc_only c lsb w)).trans rfl
@[simp] theorem State.bumpPlc_resends (c lsb w : Nat) : (s.bumpPlc c lsb w).resends = s.resends := (congrArg State.resends (s.bumpPlc_only c lsb w)).trans rfl
@[simp] theorem State.bumpPlc_win (c lsb w : Nat) : (s.bumpPlc c lsb w).win = s.win := (congrArg State.win (s.bumpPlc_only c lsb w)).trans rfl
@[simp] theorem State.bumpPlc_rch (c lsb w : Nat) : (s.bumpPlc c lsb w).rch = s.rch := (congrArg State.rch (s.bumpPlc_only c lsb w)).trans rfl
@[simp] theorem State.bumpPlc_blk (c lsb w : Nat) : (s.bumpPlc c lsb w).blk = s.blk := (congrArg State.blk (s.bumpPlc_only c lsb w)).trans rfl
@[simp] theorem State.bumpPlc_pwr (c lsb w : Nat) : (s.bumpPlc c lsb w).pwr = s.pwr := (congrArg State.pwr (s.bumpPlc_only c lsb w)).trans rfl
@[simp] theorem State.bumpPlc_mbx (c lsb w : Nat) : (s.bumpPlc c lsb w).mbx = s.mbx := (congrArg State.mbx (s.bumpPlc_only c lsb w)).trans rfl
@[simp] theorem State.bumpPlc_blkLogs (c lsb w : Nat) : (s.bumpPlc c lsb w).blkLogs = s.blkLogs := (congrArg State.blkLogs (s.bumpPlc_only c lsb w)).trans rfl
@[simp] theorem State.bumpPlc_scratch (c lsb w : Nat) : (s.bumpPlc c lsb w).scratch = s.scratch := (congrArg State.scratch (s.bumpPlc_only c lsb w)).trans rfl
@[simp] theorem State.bumpPlc_groups (c lsb w : Nat) : (s.bumpPlc c lsb w).groups = s.groups := (congrArg State.groups (s.bumpPlc_only c lsb w)).trans rfl
@[simp] theorem State.bumpPlc_adminBars (c lsb w : Nat) : (s.bumpPlc c lsb w).adminBars = s.adminBars := (congrArg State.adminBars (s.bumpPlc_only c lsb w)).trans rfl
@[simp] theorem State.bumpPlc_lastLoss (c lsb w : Nat) : (s.bumpPlc c lsb w).lastLoss = s.lastLoss := (congrArg State.lastLoss (s.bumpPlc_only c lsb w)).trans rfl
@[simp] theorem State.bumpPlc_clk (c lsb w : Nat) : (s.bumpPlc c lsb w).clk = s.clk := (congrArg State.clk (s.bumpPlc_only c lsb w)).trans rfl

/-! ### State.bumpTwn -/
theorem State.bumpTwn_only (c lsb w : Nat) : s.bumpTwn c lsb w = { s with live := (s.bumpTwn c lsb w).live } := s.bump_only _ _ _ _
@[simp] theorem State.bumpTwn_pending (c lsb w : Nat) : (s.bumpTwn c lsb w).pending = s.pending := (congrArg State.pending (s.bumpTwn_only c lsb w)).trans rfl
@[simp] theorem State.bumpTwn_now (c lsb w : Nat) : (s.bumpTwn c lsb w).now = s.now := (congrArg State.now (s.bumpTwn_only c lsb w)).trans rfl
@[simp] theorem State.bumpTwn_free (c lsb w : Nat) : (s.bumpTwn c lsb w).free = s.free := (congrArg State.free (s.bumpTwn_only c lsb w)).trans rfl
@[simp] theorem State.bumpTwn_out (c lsb w : Nat) : (s.bumpTwn c lsb w).out = s.out := (congrArg State.out (s.bumpTwn_only c lsb w)).trans rfl
@[simp] theorem State.bumpTwn_parts (c lsb w : Nat) : (s.bumpTwn c lsb w).parts = s.parts := (congrArg State.parts (s.bumpTwn_only c lsb w)).trans rfl
@[simp] theorem State.bumpTwn_hosts (c lsb w : Nat) : (s.bumpTwn c lsb w).hosts = s.hosts := (congrArg State.hosts (s.bumpTwn_only c lsb w)).trans rfl
@[simp] theorem State.bumpTwn_intakes (c lsb w : Nat) : (s.bumpTwn c lsb w).intakes = s.intakes := (congrArg State.intakes (s.bumpTwn_only c lsb w)).trans rfl
@[simp] theorem State.bumpTwn_slices (c lsb w : Nat) : (s.bumpTwn c lsb w).slices = s.slices := (congrArg State.slices (s.bumpTwn_only c lsb w)).trans rfl
@[simp] theorem State.bumpTwn_stooks (c lsb w : Nat) : (s.bumpTwn c lsb w).stooks = s.stooks := (congrArg State.stooks (s.bumpTwn_only c lsb w)).trans rfl
@[simp] theorem State.bumpTwn_mports (c lsb w : Nat) : (s.bumpTwn c lsb w).mports = s.mports := (congrArg State.mports (s.bumpTwn_only c lsb w)).trans rfl
@[simp] theorem State.bumpTwn_mer (c lsb w : Nat) : (s.bumpTwn c lsb w).mer = s.mer := (congrArg State.mer (s.bumpTwn_only c lsb w)).trans rfl
@[simp] theorem State.bumpTwn_twin (c lsb w : Nat) : (s.bumpTwn c lsb w).twin = s.twin := (congrArg State.twin (s.bumpTwn_only c lsb w)).trans rfl
@[simp] theorem State.bumpTwn_place (c lsb w : Nat) : (s.bumpTwn c lsb w).place = s.place := (congrArg State.place (s.bumpTwn_only c lsb w)).trans rfl
@[simp] theorem State.bumpTwn_dirGen (c lsb w : Nat) : (s.bumpTwn c lsb w).dirGen = s.dirGen := (congrArg State.dirGen (s.bumpTwn_only c lsb w)).trans rfl
@[simp] theorem State.bumpTwn_events (c lsb w : Nat) : (s.bumpTwn c lsb w).events = s.events := (congrArg State.events (s.bumpTwn_only c lsb w)).trans rfl
@[simp] theorem State.bumpTwn_evSeq (c lsb w : Nat) : (s.bumpTwn c lsb w).evSeq = s.evSeq := (congrArg State.evSeq (s.bumpTwn_only c lsb w)).trans rfl
@[simp] theorem State.bumpTwn_evLost (c lsb w : Nat) : (s.bumpTwn c lsb w).evLost = s.evLost := (congrArg State.evLost (s.bumpTwn_only c lsb w)).trans rfl
@[simp] theorem State.bumpTwn_holding (c lsb w : Nat) : (s.bumpTwn c lsb w).holding = s.holding := (congrArg State.holding (s.bumpTwn_only c lsb w)).trans rfl
@[simp] theorem State.bumpTwn_ignLast (c lsb w : Nat) : (s.bumpTwn c lsb w).ignLast = s.ignLast := (congrArg State.ignLast (s.bumpTwn_only c lsb w)).trans rfl
@[simp] theorem State.bumpTwn_credits (c lsb w : Nat) : (s.bumpTwn c lsb w).credits = s.credits := (congrArg State.credits (s.bumpTwn_only c lsb w)).trans rfl
@[simp] theorem State.bumpTwn_resends (c lsb w : Nat) : (s.bumpTwn c lsb w).resends = s.resends := (congrArg State.resends (s.bumpTwn_only c lsb w)).trans rfl
@[simp] theorem State.bumpTwn_win (c lsb w : Nat) : (s.bumpTwn c lsb w).win = s.win := (congrArg State.win (s.bumpTwn_only c lsb w)).trans rfl
@[simp] theorem State.bumpTwn_rch (c lsb w : Nat) : (s.bumpTwn c lsb w).rch = s.rch := (congrArg State.rch (s.bumpTwn_only c lsb w)).trans rfl
@[simp] theorem State.bumpTwn_blk (c lsb w : Nat) : (s.bumpTwn c lsb w).blk = s.blk := (congrArg State.blk (s.bumpTwn_only c lsb w)).trans rfl
@[simp] theorem State.bumpTwn_pwr (c lsb w : Nat) : (s.bumpTwn c lsb w).pwr = s.pwr := (congrArg State.pwr (s.bumpTwn_only c lsb w)).trans rfl
@[simp] theorem State.bumpTwn_mbx (c lsb w : Nat) : (s.bumpTwn c lsb w).mbx = s.mbx := (congrArg State.mbx (s.bumpTwn_only c lsb w)).trans rfl
@[simp] theorem State.bumpTwn_blkLogs (c lsb w : Nat) : (s.bumpTwn c lsb w).blkLogs = s.blkLogs := (congrArg State.blkLogs (s.bumpTwn_only c lsb w)).trans rfl
@[simp] theorem State.bumpTwn_scratch (c lsb w : Nat) : (s.bumpTwn c lsb w).scratch = s.scratch := (congrArg State.scratch (s.bumpTwn_only c lsb w)).trans rfl
@[simp] theorem State.bumpTwn_groups (c lsb w : Nat) : (s.bumpTwn c lsb w).groups = s.groups := (congrArg State.groups (s.bumpTwn_only c lsb w)).trans rfl
@[simp] theorem State.bumpTwn_adminBars (c lsb w : Nat) : (s.bumpTwn c lsb w).adminBars = s.adminBars := (congrArg State.adminBars (s.bumpTwn_only c lsb w)).trans rfl
@[simp] theorem State.bumpTwn_lastLoss (c lsb w : Nat) : (s.bumpTwn c lsb w).lastLoss = s.lastLoss := (congrArg State.lastLoss (s.bumpTwn_only c lsb w)).trans rfl
@[simp] theorem State.bumpTwn_clk (c lsb w : Nat) : (s.bumpTwn c lsb w).clk = s.clk := (congrArg State.clk (s.bumpTwn_only c lsb w)).trans rfl

/-! ### State.bumpWin -/
theorem State.bumpWin_only (c lsb w : Nat) : s.bumpWin c lsb w = { s with live := (s.bumpWin c lsb w).live } := s.bump_only _ _ _ _
@[simp] theorem State.bumpWin_pending (c lsb w : Nat) : (s.bumpWin c lsb w).pending = s.pending := (congrArg State.pending (s.bumpWin_only c lsb w)).trans rfl
@[simp] theorem State.bumpWin_now (c lsb w : Nat) : (s.bumpWin c lsb w).now = s.now := (congrArg State.now (s.bumpWin_only c lsb w)).trans rfl
@[simp] theorem State.bumpWin_free (c lsb w : Nat) : (s.bumpWin c lsb w).free = s.free := (congrArg State.free (s.bumpWin_only c lsb w)).trans rfl
@[simp] theorem State.bumpWin_out (c lsb w : Nat) : (s.bumpWin c lsb w).out = s.out := (congrArg State.out (s.bumpWin_only c lsb w)).trans rfl
@[simp] theorem State.bumpWin_parts (c lsb w : Nat) : (s.bumpWin c lsb w).parts = s.parts := (congrArg State.parts (s.bumpWin_only c lsb w)).trans rfl
@[simp] theorem State.bumpWin_hosts (c lsb w : Nat) : (s.bumpWin c lsb w).hosts = s.hosts := (congrArg State.hosts (s.bumpWin_only c lsb w)).trans rfl
@[simp] theorem State.bumpWin_intakes (c lsb w : Nat) : (s.bumpWin c lsb w).intakes = s.intakes := (congrArg State.intakes (s.bumpWin_only c lsb w)).trans rfl
@[simp] theorem State.bumpWin_slices (c lsb w : Nat) : (s.bumpWin c lsb w).slices = s.slices := (congrArg State.slices (s.bumpWin_only c lsb w)).trans rfl
@[simp] theorem State.bumpWin_stooks (c lsb w : Nat) : (s.bumpWin c lsb w).stooks = s.stooks := (congrArg State.stooks (s.bumpWin_only c lsb w)).trans rfl
@[simp] theorem State.bumpWin_mports (c lsb w : Nat) : (s.bumpWin c lsb w).mports = s.mports := (congrArg State.mports (s.bumpWin_only c lsb w)).trans rfl
@[simp] theorem State.bumpWin_mer (c lsb w : Nat) : (s.bumpWin c lsb w).mer = s.mer := (congrArg State.mer (s.bumpWin_only c lsb w)).trans rfl
@[simp] theorem State.bumpWin_twin (c lsb w : Nat) : (s.bumpWin c lsb w).twin = s.twin := (congrArg State.twin (s.bumpWin_only c lsb w)).trans rfl
@[simp] theorem State.bumpWin_place (c lsb w : Nat) : (s.bumpWin c lsb w).place = s.place := (congrArg State.place (s.bumpWin_only c lsb w)).trans rfl
@[simp] theorem State.bumpWin_dirGen (c lsb w : Nat) : (s.bumpWin c lsb w).dirGen = s.dirGen := (congrArg State.dirGen (s.bumpWin_only c lsb w)).trans rfl
@[simp] theorem State.bumpWin_events (c lsb w : Nat) : (s.bumpWin c lsb w).events = s.events := (congrArg State.events (s.bumpWin_only c lsb w)).trans rfl
@[simp] theorem State.bumpWin_evSeq (c lsb w : Nat) : (s.bumpWin c lsb w).evSeq = s.evSeq := (congrArg State.evSeq (s.bumpWin_only c lsb w)).trans rfl
@[simp] theorem State.bumpWin_evLost (c lsb w : Nat) : (s.bumpWin c lsb w).evLost = s.evLost := (congrArg State.evLost (s.bumpWin_only c lsb w)).trans rfl
@[simp] theorem State.bumpWin_holding (c lsb w : Nat) : (s.bumpWin c lsb w).holding = s.holding := (congrArg State.holding (s.bumpWin_only c lsb w)).trans rfl
@[simp] theorem State.bumpWin_ignLast (c lsb w : Nat) : (s.bumpWin c lsb w).ignLast = s.ignLast := (congrArg State.ignLast (s.bumpWin_only c lsb w)).trans rfl
@[simp] theorem State.bumpWin_credits (c lsb w : Nat) : (s.bumpWin c lsb w).credits = s.credits := (congrArg State.credits (s.bumpWin_only c lsb w)).trans rfl
@[simp] theorem State.bumpWin_resends (c lsb w : Nat) : (s.bumpWin c lsb w).resends = s.resends := (congrArg State.resends (s.bumpWin_only c lsb w)).trans rfl
@[simp] theorem State.bumpWin_win (c lsb w : Nat) : (s.bumpWin c lsb w).win = s.win := (congrArg State.win (s.bumpWin_only c lsb w)).trans rfl
@[simp] theorem State.bumpWin_rch (c lsb w : Nat) : (s.bumpWin c lsb w).rch = s.rch := (congrArg State.rch (s.bumpWin_only c lsb w)).trans rfl
@[simp] theorem State.bumpWin_blk (c lsb w : Nat) : (s.bumpWin c lsb w).blk = s.blk := (congrArg State.blk (s.bumpWin_only c lsb w)).trans rfl
@[simp] theorem State.bumpWin_pwr (c lsb w : Nat) : (s.bumpWin c lsb w).pwr = s.pwr := (congrArg State.pwr (s.bumpWin_only c lsb w)).trans rfl
@[simp] theorem State.bumpWin_mbx (c lsb w : Nat) : (s.bumpWin c lsb w).mbx = s.mbx := (congrArg State.mbx (s.bumpWin_only c lsb w)).trans rfl
@[simp] theorem State.bumpWin_blkLogs (c lsb w : Nat) : (s.bumpWin c lsb w).blkLogs = s.blkLogs := (congrArg State.blkLogs (s.bumpWin_only c lsb w)).trans rfl
@[simp] theorem State.bumpWin_scratch (c lsb w : Nat) : (s.bumpWin c lsb w).scratch = s.scratch := (congrArg State.scratch (s.bumpWin_only c lsb w)).trans rfl
@[simp] theorem State.bumpWin_groups (c lsb w : Nat) : (s.bumpWin c lsb w).groups = s.groups := (congrArg State.groups (s.bumpWin_only c lsb w)).trans rfl
@[simp] theorem State.bumpWin_adminBars (c lsb w : Nat) : (s.bumpWin c lsb w).adminBars = s.adminBars := (congrArg State.adminBars (s.bumpWin_only c lsb w)).trans rfl
@[simp] theorem State.bumpWin_lastLoss (c lsb w : Nat) : (s.bumpWin c lsb w).lastLoss = s.lastLoss := (congrArg State.lastLoss (s.bumpWin_only c lsb w)).trans rfl
@[simp] theorem State.bumpWin_clk (c lsb w : Nat) : (s.bumpWin c lsb w).clk = s.clk := (congrArg State.clk (s.bumpWin_only c lsb w)).trans rfl

/-! ### State.bumpMer -/
theorem State.bumpMer_only (c lsb w : Nat) : s.bumpMer c lsb w = { s with live := (s.bumpMer c lsb w).live } := s.bump_only _ _ _ _
@[simp] theorem State.bumpMer_pending (c lsb w : Nat) : (s.bumpMer c lsb w).pending = s.pending := (congrArg State.pending (s.bumpMer_only c lsb w)).trans rfl
@[simp] theorem State.bumpMer_now (c lsb w : Nat) : (s.bumpMer c lsb w).now = s.now := (congrArg State.now (s.bumpMer_only c lsb w)).trans rfl
@[simp] theorem State.bumpMer_free (c lsb w : Nat) : (s.bumpMer c lsb w).free = s.free := (congrArg State.free (s.bumpMer_only c lsb w)).trans rfl
@[simp] theorem State.bumpMer_out (c lsb w : Nat) : (s.bumpMer c lsb w).out = s.out := (congrArg State.out (s.bumpMer_only c lsb w)).trans rfl
@[simp] theorem State.bumpMer_parts (c lsb w : Nat) : (s.bumpMer c lsb w).parts = s.parts := (congrArg State.parts (s.bumpMer_only c lsb w)).trans rfl
@[simp] theorem State.bumpMer_hosts (c lsb w : Nat) : (s.bumpMer c lsb w).hosts = s.hosts := (congrArg State.hosts (s.bumpMer_only c lsb w)).trans rfl
@[simp] theorem State.bumpMer_intakes (c lsb w : Nat) : (s.bumpMer c lsb w).intakes = s.intakes := (congrArg State.intakes (s.bumpMer_only c lsb w)).trans rfl
@[simp] theorem State.bumpMer_slices (c lsb w : Nat) : (s.bumpMer c lsb w).slices = s.slices := (congrArg State.slices (s.bumpMer_only c lsb w)).trans rfl
@[simp] theorem State.bumpMer_stooks (c lsb w : Nat) : (s.bumpMer c lsb w).stooks = s.stooks := (congrArg State.stooks (s.bumpMer_only c lsb w)).trans rfl
@[simp] theorem State.bumpMer_mports (c lsb w : Nat) : (s.bumpMer c lsb w).mports = s.mports := (congrArg State.mports (s.bumpMer_only c lsb w)).trans rfl
@[simp] theorem State.bumpMer_mer (c lsb w : Nat) : (s.bumpMer c lsb w).mer = s.mer := (congrArg State.mer (s.bumpMer_only c lsb w)).trans rfl
@[simp] theorem State.bumpMer_twin (c lsb w : Nat) : (s.bumpMer c lsb w).twin = s.twin := (congrArg State.twin (s.bumpMer_only c lsb w)).trans rfl
@[simp] theorem State.bumpMer_place (c lsb w : Nat) : (s.bumpMer c lsb w).place = s.place := (congrArg State.place (s.bumpMer_only c lsb w)).trans rfl
@[simp] theorem State.bumpMer_dirGen (c lsb w : Nat) : (s.bumpMer c lsb w).dirGen = s.dirGen := (congrArg State.dirGen (s.bumpMer_only c lsb w)).trans rfl
@[simp] theorem State.bumpMer_events (c lsb w : Nat) : (s.bumpMer c lsb w).events = s.events := (congrArg State.events (s.bumpMer_only c lsb w)).trans rfl
@[simp] theorem State.bumpMer_evSeq (c lsb w : Nat) : (s.bumpMer c lsb w).evSeq = s.evSeq := (congrArg State.evSeq (s.bumpMer_only c lsb w)).trans rfl
@[simp] theorem State.bumpMer_evLost (c lsb w : Nat) : (s.bumpMer c lsb w).evLost = s.evLost := (congrArg State.evLost (s.bumpMer_only c lsb w)).trans rfl
@[simp] theorem State.bumpMer_holding (c lsb w : Nat) : (s.bumpMer c lsb w).holding = s.holding := (congrArg State.holding (s.bumpMer_only c lsb w)).trans rfl
@[simp] theorem State.bumpMer_ignLast (c lsb w : Nat) : (s.bumpMer c lsb w).ignLast = s.ignLast := (congrArg State.ignLast (s.bumpMer_only c lsb w)).trans rfl
@[simp] theorem State.bumpMer_credits (c lsb w : Nat) : (s.bumpMer c lsb w).credits = s.credits := (congrArg State.credits (s.bumpMer_only c lsb w)).trans rfl
@[simp] theorem State.bumpMer_resends (c lsb w : Nat) : (s.bumpMer c lsb w).resends = s.resends := (congrArg State.resends (s.bumpMer_only c lsb w)).trans rfl
@[simp] theorem State.bumpMer_win (c lsb w : Nat) : (s.bumpMer c lsb w).win = s.win := (congrArg State.win (s.bumpMer_only c lsb w)).trans rfl
@[simp] theorem State.bumpMer_rch (c lsb w : Nat) : (s.bumpMer c lsb w).rch = s.rch := (congrArg State.rch (s.bumpMer_only c lsb w)).trans rfl
@[simp] theorem State.bumpMer_blk (c lsb w : Nat) : (s.bumpMer c lsb w).blk = s.blk := (congrArg State.blk (s.bumpMer_only c lsb w)).trans rfl
@[simp] theorem State.bumpMer_pwr (c lsb w : Nat) : (s.bumpMer c lsb w).pwr = s.pwr := (congrArg State.pwr (s.bumpMer_only c lsb w)).trans rfl
@[simp] theorem State.bumpMer_mbx (c lsb w : Nat) : (s.bumpMer c lsb w).mbx = s.mbx := (congrArg State.mbx (s.bumpMer_only c lsb w)).trans rfl
@[simp] theorem State.bumpMer_blkLogs (c lsb w : Nat) : (s.bumpMer c lsb w).blkLogs = s.blkLogs := (congrArg State.blkLogs (s.bumpMer_only c lsb w)).trans rfl
@[simp] theorem State.bumpMer_scratch (c lsb w : Nat) : (s.bumpMer c lsb w).scratch = s.scratch := (congrArg State.scratch (s.bumpMer_only c lsb w)).trans rfl
@[simp] theorem State.bumpMer_groups (c lsb w : Nat) : (s.bumpMer c lsb w).groups = s.groups := (congrArg State.groups (s.bumpMer_only c lsb w)).trans rfl
@[simp] theorem State.bumpMer_adminBars (c lsb w : Nat) : (s.bumpMer c lsb w).adminBars = s.adminBars := (congrArg State.adminBars (s.bumpMer_only c lsb w)).trans rfl
@[simp] theorem State.bumpMer_lastLoss (c lsb w : Nat) : (s.bumpMer c lsb w).lastLoss = s.lastLoss := (congrArg State.lastLoss (s.bumpMer_only c lsb w)).trans rfl
@[simp] theorem State.bumpMer_clk (c lsb w : Nat) : (s.bumpMer c lsb w).clk = s.clk := (congrArg State.clk (s.bumpMer_only c lsb w)).trans rfl

/-! ### State.bumpPart -/
theorem State.bumpPart_only (i c lsb w : Nat) : s.bumpPart i c lsb w = { s with live := (s.bumpPart i c lsb w).live } := s.bump_only _ _ _ _
@[simp] theorem State.bumpPart_pending (i c lsb w : Nat) : (s.bumpPart i c lsb w).pending = s.pending := (congrArg State.pending (s.bumpPart_only i c lsb w)).trans rfl
@[simp] theorem State.bumpPart_now (i c lsb w : Nat) : (s.bumpPart i c lsb w).now = s.now := (congrArg State.now (s.bumpPart_only i c lsb w)).trans rfl
@[simp] theorem State.bumpPart_free (i c lsb w : Nat) : (s.bumpPart i c lsb w).free = s.free := (congrArg State.free (s.bumpPart_only i c lsb w)).trans rfl
@[simp] theorem State.bumpPart_out (i c lsb w : Nat) : (s.bumpPart i c lsb w).out = s.out := (congrArg State.out (s.bumpPart_only i c lsb w)).trans rfl
@[simp] theorem State.bumpPart_parts (i c lsb w : Nat) : (s.bumpPart i c lsb w).parts = s.parts := (congrArg State.parts (s.bumpPart_only i c lsb w)).trans rfl
@[simp] theorem State.bumpPart_hosts (i c lsb w : Nat) : (s.bumpPart i c lsb w).hosts = s.hosts := (congrArg State.hosts (s.bumpPart_only i c lsb w)).trans rfl
@[simp] theorem State.bumpPart_intakes (i c lsb w : Nat) : (s.bumpPart i c lsb w).intakes = s.intakes := (congrArg State.intakes (s.bumpPart_only i c lsb w)).trans rfl
@[simp] theorem State.bumpPart_slices (i c lsb w : Nat) : (s.bumpPart i c lsb w).slices = s.slices := (congrArg State.slices (s.bumpPart_only i c lsb w)).trans rfl
@[simp] theorem State.bumpPart_stooks (i c lsb w : Nat) : (s.bumpPart i c lsb w).stooks = s.stooks := (congrArg State.stooks (s.bumpPart_only i c lsb w)).trans rfl
@[simp] theorem State.bumpPart_mports (i c lsb w : Nat) : (s.bumpPart i c lsb w).mports = s.mports := (congrArg State.mports (s.bumpPart_only i c lsb w)).trans rfl
@[simp] theorem State.bumpPart_mer (i c lsb w : Nat) : (s.bumpPart i c lsb w).mer = s.mer := (congrArg State.mer (s.bumpPart_only i c lsb w)).trans rfl
@[simp] theorem State.bumpPart_twin (i c lsb w : Nat) : (s.bumpPart i c lsb w).twin = s.twin := (congrArg State.twin (s.bumpPart_only i c lsb w)).trans rfl
@[simp] theorem State.bumpPart_place (i c lsb w : Nat) : (s.bumpPart i c lsb w).place = s.place := (congrArg State.place (s.bumpPart_only i c lsb w)).trans rfl
@[simp] theorem State.bumpPart_dirGen (i c lsb w : Nat) : (s.bumpPart i c lsb w).dirGen = s.dirGen := (congrArg State.dirGen (s.bumpPart_only i c lsb w)).trans rfl
@[simp] theorem State.bumpPart_events (i c lsb w : Nat) : (s.bumpPart i c lsb w).events = s.events := (congrArg State.events (s.bumpPart_only i c lsb w)).trans rfl
@[simp] theorem State.bumpPart_evSeq (i c lsb w : Nat) : (s.bumpPart i c lsb w).evSeq = s.evSeq := (congrArg State.evSeq (s.bumpPart_only i c lsb w)).trans rfl
@[simp] theorem State.bumpPart_evLost (i c lsb w : Nat) : (s.bumpPart i c lsb w).evLost = s.evLost := (congrArg State.evLost (s.bumpPart_only i c lsb w)).trans rfl
@[simp] theorem State.bumpPart_holding (i c lsb w : Nat) : (s.bumpPart i c lsb w).holding = s.holding := (congrArg State.holding (s.bumpPart_only i c lsb w)).trans rfl
@[simp] theorem State.bumpPart_ignLast (i c lsb w : Nat) : (s.bumpPart i c lsb w).ignLast = s.ignLast := (congrArg State.ignLast (s.bumpPart_only i c lsb w)).trans rfl
@[simp] theorem State.bumpPart_credits (i c lsb w : Nat) : (s.bumpPart i c lsb w).credits = s.credits := (congrArg State.credits (s.bumpPart_only i c lsb w)).trans rfl
@[simp] theorem State.bumpPart_resends (i c lsb w : Nat) : (s.bumpPart i c lsb w).resends = s.resends := (congrArg State.resends (s.bumpPart_only i c lsb w)).trans rfl
@[simp] theorem State.bumpPart_win (i c lsb w : Nat) : (s.bumpPart i c lsb w).win = s.win := (congrArg State.win (s.bumpPart_only i c lsb w)).trans rfl
@[simp] theorem State.bumpPart_rch (i c lsb w : Nat) : (s.bumpPart i c lsb w).rch = s.rch := (congrArg State.rch (s.bumpPart_only i c lsb w)).trans rfl
@[simp] theorem State.bumpPart_blk (i c lsb w : Nat) : (s.bumpPart i c lsb w).blk = s.blk := (congrArg State.blk (s.bumpPart_only i c lsb w)).trans rfl
@[simp] theorem State.bumpPart_pwr (i c lsb w : Nat) : (s.bumpPart i c lsb w).pwr = s.pwr := (congrArg State.pwr (s.bumpPart_only i c lsb w)).trans rfl
@[simp] theorem State.bumpPart_mbx (i c lsb w : Nat) : (s.bumpPart i c lsb w).mbx = s.mbx := (congrArg State.mbx (s.bumpPart_only i c lsb w)).trans rfl
@[simp] theorem State.bumpPart_blkLogs (i c lsb w : Nat) : (s.bumpPart i c lsb w).blkLogs = s.blkLogs := (congrArg State.blkLogs (s.bumpPart_only i c lsb w)).trans rfl
@[simp] theorem State.bumpPart_scratch (i c lsb w : Nat) : (s.bumpPart i c lsb w).scratch = s.scratch := (congrArg State.scratch (s.bumpPart_only i c lsb w)).trans rfl
@[simp] theorem State.bumpPart_groups (i c lsb w : Nat) : (s.bumpPart i c lsb w).groups = s.groups := (congrArg State.groups (s.bumpPart_only i c lsb w)).trans rfl
@[simp] theorem State.bumpPart_adminBars (i c lsb w : Nat) : (s.bumpPart i c lsb w).adminBars = s.adminBars := (congrArg State.adminBars (s.bumpPart_only i c lsb w)).trans rfl
@[simp] theorem State.bumpPart_lastLoss (i c lsb w : Nat) : (s.bumpPart i c lsb w).lastLoss = s.lastLoss := (congrArg State.lastLoss (s.bumpPart_only i c lsb w)).trans rfl
@[simp] theorem State.bumpPart_clk (i c lsb w : Nat) : (s.bumpPart i c lsb w).clk = s.clk := (congrArg State.clk (s.bumpPart_only i c lsb w)).trans rfl

/-! ### State.bumpMp -/
theorem State.bumpMp_only (i c lsb w : Nat) : s.bumpMp i c lsb w = { s with live := (s.bumpMp i c lsb w).live } := s.bump_only _ _ _ _
@[simp] theorem State.bumpMp_pending (i c lsb w : Nat) : (s.bumpMp i c lsb w).pending = s.pending := (congrArg State.pending (s.bumpMp_only i c lsb w)).trans rfl
@[simp] theorem State.bumpMp_now (i c lsb w : Nat) : (s.bumpMp i c lsb w).now = s.now := (congrArg State.now (s.bumpMp_only i c lsb w)).trans rfl
@[simp] theorem State.bumpMp_free (i c lsb w : Nat) : (s.bumpMp i c lsb w).free = s.free := (congrArg State.free (s.bumpMp_only i c lsb w)).trans rfl
@[simp] theorem State.bumpMp_out (i c lsb w : Nat) : (s.bumpMp i c lsb w).out = s.out := (congrArg State.out (s.bumpMp_only i c lsb w)).trans rfl
@[simp] theorem State.bumpMp_parts (i c lsb w : Nat) : (s.bumpMp i c lsb w).parts = s.parts := (congrArg State.parts (s.bumpMp_only i c lsb w)).trans rfl
@[simp] theorem State.bumpMp_hosts (i c lsb w : Nat) : (s.bumpMp i c lsb w).hosts = s.hosts := (congrArg State.hosts (s.bumpMp_only i c lsb w)).trans rfl
@[simp] theorem State.bumpMp_intakes (i c lsb w : Nat) : (s.bumpMp i c lsb w).intakes = s.intakes := (congrArg State.intakes (s.bumpMp_only i c lsb w)).trans rfl
@[simp] theorem State.bumpMp_slices (i c lsb w : Nat) : (s.bumpMp i c lsb w).slices = s.slices := (congrArg State.slices (s.bumpMp_only i c lsb w)).trans rfl
@[simp] theorem State.bumpMp_stooks (i c lsb w : Nat) : (s.bumpMp i c lsb w).stooks = s.stooks := (congrArg State.stooks (s.bumpMp_only i c lsb w)).trans rfl
@[simp] theorem State.bumpMp_mports (i c lsb w : Nat) : (s.bumpMp i c lsb w).mports = s.mports := (congrArg State.mports (s.bumpMp_only i c lsb w)).trans rfl
@[simp] theorem State.bumpMp_mer (i c lsb w : Nat) : (s.bumpMp i c lsb w).mer = s.mer := (congrArg State.mer (s.bumpMp_only i c lsb w)).trans rfl
@[simp] theorem State.bumpMp_twin (i c lsb w : Nat) : (s.bumpMp i c lsb w).twin = s.twin := (congrArg State.twin (s.bumpMp_only i c lsb w)).trans rfl
@[simp] theorem State.bumpMp_place (i c lsb w : Nat) : (s.bumpMp i c lsb w).place = s.place := (congrArg State.place (s.bumpMp_only i c lsb w)).trans rfl
@[simp] theorem State.bumpMp_dirGen (i c lsb w : Nat) : (s.bumpMp i c lsb w).dirGen = s.dirGen := (congrArg State.dirGen (s.bumpMp_only i c lsb w)).trans rfl
@[simp] theorem State.bumpMp_events (i c lsb w : Nat) : (s.bumpMp i c lsb w).events = s.events := (congrArg State.events (s.bumpMp_only i c lsb w)).trans rfl
@[simp] theorem State.bumpMp_evSeq (i c lsb w : Nat) : (s.bumpMp i c lsb w).evSeq = s.evSeq := (congrArg State.evSeq (s.bumpMp_only i c lsb w)).trans rfl
@[simp] theorem State.bumpMp_evLost (i c lsb w : Nat) : (s.bumpMp i c lsb w).evLost = s.evLost := (congrArg State.evLost (s.bumpMp_only i c lsb w)).trans rfl
@[simp] theorem State.bumpMp_holding (i c lsb w : Nat) : (s.bumpMp i c lsb w).holding = s.holding := (congrArg State.holding (s.bumpMp_only i c lsb w)).trans rfl
@[simp] theorem State.bumpMp_ignLast (i c lsb w : Nat) : (s.bumpMp i c lsb w).ignLast = s.ignLast := (congrArg State.ignLast (s.bumpMp_only i c lsb w)).trans rfl
@[simp] theorem State.bumpMp_credits (i c lsb w : Nat) : (s.bumpMp i c lsb w).credits = s.credits := (congrArg State.credits (s.bumpMp_only i c lsb w)).trans rfl
@[simp] theorem State.bumpMp_resends (i c lsb w : Nat) : (s.bumpMp i c lsb w).resends = s.resends := (congrArg State.resends (s.bumpMp_only i c lsb w)).trans rfl
@[simp] theorem State.bumpMp_win (i c lsb w : Nat) : (s.bumpMp i c lsb w).win = s.win := (congrArg State.win (s.bumpMp_only i c lsb w)).trans rfl
@[simp] theorem State.bumpMp_rch (i c lsb w : Nat) : (s.bumpMp i c lsb w).rch = s.rch := (congrArg State.rch (s.bumpMp_only i c lsb w)).trans rfl
@[simp] theorem State.bumpMp_blk (i c lsb w : Nat) : (s.bumpMp i c lsb w).blk = s.blk := (congrArg State.blk (s.bumpMp_only i c lsb w)).trans rfl
@[simp] theorem State.bumpMp_pwr (i c lsb w : Nat) : (s.bumpMp i c lsb w).pwr = s.pwr := (congrArg State.pwr (s.bumpMp_only i c lsb w)).trans rfl
@[simp] theorem State.bumpMp_mbx (i c lsb w : Nat) : (s.bumpMp i c lsb w).mbx = s.mbx := (congrArg State.mbx (s.bumpMp_only i c lsb w)).trans rfl
@[simp] theorem State.bumpMp_blkLogs (i c lsb w : Nat) : (s.bumpMp i c lsb w).blkLogs = s.blkLogs := (congrArg State.blkLogs (s.bumpMp_only i c lsb w)).trans rfl
@[simp] theorem State.bumpMp_scratch (i c lsb w : Nat) : (s.bumpMp i c lsb w).scratch = s.scratch := (congrArg State.scratch (s.bumpMp_only i c lsb w)).trans rfl
@[simp] theorem State.bumpMp_groups (i c lsb w : Nat) : (s.bumpMp i c lsb w).groups = s.groups := (congrArg State.groups (s.bumpMp_only i c lsb w)).trans rfl
@[simp] theorem State.bumpMp_adminBars (i c lsb w : Nat) : (s.bumpMp i c lsb w).adminBars = s.adminBars := (congrArg State.adminBars (s.bumpMp_only i c lsb w)).trans rfl
@[simp] theorem State.bumpMp_lastLoss (i c lsb w : Nat) : (s.bumpMp i c lsb w).lastLoss = s.lastLoss := (congrArg State.lastLoss (s.bumpMp_only i c lsb w)).trans rfl
@[simp] theorem State.bumpMp_clk (i c lsb w : Nat) : (s.bumpMp i c lsb w).clk = s.clk := (congrArg State.clk (s.bumpMp_only i c lsb w)).trans rfl

/-! ### State.bumpIp -/
theorem State.bumpIp_only (i c lsb w : Nat) : s.bumpIp i c lsb w = { s with live := (s.bumpIp i c lsb w).live } := s.bump_only _ _ _ _
@[simp] theorem State.bumpIp_pending (i c lsb w : Nat) : (s.bumpIp i c lsb w).pending = s.pending := (congrArg State.pending (s.bumpIp_only i c lsb w)).trans rfl
@[simp] theorem State.bumpIp_now (i c lsb w : Nat) : (s.bumpIp i c lsb w).now = s.now := (congrArg State.now (s.bumpIp_only i c lsb w)).trans rfl
@[simp] theorem State.bumpIp_free (i c lsb w : Nat) : (s.bumpIp i c lsb w).free = s.free := (congrArg State.free (s.bumpIp_only i c lsb w)).trans rfl
@[simp] theorem State.bumpIp_out (i c lsb w : Nat) : (s.bumpIp i c lsb w).out = s.out := (congrArg State.out (s.bumpIp_only i c lsb w)).trans rfl
@[simp] theorem State.bumpIp_parts (i c lsb w : Nat) : (s.bumpIp i c lsb w).parts = s.parts := (congrArg State.parts (s.bumpIp_only i c lsb w)).trans rfl
@[simp] theorem State.bumpIp_hosts (i c lsb w : Nat) : (s.bumpIp i c lsb w).hosts = s.hosts := (congrArg State.hosts (s.bumpIp_only i c lsb w)).trans rfl
@[simp] theorem State.bumpIp_intakes (i c lsb w : Nat) : (s.bumpIp i c lsb w).intakes = s.intakes := (congrArg State.intakes (s.bumpIp_only i c lsb w)).trans rfl
@[simp] theorem State.bumpIp_slices (i c lsb w : Nat) : (s.bumpIp i c lsb w).slices = s.slices := (congrArg State.slices (s.bumpIp_only i c lsb w)).trans rfl
@[simp] theorem State.bumpIp_stooks (i c lsb w : Nat) : (s.bumpIp i c lsb w).stooks = s.stooks := (congrArg State.stooks (s.bumpIp_only i c lsb w)).trans rfl
@[simp] theorem State.bumpIp_mports (i c lsb w : Nat) : (s.bumpIp i c lsb w).mports = s.mports := (congrArg State.mports (s.bumpIp_only i c lsb w)).trans rfl
@[simp] theorem State.bumpIp_mer (i c lsb w : Nat) : (s.bumpIp i c lsb w).mer = s.mer := (congrArg State.mer (s.bumpIp_only i c lsb w)).trans rfl
@[simp] theorem State.bumpIp_twin (i c lsb w : Nat) : (s.bumpIp i c lsb w).twin = s.twin := (congrArg State.twin (s.bumpIp_only i c lsb w)).trans rfl
@[simp] theorem State.bumpIp_place (i c lsb w : Nat) : (s.bumpIp i c lsb w).place = s.place := (congrArg State.place (s.bumpIp_only i c lsb w)).trans rfl
@[simp] theorem State.bumpIp_dirGen (i c lsb w : Nat) : (s.bumpIp i c lsb w).dirGen = s.dirGen := (congrArg State.dirGen (s.bumpIp_only i c lsb w)).trans rfl
@[simp] theorem State.bumpIp_events (i c lsb w : Nat) : (s.bumpIp i c lsb w).events = s.events := (congrArg State.events (s.bumpIp_only i c lsb w)).trans rfl
@[simp] theorem State.bumpIp_evSeq (i c lsb w : Nat) : (s.bumpIp i c lsb w).evSeq = s.evSeq := (congrArg State.evSeq (s.bumpIp_only i c lsb w)).trans rfl
@[simp] theorem State.bumpIp_evLost (i c lsb w : Nat) : (s.bumpIp i c lsb w).evLost = s.evLost := (congrArg State.evLost (s.bumpIp_only i c lsb w)).trans rfl
@[simp] theorem State.bumpIp_holding (i c lsb w : Nat) : (s.bumpIp i c lsb w).holding = s.holding := (congrArg State.holding (s.bumpIp_only i c lsb w)).trans rfl
@[simp] theorem State.bumpIp_ignLast (i c lsb w : Nat) : (s.bumpIp i c lsb w).ignLast = s.ignLast := (congrArg State.ignLast (s.bumpIp_only i c lsb w)).trans rfl
@[simp] theorem State.bumpIp_credits (i c lsb w : Nat) : (s.bumpIp i c lsb w).credits = s.credits := (congrArg State.credits (s.bumpIp_only i c lsb w)).trans rfl
@[simp] theorem State.bumpIp_resends (i c lsb w : Nat) : (s.bumpIp i c lsb w).resends = s.resends := (congrArg State.resends (s.bumpIp_only i c lsb w)).trans rfl
@[simp] theorem State.bumpIp_win (i c lsb w : Nat) : (s.bumpIp i c lsb w).win = s.win := (congrArg State.win (s.bumpIp_only i c lsb w)).trans rfl
@[simp] theorem State.bumpIp_rch (i c lsb w : Nat) : (s.bumpIp i c lsb w).rch = s.rch := (congrArg State.rch (s.bumpIp_only i c lsb w)).trans rfl
@[simp] theorem State.bumpIp_blk (i c lsb w : Nat) : (s.bumpIp i c lsb w).blk = s.blk := (congrArg State.blk (s.bumpIp_only i c lsb w)).trans rfl
@[simp] theorem State.bumpIp_pwr (i c lsb w : Nat) : (s.bumpIp i c lsb w).pwr = s.pwr := (congrArg State.pwr (s.bumpIp_only i c lsb w)).trans rfl
@[simp] theorem State.bumpIp_mbx (i c lsb w : Nat) : (s.bumpIp i c lsb w).mbx = s.mbx := (congrArg State.mbx (s.bumpIp_only i c lsb w)).trans rfl
@[simp] theorem State.bumpIp_blkLogs (i c lsb w : Nat) : (s.bumpIp i c lsb w).blkLogs = s.blkLogs := (congrArg State.blkLogs (s.bumpIp_only i c lsb w)).trans rfl
@[simp] theorem State.bumpIp_scratch (i c lsb w : Nat) : (s.bumpIp i c lsb w).scratch = s.scratch := (congrArg State.scratch (s.bumpIp_only i c lsb w)).trans rfl
@[simp] theorem State.bumpIp_groups (i c lsb w : Nat) : (s.bumpIp i c lsb w).groups = s.groups := (congrArg State.groups (s.bumpIp_only i c lsb w)).trans rfl
@[simp] theorem State.bumpIp_adminBars (i c lsb w : Nat) : (s.bumpIp i c lsb w).adminBars = s.adminBars := (congrArg State.adminBars (s.bumpIp_only i c lsb w)).trans rfl
@[simp] theorem State.bumpIp_lastLoss (i c lsb w : Nat) : (s.bumpIp i c lsb w).lastLoss = s.lastLoss := (congrArg State.lastLoss (s.bumpIp_only i c lsb w)).trans rfl
@[simp] theorem State.bumpIp_clk (i c lsb w : Nat) : (s.bumpIp i c lsb w).clk = s.clk := (congrArg State.clk (s.bumpIp_only i c lsb w)).trans rfl

/-! ### State.bumpStk -/
theorem State.bumpStk_only (i c lsb w : Nat) : s.bumpStk i c lsb w = { s with live := (s.bumpStk i c lsb w).live } := s.bump_only _ _ _ _
@[simp] theorem State.bumpStk_pending (i c lsb w : Nat) : (s.bumpStk i c lsb w).pending = s.pending := (congrArg State.pending (s.bumpStk_only i c lsb w)).trans rfl
@[simp] theorem State.bumpStk_now (i c lsb w : Nat) : (s.bumpStk i c lsb w).now = s.now := (congrArg State.now (s.bumpStk_only i c lsb w)).trans rfl
@[simp] theorem State.bumpStk_free (i c lsb w : Nat) : (s.bumpStk i c lsb w).free = s.free := (congrArg State.free (s.bumpStk_only i c lsb w)).trans rfl
@[simp] theorem State.bumpStk_out (i c lsb w : Nat) : (s.bumpStk i c lsb w).out = s.out := (congrArg State.out (s.bumpStk_only i c lsb w)).trans rfl
@[simp] theorem State.bumpStk_parts (i c lsb w : Nat) : (s.bumpStk i c lsb w).parts = s.parts := (congrArg State.parts (s.bumpStk_only i c lsb w)).trans rfl
@[simp] theorem State.bumpStk_hosts (i c lsb w : Nat) : (s.bumpStk i c lsb w).hosts = s.hosts := (congrArg State.hosts (s.bumpStk_only i c lsb w)).trans rfl
@[simp] theorem State.bumpStk_intakes (i c lsb w : Nat) : (s.bumpStk i c lsb w).intakes = s.intakes := (congrArg State.intakes (s.bumpStk_only i c lsb w)).trans rfl
@[simp] theorem State.bumpStk_slices (i c lsb w : Nat) : (s.bumpStk i c lsb w).slices = s.slices := (congrArg State.slices (s.bumpStk_only i c lsb w)).trans rfl
@[simp] theorem State.bumpStk_stooks (i c lsb w : Nat) : (s.bumpStk i c lsb w).stooks = s.stooks := (congrArg State.stooks (s.bumpStk_only i c lsb w)).trans rfl
@[simp] theorem State.bumpStk_mports (i c lsb w : Nat) : (s.bumpStk i c lsb w).mports = s.mports := (congrArg State.mports (s.bumpStk_only i c lsb w)).trans rfl
@[simp] theorem State.bumpStk_mer (i c lsb w : Nat) : (s.bumpStk i c lsb w).mer = s.mer := (congrArg State.mer (s.bumpStk_only i c lsb w)).trans rfl
@[simp] theorem State.bumpStk_twin (i c lsb w : Nat) : (s.bumpStk i c lsb w).twin = s.twin := (congrArg State.twin (s.bumpStk_only i c lsb w)).trans rfl
@[simp] theorem State.bumpStk_place (i c lsb w : Nat) : (s.bumpStk i c lsb w).place = s.place := (congrArg State.place (s.bumpStk_only i c lsb w)).trans rfl
@[simp] theorem State.bumpStk_dirGen (i c lsb w : Nat) : (s.bumpStk i c lsb w).dirGen = s.dirGen := (congrArg State.dirGen (s.bumpStk_only i c lsb w)).trans rfl
@[simp] theorem State.bumpStk_events (i c lsb w : Nat) : (s.bumpStk i c lsb w).events = s.events := (congrArg State.events (s.bumpStk_only i c lsb w)).trans rfl
@[simp] theorem State.bumpStk_evSeq (i c lsb w : Nat) : (s.bumpStk i c lsb w).evSeq = s.evSeq := (congrArg State.evSeq (s.bumpStk_only i c lsb w)).trans rfl
@[simp] theorem State.bumpStk_evLost (i c lsb w : Nat) : (s.bumpStk i c lsb w).evLost = s.evLost := (congrArg State.evLost (s.bumpStk_only i c lsb w)).trans rfl
@[simp] theorem State.bumpStk_holding (i c lsb w : Nat) : (s.bumpStk i c lsb w).holding = s.holding := (congrArg State.holding (s.bumpStk_only i c lsb w)).trans rfl
@[simp] theorem State.bumpStk_ignLast (i c lsb w : Nat) : (s.bumpStk i c lsb w).ignLast = s.ignLast := (congrArg State.ignLast (s.bumpStk_only i c lsb w)).trans rfl
@[simp] theorem State.bumpStk_credits (i c lsb w : Nat) : (s.bumpStk i c lsb w).credits = s.credits := (congrArg State.credits (s.bumpStk_only i c lsb w)).trans rfl
@[simp] theorem State.bumpStk_resends (i c lsb w : Nat) : (s.bumpStk i c lsb w).resends = s.resends := (congrArg State.resends (s.bumpStk_only i c lsb w)).trans rfl
@[simp] theorem State.bumpStk_win (i c lsb w : Nat) : (s.bumpStk i c lsb w).win = s.win := (congrArg State.win (s.bumpStk_only i c lsb w)).trans rfl
@[simp] theorem State.bumpStk_rch (i c lsb w : Nat) : (s.bumpStk i c lsb w).rch = s.rch := (congrArg State.rch (s.bumpStk_only i c lsb w)).trans rfl
@[simp] theorem State.bumpStk_blk (i c lsb w : Nat) : (s.bumpStk i c lsb w).blk = s.blk := (congrArg State.blk (s.bumpStk_only i c lsb w)).trans rfl
@[simp] theorem State.bumpStk_pwr (i c lsb w : Nat) : (s.bumpStk i c lsb w).pwr = s.pwr := (congrArg State.pwr (s.bumpStk_only i c lsb w)).trans rfl
@[simp] theorem State.bumpStk_mbx (i c lsb w : Nat) : (s.bumpStk i c lsb w).mbx = s.mbx := (congrArg State.mbx (s.bumpStk_only i c lsb w)).trans rfl
@[simp] theorem State.bumpStk_blkLogs (i c lsb w : Nat) : (s.bumpStk i c lsb w).blkLogs = s.blkLogs := (congrArg State.blkLogs (s.bumpStk_only i c lsb w)).trans rfl
@[simp] theorem State.bumpStk_scratch (i c lsb w : Nat) : (s.bumpStk i c lsb w).scratch = s.scratch := (congrArg State.scratch (s.bumpStk_only i c lsb w)).trans rfl
@[simp] theorem State.bumpStk_groups (i c lsb w : Nat) : (s.bumpStk i c lsb w).groups = s.groups := (congrArg State.groups (s.bumpStk_only i c lsb w)).trans rfl
@[simp] theorem State.bumpStk_adminBars (i c lsb w : Nat) : (s.bumpStk i c lsb w).adminBars = s.adminBars := (congrArg State.adminBars (s.bumpStk_only i c lsb w)).trans rfl
@[simp] theorem State.bumpStk_lastLoss (i c lsb w : Nat) : (s.bumpStk i c lsb w).lastLoss = s.lastLoss := (congrArg State.lastLoss (s.bumpStk_only i c lsb w)).trans rfl
@[simp] theorem State.bumpStk_clk (i c lsb w : Nat) : (s.bumpStk i c lsb w).clk = s.clk := (congrArg State.clk (s.bumpStk_only i c lsb w)).trans rfl

/-! ### State.bumpSlc -/
theorem State.bumpSlc_only (i c lsb w : Nat) : s.bumpSlc i c lsb w = { s with live := (s.bumpSlc i c lsb w).live } := s.bump_only _ _ _ _
@[simp] theorem State.bumpSlc_pending (i c lsb w : Nat) : (s.bumpSlc i c lsb w).pending = s.pending := (congrArg State.pending (s.bumpSlc_only i c lsb w)).trans rfl
@[simp] theorem State.bumpSlc_now (i c lsb w : Nat) : (s.bumpSlc i c lsb w).now = s.now := (congrArg State.now (s.bumpSlc_only i c lsb w)).trans rfl
@[simp] theorem State.bumpSlc_free (i c lsb w : Nat) : (s.bumpSlc i c lsb w).free = s.free := (congrArg State.free (s.bumpSlc_only i c lsb w)).trans rfl
@[simp] theorem State.bumpSlc_out (i c lsb w : Nat) : (s.bumpSlc i c lsb w).out = s.out := (congrArg State.out (s.bumpSlc_only i c lsb w)).trans rfl
@[simp] theorem State.bumpSlc_parts (i c lsb w : Nat) : (s.bumpSlc i c lsb w).parts = s.parts := (congrArg State.parts (s.bumpSlc_only i c lsb w)).trans rfl
@[simp] theorem State.bumpSlc_hosts (i c lsb w : Nat) : (s.bumpSlc i c lsb w).hosts = s.hosts := (congrArg State.hosts (s.bumpSlc_only i c lsb w)).trans rfl
@[simp] theorem State.bumpSlc_intakes (i c lsb w : Nat) : (s.bumpSlc i c lsb w).intakes = s.intakes := (congrArg State.intakes (s.bumpSlc_only i c lsb w)).trans rfl
@[simp] theorem State.bumpSlc_slices (i c lsb w : Nat) : (s.bumpSlc i c lsb w).slices = s.slices := (congrArg State.slices (s.bumpSlc_only i c lsb w)).trans rfl
@[simp] theorem State.bumpSlc_stooks (i c lsb w : Nat) : (s.bumpSlc i c lsb w).stooks = s.stooks := (congrArg State.stooks (s.bumpSlc_only i c lsb w)).trans rfl
@[simp] theorem State.bumpSlc_mports (i c lsb w : Nat) : (s.bumpSlc i c lsb w).mports = s.mports := (congrArg State.mports (s.bumpSlc_only i c lsb w)).trans rfl
@[simp] theorem State.bumpSlc_mer (i c lsb w : Nat) : (s.bumpSlc i c lsb w).mer = s.mer := (congrArg State.mer (s.bumpSlc_only i c lsb w)).trans rfl
@[simp] theorem State.bumpSlc_twin (i c lsb w : Nat) : (s.bumpSlc i c lsb w).twin = s.twin := (congrArg State.twin (s.bumpSlc_only i c lsb w)).trans rfl
@[simp] theorem State.bumpSlc_place (i c lsb w : Nat) : (s.bumpSlc i c lsb w).place = s.place := (congrArg State.place (s.bumpSlc_only i c lsb w)).trans rfl
@[simp] theorem State.bumpSlc_dirGen (i c lsb w : Nat) : (s.bumpSlc i c lsb w).dirGen = s.dirGen := (congrArg State.dirGen (s.bumpSlc_only i c lsb w)).trans rfl
@[simp] theorem State.bumpSlc_events (i c lsb w : Nat) : (s.bumpSlc i c lsb w).events = s.events := (congrArg State.events (s.bumpSlc_only i c lsb w)).trans rfl
@[simp] theorem State.bumpSlc_evSeq (i c lsb w : Nat) : (s.bumpSlc i c lsb w).evSeq = s.evSeq := (congrArg State.evSeq (s.bumpSlc_only i c lsb w)).trans rfl
@[simp] theorem State.bumpSlc_evLost (i c lsb w : Nat) : (s.bumpSlc i c lsb w).evLost = s.evLost := (congrArg State.evLost (s.bumpSlc_only i c lsb w)).trans rfl
@[simp] theorem State.bumpSlc_holding (i c lsb w : Nat) : (s.bumpSlc i c lsb w).holding = s.holding := (congrArg State.holding (s.bumpSlc_only i c lsb w)).trans rfl
@[simp] theorem State.bumpSlc_ignLast (i c lsb w : Nat) : (s.bumpSlc i c lsb w).ignLast = s.ignLast := (congrArg State.ignLast (s.bumpSlc_only i c lsb w)).trans rfl
@[simp] theorem State.bumpSlc_credits (i c lsb w : Nat) : (s.bumpSlc i c lsb w).credits = s.credits := (congrArg State.credits (s.bumpSlc_only i c lsb w)).trans rfl
@[simp] theorem State.bumpSlc_resends (i c lsb w : Nat) : (s.bumpSlc i c lsb w).resends = s.resends := (congrArg State.resends (s.bumpSlc_only i c lsb w)).trans rfl
@[simp] theorem State.bumpSlc_win (i c lsb w : Nat) : (s.bumpSlc i c lsb w).win = s.win := (congrArg State.win (s.bumpSlc_only i c lsb w)).trans rfl
@[simp] theorem State.bumpSlc_rch (i c lsb w : Nat) : (s.bumpSlc i c lsb w).rch = s.rch := (congrArg State.rch (s.bumpSlc_only i c lsb w)).trans rfl
@[simp] theorem State.bumpSlc_blk (i c lsb w : Nat) : (s.bumpSlc i c lsb w).blk = s.blk := (congrArg State.blk (s.bumpSlc_only i c lsb w)).trans rfl
@[simp] theorem State.bumpSlc_pwr (i c lsb w : Nat) : (s.bumpSlc i c lsb w).pwr = s.pwr := (congrArg State.pwr (s.bumpSlc_only i c lsb w)).trans rfl
@[simp] theorem State.bumpSlc_mbx (i c lsb w : Nat) : (s.bumpSlc i c lsb w).mbx = s.mbx := (congrArg State.mbx (s.bumpSlc_only i c lsb w)).trans rfl
@[simp] theorem State.bumpSlc_blkLogs (i c lsb w : Nat) : (s.bumpSlc i c lsb w).blkLogs = s.blkLogs := (congrArg State.blkLogs (s.bumpSlc_only i c lsb w)).trans rfl
@[simp] theorem State.bumpSlc_scratch (i c lsb w : Nat) : (s.bumpSlc i c lsb w).scratch = s.scratch := (congrArg State.scratch (s.bumpSlc_only i c lsb w)).trans rfl
@[simp] theorem State.bumpSlc_groups (i c lsb w : Nat) : (s.bumpSlc i c lsb w).groups = s.groups := (congrArg State.groups (s.bumpSlc_only i c lsb w)).trans rfl
@[simp] theorem State.bumpSlc_adminBars (i c lsb w : Nat) : (s.bumpSlc i c lsb w).adminBars = s.adminBars := (congrArg State.adminBars (s.bumpSlc_only i c lsb w)).trans rfl
@[simp] theorem State.bumpSlc_lastLoss (i c lsb w : Nat) : (s.bumpSlc i c lsb w).lastLoss = s.lastLoss := (congrArg State.lastLoss (s.bumpSlc_only i c lsb w)).trans rfl
@[simp] theorem State.bumpSlc_clk (i c lsb w : Nat) : (s.bumpSlc i c lsb w).clk = s.clk := (congrArg State.clk (s.bumpSlc_only i c lsb w)).trans rfl

/-! ### State.elapseMer -/
theorem State.elapseMer_only (t : Nat) : s.elapseMer t = { s with live := (s.elapseMer t).live } := by
  unfold State.elapseMer; split <;> first | rfl | exact s.bump_only _ _ _ _
@[simp] theorem State.elapseMer_pending (t : Nat) : (s.elapseMer t).pending = s.pending := (congrArg State.pending (s.elapseMer_only t)).trans rfl
@[simp] theorem State.elapseMer_now (t : Nat) : (s.elapseMer t).now = s.now := (congrArg State.now (s.elapseMer_only t)).trans rfl
@[simp] theorem State.elapseMer_free (t : Nat) : (s.elapseMer t).free = s.free := (congrArg State.free (s.elapseMer_only t)).trans rfl
@[simp] theorem State.elapseMer_out (t : Nat) : (s.elapseMer t).out = s.out := (congrArg State.out (s.elapseMer_only t)).trans rfl
@[simp] theorem State.elapseMer_parts (t : Nat) : (s.elapseMer t).parts = s.parts := (congrArg State.parts (s.elapseMer_only t)).trans rfl
@[simp] theorem State.elapseMer_hosts (t : Nat) : (s.elapseMer t).hosts = s.hosts := (congrArg State.hosts (s.elapseMer_only t)).trans rfl
@[simp] theorem State.elapseMer_intakes (t : Nat) : (s.elapseMer t).intakes = s.intakes := (congrArg State.intakes (s.elapseMer_only t)).trans rfl
@[simp] theorem State.elapseMer_slices (t : Nat) : (s.elapseMer t).slices = s.slices := (congrArg State.slices (s.elapseMer_only t)).trans rfl
@[simp] theorem State.elapseMer_stooks (t : Nat) : (s.elapseMer t).stooks = s.stooks := (congrArg State.stooks (s.elapseMer_only t)).trans rfl
@[simp] theorem State.elapseMer_mports (t : Nat) : (s.elapseMer t).mports = s.mports := (congrArg State.mports (s.elapseMer_only t)).trans rfl
@[simp] theorem State.elapseMer_mer (t : Nat) : (s.elapseMer t).mer = s.mer := (congrArg State.mer (s.elapseMer_only t)).trans rfl
@[simp] theorem State.elapseMer_twin (t : Nat) : (s.elapseMer t).twin = s.twin := (congrArg State.twin (s.elapseMer_only t)).trans rfl
@[simp] theorem State.elapseMer_place (t : Nat) : (s.elapseMer t).place = s.place := (congrArg State.place (s.elapseMer_only t)).trans rfl
@[simp] theorem State.elapseMer_dirGen (t : Nat) : (s.elapseMer t).dirGen = s.dirGen := (congrArg State.dirGen (s.elapseMer_only t)).trans rfl
@[simp] theorem State.elapseMer_events (t : Nat) : (s.elapseMer t).events = s.events := (congrArg State.events (s.elapseMer_only t)).trans rfl
@[simp] theorem State.elapseMer_evSeq (t : Nat) : (s.elapseMer t).evSeq = s.evSeq := (congrArg State.evSeq (s.elapseMer_only t)).trans rfl
@[simp] theorem State.elapseMer_evLost (t : Nat) : (s.elapseMer t).evLost = s.evLost := (congrArg State.evLost (s.elapseMer_only t)).trans rfl
@[simp] theorem State.elapseMer_holding (t : Nat) : (s.elapseMer t).holding = s.holding := (congrArg State.holding (s.elapseMer_only t)).trans rfl
@[simp] theorem State.elapseMer_ignLast (t : Nat) : (s.elapseMer t).ignLast = s.ignLast := (congrArg State.ignLast (s.elapseMer_only t)).trans rfl
@[simp] theorem State.elapseMer_credits (t : Nat) : (s.elapseMer t).credits = s.credits := (congrArg State.credits (s.elapseMer_only t)).trans rfl
@[simp] theorem State.elapseMer_resends (t : Nat) : (s.elapseMer t).resends = s.resends := (congrArg State.resends (s.elapseMer_only t)).trans rfl
@[simp] theorem State.elapseMer_win (t : Nat) : (s.elapseMer t).win = s.win := (congrArg State.win (s.elapseMer_only t)).trans rfl
@[simp] theorem State.elapseMer_rch (t : Nat) : (s.elapseMer t).rch = s.rch := (congrArg State.rch (s.elapseMer_only t)).trans rfl
@[simp] theorem State.elapseMer_blk (t : Nat) : (s.elapseMer t).blk = s.blk := (congrArg State.blk (s.elapseMer_only t)).trans rfl
@[simp] theorem State.elapseMer_pwr (t : Nat) : (s.elapseMer t).pwr = s.pwr := (congrArg State.pwr (s.elapseMer_only t)).trans rfl
@[simp] theorem State.elapseMer_mbx (t : Nat) : (s.elapseMer t).mbx = s.mbx := (congrArg State.mbx (s.elapseMer_only t)).trans rfl
@[simp] theorem State.elapseMer_blkLogs (t : Nat) : (s.elapseMer t).blkLogs = s.blkLogs := (congrArg State.blkLogs (s.elapseMer_only t)).trans rfl
@[simp] theorem State.elapseMer_scratch (t : Nat) : (s.elapseMer t).scratch = s.scratch := (congrArg State.scratch (s.elapseMer_only t)).trans rfl
@[simp] theorem State.elapseMer_groups (t : Nat) : (s.elapseMer t).groups = s.groups := (congrArg State.groups (s.elapseMer_only t)).trans rfl
@[simp] theorem State.elapseMer_adminBars (t : Nat) : (s.elapseMer t).adminBars = s.adminBars := (congrArg State.adminBars (s.elapseMer_only t)).trans rfl
@[simp] theorem State.elapseMer_lastLoss (t : Nat) : (s.elapseMer t).lastLoss = s.lastLoss := (congrArg State.lastLoss (s.elapseMer_only t)).trans rfl
@[simp] theorem State.elapseMer_clk (t : Nat) : (s.elapseMer t).clk = s.clk := (congrArg State.clk (s.elapseMer_only t)).trans rfl

/-! ### State.elapseRch -/
theorem State.elapseRch_only (t : Nat) : s.elapseRch t = { s with live := (s.elapseRch t).live } := by
  unfold State.elapseRch; (repeat' split) <;> first | rfl | exact s.bump_only _ _ _ _
@[simp] theorem State.elapseRch_pending (t : Nat) : (s.elapseRch t).pending = s.pending := (congrArg State.pending (s.elapseRch_only t)).trans rfl
@[simp] theorem State.elapseRch_now (t : Nat) : (s.elapseRch t).now = s.now := (congrArg State.now (s.elapseRch_only t)).trans rfl
@[simp] theorem State.elapseRch_free (t : Nat) : (s.elapseRch t).free = s.free := (congrArg State.free (s.elapseRch_only t)).trans rfl
@[simp] theorem State.elapseRch_out (t : Nat) : (s.elapseRch t).out = s.out := (congrArg State.out (s.elapseRch_only t)).trans rfl
@[simp] theorem State.elapseRch_parts (t : Nat) : (s.elapseRch t).parts = s.parts := (congrArg State.parts (s.elapseRch_only t)).trans rfl
@[simp] theorem State.elapseRch_hosts (t : Nat) : (s.elapseRch t).hosts = s.hosts := (congrArg State.hosts (s.elapseRch_only t)).trans rfl
@[simp] theorem State.elapseRch_intakes (t : Nat) : (s.elapseRch t).intakes = s.intakes := (congrArg State.intakes (s.elapseRch_only t)).trans rfl
@[simp] theorem State.elapseRch_slices (t : Nat) : (s.elapseRch t).slices = s.slices := (congrArg State.slices (s.elapseRch_only t)).trans rfl
@[simp] theorem State.elapseRch_stooks (t : Nat) : (s.elapseRch t).stooks = s.stooks := (congrArg State.stooks (s.elapseRch_only t)).trans rfl
@[simp] theorem State.elapseRch_mports (t : Nat) : (s.elapseRch t).mports = s.mports := (congrArg State.mports (s.elapseRch_only t)).trans rfl
@[simp] theorem State.elapseRch_mer (t : Nat) : (s.elapseRch t).mer = s.mer := (congrArg State.mer (s.elapseRch_only t)).trans rfl
@[simp] theorem State.elapseRch_twin (t : Nat) : (s.elapseRch t).twin = s.twin := (congrArg State.twin (s.elapseRch_only t)).trans rfl
@[simp] theorem State.elapseRch_place (t : Nat) : (s.elapseRch t).place = s.place := (congrArg State.place (s.elapseRch_only t)).trans rfl
@[simp] theorem State.elapseRch_dirGen (t : Nat) : (s.elapseRch t).dirGen = s.dirGen := (congrArg State.dirGen (s.elapseRch_only t)).trans rfl
@[simp] theorem State.elapseRch_events (t : Nat) : (s.elapseRch t).events = s.events := (congrArg State.events (s.elapseRch_only t)).trans rfl
@[simp] theorem State.elapseRch_evSeq (t : Nat) : (s.elapseRch t).evSeq = s.evSeq := (congrArg State.evSeq (s.elapseRch_only t)).trans rfl
@[simp] theorem State.elapseRch_evLost (t : Nat) : (s.elapseRch t).evLost = s.evLost := (congrArg State.evLost (s.elapseRch_only t)).trans rfl
@[simp] theorem State.elapseRch_holding (t : Nat) : (s.elapseRch t).holding = s.holding := (congrArg State.holding (s.elapseRch_only t)).trans rfl
@[simp] theorem State.elapseRch_ignLast (t : Nat) : (s.elapseRch t).ignLast = s.ignLast := (congrArg State.ignLast (s.elapseRch_only t)).trans rfl
@[simp] theorem State.elapseRch_credits (t : Nat) : (s.elapseRch t).credits = s.credits := (congrArg State.credits (s.elapseRch_only t)).trans rfl
@[simp] theorem State.elapseRch_resends (t : Nat) : (s.elapseRch t).resends = s.resends := (congrArg State.resends (s.elapseRch_only t)).trans rfl
@[simp] theorem State.elapseRch_win (t : Nat) : (s.elapseRch t).win = s.win := (congrArg State.win (s.elapseRch_only t)).trans rfl
@[simp] theorem State.elapseRch_rch (t : Nat) : (s.elapseRch t).rch = s.rch := (congrArg State.rch (s.elapseRch_only t)).trans rfl
@[simp] theorem State.elapseRch_blk (t : Nat) : (s.elapseRch t).blk = s.blk := (congrArg State.blk (s.elapseRch_only t)).trans rfl
@[simp] theorem State.elapseRch_pwr (t : Nat) : (s.elapseRch t).pwr = s.pwr := (congrArg State.pwr (s.elapseRch_only t)).trans rfl
@[simp] theorem State.elapseRch_mbx (t : Nat) : (s.elapseRch t).mbx = s.mbx := (congrArg State.mbx (s.elapseRch_only t)).trans rfl
@[simp] theorem State.elapseRch_blkLogs (t : Nat) : (s.elapseRch t).blkLogs = s.blkLogs := (congrArg State.blkLogs (s.elapseRch_only t)).trans rfl
@[simp] theorem State.elapseRch_scratch (t : Nat) : (s.elapseRch t).scratch = s.scratch := (congrArg State.scratch (s.elapseRch_only t)).trans rfl
@[simp] theorem State.elapseRch_groups (t : Nat) : (s.elapseRch t).groups = s.groups := (congrArg State.groups (s.elapseRch_only t)).trans rfl
@[simp] theorem State.elapseRch_adminBars (t : Nat) : (s.elapseRch t).adminBars = s.adminBars := (congrArg State.adminBars (s.elapseRch_only t)).trans rfl
@[simp] theorem State.elapseRch_lastLoss (t : Nat) : (s.elapseRch t).lastLoss = s.lastLoss := (congrArg State.lastLoss (s.elapseRch_only t)).trans rfl
@[simp] theorem State.elapseRch_clk (t : Nat) : (s.elapseRch t).clk = s.clk := (congrArg State.clk (s.elapseRch_only t)).trans rfl

/-! ### State.elapse -/
theorem State.elapse_only (t : Nat) : s.elapse t = { s with live := (s.elapse t).live } := ((s.elapseMer t).elapseRch_only t).trans (congrArg (fun x : State => { x with live := ((s.elapseMer t).elapseRch t).live }) (s.elapseMer_only t))
@[simp] theorem State.elapse_pending (t : Nat) : (s.elapse t).pending = s.pending := (congrArg State.pending (s.elapse_only t)).trans rfl
@[simp] theorem State.elapse_now (t : Nat) : (s.elapse t).now = s.now := (congrArg State.now (s.elapse_only t)).trans rfl
@[simp] theorem State.elapse_free (t : Nat) : (s.elapse t).free = s.free := (congrArg State.free (s.elapse_only t)).trans rfl
@[simp] theorem State.elapse_out (t : Nat) : (s.elapse t).out = s.out := (congrArg State.out (s.elapse_only t)).trans rfl
@[simp] theorem State.elapse_parts (t : Nat) : (s.elapse t).parts = s.parts := (congrArg State.parts (s.elapse_only t)).trans rfl
@[simp] theorem State.elapse_hosts (t : Nat) : (s.elapse t).hosts = s.hosts := (congrArg State.hosts (s.elapse_only t)).trans rfl
@[simp] theorem State.elapse_intakes (t : Nat) : (s.elapse t).intakes = s.intakes := (congrArg State.intakes (s.elapse_only t)).trans rfl
@[simp] theorem State.elapse_slices (t : Nat) : (s.elapse t).slices = s.slices := (congrArg State.slices (s.elapse_only t)).trans rfl
@[simp] theorem State.elapse_stooks (t : Nat) : (s.elapse t).stooks = s.stooks := (congrArg State.stooks (s.elapse_only t)).trans rfl
@[simp] theorem State.elapse_mports (t : Nat) : (s.elapse t).mports = s.mports := (congrArg State.mports (s.elapse_only t)).trans rfl
@[simp] theorem State.elapse_mer (t : Nat) : (s.elapse t).mer = s.mer := (congrArg State.mer (s.elapse_only t)).trans rfl
@[simp] theorem State.elapse_twin (t : Nat) : (s.elapse t).twin = s.twin := (congrArg State.twin (s.elapse_only t)).trans rfl
@[simp] theorem State.elapse_place (t : Nat) : (s.elapse t).place = s.place := (congrArg State.place (s.elapse_only t)).trans rfl
@[simp] theorem State.elapse_dirGen (t : Nat) : (s.elapse t).dirGen = s.dirGen := (congrArg State.dirGen (s.elapse_only t)).trans rfl
@[simp] theorem State.elapse_events (t : Nat) : (s.elapse t).events = s.events := (congrArg State.events (s.elapse_only t)).trans rfl
@[simp] theorem State.elapse_evSeq (t : Nat) : (s.elapse t).evSeq = s.evSeq := (congrArg State.evSeq (s.elapse_only t)).trans rfl
@[simp] theorem State.elapse_evLost (t : Nat) : (s.elapse t).evLost = s.evLost := (congrArg State.evLost (s.elapse_only t)).trans rfl
@[simp] theorem State.elapse_holding (t : Nat) : (s.elapse t).holding = s.holding := (congrArg State.holding (s.elapse_only t)).trans rfl
@[simp] theorem State.elapse_ignLast (t : Nat) : (s.elapse t).ignLast = s.ignLast := (congrArg State.ignLast (s.elapse_only t)).trans rfl
@[simp] theorem State.elapse_credits (t : Nat) : (s.elapse t).credits = s.credits := (congrArg State.credits (s.elapse_only t)).trans rfl
@[simp] theorem State.elapse_resends (t : Nat) : (s.elapse t).resends = s.resends := (congrArg State.resends (s.elapse_only t)).trans rfl
@[simp] theorem State.elapse_win (t : Nat) : (s.elapse t).win = s.win := (congrArg State.win (s.elapse_only t)).trans rfl
@[simp] theorem State.elapse_rch (t : Nat) : (s.elapse t).rch = s.rch := (congrArg State.rch (s.elapse_only t)).trans rfl
@[simp] theorem State.elapse_blk (t : Nat) : (s.elapse t).blk = s.blk := (congrArg State.blk (s.elapse_only t)).trans rfl
@[simp] theorem State.elapse_pwr (t : Nat) : (s.elapse t).pwr = s.pwr := (congrArg State.pwr (s.elapse_only t)).trans rfl
@[simp] theorem State.elapse_mbx (t : Nat) : (s.elapse t).mbx = s.mbx := (congrArg State.mbx (s.elapse_only t)).trans rfl
@[simp] theorem State.elapse_blkLogs (t : Nat) : (s.elapse t).blkLogs = s.blkLogs := (congrArg State.blkLogs (s.elapse_only t)).trans rfl
@[simp] theorem State.elapse_scratch (t : Nat) : (s.elapse t).scratch = s.scratch := (congrArg State.scratch (s.elapse_only t)).trans rfl
@[simp] theorem State.elapse_groups (t : Nat) : (s.elapse t).groups = s.groups := (congrArg State.groups (s.elapse_only t)).trans rfl
@[simp] theorem State.elapse_adminBars (t : Nat) : (s.elapse t).adminBars = s.adminBars := (congrArg State.adminBars (s.elapse_only t)).trans rfl
@[simp] theorem State.elapse_lastLoss (t : Nat) : (s.elapse t).lastLoss = s.lastLoss := (congrArg State.lastLoss (s.elapse_only t)).trans rfl
@[simp] theorem State.elapse_clk (t : Nat) : (s.elapse t).clk = s.clk := (congrArg State.clk (s.elapse_only t)).trans rfl

/-! ### State.carry -/
theorem State.carry_only  : s.carry  = { s with rch := (s.carry ).rch, live := (s.carry ).live } := by
  unfold State.carry; split <;> rfl
@[simp] theorem State.carry_pending  : (s.carry ).pending = s.pending := (congrArg State.pending (s.carry_only )).trans rfl
@[simp] theorem State.carry_now  : (s.carry ).now = s.now := (congrArg State.now (s.carry_only )).trans rfl
@[simp] theorem State.carry_free  : (s.carry ).free = s.free := (congrArg State.free (s.carry_only )).trans rfl
@[simp] theorem State.carry_out  : (s.carry ).out = s.out := (congrArg State.out (s.carry_only )).trans rfl
@[simp] theorem State.carry_parts  : (s.carry ).parts = s.parts := (congrArg State.parts (s.carry_only )).trans rfl
@[simp] theorem State.carry_hosts  : (s.carry ).hosts = s.hosts := (congrArg State.hosts (s.carry_only )).trans rfl
@[simp] theorem State.carry_intakes  : (s.carry ).intakes = s.intakes := (congrArg State.intakes (s.carry_only )).trans rfl
@[simp] theorem State.carry_slices  : (s.carry ).slices = s.slices := (congrArg State.slices (s.carry_only )).trans rfl
@[simp] theorem State.carry_stooks  : (s.carry ).stooks = s.stooks := (congrArg State.stooks (s.carry_only )).trans rfl
@[simp] theorem State.carry_mports  : (s.carry ).mports = s.mports := (congrArg State.mports (s.carry_only )).trans rfl
@[simp] theorem State.carry_mer  : (s.carry ).mer = s.mer := (congrArg State.mer (s.carry_only )).trans rfl
@[simp] theorem State.carry_twin  : (s.carry ).twin = s.twin := (congrArg State.twin (s.carry_only )).trans rfl
@[simp] theorem State.carry_place  : (s.carry ).place = s.place := (congrArg State.place (s.carry_only )).trans rfl
@[simp] theorem State.carry_dirGen  : (s.carry ).dirGen = s.dirGen := (congrArg State.dirGen (s.carry_only )).trans rfl
@[simp] theorem State.carry_events  : (s.carry ).events = s.events := (congrArg State.events (s.carry_only )).trans rfl
@[simp] theorem State.carry_evSeq  : (s.carry ).evSeq = s.evSeq := (congrArg State.evSeq (s.carry_only )).trans rfl
@[simp] theorem State.carry_evLost  : (s.carry ).evLost = s.evLost := (congrArg State.evLost (s.carry_only )).trans rfl
@[simp] theorem State.carry_holding  : (s.carry ).holding = s.holding := (congrArg State.holding (s.carry_only )).trans rfl
@[simp] theorem State.carry_ignLast  : (s.carry ).ignLast = s.ignLast := (congrArg State.ignLast (s.carry_only )).trans rfl
@[simp] theorem State.carry_credits  : (s.carry ).credits = s.credits := (congrArg State.credits (s.carry_only )).trans rfl
@[simp] theorem State.carry_resends  : (s.carry ).resends = s.resends := (congrArg State.resends (s.carry_only )).trans rfl
@[simp] theorem State.carry_win  : (s.carry ).win = s.win := (congrArg State.win (s.carry_only )).trans rfl
@[simp] theorem State.carry_blk  : (s.carry ).blk = s.blk := (congrArg State.blk (s.carry_only )).trans rfl
@[simp] theorem State.carry_pwr  : (s.carry ).pwr = s.pwr := (congrArg State.pwr (s.carry_only )).trans rfl
@[simp] theorem State.carry_mbx  : (s.carry ).mbx = s.mbx := (congrArg State.mbx (s.carry_only )).trans rfl
@[simp] theorem State.carry_blkLogs  : (s.carry ).blkLogs = s.blkLogs := (congrArg State.blkLogs (s.carry_only )).trans rfl
@[simp] theorem State.carry_scratch  : (s.carry ).scratch = s.scratch := (congrArg State.scratch (s.carry_only )).trans rfl
@[simp] theorem State.carry_groups  : (s.carry ).groups = s.groups := (congrArg State.groups (s.carry_only )).trans rfl
@[simp] theorem State.carry_adminBars  : (s.carry ).adminBars = s.adminBars := (congrArg State.adminBars (s.carry_only )).trans rfl
@[simp] theorem State.carry_lastLoss  : (s.carry ).lastLoss = s.lastLoss := (congrArg State.lastLoss (s.carry_only )).trans rfl
@[simp] theorem State.carry_clk  : (s.carry ).clk = s.clk := (congrArg State.clk (s.carry_only )).trans rfl

/-! ### State.packet -/
theorem State.packet_only (a b : NetUnit) (op : Nat) (f : PktF) : s.packet a b op f = { s with rch := (s.packet a b op f).rch } := by
  unfold State.packet; split <;> rfl
@[simp] theorem State.packet_pending (a b : NetUnit) (op : Nat) (f : PktF) : (s.packet a b op f).pending = s.pending := (congrArg State.pending (s.packet_only a b op f)).trans rfl
@[simp] theorem State.packet_now (a b : NetUnit) (op : Nat) (f : PktF) : (s.packet a b op f).now = s.now := (congrArg State.now (s.packet_only a b op f)).trans rfl
@[simp] theorem State.packet_free (a b : NetUnit) (op : Nat) (f : PktF) : (s.packet a b op f).free = s.free := (congrArg State.free (s.packet_only a b op f)).trans rfl
@[simp] theorem State.packet_out (a b : NetUnit) (op : Nat) (f : PktF) : (s.packet a b op f).out = s.out := (congrArg State.out (s.packet_only a b op f)).trans rfl
@[simp] theorem State.packet_parts (a b : NetUnit) (op : Nat) (f : PktF) : (s.packet a b op f).parts = s.parts := (congrArg State.parts (s.packet_only a b op f)).trans rfl
@[simp] theorem State.packet_hosts (a b : NetUnit) (op : Nat) (f : PktF) : (s.packet a b op f).hosts = s.hosts := (congrArg State.hosts (s.packet_only a b op f)).trans rfl
@[simp] theorem State.packet_intakes (a b : NetUnit) (op : Nat) (f : PktF) : (s.packet a b op f).intakes = s.intakes := (congrArg State.intakes (s.packet_only a b op f)).trans rfl
@[simp] theorem State.packet_slices (a b : NetUnit) (op : Nat) (f : PktF) : (s.packet a b op f).slices = s.slices := (congrArg State.slices (s.packet_only a b op f)).trans rfl
@[simp] theorem State.packet_stooks (a b : NetUnit) (op : Nat) (f : PktF) : (s.packet a b op f).stooks = s.stooks := (congrArg State.stooks (s.packet_only a b op f)).trans rfl
@[simp] theorem State.packet_mports (a b : NetUnit) (op : Nat) (f : PktF) : (s.packet a b op f).mports = s.mports := (congrArg State.mports (s.packet_only a b op f)).trans rfl
@[simp] theorem State.packet_mer (a b : NetUnit) (op : Nat) (f : PktF) : (s.packet a b op f).mer = s.mer := (congrArg State.mer (s.packet_only a b op f)).trans rfl
@[simp] theorem State.packet_twin (a b : NetUnit) (op : Nat) (f : PktF) : (s.packet a b op f).twin = s.twin := (congrArg State.twin (s.packet_only a b op f)).trans rfl
@[simp] theorem State.packet_place (a b : NetUnit) (op : Nat) (f : PktF) : (s.packet a b op f).place = s.place := (congrArg State.place (s.packet_only a b op f)).trans rfl
@[simp] theorem State.packet_dirGen (a b : NetUnit) (op : Nat) (f : PktF) : (s.packet a b op f).dirGen = s.dirGen := (congrArg State.dirGen (s.packet_only a b op f)).trans rfl
@[simp] theorem State.packet_events (a b : NetUnit) (op : Nat) (f : PktF) : (s.packet a b op f).events = s.events := (congrArg State.events (s.packet_only a b op f)).trans rfl
@[simp] theorem State.packet_evSeq (a b : NetUnit) (op : Nat) (f : PktF) : (s.packet a b op f).evSeq = s.evSeq := (congrArg State.evSeq (s.packet_only a b op f)).trans rfl
@[simp] theorem State.packet_evLost (a b : NetUnit) (op : Nat) (f : PktF) : (s.packet a b op f).evLost = s.evLost := (congrArg State.evLost (s.packet_only a b op f)).trans rfl
@[simp] theorem State.packet_live (a b : NetUnit) (op : Nat) (f : PktF) : (s.packet a b op f).live = s.live := (congrArg State.live (s.packet_only a b op f)).trans rfl
@[simp] theorem State.packet_holding (a b : NetUnit) (op : Nat) (f : PktF) : (s.packet a b op f).holding = s.holding := (congrArg State.holding (s.packet_only a b op f)).trans rfl
@[simp] theorem State.packet_ignLast (a b : NetUnit) (op : Nat) (f : PktF) : (s.packet a b op f).ignLast = s.ignLast := (congrArg State.ignLast (s.packet_only a b op f)).trans rfl
@[simp] theorem State.packet_credits (a b : NetUnit) (op : Nat) (f : PktF) : (s.packet a b op f).credits = s.credits := (congrArg State.credits (s.packet_only a b op f)).trans rfl
@[simp] theorem State.packet_resends (a b : NetUnit) (op : Nat) (f : PktF) : (s.packet a b op f).resends = s.resends := (congrArg State.resends (s.packet_only a b op f)).trans rfl
@[simp] theorem State.packet_win (a b : NetUnit) (op : Nat) (f : PktF) : (s.packet a b op f).win = s.win := (congrArg State.win (s.packet_only a b op f)).trans rfl
@[simp] theorem State.packet_blk (a b : NetUnit) (op : Nat) (f : PktF) : (s.packet a b op f).blk = s.blk := (congrArg State.blk (s.packet_only a b op f)).trans rfl
@[simp] theorem State.packet_pwr (a b : NetUnit) (op : Nat) (f : PktF) : (s.packet a b op f).pwr = s.pwr := (congrArg State.pwr (s.packet_only a b op f)).trans rfl
@[simp] theorem State.packet_mbx (a b : NetUnit) (op : Nat) (f : PktF) : (s.packet a b op f).mbx = s.mbx := (congrArg State.mbx (s.packet_only a b op f)).trans rfl
@[simp] theorem State.packet_blkLogs (a b : NetUnit) (op : Nat) (f : PktF) : (s.packet a b op f).blkLogs = s.blkLogs := (congrArg State.blkLogs (s.packet_only a b op f)).trans rfl
@[simp] theorem State.packet_scratch (a b : NetUnit) (op : Nat) (f : PktF) : (s.packet a b op f).scratch = s.scratch := (congrArg State.scratch (s.packet_only a b op f)).trans rfl
@[simp] theorem State.packet_groups (a b : NetUnit) (op : Nat) (f : PktF) : (s.packet a b op f).groups = s.groups := (congrArg State.groups (s.packet_only a b op f)).trans rfl
@[simp] theorem State.packet_adminBars (a b : NetUnit) (op : Nat) (f : PktF) : (s.packet a b op f).adminBars = s.adminBars := (congrArg State.adminBars (s.packet_only a b op f)).trans rfl
@[simp] theorem State.packet_lastLoss (a b : NetUnit) (op : Nat) (f : PktF) : (s.packet a b op f).lastLoss = s.lastLoss := (congrArg State.lastLoss (s.packet_only a b op f)).trans rfl
@[simp] theorem State.packet_clk (a b : NetUnit) (op : Nat) (f : PktF) : (s.packet a b op f).clk = s.clk := (congrArg State.clk (s.packet_only a b op f)).trans rfl

/-! ### State.align -/
/-- Where each change of a list changes Rachis alone, so do they all. -/
theorem State.each_only {α : Type} (f : α → State → State) (hf : ∀ a z, f a z = { z with rch := (f a z).rch }) (l : List α) (z : State) :
    State.each f l z = { z with rch := (State.each f l z).rch } := by
  induction l generalizing z with
  | nil => rfl
  | cons a r ih => exact (ih (f a z)).trans (congrArg (fun y : State => { y with rch := (State.each f r (f a z)).rch }) (hf a z))

theorem State.align_only (old : List Int) (d : Nat) : s.align old d = { s with rch := (s.align old d).rch } := State.each_only _ (fun _ z => z.packet_only _ _ _ _) _ s
@[simp] theorem State.align_pending (old : List Int) (d : Nat) : (s.align old d).pending = s.pending := (congrArg State.pending (s.align_only old d)).trans rfl
@[simp] theorem State.align_now (old : List Int) (d : Nat) : (s.align old d).now = s.now := (congrArg State.now (s.align_only old d)).trans rfl
@[simp] theorem State.align_free (old : List Int) (d : Nat) : (s.align old d).free = s.free := (congrArg State.free (s.align_only old d)).trans rfl
@[simp] theorem State.align_out (old : List Int) (d : Nat) : (s.align old d).out = s.out := (congrArg State.out (s.align_only old d)).trans rfl
@[simp] theorem State.align_parts (old : List Int) (d : Nat) : (s.align old d).parts = s.parts := (congrArg State.parts (s.align_only old d)).trans rfl
@[simp] theorem State.align_hosts (old : List Int) (d : Nat) : (s.align old d).hosts = s.hosts := (congrArg State.hosts (s.align_only old d)).trans rfl
@[simp] theorem State.align_intakes (old : List Int) (d : Nat) : (s.align old d).intakes = s.intakes := (congrArg State.intakes (s.align_only old d)).trans rfl
@[simp] theorem State.align_slices (old : List Int) (d : Nat) : (s.align old d).slices = s.slices := (congrArg State.slices (s.align_only old d)).trans rfl
@[simp] theorem State.align_stooks (old : List Int) (d : Nat) : (s.align old d).stooks = s.stooks := (congrArg State.stooks (s.align_only old d)).trans rfl
@[simp] theorem State.align_mports (old : List Int) (d : Nat) : (s.align old d).mports = s.mports := (congrArg State.mports (s.align_only old d)).trans rfl
@[simp] theorem State.align_mer (old : List Int) (d : Nat) : (s.align old d).mer = s.mer := (congrArg State.mer (s.align_only old d)).trans rfl
@[simp] theorem State.align_twin (old : List Int) (d : Nat) : (s.align old d).twin = s.twin := (congrArg State.twin (s.align_only old d)).trans rfl
@[simp] theorem State.align_place (old : List Int) (d : Nat) : (s.align old d).place = s.place := (congrArg State.place (s.align_only old d)).trans rfl
@[simp] theorem State.align_dirGen (old : List Int) (d : Nat) : (s.align old d).dirGen = s.dirGen := (congrArg State.dirGen (s.align_only old d)).trans rfl
@[simp] theorem State.align_events (old : List Int) (d : Nat) : (s.align old d).events = s.events := (congrArg State.events (s.align_only old d)).trans rfl
@[simp] theorem State.align_evSeq (old : List Int) (d : Nat) : (s.align old d).evSeq = s.evSeq := (congrArg State.evSeq (s.align_only old d)).trans rfl
@[simp] theorem State.align_evLost (old : List Int) (d : Nat) : (s.align old d).evLost = s.evLost := (congrArg State.evLost (s.align_only old d)).trans rfl
@[simp] theorem State.align_live (old : List Int) (d : Nat) : (s.align old d).live = s.live := (congrArg State.live (s.align_only old d)).trans rfl
@[simp] theorem State.align_holding (old : List Int) (d : Nat) : (s.align old d).holding = s.holding := (congrArg State.holding (s.align_only old d)).trans rfl
@[simp] theorem State.align_ignLast (old : List Int) (d : Nat) : (s.align old d).ignLast = s.ignLast := (congrArg State.ignLast (s.align_only old d)).trans rfl
@[simp] theorem State.align_credits (old : List Int) (d : Nat) : (s.align old d).credits = s.credits := (congrArg State.credits (s.align_only old d)).trans rfl
@[simp] theorem State.align_resends (old : List Int) (d : Nat) : (s.align old d).resends = s.resends := (congrArg State.resends (s.align_only old d)).trans rfl
@[simp] theorem State.align_win (old : List Int) (d : Nat) : (s.align old d).win = s.win := (congrArg State.win (s.align_only old d)).trans rfl
@[simp] theorem State.align_blk (old : List Int) (d : Nat) : (s.align old d).blk = s.blk := (congrArg State.blk (s.align_only old d)).trans rfl
@[simp] theorem State.align_pwr (old : List Int) (d : Nat) : (s.align old d).pwr = s.pwr := (congrArg State.pwr (s.align_only old d)).trans rfl
@[simp] theorem State.align_mbx (old : List Int) (d : Nat) : (s.align old d).mbx = s.mbx := (congrArg State.mbx (s.align_only old d)).trans rfl
@[simp] theorem State.align_blkLogs (old : List Int) (d : Nat) : (s.align old d).blkLogs = s.blkLogs := (congrArg State.blkLogs (s.align_only old d)).trans rfl
@[simp] theorem State.align_scratch (old : List Int) (d : Nat) : (s.align old d).scratch = s.scratch := (congrArg State.scratch (s.align_only old d)).trans rfl
@[simp] theorem State.align_groups (old : List Int) (d : Nat) : (s.align old d).groups = s.groups := (congrArg State.groups (s.align_only old d)).trans rfl
@[simp] theorem State.align_adminBars (old : List Int) (d : Nat) : (s.align old d).adminBars = s.adminBars := (congrArg State.adminBars (s.align_only old d)).trans rfl
@[simp] theorem State.align_lastLoss (old : List Int) (d : Nat) : (s.align old d).lastLoss = s.lastLoss := (congrArg State.lastLoss (s.align_only old d)).trans rfl
@[simp] theorem State.align_clk (old : List Int) (d : Nat) : (s.align old d).clk = s.clk := (congrArg State.clk (s.align_only old d)).trans rfl

/-! ### State.tick -/
theorem State.tick_mask (t : Ns) : (fun z : State => { z with rch := Rachis.reset, live := [], now := 0, clk := ⟨0, 0, 0, []⟩ }) (s.tick t) = (fun z : State => { z with rch := Rachis.reset, live := [], now := 0, clk := ⟨0, 0, 0, []⟩ }) s := by
  unfold State.tick; dsimp only; split
  · exact congrArg (fun z : State => { z with rch := Rachis.reset, live := [], now := 0, clk := ⟨0, 0, 0, []⟩ }) s.carry_only
  · exact (congrArg (fun z : State => { z with rch := Rachis.reset, live := [], now := 0, clk := ⟨0, 0, 0, []⟩ }) (State.bump_only _ _ _ _ _)).trans ((congrArg (fun z : State => { z with rch := Rachis.reset, live := [], now := 0, clk := ⟨0, 0, 0, []⟩ }) (State.elapse_only _ _)).trans
      ((congrArg (fun z : State => { z with rch := Rachis.reset, live := [], now := 0, clk := ⟨0, 0, 0, []⟩ }) (State.align_only _ _ _)).trans (congrArg (fun z : State => { z with rch := Rachis.reset, live := [], now := 0, clk := ⟨0, 0, 0, []⟩ }) s.carry_only)))
theorem State.tick_only (t : Ns) : s.tick t = { s with rch := (s.tick t).rch, live := (s.tick t).live, now := (s.tick t).now, clk := (s.tick t).clk } := congrArg (fun z : State => { z with rch := (s.tick t).rch, live := (s.tick t).live, now := (s.tick t).now, clk := (s.tick t).clk }) (s.tick_mask t)
@[simp] theorem State.tick_pending (t : Ns) : (s.tick t).pending = s.pending := (congrArg State.pending (s.tick_only t)).trans rfl
@[simp] theorem State.tick_free (t : Ns) : (s.tick t).free = s.free := (congrArg State.free (s.tick_only t)).trans rfl
@[simp] theorem State.tick_out (t : Ns) : (s.tick t).out = s.out := (congrArg State.out (s.tick_only t)).trans rfl
@[simp] theorem State.tick_parts (t : Ns) : (s.tick t).parts = s.parts := (congrArg State.parts (s.tick_only t)).trans rfl
@[simp] theorem State.tick_hosts (t : Ns) : (s.tick t).hosts = s.hosts := (congrArg State.hosts (s.tick_only t)).trans rfl
@[simp] theorem State.tick_intakes (t : Ns) : (s.tick t).intakes = s.intakes := (congrArg State.intakes (s.tick_only t)).trans rfl
@[simp] theorem State.tick_slices (t : Ns) : (s.tick t).slices = s.slices := (congrArg State.slices (s.tick_only t)).trans rfl
@[simp] theorem State.tick_stooks (t : Ns) : (s.tick t).stooks = s.stooks := (congrArg State.stooks (s.tick_only t)).trans rfl
@[simp] theorem State.tick_mports (t : Ns) : (s.tick t).mports = s.mports := (congrArg State.mports (s.tick_only t)).trans rfl
@[simp] theorem State.tick_mer (t : Ns) : (s.tick t).mer = s.mer := (congrArg State.mer (s.tick_only t)).trans rfl
@[simp] theorem State.tick_twin (t : Ns) : (s.tick t).twin = s.twin := (congrArg State.twin (s.tick_only t)).trans rfl
@[simp] theorem State.tick_place (t : Ns) : (s.tick t).place = s.place := (congrArg State.place (s.tick_only t)).trans rfl
@[simp] theorem State.tick_dirGen (t : Ns) : (s.tick t).dirGen = s.dirGen := (congrArg State.dirGen (s.tick_only t)).trans rfl
@[simp] theorem State.tick_events (t : Ns) : (s.tick t).events = s.events := (congrArg State.events (s.tick_only t)).trans rfl
@[simp] theorem State.tick_evSeq (t : Ns) : (s.tick t).evSeq = s.evSeq := (congrArg State.evSeq (s.tick_only t)).trans rfl
@[simp] theorem State.tick_evLost (t : Ns) : (s.tick t).evLost = s.evLost := (congrArg State.evLost (s.tick_only t)).trans rfl
@[simp] theorem State.tick_holding (t : Ns) : (s.tick t).holding = s.holding := (congrArg State.holding (s.tick_only t)).trans rfl
@[simp] theorem State.tick_ignLast (t : Ns) : (s.tick t).ignLast = s.ignLast := (congrArg State.ignLast (s.tick_only t)).trans rfl
@[simp] theorem State.tick_credits (t : Ns) : (s.tick t).credits = s.credits := (congrArg State.credits (s.tick_only t)).trans rfl
@[simp] theorem State.tick_resends (t : Ns) : (s.tick t).resends = s.resends := (congrArg State.resends (s.tick_only t)).trans rfl
@[simp] theorem State.tick_win (t : Ns) : (s.tick t).win = s.win := (congrArg State.win (s.tick_only t)).trans rfl
@[simp] theorem State.tick_blk (t : Ns) : (s.tick t).blk = s.blk := (congrArg State.blk (s.tick_only t)).trans rfl
@[simp] theorem State.tick_pwr (t : Ns) : (s.tick t).pwr = s.pwr := (congrArg State.pwr (s.tick_only t)).trans rfl
@[simp] theorem State.tick_mbx (t : Ns) : (s.tick t).mbx = s.mbx := (congrArg State.mbx (s.tick_only t)).trans rfl
@[simp] theorem State.tick_blkLogs (t : Ns) : (s.tick t).blkLogs = s.blkLogs := (congrArg State.blkLogs (s.tick_only t)).trans rfl
@[simp] theorem State.tick_scratch (t : Ns) : (s.tick t).scratch = s.scratch := (congrArg State.scratch (s.tick_only t)).trans rfl
@[simp] theorem State.tick_groups (t : Ns) : (s.tick t).groups = s.groups := (congrArg State.groups (s.tick_only t)).trans rfl
@[simp] theorem State.tick_adminBars (t : Ns) : (s.tick t).adminBars = s.adminBars := (congrArg State.adminBars (s.tick_only t)).trans rfl
@[simp] theorem State.tick_lastLoss (t : Ns) : (s.tick t).lastLoss = s.lastLoss := (congrArg State.lastLoss (s.tick_only t)).trans rfl
/-- Meridian time never goes back (R280). -/
theorem State.tick_now (t : Ns) : s.now ≤ (s.tick t).now := by
  have hc : s.carry.now = s.now := s.carry_now
  unfold State.tick; dsimp only; split
  · exact Nat.le_of_eq hc.symm
  · show s.now ≤ State.advance _ _ / 65536
    rw [Nat.le_div_iff_mul_le (by decide)]
    unfold State.advance; dsimp only; rw [hc]
    exact Nat.le_trans (Nat.le_add_right _ _) (Nat.le_max_left _ _)

/-! ### State.twinPkt -/
theorem State.twinPkt_only (u : NetUnit) (f : PktF) : s.twinPkt u f = { s with rch := (s.twinPkt u f).rch } := by
  unfold State.twinPkt; dsimp only; split <;> first | rfl | exact (congrArg (fun z : State => z.onRch _) (s.packet_only _ _ _ _)).trans rfl
@[simp] theorem State.twinPkt_pending (u : NetUnit) (f : PktF) : (s.twinPkt u f).pending = s.pending := (congrArg State.pending (s.twinPkt_only u f)).trans rfl
@[simp] theorem State.twinPkt_now (u : NetUnit) (f : PktF) : (s.twinPkt u f).now = s.now := (congrArg State.now (s.twinPkt_only u f)).trans rfl
@[simp] theorem State.twinPkt_free (u : NetUnit) (f : PktF) : (s.twinPkt u f).free = s.free := (congrArg State.free (s.twinPkt_only u f)).trans rfl
@[simp] theorem State.twinPkt_out (u : NetUnit) (f : PktF) : (s.twinPkt u f).out = s.out := (congrArg State.out (s.twinPkt_only u f)).trans rfl
@[simp] theorem State.twinPkt_parts (u : NetUnit) (f : PktF) : (s.twinPkt u f).parts = s.parts := (congrArg State.parts (s.twinPkt_only u f)).trans rfl
@[simp] theorem State.twinPkt_hosts (u : NetUnit) (f : PktF) : (s.twinPkt u f).hosts = s.hosts := (congrArg State.hosts (s.twinPkt_only u f)).trans rfl
@[simp] theorem State.twinPkt_intakes (u : NetUnit) (f : PktF) : (s.twinPkt u f).intakes = s.intakes := (congrArg State.intakes (s.twinPkt_only u f)).trans rfl
@[simp] theorem State.twinPkt_slices (u : NetUnit) (f : PktF) : (s.twinPkt u f).slices = s.slices := (congrArg State.slices (s.twinPkt_only u f)).trans rfl
@[simp] theorem State.twinPkt_stooks (u : NetUnit) (f : PktF) : (s.twinPkt u f).stooks = s.stooks := (congrArg State.stooks (s.twinPkt_only u f)).trans rfl
@[simp] theorem State.twinPkt_mports (u : NetUnit) (f : PktF) : (s.twinPkt u f).mports = s.mports := (congrArg State.mports (s.twinPkt_only u f)).trans rfl
@[simp] theorem State.twinPkt_mer (u : NetUnit) (f : PktF) : (s.twinPkt u f).mer = s.mer := (congrArg State.mer (s.twinPkt_only u f)).trans rfl
@[simp] theorem State.twinPkt_twin (u : NetUnit) (f : PktF) : (s.twinPkt u f).twin = s.twin := (congrArg State.twin (s.twinPkt_only u f)).trans rfl
@[simp] theorem State.twinPkt_place (u : NetUnit) (f : PktF) : (s.twinPkt u f).place = s.place := (congrArg State.place (s.twinPkt_only u f)).trans rfl
@[simp] theorem State.twinPkt_dirGen (u : NetUnit) (f : PktF) : (s.twinPkt u f).dirGen = s.dirGen := (congrArg State.dirGen (s.twinPkt_only u f)).trans rfl
@[simp] theorem State.twinPkt_events (u : NetUnit) (f : PktF) : (s.twinPkt u f).events = s.events := (congrArg State.events (s.twinPkt_only u f)).trans rfl
@[simp] theorem State.twinPkt_evSeq (u : NetUnit) (f : PktF) : (s.twinPkt u f).evSeq = s.evSeq := (congrArg State.evSeq (s.twinPkt_only u f)).trans rfl
@[simp] theorem State.twinPkt_evLost (u : NetUnit) (f : PktF) : (s.twinPkt u f).evLost = s.evLost := (congrArg State.evLost (s.twinPkt_only u f)).trans rfl
@[simp] theorem State.twinPkt_live (u : NetUnit) (f : PktF) : (s.twinPkt u f).live = s.live := (congrArg State.live (s.twinPkt_only u f)).trans rfl
@[simp] theorem State.twinPkt_holding (u : NetUnit) (f : PktF) : (s.twinPkt u f).holding = s.holding := (congrArg State.holding (s.twinPkt_only u f)).trans rfl
@[simp] theorem State.twinPkt_ignLast (u : NetUnit) (f : PktF) : (s.twinPkt u f).ignLast = s.ignLast := (congrArg State.ignLast (s.twinPkt_only u f)).trans rfl
@[simp] theorem State.twinPkt_credits (u : NetUnit) (f : PktF) : (s.twinPkt u f).credits = s.credits := (congrArg State.credits (s.twinPkt_only u f)).trans rfl
@[simp] theorem State.twinPkt_resends (u : NetUnit) (f : PktF) : (s.twinPkt u f).resends = s.resends := (congrArg State.resends (s.twinPkt_only u f)).trans rfl
@[simp] theorem State.twinPkt_win (u : NetUnit) (f : PktF) : (s.twinPkt u f).win = s.win := (congrArg State.win (s.twinPkt_only u f)).trans rfl
@[simp] theorem State.twinPkt_blk (u : NetUnit) (f : PktF) : (s.twinPkt u f).blk = s.blk := (congrArg State.blk (s.twinPkt_only u f)).trans rfl
@[simp] theorem State.twinPkt_pwr (u : NetUnit) (f : PktF) : (s.twinPkt u f).pwr = s.pwr := (congrArg State.pwr (s.twinPkt_only u f)).trans rfl
@[simp] theorem State.twinPkt_mbx (u : NetUnit) (f : PktF) : (s.twinPkt u f).mbx = s.mbx := (congrArg State.mbx (s.twinPkt_only u f)).trans rfl
@[simp] theorem State.twinPkt_blkLogs (u : NetUnit) (f : PktF) : (s.twinPkt u f).blkLogs = s.blkLogs := (congrArg State.blkLogs (s.twinPkt_only u f)).trans rfl
@[simp] theorem State.twinPkt_scratch (u : NetUnit) (f : PktF) : (s.twinPkt u f).scratch = s.scratch := (congrArg State.scratch (s.twinPkt_only u f)).trans rfl
@[simp] theorem State.twinPkt_groups (u : NetUnit) (f : PktF) : (s.twinPkt u f).groups = s.groups := (congrArg State.groups (s.twinPkt_only u f)).trans rfl
@[simp] theorem State.twinPkt_adminBars (u : NetUnit) (f : PktF) : (s.twinPkt u f).adminBars = s.adminBars := (congrArg State.adminBars (s.twinPkt_only u f)).trans rfl
@[simp] theorem State.twinPkt_lastLoss (u : NetUnit) (f : PktF) : (s.twinPkt u f).lastLoss = s.lastLoss := (congrArg State.lastLoss (s.twinPkt_only u f)).trans rfl
@[simp] theorem State.twinPkt_clk (u : NetUnit) (f : PktF) : (s.twinPkt u f).clk = s.clk := (congrArg State.clk (s.twinPkt_only u f)).trans rfl

/-! ### State.order -/
theorem State.order_only (f : PktF) : s.order f = { s with rch := (s.order f).rch } := State.each_only _ (fun _ z => z.packet_only _ _ _ _) _ s
@[simp] theorem State.order_pending (f : PktF) : (s.order f).pending = s.pending := (congrArg State.pending (s.order_only f)).trans rfl
@[simp] theorem State.order_now (f : PktF) : (s.order f).now = s.now := (congrArg State.now (s.order_only f)).trans rfl
@[simp] theorem State.order_free (f : PktF) : (s.order f).free = s.free := (congrArg State.free (s.order_only f)).trans rfl
@[simp] theorem State.order_out (f : PktF) : (s.order f).out = s.out := (congrArg State.out (s.order_only f)).trans rfl
@[simp] theorem State.order_parts (f : PktF) : (s.order f).parts = s.parts := (congrArg State.parts (s.order_only f)).trans rfl
@[simp] theorem State.order_hosts (f : PktF) : (s.order f).hosts = s.hosts := (congrArg State.hosts (s.order_only f)).trans rfl
@[simp] theorem State.order_intakes (f : PktF) : (s.order f).intakes = s.intakes := (congrArg State.intakes (s.order_only f)).trans rfl
@[simp] theorem State.order_slices (f : PktF) : (s.order f).slices = s.slices := (congrArg State.slices (s.order_only f)).trans rfl
@[simp] theorem State.order_stooks (f : PktF) : (s.order f).stooks = s.stooks := (congrArg State.stooks (s.order_only f)).trans rfl
@[simp] theorem State.order_mports (f : PktF) : (s.order f).mports = s.mports := (congrArg State.mports (s.order_only f)).trans rfl
@[simp] theorem State.order_mer (f : PktF) : (s.order f).mer = s.mer := (congrArg State.mer (s.order_only f)).trans rfl
@[simp] theorem State.order_twin (f : PktF) : (s.order f).twin = s.twin := (congrArg State.twin (s.order_only f)).trans rfl
@[simp] theorem State.order_place (f : PktF) : (s.order f).place = s.place := (congrArg State.place (s.order_only f)).trans rfl
@[simp] theorem State.order_dirGen (f : PktF) : (s.order f).dirGen = s.dirGen := (congrArg State.dirGen (s.order_only f)).trans rfl
@[simp] theorem State.order_events (f : PktF) : (s.order f).events = s.events := (congrArg State.events (s.order_only f)).trans rfl
@[simp] theorem State.order_evSeq (f : PktF) : (s.order f).evSeq = s.evSeq := (congrArg State.evSeq (s.order_only f)).trans rfl
@[simp] theorem State.order_evLost (f : PktF) : (s.order f).evLost = s.evLost := (congrArg State.evLost (s.order_only f)).trans rfl
@[simp] theorem State.order_live (f : PktF) : (s.order f).live = s.live := (congrArg State.live (s.order_only f)).trans rfl
@[simp] theorem State.order_holding (f : PktF) : (s.order f).holding = s.holding := (congrArg State.holding (s.order_only f)).trans rfl
@[simp] theorem State.order_ignLast (f : PktF) : (s.order f).ignLast = s.ignLast := (congrArg State.ignLast (s.order_only f)).trans rfl
@[simp] theorem State.order_credits (f : PktF) : (s.order f).credits = s.credits := (congrArg State.credits (s.order_only f)).trans rfl
@[simp] theorem State.order_resends (f : PktF) : (s.order f).resends = s.resends := (congrArg State.resends (s.order_only f)).trans rfl
@[simp] theorem State.order_win (f : PktF) : (s.order f).win = s.win := (congrArg State.win (s.order_only f)).trans rfl
@[simp] theorem State.order_blk (f : PktF) : (s.order f).blk = s.blk := (congrArg State.blk (s.order_only f)).trans rfl
@[simp] theorem State.order_pwr (f : PktF) : (s.order f).pwr = s.pwr := (congrArg State.pwr (s.order_only f)).trans rfl
@[simp] theorem State.order_mbx (f : PktF) : (s.order f).mbx = s.mbx := (congrArg State.mbx (s.order_only f)).trans rfl
@[simp] theorem State.order_blkLogs (f : PktF) : (s.order f).blkLogs = s.blkLogs := (congrArg State.blkLogs (s.order_only f)).trans rfl
@[simp] theorem State.order_scratch (f : PktF) : (s.order f).scratch = s.scratch := (congrArg State.scratch (s.order_only f)).trans rfl
@[simp] theorem State.order_groups (f : PktF) : (s.order f).groups = s.groups := (congrArg State.groups (s.order_only f)).trans rfl
@[simp] theorem State.order_adminBars (f : PktF) : (s.order f).adminBars = s.adminBars := (congrArg State.adminBars (s.order_only f)).trans rfl
@[simp] theorem State.order_lastLoss (f : PktF) : (s.order f).lastLoss = s.lastLoss := (congrArg State.lastLoss (s.order_only f)).trans rfl
@[simp] theorem State.order_clk (f : PktF) : (s.order f).clk = s.clk := (congrArg State.clk (s.order_only f)).trans rfl

/-! ### State.eventPacket -/
theorem State.eventPacket_only (v : Ev) : s.eventPacket v = { s with rch := (s.eventPacket v).rch } := by
  unfold State.eventPacket; split <;> first | rfl | exact s.packet_only _ _ _ _
@[simp] theorem State.eventPacket_pending (v : Ev) : (s.eventPacket v).pending = s.pending := (congrArg State.pending (s.eventPacket_only v)).trans rfl
@[simp] theorem State.eventPacket_now (v : Ev) : (s.eventPacket v).now = s.now := (congrArg State.now (s.eventPacket_only v)).trans rfl
@[simp] theorem State.eventPacket_free (v : Ev) : (s.eventPacket v).free = s.free := (congrArg State.free (s.eventPacket_only v)).trans rfl
@[simp] theorem State.eventPacket_out (v : Ev) : (s.eventPacket v).out = s.out := (congrArg State.out (s.eventPacket_only v)).trans rfl
@[simp] theorem State.eventPacket_parts (v : Ev) : (s.eventPacket v).parts = s.parts := (congrArg State.parts (s.eventPacket_only v)).trans rfl
@[simp] theorem State.eventPacket_hosts (v : Ev) : (s.eventPacket v).hosts = s.hosts := (congrArg State.hosts (s.eventPacket_only v)).trans rfl
@[simp] theorem State.eventPacket_intakes (v : Ev) : (s.eventPacket v).intakes = s.intakes := (congrArg State.intakes (s.eventPacket_only v)).trans rfl
@[simp] theorem State.eventPacket_slices (v : Ev) : (s.eventPacket v).slices = s.slices := (congrArg State.slices (s.eventPacket_only v)).trans rfl
@[simp] theorem State.eventPacket_stooks (v : Ev) : (s.eventPacket v).stooks = s.stooks := (congrArg State.stooks (s.eventPacket_only v)).trans rfl
@[simp] theorem State.eventPacket_mports (v : Ev) : (s.eventPacket v).mports = s.mports := (congrArg State.mports (s.eventPacket_only v)).trans rfl
@[simp] theorem State.eventPacket_mer (v : Ev) : (s.eventPacket v).mer = s.mer := (congrArg State.mer (s.eventPacket_only v)).trans rfl
@[simp] theorem State.eventPacket_twin (v : Ev) : (s.eventPacket v).twin = s.twin := (congrArg State.twin (s.eventPacket_only v)).trans rfl
@[simp] theorem State.eventPacket_place (v : Ev) : (s.eventPacket v).place = s.place := (congrArg State.place (s.eventPacket_only v)).trans rfl
@[simp] theorem State.eventPacket_dirGen (v : Ev) : (s.eventPacket v).dirGen = s.dirGen := (congrArg State.dirGen (s.eventPacket_only v)).trans rfl
@[simp] theorem State.eventPacket_events (v : Ev) : (s.eventPacket v).events = s.events := (congrArg State.events (s.eventPacket_only v)).trans rfl
@[simp] theorem State.eventPacket_evSeq (v : Ev) : (s.eventPacket v).evSeq = s.evSeq := (congrArg State.evSeq (s.eventPacket_only v)).trans rfl
@[simp] theorem State.eventPacket_evLost (v : Ev) : (s.eventPacket v).evLost = s.evLost := (congrArg State.evLost (s.eventPacket_only v)).trans rfl
@[simp] theorem State.eventPacket_live (v : Ev) : (s.eventPacket v).live = s.live := (congrArg State.live (s.eventPacket_only v)).trans rfl
@[simp] theorem State.eventPacket_holding (v : Ev) : (s.eventPacket v).holding = s.holding := (congrArg State.holding (s.eventPacket_only v)).trans rfl
@[simp] theorem State.eventPacket_ignLast (v : Ev) : (s.eventPacket v).ignLast = s.ignLast := (congrArg State.ignLast (s.eventPacket_only v)).trans rfl
@[simp] theorem State.eventPacket_credits (v : Ev) : (s.eventPacket v).credits = s.credits := (congrArg State.credits (s.eventPacket_only v)).trans rfl
@[simp] theorem State.eventPacket_resends (v : Ev) : (s.eventPacket v).resends = s.resends := (congrArg State.resends (s.eventPacket_only v)).trans rfl
@[simp] theorem State.eventPacket_win (v : Ev) : (s.eventPacket v).win = s.win := (congrArg State.win (s.eventPacket_only v)).trans rfl
@[simp] theorem State.eventPacket_blk (v : Ev) : (s.eventPacket v).blk = s.blk := (congrArg State.blk (s.eventPacket_only v)).trans rfl
@[simp] theorem State.eventPacket_pwr (v : Ev) : (s.eventPacket v).pwr = s.pwr := (congrArg State.pwr (s.eventPacket_only v)).trans rfl
@[simp] theorem State.eventPacket_mbx (v : Ev) : (s.eventPacket v).mbx = s.mbx := (congrArg State.mbx (s.eventPacket_only v)).trans rfl
@[simp] theorem State.eventPacket_blkLogs (v : Ev) : (s.eventPacket v).blkLogs = s.blkLogs := (congrArg State.blkLogs (s.eventPacket_only v)).trans rfl
@[simp] theorem State.eventPacket_scratch (v : Ev) : (s.eventPacket v).scratch = s.scratch := (congrArg State.scratch (s.eventPacket_only v)).trans rfl
@[simp] theorem State.eventPacket_groups (v : Ev) : (s.eventPacket v).groups = s.groups := (congrArg State.groups (s.eventPacket_only v)).trans rfl
@[simp] theorem State.eventPacket_adminBars (v : Ev) : (s.eventPacket v).adminBars = s.adminBars := (congrArg State.adminBars (s.eventPacket_only v)).trans rfl
@[simp] theorem State.eventPacket_lastLoss (v : Ev) : (s.eventPacket v).lastLoss = s.lastLoss := (congrArg State.lastLoss (s.eventPacket_only v)).trans rfl
@[simp] theorem State.eventPacket_clk (v : Ev) : (s.eventPacket v).clk = s.clk := (congrArg State.clk (s.eventPacket_only v)).trans rfl

/-! ### State.raiseC -/
theorem State.raiseC_mask (src kind : Nat) (cls : Option Nat) (line part unit extra : Nat) : (fun z : State => { z with rch := Rachis.reset, events := [], evSeq := [], evLost := [] }) (s.raiseC src kind cls line part unit extra) = (fun z : State => { z with rch := Rachis.reset, events := [], evSeq := [], evLost := [] }) s := by
  unfold State.raiseC; dsimp only
  (repeat' split) <;> first | rfl | exact congrArg (fun z : State => { z with rch := Rachis.reset, events := [], evSeq := [], evLost := [] }) (s.eventPacket_only _)
theorem State.raiseC_only (src kind : Nat) (cls : Option Nat) (line part unit extra : Nat) : s.raiseC src kind cls line part unit extra = { s with rch := (s.raiseC src kind cls line part unit extra).rch, events := (s.raiseC src kind cls line part unit extra).events, evSeq := (s.raiseC src kind cls line part unit extra).evSeq, evLost := (s.raiseC src kind cls line part unit extra).evLost } := congrArg (fun z : State => { z with rch := (s.raiseC src kind cls line part unit extra).rch, events := (s.raiseC src kind cls line part unit extra).events, evSeq := (s.raiseC src kind cls line part unit extra).evSeq, evLost := (s.raiseC src kind cls line part unit extra).evLost }) (s.raiseC_mask src kind cls line part unit extra)
@[simp] theorem State.raiseC_pending (src kind : Nat) (cls : Option Nat) (line part unit extra : Nat) : (s.raiseC src kind cls line part unit extra).pending = s.pending := (congrArg State.pending (s.raiseC_only src kind cls line part unit extra)).trans rfl
@[simp] theorem State.raiseC_now (src kind : Nat) (cls : Option Nat) (line part unit extra : Nat) : (s.raiseC src kind cls line part unit extra).now = s.now := (congrArg State.now (s.raiseC_only src kind cls line part unit extra)).trans rfl
@[simp] theorem State.raiseC_free (src kind : Nat) (cls : Option Nat) (line part unit extra : Nat) : (s.raiseC src kind cls line part unit extra).free = s.free := (congrArg State.free (s.raiseC_only src kind cls line part unit extra)).trans rfl
@[simp] theorem State.raiseC_out (src kind : Nat) (cls : Option Nat) (line part unit extra : Nat) : (s.raiseC src kind cls line part unit extra).out = s.out := (congrArg State.out (s.raiseC_only src kind cls line part unit extra)).trans rfl
@[simp] theorem State.raiseC_parts (src kind : Nat) (cls : Option Nat) (line part unit extra : Nat) : (s.raiseC src kind cls line part unit extra).parts = s.parts := (congrArg State.parts (s.raiseC_only src kind cls line part unit extra)).trans rfl
@[simp] theorem State.raiseC_hosts (src kind : Nat) (cls : Option Nat) (line part unit extra : Nat) : (s.raiseC src kind cls line part unit extra).hosts = s.hosts := (congrArg State.hosts (s.raiseC_only src kind cls line part unit extra)).trans rfl
@[simp] theorem State.raiseC_intakes (src kind : Nat) (cls : Option Nat) (line part unit extra : Nat) : (s.raiseC src kind cls line part unit extra).intakes = s.intakes := (congrArg State.intakes (s.raiseC_only src kind cls line part unit extra)).trans rfl
@[simp] theorem State.raiseC_slices (src kind : Nat) (cls : Option Nat) (line part unit extra : Nat) : (s.raiseC src kind cls line part unit extra).slices = s.slices := (congrArg State.slices (s.raiseC_only src kind cls line part unit extra)).trans rfl
@[simp] theorem State.raiseC_stooks (src kind : Nat) (cls : Option Nat) (line part unit extra : Nat) : (s.raiseC src kind cls line part unit extra).stooks = s.stooks := (congrArg State.stooks (s.raiseC_only src kind cls line part unit extra)).trans rfl
@[simp] theorem State.raiseC_mports (src kind : Nat) (cls : Option Nat) (line part unit extra : Nat) : (s.raiseC src kind cls line part unit extra).mports = s.mports := (congrArg State.mports (s.raiseC_only src kind cls line part unit extra)).trans rfl
@[simp] theorem State.raiseC_mer (src kind : Nat) (cls : Option Nat) (line part unit extra : Nat) : (s.raiseC src kind cls line part unit extra).mer = s.mer := (congrArg State.mer (s.raiseC_only src kind cls line part unit extra)).trans rfl
@[simp] theorem State.raiseC_twin (src kind : Nat) (cls : Option Nat) (line part unit extra : Nat) : (s.raiseC src kind cls line part unit extra).twin = s.twin := (congrArg State.twin (s.raiseC_only src kind cls line part unit extra)).trans rfl
@[simp] theorem State.raiseC_place (src kind : Nat) (cls : Option Nat) (line part unit extra : Nat) : (s.raiseC src kind cls line part unit extra).place = s.place := (congrArg State.place (s.raiseC_only src kind cls line part unit extra)).trans rfl
@[simp] theorem State.raiseC_dirGen (src kind : Nat) (cls : Option Nat) (line part unit extra : Nat) : (s.raiseC src kind cls line part unit extra).dirGen = s.dirGen := (congrArg State.dirGen (s.raiseC_only src kind cls line part unit extra)).trans rfl
@[simp] theorem State.raiseC_live (src kind : Nat) (cls : Option Nat) (line part unit extra : Nat) : (s.raiseC src kind cls line part unit extra).live = s.live := (congrArg State.live (s.raiseC_only src kind cls line part unit extra)).trans rfl
@[simp] theorem State.raiseC_holding (src kind : Nat) (cls : Option Nat) (line part unit extra : Nat) : (s.raiseC src kind cls line part unit extra).holding = s.holding := (congrArg State.holding (s.raiseC_only src kind cls line part unit extra)).trans rfl
@[simp] theorem State.raiseC_ignLast (src kind : Nat) (cls : Option Nat) (line part unit extra : Nat) : (s.raiseC src kind cls line part unit extra).ignLast = s.ignLast := (congrArg State.ignLast (s.raiseC_only src kind cls line part unit extra)).trans rfl
@[simp] theorem State.raiseC_credits (src kind : Nat) (cls : Option Nat) (line part unit extra : Nat) : (s.raiseC src kind cls line part unit extra).credits = s.credits := (congrArg State.credits (s.raiseC_only src kind cls line part unit extra)).trans rfl
@[simp] theorem State.raiseC_resends (src kind : Nat) (cls : Option Nat) (line part unit extra : Nat) : (s.raiseC src kind cls line part unit extra).resends = s.resends := (congrArg State.resends (s.raiseC_only src kind cls line part unit extra)).trans rfl
@[simp] theorem State.raiseC_win (src kind : Nat) (cls : Option Nat) (line part unit extra : Nat) : (s.raiseC src kind cls line part unit extra).win = s.win := (congrArg State.win (s.raiseC_only src kind cls line part unit extra)).trans rfl
@[simp] theorem State.raiseC_blk (src kind : Nat) (cls : Option Nat) (line part unit extra : Nat) : (s.raiseC src kind cls line part unit extra).blk = s.blk := (congrArg State.blk (s.raiseC_only src kind cls line part unit extra)).trans rfl
@[simp] theorem State.raiseC_pwr (src kind : Nat) (cls : Option Nat) (line part unit extra : Nat) : (s.raiseC src kind cls line part unit extra).pwr = s.pwr := (congrArg State.pwr (s.raiseC_only src kind cls line part unit extra)).trans rfl
@[simp] theorem State.raiseC_mbx (src kind : Nat) (cls : Option Nat) (line part unit extra : Nat) : (s.raiseC src kind cls line part unit extra).mbx = s.mbx := (congrArg State.mbx (s.raiseC_only src kind cls line part unit extra)).trans rfl
@[simp] theorem State.raiseC_blkLogs (src kind : Nat) (cls : Option Nat) (line part unit extra : Nat) : (s.raiseC src kind cls line part unit extra).blkLogs = s.blkLogs := (congrArg State.blkLogs (s.raiseC_only src kind cls line part unit extra)).trans rfl
@[simp] theorem State.raiseC_scratch (src kind : Nat) (cls : Option Nat) (line part unit extra : Nat) : (s.raiseC src kind cls line part unit extra).scratch = s.scratch := (congrArg State.scratch (s.raiseC_only src kind cls line part unit extra)).trans rfl
@[simp] theorem State.raiseC_groups (src kind : Nat) (cls : Option Nat) (line part unit extra : Nat) : (s.raiseC src kind cls line part unit extra).groups = s.groups := (congrArg State.groups (s.raiseC_only src kind cls line part unit extra)).trans rfl
@[simp] theorem State.raiseC_adminBars (src kind : Nat) (cls : Option Nat) (line part unit extra : Nat) : (s.raiseC src kind cls line part unit extra).adminBars = s.adminBars := (congrArg State.adminBars (s.raiseC_only src kind cls line part unit extra)).trans rfl
@[simp] theorem State.raiseC_lastLoss (src kind : Nat) (cls : Option Nat) (line part unit extra : Nat) : (s.raiseC src kind cls line part unit extra).lastLoss = s.lastLoss := (congrArg State.lastLoss (s.raiseC_only src kind cls line part unit extra)).trans rfl
@[simp] theorem State.raiseC_clk (src kind : Nat) (cls : Option Nat) (line part unit extra : Nat) : (s.raiseC src kind cls line part unit extra).clk = s.clk := (congrArg State.clk (s.raiseC_only src kind cls line part unit extra)).trans rfl

/-! ### State.raise -/
theorem State.raise_only (src kind line part unit : Nat) : s.raise src kind line part unit = { s with rch := (s.raise src kind line part unit).rch, events := (s.raise src kind line part unit).events, evSeq := (s.raise src kind line part unit).evSeq, evLost := (s.raise src kind line part unit).evLost } := s.raiseC_only _ _ _ _ _ _ _
@[simp] theorem State.raise_pending (src kind line part unit : Nat) : (s.raise src kind line part unit).pending = s.pending := (congrArg State.pending (s.raise_only src kind line part unit)).trans rfl
@[simp] theorem State.raise_now (src kind line part unit : Nat) : (s.raise src kind line part unit).now = s.now := (congrArg State.now (s.raise_only src kind line part unit)).trans rfl
@[simp] theorem State.raise_free (src kind line part unit : Nat) : (s.raise src kind line part unit).free = s.free := (congrArg State.free (s.raise_only src kind line part unit)).trans rfl
@[simp] theorem State.raise_out (src kind line part unit : Nat) : (s.raise src kind line part unit).out = s.out := (congrArg State.out (s.raise_only src kind line part unit)).trans rfl
@[simp] theorem State.raise_parts (src kind line part unit : Nat) : (s.raise src kind line part unit).parts = s.parts := (congrArg State.parts (s.raise_only src kind line part unit)).trans rfl
@[simp] theorem State.raise_hosts (src kind line part unit : Nat) : (s.raise src kind line part unit).hosts = s.hosts := (congrArg State.hosts (s.raise_only src kind line part unit)).trans rfl
@[simp] theorem State.raise_intakes (src kind line part unit : Nat) : (s.raise src kind line part unit).intakes = s.intakes := (congrArg State.intakes (s.raise_only src kind line part unit)).trans rfl
@[simp] theorem State.raise_slices (src kind line part unit : Nat) : (s.raise src kind line part unit).slices = s.slices := (congrArg State.slices (s.raise_only src kind line part unit)).trans rfl
@[simp] theorem State.raise_stooks (src kind line part unit : Nat) : (s.raise src kind line part unit).stooks = s.stooks := (congrArg State.stooks (s.raise_only src kind line part unit)).trans rfl
@[simp] theorem State.raise_mports (src kind line part unit : Nat) : (s.raise src kind line part unit).mports = s.mports := (congrArg State.mports (s.raise_only src kind line part unit)).trans rfl
@[simp] theorem State.raise_mer (src kind line part unit : Nat) : (s.raise src kind line part unit).mer = s.mer := (congrArg State.mer (s.raise_only src kind line part unit)).trans rfl
@[simp] theorem State.raise_twin (src kind line part unit : Nat) : (s.raise src kind line part unit).twin = s.twin := (congrArg State.twin (s.raise_only src kind line part unit)).trans rfl
@[simp] theorem State.raise_place (src kind line part unit : Nat) : (s.raise src kind line part unit).place = s.place := (congrArg State.place (s.raise_only src kind line part unit)).trans rfl
@[simp] theorem State.raise_dirGen (src kind line part unit : Nat) : (s.raise src kind line part unit).dirGen = s.dirGen := (congrArg State.dirGen (s.raise_only src kind line part unit)).trans rfl
@[simp] theorem State.raise_live (src kind line part unit : Nat) : (s.raise src kind line part unit).live = s.live := (congrArg State.live (s.raise_only src kind line part unit)).trans rfl
@[simp] theorem State.raise_holding (src kind line part unit : Nat) : (s.raise src kind line part unit).holding = s.holding := (congrArg State.holding (s.raise_only src kind line part unit)).trans rfl
@[simp] theorem State.raise_ignLast (src kind line part unit : Nat) : (s.raise src kind line part unit).ignLast = s.ignLast := (congrArg State.ignLast (s.raise_only src kind line part unit)).trans rfl
@[simp] theorem State.raise_credits (src kind line part unit : Nat) : (s.raise src kind line part unit).credits = s.credits := (congrArg State.credits (s.raise_only src kind line part unit)).trans rfl
@[simp] theorem State.raise_resends (src kind line part unit : Nat) : (s.raise src kind line part unit).resends = s.resends := (congrArg State.resends (s.raise_only src kind line part unit)).trans rfl
@[simp] theorem State.raise_win (src kind line part unit : Nat) : (s.raise src kind line part unit).win = s.win := (congrArg State.win (s.raise_only src kind line part unit)).trans rfl
@[simp] theorem State.raise_blk (src kind line part unit : Nat) : (s.raise src kind line part unit).blk = s.blk := (congrArg State.blk (s.raise_only src kind line part unit)).trans rfl
@[simp] theorem State.raise_pwr (src kind line part unit : Nat) : (s.raise src kind line part unit).pwr = s.pwr := (congrArg State.pwr (s.raise_only src kind line part unit)).trans rfl
@[simp] theorem State.raise_mbx (src kind line part unit : Nat) : (s.raise src kind line part unit).mbx = s.mbx := (congrArg State.mbx (s.raise_only src kind line part unit)).trans rfl
@[simp] theorem State.raise_blkLogs (src kind line part unit : Nat) : (s.raise src kind line part unit).blkLogs = s.blkLogs := (congrArg State.blkLogs (s.raise_only src kind line part unit)).trans rfl
@[simp] theorem State.raise_scratch (src kind line part unit : Nat) : (s.raise src kind line part unit).scratch = s.scratch := (congrArg State.scratch (s.raise_only src kind line part unit)).trans rfl
@[simp] theorem State.raise_groups (src kind line part unit : Nat) : (s.raise src kind line part unit).groups = s.groups := (congrArg State.groups (s.raise_only src kind line part unit)).trans rfl
@[simp] theorem State.raise_adminBars (src kind line part unit : Nat) : (s.raise src kind line part unit).adminBars = s.adminBars := (congrArg State.adminBars (s.raise_only src kind line part unit)).trans rfl
@[simp] theorem State.raise_lastLoss (src kind line part unit : Nat) : (s.raise src kind line part unit).lastLoss = s.lastLoss := (congrArg State.lastLoss (s.raise_only src kind line part unit)).trans rfl
@[simp] theorem State.raise_clk (src kind line part unit : Nat) : (s.raise src kind line part unit).clk = s.clk := (congrArg State.clk (s.raise_only src kind line part unit)).trans rfl

/-! ### State.toTwin -/
theorem State.toTwin_mask (m : TwinMsg) : (fun z : State => { z with out := [], rch := Rachis.reset }) (s.toTwin m) = (fun z : State => { z with out := [], rch := Rachis.reset }) s := by
  unfold State.toTwin; dsimp only; split
  · rfl
  · split
    · exact congrArg (fun z : State => { z with rch := Rachis.reset, out := [] }) (State.each_only _ (fun x z => z.twinPkt_only _ _) _ (s.send _))
    · split <;> first | rfl | exact congrArg (fun z : State => { z with rch := Rachis.reset, out := [] }) ((s.send _).twinPkt_only _ _)
theorem State.toTwin_only (m : TwinMsg) : s.toTwin m = { s with out := (s.toTwin m).out, rch := (s.toTwin m).rch } := congrArg (fun z : State => { z with out := (s.toTwin m).out, rch := (s.toTwin m).rch }) (s.toTwin_mask m)
@[simp] theorem State.toTwin_pending (m : TwinMsg) : (s.toTwin m).pending = s.pending := (congrArg State.pending (s.toTwin_only m)).trans rfl
@[simp] theorem State.toTwin_now (m : TwinMsg) : (s.toTwin m).now = s.now := (congrArg State.now (s.toTwin_only m)).trans rfl
@[simp] theorem State.toTwin_free (m : TwinMsg) : (s.toTwin m).free = s.free := (congrArg State.free (s.toTwin_only m)).trans rfl
@[simp] theorem State.toTwin_parts (m : TwinMsg) : (s.toTwin m).parts = s.parts := (congrArg State.parts (s.toTwin_only m)).trans rfl
@[simp] theorem State.toTwin_hosts (m : TwinMsg) : (s.toTwin m).hosts = s.hosts := (congrArg State.hosts (s.toTwin_only m)).trans rfl
@[simp] theorem State.toTwin_intakes (m : TwinMsg) : (s.toTwin m).intakes = s.intakes := (congrArg State.intakes (s.toTwin_only m)).trans rfl
@[simp] theorem State.toTwin_slices (m : TwinMsg) : (s.toTwin m).slices = s.slices := (congrArg State.slices (s.toTwin_only m)).trans rfl
@[simp] theorem State.toTwin_stooks (m : TwinMsg) : (s.toTwin m).stooks = s.stooks := (congrArg State.stooks (s.toTwin_only m)).trans rfl
@[simp] theorem State.toTwin_mports (m : TwinMsg) : (s.toTwin m).mports = s.mports := (congrArg State.mports (s.toTwin_only m)).trans rfl
@[simp] theorem State.toTwin_mer (m : TwinMsg) : (s.toTwin m).mer = s.mer := (congrArg State.mer (s.toTwin_only m)).trans rfl
@[simp] theorem State.toTwin_twin (m : TwinMsg) : (s.toTwin m).twin = s.twin := (congrArg State.twin (s.toTwin_only m)).trans rfl
@[simp] theorem State.toTwin_place (m : TwinMsg) : (s.toTwin m).place = s.place := (congrArg State.place (s.toTwin_only m)).trans rfl
@[simp] theorem State.toTwin_dirGen (m : TwinMsg) : (s.toTwin m).dirGen = s.dirGen := (congrArg State.dirGen (s.toTwin_only m)).trans rfl
@[simp] theorem State.toTwin_events (m : TwinMsg) : (s.toTwin m).events = s.events := (congrArg State.events (s.toTwin_only m)).trans rfl
@[simp] theorem State.toTwin_evSeq (m : TwinMsg) : (s.toTwin m).evSeq = s.evSeq := (congrArg State.evSeq (s.toTwin_only m)).trans rfl
@[simp] theorem State.toTwin_evLost (m : TwinMsg) : (s.toTwin m).evLost = s.evLost := (congrArg State.evLost (s.toTwin_only m)).trans rfl
@[simp] theorem State.toTwin_live (m : TwinMsg) : (s.toTwin m).live = s.live := (congrArg State.live (s.toTwin_only m)).trans rfl
@[simp] theorem State.toTwin_holding (m : TwinMsg) : (s.toTwin m).holding = s.holding := (congrArg State.holding (s.toTwin_only m)).trans rfl
@[simp] theorem State.toTwin_ignLast (m : TwinMsg) : (s.toTwin m).ignLast = s.ignLast := (congrArg State.ignLast (s.toTwin_only m)).trans rfl
@[simp] theorem State.toTwin_credits (m : TwinMsg) : (s.toTwin m).credits = s.credits := (congrArg State.credits (s.toTwin_only m)).trans rfl
@[simp] theorem State.toTwin_resends (m : TwinMsg) : (s.toTwin m).resends = s.resends := (congrArg State.resends (s.toTwin_only m)).trans rfl
@[simp] theorem State.toTwin_win (m : TwinMsg) : (s.toTwin m).win = s.win := (congrArg State.win (s.toTwin_only m)).trans rfl
@[simp] theorem State.toTwin_blk (m : TwinMsg) : (s.toTwin m).blk = s.blk := (congrArg State.blk (s.toTwin_only m)).trans rfl
@[simp] theorem State.toTwin_pwr (m : TwinMsg) : (s.toTwin m).pwr = s.pwr := (congrArg State.pwr (s.toTwin_only m)).trans rfl
@[simp] theorem State.toTwin_mbx (m : TwinMsg) : (s.toTwin m).mbx = s.mbx := (congrArg State.mbx (s.toTwin_only m)).trans rfl
@[simp] theorem State.toTwin_blkLogs (m : TwinMsg) : (s.toTwin m).blkLogs = s.blkLogs := (congrArg State.blkLogs (s.toTwin_only m)).trans rfl
@[simp] theorem State.toTwin_scratch (m : TwinMsg) : (s.toTwin m).scratch = s.scratch := (congrArg State.scratch (s.toTwin_only m)).trans rfl
@[simp] theorem State.toTwin_groups (m : TwinMsg) : (s.toTwin m).groups = s.groups := (congrArg State.groups (s.toTwin_only m)).trans rfl
@[simp] theorem State.toTwin_adminBars (m : TwinMsg) : (s.toTwin m).adminBars = s.adminBars := (congrArg State.adminBars (s.toTwin_only m)).trans rfl
@[simp] theorem State.toTwin_lastLoss (m : TwinMsg) : (s.toTwin m).lastLoss = s.lastLoss := (congrArg State.lastLoss (s.toTwin_only m)).trans rfl
@[simp] theorem State.toTwin_clk (m : TwinMsg) : (s.toTwin m).clk = s.clk := (congrArg State.clk (s.toTwin_only m)).trans rfl

/-! ### State.ignSlc -/
theorem State.ignSlc_only (n off : Nat) : s.ignSlc n off = { s with live := (s.ignSlc n off).live, ignLast := (s.ignSlc n off).ignLast } := congrArg (fun x : State => { x with ignLast := Tbl.set x.ignLast (0x20001C + 0x4000 * n) off }) (s.bump_only (0x200100 + 0x4000 * n + 8 * 13) 0 16 1)
@[simp] theorem State.ignSlc_pending (n off : Nat) : (s.ignSlc n off).pending = s.pending := (congrArg State.pending (s.ignSlc_only n off)).trans rfl
@[simp] theorem State.ignSlc_now (n off : Nat) : (s.ignSlc n off).now = s.now := (congrArg State.now (s.ignSlc_only n off)).trans rfl
@[simp] theorem State.ignSlc_free (n off : Nat) : (s.ignSlc n off).free = s.free := (congrArg State.free (s.ignSlc_only n off)).trans rfl
@[simp] theorem State.ignSlc_out (n off : Nat) : (s.ignSlc n off).out = s.out := (congrArg State.out (s.ignSlc_only n off)).trans rfl
@[simp] theorem State.ignSlc_parts (n off : Nat) : (s.ignSlc n off).parts = s.parts := (congrArg State.parts (s.ignSlc_only n off)).trans rfl
@[simp] theorem State.ignSlc_hosts (n off : Nat) : (s.ignSlc n off).hosts = s.hosts := (congrArg State.hosts (s.ignSlc_only n off)).trans rfl
@[simp] theorem State.ignSlc_intakes (n off : Nat) : (s.ignSlc n off).intakes = s.intakes := (congrArg State.intakes (s.ignSlc_only n off)).trans rfl
@[simp] theorem State.ignSlc_slices (n off : Nat) : (s.ignSlc n off).slices = s.slices := (congrArg State.slices (s.ignSlc_only n off)).trans rfl
@[simp] theorem State.ignSlc_stooks (n off : Nat) : (s.ignSlc n off).stooks = s.stooks := (congrArg State.stooks (s.ignSlc_only n off)).trans rfl
@[simp] theorem State.ignSlc_mports (n off : Nat) : (s.ignSlc n off).mports = s.mports := (congrArg State.mports (s.ignSlc_only n off)).trans rfl
@[simp] theorem State.ignSlc_mer (n off : Nat) : (s.ignSlc n off).mer = s.mer := (congrArg State.mer (s.ignSlc_only n off)).trans rfl
@[simp] theorem State.ignSlc_twin (n off : Nat) : (s.ignSlc n off).twin = s.twin := (congrArg State.twin (s.ignSlc_only n off)).trans rfl
@[simp] theorem State.ignSlc_place (n off : Nat) : (s.ignSlc n off).place = s.place := (congrArg State.place (s.ignSlc_only n off)).trans rfl
@[simp] theorem State.ignSlc_dirGen (n off : Nat) : (s.ignSlc n off).dirGen = s.dirGen := (congrArg State.dirGen (s.ignSlc_only n off)).trans rfl
@[simp] theorem State.ignSlc_events (n off : Nat) : (s.ignSlc n off).events = s.events := (congrArg State.events (s.ignSlc_only n off)).trans rfl
@[simp] theorem State.ignSlc_evSeq (n off : Nat) : (s.ignSlc n off).evSeq = s.evSeq := (congrArg State.evSeq (s.ignSlc_only n off)).trans rfl
@[simp] theorem State.ignSlc_evLost (n off : Nat) : (s.ignSlc n off).evLost = s.evLost := (congrArg State.evLost (s.ignSlc_only n off)).trans rfl
@[simp] theorem State.ignSlc_holding (n off : Nat) : (s.ignSlc n off).holding = s.holding := (congrArg State.holding (s.ignSlc_only n off)).trans rfl
@[simp] theorem State.ignSlc_credits (n off : Nat) : (s.ignSlc n off).credits = s.credits := (congrArg State.credits (s.ignSlc_only n off)).trans rfl
@[simp] theorem State.ignSlc_resends (n off : Nat) : (s.ignSlc n off).resends = s.resends := (congrArg State.resends (s.ignSlc_only n off)).trans rfl
@[simp] theorem State.ignSlc_win (n off : Nat) : (s.ignSlc n off).win = s.win := (congrArg State.win (s.ignSlc_only n off)).trans rfl
@[simp] theorem State.ignSlc_rch (n off : Nat) : (s.ignSlc n off).rch = s.rch := (congrArg State.rch (s.ignSlc_only n off)).trans rfl
@[simp] theorem State.ignSlc_blk (n off : Nat) : (s.ignSlc n off).blk = s.blk := (congrArg State.blk (s.ignSlc_only n off)).trans rfl
@[simp] theorem State.ignSlc_pwr (n off : Nat) : (s.ignSlc n off).pwr = s.pwr := (congrArg State.pwr (s.ignSlc_only n off)).trans rfl
@[simp] theorem State.ignSlc_mbx (n off : Nat) : (s.ignSlc n off).mbx = s.mbx := (congrArg State.mbx (s.ignSlc_only n off)).trans rfl
@[simp] theorem State.ignSlc_blkLogs (n off : Nat) : (s.ignSlc n off).blkLogs = s.blkLogs := (congrArg State.blkLogs (s.ignSlc_only n off)).trans rfl
@[simp] theorem State.ignSlc_scratch (n off : Nat) : (s.ignSlc n off).scratch = s.scratch := (congrArg State.scratch (s.ignSlc_only n off)).trans rfl
@[simp] theorem State.ignSlc_groups (n off : Nat) : (s.ignSlc n off).groups = s.groups := (congrArg State.groups (s.ignSlc_only n off)).trans rfl
@[simp] theorem State.ignSlc_adminBars (n off : Nat) : (s.ignSlc n off).adminBars = s.adminBars := (congrArg State.adminBars (s.ignSlc_only n off)).trans rfl
@[simp] theorem State.ignSlc_lastLoss (n off : Nat) : (s.ignSlc n off).lastLoss = s.lastLoss := (congrArg State.lastLoss (s.ignSlc_only n off)).trans rfl
@[simp] theorem State.ignSlc_clk (n off : Nat) : (s.ignSlc n off).clk = s.clk := (congrArg State.clk (s.ignSlc_only n off)).trans rfl

/-! ### State.countSlot -/
theorem State.countSlot_only (x : SlotSt) : s.countSlot x = { s with live := (s.countSlot x).live } := by
  cases x <;> rfl
@[simp] theorem State.countSlot_pending (x : SlotSt) : (s.countSlot x).pending = s.pending := (congrArg State.pending (s.countSlot_only x)).trans rfl
@[simp] theorem State.countSlot_now (x : SlotSt) : (s.countSlot x).now = s.now := (congrArg State.now (s.countSlot_only x)).trans rfl
@[simp] theorem State.countSlot_free (x : SlotSt) : (s.countSlot x).free = s.free := (congrArg State.free (s.countSlot_only x)).trans rfl
@[simp] theorem State.countSlot_out (x : SlotSt) : (s.countSlot x).out = s.out := (congrArg State.out (s.countSlot_only x)).trans rfl
@[simp] theorem State.countSlot_parts (x : SlotSt) : (s.countSlot x).parts = s.parts := (congrArg State.parts (s.countSlot_only x)).trans rfl
@[simp] theorem State.countSlot_hosts (x : SlotSt) : (s.countSlot x).hosts = s.hosts := (congrArg State.hosts (s.countSlot_only x)).trans rfl
@[simp] theorem State.countSlot_intakes (x : SlotSt) : (s.countSlot x).intakes = s.intakes := (congrArg State.intakes (s.countSlot_only x)).trans rfl
@[simp] theorem State.countSlot_slices (x : SlotSt) : (s.countSlot x).slices = s.slices := (congrArg State.slices (s.countSlot_only x)).trans rfl
@[simp] theorem State.countSlot_stooks (x : SlotSt) : (s.countSlot x).stooks = s.stooks := (congrArg State.stooks (s.countSlot_only x)).trans rfl
@[simp] theorem State.countSlot_mports (x : SlotSt) : (s.countSlot x).mports = s.mports := (congrArg State.mports (s.countSlot_only x)).trans rfl
@[simp] theorem State.countSlot_mer (x : SlotSt) : (s.countSlot x).mer = s.mer := (congrArg State.mer (s.countSlot_only x)).trans rfl
@[simp] theorem State.countSlot_twin (x : SlotSt) : (s.countSlot x).twin = s.twin := (congrArg State.twin (s.countSlot_only x)).trans rfl
@[simp] theorem State.countSlot_place (x : SlotSt) : (s.countSlot x).place = s.place := (congrArg State.place (s.countSlot_only x)).trans rfl
@[simp] theorem State.countSlot_dirGen (x : SlotSt) : (s.countSlot x).dirGen = s.dirGen := (congrArg State.dirGen (s.countSlot_only x)).trans rfl
@[simp] theorem State.countSlot_events (x : SlotSt) : (s.countSlot x).events = s.events := (congrArg State.events (s.countSlot_only x)).trans rfl
@[simp] theorem State.countSlot_evSeq (x : SlotSt) : (s.countSlot x).evSeq = s.evSeq := (congrArg State.evSeq (s.countSlot_only x)).trans rfl
@[simp] theorem State.countSlot_evLost (x : SlotSt) : (s.countSlot x).evLost = s.evLost := (congrArg State.evLost (s.countSlot_only x)).trans rfl
@[simp] theorem State.countSlot_holding (x : SlotSt) : (s.countSlot x).holding = s.holding := (congrArg State.holding (s.countSlot_only x)).trans rfl
@[simp] theorem State.countSlot_ignLast (x : SlotSt) : (s.countSlot x).ignLast = s.ignLast := (congrArg State.ignLast (s.countSlot_only x)).trans rfl
@[simp] theorem State.countSlot_credits (x : SlotSt) : (s.countSlot x).credits = s.credits := (congrArg State.credits (s.countSlot_only x)).trans rfl
@[simp] theorem State.countSlot_resends (x : SlotSt) : (s.countSlot x).resends = s.resends := (congrArg State.resends (s.countSlot_only x)).trans rfl
@[simp] theorem State.countSlot_win (x : SlotSt) : (s.countSlot x).win = s.win := (congrArg State.win (s.countSlot_only x)).trans rfl
@[simp] theorem State.countSlot_rch (x : SlotSt) : (s.countSlot x).rch = s.rch := (congrArg State.rch (s.countSlot_only x)).trans rfl
@[simp] theorem State.countSlot_blk (x : SlotSt) : (s.countSlot x).blk = s.blk := (congrArg State.blk (s.countSlot_only x)).trans rfl
@[simp] theorem State.countSlot_pwr (x : SlotSt) : (s.countSlot x).pwr = s.pwr := (congrArg State.pwr (s.countSlot_only x)).trans rfl
@[simp] theorem State.countSlot_mbx (x : SlotSt) : (s.countSlot x).mbx = s.mbx := (congrArg State.mbx (s.countSlot_only x)).trans rfl
@[simp] theorem State.countSlot_blkLogs (x : SlotSt) : (s.countSlot x).blkLogs = s.blkLogs := (congrArg State.blkLogs (s.countSlot_only x)).trans rfl
@[simp] theorem State.countSlot_scratch (x : SlotSt) : (s.countSlot x).scratch = s.scratch := (congrArg State.scratch (s.countSlot_only x)).trans rfl
@[simp] theorem State.countSlot_groups (x : SlotSt) : (s.countSlot x).groups = s.groups := (congrArg State.groups (s.countSlot_only x)).trans rfl
@[simp] theorem State.countSlot_adminBars (x : SlotSt) : (s.countSlot x).adminBars = s.adminBars := (congrArg State.adminBars (s.countSlot_only x)).trans rfl
@[simp] theorem State.countSlot_lastLoss (x : SlotSt) : (s.countSlot x).lastLoss = s.lastLoss := (congrArg State.lastLoss (s.countSlot_only x)).trans rfl
@[simp] theorem State.countSlot_clk (x : SlotSt) : (s.countSlot x).clk = s.clk := (congrArg State.clk (s.countSlot_only x)).trans rfl

@[simp] theorem State.part_bump (j : Nat) (off lsb w k : Nat) : (s.bump off lsb w k).part j = s.part j := by simp only [State.part, State.bump_parts]
@[simp] theorem State.hp_bump (j : Nat) (off lsb w k : Nat) : (s.bump off lsb w k).hp j = s.hp j := by simp only [State.hp, State.bump_hosts]
@[simp] theorem State.ip_bump (j : Nat) (off lsb w k : Nat) : (s.bump off lsb w k).ip j = s.ip j := by simp only [State.ip, State.bump_intakes]
@[simp] theorem State.slc_bump (j : Nat) (off lsb w k : Nat) : (s.bump off lsb w k).slc j = s.slc j := by simp only [State.slc, State.bump_slices]
@[simp] theorem State.stk_bump (j : Nat) (off lsb w k : Nat) : (s.bump off lsb w k).stk j = s.stk j := by simp only [State.stk, State.bump_stooks]
@[simp] theorem State.mp_bump (j : Nat) (off lsb w k : Nat) : (s.bump off lsb w k).mp j = s.mp j := by simp only [State.mp, State.bump_mports]
@[simp] theorem State.box_bump (j : Nat) (off lsb w k : Nat) : (s.bump off lsb w k).box j = s.box j := by simp only [State.box, State.bump_mbx]
@[simp] theorem State.slot_bump (j : Nat) (off lsb w k : Nat) : (s.bump off lsb w k).slot j = s.slot j := by simp only [State.slot, State.bump_mer]
@[simp] theorem State.part_bumpMbx (j : Nat) (c lsb w : Nat) : (s.bumpMbx c lsb w).part j = s.part j := by simp only [State.part, State.bumpMbx_parts]
@[simp] theorem State.hp_bumpMbx (j : Nat) (c lsb w : Nat) : (s.bumpMbx c lsb w).hp j = s.hp j := by simp only [State.hp, State.bumpMbx_hosts]
@[simp] theorem State.ip_bumpMbx (j : Nat) (c lsb w : Nat) : (s.bumpMbx c lsb w).ip j = s.ip j := by simp only [State.ip, State.bumpMbx_intakes]
@[simp] theorem State.slc_bumpMbx (j : Nat) (c lsb w : Nat) : (s.bumpMbx c lsb w).slc j = s.slc j := by simp only [State.slc, State.bumpMbx_slices]
@[simp] theorem State.stk_bumpMbx (j : Nat) (c lsb w : Nat) : (s.bumpMbx c lsb w).stk j = s.stk j := by simp only [State.stk, State.bumpMbx_stooks]
@[simp] theorem State.mp_bumpMbx (j : Nat) (c lsb w : Nat) : (s.bumpMbx c lsb w).mp j = s.mp j := by simp only [State.mp, State.bumpMbx_mports]
@[simp] theorem State.box_bumpMbx (j : Nat) (c lsb w : Nat) : (s.bumpMbx c lsb w).box j = s.box j := by simp only [State.box, State.bumpMbx_mbx]
@[simp] theorem State.slot_bumpMbx (j : Nat) (c lsb w : Nat) : (s.bumpMbx c lsb w).slot j = s.slot j := by simp only [State.slot, State.bumpMbx_mer]
@[simp] theorem State.part_bumpPwr (j : Nat) (c lsb w : Nat) : (s.bumpPwr c lsb w).part j = s.part j := by simp only [State.part, State.bumpPwr_parts]
@[simp] theorem State.hp_bumpPwr (j : Nat) (c lsb w : Nat) : (s.bumpPwr c lsb w).hp j = s.hp j := by simp only [State.hp, State.bumpPwr_hosts]
@[simp] theorem State.ip_bumpPwr (j : Nat) (c lsb w : Nat) : (s.bumpPwr c lsb w).ip j = s.ip j := by simp only [State.ip, State.bumpPwr_intakes]
@[simp] theorem State.slc_bumpPwr (j : Nat) (c lsb w : Nat) : (s.bumpPwr c lsb w).slc j = s.slc j := by simp only [State.slc, State.bumpPwr_slices]
@[simp] theorem State.stk_bumpPwr (j : Nat) (c lsb w : Nat) : (s.bumpPwr c lsb w).stk j = s.stk j := by simp only [State.stk, State.bumpPwr_stooks]
@[simp] theorem State.mp_bumpPwr (j : Nat) (c lsb w : Nat) : (s.bumpPwr c lsb w).mp j = s.mp j := by simp only [State.mp, State.bumpPwr_mports]
@[simp] theorem State.box_bumpPwr (j : Nat) (c lsb w : Nat) : (s.bumpPwr c lsb w).box j = s.box j := by simp only [State.box, State.bumpPwr_mbx]
@[simp] theorem State.slot_bumpPwr (j : Nat) (c lsb w : Nat) : (s.bumpPwr c lsb w).slot j = s.slot j := by simp only [State.slot, State.bumpPwr_mer]
@[simp] theorem State.part_bumpPlc (j : Nat) (c lsb w : Nat) : (s.bumpPlc c lsb w).part j = s.part j := by simp only [State.part, State.bumpPlc_parts]
@[simp] theorem State.hp_bumpPlc (j : Nat) (c lsb w : Nat) : (s.bumpPlc c lsb w).hp j = s.hp j := by simp only [State.hp, State.bumpPlc_hosts]
@[simp] theorem State.ip_bumpPlc (j : Nat) (c lsb w : Nat) : (s.bumpPlc c lsb w).ip j = s.ip j := by simp only [State.ip, State.bumpPlc_intakes]
@[simp] theorem State.slc_bumpPlc (j : Nat) (c lsb w : Nat) : (s.bumpPlc c lsb w).slc j = s.slc j := by simp only [State.slc, State.bumpPlc_slices]
@[simp] theorem State.stk_bumpPlc (j : Nat) (c lsb w : Nat) : (s.bumpPlc c lsb w).stk j = s.stk j := by simp only [State.stk, State.bumpPlc_stooks]
@[simp] theorem State.mp_bumpPlc (j : Nat) (c lsb w : Nat) : (s.bumpPlc c lsb w).mp j = s.mp j := by simp only [State.mp, State.bumpPlc_mports]
@[simp] theorem State.box_bumpPlc (j : Nat) (c lsb w : Nat) : (s.bumpPlc c lsb w).box j = s.box j := by simp only [State.box, State.bumpPlc_mbx]
@[simp] theorem State.slot_bumpPlc (j : Nat) (c lsb w : Nat) : (s.bumpPlc c lsb w).slot j = s.slot j := by simp only [State.slot, State.bumpPlc_mer]
@[simp] theorem State.part_bumpTwn (j : Nat) (c lsb w : Nat) : (s.bumpTwn c lsb w).part j = s.part j := by simp only [State.part, State.bumpTwn_parts]
@[simp] theorem State.hp_bumpTwn (j : Nat) (c lsb w : Nat) : (s.bumpTwn c lsb w).hp j = s.hp j := by simp only [State.hp, State.bumpTwn_hosts]
@[simp] theorem State.ip_bumpTwn (j : Nat) (c lsb w : Nat) : (s.bumpTwn c lsb w).ip j = s.ip j := by simp only [State.ip, State.bumpTwn_intakes]
@[simp] theorem State.slc_bumpTwn (j : Nat) (c lsb w : Nat) : (s.bumpTwn c lsb w).slc j = s.slc j := by simp only [State.slc, State.bumpTwn_slices]
@[simp] theorem State.stk_bumpTwn (j : Nat) (c lsb w : Nat) : (s.bumpTwn c lsb w).stk j = s.stk j := by simp only [State.stk, State.bumpTwn_stooks]
@[simp] theorem State.mp_bumpTwn (j : Nat) (c lsb w : Nat) : (s.bumpTwn c lsb w).mp j = s.mp j := by simp only [State.mp, State.bumpTwn_mports]
@[simp] theorem State.box_bumpTwn (j : Nat) (c lsb w : Nat) : (s.bumpTwn c lsb w).box j = s.box j := by simp only [State.box, State.bumpTwn_mbx]
@[simp] theorem State.slot_bumpTwn (j : Nat) (c lsb w : Nat) : (s.bumpTwn c lsb w).slot j = s.slot j := by simp only [State.slot, State.bumpTwn_mer]
@[simp] theorem State.part_bumpWin (j : Nat) (c lsb w : Nat) : (s.bumpWin c lsb w).part j = s.part j := by simp only [State.part, State.bumpWin_parts]
@[simp] theorem State.hp_bumpWin (j : Nat) (c lsb w : Nat) : (s.bumpWin c lsb w).hp j = s.hp j := by simp only [State.hp, State.bumpWin_hosts]
@[simp] theorem State.ip_bumpWin (j : Nat) (c lsb w : Nat) : (s.bumpWin c lsb w).ip j = s.ip j := by simp only [State.ip, State.bumpWin_intakes]
@[simp] theorem State.slc_bumpWin (j : Nat) (c lsb w : Nat) : (s.bumpWin c lsb w).slc j = s.slc j := by simp only [State.slc, State.bumpWin_slices]
@[simp] theorem State.stk_bumpWin (j : Nat) (c lsb w : Nat) : (s.bumpWin c lsb w).stk j = s.stk j := by simp only [State.stk, State.bumpWin_stooks]
@[simp] theorem State.mp_bumpWin (j : Nat) (c lsb w : Nat) : (s.bumpWin c lsb w).mp j = s.mp j := by simp only [State.mp, State.bumpWin_mports]
@[simp] theorem State.box_bumpWin (j : Nat) (c lsb w : Nat) : (s.bumpWin c lsb w).box j = s.box j := by simp only [State.box, State.bumpWin_mbx]
@[simp] theorem State.slot_bumpWin (j : Nat) (c lsb w : Nat) : (s.bumpWin c lsb w).slot j = s.slot j := by simp only [State.slot, State.bumpWin_mer]
@[simp] theorem State.part_bumpMer (j : Nat) (c lsb w : Nat) : (s.bumpMer c lsb w).part j = s.part j := by simp only [State.part, State.bumpMer_parts]
@[simp] theorem State.hp_bumpMer (j : Nat) (c lsb w : Nat) : (s.bumpMer c lsb w).hp j = s.hp j := by simp only [State.hp, State.bumpMer_hosts]
@[simp] theorem State.ip_bumpMer (j : Nat) (c lsb w : Nat) : (s.bumpMer c lsb w).ip j = s.ip j := by simp only [State.ip, State.bumpMer_intakes]
@[simp] theorem State.slc_bumpMer (j : Nat) (c lsb w : Nat) : (s.bumpMer c lsb w).slc j = s.slc j := by simp only [State.slc, State.bumpMer_slices]
@[simp] theorem State.stk_bumpMer (j : Nat) (c lsb w : Nat) : (s.bumpMer c lsb w).stk j = s.stk j := by simp only [State.stk, State.bumpMer_stooks]
@[simp] theorem State.mp_bumpMer (j : Nat) (c lsb w : Nat) : (s.bumpMer c lsb w).mp j = s.mp j := by simp only [State.mp, State.bumpMer_mports]
@[simp] theorem State.box_bumpMer (j : Nat) (c lsb w : Nat) : (s.bumpMer c lsb w).box j = s.box j := by simp only [State.box, State.bumpMer_mbx]
@[simp] theorem State.slot_bumpMer (j : Nat) (c lsb w : Nat) : (s.bumpMer c lsb w).slot j = s.slot j := by simp only [State.slot, State.bumpMer_mer]
@[simp] theorem State.part_bumpPart (j : Nat) (i c lsb w : Nat) : (s.bumpPart i c lsb w).part j = s.part j := by simp only [State.part, State.bumpPart_parts]
@[simp] theorem State.hp_bumpPart (j : Nat) (i c lsb w : Nat) : (s.bumpPart i c lsb w).hp j = s.hp j := by simp only [State.hp, State.bumpPart_hosts]
@[simp] theorem State.ip_bumpPart (j : Nat) (i c lsb w : Nat) : (s.bumpPart i c lsb w).ip j = s.ip j := by simp only [State.ip, State.bumpPart_intakes]
@[simp] theorem State.slc_bumpPart (j : Nat) (i c lsb w : Nat) : (s.bumpPart i c lsb w).slc j = s.slc j := by simp only [State.slc, State.bumpPart_slices]
@[simp] theorem State.stk_bumpPart (j : Nat) (i c lsb w : Nat) : (s.bumpPart i c lsb w).stk j = s.stk j := by simp only [State.stk, State.bumpPart_stooks]
@[simp] theorem State.mp_bumpPart (j : Nat) (i c lsb w : Nat) : (s.bumpPart i c lsb w).mp j = s.mp j := by simp only [State.mp, State.bumpPart_mports]
@[simp] theorem State.box_bumpPart (j : Nat) (i c lsb w : Nat) : (s.bumpPart i c lsb w).box j = s.box j := by simp only [State.box, State.bumpPart_mbx]
@[simp] theorem State.slot_bumpPart (j : Nat) (i c lsb w : Nat) : (s.bumpPart i c lsb w).slot j = s.slot j := by simp only [State.slot, State.bumpPart_mer]
@[simp] theorem State.part_bumpMp (j : Nat) (i c lsb w : Nat) : (s.bumpMp i c lsb w).part j = s.part j := by simp only [State.part, State.bumpMp_parts]
@[simp] theorem State.hp_bumpMp (j : Nat) (i c lsb w : Nat) : (s.bumpMp i c lsb w).hp j = s.hp j := by simp only [State.hp, State.bumpMp_hosts]
@[simp] theorem State.ip_bumpMp (j : Nat) (i c lsb w : Nat) : (s.bumpMp i c lsb w).ip j = s.ip j := by simp only [State.ip, State.bumpMp_intakes]
@[simp] theorem State.slc_bumpMp (j : Nat) (i c lsb w : Nat) : (s.bumpMp i c lsb w).slc j = s.slc j := by simp only [State.slc, State.bumpMp_slices]
@[simp] theorem State.stk_bumpMp (j : Nat) (i c lsb w : Nat) : (s.bumpMp i c lsb w).stk j = s.stk j := by simp only [State.stk, State.bumpMp_stooks]
@[simp] theorem State.mp_bumpMp (j : Nat) (i c lsb w : Nat) : (s.bumpMp i c lsb w).mp j = s.mp j := by simp only [State.mp, State.bumpMp_mports]
@[simp] theorem State.box_bumpMp (j : Nat) (i c lsb w : Nat) : (s.bumpMp i c lsb w).box j = s.box j := by simp only [State.box, State.bumpMp_mbx]
@[simp] theorem State.slot_bumpMp (j : Nat) (i c lsb w : Nat) : (s.bumpMp i c lsb w).slot j = s.slot j := by simp only [State.slot, State.bumpMp_mer]
@[simp] theorem State.part_bumpIp (j : Nat) (i c lsb w : Nat) : (s.bumpIp i c lsb w).part j = s.part j := by simp only [State.part, State.bumpIp_parts]
@[simp] theorem State.hp_bumpIp (j : Nat) (i c lsb w : Nat) : (s.bumpIp i c lsb w).hp j = s.hp j := by simp only [State.hp, State.bumpIp_hosts]
@[simp] theorem State.ip_bumpIp (j : Nat) (i c lsb w : Nat) : (s.bumpIp i c lsb w).ip j = s.ip j := by simp only [State.ip, State.bumpIp_intakes]
@[simp] theorem State.slc_bumpIp (j : Nat) (i c lsb w : Nat) : (s.bumpIp i c lsb w).slc j = s.slc j := by simp only [State.slc, State.bumpIp_slices]
@[simp] theorem State.stk_bumpIp (j : Nat) (i c lsb w : Nat) : (s.bumpIp i c lsb w).stk j = s.stk j := by simp only [State.stk, State.bumpIp_stooks]
@[simp] theorem State.mp_bumpIp (j : Nat) (i c lsb w : Nat) : (s.bumpIp i c lsb w).mp j = s.mp j := by simp only [State.mp, State.bumpIp_mports]
@[simp] theorem State.box_bumpIp (j : Nat) (i c lsb w : Nat) : (s.bumpIp i c lsb w).box j = s.box j := by simp only [State.box, State.bumpIp_mbx]
@[simp] theorem State.slot_bumpIp (j : Nat) (i c lsb w : Nat) : (s.bumpIp i c lsb w).slot j = s.slot j := by simp only [State.slot, State.bumpIp_mer]
@[simp] theorem State.part_bumpStk (j : Nat) (i c lsb w : Nat) : (s.bumpStk i c lsb w).part j = s.part j := by simp only [State.part, State.bumpStk_parts]
@[simp] theorem State.hp_bumpStk (j : Nat) (i c lsb w : Nat) : (s.bumpStk i c lsb w).hp j = s.hp j := by simp only [State.hp, State.bumpStk_hosts]
@[simp] theorem State.ip_bumpStk (j : Nat) (i c lsb w : Nat) : (s.bumpStk i c lsb w).ip j = s.ip j := by simp only [State.ip, State.bumpStk_intakes]
@[simp] theorem State.slc_bumpStk (j : Nat) (i c lsb w : Nat) : (s.bumpStk i c lsb w).slc j = s.slc j := by simp only [State.slc, State.bumpStk_slices]
@[simp] theorem State.stk_bumpStk (j : Nat) (i c lsb w : Nat) : (s.bumpStk i c lsb w).stk j = s.stk j := by simp only [State.stk, State.bumpStk_stooks]
@[simp] theorem State.mp_bumpStk (j : Nat) (i c lsb w : Nat) : (s.bumpStk i c lsb w).mp j = s.mp j := by simp only [State.mp, State.bumpStk_mports]
@[simp] theorem State.box_bumpStk (j : Nat) (i c lsb w : Nat) : (s.bumpStk i c lsb w).box j = s.box j := by simp only [State.box, State.bumpStk_mbx]
@[simp] theorem State.slot_bumpStk (j : Nat) (i c lsb w : Nat) : (s.bumpStk i c lsb w).slot j = s.slot j := by simp only [State.slot, State.bumpStk_mer]
@[simp] theorem State.part_bumpSlc (j : Nat) (i c lsb w : Nat) : (s.bumpSlc i c lsb w).part j = s.part j := by simp only [State.part, State.bumpSlc_parts]
@[simp] theorem State.hp_bumpSlc (j : Nat) (i c lsb w : Nat) : (s.bumpSlc i c lsb w).hp j = s.hp j := by simp only [State.hp, State.bumpSlc_hosts]
@[simp] theorem State.ip_bumpSlc (j : Nat) (i c lsb w : Nat) : (s.bumpSlc i c lsb w).ip j = s.ip j := by simp only [State.ip, State.bumpSlc_intakes]
@[simp] theorem State.slc_bumpSlc (j : Nat) (i c lsb w : Nat) : (s.bumpSlc i c lsb w).slc j = s.slc j := by simp only [State.slc, State.bumpSlc_slices]
@[simp] theorem State.stk_bumpSlc (j : Nat) (i c lsb w : Nat) : (s.bumpSlc i c lsb w).stk j = s.stk j := by simp only [State.stk, State.bumpSlc_stooks]
@[simp] theorem State.mp_bumpSlc (j : Nat) (i c lsb w : Nat) : (s.bumpSlc i c lsb w).mp j = s.mp j := by simp only [State.mp, State.bumpSlc_mports]
@[simp] theorem State.box_bumpSlc (j : Nat) (i c lsb w : Nat) : (s.bumpSlc i c lsb w).box j = s.box j := by simp only [State.box, State.bumpSlc_mbx]
@[simp] theorem State.slot_bumpSlc (j : Nat) (i c lsb w : Nat) : (s.bumpSlc i c lsb w).slot j = s.slot j := by simp only [State.slot, State.bumpSlc_mer]
@[simp] theorem State.part_elapseMer (j : Nat) (t : Nat) : (s.elapseMer t).part j = s.part j := by simp only [State.part, State.elapseMer_parts]
@[simp] theorem State.hp_elapseMer (j : Nat) (t : Nat) : (s.elapseMer t).hp j = s.hp j := by simp only [State.hp, State.elapseMer_hosts]
@[simp] theorem State.ip_elapseMer (j : Nat) (t : Nat) : (s.elapseMer t).ip j = s.ip j := by simp only [State.ip, State.elapseMer_intakes]
@[simp] theorem State.slc_elapseMer (j : Nat) (t : Nat) : (s.elapseMer t).slc j = s.slc j := by simp only [State.slc, State.elapseMer_slices]
@[simp] theorem State.stk_elapseMer (j : Nat) (t : Nat) : (s.elapseMer t).stk j = s.stk j := by simp only [State.stk, State.elapseMer_stooks]
@[simp] theorem State.mp_elapseMer (j : Nat) (t : Nat) : (s.elapseMer t).mp j = s.mp j := by simp only [State.mp, State.elapseMer_mports]
@[simp] theorem State.box_elapseMer (j : Nat) (t : Nat) : (s.elapseMer t).box j = s.box j := by simp only [State.box, State.elapseMer_mbx]
@[simp] theorem State.slot_elapseMer (j : Nat) (t : Nat) : (s.elapseMer t).slot j = s.slot j := by simp only [State.slot, State.elapseMer_mer]
@[simp] theorem State.part_elapseRch (j : Nat) (t : Nat) : (s.elapseRch t).part j = s.part j := by simp only [State.part, State.elapseRch_parts]
@[simp] theorem State.hp_elapseRch (j : Nat) (t : Nat) : (s.elapseRch t).hp j = s.hp j := by simp only [State.hp, State.elapseRch_hosts]
@[simp] theorem State.ip_elapseRch (j : Nat) (t : Nat) : (s.elapseRch t).ip j = s.ip j := by simp only [State.ip, State.elapseRch_intakes]
@[simp] theorem State.slc_elapseRch (j : Nat) (t : Nat) : (s.elapseRch t).slc j = s.slc j := by simp only [State.slc, State.elapseRch_slices]
@[simp] theorem State.stk_elapseRch (j : Nat) (t : Nat) : (s.elapseRch t).stk j = s.stk j := by simp only [State.stk, State.elapseRch_stooks]
@[simp] theorem State.mp_elapseRch (j : Nat) (t : Nat) : (s.elapseRch t).mp j = s.mp j := by simp only [State.mp, State.elapseRch_mports]
@[simp] theorem State.box_elapseRch (j : Nat) (t : Nat) : (s.elapseRch t).box j = s.box j := by simp only [State.box, State.elapseRch_mbx]
@[simp] theorem State.slot_elapseRch (j : Nat) (t : Nat) : (s.elapseRch t).slot j = s.slot j := by simp only [State.slot, State.elapseRch_mer]
@[simp] theorem State.part_elapse (j : Nat) (t : Nat) : (s.elapse t).part j = s.part j := by simp only [State.part, State.elapse_parts]
@[simp] theorem State.hp_elapse (j : Nat) (t : Nat) : (s.elapse t).hp j = s.hp j := by simp only [State.hp, State.elapse_hosts]
@[simp] theorem State.ip_elapse (j : Nat) (t : Nat) : (s.elapse t).ip j = s.ip j := by simp only [State.ip, State.elapse_intakes]
@[simp] theorem State.slc_elapse (j : Nat) (t : Nat) : (s.elapse t).slc j = s.slc j := by simp only [State.slc, State.elapse_slices]
@[simp] theorem State.stk_elapse (j : Nat) (t : Nat) : (s.elapse t).stk j = s.stk j := by simp only [State.stk, State.elapse_stooks]
@[simp] theorem State.mp_elapse (j : Nat) (t : Nat) : (s.elapse t).mp j = s.mp j := by simp only [State.mp, State.elapse_mports]
@[simp] theorem State.box_elapse (j : Nat) (t : Nat) : (s.elapse t).box j = s.box j := by simp only [State.box, State.elapse_mbx]
@[simp] theorem State.slot_elapse (j : Nat) (t : Nat) : (s.elapse t).slot j = s.slot j := by simp only [State.slot, State.elapse_mer]
@[simp] theorem State.part_carry (j : Nat)  : (s.carry ).part j = s.part j := by simp only [State.part, State.carry_parts]
@[simp] theorem State.hp_carry (j : Nat)  : (s.carry ).hp j = s.hp j := by simp only [State.hp, State.carry_hosts]
@[simp] theorem State.ip_carry (j : Nat)  : (s.carry ).ip j = s.ip j := by simp only [State.ip, State.carry_intakes]
@[simp] theorem State.slc_carry (j : Nat)  : (s.carry ).slc j = s.slc j := by simp only [State.slc, State.carry_slices]
@[simp] theorem State.stk_carry (j : Nat)  : (s.carry ).stk j = s.stk j := by simp only [State.stk, State.carry_stooks]
@[simp] theorem State.mp_carry (j : Nat)  : (s.carry ).mp j = s.mp j := by simp only [State.mp, State.carry_mports]
@[simp] theorem State.box_carry (j : Nat)  : (s.carry ).box j = s.box j := by simp only [State.box, State.carry_mbx]
@[simp] theorem State.slot_carry (j : Nat)  : (s.carry ).slot j = s.slot j := by simp only [State.slot, State.carry_mer]
@[simp] theorem State.part_packet (j : Nat) (a b : NetUnit) (op : Nat) (f : PktF) : (s.packet a b op f).part j = s.part j := by simp only [State.part, State.packet_parts]
@[simp] theorem State.hp_packet (j : Nat) (a b : NetUnit) (op : Nat) (f : PktF) : (s.packet a b op f).hp j = s.hp j := by simp only [State.hp, State.packet_hosts]
@[simp] theorem State.ip_packet (j : Nat) (a b : NetUnit) (op : Nat) (f : PktF) : (s.packet a b op f).ip j = s.ip j := by simp only [State.ip, State.packet_intakes]
@[simp] theorem State.slc_packet (j : Nat) (a b : NetUnit) (op : Nat) (f : PktF) : (s.packet a b op f).slc j = s.slc j := by simp only [State.slc, State.packet_slices]
@[simp] theorem State.stk_packet (j : Nat) (a b : NetUnit) (op : Nat) (f : PktF) : (s.packet a b op f).stk j = s.stk j := by simp only [State.stk, State.packet_stooks]
@[simp] theorem State.mp_packet (j : Nat) (a b : NetUnit) (op : Nat) (f : PktF) : (s.packet a b op f).mp j = s.mp j := by simp only [State.mp, State.packet_mports]
@[simp] theorem State.box_packet (j : Nat) (a b : NetUnit) (op : Nat) (f : PktF) : (s.packet a b op f).box j = s.box j := by simp only [State.box, State.packet_mbx]
@[simp] theorem State.slot_packet (j : Nat) (a b : NetUnit) (op : Nat) (f : PktF) : (s.packet a b op f).slot j = s.slot j := by simp only [State.slot, State.packet_mer]
@[simp] theorem State.part_align (j : Nat) (old : List Int) (d : Nat) : (s.align old d).part j = s.part j := by simp only [State.part, State.align_parts]
@[simp] theorem State.hp_align (j : Nat) (old : List Int) (d : Nat) : (s.align old d).hp j = s.hp j := by simp only [State.hp, State.align_hosts]
@[simp] theorem State.ip_align (j : Nat) (old : List Int) (d : Nat) : (s.align old d).ip j = s.ip j := by simp only [State.ip, State.align_intakes]
@[simp] theorem State.slc_align (j : Nat) (old : List Int) (d : Nat) : (s.align old d).slc j = s.slc j := by simp only [State.slc, State.align_slices]
@[simp] theorem State.stk_align (j : Nat) (old : List Int) (d : Nat) : (s.align old d).stk j = s.stk j := by simp only [State.stk, State.align_stooks]
@[simp] theorem State.mp_align (j : Nat) (old : List Int) (d : Nat) : (s.align old d).mp j = s.mp j := by simp only [State.mp, State.align_mports]
@[simp] theorem State.box_align (j : Nat) (old : List Int) (d : Nat) : (s.align old d).box j = s.box j := by simp only [State.box, State.align_mbx]
@[simp] theorem State.slot_align (j : Nat) (old : List Int) (d : Nat) : (s.align old d).slot j = s.slot j := by simp only [State.slot, State.align_mer]
@[simp] theorem State.part_tick (j : Nat) (t : Ns) : (s.tick t).part j = s.part j := by simp only [State.part, State.tick_parts]
@[simp] theorem State.hp_tick (j : Nat) (t : Ns) : (s.tick t).hp j = s.hp j := by simp only [State.hp, State.tick_hosts]
@[simp] theorem State.ip_tick (j : Nat) (t : Ns) : (s.tick t).ip j = s.ip j := by simp only [State.ip, State.tick_intakes]
@[simp] theorem State.slc_tick (j : Nat) (t : Ns) : (s.tick t).slc j = s.slc j := by simp only [State.slc, State.tick_slices]
@[simp] theorem State.stk_tick (j : Nat) (t : Ns) : (s.tick t).stk j = s.stk j := by simp only [State.stk, State.tick_stooks]
@[simp] theorem State.mp_tick (j : Nat) (t : Ns) : (s.tick t).mp j = s.mp j := by simp only [State.mp, State.tick_mports]
@[simp] theorem State.box_tick (j : Nat) (t : Ns) : (s.tick t).box j = s.box j := by simp only [State.box, State.tick_mbx]
@[simp] theorem State.slot_tick (j : Nat) (t : Ns) : (s.tick t).slot j = s.slot j := by simp only [State.slot, State.tick_mer]
@[simp] theorem State.part_twinPkt (j : Nat) (u : NetUnit) (f : PktF) : (s.twinPkt u f).part j = s.part j := by simp only [State.part, State.twinPkt_parts]
@[simp] theorem State.hp_twinPkt (j : Nat) (u : NetUnit) (f : PktF) : (s.twinPkt u f).hp j = s.hp j := by simp only [State.hp, State.twinPkt_hosts]
@[simp] theorem State.ip_twinPkt (j : Nat) (u : NetUnit) (f : PktF) : (s.twinPkt u f).ip j = s.ip j := by simp only [State.ip, State.twinPkt_intakes]
@[simp] theorem State.slc_twinPkt (j : Nat) (u : NetUnit) (f : PktF) : (s.twinPkt u f).slc j = s.slc j := by simp only [State.slc, State.twinPkt_slices]
@[simp] theorem State.stk_twinPkt (j : Nat) (u : NetUnit) (f : PktF) : (s.twinPkt u f).stk j = s.stk j := by simp only [State.stk, State.twinPkt_stooks]
@[simp] theorem State.mp_twinPkt (j : Nat) (u : NetUnit) (f : PktF) : (s.twinPkt u f).mp j = s.mp j := by simp only [State.mp, State.twinPkt_mports]
@[simp] theorem State.box_twinPkt (j : Nat) (u : NetUnit) (f : PktF) : (s.twinPkt u f).box j = s.box j := by simp only [State.box, State.twinPkt_mbx]
@[simp] theorem State.slot_twinPkt (j : Nat) (u : NetUnit) (f : PktF) : (s.twinPkt u f).slot j = s.slot j := by simp only [State.slot, State.twinPkt_mer]
@[simp] theorem State.part_order (j : Nat) (f : PktF) : (s.order f).part j = s.part j := by simp only [State.part, State.order_parts]
@[simp] theorem State.hp_order (j : Nat) (f : PktF) : (s.order f).hp j = s.hp j := by simp only [State.hp, State.order_hosts]
@[simp] theorem State.ip_order (j : Nat) (f : PktF) : (s.order f).ip j = s.ip j := by simp only [State.ip, State.order_intakes]
@[simp] theorem State.slc_order (j : Nat) (f : PktF) : (s.order f).slc j = s.slc j := by simp only [State.slc, State.order_slices]
@[simp] theorem State.stk_order (j : Nat) (f : PktF) : (s.order f).stk j = s.stk j := by simp only [State.stk, State.order_stooks]
@[simp] theorem State.mp_order (j : Nat) (f : PktF) : (s.order f).mp j = s.mp j := by simp only [State.mp, State.order_mports]
@[simp] theorem State.box_order (j : Nat) (f : PktF) : (s.order f).box j = s.box j := by simp only [State.box, State.order_mbx]
@[simp] theorem State.slot_order (j : Nat) (f : PktF) : (s.order f).slot j = s.slot j := by simp only [State.slot, State.order_mer]
@[simp] theorem State.part_eventPacket (j : Nat) (v : Ev) : (s.eventPacket v).part j = s.part j := by simp only [State.part, State.eventPacket_parts]
@[simp] theorem State.hp_eventPacket (j : Nat) (v : Ev) : (s.eventPacket v).hp j = s.hp j := by simp only [State.hp, State.eventPacket_hosts]
@[simp] theorem State.ip_eventPacket (j : Nat) (v : Ev) : (s.eventPacket v).ip j = s.ip j := by simp only [State.ip, State.eventPacket_intakes]
@[simp] theorem State.slc_eventPacket (j : Nat) (v : Ev) : (s.eventPacket v).slc j = s.slc j := by simp only [State.slc, State.eventPacket_slices]
@[simp] theorem State.stk_eventPacket (j : Nat) (v : Ev) : (s.eventPacket v).stk j = s.stk j := by simp only [State.stk, State.eventPacket_stooks]
@[simp] theorem State.mp_eventPacket (j : Nat) (v : Ev) : (s.eventPacket v).mp j = s.mp j := by simp only [State.mp, State.eventPacket_mports]
@[simp] theorem State.box_eventPacket (j : Nat) (v : Ev) : (s.eventPacket v).box j = s.box j := by simp only [State.box, State.eventPacket_mbx]
@[simp] theorem State.slot_eventPacket (j : Nat) (v : Ev) : (s.eventPacket v).slot j = s.slot j := by simp only [State.slot, State.eventPacket_mer]
@[simp] theorem State.part_raiseC (j : Nat) (src kind : Nat) (cls : Option Nat) (line part unit extra : Nat) : (s.raiseC src kind cls line part unit extra).part j = s.part j := by simp only [State.part, State.raiseC_parts]
@[simp] theorem State.hp_raiseC (j : Nat) (src kind : Nat) (cls : Option Nat) (line part unit extra : Nat) : (s.raiseC src kind cls line part unit extra).hp j = s.hp j := by simp only [State.hp, State.raiseC_hosts]
@[simp] theorem State.ip_raiseC (j : Nat) (src kind : Nat) (cls : Option Nat) (line part unit extra : Nat) : (s.raiseC src kind cls line part unit extra).ip j = s.ip j := by simp only [State.ip, State.raiseC_intakes]
@[simp] theorem State.slc_raiseC (j : Nat) (src kind : Nat) (cls : Option Nat) (line part unit extra : Nat) : (s.raiseC src kind cls line part unit extra).slc j = s.slc j := by simp only [State.slc, State.raiseC_slices]
@[simp] theorem State.stk_raiseC (j : Nat) (src kind : Nat) (cls : Option Nat) (line part unit extra : Nat) : (s.raiseC src kind cls line part unit extra).stk j = s.stk j := by simp only [State.stk, State.raiseC_stooks]
@[simp] theorem State.mp_raiseC (j : Nat) (src kind : Nat) (cls : Option Nat) (line part unit extra : Nat) : (s.raiseC src kind cls line part unit extra).mp j = s.mp j := by simp only [State.mp, State.raiseC_mports]
@[simp] theorem State.box_raiseC (j : Nat) (src kind : Nat) (cls : Option Nat) (line part unit extra : Nat) : (s.raiseC src kind cls line part unit extra).box j = s.box j := by simp only [State.box, State.raiseC_mbx]
@[simp] theorem State.slot_raiseC (j : Nat) (src kind : Nat) (cls : Option Nat) (line part unit extra : Nat) : (s.raiseC src kind cls line part unit extra).slot j = s.slot j := by simp only [State.slot, State.raiseC_mer]
@[simp] theorem State.part_raise (j : Nat) (src kind line part unit : Nat) : (s.raise src kind line part unit).part j = s.part j := by simp only [State.part, State.raise_parts]
@[simp] theorem State.hp_raise (j : Nat) (src kind line part unit : Nat) : (s.raise src kind line part unit).hp j = s.hp j := by simp only [State.hp, State.raise_hosts]
@[simp] theorem State.ip_raise (j : Nat) (src kind line part unit : Nat) : (s.raise src kind line part unit).ip j = s.ip j := by simp only [State.ip, State.raise_intakes]
@[simp] theorem State.slc_raise (j : Nat) (src kind line part unit : Nat) : (s.raise src kind line part unit).slc j = s.slc j := by simp only [State.slc, State.raise_slices]
@[simp] theorem State.stk_raise (j : Nat) (src kind line part unit : Nat) : (s.raise src kind line part unit).stk j = s.stk j := by simp only [State.stk, State.raise_stooks]
@[simp] theorem State.mp_raise (j : Nat) (src kind line part unit : Nat) : (s.raise src kind line part unit).mp j = s.mp j := by simp only [State.mp, State.raise_mports]
@[simp] theorem State.box_raise (j : Nat) (src kind line part unit : Nat) : (s.raise src kind line part unit).box j = s.box j := by simp only [State.box, State.raise_mbx]
@[simp] theorem State.slot_raise (j : Nat) (src kind line part unit : Nat) : (s.raise src kind line part unit).slot j = s.slot j := by simp only [State.slot, State.raise_mer]
@[simp] theorem State.part_toTwin (j : Nat) (m : TwinMsg) : (s.toTwin m).part j = s.part j := by simp only [State.part, State.toTwin_parts]
@[simp] theorem State.hp_toTwin (j : Nat) (m : TwinMsg) : (s.toTwin m).hp j = s.hp j := by simp only [State.hp, State.toTwin_hosts]
@[simp] theorem State.ip_toTwin (j : Nat) (m : TwinMsg) : (s.toTwin m).ip j = s.ip j := by simp only [State.ip, State.toTwin_intakes]
@[simp] theorem State.slc_toTwin (j : Nat) (m : TwinMsg) : (s.toTwin m).slc j = s.slc j := by simp only [State.slc, State.toTwin_slices]
@[simp] theorem State.stk_toTwin (j : Nat) (m : TwinMsg) : (s.toTwin m).stk j = s.stk j := by simp only [State.stk, State.toTwin_stooks]
@[simp] theorem State.mp_toTwin (j : Nat) (m : TwinMsg) : (s.toTwin m).mp j = s.mp j := by simp only [State.mp, State.toTwin_mports]
@[simp] theorem State.box_toTwin (j : Nat) (m : TwinMsg) : (s.toTwin m).box j = s.box j := by simp only [State.box, State.toTwin_mbx]
@[simp] theorem State.slot_toTwin (j : Nat) (m : TwinMsg) : (s.toTwin m).slot j = s.slot j := by simp only [State.slot, State.toTwin_mer]
@[simp] theorem State.part_ignSlc (j : Nat) (n off : Nat) : (s.ignSlc n off).part j = s.part j := by simp only [State.part, State.ignSlc_parts]
@[simp] theorem State.hp_ignSlc (j : Nat) (n off : Nat) : (s.ignSlc n off).hp j = s.hp j := by simp only [State.hp, State.ignSlc_hosts]
@[simp] theorem State.ip_ignSlc (j : Nat) (n off : Nat) : (s.ignSlc n off).ip j = s.ip j := by simp only [State.ip, State.ignSlc_intakes]
@[simp] theorem State.slc_ignSlc (j : Nat) (n off : Nat) : (s.ignSlc n off).slc j = s.slc j := by simp only [State.slc, State.ignSlc_slices]
@[simp] theorem State.stk_ignSlc (j : Nat) (n off : Nat) : (s.ignSlc n off).stk j = s.stk j := by simp only [State.stk, State.ignSlc_stooks]
@[simp] theorem State.mp_ignSlc (j : Nat) (n off : Nat) : (s.ignSlc n off).mp j = s.mp j := by simp only [State.mp, State.ignSlc_mports]
@[simp] theorem State.box_ignSlc (j : Nat) (n off : Nat) : (s.ignSlc n off).box j = s.box j := by simp only [State.box, State.ignSlc_mbx]
@[simp] theorem State.slot_ignSlc (j : Nat) (n off : Nat) : (s.ignSlc n off).slot j = s.slot j := by simp only [State.slot, State.ignSlc_mer]
@[simp] theorem State.part_countSlot (j : Nat) (x : SlotSt) : (s.countSlot x).part j = s.part j := by simp only [State.part, State.countSlot_parts]
@[simp] theorem State.hp_countSlot (j : Nat) (x : SlotSt) : (s.countSlot x).hp j = s.hp j := by simp only [State.hp, State.countSlot_hosts]
@[simp] theorem State.ip_countSlot (j : Nat) (x : SlotSt) : (s.countSlot x).ip j = s.ip j := by simp only [State.ip, State.countSlot_intakes]
@[simp] theorem State.slc_countSlot (j : Nat) (x : SlotSt) : (s.countSlot x).slc j = s.slc j := by simp only [State.slc, State.countSlot_slices]
@[simp] theorem State.stk_countSlot (j : Nat) (x : SlotSt) : (s.countSlot x).stk j = s.stk j := by simp only [State.stk, State.countSlot_stooks]
@[simp] theorem State.mp_countSlot (j : Nat) (x : SlotSt) : (s.countSlot x).mp j = s.mp j := by simp only [State.mp, State.countSlot_mports]
@[simp] theorem State.box_countSlot (j : Nat) (x : SlotSt) : (s.countSlot x).box j = s.box j := by simp only [State.box, State.countSlot_mbx]
@[simp] theorem State.slot_countSlot (j : Nat) (x : SlotSt) : (s.countSlot x).slot j = s.slot j := by simp only [State.slot, State.countSlot_mer]
/-! ### Sparse tables -/

theorem Tbl.find_set_same {α : Type} (t : Tbl α) (k : Nat) (v : α) : Tbl.find (Tbl.set t k v) k = some v := by
  induction t with
  | nil => simp [Tbl.set, Tbl.find]
  | cons x r ih =>
    obtain ⟨a, b⟩ := x
    simp only [Tbl.set]
    split
    · simp [Tbl.find]
    · split
      · simp [Tbl.find]
      · simp [Tbl.find, *]

theorem Tbl.find_set_other {α : Type} (t : Tbl α) (k j : Nat) (v : α) (h : j ≠ k) : Tbl.find (Tbl.set t k v) j = Tbl.find t j := by
  induction t with
  | nil => simp [Tbl.set, Tbl.find, h]
  | cons x r ih =>
    obtain ⟨a, b⟩ := x
    simp only [Tbl.set]
    split
    · subst_vars; simp [Tbl.find, h]
    · split
      · simp [Tbl.find, h]
      · simp [Tbl.find, ih]

@[simp] theorem Tbl.get_set_same {α : Type} (d : α) (t : Tbl α) (k : Nat) (v : α) : Tbl.get d (Tbl.set t k v) k = v := by
  simp [Tbl.get, Tbl.find_set_same]

theorem Tbl.get_set_other {α : Type} (d : α) (t : Tbl α) (k j : Nat) (v : α) (h : j ≠ k) : Tbl.get d (Tbl.set t k v) j = Tbl.get d t j := by
  simp [Tbl.get, Tbl.find_set_other _ _ _ _ h]

theorem Tbl.find_del_same {α : Type} (t : Tbl α) (k : Nat) : Tbl.find (Tbl.del t k) k = none := by
  induction t with
  | nil => rfl
  | cons x r ih =>
    obtain ⟨a, b⟩ := x
    simp only [Tbl.del]
    split
    · exact ih
    · simp [Tbl.find, *]

theorem Tbl.find_del_other {α : Type} (t : Tbl α) (k j : Nat) (h : j ≠ k) : Tbl.find (Tbl.del t k) j = Tbl.find t j := by
  induction t with
  | nil => rfl
  | cons x r ih =>
    obtain ⟨a, b⟩ := x
    simp only [Tbl.del]
    split
    · subst_vars; simp [Tbl.find, h, ih]
    · simp [Tbl.find, ih]

/-! ### The units -/

@[simp] theorem State.part_onPart_same (p : Nat) (f : Part → Part) : (s.onPart p f).part p = f (s.part p) := by
  simp [State.part]
theorem State.part_onPart_other (p j : Nat) (f : Part → Part) (h' : j ≠ p) : (s.onPart p f).part j = s.part j := by
  simp [State.part, Tbl.get_set_other _ _ _ _ _ h']
@[simp] theorem State.part_onHp (j : Nat) (h : Nat) (f : HostPort → HostPort) : (s.onHp h f).part j = s.part j := rfl
@[simp] theorem State.part_onIp (j : Nat) (i : Nat) (f : Intake → Intake) : (s.onIp i f).part j = s.part j := rfl
@[simp] theorem State.part_onSlc (j : Nat) (n : Nat) (f : Slice → Slice) : (s.onSlc n f).part j = s.part j := rfl
@[simp] theorem State.part_onFront (j : Nat) (n : Nat) (f : Front → Front) : (s.onFront n f).part j = s.part j := rfl
@[simp] theorem State.part_onBanks (j : Nat) (n : Nat) (f : Banks → Banks) : (s.onBanks n f).part j = s.part j := rfl
@[simp] theorem State.part_onStk (j : Nat) (k : Nat) (f : Stook → Stook) : (s.onStk k f).part j = s.part j := rfl
@[simp] theorem State.part_onMp (j : Nat) (m : Nat) (f : MPort → MPort) : (s.onMp m f).part j = s.part j := rfl
@[simp] theorem State.part_allSlc (j : Nat) (f : Slice → Slice) : (s.allSlc f).part j = s.part j := rfl
@[simp] theorem State.part_allBanks (j : Nat) (f : Banks → Banks) : (s.allBanks f).part j = s.part j := rfl
@[simp] theorem State.part_allIps (j : Nat) (f : Intake → Intake) : (s.allIps f).part j = s.part j := rfl
@[simp] theorem State.part_allStks (j : Nat) (f : Stook → Stook) : (s.allStks f).part j = s.part j := rfl
@[simp] theorem State.part_onSlot (j : Nat) (k : Nat) (f : Slot → Slot) : (s.onSlot k f).part j = s.part j := rfl
@[simp] theorem State.part_onMer (j : Nat) (f : Mer → Mer) : (s.onMer f).part j = s.part j := rfl
@[simp] theorem State.part_onTwin (j : Nat) (f : Twin → Twin) : (s.onTwin f).part j = s.part j := rfl
@[simp] theorem State.part_onPlace (j : Nat) (f : Place → Place) : (s.onPlace f).part j = s.part j := rfl
@[simp] theorem State.part_onWin (j : Nat) (f : Win → Win) : (s.onWin f).part j = s.part j := rfl
@[simp] theorem State.part_onRch (j : Nat) (f : Rachis → Rachis) : (s.onRch f).part j = s.part j := rfl
@[simp] theorem State.part_onBlk (j : Nat) (f : Blk → Blk) : (s.onBlk f).part j = s.part j := rfl
@[simp] theorem State.part_onPwr (j : Nat) (f : Pwr → Pwr) : (s.onPwr f).part j = s.part j := rfl
@[simp] theorem State.part_onBox (j : Nat) (m : Nat) (f : MBox → MBox) : (s.onBox m f).part j = s.part j := rfl
@[simp] theorem State.part_putEnt (j : Nat) (n e : Nat) (x : Entry) : (s.putEnt n e x).part j = s.part j := rfl
@[simp] theorem State.part_dropEnt (j : Nat) (n e : Nat) : (s.dropEnt n e).part j = s.part j := rfl
@[simp] theorem State.part_send (j : Nat) (o : Out) : (s.send o).part j = s.part j := rfl
@[simp] theorem State.part_gauge (j : Nat) (off lsb v : Nat) : (s.gauge off lsb v).part j = s.part j := rfl

@[simp] theorem State.hp_onHp_same (h : Nat) (f : HostPort → HostPort) : (s.onHp h f).hp h = f (s.hp h) := by
  simp [State.hp]
theorem State.hp_onHp_other (h j : Nat) (f : HostPort → HostPort) (h' : j ≠ h) : (s.onHp h f).hp j = s.hp j := by
  simp [State.hp, Tbl.get_set_other _ _ _ _ _ h']
@[simp] theorem State.hp_onPart (j : Nat) (p : Nat) (f : Part → Part) : (s.onPart p f).hp j = s.hp j := rfl
@[simp] theorem State.hp_onIp (j : Nat) (i : Nat) (f : Intake → Intake) : (s.onIp i f).hp j = s.hp j := rfl
@[simp] theorem State.hp_onSlc (j : Nat) (n : Nat) (f : Slice → Slice) : (s.onSlc n f).hp j = s.hp j := rfl
@[simp] theorem State.hp_onFront (j : Nat) (n : Nat) (f : Front → Front) : (s.onFront n f).hp j = s.hp j := rfl
@[simp] theorem State.hp_onBanks (j : Nat) (n : Nat) (f : Banks → Banks) : (s.onBanks n f).hp j = s.hp j := rfl
@[simp] theorem State.hp_onStk (j : Nat) (k : Nat) (f : Stook → Stook) : (s.onStk k f).hp j = s.hp j := rfl
@[simp] theorem State.hp_onMp (j : Nat) (m : Nat) (f : MPort → MPort) : (s.onMp m f).hp j = s.hp j := rfl
@[simp] theorem State.hp_allSlc (j : Nat) (f : Slice → Slice) : (s.allSlc f).hp j = s.hp j := rfl
@[simp] theorem State.hp_allBanks (j : Nat) (f : Banks → Banks) : (s.allBanks f).hp j = s.hp j := rfl
@[simp] theorem State.hp_allIps (j : Nat) (f : Intake → Intake) : (s.allIps f).hp j = s.hp j := rfl
@[simp] theorem State.hp_allStks (j : Nat) (f : Stook → Stook) : (s.allStks f).hp j = s.hp j := rfl
@[simp] theorem State.hp_onSlot (j : Nat) (k : Nat) (f : Slot → Slot) : (s.onSlot k f).hp j = s.hp j := rfl
@[simp] theorem State.hp_onMer (j : Nat) (f : Mer → Mer) : (s.onMer f).hp j = s.hp j := rfl
@[simp] theorem State.hp_onTwin (j : Nat) (f : Twin → Twin) : (s.onTwin f).hp j = s.hp j := rfl
@[simp] theorem State.hp_onPlace (j : Nat) (f : Place → Place) : (s.onPlace f).hp j = s.hp j := rfl
@[simp] theorem State.hp_onWin (j : Nat) (f : Win → Win) : (s.onWin f).hp j = s.hp j := rfl
@[simp] theorem State.hp_onRch (j : Nat) (f : Rachis → Rachis) : (s.onRch f).hp j = s.hp j := rfl
@[simp] theorem State.hp_onBlk (j : Nat) (f : Blk → Blk) : (s.onBlk f).hp j = s.hp j := rfl
@[simp] theorem State.hp_onPwr (j : Nat) (f : Pwr → Pwr) : (s.onPwr f).hp j = s.hp j := rfl
@[simp] theorem State.hp_onBox (j : Nat) (m : Nat) (f : MBox → MBox) : (s.onBox m f).hp j = s.hp j := rfl
@[simp] theorem State.hp_putEnt (j : Nat) (n e : Nat) (x : Entry) : (s.putEnt n e x).hp j = s.hp j := rfl
@[simp] theorem State.hp_dropEnt (j : Nat) (n e : Nat) : (s.dropEnt n e).hp j = s.hp j := rfl
@[simp] theorem State.hp_send (j : Nat) (o : Out) : (s.send o).hp j = s.hp j := rfl
@[simp] theorem State.hp_gauge (j : Nat) (off lsb v : Nat) : (s.gauge off lsb v).hp j = s.hp j := rfl

@[simp] theorem State.ip_onIp_same (i : Nat) (f : Intake → Intake) : (s.onIp i f).ip i = f (s.ip i) := by
  simp [State.ip]
theorem State.ip_onIp_other (i j : Nat) (f : Intake → Intake) (h' : j ≠ i) : (s.onIp i f).ip j = s.ip j := by
  simp [State.ip, Tbl.get_set_other _ _ _ _ _ h']
@[simp] theorem State.ip_onPart (j : Nat) (p : Nat) (f : Part → Part) : (s.onPart p f).ip j = s.ip j := rfl
@[simp] theorem State.ip_onHp (j : Nat) (h : Nat) (f : HostPort → HostPort) : (s.onHp h f).ip j = s.ip j := rfl
@[simp] theorem State.ip_onSlc (j : Nat) (n : Nat) (f : Slice → Slice) : (s.onSlc n f).ip j = s.ip j := rfl
@[simp] theorem State.ip_onFront (j : Nat) (n : Nat) (f : Front → Front) : (s.onFront n f).ip j = s.ip j := rfl
@[simp] theorem State.ip_onBanks (j : Nat) (n : Nat) (f : Banks → Banks) : (s.onBanks n f).ip j = s.ip j := rfl
@[simp] theorem State.ip_onStk (j : Nat) (k : Nat) (f : Stook → Stook) : (s.onStk k f).ip j = s.ip j := rfl
@[simp] theorem State.ip_onMp (j : Nat) (m : Nat) (f : MPort → MPort) : (s.onMp m f).ip j = s.ip j := rfl
@[simp] theorem State.ip_allSlc (j : Nat) (f : Slice → Slice) : (s.allSlc f).ip j = s.ip j := rfl
@[simp] theorem State.ip_allBanks (j : Nat) (f : Banks → Banks) : (s.allBanks f).ip j = s.ip j := rfl
@[simp] theorem State.ip_allStks (j : Nat) (f : Stook → Stook) : (s.allStks f).ip j = s.ip j := rfl
@[simp] theorem State.ip_onSlot (j : Nat) (k : Nat) (f : Slot → Slot) : (s.onSlot k f).ip j = s.ip j := rfl
@[simp] theorem State.ip_onMer (j : Nat) (f : Mer → Mer) : (s.onMer f).ip j = s.ip j := rfl
@[simp] theorem State.ip_onTwin (j : Nat) (f : Twin → Twin) : (s.onTwin f).ip j = s.ip j := rfl
@[simp] theorem State.ip_onPlace (j : Nat) (f : Place → Place) : (s.onPlace f).ip j = s.ip j := rfl
@[simp] theorem State.ip_onWin (j : Nat) (f : Win → Win) : (s.onWin f).ip j = s.ip j := rfl
@[simp] theorem State.ip_onRch (j : Nat) (f : Rachis → Rachis) : (s.onRch f).ip j = s.ip j := rfl
@[simp] theorem State.ip_onBlk (j : Nat) (f : Blk → Blk) : (s.onBlk f).ip j = s.ip j := rfl
@[simp] theorem State.ip_onPwr (j : Nat) (f : Pwr → Pwr) : (s.onPwr f).ip j = s.ip j := rfl
@[simp] theorem State.ip_onBox (j : Nat) (m : Nat) (f : MBox → MBox) : (s.onBox m f).ip j = s.ip j := rfl
@[simp] theorem State.ip_putEnt (j : Nat) (n e : Nat) (x : Entry) : (s.putEnt n e x).ip j = s.ip j := rfl
@[simp] theorem State.ip_dropEnt (j : Nat) (n e : Nat) : (s.dropEnt n e).ip j = s.ip j := rfl
@[simp] theorem State.ip_send (j : Nat) (o : Out) : (s.send o).ip j = s.ip j := rfl
@[simp] theorem State.ip_gauge (j : Nat) (off lsb v : Nat) : (s.gauge off lsb v).ip j = s.ip j := rfl

@[simp] theorem State.slc_onSlc_same (n : Nat) (f : Slice → Slice) : (s.onSlc n f).slc n = f (s.slc n) := by
  simp [State.slc]
theorem State.slc_onSlc_other (n j : Nat) (f : Slice → Slice) (h' : j ≠ n) : (s.onSlc n f).slc j = s.slc j := by
  simp [State.slc, Tbl.get_set_other _ _ _ _ _ h']
@[simp] theorem State.slc_onPart (j : Nat) (p : Nat) (f : Part → Part) : (s.onPart p f).slc j = s.slc j := rfl
@[simp] theorem State.slc_onHp (j : Nat) (h : Nat) (f : HostPort → HostPort) : (s.onHp h f).slc j = s.slc j := rfl
@[simp] theorem State.slc_onIp (j : Nat) (i : Nat) (f : Intake → Intake) : (s.onIp i f).slc j = s.slc j := rfl
@[simp] theorem State.slc_onStk (j : Nat) (k : Nat) (f : Stook → Stook) : (s.onStk k f).slc j = s.slc j := rfl
@[simp] theorem State.slc_onMp (j : Nat) (m : Nat) (f : MPort → MPort) : (s.onMp m f).slc j = s.slc j := rfl
@[simp] theorem State.slc_allIps (j : Nat) (f : Intake → Intake) : (s.allIps f).slc j = s.slc j := rfl
@[simp] theorem State.slc_allStks (j : Nat) (f : Stook → Stook) : (s.allStks f).slc j = s.slc j := rfl
@[simp] theorem State.slc_onSlot (j : Nat) (k : Nat) (f : Slot → Slot) : (s.onSlot k f).slc j = s.slc j := rfl
@[simp] theorem State.slc_onMer (j : Nat) (f : Mer → Mer) : (s.onMer f).slc j = s.slc j := rfl
@[simp] theorem State.slc_onTwin (j : Nat) (f : Twin → Twin) : (s.onTwin f).slc j = s.slc j := rfl
@[simp] theorem State.slc_onPlace (j : Nat) (f : Place → Place) : (s.onPlace f).slc j = s.slc j := rfl
@[simp] theorem State.slc_onWin (j : Nat) (f : Win → Win) : (s.onWin f).slc j = s.slc j := rfl
@[simp] theorem State.slc_onRch (j : Nat) (f : Rachis → Rachis) : (s.onRch f).slc j = s.slc j := rfl
@[simp] theorem State.slc_onBlk (j : Nat) (f : Blk → Blk) : (s.onBlk f).slc j = s.slc j := rfl
@[simp] theorem State.slc_onPwr (j : Nat) (f : Pwr → Pwr) : (s.onPwr f).slc j = s.slc j := rfl
@[simp] theorem State.slc_onBox (j : Nat) (m : Nat) (f : MBox → MBox) : (s.onBox m f).slc j = s.slc j := rfl
@[simp] theorem State.slc_send (j : Nat) (o : Out) : (s.send o).slc j = s.slc j := rfl
@[simp] theorem State.slc_gauge (j : Nat) (off lsb v : Nat) : (s.gauge off lsb v).slc j = s.slc j := rfl

@[simp] theorem State.stk_onStk_same (k : Nat) (f : Stook → Stook) : (s.onStk k f).stk k = f (s.stk k) := by
  simp [State.stk]
theorem State.stk_onStk_other (k j : Nat) (f : Stook → Stook) (h' : j ≠ k) : (s.onStk k f).stk j = s.stk j := by
  simp [State.stk, Tbl.get_set_other _ _ _ _ _ h']
@[simp] theorem State.stk_onPart (j : Nat) (p : Nat) (f : Part → Part) : (s.onPart p f).stk j = s.stk j := rfl
@[simp] theorem State.stk_onHp (j : Nat) (h : Nat) (f : HostPort → HostPort) : (s.onHp h f).stk j = s.stk j := rfl
@[simp] theorem State.stk_onIp (j : Nat) (i : Nat) (f : Intake → Intake) : (s.onIp i f).stk j = s.stk j := rfl
@[simp] theorem State.stk_onSlc (j : Nat) (n : Nat) (f : Slice → Slice) : (s.onSlc n f).stk j = s.stk j := rfl
@[simp] theorem State.stk_onFront (j : Nat) (n : Nat) (f : Front → Front) : (s.onFront n f).stk j = s.stk j := rfl
@[simp] theorem State.stk_onBanks (j : Nat) (n : Nat) (f : Banks → Banks) : (s.onBanks n f).stk j = s.stk j := rfl
@[simp] theorem State.stk_onMp (j : Nat) (m : Nat) (f : MPort → MPort) : (s.onMp m f).stk j = s.stk j := rfl
@[simp] theorem State.stk_allSlc (j : Nat) (f : Slice → Slice) : (s.allSlc f).stk j = s.stk j := rfl
@[simp] theorem State.stk_allBanks (j : Nat) (f : Banks → Banks) : (s.allBanks f).stk j = s.stk j := rfl
@[simp] theorem State.stk_allIps (j : Nat) (f : Intake → Intake) : (s.allIps f).stk j = s.stk j := rfl
@[simp] theorem State.stk_onSlot (j : Nat) (k : Nat) (f : Slot → Slot) : (s.onSlot k f).stk j = s.stk j := rfl
@[simp] theorem State.stk_onMer (j : Nat) (f : Mer → Mer) : (s.onMer f).stk j = s.stk j := rfl
@[simp] theorem State.stk_onTwin (j : Nat) (f : Twin → Twin) : (s.onTwin f).stk j = s.stk j := rfl
@[simp] theorem State.stk_onPlace (j : Nat) (f : Place → Place) : (s.onPlace f).stk j = s.stk j := rfl
@[simp] theorem State.stk_onWin (j : Nat) (f : Win → Win) : (s.onWin f).stk j = s.stk j := rfl
@[simp] theorem State.stk_onRch (j : Nat) (f : Rachis → Rachis) : (s.onRch f).stk j = s.stk j := rfl
@[simp] theorem State.stk_onBlk (j : Nat) (f : Blk → Blk) : (s.onBlk f).stk j = s.stk j := rfl
@[simp] theorem State.stk_onPwr (j : Nat) (f : Pwr → Pwr) : (s.onPwr f).stk j = s.stk j := rfl
@[simp] theorem State.stk_onBox (j : Nat) (m : Nat) (f : MBox → MBox) : (s.onBox m f).stk j = s.stk j := rfl
@[simp] theorem State.stk_putEnt (j : Nat) (n e : Nat) (x : Entry) : (s.putEnt n e x).stk j = s.stk j := rfl
@[simp] theorem State.stk_dropEnt (j : Nat) (n e : Nat) : (s.dropEnt n e).stk j = s.stk j := rfl
@[simp] theorem State.stk_send (j : Nat) (o : Out) : (s.send o).stk j = s.stk j := rfl
@[simp] theorem State.stk_gauge (j : Nat) (off lsb v : Nat) : (s.gauge off lsb v).stk j = s.stk j := rfl

@[simp] theorem State.mp_onMp_same (m : Nat) (f : MPort → MPort) : (s.onMp m f).mp m = f (s.mp m) := by
  simp [State.mp]
theorem State.mp_onMp_other (m j : Nat) (f : MPort → MPort) (h' : j ≠ m) : (s.onMp m f).mp j = s.mp j := by
  simp [State.mp, Tbl.get_set_other _ _ _ _ _ h']
@[simp] theorem State.mp_onPart (j : Nat) (p : Nat) (f : Part → Part) : (s.onPart p f).mp j = s.mp j := rfl
@[simp] theorem State.mp_onHp (j : Nat) (h : Nat) (f : HostPort → HostPort) : (s.onHp h f).mp j = s.mp j := rfl
@[simp] theorem State.mp_onIp (j : Nat) (i : Nat) (f : Intake → Intake) : (s.onIp i f).mp j = s.mp j := rfl
@[simp] theorem State.mp_onSlc (j : Nat) (n : Nat) (f : Slice → Slice) : (s.onSlc n f).mp j = s.mp j := rfl
@[simp] theorem State.mp_onFront (j : Nat) (n : Nat) (f : Front → Front) : (s.onFront n f).mp j = s.mp j := rfl
@[simp] theorem State.mp_onBanks (j : Nat) (n : Nat) (f : Banks → Banks) : (s.onBanks n f).mp j = s.mp j := rfl
@[simp] theorem State.mp_onStk (j : Nat) (k : Nat) (f : Stook → Stook) : (s.onStk k f).mp j = s.mp j := rfl
@[simp] theorem State.mp_allSlc (j : Nat) (f : Slice → Slice) : (s.allSlc f).mp j = s.mp j := rfl
@[simp] theorem State.mp_allBanks (j : Nat) (f : Banks → Banks) : (s.allBanks f).mp j = s.mp j := rfl
@[simp] theorem State.mp_allIps (j : Nat) (f : Intake → Intake) : (s.allIps f).mp j = s.mp j := rfl
@[simp] theorem State.mp_allStks (j : Nat) (f : Stook → Stook) : (s.allStks f).mp j = s.mp j := rfl
@[simp] theorem State.mp_onSlot (j : Nat) (k : Nat) (f : Slot → Slot) : (s.onSlot k f).mp j = s.mp j := rfl
@[simp] theorem State.mp_onMer (j : Nat) (f : Mer → Mer) : (s.onMer f).mp j = s.mp j := rfl
@[simp] theorem State.mp_onTwin (j : Nat) (f : Twin → Twin) : (s.onTwin f).mp j = s.mp j := rfl
@[simp] theorem State.mp_onPlace (j : Nat) (f : Place → Place) : (s.onPlace f).mp j = s.mp j := rfl
@[simp] theorem State.mp_onWin (j : Nat) (f : Win → Win) : (s.onWin f).mp j = s.mp j := rfl
@[simp] theorem State.mp_onRch (j : Nat) (f : Rachis → Rachis) : (s.onRch f).mp j = s.mp j := rfl
@[simp] theorem State.mp_onBlk (j : Nat) (f : Blk → Blk) : (s.onBlk f).mp j = s.mp j := rfl
@[simp] theorem State.mp_onPwr (j : Nat) (f : Pwr → Pwr) : (s.onPwr f).mp j = s.mp j := rfl
@[simp] theorem State.mp_onBox (j : Nat) (m : Nat) (f : MBox → MBox) : (s.onBox m f).mp j = s.mp j := rfl
@[simp] theorem State.mp_putEnt (j : Nat) (n e : Nat) (x : Entry) : (s.putEnt n e x).mp j = s.mp j := rfl
@[simp] theorem State.mp_send (j : Nat) (o : Out) : (s.send o).mp j = s.mp j := rfl
@[simp] theorem State.mp_gauge (j : Nat) (off lsb v : Nat) : (s.gauge off lsb v).mp j = s.mp j := rfl

@[simp] theorem State.box_onBox_same (m : Nat) (f : MBox → MBox) : (s.onBox m f).box m = f (s.box m) := by
  simp [State.box]
theorem State.box_onBox_other (m j : Nat) (f : MBox → MBox) (h' : j ≠ m) : (s.onBox m f).box j = s.box j := by
  simp [State.box, Tbl.get_set_other _ _ _ _ _ h']
@[simp] theorem State.box_onPart (j : Nat) (p : Nat) (f : Part → Part) : (s.onPart p f).box j = s.box j := rfl
@[simp] theorem State.box_onHp (j : Nat) (h : Nat) (f : HostPort → HostPort) : (s.onHp h f).box j = s.box j := rfl
@[simp] theorem State.box_onIp (j : Nat) (i : Nat) (f : Intake → Intake) : (s.onIp i f).box j = s.box j := rfl
@[simp] theorem State.box_onSlc (j : Nat) (n : Nat) (f : Slice → Slice) : (s.onSlc n f).box j = s.box j := rfl
@[simp] theorem State.box_onFront (j : Nat) (n : Nat) (f : Front → Front) : (s.onFront n f).box j = s.box j := rfl
@[simp] theorem State.box_onBanks (j : Nat) (n : Nat) (f : Banks → Banks) : (s.onBanks n f).box j = s.box j := rfl
@[simp] theorem State.box_onStk (j : Nat) (k : Nat) (f : Stook → Stook) : (s.onStk k f).box j = s.box j := rfl
@[simp] theorem State.box_onMp (j : Nat) (m : Nat) (f : MPort → MPort) : (s.onMp m f).box j = s.box j := rfl
@[simp] theorem State.box_allSlc (j : Nat) (f : Slice → Slice) : (s.allSlc f).box j = s.box j := rfl
@[simp] theorem State.box_allBanks (j : Nat) (f : Banks → Banks) : (s.allBanks f).box j = s.box j := rfl
@[simp] theorem State.box_allIps (j : Nat) (f : Intake → Intake) : (s.allIps f).box j = s.box j := rfl
@[simp] theorem State.box_allStks (j : Nat) (f : Stook → Stook) : (s.allStks f).box j = s.box j := rfl
@[simp] theorem State.box_onSlot (j : Nat) (k : Nat) (f : Slot → Slot) : (s.onSlot k f).box j = s.box j := rfl
@[simp] theorem State.box_onMer (j : Nat) (f : Mer → Mer) : (s.onMer f).box j = s.box j := rfl
@[simp] theorem State.box_onTwin (j : Nat) (f : Twin → Twin) : (s.onTwin f).box j = s.box j := rfl
@[simp] theorem State.box_onPlace (j : Nat) (f : Place → Place) : (s.onPlace f).box j = s.box j := rfl
@[simp] theorem State.box_onWin (j : Nat) (f : Win → Win) : (s.onWin f).box j = s.box j := rfl
@[simp] theorem State.box_onRch (j : Nat) (f : Rachis → Rachis) : (s.onRch f).box j = s.box j := rfl
@[simp] theorem State.box_onBlk (j : Nat) (f : Blk → Blk) : (s.onBlk f).box j = s.box j := rfl
@[simp] theorem State.box_onPwr (j : Nat) (f : Pwr → Pwr) : (s.onPwr f).box j = s.box j := rfl
@[simp] theorem State.box_putEnt (j : Nat) (n e : Nat) (x : Entry) : (s.putEnt n e x).box j = s.box j := rfl
@[simp] theorem State.box_dropEnt (j : Nat) (n e : Nat) : (s.dropEnt n e).box j = s.box j := rfl
@[simp] theorem State.box_send (j : Nat) (o : Out) : (s.send o).box j = s.box j := rfl
@[simp] theorem State.box_gauge (j : Nat) (off lsb v : Nat) : (s.gauge off lsb v).box j = s.box j := rfl

@[simp] theorem State.slot_onPart (j : Nat) (p : Nat) (f : Part → Part) : (s.onPart p f).slot j = s.slot j := rfl
@[simp] theorem State.slot_onHp (j : Nat) (h : Nat) (f : HostPort → HostPort) : (s.onHp h f).slot j = s.slot j := rfl
@[simp] theorem State.slot_onIp (j : Nat) (i : Nat) (f : Intake → Intake) : (s.onIp i f).slot j = s.slot j := rfl
@[simp] theorem State.slot_onSlc (j : Nat) (n : Nat) (f : Slice → Slice) : (s.onSlc n f).slot j = s.slot j := rfl
@[simp] theorem State.slot_onFront (j : Nat) (n : Nat) (f : Front → Front) : (s.onFront n f).slot j = s.slot j := rfl
@[simp] theorem State.slot_onBanks (j : Nat) (n : Nat) (f : Banks → Banks) : (s.onBanks n f).slot j = s.slot j := rfl
@[simp] theorem State.slot_onStk (j : Nat) (k : Nat) (f : Stook → Stook) : (s.onStk k f).slot j = s.slot j := rfl
@[simp] theorem State.slot_onMp (j : Nat) (m : Nat) (f : MPort → MPort) : (s.onMp m f).slot j = s.slot j := rfl
@[simp] theorem State.slot_allSlc (j : Nat) (f : Slice → Slice) : (s.allSlc f).slot j = s.slot j := rfl
@[simp] theorem State.slot_allBanks (j : Nat) (f : Banks → Banks) : (s.allBanks f).slot j = s.slot j := rfl
@[simp] theorem State.slot_allIps (j : Nat) (f : Intake → Intake) : (s.allIps f).slot j = s.slot j := rfl
@[simp] theorem State.slot_allStks (j : Nat) (f : Stook → Stook) : (s.allStks f).slot j = s.slot j := rfl
@[simp] theorem State.slot_onTwin (j : Nat) (f : Twin → Twin) : (s.onTwin f).slot j = s.slot j := rfl
@[simp] theorem State.slot_onPlace (j : Nat) (f : Place → Place) : (s.onPlace f).slot j = s.slot j := rfl
@[simp] theorem State.slot_onWin (j : Nat) (f : Win → Win) : (s.onWin f).slot j = s.slot j := rfl
@[simp] theorem State.slot_onRch (j : Nat) (f : Rachis → Rachis) : (s.onRch f).slot j = s.slot j := rfl
@[simp] theorem State.slot_onBlk (j : Nat) (f : Blk → Blk) : (s.onBlk f).slot j = s.slot j := rfl
@[simp] theorem State.slot_onPwr (j : Nat) (f : Pwr → Pwr) : (s.onPwr f).slot j = s.slot j := rfl
@[simp] theorem State.slot_onBox (j : Nat) (m : Nat) (f : MBox → MBox) : (s.onBox m f).slot j = s.slot j := rfl
@[simp] theorem State.slot_putEnt (j : Nat) (n e : Nat) (x : Entry) : (s.putEnt n e x).slot j = s.slot j := rfl
@[simp] theorem State.slot_dropEnt (j : Nat) (n e : Nat) : (s.dropEnt n e).slot j = s.slot j := rfl
@[simp] theorem State.slot_send (j : Nat) (o : Out) : (s.send o).slot j = s.slot j := rfl
@[simp] theorem State.slot_gauge (j : Nat) (off lsb v : Nat) : (s.gauge off lsb v).slot j = s.slot j := rfl
@[simp] theorem State.slot_onSlot_same (k : Nat) (f : Slot → Slot) : (s.onSlot k f).slot k = f (s.slot k) := by
  simp [State.onSlot, State.slot]
theorem State.slot_onSlot_other (k j : Nat) (f : Slot → Slot) (h : j ≠ k) : (s.onSlot k f).slot j = s.slot j := by
  simp [State.onSlot, State.slot, Tbl.get_set_other _ _ _ _ _ h]
@[simp] theorem State.slc_onFront_same (n : Nat) (f : Front → Front) : (s.onFront n f).slc n = { s.slc n with front := f (s.slc n).front } := by
  simp [State.onFront]
@[simp] theorem State.slc_onBanks_same (n : Nat) (f : Banks → Banks) : (s.onBanks n f).slc n = { s.slc n with banks := f (s.slc n).banks } := by
  simp [State.onBanks]
theorem State.slc_onFront_other (n j : Nat) (f : Front → Front) (h : j ≠ n) : (s.onFront n f).slc j = s.slc j := State.slc_onSlc_other _ _ _ _ h
theorem State.slc_onBanks_other (n j : Nat) (f : Banks → Banks) (h : j ≠ n) : (s.onBanks n f).slc j = s.slc j := State.slc_onSlc_other _ _ _ _ h

end Sys2Proof.Machine
end

