-- ==== Sys2Proof/Laws/Scratch.lean ====
section
/-! SUPPORT. The scratch bytes (R269, R272): what reads find after writes, and that every operation on them keeps the canonical form. -/

namespace Sys2Proof.Machine

theorem cellGet_cellSet_same (m : List Host.Cell) (a : Nat) (b : Byte) (h : Memory.wf m = true) : cellGet (cellSet m a b) a = b := by
  induction m with
  | nil => simp only [cellSet]; split <;> simp_all [cellGet]
  | cons c r ih =>
    simp only [Memory.wf, Bool.and_eq_true, bne_iff_ne, List.all_eq_true, decide_eq_true_eq] at h
    obtain ⟨⟨_, hr⟩, hw⟩ := h
    have none_below : ∀ l : List Host.Cell, (∀ d ∈ l, a < d.1) → cellGet l a = 0 := by
      intro l hl
      induction l with
      | nil => rfl
      | cons d l il =>
        have := hl d (by simp)
        simp only [cellGet]
        rw [if_neg (by omega)]
        exact il fun x hx => hl x (by simp [hx])
    simp only [cellSet]
    split
    · rename_i ha
      split
      · rename_i hb; rw [hb]; exact none_below r fun d hd => by have := hr d hd; omega
      · simp [cellGet]
    · split
      · split
        · rename_i hb; rw [hb]
          exact none_below (c :: r) fun d hd => by
            rcases List.mem_cons.1 hd with rfl | hd
            · assumption
            · have := hr d hd; omega
        · simp [cellGet]
      · simp only [cellGet]; rw [if_neg (by assumption)]; exact ih hw

theorem cellGet_cellSet_other (m : List Host.Cell) (a j : Nat) (b : Byte) (h : j ≠ a) : cellGet (cellSet m a b) j = cellGet m j := by
  induction m with
  | nil => simp only [cellSet]; split <;> simp [cellGet, h]
  | cons c r ih =>
    simp only [cellSet]
    split
    · split
      · subst_vars; simp [cellGet, h]
      · subst_vars; simp [cellGet, h]
    · split
      · split <;> simp [cellGet, h]
      · simp [cellGet, ih]

theorem cellsGet_outside (l : List Byte) : ∀ (m : List Host.Cell) (a j : Nat), (j < a ∨ a + l.length ≤ j) → cellGet (cellsSet m a l) j = cellGet m j := by
  induction l with
  | nil => intro m a j _; rfl
  | cons b r ih =>
    intro m a j h
    simp only [cellsSet]
    rw [ih _ _ _ (by simp only [List.length_cons] at h; omega)]
    exact cellGet_cellSet_other _ _ _ _ (by simp only [List.length_cons] at h; omega)

theorem cellSet_above (m : List Host.Cell) (a k : Nat) (b : Byte) (hk : k < a) (h : ∀ d ∈ m, k < d.1) : ∀ d ∈ cellSet m a b, k < d.1 := by
  induction m with
  | nil =>
    intro d hd; simp only [cellSet] at hd
    split at hd
    · cases hd
    · rw [List.mem_singleton] at hd; subst hd; exact hk
  | cons c r ih =>
    intro d hd
    have hr : ∀ x ∈ r, k < x.1 := fun x hx => h x (by simp [hx])
    simp only [cellSet] at hd
    split at hd
    · split at hd
      · exact hr d hd
      · rcases List.mem_cons.1 hd with rfl | hd
        · exact hk
        · exact hr d hd
    · split at hd
      · split at hd
        · exact h d hd
        · rcases List.mem_cons.1 hd with rfl | hd
          · exact hk
          · exact h d hd
      · rcases List.mem_cons.1 hd with rfl | hd
        · exact h _ (by simp)
        · exact ih hr d hd

theorem Memory.wf_cons (c : Host.Cell) (r : List Host.Cell) : Memory.wf (c :: r) = true ↔ c.2 ≠ 0 ∧ (∀ d ∈ r, c.1 < d.1) ∧ Memory.wf r = true := by
  simp [Memory.wf, and_assoc]

theorem Memory.wf_cellSet (m : List Host.Cell) (a : Nat) (b : Byte) (h : Memory.wf m = true) : Memory.wf (cellSet m a b) = true := by
  induction m with
  | nil =>
    simp only [cellSet]; split
    · rfl
    · rw [Memory.wf_cons]; exact ⟨by assumption, by simp, rfl⟩
  | cons c r ih =>
    have h0 := h
    rw [Memory.wf_cons] at h
    obtain ⟨hc, hr, hw⟩ := h
    simp only [cellSet]
    split
    · subst_vars
      split
      · exact hw
      · rw [Memory.wf_cons]; exact ⟨by assumption, hr, hw⟩
    · split
      · split
        · exact h0
        · rw [Memory.wf_cons]
          refine ⟨by assumption, ?_, h0⟩
          intro d hd
          rcases List.mem_cons.1 hd with rfl | hd
          · assumption
          · have := hr d hd; omega
      · rw [Memory.wf_cons]
        exact ⟨hc, cellSet_above r a c.1 b (by omega) hr, ih hw⟩

theorem Memory.wf_cellsSet (l : List Byte) : ∀ (m : List Host.Cell) (a : Nat), Memory.wf m = true → Memory.wf (cellsSet m a l) = true := by
  induction l with
  | nil => intro m a h; exact h
  | cons b r ih => intro m a h; exact ih _ _ (Memory.wf_cellSet m a b h)

theorem Memory.wf_filter (p : Host.Cell → Bool) (m : List Host.Cell) (h : Memory.wf m = true) : Memory.wf (m.filter p) = true := by
  induction m with
  | nil => rfl
  | cons c r ih =>
    rw [Memory.wf_cons] at h
    obtain ⟨hc, hr, hw⟩ := h
    rw [List.filter_cons]
    split
    · rw [Memory.wf_cons]
      exact ⟨hc, fun d hd => hr d (List.mem_filter.1 hd).1, ih hw⟩
    · exact ih hw

theorem Memory.wf_clearCells (n lo hi : Nat) (m : List Host.Cell) (h : Memory.wf m = true) : Memory.wf (clearCells n lo hi m) = true :=
  Memory.wf_filter _ m h

theorem Memory.wf_puts (l : List Byte) (o : Nat) : ∀ (ws : List Nat) (m : List Host.Cell), Memory.wf m = true →
    Memory.wf (ws.foldl (fun m w => cellsSet m (scratchKey w o) l) m) = true
  | [], _, h => h
  | _ :: r, m, h => Memory.wf_puts l o r _ (Memory.wf_cellsSet l m _ h)

/-- A scratch write keeps the canonical form (R269). -/
theorem State.scratchPut_wf (s : State) (ws : List Nat) (o : Nat) (l : List Byte) (h : Memory.wf s.scratch = true) :
    Memory.wf (s.scratchPut ws o l).scratch = true := Memory.wf_puts l o ws _ h

end Sys2Proof.Machine
end

