-- ==== Sys2Proof/Laws/Host.lean ====
section
/-! SUPPORT. What a host message does on its way to the checks of R75 (R75, R130, R131), what an intake port does with a BIConflict that
passed (R122), and what some operations leave of the parts, hosts, places and twin. -/

namespace Sys2Proof.Machine
theorem host_exec (op : ReqOp) (t : Ns) (m : M2S) (data : Line) (be : Quad) (s : State) :
    exec (hostMessage op t m data be) s = .next ((s.tick t).arrive { m with enc := none } op (msgData op data) (msgBe op be)) := by
  cases op with
  | other rwd d c => cases rwd <;> rfl
  | undef rwd => cases rwd <;> rfl
  | _ => rfl
theorem State.hp_of_hosts {s u : State} (h : u.hosts = s.hosts) (i : Nat) : u.hp i = s.hp i := by simp [State.hp, h]
theorem State.ip_of_intakes {s u : State} (h : u.intakes = s.intakes) (i : Nat) : u.ip i = s.ip i := by simp [State.ip, h]
theorem State.onEnt_hosts (s : State) (n e : Nat) (g : Entry → Entry) : (s.onEnt n e g).hosts = s.hosts := by unfold State.onEnt; split <;> simp
theorem State.onEnt_intakes (s : State) (n e : Nat) (g : Entry → Entry) : (s.onEnt n e g).intakes = s.intakes := by unfold State.onEnt; split <;> simp
theorem State.issuing_hosts (s : State) (n e : Nat) (l : List Nat) : (s.issuing n e l).hosts = s.hosts := by simp [State.issuing, State.onEnt_hosts]
theorem State.issuing_intakes (s : State) (n e : Nat) (l : List Nat) : (s.issuing n e l).intakes = s.intakes := by simp [State.issuing, State.onEnt_intakes]
theorem State.holds_of_hosts {s u : State} (h : u.hosts = s.hosts) (i j : Nat) : u.holdsCredits i j = s.holdsCredits i j := by
  simp [State.holdsCredits, State.hp_of_hosts h]
theorem State.record_hosts (s : State) (p k : Nat) (r : EvRec) : (s.record p k r).hosts = s.hosts := by
  simp only [State.record]; split <;> simp
theorem State.countFail_hosts (s : State) (i c h : Nat) (op : ReqOp) (o : Nat) (p : Option Nat) : (s.countFail i c h op o p).hosts = s.hosts := by
  unfold State.countFail; dsimp only; split <;> (try split) <;> simp [State.record_hosts]
theorem State.failOut_hosts (s : State) (i h c : Nat) (a : Bool × Bool) : (s.failOut i h c a).hosts = s.hosts := by
  unfold State.failOut; dsimp only; split <;> split <;> simp
theorem State.charged_holds {s : State} {m : M2S} {op : ReqOp} (h : s.holdsCredits m.port.val m.host.val = true) :
    (s.charged m op).holdsCredits m.port.val m.host.val = true := by
  unfold State.charged
  simp only [State.holdsCredits, State.hp, State.onHp_hosts, Tbl.get_set_same, State.bumpIp_hosts] at h ⊢
  split <;> exact h
theorem State.arrive_charged {op : ReqOp} {s : State} {m : M2S} (h : s.hasCredit m op = true) (data : Line) (be : Quad) :
    s.arrive { m with enc := none } op data be = (s.charged m op).judge m op data be false := by
  simp only [State.hasCredit, Bool.and_eq_true, Bool.not_eq_true', decide_eq_true_eq] at h
  obtain ⟨⟨h1, h2⟩, h3⟩ := h
  have hp := State.hp_of_hosts (State.bumpIp_hosts s m.port.val 0 0 64) m.host.val
  simp only [State.arrive, Option.getD_none, h1, State.holds_of_hosts (State.bumpIp_hosts _ _ _ _ _), h2, Bool.false_eq_true, if_false, if_true]
  rw [if_neg]
  · rfl
  · split at h3 <;> simp_all
theorem host_arrive {op : ReqOp} {s : State} {t : Ns} {m : M2S} (h : (s.tick t).hasCredit m op = true) (data : Line) (be : Quad) :
    exec (hostMessage op t m data be) s = .next (((s.tick t).charged m op).judge m op (msgData op data) (msgBe op be) false) := by
  rw [host_exec, State.arrive_charged h]
theorem State.check_pass_fwd {s : State} {m : M2S} {op : ReqOp} {data : Line} {be : Quad} {b : Bool} {r : Req}
    (h : s.check m op data be b = .pass r) : r.fwd = b := by
  unfold State.check at h
  dsimp only at h
  repeat' split at h
  all_goals first
    | (injection h with h; rw [← h]; done)
    | cases h
theorem State.takeIn_biConf {s : State} {r : Req} {c : Nat} (h : r.form = .biConf) (hg : (s.firstPlace r).goes = false) :
    s.takeIn r c = s.conflict r c := by
  unfold State.takeIn
  rw [h]
  cases hf : s.firstPlace r <;> simp_all [KSt.goes]
theorem State.takeIn_biConf_goes {s : State} {r : Req} {c : Nat} (h : r.form = .biConf) (hg : (s.firstPlace r).goes = true) :
    s.takeIn r c = s.keep r .host c (s.firstPlace r) := by
  unfold State.takeIn
  rw [h]
  cases hf : s.firstPlace r <;> simp_all [KSt.goes]
theorem leBytes_length : ∀ (k x : Nat), (leBytes k x).length = k
  | 0, _ => rfl
  | k + 1, x => by simp [leBytes, leBytes_length]
theorem cellsGet_inside : ∀ (k : Nat) (x a i : Nat) (m : List Host.Cell), Memory.wf m = true → i < k →
    cellGet (cellsSet m a (leBytes k x)) (a + i) = BitVec.ofNat 8 (x / 256 ^ i)
  | 0, _, _, _, _, _, h => absurd h (Nat.not_lt_zero _)
  | k + 1, x, a, 0, m, hm, _ => by
    simp only [leBytes, cellsSet, Nat.add_zero, Nat.pow_zero, Nat.div_one]
    rw [cellsGet_outside _ _ _ _ (Or.inl (Nat.lt_succ_self a)), cellGet_cellSet_same _ _ _ hm]
  | k + 1, x, a, i + 1, m, hm, h => by
    simp only [leBytes, cellsSet]
    rw [show a + (i + 1) = (a + 1) + i by omega, cellsGet_inside k (x / 256) (a + 1) i _ (Memory.wf_cellSet _ _ _ hm) (by omega)]
    rw [Nat.div_div_eq_div_mul, Nat.pow_succ, Nat.mul_comm]
theorem State.cacheHit_bumpPlc (s : State) (a b c tr : Nat) : (s.bumpPlc a b c).cacheHit tr = s.cacheHit tr := by simp [State.cacheHit, State.cacheLines, State.scratchReady, State.cacheRead, State.fencedSlice]
theorem State.walkRead_bumpPlc (s : State) (a b c tr : Nat) (rd : MapRead) : (s.bumpPlc a b c).walkRead tr rd = s.walkRead tr rd := by simp [State.walkRead, State.rooted]
theorem State.domSeal_twin (s : State) : s.domSeal.twin = s.twin := by unfold State.domSeal; split <;> rfl
theorem State.domSeal_member (s : State) : s.domSeal.mer.member = s.mer.member := by unfold State.domSeal; split <;> rfl
theorem State.pairSeal_twin (s : State) : s.pairSeal.twin = s.twin := by unfold State.pairSeal; exact State.domSeal_twin _
theorem State.pairSeal_member (s : State) : s.pairSeal.mer.member = s.mer.member := by unfold State.pairSeal; exact State.domSeal_member _
theorem State.adoptAnchor_twin (s : State) (x : Handshake) : (s.adoptAnchor x).twin = s.twin := by
  unfold State.adoptAnchor
  split
  · dsimp only; split <;> rfl
  · rfl
theorem State.adoptAnchor_place (s : State) (x : Handshake) : (s.adoptAnchor x).place = s.place := by
  unfold State.adoptAnchor
  split
  · dsimp only; split <;> rfl
  · rfl
theorem State.adoptAnchor_dirGen (s : State) (x : Handshake) : (s.adoptAnchor x).dirGen = s.dirGen := by
  unfold State.adoptAnchor
  split
  · dsimp only; split <;> rfl
  · rfl
theorem State.join_member (s : State) (x : DomNotice) : (s.join x).mer.member = s.mer.member := by
  unfold State.join
  split
  · split <;> rfl
  · rfl
theorem State.join_st (s : State) (x : DomNotice) : (s.join x).mer.st = s.mer.st := by
  unfold State.join
  split
  · split <;> rfl
  · rfl
theorem State.each_place {α : Type} (f : α → State → State) (h : ∀ a s, (f a s).place = s.place) : ∀ (l : List α) (s : State), (State.each f l s).place = s.place
  | [], _ => rfl
  | _ :: r, s => (State.each_place f h r (f _ s)).trans (h _ s)
theorem State.countOver_place (s : State) : s.countOver.place = s.place := by
  unfold State.countOver
  apply State.each_place
  intro a s
  rfl
theorem State.freeBytes_parts : ∀ (k : Nat) (s : State), (State.freeBytes k s).2.parts = s.parts
  | 0, _ => rfl
  | k + 1, s => (State.freeBytes_parts k _).trans rfl
theorem State.freeBytes_part (k : Nat) (s : State) (p : Nat) : (State.freeBytes k s).2.part p = s.part p := by simp [State.part, State.freeBytes_parts]
theorem State.partOf_onPlace (s : State) (f : Place → Place) (l : Nat) : (s.onPlace f).partOf l = s.partOf l := rfl
theorem State.overrunPart_of {s u : State} (hp : u.parts = s.parts) (hh : u.hosts = s.hosts) (h o : Nat) : u.overrunPart h o = s.overrunPart h o := by
  unfold State.overrunPart State.partOf State.part State.member State.hp
  rw [hp, hh]
end Sys2Proof.Machine
end

