-- ==== Sys2Proof/Laws/Mailbox.lean ====
section
/-! SUPPORT. What a command of the mailboxes does before its own rules act: it is ignored, refused by the common checks, or
served (R623, R626, R629, R635, R636, R639). -/

namespace Sys2Proof.Machine

/-- A caller that may use the mailbox is no host outside its partition. -/
theorem not_alien {s : State} {c : Mbx} (h : 64 ≤ c.mb.val ∨ s.member c.host.val c.mb.val = true) :
    (c.mb.val < 64 ∧ (!s.member c.host.val c.mb.val) = true) = False := by
  refine eq_false ?_
  rintro ⟨a, b⟩
  rcases h with h | h
  · omega
  · simp [h] at b

/-- Every command of the mailboxes is one run of the shared command operation, with its own rules as the body. -/
theorem mailbox_exec {i : Instr} {t : Ns} {c : Mbx} {op : Nat} {k : CmdKind} (h : i.mailbox = some (t, c, op, k)) :
    ∃ body : State → Reply × State, ∀ s, exec i s = .next ((s.tick t).command c op k body) := by
  cases i <;> simp only [Instr.mailbox, Option.some.injEq, Prod.mk.injEq, reduceCtorEq] at h
  all_goals
    obtain ⟨rfl, rfl, rfl, rfl⟩ := h
    exact ⟨_, fun _ => rfl⟩

/-- A command that reaches a mailbox while Alidade serves none has no effect. -/
theorem State.command_down {s : State} {c : Mbx} {op : Nat} {k : CmdKind} {body : State → Reply × State} (h : s.alidadeUp = false) :
    s.command c op k body = s := by
  simp [State.command, h]

/-- A request to the management mailbox while a command runs on it is answered at once with status 0x07. -/
theorem State.command_managed {s : State} {c : Mbx} {op : Nat} {k : CmdKind} {body : State → Reply × State} (h1 : s.alidadeUp = true)
    (h2 : c.mb.val = 64) (h3 : (s.box c.mb.val).doorbell = true) : s.command c op k body = s.send (.mgmtReply 7) := by
  have h5 : ¬(c.mb.val < 64 ∧ (!s.member c.host.val c.mb.val) = true) := by omega
  simp only [State.command, h1, h5, h3]
  rw [if_pos h2]
  rfl

/-- A command that its mailbox serves does what its own rules say, on the state that has accepted it. -/
theorem State.command_served {s : State} {c : Mbx} {op : Nat} {k : CmdKind} {body : State → Reply × State} (h : s.serves c op k = true) :
    s.command c op k body = (body (s.accept c op k.otp)).2.answer c.mb.val (body (s.accept c op k.otp)).1 := by
  simp only [State.serves, Bool.and_eq_true, Bool.not_eq_true', Bool.or_eq_true, decide_eq_true_eq, Option.isNone_iff_eq_none] at h
  obtain ⟨⟨⟨h1, h2⟩, h3⟩, h4⟩ := h
  have h5 := not_alien h2
  simp only [State.command, h1, h5, h3, h4]
  rfl

/-- A command that reaches a free mailbox and fails a common check completes with that check's status and DETAIL. -/
theorem State.command_refused {s : State} {c : Mbx} {op : Nat} {k : CmdKind} {body : State → Reply × State} {st d : Nat}
    (h1 : s.alidadeUp = true) (h2 : 64 ≤ c.mb.val ∨ s.member c.host.val c.mb.val = true) (h3 : (s.box c.mb.val).doorbell = false)
    (h4 : (s.accept c op k.otp).commonCheck c k = some (st, d)) :
    s.command c op k body = (s.accept c op k.otp).mbxDone c.mb.val st [] d := by
  have h5 := not_alien h2
  simp only [State.command, h1, h5, h3, h4]
  rfl

/-- The writes of a host that is no member of the partition are ignored and counted. -/
theorem State.command_alien {s : State} {c : Mbx} {op : Nat} {k : CmdKind} {body : State → Reply × State} (h1 : s.alidadeUp = true)
    (h2 : c.mb.val < 64) (h3 : s.member c.host.val c.mb.val = false) :
    s.command c op k body = s.bump (0x0A0000 + 16 * c.mb.val) 16 32 (mbWrites c) := by
  simp [State.command, h1, h2, h3]

/-- The writes of a caller to a mailbox whose DOORBELL is set are ignored and counted. -/
theorem State.command_busy {s : State} {c : Mbx} {op : Nat} {k : CmdKind} {body : State → Reply × State} (h1 : s.alidadeUp = true)
    (h2 : 64 ≤ c.mb.val ∨ s.member c.host.val c.mb.val = true) (h3 : (s.box c.mb.val).doorbell = true) (h4 : c.mb.val ≠ 64) :
    s.command c op k body = s.mbxIgnored c.mb.val (mbWrites c) := by
  have h5 := not_alien h2
  simp only [State.command, h1, h5, h3, h4]
  rfl

end Sys2Proof.Machine
end

