-- ==== Sys2Proof/Laws/SpineOps.lean ====
section
/-! SUPPORT. The spine of the state (the queue, scratch, the time, the fail-safe state, the OTP contents) under every operation: the shared operations up to Winnow. -/

set_option linter.all false

namespace Sys2Proof.Machine

structure Spine where
  pending : List Instr
  scratch : List Host.Cell
  now : Nat
  failsafe : Bool
  otp : BitVec 16384
  deriving DecidableEq, Repr

def State.spine (s : State) : Spine := ⟨s.pending, s.scratch, s.now, s.win.failsafe, s.pwr.otp⟩

@[simp ↓] theorem spine_ite (c : Prop) [Decidable c] (a b : State) : (if c then a else b).spine = if c then a.spine else b.spine := by split <;> rfl
@[simp ↓] theorem spine_ite_snd {α : Type} (c : Prop) [Decidable c] (a b : α × State) : (if c then a else b).2.spine = if c then a.2.spine else b.2.spine := by split <;> rfl
@[simp ↓] theorem spine_mk (a0 a1 a2 a3 a4 a5 a6 a7 a8 a9 a10 a11 a12 a13 a14 a15 a16 a17 a18 a19 a20 a21 a22 a23 a24 a25 a26 a27 a28 a29 a30 a31 a32) :
  State.spine ⟨a0, a1, a2, a3, a4, a5, a6, a7, a8, a9, a10, a11, a12, a13, a14, a15, a16, a17, a18, a19, a20, a21, a22, a23, a24, a25, a26, a27, a28, a29, a30, a31, a32⟩ = ⟨a0, a28, a1, a22.failsafe, a25.otp⟩ := rfl
@[simp] theorem spine_eta (s : State) : (⟨s.pending, s.scratch, s.now, s.win.failsafe, s.pwr.otp⟩ : Spine) = s.spine := rfl
@[simp ↓] theorem State.onWin_spine (s : State) (f : Win → Win) (h : ∀ w, (f w).failsafe = w.failsafe) : (s.onWin f).spine = s.spine := by simp [State.onWin, h]
@[simp ↓] theorem State.onPwr_spine (s : State) (f : Pwr → Pwr) (h : ∀ w, (f w).otp = w.otp) : (s.onPwr f).spine = s.spine := by simp [State.onPwr, h]
@[simp ↓] theorem win_ite (c : Prop) [Decidable c] (a b : Win) : (if c then a else b).failsafe = if c then a.failsafe else b.failsafe := by split <;> rfl
@[simp ↓] theorem pwr_ite (c : Prop) [Decidable c] (a b : Pwr) : (if c then a else b).otp = if c then a.otp else b.otp := by split <;> rfl
theorem State.each_spine {α : Type} (f : α → State → State) (h : ∀ a s, (f a s).spine = s.spine) : ∀ (l : List α) (s : State), (State.each f l s).spine = s.spine
  | [], _ => rfl
  | _ :: r, s => (State.each_spine f h r (f _ s)).trans (h _ s)

@[simp ↓] theorem State.onPart_spine : ∀ (s : State) (x1 : ℕ) (x2 : Part → Part), (State.onPart s x1 x2).spine = s.spine := by intros; rfl

@[simp ↓] theorem State.onHp_spine : ∀ (s : State) (x1 : ℕ) (x2 : HostPort → HostPort), (State.onHp s x1 x2).spine = s.spine := by intros; rfl

@[simp ↓] theorem State.onIp_spine : ∀ (s : State) (x1 : ℕ) (x2 : Intake → Intake), (State.onIp s x1 x2).spine = s.spine := by intros; rfl

@[simp ↓] theorem State.onSlc_spine : ∀ (s : State) (x1 : ℕ) (x2 : Slice → Slice), (State.onSlc s x1 x2).spine = s.spine := by intros; rfl

@[simp ↓] theorem State.onFront_spine : ∀ (s : State) (x1 : ℕ) (x2 : Front → Front), (State.onFront s x1 x2).spine = s.spine := by intros; rfl

@[simp ↓] theorem State.onBanks_spine : ∀ (s : State) (x1 : ℕ) (x2 : Banks → Banks), (State.onBanks s x1 x2).spine = s.spine := by intros; rfl

@[simp ↓] theorem State.onStk_spine : ∀ (s : State) (x1 : ℕ) (x2 : Stook → Stook), (State.onStk s x1 x2).spine = s.spine := by intros; rfl

@[simp ↓] theorem State.onMp_spine : ∀ (s : State) (x1 : ℕ) (x2 : MPort → MPort), (State.onMp s x1 x2).spine = s.spine := by intros; rfl

@[simp ↓] theorem State.allSlc_spine : ∀ (s : State) (x1 : Slice → Slice), (State.allSlc s x1).spine = s.spine := by intros; rfl

@[simp ↓] theorem State.allBanks_spine : ∀ (s : State) (x1 : Banks → Banks), (State.allBanks s x1).spine = s.spine := by intros; rfl

@[simp ↓] theorem State.allIps_spine : ∀ (s : State) (x1 : Intake → Intake), (State.allIps s x1).spine = s.spine := by intros; rfl

@[simp ↓] theorem State.allStks_spine : ∀ (s : State) (x1 : Stook → Stook), (State.allStks s x1).spine = s.spine := by intros; rfl

@[simp ↓] theorem State.onSlot_spine : ∀ (s : State) (x1 : ℕ) (x2 : Slot → Slot), (State.onSlot s x1 x2).spine = s.spine := by intros; rfl

@[simp ↓] theorem State.onMer_spine : ∀ (s : State) (x1 : Mer → Mer), (State.onMer s x1).spine = s.spine := by intros; rfl

@[simp ↓] theorem State.onTwin_spine : ∀ (s : State) (x1 : Twin → Twin), (State.onTwin s x1).spine = s.spine := by intros; rfl

@[simp ↓] theorem State.onPlace_spine : ∀ (s : State) (x1 : Place → Place), (State.onPlace s x1).spine = s.spine := by intros; rfl

@[simp ↓] theorem State.onRch_spine : ∀ (s : State) (x1 : Rachis → Rachis), (State.onRch s x1).spine = s.spine := by intros; rfl

@[simp ↓] theorem State.onBlk_spine : ∀ (s : State) (x1 : Blk → Blk), (State.onBlk s x1).spine = s.spine := by intros; rfl

@[simp ↓] theorem State.onBox_spine : ∀ (s : State) (x1 : ℕ) (x2 : MBox → MBox), (State.onBox s x1 x2).spine = s.spine := by intros; rfl

@[simp ↓] theorem State.putEnt_spine : ∀ (s : State) (x1 : ℕ) (x2 : ℕ) (x3 : Entry), (State.putEnt s x1 x2 x3).spine = s.spine := by intros; rfl

@[simp ↓] theorem State.onEnt_spine : ∀ (s : State) (x1 : ℕ) (x2 : ℕ) (x3 : Entry → Entry), (State.onEnt s x1 x2 x3).spine = s.spine := by
  intros; unfold State.onEnt; repeat' (first | (intro _) | simp | (refine (State.each_spine _ ?_ _ _).trans ?_) | split | rfl)

@[simp ↓] theorem State.dropEnt_spine : ∀ (s : State) (x1 : ℕ) (x2 : ℕ), (State.dropEnt s x1 x2).spine = s.spine := by intros; rfl

@[simp ↓] theorem State.send_spine : ∀ (s : State) (x1 : Out), (State.send s x1).spine = s.spine := by intros; rfl

@[simp ↓] theorem State.fresh_spine : ∀ (s : State), (State.fresh s).2.spine = s.spine := by intros; rfl

@[simp ↓] theorem State.bump_spine : ∀ (s : State) (x1 : ℕ) (x2 : ℕ) (x3 : ℕ) (x4 : ℕ), (State.bump s x1 x2 x3 x4).spine = s.spine := by
  intros; unfold State.bump; repeat' (first | (intro _) | simp | (refine (State.each_spine _ ?_ _ _).trans ?_) | split | rfl)

@[simp ↓] theorem State.gauge_spine : ∀ (s : State) (x1 : ℕ) (x2 : ℕ) (x3 : ℕ), (State.gauge s x1 x2 x3).spine = s.spine := by intros; rfl

@[simp ↓] theorem State.elapseMer_spine : ∀ (s : State) (x1 : ℕ), (State.elapseMer s x1).spine = s.spine := by
  intros; unfold State.elapseMer; repeat' (first | (intro _) | simp | (refine (State.each_spine _ ?_ _ _).trans ?_) | split | rfl)

@[simp ↓] theorem State.elapseRch_spine : ∀ (s : State) (x1 : ℕ), (State.elapseRch s x1).spine = s.spine := by
  intros; unfold State.elapseRch; repeat' (first | (intro _) | simp | (refine (State.each_spine _ ?_ _ _).trans ?_) | split | rfl)

@[simp ↓] theorem State.elapse_spine : ∀ (s : State) (x1 : ℕ), (State.elapse s x1).spine = s.spine := by
  intros; unfold State.elapse; repeat' (first | (intro _) | simp | (refine (State.each_spine _ ?_ _ _).trans ?_) | split | rfl)

@[simp ↓] theorem State.carry_spine (s : State) : s.carry.spine = s.spine := by simp only [State.spine, State.carry_pending, State.carry_scratch, State.carry_now, State.carry_win, State.carry_pwr]

@[simp ↓] theorem State.packet_spine (s : State) (a b : NetUnit) (op : Nat) (f : PktF) : (s.packet a b op f).spine = s.spine := by simp only [State.spine, State.packet_pending, State.packet_scratch, State.packet_now, State.packet_win, State.packet_pwr]

@[simp ↓] theorem State.align_spine (s : State) (a : List Int) (d : Nat) : (s.align a d).spine = s.spine := by simp only [State.spine, State.align_pending, State.align_scratch, State.align_now, State.align_win, State.align_pwr]

theorem State.tick_spine (s : State) (t : Ns) : (s.tick t).spine = { s.spine with now := (s.tick t).now } :=
  (congrArg State.spine (s.tick_only t)).trans rfl

@[simp ↓] theorem State.twinPkt_spine (s : State) (u : NetUnit) (f : PktF) : (s.twinPkt u f).spine = s.spine := by simp only [State.spine, State.twinPkt_pending, State.twinPkt_scratch, State.twinPkt_now, State.twinPkt_win, State.twinPkt_pwr]

@[simp ↓] theorem State.twinIn_spine : ∀ (s : State) (x1 : NetUnit) (x2 : ℕ) (x3 : PktF), (State.twinIn s x1 x2 x3).spine = s.spine := by
  intros; unfold State.twinIn; repeat' (first | (intro _) | simp | (refine (State.each_spine _ ?_ _ _).trans ?_) | split | rfl)

@[simp ↓] theorem State.order_spine (s : State) (f : PktF) : (s.order f).spine = s.spine := by simp only [State.spine, State.order_pending, State.order_scratch, State.order_now, State.order_win, State.order_pwr]

@[simp ↓] theorem State.toTwin_spine (s : State) (x : TwinMsg) : (s.toTwin x).spine = s.spine := by simp only [State.spine, State.toTwin_pending, State.toTwin_scratch, State.toTwin_now, State.toTwin_win, State.toTwin_pwr]

@[simp ↓] theorem State.toTwinPack_spine : ∀ (s : State) (x1 : NetUnit) (x2 : List TwinMsg), (State.toTwinPack s x1 x2).spine = s.spine := by
  intros; unfold State.toTwinPack; repeat' (first | (intro _) | simp | (refine (State.each_spine _ ?_ _ _).trans ?_) | split | rfl)

@[simp ↓] theorem State.latency_spine : ∀ (s : State) (x1 : ℕ) (x2 : ℕ), (State.latency s x1 x2).spine = s.spine := by intros; rfl

@[simp ↓] theorem State.bumpSlc_spine : ∀ (s : State) (x1 : ℕ) (x2 : ℕ) (x3 : ℕ) (x4 : ℕ), (State.bumpSlc s x1 x2 x3 x4).spine = s.spine := by intros; rfl

@[simp ↓] theorem State.bumpStk_spine : ∀ (s : State) (x1 : ℕ) (x2 : ℕ) (x3 : ℕ) (x4 : ℕ), (State.bumpStk s x1 x2 x3 x4).spine = s.spine := by intros; rfl

@[simp ↓] theorem State.bumpIp_spine : ∀ (s : State) (x1 : ℕ) (x2 : ℕ) (x3 : ℕ) (x4 : ℕ), (State.bumpIp s x1 x2 x3 x4).spine = s.spine := by intros; rfl

@[simp ↓] theorem State.bumpMp_spine : ∀ (s : State) (x1 : ℕ) (x2 : ℕ) (x3 : ℕ) (x4 : ℕ), (State.bumpMp s x1 x2 x3 x4).spine = s.spine := by intros; rfl

@[simp ↓] theorem State.bumpPart_spine : ∀ (s : State) (x1 : ℕ) (x2 : ℕ) (x3 : ℕ) (x4 : ℕ), (State.bumpPart s x1 x2 x3 x4).spine = s.spine := by intros; rfl

@[simp ↓] theorem State.bumpMer_spine : ∀ (s : State) (x1 : ℕ) (x2 : ℕ) (x3 : ℕ), (State.bumpMer s x1 x2 x3).spine = s.spine := by intros; rfl

@[simp ↓] theorem State.bumpWin_spine : ∀ (s : State) (x1 : ℕ) (x2 : ℕ) (x3 : ℕ), (State.bumpWin s x1 x2 x3).spine = s.spine := by intros; rfl

@[simp ↓] theorem State.bumpTwn_spine : ∀ (s : State) (x1 : ℕ) (x2 : ℕ) (x3 : ℕ), (State.bumpTwn s x1 x2 x3).spine = s.spine := by intros; rfl

@[simp ↓] theorem State.bumpPlc_spine : ∀ (s : State) (x1 : ℕ) (x2 : ℕ) (x3 : ℕ), (State.bumpPlc s x1 x2 x3).spine = s.spine := by intros; rfl

@[simp ↓] theorem State.bumpPwr_spine : ∀ (s : State) (x1 : ℕ) (x2 : ℕ) (x3 : ℕ), (State.bumpPwr s x1 x2 x3).spine = s.spine := by intros; rfl

@[simp ↓] theorem State.bumpMbx_spine : ∀ (s : State) (x1 : ℕ) (x2 : ℕ) (x3 : ℕ), (State.bumpMbx s x1 x2 x3).spine = s.spine := by intros; rfl

@[simp ↓] theorem State.ignSlc_spine : ∀ (s : State) (x1 : ℕ) (x2 : ℕ), (State.ignSlc s x1 x2).spine = s.spine := by intros; rfl

@[simp ↓] theorem State.eventPacket_spine (s : State) (v : Ev) : (s.eventPacket v).spine = s.spine := by simp only [State.spine, State.eventPacket_pending, State.eventPacket_scratch, State.eventPacket_now, State.eventPacket_win, State.eventPacket_pwr]

@[simp ↓] theorem State.raiseC_spine (s : State) (a b : Nat) (c : Option Nat) (d e f g : Nat) : (s.raiseC a b c d e f g).spine = s.spine := by simp only [State.spine, State.raiseC_pending, State.raiseC_scratch, State.raiseC_now, State.raiseC_win, State.raiseC_pwr]

@[simp ↓] theorem State.raise_spine : ∀ (s : State) (x1 : ℕ) (x2 : ℕ) (x3 : ℕ) (x4 : ℕ) (x5 : ℕ), (State.raise s x1 x2 x3 x4 x5).spine = s.spine := by
  intros; unfold State.raise; repeat' (first | (intro _) | simp | (refine (State.each_spine _ ?_ _ _).trans ?_) | split | rfl)

@[simp ↓] theorem State.countSlot_spine : ∀ (s : State) (x1 : SlotSt), (State.countSlot s x1).spine = s.spine := by
  intros; unfold State.countSlot; repeat' (first | (intro _) | simp | (refine (State.each_spine _ ?_ _ _).trans ?_) | split | rfl)

@[simp ↓] theorem State.rouse_spine : ∀ (s : State) (x1 : ℕ), (State.rouse s x1).spine = s.spine := by
  intros; unfold State.rouse; repeat' (first | (intro _) | simp | (refine (State.each_spine _ ?_ _ _).trans ?_) | split | rfl)

@[simp ↓] theorem State.stookWork_spine : ∀ (s : State) (x1 : ℕ), (State.stookWork s x1).spine = s.spine := by
  intros; unfold State.stookWork; repeat' (first | (intro _) | simp | (refine (State.each_spine _ ?_ _ _).trans ?_) | split | rfl)

@[simp ↓] theorem State.rouseSites_spine : ∀ (s : State) (x1 : List ℕ), (State.rouseSites s x1).spine = s.spine := by intros; rfl

@[simp ↓] theorem State.wakeAll_spine : ∀ (s : State), (State.wakeAll s).spine = s.spine := by
  intros; unfold State.wakeAll; repeat' (first | (intro _) | simp | (refine (State.each_spine _ ?_ _ _).trans ?_) | split | rfl)

@[simp ↓] theorem State.slotDone_spine : ∀ (s : State) (x1 : ℕ), (State.slotDone s x1).spine = s.spine := by
  intros; unfold State.slotDone; repeat' (first | (intro _) | simp | (refine (State.each_spine _ ?_ _ _).trans ?_) | split | rfl)

@[simp ↓] theorem State.record_spine : ∀ (s : State) (x1 : ℕ) (x2 : ℕ) (x3 : EvRec), (State.record s x1 x2 x3).spine = s.spine := by
  intros; unfold State.record; repeat' (first | (intro _) | simp | (refine (State.each_spine _ ?_ _ _).trans ?_) | split | rfl)

@[simp ↓] theorem State.addPoison_spine : ∀ (s : State) (x1 : ℕ) (x2 : ℕ) (x3 : Trans), (State.addPoison s x1 x2 x3).spine = s.spine := by
  intros; unfold State.addPoison; repeat' (first | (intro _) | simp | (refine (State.each_spine _ ?_ _ _).trans ?_) | split | rfl)

@[simp ↓] theorem State.delPoison_spine : ∀ (s : State) (x1 : ℕ) (x2 : ℕ), (State.delPoison s x1 x2).spine = s.spine := by intros; rfl

@[simp ↓] theorem State.returnCredit_spine : ∀ (s : State) (x1 : ℕ) (x2 : Bool), (State.returnCredit s x1 x2).spine = s.spine := by intros; simp [State.returnCredit]

@[simp ↓] theorem State.payCredits_spine : ∀ (s : State) (x1 : ℕ), (State.payCredits s x1).spine = s.spine := by intros; simp [State.payCredits]

@[simp ↓] theorem State.holdStore_spine : ∀ (s : State) (x1 : ℕ), (State.holdStore s x1).spine = s.spine := by
  intros; unfold State.holdStore; repeat' (first | (intro _) | simp | (refine (State.each_spine _ ?_ _ _).trans ?_) | split | rfl)

@[simp ↓] theorem State.failOut_spine : ∀ (s : State) (x1 : ℕ) (x2 : ℕ) (x3 : ℕ) (x4 : Bool × Bool), (State.failOut s x1 x2 x3 x4).spine = s.spine := by intros; simp [State.failOut]

@[simp ↓] theorem State.countFail_spine : ∀ (s : State) (x1 : ℕ) (x2 : ℕ) (x3 : ℕ) (x4 : ReqOp) (x5 : ℕ) (x6 : Option ℕ), (State.countFail s x1 x2 x3 x4 x5 x6).spine = s.spine := by
  intros; unfold State.countFail; repeat' (first | (intro _) | simp | (refine (State.each_spine _ ?_ _ _).trans ?_) | split | rfl)

@[simp ↓] theorem State.flushEcho_spine : ∀ (s : State) (x1 : ℕ), (State.flushEcho s x1).spine = s.spine := by intros; simp [State.flushEcho]

@[simp ↓] theorem State.flushRel_spine : ∀ (s : State) (x1 : ℕ), (State.flushRel s x1).spine = s.spine := by intros; simp [State.flushRel]

@[simp ↓] theorem State.echo_spine : ∀ (s : State) (x1 : Req) (x2 : ℕ), (State.echo s x1 x2).2.spine = s.spine := by intros; simp [State.echo]

@[simp ↓] theorem State.release_spine : ∀ (s : State) (x1 : ℕ) (x2 : Option ℕ), (State.release s x1 x2).spine = s.spine := by
  intros; unfold State.release; repeat' (first | (intro _) | simp | (refine (State.each_spine _ ?_ _ _).trans ?_) | split | rfl)

@[simp ↓] theorem State.sendReq_spine : ∀ (s : State) (x1 : ℕ) (x2 : ℕ) (x3 : Req), (State.sendReq s x1 x2 x3).spine = s.spine := by intros; simp [State.sendReq]

@[simp ↓] theorem State.pump_spine (i n : Nat) : ∀ (k : Nat) (s : State), (State.pump i n k s).spine = s.spine
  | 0, s => by unfold State.pump; rfl
  | k + 1, s => by
    have ih := State.pump_spine i n k
    unfold State.pump; repeat' (first | (intro _) | simp [ih] | (refine (State.each_spine _ ?_ _ _).trans ?_) | split | rfl)

@[simp ↓] theorem State.pumpAll_spine : ∀ (s : State) (x1 : ℕ), (State.pumpAll s x1).spine = s.spine := by
  intros; unfold State.pumpAll; repeat' (first | (intro _) | simp | (refine (State.each_spine _ ?_ _ _).trans ?_) | split | rfl)

@[simp ↓] theorem State.pumpFrom_spine : ∀ (s : State) (x1 : ℕ), (State.pumpFrom s x1).spine = s.spine := by
  intros; unfold State.pumpFrom; repeat' (first | (intro _) | simp | (refine (State.each_spine _ ?_ _ _).trans ?_) | split | rfl)

@[simp ↓] theorem State.keep_spine : ∀ (s : State) (x1 : Req) (x2 : Own) (x3 : ℕ) (x4 : KSt), (State.keep s x1 x2 x3 x4).spine = s.spine := by
  intros; unfold State.keep; repeat' (first | (intro _) | simp | (refine (State.each_spine _ ?_ _ _).trans ?_) | split | rfl)

@[simp ↓] theorem State.holdReq_spine : ∀ (s : State) (x1 : Req) (x2 : ℕ), (State.holdReq s x1 x2).spine = s.spine := by intros; simp [State.holdReq]

@[simp ↓] theorem State.unkeep_spine : ∀ (s : State) (x1 : ℕ) (x2 : ℕ), (State.unkeep s x1 x2).spine = s.spine := by intros; simp [State.unkeep]

@[simp ↓] theorem State.sendAck_spine : ∀ (s : State) (x1 : ℕ) (x2 : Ack), (State.sendAck s x1 x2).spine = s.spine := by intros; simp [State.sendAck]

@[simp ↓] theorem State.conflict_spine : ∀ (s : State) (x1 : Req) (x2 : ℕ), (State.conflict s x1 x2).spine = s.spine := by intros; simp [State.conflict]

@[simp ↓] theorem State.ackStep_spine : ∀ (s : State) (x1 : ℕ), (State.ackStep s x1).spine = s.spine := by
  intros; unfold State.ackStep; repeat' (first | (intro _) | simp | (refine (State.each_spine _ ?_ _ _).trans ?_) | split | rfl)

@[simp ↓] theorem State.answerHere_spine : ∀ (s : State) (x1 : ℕ) (x2 : Kept), (State.answerHere s x1 x2).spine = s.spine := by intros; simp [State.answerHere]

@[simp ↓] theorem State.sendOff_spine : ∀ (s : State) (x1 : ℕ) (x2 : Kept), (State.sendOff s x1 x2).spine = s.spine := by intros; simp [State.sendOff]

@[simp ↓] theorem State.launch_spine : ∀ (s : State) (x1 : ℕ) (x2 : ℕ), (State.launch s x1 x2).spine = s.spine := by
  intros; unfold State.launch; repeat' (first | (intro _) | simp | (refine (State.each_spine _ ?_ _ _).trans ?_) | split | rfl)

@[simp ↓] theorem State.echoGo_spine : ∀ (s : State) (x1 : ℕ), (State.echoGo s x1).spine = s.spine := by
  intros; unfold State.echoGo; repeat' (first | (intro _) | simp | (refine (State.each_spine _ ?_ _ _).trans ?_) | split | rfl)

@[simp ↓] theorem State.passEcho_spine : ∀ (s : State) (x1 : Req) (x2 : ℕ), (State.passEcho s x1 x2).spine = s.spine := by intros; simp [State.passEcho]

@[simp ↓] theorem State.takeIn_spine : ∀ (s : State) (x1 : Req) (x2 : ℕ), (State.takeIn s x1 x2).spine = s.spine := by
  intros; unfold State.takeIn; repeat' (first | (intro _) | simp | (refine (State.each_spine _ ?_ _ _).trans ?_) | split | rfl)

@[simp ↓] theorem State.overrun_spine : ∀ (s : State) (x1 : ℕ) (x2 : ℕ) (x3 : Bool) (x4 : ℕ), (State.overrun s x1 x2 x3 x4).spine = s.spine := by
  intros; unfold State.overrun; repeat' (first | (intro _) | simp | (refine (State.each_spine _ ?_ _ _).trans ?_) | split | rfl)

@[simp ↓] theorem State.judge_spine : ∀ (s : State) (x1 : M2S) (x2 : ReqOp) (x3 : Line) (x4 : Quad) (x5 : Bool), (State.judge s x1 x2 x3 x4 x5).spine = s.spine := by
  intros; unfold State.judge; repeat' (first | (intro _) | simp | (refine (State.each_spine _ ?_ _ _).trans ?_) | split | rfl)

@[simp ↓] theorem State.arrive_spine : ∀ (s : State) (x1 : M2S) (x2 : ReqOp) (x3 : Line) (x4 : Quad), (State.arrive s x1 x2 x3 x4).spine = s.spine := by intros; simp [State.arrive]

@[simp ↓] theorem State.sendResp_spine : ∀ (s : State) (x1 : ℕ) (x2 : Kept) (x3 : Option (Line × Bool)) (x4 : Option NdrKind), (State.sendResp s x1 x2 x3 x4).spine = s.spine := by
  intros; unfold State.sendResp; repeat' (first | (intro _) | simp | (refine (State.each_spine _ ?_ _ _).trans ?_) | split | rfl)

@[simp ↓] theorem State.respond_spine : ∀ (s : State) (x1 : ℕ) (x2 : ℕ) (x3 : Option (Line × Bool)) (x4 : Option NdrKind) (x5 : ℕ), (State.respond s x1 x2 x3 x4 x5).spine = s.spine := by
  intros; unfold State.respond; repeat' (first | (intro _) | simp | (refine (State.each_spine _ ?_ _ _).trans ?_) | split | rfl)

@[simp ↓] theorem State.failKept_spine : ∀ (s : State) (x1 : ℕ) (x2 : Kept), (State.failKept s x1 x2).spine = s.spine := by
  intros; unfold State.failKept; repeat' (first | (intro _) | simp | (refine (State.each_spine _ ?_ _ _).trans ?_) | split | rfl)

@[simp ↓] theorem State.flushPack_spine : ∀ (s : State) (x1 : ℕ), (State.flushPack s x1).spine = s.spine := by intros; simp [State.flushPack]

@[simp ↓] theorem State.flushSettle_spine : ∀ (s : State), (State.flushSettle s).spine = s.spine := by
  intros; unfold State.flushSettle; repeat' (first | (intro _) | simp | (refine (State.each_spine _ ?_ _ _).trans ?_) | split | rfl)

@[simp ↓] theorem State.launchHeld_spine : ∀ (s : State) (x1 : ℕ), (State.launchHeld s x1).spine = s.spine := by
  intros; unfold State.launchHeld; repeat' (first | (intro _) | simp | (refine (State.each_spine _ ?_ _ _).trans ?_) | split | rfl)

@[simp ↓] theorem State.launchFwd_spine : ∀ (s : State), (State.launchFwd s).spine = s.spine := by
  intros; unfold State.launchFwd; repeat' (first | (intro _) | simp | (refine (State.each_spine _ ?_ _ _).trans ?_) | split | rfl)

@[simp ↓] theorem State.roleStep_spine : ∀ (s : State) (x1 : ℕ), (State.roleStep s x1).spine = s.spine := by
  intros; unfold State.roleStep; repeat' (first | (intro _) | simp | (refine (State.each_spine _ ?_ _ _).trans ?_) | split | rfl)

@[simp ↓] theorem State.drainPart_spine : ∀ (s : State) (x1 : ℕ), (State.drainPart s x1).spine = s.spine := by
  intros; unfold State.drainPart; repeat' (first | (intro _) | simp | (refine (State.each_spine _ ?_ _ _).trans ?_) | split | rfl)

@[simp ↓] theorem State.mirrorGen_spine : ∀ (s : State) (x1 : ℕ), (State.mirrorGen s x1).spine = s.spine := by intros; simp [State.mirrorGen]

@[simp ↓] theorem State.saveGen_spine : ∀ (s : State), (State.saveGen s).spine = s.spine := by intros; simp [State.saveGen]

@[simp ↓] theorem State.advanceDg_spine : ∀ (s : State) (x1 : ℕ) (x2 : ℕ), (State.advanceDg s x1 x2).spine = s.spine := by intros; simp [State.advanceDg]

@[simp ↓] theorem State.media_spine : ∀ (s : State) (x1 : ℕ) (x2 : ℕ) (x3 : Purp) (x4 : ℕ) (x5 : ℕ) (x6 : Bool) (x7 : Codeword), (State.media s x1 x2 x3 x4 x5 x6 x7).spine = s.spine := by intros; simp [State.media]

@[simp ↓] theorem State.mediaWrite_spine : ∀ (s : State) (x1 : ℕ) (x2 : Purp) (x3 : ℕ) (x4 : Line) (x5 : Meta), (State.mediaWrite s x1 x2 x3 x4 x5).spine = s.spine := by
  intros; unfold State.mediaWrite; repeat' (first | (intro _) | simp | (refine (State.each_spine _ ?_ _ _).trans ?_) | split | rfl)

@[simp ↓] theorem State.endResv_spine : ∀ (s : State) (x1 : ℕ) (x2 : ℕ), (State.endResv s x1 x2).spine = s.spine := by intros; simp [State.endResv]

@[simp ↓] theorem State.takeWay_spine : ∀ (s : State) (x1 : ℕ) (x2 : ℕ) (x3 : ℕ), (State.takeWay s x1 x2 x3).2.spine = s.spine := by
  intros; unfold State.takeWay; repeat' (first | (intro _) | simp | (refine (State.each_spine _ ?_ _ _).trans ?_) | split | rfl)

@[simp ↓] theorem State.holdLine_spine : ∀ (s : State) (x1 : ℕ) (x2 : ℕ) (x3 : ℕ), (State.holdLine s x1 x2 x3).spine = s.spine := by intros; simp [State.holdLine]

@[simp ↓] theorem State.askClean_spine : ∀ (s : State) (x1 : ℕ) (x2 : ℕ), (State.askClean s x1 x2).spine = s.spine := by intros; simp [State.askClean]

@[simp ↓] theorem State.chooseGrn_spine : ∀ (s : State) (x1 : ℕ) (x2 : Option ℕ) (x3 : ℕ) (x4 : ℕ), (State.chooseGrn s x1 x2 x3 x4).2.spine = s.spine := by
  intros; unfold State.chooseGrn; repeat' (first | (intro _) | simp | (refine (State.each_spine _ ?_ _ _).trans ?_) | split | rfl)

@[simp ↓] theorem State.fillWay_spine : ∀ (s : State) (x1 : ℕ) (x2 : ℕ) (x3 : Fill), (State.fillWay s x1 x2 x3).spine = s.spine := by intros; simp [State.fillWay]

@[simp ↓] theorem State.dirtyPast_spine : ∀ (s : State) (x1 : ℕ) (x2 : Fill), (State.dirtyPast s x1 x2).spine = s.spine := by intros; simp [State.dirtyPast]

@[simp ↓] theorem State.endWait_spine : ∀ (s : State) (x1 : ℕ) (x2 : Waiter), (State.endWait s x1 x2).spine = s.spine := by
  intros; unfold State.endWait; repeat' (first | (intro _) | simp | (refine (State.each_spine _ ?_ _ _).trans ?_) | split | rfl)

@[simp ↓] theorem State.endWaits_spine : ∀ (s : State) (x1 : ℕ), (State.endWaits s x1).spine = s.spine := by
  intros; unfold State.endWaits; repeat' (first | (intro _) | simp | (refine (State.each_spine _ ?_ _ _).trans ?_) | split | rfl)

@[simp ↓] theorem State.giveWays_spine (n key : Nat) : ∀ (k : Nat) (s : State), (State.giveWays n key k s).spine = s.spine
  | 0, s => by unfold State.giveWays; rfl
  | k + 1, s => by
    have ih := State.giveWays_spine n key k
    unfold State.giveWays; repeat' (first | (intro _) | simp [ih] | (refine (State.each_spine _ ?_ _ _).trans ?_) | split | rfl)

@[simp ↓] theorem State.giveWay_spine : ∀ (s : State) (x1 : ℕ) (x2 : ℕ), (State.giveWay s x1 x2).spine = s.spine := by intros; simp [State.giveWay]

@[simp ↓] theorem State.readFill_spine : ∀ (s : State) (x1 : ℕ) (x2 : ℕ) (x3 : Entry) (x4 : Line) (x5 : Meta), (State.readFill s x1 x2 x3 x4 x5).spine = s.spine := by
  intros; unfold State.readFill; repeat' (first | (intro _) | simp | (refine (State.each_spine _ ?_ _ _).trans ?_) | split | rfl)

@[simp ↓] theorem State.dropWay_spine : ∀ (s : State) (x1 : ℕ) (x2 : ℕ) (x3 : Entry), (State.dropWay s x1 x2 x3).spine = s.spine := by
  intros; unfold State.dropWay; repeat' (first | (intro _) | simp | (refine (State.each_spine _ ?_ _ _).trans ?_) | split | rfl)

@[simp ↓] theorem State.dropLine_spine : ∀ (s : State) (x1 : ℕ) (x2 : ℕ), (State.dropLine s x1 x2).spine = s.spine := by
  intros; unfold State.dropLine; repeat' (first | (intro _) | simp | (refine (State.each_spine _ ?_ _ _).trans ?_) | split | rfl)

@[simp ↓] theorem State.placeDirty_spine : ∀ (s : State) (x1 : ℕ) (x2 : ℕ) (x3 : Fill), (State.placeDirty s x1 x2 x3).spine = s.spine := by
  intros; unfold State.placeDirty; repeat' (first | (intro _) | simp | (refine (State.each_spine _ ?_ _ _).trans ?_) | split | rfl)

@[simp ↓] theorem State.logCe_spine : ∀ (s : State) (x1 : ℕ) (x2 : ℕ) (x3 : ℕ) (x4 : ℕ) (x5 : ℕ) (x6 : ℕ) (x7 : ℕ), (State.logCe s x1 x2 x3 x4 x5 x6 x7).spine = s.spine := by
  intros; unfold State.logCe; repeat' (first | (intro _) | simp | (refine (State.each_spine _ ?_ _ _).trans ?_) | split | rfl)

@[simp ↓] theorem State.markWb_spine : ∀ (s : State) (x1 : ℕ) (x2 : ℕ), (State.markWb s x1 x2).spine = s.spine := by intros; simp [State.markWb]

@[simp ↓] theorem State.setLedger_spine : ∀ (s : State) (x1 : ℕ) (x2 : ℕ) (x3 : ℕ), (State.setLedger s x1 x2 x3).spine = s.spine := by intros; simp [State.setLedger]

@[simp ↓] theorem State.splitMark_spine : ∀ (s : State) (x1 : ℕ) (x2 : ℕ), (State.splitMark s x1 x2).2.spine = s.spine := by
  intros; unfold State.splitMark; repeat' (first | (intro _) | simp | (refine (State.each_spine _ ?_ _ _).trans ?_) | split | rfl)

@[simp ↓] theorem State.putMap_spine : ∀ (s : State) (x1 : ℕ) (x2 : Quad), (State.putMap s x1 x2).spine = s.spine := by intros; simp [State.putMap]

@[simp ↓] theorem State.setTractState_spine : ∀ (s : State) (x1 : ℕ) (x2 : ℕ), (State.setTractState s x1 x2).spine = s.spine := by
  intros; unfold State.setTractState; repeat' (first | (intro _) | simp | (refine (State.each_spine _ ?_ _ _).trans ?_) | split | rfl)

@[simp ↓] theorem State.dropMove_spine : ∀ (s : State) (x1 : Move), (State.dropMove s x1).spine = s.spine := by
  intros; unfold State.dropMove; repeat' (first | (intro _) | simp | (refine (State.each_spine _ ?_ _ _).trans ?_) | split | rfl)

@[simp ↓] theorem State.abandonMove_spine : ∀ (s : State) (x1 : ℕ), (State.abandonMove s x1).spine = s.spine := by
  intros; unfold State.abandonMove; repeat' (first | (intro _) | simp | (refine (State.each_spine _ ?_ _ _).trans ?_) | split | rfl)

@[simp ↓] theorem State.freeze_spine : ∀ (s : State) (x1 : ℕ) (x2 : ℕ) (x3 : Bool), (State.freeze s x1 x2 x3).spine = s.spine := by intros; simp [State.freeze]

@[simp ↓] theorem State.unlist_spine : ∀ (s : State) (x1 : ℕ), (State.unlist s x1).spine = s.spine := by intros; simp [State.unlist]

@[simp ↓] theorem State.retireMove_spine : ∀ (s : State) (x1 : Move), (State.retireMove s x1).spine = s.spine := by intros; simp [State.retireMove]

@[simp ↓] theorem State.retireTract_spine : ∀ (s : State) (x1 : ℕ), (State.retireTract s x1).spine = s.spine := by
  intros; unfold State.retireTract; repeat' (first | (intro _) | simp | (refine (State.each_spine _ ?_ _ _).trans ?_) | split | rfl)

@[simp ↓] theorem State.retirePort_spine : ∀ (s : State) (x1 : ℕ), (State.retirePort s x1).spine = s.spine := by
  intros; unfold State.retirePort; repeat' (first | (intro _) | simp | (refine (State.each_spine _ ?_ _ _).trans ?_) | split | rfl)

@[simp ↓] theorem State.laneFault_spine : ∀ (s : State) (x1 : ℕ) (x2 : ℕ), (State.laneFault s x1 x2).spine = s.spine := by intros; simp [State.laneFault]

@[simp ↓] theorem State.feedBit_spine : ∀ (s : State) (x1 : ℕ) (x2 : ℕ) (x3 : ℕ) (x4 : ℕ) (x5 : ℕ) (x6 : LaneCtl), (State.feedBit s x1 x2 x3 x4 x5 x6).spine = s.spine := by
  intros; unfold State.feedBit; repeat' (first | (intro _) | simp | (refine (State.each_spine _ ?_ _ _).trans ?_) | split | rfl)

@[simp ↓] theorem State.corrected_spine : ∀ (s : State) (x1 : ℕ) (x2 : ℕ) (x3 : ℕ) (x4 : ℕ) (x5 : ℕ) (x6 : LaneCtl), (State.corrected s x1 x2 x3 x4 x5 x6).spine = s.spine := by
  intros; unfold State.corrected; repeat' (first | (intro _) | simp | (refine (State.each_spine _ ?_ _ _).trans ?_) | split | rfl)

@[simp ↓] theorem State.decode_spine : ∀ (s : State) (x1 : ℕ) (x2 : MOp) (x3 : Codeword) (x4 : LaneCtl), (State.decode s x1 x2 x3 x4).2.spine = s.spine := by
  intros; unfold State.decode; repeat' (first | (intro _) | simp | (refine (State.each_spine _ ?_ _ _).trans ?_) | split | rfl)

@[simp ↓] theorem State.dropOp_spine : ∀ (s : State) (x1 : ℕ) (x2 : ℕ), (State.dropOp s x1 x2).spine = s.spine := by intros; simp [State.dropOp]

@[simp ↓] theorem State.colourBad_spine : ∀ (s : State) (x1 : ℕ) (x2 : ℕ) (x3 : ℕ), (State.colourBad s x1 x2 x3).spine = s.spine := by intros; simp [State.colourBad]

@[simp ↓] theorem State.genBad_spine : ∀ (s : State) (x1 : ℕ) (x2 : ℕ), (State.genBad s x1 x2).spine = s.spine := by intros; simp [State.genBad]

@[simp ↓] theorem State.lostLine_spine : ∀ (s : State) (x1 : ℕ) (x2 : ℕ) (x3 : ℕ), (State.lostLine s x1 x2 x3).spine = s.spine := by intros; simp [State.lostLine]

@[simp ↓] theorem State.noteDir_spine : ∀ (s : State) (x1 : ℕ) (x2 : DirW), (State.noteDir s x1 x2).spine = s.spine := by intros; simp [State.noteDir]

@[simp ↓] theorem State.putDirW_spine : ∀ (s : State) (x1 : ℕ) (x2 : DirW), (State.putDirW s x1 x2).spine = s.spine := by intros; simp [State.putDirW]

@[simp ↓] theorem State.dirWrite_spine : ∀ (s : State) (x1 : ℕ) (x2 : ℕ) (x3 : ℕ) (x4 : ℕ) (x5 : Bool) (x6 : Option ℕ) (x7 : Option ℕ), (State.dirWrite s x1 x2 x3 x4 x5 x6 x7).2.spine = s.spine := by
  intros; unfold State.dirWrite; repeat' (first | (intro _) | simp | (refine (State.each_spine _ ?_ _ _).trans ?_) | split | rfl)

@[simp ↓] theorem State.wholeWrite_spine : ∀ (s : State) (x1 : ℕ) (x2 : ℕ) (x3 : Line) (x4 : Meta) (x5 : Option ℕ), (State.wholeWrite s x1 x2 x3 x4 x5).2.spine = s.spine := by
  intros; unfold State.wholeWrite; repeat' (first | (intro _) | simp | (refine (State.each_spine _ ?_ _ _).trans ?_) | split | rfl)

@[simp ↓] theorem State.refreshLine_spine : ∀ (s : State) (x1 : ℕ) (x2 : ℕ), (State.refreshLine s x1 x2).spine = s.spine := by
  intros; unfold State.refreshLine; repeat' (first | (intro _) | simp | (refine (State.each_spine _ ?_ _ _).trans ?_) | split | rfl)

@[simp ↓] theorem State.rehold_spine : ∀ (s : State) (x1 : ℕ) (x2 : DirW), (State.rehold s x1 x2).spine = s.spine := by intros; simp [State.rehold]

@[simp ↓] theorem State.poisonGrn_spine : ∀ (s : State) (x1 : ℕ) (x2 : ℕ), (State.poisonGrn s x1 x2).spine = s.spine := by
  intros; unfold State.poisonGrn; repeat' (first | (intro _) | simp | (refine (State.each_spine _ ?_ _ _).trans ?_) | split | rfl)

@[simp ↓] theorem State.spillTo_spine : ∀ (s : State) (x1 : ℕ) (x2 : ℕ) (x3 : ℕ) (x4 : FEntry), (State.spillTo s x1 x2 x3 x4).spine = s.spine := by
  intros; unfold State.spillTo; repeat' (first | (intro _) | simp | (refine (State.each_spine _ ?_ _ _).trans ?_) | split | rfl)

@[simp ↓] theorem State.giveFltWay_spine : ∀ (s : State) (x1 : ℕ) (x2 : ℕ) (x3 : ℕ) (x4 : ℕ), (State.giveFltWay s x1 x2 x3 x4).2.spine = s.spine := by
  intros; unfold State.giveFltWay; repeat' (first | (intro _) | simp | (refine (State.each_spine _ ?_ _ _).trans ?_) | split | rfl)

@[simp ↓] theorem State.almRoom_spine (s : State) : s.almRoom.spine = s.spine := by
  unfold State.almRoom
  split
  · rfl
  · dsimp only
    split
    · rfl
    · split <;> simp

@[simp ↓] theorem State.bumpSrc_spine : ∀ (s : State) (x1 : ℕ) (x2 : ℕ) (x3 : ℕ), (State.bumpSrc s x1 x2 x3).spine = s.spine := by intros; simp [State.bumpSrc]

@[simp ↓] theorem State.almMark_spine : ∀ (s : State) (x1 : ℕ) (x2 : ℕ), (State.almMark s x1 x2).spine = s.spine := by intros; simp [State.almMark]

@[simp ↓] theorem State.almanac_spine : ∀ (s : State) (x1 : Ev) (x2 : RecFlags) (x3 : Bool), (State.almanac s x1 x2 x3).2.spine = s.spine := by
  intros; unfold State.almanac; repeat' (first | (intro _) | simp | (refine (State.each_spine _ ?_ _ _).trans ?_) | split | rfl)

@[simp ↓] theorem State.blkRecord_spine : ∀ (s : State) (x1 : ℕ) (x2 : EvRec), (State.blkRecord s x1 x2).spine = s.spine := by intros; simp [State.blkRecord]

@[simp ↓] theorem State.serviceReq_spine : ∀ (s : State) (x1 : ℕ), (State.serviceReq s x1).spine = s.spine := by intros; simp [State.serviceReq]

@[simp ↓] theorem State.takeOut_spine : ∀ (s : State) (x1 : RScope), (State.takeOut s x1).spine = s.spine := by intros; simp [State.takeOut]

@[simp ↓] theorem State.putBack_spine : ∀ (s : State) (x1 : RScope), (State.putBack s x1).spine = s.spine := by intros; simp [State.putBack]

@[simp ↓] theorem State.endReact_spine : ∀ (s : State) (x1 : RKind) (x2 : RScope), (State.endReact s x1 x2).spine = s.spine := by intros; simp [State.endReact]

@[simp ↓] theorem State.pruneReacts_spine : ∀ (s : State), (State.pruneReacts s).spine = s.spine := by intros; simp [State.pruneReacts]

@[simp ↓] theorem State.openReact_spine : ∀ (s : State) (x1 : Ev) (x2 : RKind) (x3 : RScope) (x4 : ℕ) (x5 : Bool), (State.openReact s x1 x2 x3 x4 x5).spine = s.spine := by intros; simp [State.openReact]

@[simp ↓] theorem State.escalate_spine : ∀ (s : State) (x1 : ℕ), (State.escalate s x1).spine = s.spine := by intros; simp [State.escalate]

@[simp ↓] theorem State.countEv_spine : ∀ (s : State) (x1 : ℕ) (x2 : ℕ) (x3 : ℕ), (State.countEv s x1 x2 x3).2.spine = s.spine := by intros; simp [State.countEv]

@[simp ↓] theorem State.classify_spine : ∀ (s : State) (x1 : Ev), (State.classify s x1).2.spine = s.spine := by
  intros; unfold State.classify; repeat' (first | (intro _) | simp | (refine (State.each_spine _ ?_ _ _).trans ?_) | split | rfl)

@[simp ↓] theorem State.takeLost_spine : ∀ (s : State) (x1 : ℕ), (State.takeLost s x1).spine = s.spine := by
  intros; unfold State.takeLost; repeat' (first | (intro _) | simp | (refine (State.each_spine _ ?_ _ _).trans ?_) | split | rfl)

end Sys2Proof.Machine
end

