-- ==== Sys2Proof/Laws/SpineCmd.lean ====
section
/-! SUPPORT. The spine of the state (the queue, scratch, the time, the fail-safe state, the OTP contents) under every operation: the mailbox commands. -/

set_option linter.all false

namespace Sys2Proof.Machine

@[simp ↓] theorem State.otpVotes_spine : ∀ (s : State) (x1 : BitVec 16384), (State.otpVotes s x1).spine = s.spine := by
  intros; unfold State.otpVotes; repeat' (first | (intro _) | simp | (refine (State.each_spine _ ?_ _ _).trans ?_) | split | rfl)

theorem State.otpWrite_spine (s : State) (g i p : Nat) (b : BitVec 16384) : ∃ o, (s.otpWrite g i p b).2.spine = { s.spine with otp := o } := by
  unfold State.otpWrite
  (try dsimp only)
  split
  · exact ⟨_, rfl⟩
  · exact ⟨_, (State.raise_spine _ _ _ _ _ _).trans rfl⟩

@[simp ↓] theorem State.handshake_spine : ∀ (s : State), (State.handshake s).spine = s.spine := by intros; simp [State.handshake]

@[simp ↓] theorem State.frame_spine : ∀ (s : State), (State.frame s).spine = s.spine := by intros; simp [State.frame]

@[simp ↓] theorem State.mbxDone_spine : ∀ (s : State) (x1 : ℕ) (x2 : ℕ) (x3 : List Byte) (x4 : ℕ), (State.mbxDone s x1 x2 x3 x4).spine = s.spine := by intros; simp [State.mbxDone]

@[simp ↓] theorem State.mbxStart_spine : ∀ (s : State) (x1 : ℕ) (x2 : Bg) (x3 : ℕ), (State.mbxStart s x1 x2 x3).spine = s.spine := by intros; simp [State.mbxStart]

@[simp ↓] theorem State.bgEnd_spine : ∀ (s : State) (x1 : ℕ) (x2 : ℕ) (x3 : List Byte), (State.bgEnd s x1 x2 x3).spine = s.spine := by intros; simp [State.bgEnd]

@[simp ↓] theorem State.mbxIgnored_spine : ∀ (s : State) (x1 : ℕ) (x2 : ℕ), (State.mbxIgnored s x1 x2).spine = s.spine := by intros; simp [State.mbxIgnored]

@[simp ↓] theorem State.accept_spine : ∀ (s : State) (x1 : Mbx) (x2 : ℕ) (x3 : Bool), (State.accept s x1 x2 x3).spine = s.spine := by intros; simp [State.accept]

@[simp ↓] theorem State.answer_spine : ∀ (s : State) (x1 : ℕ) (x2 : Reply), (State.answer s x1 x2).spine = s.spine := by
  intros; unfold State.answer; repeat' (first | (intro _) | simp | (refine (State.each_spine _ ?_ _ _).trans ?_) | split | rfl)

theorem State.command_spine (s : State) (c : Mbx) (op : Nat) (k : CmdKind) (body : State → Reply × State)
    (h : ∀ s, (body s).2.spine = s.spine) : (s.command c op k body).spine = s.spine := by
  unfold State.command
  dsimp only
  split
  · rfl
  · split
    · simp
    · split
      · split <;> simp
      · split <;> simp [h]

@[simp ↓] theorem State.abortCommands_spine : ∀ (s : State), (State.abortCommands s).spine = s.spine := by
  intros; unfold State.abortCommands; repeat' (first | (intro _) | simp | (refine (State.each_spine _ ?_ _ _).trans ?_) | split | rfl)

@[simp ↓] theorem State.freeBytes_spine  : ∀ (k : Nat) (s : State), (State.freeBytes k s).2.spine = s.spine
  | 0, s => by unfold State.freeBytes; rfl
  | k + 1, s => by
    have ih := State.freeBytes_spine k
    unfold State.freeBytes; repeat' (first | (intro _) | simp [ih] | (refine (State.each_spine _ ?_ _ _).trans ?_) | (refine (State.command_spine _ _ _ _ _ ?_).trans ?_) | split | rfl)

@[simp ↓] theorem State.identify_spine : ∀ (s : State), (State.identify s).2.spine = s.spine := by intros; simp [State.identify]

theorem execIdentify_spine : ∀ (x0 : Ns) (x1 : Mbx) (s : State), ∃ u, execIdentify x0 x1 s = .next u ∧ u.spine = { s.spine with now := (s.tick x0).now } := by
  intros; refine ⟨_, rfl, ?_⟩; rw [← State.tick_spine]; generalize State.tick _ _ = u; repeat' (first | (intro _) | simp | (refine (State.each_spine _ ?_ _ _).trans ?_) | (refine (State.command_spine _ _ _ _ _ ?_).trans ?_) | split | rfl)

theorem execBackgroundOperationStatus_spine : ∀ (x0 : Ns) (x1 : Mbx) (s : State), ∃ u, execBackgroundOperationStatus x0 x1 s = .next u ∧ u.spine = { s.spine with now := (s.tick x0).now } := by
  intros; refine ⟨_, rfl, ?_⟩; rw [← State.tick_spine]; generalize State.tick _ _ = u; repeat' (first | (intro _) | simp | (refine (State.each_spine _ ?_ _ _).trans ?_) | (refine (State.command_spine _ _ _ _ _ ?_).trans ?_) | split | rfl)

@[simp ↓] theorem State.askAbort_spine : ∀ (s : State) (x1 : ℕ), (State.askAbort s x1).spine = s.spine := by intros; simp [State.askAbort]

theorem execRequestAbortBackgroundOp_spine : ∀ (x0 : Ns) (x1 : Mbx) (s : State), ∃ u, execRequestAbortBackgroundOp x0 x1 s = .next u ∧ u.spine = { s.spine with now := (s.tick x0).now } := by
  intros; refine ⟨_, rfl, ?_⟩; rw [← State.tick_spine]; generalize State.tick _ _ = u; repeat' (first | (intro _) | simp | (refine (State.each_spine _ ?_ _ _).trans ?_) | (refine (State.command_spine _ _ _ _ _ ?_).trans ?_) | split | rfl)

theorem execBgAbort_spine : ∀ (x0 : Ns) (x1 : MbxId) (s : State), ∃ u, execBgAbort x0 x1 s = .next u ∧ u.spine = { s.spine with now := (s.tick x0).now } := by
  intros; refine ⟨_, rfl, ?_⟩; rw [← State.tick_spine]; generalize State.tick _ _ = u; repeat' (first | (intro _) | simp | (refine (State.each_spine _ ?_ _ _).trans ?_) | (refine (State.command_spine _ _ _ _ _ ?_).trans ?_) | split | rfl)

@[simp ↓] theorem State.onLogs_spine : ∀ (s : State) (x1 : ℕ) (x2 : EvLogs → EvLogs), (State.onLogs s x1 x2).spine = s.spine := by intros; simp [State.onLogs]

theorem execGetEventRecords_spine : ∀ (x0 : Ns) (x1 : Mbx) (s : State), ∃ u, execGetEventRecords x0 x1 s = .next u ∧ u.spine = { s.spine with now := (s.tick x0).now } := by
  intros; refine ⟨_, rfl, ?_⟩; rw [← State.tick_spine]; generalize State.tick _ _ = u; repeat' (first | (intro _) | simp | (refine (State.each_spine _ ?_ _ _).trans ?_) | (refine (State.command_spine _ _ _ _ _ ?_).trans ?_) | split | rfl)

theorem execClearEventRecords_spine : ∀ (x0 : Ns) (x1 : Mbx) (s : State), ∃ u, execClearEventRecords x0 x1 s = .next u ∧ u.spine = { s.spine with now := (s.tick x0).now } := by
  intros; refine ⟨_, rfl, ?_⟩; rw [← State.tick_spine]; generalize State.tick _ _ = u; repeat' (first | (intro _) | simp | (refine (State.each_spine _ ?_ _ _).trans ?_) | (refine (State.command_spine _ _ _ _ _ ?_).trans ?_) | split | rfl)

theorem execGetEventInterruptPolicy_spine : ∀ (x0 : Ns) (x1 : Mbx) (s : State), ∃ u, execGetEventInterruptPolicy x0 x1 s = .next u ∧ u.spine = { s.spine with now := (s.tick x0).now } := by
  intros; refine ⟨_, rfl, ?_⟩; rw [← State.tick_spine]; generalize State.tick _ _ = u; repeat' (first | (intro _) | simp | (refine (State.each_spine _ ?_ _ _).trans ?_) | (refine (State.command_spine _ _ _ _ _ ?_).trans ?_) | split | rfl)

theorem execSetEventInterruptPolicy_spine : ∀ (x0 : Ns) (x1 : Mbx) (s : State), ∃ u, execSetEventInterruptPolicy x0 x1 s = .next u ∧ u.spine = { s.spine with now := (s.tick x0).now } := by
  intros; refine ⟨_, rfl, ?_⟩; rw [← State.tick_spine]; generalize State.tick _ _ = u; repeat' (first | (intro _) | simp | (refine (State.each_spine _ ?_ _ _).trans ?_) | (refine (State.command_spine _ _ _ _ _ ?_).trans ?_) | split | rfl)

theorem execGetTimestamp_spine : ∀ (x0 : Ns) (x1 : Mbx) (s : State), ∃ u, execGetTimestamp x0 x1 s = .next u ∧ u.spine = { s.spine with now := (s.tick x0).now } := by
  intros; refine ⟨_, rfl, ?_⟩; rw [← State.tick_spine]; generalize State.tick _ _ = u; repeat' (first | (intro _) | simp | (refine (State.each_spine _ ?_ _ _).trans ?_) | (refine (State.command_spine _ _ _ _ _ ?_).trans ?_) | split | rfl)

theorem execSetTimestamp_spine : ∀ (x0 : Ns) (x1 : Mbx) (s : State), ∃ u, execSetTimestamp x0 x1 s = .next u ∧ u.spine = { s.spine with now := (s.tick x0).now } := by
  intros; refine ⟨_, rfl, ?_⟩; rw [← State.tick_spine]; generalize State.tick _ _ = u; repeat' (first | (intro _) | simp | (refine (State.each_spine _ ?_ _ _).trans ?_) | (refine (State.command_spine _ _ _ _ _ ?_).trans ?_) | split | rfl)

theorem execGetSupportedLogs_spine : ∀ (x0 : Ns) (x1 : Mbx) (s : State), ∃ u, execGetSupportedLogs x0 x1 s = .next u ∧ u.spine = { s.spine with now := (s.tick x0).now } := by
  intros; refine ⟨_, rfl, ?_⟩; rw [← State.tick_spine]; generalize State.tick _ _ = u; repeat' (first | (intro _) | simp | (refine (State.each_spine _ ?_ _ _).trans ?_) | (refine (State.command_spine _ _ _ _ _ ?_).trans ?_) | split | rfl)

theorem execGetLog_spine : ∀ (x0 : Ns) (x1 : Mbx) (s : State), ∃ u, execGetLog x0 x1 s = .next u ∧ u.spine = { s.spine with now := (s.tick x0).now } := by
  intros; refine ⟨_, rfl, ?_⟩; rw [← State.tick_spine]; generalize State.tick _ _ = u; repeat' (first | (intro _) | simp | (refine (State.each_spine _ ?_ _ _).trans ?_) | (refine (State.command_spine _ _ _ _ _ ?_).trans ?_) | split | rfl)

theorem execIdentifyMemoryDevice_spine : ∀ (x0 : Ns) (x1 : Mbx) (s : State), ∃ u, execIdentifyMemoryDevice x0 x1 s = .next u ∧ u.spine = { s.spine with now := (s.tick x0).now } := by
  intros; refine ⟨_, rfl, ?_⟩; rw [← State.tick_spine]; generalize State.tick _ _ = u; repeat' (first | (intro _) | simp | (refine (State.each_spine _ ?_ _ _).trans ?_) | (refine (State.command_spine _ _ _ _ _ ?_).trans ?_) | split | rfl)

theorem execGetPartitionInfo_spine : ∀ (x0 : Ns) (x1 : Mbx) (s : State), ∃ u, execGetPartitionInfo x0 x1 s = .next u ∧ u.spine = { s.spine with now := (s.tick x0).now } := by
  intros; refine ⟨_, rfl, ?_⟩; rw [← State.tick_spine]; generalize State.tick _ _ = u; repeat' (first | (intro _) | simp | (refine (State.each_spine _ ?_ _ _).trans ?_) | (refine (State.command_spine _ _ _ _ _ ?_).trans ?_) | split | rfl)

theorem execGetHealthInfo_spine : ∀ (x0 : Ns) (x1 : Mbx) (s : State), ∃ u, execGetHealthInfo x0 x1 s = .next u ∧ u.spine = { s.spine with now := (s.tick x0).now } := by
  intros; refine ⟨_, rfl, ?_⟩; rw [← State.tick_spine]; generalize State.tick _ _ = u; repeat' (first | (intro _) | simp | (refine (State.each_spine _ ?_ _ _).trans ?_) | (refine (State.command_spine _ _ _ _ _ ?_).trans ?_) | split | rfl)

theorem execGetAlertConfiguration_spine : ∀ (x0 : Ns) (x1 : Mbx) (s : State), ∃ u, execGetAlertConfiguration x0 x1 s = .next u ∧ u.spine = { s.spine with now := (s.tick x0).now } := by
  intros; refine ⟨_, rfl, ?_⟩; rw [← State.tick_spine]; generalize State.tick _ _ = u; repeat' (first | (intro _) | simp | (refine (State.each_spine _ ?_ _ _).trans ?_) | (refine (State.command_spine _ _ _ _ _ ?_).trans ?_) | split | rfl)

theorem execSetAlertConfiguration_spine : ∀ (x0 : Ns) (x1 : Mbx) (s : State), ∃ u, execSetAlertConfiguration x0 x1 s = .next u ∧ u.spine = { s.spine with now := (s.tick x0).now } := by
  intros; refine ⟨_, rfl, ?_⟩; rw [← State.tick_spine]; generalize State.tick _ _ = u; repeat' (first | (intro _) | simp | (refine (State.each_spine _ ?_ _ _).trans ?_) | (refine (State.command_spine _ _ _ _ _ ?_).trans ?_) | split | rfl)

theorem execGetShutdownState_spine : ∀ (x0 : Ns) (x1 : Mbx) (s : State), ∃ u, execGetShutdownState x0 x1 s = .next u ∧ u.spine = { s.spine with now := (s.tick x0).now } := by
  intros; refine ⟨_, rfl, ?_⟩; rw [← State.tick_spine]; generalize State.tick _ _ = u; repeat' (first | (intro _) | simp | (refine (State.each_spine _ ?_ _ _).trans ?_) | (refine (State.command_spine _ _ _ _ _ ?_).trans ?_) | split | rfl)

theorem execSetShutdownState_spine : ∀ (x0 : Ns) (x1 : Mbx) (s : State), ∃ u, execSetShutdownState x0 x1 s = .next u ∧ u.spine = { s.spine with now := (s.tick x0).now } := by
  intros; refine ⟨_, rfl, ?_⟩; rw [← State.tick_spine]; generalize State.tick _ _ = u; repeat' (first | (intro _) | simp | (refine (State.each_spine _ ?_ _ _).trans ?_) | (refine (State.command_spine _ _ _ _ _ ?_).trans ?_) | split | rfl)

theorem execGetLsa_spine : ∀ (x0 : Ns) (x1 : Mbx) (s : State), ∃ u, execGetLsa x0 x1 s = .next u ∧ u.spine = { s.spine with now := (s.tick x0).now } := by
  intros; refine ⟨_, rfl, ?_⟩; rw [← State.tick_spine]; generalize State.tick _ _ = u; repeat' (first | (intro _) | simp | (refine (State.each_spine _ ?_ _ _).trans ?_) | (refine (State.command_spine _ _ _ _ _ ?_).trans ?_) | split | rfl)

theorem execSetLsa_spine : ∀ (x0 : Ns) (x1 : Mbx) (s : State), ∃ u, execSetLsa x0 x1 s = .next u ∧ u.spine = { s.spine with now := (s.tick x0).now } := by
  intros; refine ⟨_, rfl, ?_⟩; rw [← State.tick_spine]; generalize State.tick _ _ = u; repeat' (first | (intro _) | simp | (refine (State.each_spine _ ?_ _ _).trans ?_) | (refine (State.command_spine _ _ _ _ _ ?_).trans ?_) | split | rfl)

theorem execGetPoisonList_spine : ∀ (x0 : Ns) (x1 : Mbx) (s : State), ∃ u, execGetPoisonList x0 x1 s = .next u ∧ u.spine = { s.spine with now := (s.tick x0).now } := by
  intros; refine ⟨_, rfl, ?_⟩; rw [← State.tick_spine]; generalize State.tick _ _ = u; repeat' (first | (intro _) | simp | (refine (State.each_spine _ ?_ _ _).trans ?_) | (refine (State.command_spine _ _ _ _ _ ?_).trans ?_) | split | rfl)

@[simp ↓] theorem State.lineWrite_spine : ∀ (s : State) (x1 : Own) (x2 : ℕ) (x3 : ℕ) (x4 : Line), (State.lineWrite s x1 x2 x3 x4).spine = s.spine := by intros; simp [State.lineWrite]

@[simp ↓] theorem State.clearLine_spine : ∀ (s : State) (x1 : ℕ) (x2 : ℕ), (State.clearLine s x1 x2).spine = s.spine := by intros; simp [State.clearLine]

theorem execClearPoison_spine : ∀ (x0 : Ns) (x1 : Mbx) (s : State), ∃ u, execClearPoison x0 x1 s = .next u ∧ u.spine = { s.spine with now := (s.tick x0).now } := by
  intros; refine ⟨_, rfl, ?_⟩; rw [← State.tick_spine]; generalize State.tick _ _ = u; repeat' (first | (intro _) | simp | (refine (State.each_spine _ ?_ _ _).trans ?_) | (refine (State.command_spine _ _ _ _ _ ?_).trans ?_) | split | rfl)

@[simp ↓] theorem State.sanitizeStart_spine : ∀ (s : State) (x1 : ℕ), (State.sanitizeStart s x1).2.spine = s.spine := by
  intros; unfold State.sanitizeStart; repeat' (first | (intro _) | simp | (refine (State.each_spine _ ?_ _ _).trans ?_) | (refine (State.command_spine _ _ _ _ _ ?_).trans ?_) | split | rfl)

theorem execSanitize_spine : ∀ (x0 : Ns) (x1 : Mbx) (s : State), ∃ u, execSanitize x0 x1 s = .next u ∧ u.spine = { s.spine with now := (s.tick x0).now } := by
  intros; refine ⟨_, rfl, ?_⟩; rw [← State.tick_spine]; generalize State.tick _ _ = u; repeat' (first | (intro _) | simp | (refine (State.each_spine _ ?_ _ _).trans ?_) | (refine (State.command_spine _ _ _ _ _ ?_).trans ?_) | split | rfl)

theorem execSecureErase_spine : ∀ (x0 : Ns) (x1 : Mbx) (s : State), ∃ u, execSecureErase x0 x1 s = .next u ∧ u.spine = { s.spine with now := (s.tick x0).now } := by
  intros; refine ⟨_, rfl, ?_⟩; rw [← State.tick_spine]; generalize State.tick _ _ = u; repeat' (first | (intro _) | simp | (refine (State.each_spine _ ?_ _ _).trans ?_) | (refine (State.command_spine _ _ _ _ _ ?_).trans ?_) | split | rfl)

theorem execUnsupportedCommand_spine : ∀ (x0 : Ns) (x1 : Mbx) (x2 : BitVec 16) (s : State), ∃ u, execUnsupportedCommand x0 x1 x2 s = .next u ∧ u.spine = { s.spine with now := (s.tick x0).now } := by
  intros; refine ⟨_, rfl, ?_⟩; rw [← State.tick_spine]; generalize State.tick _ _ = u; repeat' (first | (intro _) | simp | (refine (State.each_spine _ ?_ _ _).trans ?_) | (refine (State.command_spine _ _ _ _ _ ?_).trans ?_) | split | rfl)

@[simp ↓] theorem State.loseRef_spine : ∀ (s : State), (State.loseRef s).spine = s.spine := by intros; simp [State.loseRef]

@[simp ↓] theorem State.badWord_spine : ∀ (s : State) (x1 : ℕ), (State.badWord s x1).spine = s.spine := by intros; simp [State.badWord]

theorem execTimeRefLoss_spine : ∀ (x0 : Ns) (s : State), ∃ u, execTimeRefLoss x0 s = .next u ∧ u.spine = { s.spine with now := (s.tick x0).now } := by
  intros; refine ⟨_, rfl, ?_⟩; rw [← State.tick_spine]; generalize State.tick _ _ = u; repeat' (first | (intro _) | simp | (refine (State.each_spine _ ?_ _ _).trans ?_) | (refine (State.command_spine _ _ _ _ _ ?_).trans ?_) | split | rfl)

@[simp ↓] theorem State.goodWord_spine : ∀ (s : State) (x1 : ℕ) (x2 : ℤ), (State.goodWord s x1 x2).spine = s.spine := by
  intros; unfold State.goodWord; repeat' (first | (intro _) | simp | (refine (State.each_spine _ ?_ _ _).trans ?_) | (refine (State.command_spine _ _ _ _ _ ?_).trans ?_) | split | rfl)

theorem execAlignWord_spine : ∀ (x0 : Ns) (x1 : Quad) (x2 : Byte) (x3 : BitVec 16) (s : State), ∃ u, execAlignWord x0 x1 x2 x3 s = .next u ∧ u.spine = { s.spine with now := (s.tick x0).now } := by
  intros; refine ⟨_, rfl, ?_⟩; rw [← State.tick_spine]; generalize State.tick _ _ = u; repeat' (first | (intro _) | simp | (refine (State.each_spine _ ?_ _ _).trans ?_) | (refine (State.command_spine _ _ _ _ _ ?_).trans ?_) | split | rfl)

theorem execAlignWordMissing_spine : ∀ (x0 : Ns) (s : State), ∃ u, execAlignWordMissing x0 s = .next u ∧ u.spine = { s.spine with now := (s.tick x0).now } := by
  intros; refine ⟨_, rfl, ?_⟩; rw [← State.tick_spine]; generalize State.tick _ _ = u; repeat' (first | (intro _) | simp | (refine (State.each_spine _ ?_ _ _).trans ?_) | (refine (State.command_spine _ _ _ _ _ ?_).trans ?_) | split | rfl)

theorem State.stepTime_spine (s : State) : s.stepTime.spine = { s.spine with now := s.stepTime.now } := rfl

theorem execMeridianLock_spine (t : Ns) (s : State) : ∃ u n, execMeridianLock t s = .next u ∧ ((s.tick t).mer.st ≠ .unlocked → n = (s.tick t).now) ∧ u.spine = { s.spine with now := n } := by
  have e := State.tick_spine s t
  suffices ∀ v, execMeridianLock t s = .next v → ∃ n, ((s.tick t).mer.st ≠ .unlocked → n = (s.tick t).now) ∧ v.spine = { s.spine with now := n } by
    obtain ⟨n, hn⟩ := this _ rfl
    exact ⟨_, n, rfl, hn⟩
  intro v hv
  simp only [execMeridianLock, Host.Outcome.next.injEq] at hv
  split at hv
  · rename_i hc
    refine ⟨(s.tick t).stepTime.now, fun hn => absurd hc.1 hn, ?_⟩
    rw [← hv, State.onPwr_spine _ _ (by intro w; rfl), State.onWin_spine _ _ (by intro w; rfl), State.onMer_spine, State.stepTime_spine, e]
  · exact ⟨(s.tick t).now, fun _ => rfl, by rw [← hv, e]⟩

theorem execMeridianLockTimeout_spine : ∀ (x0 : Ns) (s : State), ∃ u, execMeridianLockTimeout x0 s = .next u ∧ u.spine = { s.spine with now := (s.tick x0).now } := by
  intros; refine ⟨_, rfl, ?_⟩; rw [← State.tick_spine]; generalize State.tick _ _ = u; repeat' (first | (intro _) | simp | (refine (State.each_spine _ ?_ _ _).trans ?_) | (refine (State.command_spine _ _ _ _ _ ?_).trans ?_) | split | rfl)

theorem execDomainNoticeTimeout_spine : ∀ (x0 : Ns) (s : State), ∃ u, execDomainNoticeTimeout x0 s = .next u ∧ u.spine = { s.spine with now := (s.tick x0).now } := by
  intros; refine ⟨_, rfl, ?_⟩; rw [← State.tick_spine]; generalize State.tick _ _ = u; repeat' (first | (intro _) | simp | (refine (State.each_spine _ ?_ _ _).trans ?_) | (refine (State.command_spine _ _ _ _ _ ?_).trans ?_) | split | rfl)

@[simp ↓] theorem State.sealSlice_spine : ∀ (s : State) (x1 : ℕ), (State.sealSlice s x1).spine = s.spine := by intros; simp [State.sealSlice]

@[simp ↓] theorem State.domSeal_spine : ∀ (s : State), (State.domSeal s).spine = s.spine := by intros; simp [State.domSeal]

@[simp ↓] theorem State.adopt_spine : ∀ (s : State) (x1 : ℕ × ℕ × ℕ), (State.adopt s x1).spine = s.spine := by intros; simp [State.adopt]

@[simp ↓] theorem State.plateArm_spine : ∀ (s : State) (x1 : ℕ) (x2 : ℕ) (x3 : ℕ), (State.plateArm s x1 x2 x3).spine = s.spine := by
  intros; unfold State.plateArm; repeat' (first | (intro _) | simp | (refine (State.each_spine _ ?_ _ _).trans ?_) | (refine (State.command_spine _ _ _ _ _ ?_).trans ?_) | split | rfl)

@[simp ↓] theorem State.plateDrop_spine : ∀ (s : State) (x1 : ℕ) (x2 : ℕ), (State.plateDrop s x1 x2).spine = s.spine := by
  intros; unfold State.plateDrop; repeat' (first | (intro _) | simp | (refine (State.each_spine _ ?_ _ _).trans ?_) | (refine (State.command_spine _ _ _ _ _ ?_).trans ?_) | split | rfl)

@[simp ↓] theorem State.plateRefs_spine : ∀ (s : State) (x1 : ℕ) (x2 : ℕ) (x3 : Bool), (State.plateRefs s x1 x2 x3).spine = s.spine := by
  intros; unfold State.plateRefs; repeat' (first | (intro _) | simp | (refine (State.each_spine _ ?_ _ _).trans ?_) | (refine (State.command_spine _ _ _ _ _ ?_).trans ?_) | split | rfl)

@[simp ↓] theorem State.freeReserve_spine : ∀ (s : State) (x1 : ℕ) (x2 : List ℕ), (State.freeReserve s x1 x2).spine = s.spine := by
  intros; unfold State.freeReserve; repeat' (first | (intro _) | simp | (refine (State.each_spine _ ?_ _ _).trans ?_) | (refine (State.command_spine _ _ _ _ _ ?_).trans ?_) | split | rfl)

@[simp ↓] theorem State.plateWithdraw_spine : ∀ (s : State) (x1 : ℕ) (x2 : ℕ), (State.plateWithdraw s x1 x2).spine = s.spine := by
  intros; unfold State.plateWithdraw; repeat' (first | (intro _) | simp | (refine (State.each_spine _ ?_ _ _).trans ?_) | (refine (State.command_spine _ _ _ _ _ ?_).trans ?_) | split | rfl)

@[simp ↓] theorem State.exposePlates_spine : ∀ (s : State), (State.exposePlates s).spine = s.spine := by intros; simp [State.exposePlates]

@[simp ↓] theorem State.pairSeal_spine : ∀ (s : State), (State.pairSeal s).spine = s.spine := by intros; simp [State.pairSeal]

@[simp ↓] theorem State.pendPlates_spine : ∀ (s : State) (x1 : ℕ) (x2 : Slot), (State.pendPlates s x1 x2).spine = s.spine := by
  intros; unfold State.pendPlates; repeat' (first | (intro _) | simp | (refine (State.each_spine _ ?_ _ _).trans ?_) | (refine (State.command_spine _ _ _ _ _ ?_).trans ?_) | split | rfl)

@[simp ↓] theorem State.exposeAt_spine : ∀ (s : State) (x1 : ℕ), (State.exposeAt s x1).spine = s.spine := by
  intros; unfold State.exposeAt; repeat' (first | (intro _) | simp | (refine (State.each_spine _ ?_ _ _).trans ?_) | (refine (State.command_spine _ _ _ _ _ ?_).trans ?_) | split | rfl)

@[simp ↓] theorem State.oneBoundary_spine : ∀ (s : State), (State.oneBoundary s).spine = s.spine := by intros; simp [State.oneBoundary]

@[simp ↓] theorem State.boundaries_spine  : ∀ (k : Nat) (s : State), (State.boundaries k s).spine = s.spine
  | 0, s => by unfold State.boundaries; rfl
  | k + 1, s => by
    have ih := State.boundaries_spine k
    unfold State.boundaries; repeat' (first | (intro _) | simp [ih] | (refine (State.each_spine _ ?_ _ _).trans ?_) | (refine (State.command_spine _ _ _ _ _ ?_).trans ?_) | split | rfl)

@[simp ↓] theorem State.toInstant_spine : ∀ (s : State), (State.toInstant s).spine = s.spine := by intros; simp [State.toInstant]

@[simp ↓] theorem State.dropPend_spine : ∀ (s : State) (x1 : Slot), (State.dropPend s x1).spine = s.spine := by
  intros; unfold State.dropPend; repeat' (first | (intro _) | simp | (refine (State.each_spine _ ?_ _ _).trans ?_) | (refine (State.command_spine _ _ _ _ _ ?_).trans ?_) | split | rfl)

@[simp ↓] theorem State.reopenBatch_spine : ∀ (s : State) (x1 : Slot), (State.reopenBatch s x1).spine = s.spine := by intros; simp [State.reopenBatch]

@[simp ↓] theorem State.endSlot_spine : ∀ (s : State) (x1 : ℕ) (x2 : SlotSt) (x3 : ℕ), (State.endSlot s x1 x2 x3).spine = s.spine := by
  intros; unfold State.endSlot; repeat' (first | (intro _) | simp | (refine (State.each_spine _ ?_ _ _).trans ?_) | (refine (State.command_spine _ _ _ _ _ ?_).trans ?_) | split | rfl)

@[simp ↓] theorem State.confirmSlot_spine : ∀ (s : State) (x1 : ℕ), (State.confirmSlot s x1).spine = s.spine := by
  intros; unfold State.confirmSlot; repeat' (first | (intro _) | simp | (refine (State.each_spine _ ?_ _ _).trans ?_) | (refine (State.command_spine _ _ _ _ _ ?_).trans ?_) | split | rfl)

@[simp ↓] theorem State.sendDown_spine : ∀ (s : State) (x1 : ℕ → Out), (State.sendDown s x1).spine = s.spine := by
  intros; unfold State.sendDown; repeat' (first | (intro _) | simp | (refine (State.each_spine _ ?_ _ _).trans ?_) | (refine (State.command_spine _ _ _ _ _ ?_).trans ?_) | split | rfl)

@[simp ↓] theorem State.confirmDown_spine : ∀ (s : State) (x1 : ℕ), (State.confirmDown s x1).spine = s.spine := by
  intros; unfold State.confirmDown; repeat' (first | (intro _) | simp | (refine (State.each_spine _ ?_ _ _).trans ?_) | (refine (State.command_spine _ _ _ _ _ ?_).trans ?_) | split | rfl)

@[simp ↓] theorem State.cancelTwin_spine : ∀ (s : State) (x1 : ℕ) (x2 : Bool), (State.cancelTwin s x1 x2).spine = s.spine := by intros; simp [State.cancelTwin]

@[simp ↓] theorem State.cancelDown_spine : ∀ (s : State) (x1 : ℕ) (x2 : Bool), (State.cancelDown s x1 x2).spine = s.spine := by
  intros; unfold State.cancelDown; repeat' (first | (intro _) | simp | (refine (State.each_spine _ ?_ _ _).trans ?_) | (refine (State.command_spine _ _ _ _ _ ?_).trans ?_) | split | rfl)

@[simp ↓] theorem State.rootDrop_spine : ∀ (s : State) (x1 : ℕ) (x2 : Bool), (State.rootDrop s x1 x2).spine = s.spine := by intros; simp [State.rootDrop]

@[simp ↓] theorem State.rootConf_spine : ∀ (s : State) (x1 : ℕ) (x2 : ℕ) (x3 : Bool) (x4 : ℕ), (State.rootConf s x1 x2 x3 x4).spine = s.spine := by
  intros; unfold State.rootConf; repeat' (first | (intro _) | simp | (refine (State.each_spine _ ?_ _ _).trans ?_) | (refine (State.command_spine _ _ _ _ _ ?_).trans ?_) | split | rfl)

@[simp ↓] theorem State.confUp_spine : ∀ (s : State) (x1 : ℕ) (x2 : Bool), (State.confUp s x1 x2).spine = s.spine := by intros; simp [State.confUp]

@[simp ↓] theorem State.armDown_spine : ∀ (s : State) (x1 : ℕ) (x2 : Slot), (State.armDown s x1 x2).spine = s.spine := by
  intros; unfold State.armDown; repeat' (first | (intro _) | simp | (refine (State.each_spine _ ?_ _ _).trans ?_) | (refine (State.command_spine _ _ _ _ _ ?_).trans ?_) | split | rfl)

@[simp ↓] theorem State.rootTake_spine : ∀ (s : State) (x1 : ℕ) (x2 : Slot), (State.rootTake s x1 x2).spine = s.spine := by intros; simp [State.rootTake]

@[simp ↓] theorem State.armSlot_spine : ∀ (s : State) (x1 : ℕ) (x2 : ℕ), (State.armSlot s x1 x2).2.spine = s.spine := by
  intros; unfold State.armSlot; repeat' (first | (intro _) | simp | (refine (State.each_spine _ ?_ _ _).trans ?_) | (refine (State.command_spine _ _ _ _ _ ?_).trans ?_) | split | rfl)

theorem execInstantArm_spine : ∀ (x0 : Ns) (x1 : SlotId) (s : State), ∃ u, execInstantArm x0 x1 s = .next u ∧ u.spine = { s.spine with now := (s.tick x0).now } := by
  intros; refine ⟨_, rfl, ?_⟩; rw [← State.tick_spine]; generalize State.tick _ _ = u; repeat' (first | (intro _) | simp | (refine (State.each_spine _ ?_ _ _).trans ?_) | (refine (State.command_spine _ _ _ _ _ ?_).trans ?_) | split | rfl)

@[simp ↓] theorem State.ignMer_spine : ∀ (s : State) (x1 : ℕ), (State.ignMer s x1).spine = s.spine := by intros; simp [State.ignMer]

@[simp ↓] theorem State.disarm_spine : ∀ (s : State) (x1 : ℕ), (State.disarm s x1).spine = s.spine := by intros; simp [State.disarm]

theorem execInstantDisarm_spine : ∀ (x0 : Ns) (x1 : SlotId) (s : State), ∃ u, execInstantDisarm x0 x1 s = .next u ∧ u.spine = { s.spine with now := (s.tick x0).now } := by
  intros; refine ⟨_, rfl, ?_⟩; rw [← State.tick_spine]; generalize State.tick _ _ = u; repeat' (first | (intro _) | simp | (refine (State.each_spine _ ?_ _ _).trans ?_) | (refine (State.command_spine _ _ _ _ _ ?_).trans ?_) | split | rfl)

theorem execTwinSlotReceive_spine : ∀ (x0 : Ns) (x1 : PeerSlot) (x2 : BitVec 4) (x3 : BitVec 2) (x4 : BitVec 16) (x5 : Quad) (s : State), ∃ u, execTwinSlotReceive x0 x1 x2 x3 x4 x5 s = .next u ∧ u.spine = { s.spine with now := (s.tick x0).now } := by
  intros; refine ⟨_, rfl, ?_⟩; rw [← State.tick_spine]; generalize State.tick _ _ = u; repeat' (first | (intro _) | simp | (refine (State.each_spine _ ?_ _ _).trans ?_) | (refine (State.command_spine _ _ _ _ _ ?_).trans ?_) | split | rfl)

@[simp ↓] theorem State.unconfirmed_spine : ∀ (s : State) (x1 : ℕ), (State.unconfirmed s x1).spine = s.spine := by
  intros; unfold State.unconfirmed; repeat' (first | (intro _) | simp | (refine (State.each_spine _ ?_ _ _).trans ?_) | (refine (State.command_spine _ _ _ _ _ ?_).trans ?_) | split | rfl)

theorem execTwinSlotAck_spine : ∀ (x0 : Ns) (x1 : SlotId) (x2 : SlotAns) (s : State), ∃ u, execTwinSlotAck x0 x1 x2 s = .next u ∧ u.spine = { s.spine with now := (s.tick x0).now } := by
  intros; refine ⟨_, rfl, ?_⟩; rw [← State.tick_spine]; generalize State.tick _ _ = u; repeat' (first | (intro _) | simp | (refine (State.each_spine _ ?_ _ _).trans ?_) | (refine (State.command_spine _ _ _ _ _ ?_).trans ?_) | split | rfl)

theorem execSlotConfirmDeadline_spine : ∀ (x0 : Ns) (x1 : SlotId) (s : State), ∃ u, execSlotConfirmDeadline x0 x1 s = .next u ∧ u.spine = { s.spine with now := (s.tick x0).now } := by
  intros; refine ⟨_, rfl, ?_⟩; rw [← State.tick_spine]; generalize State.tick _ _ = u; repeat' (first | (intro _) | simp | (refine (State.each_spine _ ?_ _ _).trans ?_) | (refine (State.command_spine _ _ _ _ _ ?_).trans ?_) | split | rfl)

theorem execDomainSlotReceive_spine : ∀ (x0 : Ns) (x1 : TreeSlot) (x2 : BitVec 4) (x3 : BitVec 16) (x4 : Quad) (s : State), ∃ u, execDomainSlotReceive x0 x1 x2 x3 x4 s = .next u ∧ u.spine = { s.spine with now := (s.tick x0).now } := by
  intros; refine ⟨_, rfl, ?_⟩; rw [← State.tick_spine]; generalize State.tick _ _ = u; repeat' (first | (intro _) | simp | (refine (State.each_spine _ ?_ _ _).trans ?_) | (refine (State.command_spine _ _ _ _ _ ?_).trans ?_) | split | rfl)

theorem execDomainSlotConfirm_spine : ∀ (x0 : Ns) (x1 : Fin 512) (s : State), ∃ u, execDomainSlotConfirm x0 x1 s = .next u ∧ u.spine = { s.spine with now := (s.tick x0).now } := by
  intros; refine ⟨_, rfl, ?_⟩; rw [← State.tick_spine]; generalize State.tick _ _ = u; repeat' (first | (intro _) | simp | (refine (State.each_spine _ ?_ _ _).trans ?_) | (refine (State.command_spine _ _ _ _ _ ?_).trans ?_) | split | rfl)

@[simp ↓] theorem State.cancelSlot_spine : ∀ (s : State) (x1 : ℕ), (State.cancelSlot s x1).2.spine = s.spine := by intros; simp [State.cancelSlot]

theorem execSlotCancelReceive_spine : ∀ (x0 : Ns) (x1 : SlotRef) (s : State), ∃ u, execSlotCancelReceive x0 x1 s = .next u ∧ u.spine = { s.spine with now := (s.tick x0).now } := by
  intros; refine ⟨_, rfl, ?_⟩; rw [← State.tick_spine]; generalize State.tick _ _ = u; repeat' (first | (intro _) | simp | (refine (State.each_spine _ ?_ _ _).trans ?_) | (refine (State.command_spine _ _ _ _ _ ?_).trans ?_) | split | rfl)

@[simp ↓] theorem State.abandonSlots_spine : ∀ (s : State), (State.abandonSlots s).spine = s.spine := by
  intros; unfold State.abandonSlots; repeat' (first | (intro _) | simp | (refine (State.each_spine _ ?_ _ _).trans ?_) | (refine (State.command_spine _ _ _ _ _ ?_).trans ?_) | split | rfl)

theorem execEpochLenInstant_spine : ∀ (x0 : Ns) (x1 : SlotId) (s : State), ∃ u, execEpochLenInstant x0 x1 s = .next u ∧ u.spine = { s.spine with now := (s.tick x0).now } := by
  intros; refine ⟨_, rfl, ?_⟩; rw [← State.tick_spine]; generalize State.tick _ _ = u; repeat' (first | (intro _) | simp | (refine (State.each_spine _ ?_ _ _).trans ?_) | (refine (State.command_spine _ _ _ _ _ ?_).trans ?_) | split | rfl)

theorem execSnapshotInstant_spine : ∀ (x0 : Ns) (x1 : SlotId) (s : State), ∃ u, execSnapshotInstant x0 x1 s = .next u ∧ u.spine = { s.spine with now := (s.tick x0).now } := by
  intros; refine ⟨_, rfl, ?_⟩; rw [← State.tick_spine]; generalize State.tick _ _ = u; repeat' (first | (intro _) | simp | (refine (State.each_spine _ ?_ _ _).trans ?_) | (refine (State.command_spine _ _ _ _ _ ?_).trans ?_) | split | rfl)

theorem execSealedEpochPersist_spine : ∀ (x0 : Ns) (s : State), ∃ u, execSealedEpochPersist x0 s = .next u ∧ u.spine = { s.spine with now := (s.tick x0).now } := by
  intros; refine ⟨_, rfl, ?_⟩; rw [← State.tick_spine]; generalize State.tick _ _ = u; repeat' (first | (intro _) | simp | (refine (State.each_spine _ ?_ _ _).trans ?_) | (refine (State.command_spine _ _ _ _ _ ?_).trans ?_) | split | rfl)

@[simp ↓] theorem State.instCmd_spine : ∀ (s : State) (x1 : ℕ) (x2 : ℕ) (x3 : ℕ) (x4 : ℕ) (x5 : ℕ), (State.instCmd s x1 x2 x3 x4 x5).2.spine = s.spine := by
  intros; unfold State.instCmd; repeat' (first | (intro _) | simp | (refine (State.each_spine _ ?_ _ _).trans ?_) | (refine (State.command_spine _ _ _ _ _ ?_).trans ?_) | split | rfl)

theorem execInstantCancel_spine : ∀ (x0 : Ns) (x1 : Mbx) (s : State), ∃ u, execInstantCancel x0 x1 s = .next u ∧ u.spine = { s.spine with now := (s.tick x0).now } := by
  intros; refine ⟨_, rfl, ?_⟩; rw [← State.tick_spine]; generalize State.tick _ _ = u; repeat' (first | (intro _) | simp | (refine (State.each_spine _ ?_ _ _).trans ?_) | (refine (State.command_spine _ _ _ _ _ ?_).trans ?_) | split | rfl)

theorem execInstantList_spine : ∀ (x0 : Ns) (x1 : Mbx) (s : State), ∃ u, execInstantList x0 x1 s = .next u ∧ u.spine = { s.spine with now := (s.tick x0).now } := by
  intros; refine ⟨_, rfl, ?_⟩; rw [← State.tick_spine]; generalize State.tick _ _ = u; repeat' (first | (intro _) | simp | (refine (State.each_spine _ ?_ _ _).trans ?_) | (refine (State.command_spine _ _ _ _ _ ?_).trans ?_) | split | rfl)

theorem execSnapshot_spine : ∀ (x0 : Ns) (x1 : Mbx) (s : State), ∃ u, execSnapshot x0 x1 s = .next u ∧ u.spine = { s.spine with now := (s.tick x0).now } := by
  intros; refine ⟨_, rfl, ?_⟩; rw [← State.tick_spine]; generalize State.tick _ _ = u; repeat' (first | (intro _) | simp | (refine (State.each_spine _ ?_ _ _).trans ?_) | (refine (State.command_spine _ _ _ _ _ ?_).trans ?_) | split | rfl)

theorem execEpochLen_spine : ∀ (x0 : Ns) (x1 : Mbx) (s : State), ∃ u, execEpochLen x0 x1 s = .next u ∧ u.spine = { s.spine with now := (s.tick x0).now } := by
  intros; refine ⟨_, rfl, ?_⟩; rw [← State.tick_spine]; generalize State.tick _ _ = u; repeat' (first | (intro _) | simp | (refine (State.each_spine _ ?_ _ _).trans ?_) | (refine (State.command_spine _ _ _ _ _ ?_).trans ?_) | split | rfl)

theorem execPlateExpose_spine : ∀ (x0 : Ns) (x1 : Mbx) (s : State), ∃ u, execPlateExpose x0 x1 s = .next u ∧ u.spine = { s.spine with now := (s.tick x0).now } := by
  intros; refine ⟨_, rfl, ?_⟩; rw [← State.tick_spine]; generalize State.tick _ _ = u; repeat' (first | (intro _) | simp | (refine (State.each_spine _ ?_ _ _).trans ?_) | (refine (State.command_spine _ _ _ _ _ ?_).trans ?_) | split | rfl)

theorem execRoleMove_spine : ∀ (x0 : Ns) (x1 : Mbx) (s : State), ∃ u, execRoleMove x0 x1 s = .next u ∧ u.spine = { s.spine with now := (s.tick x0).now } := by
  intros; refine ⟨_, rfl, ?_⟩; rw [← State.tick_spine]; generalize State.tick _ _ = u; repeat' (first | (intro _) | simp | (refine (State.each_spine _ ?_ _ _).trans ?_) | (refine (State.command_spine _ _ _ _ _ ?_).trans ?_) | split | rfl)

@[simp ↓] theorem State.putRoots_spine : ∀ (s : State) (x1 : ℕ) (x2 : ℕ), (State.putRoots s x1 x2).spine = s.spine := by
  intros; unfold State.putRoots; repeat' (first | (intro _) | simp | (refine (State.each_spine _ ?_ _ _).trans ?_) | (refine (State.command_spine _ _ _ _ _ ?_).trans ?_) | split | rfl)

theorem State.alloc_spine {s u : State} {fast : Bool} {x : Nat × Nat} (h : s.alloc fast = some (x, u)) : u.spine = s.spine := by
  unfold State.alloc at h
  split at h
  · cases h
  · split at h
    · cases h
    · cases h; simp

@[simp ↓] theorem State.provision_spine (s : State) (p tract : Nat) : (s.provision p tract).spine = s.spine := by
  unfold State.provision
  split
  · rfl
  · split
    · simp [State.alloc_spine ‹_›]
    · rfl

@[simp ↓] theorem State.provisionAll_spine : ∀ (s : State) (x1 : ℕ) (x2 : ℕ) (x3 : ℕ), (State.provisionAll s x1 x2 x3).spine = s.spine := by
  intros; unfold State.provisionAll; repeat' (first | (intro _) | simp | (refine (State.each_spine _ ?_ _ _).trans ?_) | (refine (State.command_spine _ _ _ _ _ ?_).trans ?_) | split | rfl)

@[simp ↓] theorem State.releaseTract_spine : ∀ (s : State) (x1 : ℕ), (State.releaseTract s x1).spine = s.spine := by
  intros; unfold State.releaseTract; repeat' (first | (intro _) | simp | (refine (State.each_spine _ ?_ _ _).trans ?_) | (refine (State.command_spine _ _ _ _ _ ?_).trans ?_) | split | rfl)

@[simp ↓] theorem State.releaseAll_spine : ∀ (s : State) (x1 : ℕ) (x2 : ℕ), (State.releaseAll s x1 x2).spine = s.spine := by
  intros; unfold State.releaseAll; repeat' (first | (intro _) | simp | (refine (State.each_spine _ ?_ _ _).trans ?_) | (refine (State.command_spine _ _ _ _ _ ?_).trans ?_) | split | rfl)

@[simp ↓] theorem State.relocate_spine : ∀ (s : State) (x1 : ℕ) (x2 : ℕ), (State.relocate s x1 x2).spine = s.spine := by
  intros; unfold State.relocate; repeat' (first | (intro _) | simp | (refine (State.each_spine _ ?_ _ _).trans ?_) | (refine (State.command_spine _ _ _ _ _ ?_).trans ?_) | split | rfl)

@[simp ↓] theorem State.unhold_spine : ∀ (s : State) (x1 : ℕ), (State.unhold s x1).spine = s.spine := by
  intros; unfold State.unhold; repeat' (first | (intro _) | simp | (refine (State.each_spine _ ?_ _ _).trans ?_) | (refine (State.command_spine _ _ _ _ _ ?_).trans ?_) | split | rfl)

@[simp ↓] theorem State.setEnable_spine : ∀ (s : State) (x1 : ℕ), (State.setEnable s x1).spine = s.spine := by intros; simp [State.setEnable]

@[simp ↓] theorem State.clearEnable_spine : ∀ (s : State) (x1 : ℕ), (State.clearEnable s x1).spine = s.spine := by intros; simp [State.clearEnable]

@[simp ↓] theorem State.dropBarriers_spine : ∀ (s : State) (x1 : ℕ), (State.dropBarriers s x1).spine = s.spine := by
  intros; unfold State.dropBarriers; repeat' (first | (intro _) | simp | (refine (State.each_spine _ ?_ _ _).trans ?_) | (refine (State.command_spine _ _ _ _ _ ?_).trans ?_) | split | rfl)

@[simp ↓] theorem State.stopPart_spine : ∀ (s : State) (x1 : ℕ) (x2 : ℕ), (State.stopPart s x1 x2).spine = s.spine := by
  intros; unfold State.stopPart; repeat' (first | (intro _) | simp | (refine (State.each_spine _ ?_ _ _).trans ?_) | (refine (State.command_spine _ _ _ _ _ ?_).trans ?_) | split | rfl)

@[simp ↓] theorem State.doubtHost_spine : ∀ (s : State) (x1 : ℕ) (x2 : ℕ), (State.doubtHost s x1 x2).spine = s.spine := by
  intros; unfold State.doubtHost; repeat' (first | (intro _) | simp | (refine (State.each_spine _ ?_ _ _).trans ?_) | (refine (State.command_spine _ _ _ _ _ ?_).trans ?_) | split | rfl)

@[simp ↓] theorem State.restoreHost_spine : ∀ (s : State) (x1 : ℕ), (State.restoreHost s x1).spine = s.spine := by
  intros; unfold State.restoreHost; repeat' (first | (intro _) | simp | (refine (State.each_spine _ ?_ _ _).trans ?_) | (refine (State.command_spine _ _ _ _ _ ?_).trans ?_) | split | rfl)

@[simp ↓] theorem State.applyQuiet_spine : ∀ (s : State) (x1 : ℕ), (State.applyQuiet s x1).spine = s.spine := by
  intros; unfold State.applyQuiet; repeat' (first | (intro _) | simp | (refine (State.each_spine _ ?_ _ _).trans ?_) | (refine (State.command_spine _ _ _ _ _ ?_).trans ?_) | split | rfl)

theorem execPartCreate_spine : ∀ (x0 : Ns) (x1 : Mbx) (s : State), ∃ u, execPartCreate x0 x1 s = .next u ∧ u.spine = { s.spine with now := (s.tick x0).now } := by
  intros; refine ⟨_, rfl, ?_⟩; rw [← State.tick_spine]; generalize State.tick _ _ = u; repeat' (first | (intro _) | simp | (refine (State.each_spine _ ?_ _ _).trans ?_) | (refine (State.command_spine _ _ _ _ _ ?_).trans ?_) | split | rfl)

theorem execPartResize_spine : ∀ (x0 : Ns) (x1 : Mbx) (s : State), ∃ u, execPartResize x0 x1 s = .next u ∧ u.spine = { s.spine with now := (s.tick x0).now } := by
  intros; refine ⟨_, rfl, ?_⟩; rw [← State.tick_spine]; generalize State.tick _ _ = u; repeat' (first | (intro _) | simp | (refine (State.each_spine _ ?_ _ _).trans ?_) | (refine (State.command_spine _ _ _ _ _ ?_).trans ?_) | split | rfl)

theorem execPartDestroy_spine : ∀ (x0 : Ns) (x1 : Mbx) (s : State), ∃ u, execPartDestroy x0 x1 s = .next u ∧ u.spine = { s.spine with now := (s.tick x0).now } := by
  intros; refine ⟨_, rfl, ?_⟩; rw [← State.tick_spine]; generalize State.tick _ _ = u; repeat' (first | (intro _) | simp | (refine (State.each_spine _ ?_ _ _).trans ?_) | (refine (State.command_spine _ _ _ _ _ ?_).trans ?_) | split | rfl)

theorem execPartQuery_spine : ∀ (x0 : Ns) (x1 : Mbx) (s : State), ∃ u, execPartQuery x0 x1 s = .next u ∧ u.spine = { s.spine with now := (s.tick x0).now } := by
  intros; refine ⟨_, rfl, ?_⟩; rw [← State.tick_spine]; generalize State.tick _ _ = u; repeat' (first | (intro _) | simp | (refine (State.each_spine _ ?_ _ _).trans ?_) | (refine (State.command_spine _ _ _ _ _ ?_).trans ?_) | split | rfl)

@[simp ↓] theorem State.enableCmd_spine : ∀ (s : State) (x1 : Mbx) (x2 : ℕ), (State.enableCmd s x1 x2).2.spine = s.spine := by
  intros; unfold State.enableCmd; repeat' (first | (intro _) | simp | (refine (State.each_spine _ ?_ _ _).trans ?_) | (refine (State.command_spine _ _ _ _ _ ?_).trans ?_) | split | rfl)

theorem execPartEnableSet_spine : ∀ (x0 : Ns) (x1 : Mbx) (s : State), ∃ u, execPartEnableSet x0 x1 s = .next u ∧ u.spine = { s.spine with now := (s.tick x0).now } := by
  intros; refine ⟨_, rfl, ?_⟩; rw [← State.tick_spine]; generalize State.tick _ _ = u; repeat' (first | (intro _) | simp | (refine (State.each_spine _ ?_ _ _).trans ?_) | (refine (State.command_spine _ _ _ _ _ ?_).trans ?_) | split | rfl)

theorem execPartEnableClear_spine : ∀ (x0 : Ns) (x1 : Mbx) (s : State), ∃ u, execPartEnableClear x0 x1 s = .next u ∧ u.spine = { s.spine with now := (s.tick x0).now } := by
  intros; refine ⟨_, rfl, ?_⟩; rw [← State.tick_spine]; generalize State.tick _ _ = u; repeat' (first | (intro _) | simp | (refine (State.each_spine _ ?_ _ _).trans ?_) | (refine (State.command_spine _ _ _ _ _ ?_).trans ?_) | split | rfl)

theorem execPartRestart_spine : ∀ (x0 : Ns) (x1 : Mbx) (s : State), ∃ u, execPartRestart x0 x1 s = .next u ∧ u.spine = { s.spine with now := (s.tick x0).now } := by
  intros; refine ⟨_, rfl, ?_⟩; rw [← State.tick_spine]; generalize State.tick _ _ = u; repeat' (first | (intro _) | simp | (refine (State.each_spine _ ?_ _ _).trans ?_) | (refine (State.command_spine _ _ _ _ _ ?_).trans ?_) | split | rfl)

theorem execPartQuiet_spine : ∀ (x0 : Ns) (x1 : Mbx) (s : State), ∃ u, execPartQuiet x0 x1 s = .next u ∧ u.spine = { s.spine with now := (s.tick x0).now } := by
  intros; refine ⟨_, rfl, ?_⟩; rw [← State.tick_spine]; generalize State.tick _ _ = u; repeat' (first | (intro _) | simp | (refine (State.each_spine _ ?_ _ _).trans ?_) | (refine (State.command_spine _ _ _ _ _ ?_).trans ?_) | split | rfl)

@[simp ↓] theorem State.scratchCmd_spine : ∀ (s : State) (x1 : Mbx) (x2 : ℕ), (State.scratchCmd s x1 x2).2.spine = s.spine := by intros; simp [State.scratchCmd]

theorem execPartScratchAssign_spine : ∀ (x0 : Ns) (x1 : Mbx) (s : State), ∃ u, execPartScratchAssign x0 x1 s = .next u ∧ u.spine = { s.spine with now := (s.tick x0).now } := by
  intros; refine ⟨_, rfl, ?_⟩; rw [← State.tick_spine]; generalize State.tick _ _ = u; repeat' (first | (intro _) | simp | (refine (State.each_spine _ ?_ _ _).trans ?_) | (refine (State.command_spine _ _ _ _ _ ?_).trans ?_) | split | rfl)

theorem execPartScratchRelease_spine : ∀ (x0 : Ns) (x1 : Mbx) (s : State), ∃ u, execPartScratchRelease x0 x1 s = .next u ∧ u.spine = { s.spine with now := (s.tick x0).now } := by
  intros; refine ⟨_, rfl, ?_⟩; rw [← State.tick_spine]; generalize State.tick _ _ = u; repeat' (first | (intro _) | simp | (refine (State.each_spine _ ?_ _ _).trans ?_) | (refine (State.command_spine _ _ _ _ _ ?_).trans ?_) | split | rfl)

theorem execHostPortSet_spine : ∀ (x0 : Ns) (x1 : Mbx) (s : State), ∃ u, execHostPortSet x0 x1 s = .next u ∧ u.spine = { s.spine with now := (s.tick x0).now } := by
  intros; refine ⟨_, rfl, ?_⟩; rw [← State.tick_spine]; generalize State.tick _ _ = u; repeat' (first | (intro _) | simp | (refine (State.each_spine _ ?_ _ _).trans ?_) | (refine (State.command_spine _ _ _ _ _ ?_).trans ?_) | split | rfl)

theorem execHostPortRestore_spine : ∀ (x0 : Ns) (x1 : Mbx) (s : State), ∃ u, execHostPortRestore x0 x1 s = .next u ∧ u.spine = { s.spine with now := (s.tick x0).now } := by
  intros; refine ⟨_, rfl, ?_⟩; rw [← State.tick_spine]; generalize State.tick _ _ = u; repeat' (first | (intro _) | simp | (refine (State.each_spine _ ?_ _ _).trans ?_) | (refine (State.command_spine _ _ _ _ _ ?_).trans ?_) | split | rfl)

@[simp ↓] theorem State.areaPump_spine (mb p left : Nat) : ∀ (k : Nat) (s : State), (State.areaPump mb p left k s).spine = s.spine
  | 0, s => by unfold State.areaPump; rfl
  | k + 1, s => by
    have ih := State.areaPump_spine mb p left k
    unfold State.areaPump; repeat' (first | (intro _) | simp [ih] | (refine (State.each_spine _ ?_ _ _).trans ?_) | (refine (State.command_spine _ _ _ _ _ ?_).trans ?_) | split | rfl)

theorem execTicketArea_spine : ∀ (x0 : Ns) (x1 : Mbx) (s : State), ∃ u, execTicketArea x0 x1 s = .next u ∧ u.spine = { s.spine with now := (s.tick x0).now } := by
  intros; refine ⟨_, rfl, ?_⟩; rw [← State.tick_spine]; generalize State.tick _ _ = u; repeat' (first | (intro _) | simp | (refine (State.each_spine _ ?_ _ _).trans ?_) | (refine (State.command_spine _ _ _ _ _ ?_).trans ?_) | split | rfl)

theorem execPartSet_spine : ∀ (x0 : Ns) (x1 : Mbx) (s : State), ∃ u, execPartSet x0 x1 s = .next u ∧ u.spine = { s.spine with now := (s.tick x0).now } := by
  intros; refine ⟨_, rfl, ?_⟩; rw [← State.tick_spine]; generalize State.tick _ _ = u; repeat' (first | (intro _) | simp | (refine (State.each_spine _ ?_ _ _).trans ?_) | (refine (State.command_spine _ _ _ _ _ ?_).trans ?_) | split | rfl)

theorem execPlaceGoal_spine : ∀ (x0 : Ns) (x1 : Mbx) (s : State), ∃ u, execPlaceGoal x0 x1 s = .next u ∧ u.spine = { s.spine with now := (s.tick x0).now } := by
  intros; refine ⟨_, rfl, ?_⟩; rw [← State.tick_spine]; generalize State.tick _ _ = u; repeat' (first | (intro _) | simp | (refine (State.each_spine _ ?_ _ _).trans ?_) | (refine (State.command_spine _ _ _ _ _ ?_).trans ?_) | split | rfl)

theorem execPlaceQuery_spine : ∀ (x0 : Ns) (x1 : Mbx) (s : State), ∃ u, execPlaceQuery x0 x1 s = .next u ∧ u.spine = { s.spine with now := (s.tick x0).now } := by
  intros; refine ⟨_, rfl, ?_⟩; rw [← State.tick_spine]; generalize State.tick _ _ = u; repeat' (first | (intro _) | simp | (refine (State.each_spine _ ?_ _ _).trans ?_) | (refine (State.command_spine _ _ _ _ _ ?_).trans ?_) | split | rfl)

theorem execPlateBind_spine : ∀ (x0 : Ns) (x1 : Mbx) (s : State), ∃ u, execPlateBind x0 x1 s = .next u ∧ u.spine = { s.spine with now := (s.tick x0).now } := by
  intros; refine ⟨_, rfl, ?_⟩; rw [← State.tick_spine]; generalize State.tick _ _ = u; repeat' (first | (intro _) | simp | (refine (State.each_spine _ ?_ _ _).trans ?_) | (refine (State.command_spine _ _ _ _ _ ?_).trans ?_) | split | rfl)

theorem execPlateUnbind_spine : ∀ (x0 : Ns) (x1 : Mbx) (s : State), ∃ u, execPlateUnbind x0 x1 s = .next u ∧ u.spine = { s.spine with now := (s.tick x0).now } := by
  intros; refine ⟨_, rfl, ?_⟩; rw [← State.tick_spine]; generalize State.tick _ _ = u; repeat' (first | (intro _) | simp | (refine (State.each_spine _ ?_ _ _).trans ?_) | (refine (State.command_spine _ _ _ _ _ ?_).trans ?_) | split | rfl)

theorem execPlateRelease_spine : ∀ (x0 : Ns) (x1 : Mbx) (s : State), ∃ u, execPlateRelease x0 x1 s = .next u ∧ u.spine = { s.spine with now := (s.tick x0).now } := by
  intros; refine ⟨_, rfl, ?_⟩; rw [← State.tick_spine]; generalize State.tick _ _ = u; repeat' (first | (intro _) | simp | (refine (State.each_spine _ ?_ _ _).trans ?_) | (refine (State.command_spine _ _ _ _ _ ?_).trans ?_) | split | rfl)

theorem execPlateGroupName_spine : ∀ (x0 : Ns) (x1 : Mbx) (s : State), ∃ u, execPlateGroupName x0 x1 s = .next u ∧ u.spine = { s.spine with now := (s.tick x0).now } := by
  intros; refine ⟨_, rfl, ?_⟩; rw [← State.tick_spine]; generalize State.tick _ _ = u; repeat' (first | (intro _) | simp | (refine (State.each_spine _ ?_ _ _).trans ?_) | (refine (State.command_spine _ _ _ _ _ ?_).trans ?_) | split | rfl)

theorem execPlateGroupDissolve_spine : ∀ (x0 : Ns) (x1 : Mbx) (s : State), ∃ u, execPlateGroupDissolve x0 x1 s = .next u ∧ u.spine = { s.spine with now := (s.tick x0).now } := by
  intros; refine ⟨_, rfl, ?_⟩; rw [← State.tick_spine]; generalize State.tick _ _ = u; repeat' (first | (intro _) | simp | (refine (State.each_spine _ ?_ _ _).trans ?_) | (refine (State.command_spine _ _ _ _ _ ?_).trans ?_) | split | rfl)

theorem execPlateQuery_spine : ∀ (x0 : Ns) (x1 : Mbx) (s : State), ∃ u, execPlateQuery x0 x1 s = .next u ∧ u.spine = { s.spine with now := (s.tick x0).now } := by
  intros; refine ⟨_, rfl, ?_⟩; rw [← State.tick_spine]; generalize State.tick _ _ = u; repeat' (first | (intro _) | simp | (refine (State.each_spine _ ?_ _ _).trans ?_) | (refine (State.command_spine _ _ _ _ _ ?_).trans ?_) | split | rfl)

theorem execAlmRead_spine : ∀ (x0 : Ns) (x1 : Mbx) (s : State), ∃ u, execAlmRead x0 x1 s = .next u ∧ u.spine = { s.spine with now := (s.tick x0).now } := by
  intros; refine ⟨_, rfl, ?_⟩; rw [← State.tick_spine]; generalize State.tick _ _ = u; repeat' (first | (intro _) | simp | (refine (State.each_spine _ ?_ _ _).trans ?_) | (refine (State.command_spine _ _ _ _ _ ?_).trans ?_) | split | rfl)

theorem execFirstFaultRead_spine : ∀ (x0 : Ns) (x1 : Mbx) (s : State), ∃ u, execFirstFaultRead x0 x1 s = .next u ∧ u.spine = { s.spine with now := (s.tick x0).now } := by
  intros; refine ⟨_, rfl, ?_⟩; rw [← State.tick_spine]; generalize State.tick _ _ = u; repeat' (first | (intro _) | simp | (refine (State.each_spine _ ?_ _ _).trans ?_) | (refine (State.command_spine _ _ _ _ _ ?_).trans ?_) | split | rfl)

@[simp ↓] theorem State.clearFirst_spine : ∀ (s : State), (State.clearFirst s).spine = s.spine := by intros; simp [State.clearFirst]

theorem execFirstFaultClear_spine : ∀ (x0 : Ns) (x1 : Mbx) (s : State), ∃ u, execFirstFaultClear x0 x1 s = .next u ∧ u.spine = { s.spine with now := (s.tick x0).now } := by
  intros; refine ⟨_, rfl, ?_⟩; rw [← State.tick_spine]; generalize State.tick _ _ = u; repeat' (first | (intro _) | simp | (refine (State.each_spine _ ?_ _ _).trans ?_) | (refine (State.command_spine _ _ _ _ _ ?_).trans ?_) | split | rfl)

theorem execCeLog_spine : ∀ (x0 : Ns) (x1 : Mbx) (s : State), ∃ u, execCeLog x0 x1 s = .next u ∧ u.spine = { s.spine with now := (s.tick x0).now } := by
  intros; refine ⟨_, rfl, ?_⟩; rw [← State.tick_spine]; generalize State.tick _ _ = u; repeat' (first | (intro _) | simp | (refine (State.each_spine _ ?_ _ _).trans ?_) | (refine (State.command_spine _ _ _ _ _ ?_).trans ?_) | split | rfl)

theorem execLastgasp_spine : ∀ (x0 : Ns) (x1 : Mbx) (s : State), ∃ u, execLastgasp x0 x1 s = .next u ∧ u.spine = { s.spine with now := (s.tick x0).now } := by
  intros; refine ⟨_, rfl, ?_⟩; rw [← State.tick_spine]; generalize State.tick _ _ = u; repeat' (first | (intro _) | simp | (refine (State.each_spine _ ?_ _ _).trans ?_) | (refine (State.command_spine _ _ _ _ _ ?_).trans ?_) | split | rfl)

@[simp ↓] theorem State.otpStart_spine : ∀ (s : State) (x1 : ℕ) (x2 : ℕ) (x3 : ℕ), (State.otpStart s x1 x2 x3).2.spine = s.spine := by intros; simp [State.otpStart]

theorem execOtpRepair_spine : ∀ (x0 : Ns) (x1 : Mbx) (s : State), ∃ u, execOtpRepair x0 x1 s = .next u ∧ u.spine = { s.spine with now := (s.tick x0).now } := by
  intros; refine ⟨_, rfl, ?_⟩; rw [← State.tick_spine]; generalize State.tick _ _ = u; repeat' (first | (intro _) | simp | (refine (State.each_spine _ ?_ _ _).trans ?_) | (refine (State.command_spine _ _ _ _ _ ?_).trans ?_) | split | rfl)

theorem execOtpDefaults_spine : ∀ (x0 : Ns) (x1 : Mbx) (s : State), ∃ u, execOtpDefaults x0 x1 s = .next u ∧ u.spine = { s.spine with now := (s.tick x0).now } := by
  intros; refine ⟨_, rfl, ?_⟩; rw [← State.tick_spine]; generalize State.tick _ _ = u; repeat' (first | (intro _) | simp | (refine (State.each_spine _ ?_ _ _).trans ?_) | (refine (State.command_spine _ _ _ _ _ ?_).trans ?_) | split | rfl)

theorem execOtpFlashPw_spine : ∀ (x0 : Ns) (x1 : Mbx) (s : State), ∃ u, execOtpFlashPw x0 x1 s = .next u ∧ u.spine = { s.spine with now := (s.tick x0).now } := by
  intros; refine ⟨_, rfl, ?_⟩; rw [← State.tick_spine]; generalize State.tick _ _ = u; repeat' (first | (intro _) | simp | (refine (State.each_spine _ ?_ _ _).trans ?_) | (refine (State.command_spine _ _ _ _ _ ?_).trans ?_) | split | rfl)

theorem execOtpFactoryLock_spine : ∀ (x0 : Ns) (x1 : Mbx) (s : State), ∃ u, execOtpFactoryLock x0 x1 s = .next u ∧ u.spine = { s.spine with now := (s.tick x0).now } := by
  intros; refine ⟨_, rfl, ?_⟩; rw [← State.tick_spine]; generalize State.tick _ _ = u; repeat' (first | (intro _) | simp | (refine (State.each_spine _ ?_ _ _).trans ?_) | (refine (State.command_spine _ _ _ _ _ ?_).trans ?_) | split | rfl)

theorem execOtpRead_spine : ∀ (x0 : Ns) (x1 : Mbx) (s : State), ∃ u, execOtpRead x0 x1 s = .next u ∧ u.spine = { s.spine with now := (s.tick x0).now } := by
  intros; refine ⟨_, rfl, ?_⟩; rw [← State.tick_spine]; generalize State.tick _ _ = u; repeat' (first | (intro _) | simp | (refine (State.each_spine _ ?_ _ _).trans ?_) | (refine (State.command_spine _ _ _ _ _ ?_).trans ?_) | split | rfl)

theorem execTwinPair_spine : ∀ (x0 : Ns) (x1 : Mbx) (s : State), ∃ u, execTwinPair x0 x1 s = .next u ∧ u.spine = { s.spine with now := (s.tick x0).now } := by
  intros; refine ⟨_, rfl, ?_⟩; rw [← State.tick_spine]; generalize State.tick _ _ = u; repeat' (first | (intro _) | simp | (refine (State.each_spine _ ?_ _ _).trans ?_) | (refine (State.command_spine _ _ _ _ _ ?_).trans ?_) | split | rfl)

theorem execOtpGoodRise_spine (t : Ns) (b : BitVec 16384) (s : State) :
    ∃ u o, execOtpGoodRise t b s = .next u ∧ u.spine = { s.spine with now := (s.tick t).now, otp := o } := by
  have h : ({ s.spine with now := (s.tick t).now } : Spine) = (s.tick t).spine := (State.tick_spine s t).symm
  suffices ∀ v, ∃ o, (execOtpGoodRise t b s) = .next v → v.spine = { (s.tick t).spine with otp := o } by
    obtain ⟨o, ho⟩ := this _
    exact ⟨_, o, rfl, (ho rfl).trans (by rw [← h])⟩
  intro v
  simp only [execOtpGoodRise, Host.Outcome.next.injEq]
  generalize hw : ((s.tick t).onPwr fun q => { q with railOtp := true }) = w
  have hs : w.spine = (s.tick t).spine := by rw [← hw]; simp
  rw [← hs]
  split
  · exact ⟨w.pwr.otp, fun e => by rw [← e]; rfl⟩
  · split
    · exact ⟨w.pwr.otp, fun e => by rw [← e]; simp; rfl⟩
    · rename_i j _ _ i _
      obtain ⟨o, ho⟩ := State.otpWrite_spine w j.group i j.payload b
      refine ⟨o, fun e => ?_⟩
      rw [← e]
      split
      · simp [ho]
      · split <;> simp [ho]

theorem execRetireClearEntry_spine : ∀ (x0 : Ns) (x1 : Mbx) (s : State), ∃ u, execRetireClearEntry x0 x1 s = .next u ∧ u.spine = { s.spine with now := (s.tick x0).now } := by
  intros; refine ⟨_, rfl, ?_⟩; rw [← State.tick_spine]; generalize State.tick _ _ = u; repeat' (first | (intro _) | simp | (refine (State.each_spine _ ?_ _ _).trans ?_) | (refine (State.command_spine _ _ _ _ _ ?_).trans ?_) | split | rfl)

theorem execCapQuery_spine : ∀ (x0 : Ns) (x1 : Mbx) (s : State), ∃ u, execCapQuery x0 x1 s = .next u ∧ u.spine = { s.spine with now := (s.tick x0).now } := by
  intros; refine ⟨_, rfl, ?_⟩; rw [← State.tick_spine]; generalize State.tick _ _ = u; repeat' (first | (intro _) | simp | (refine (State.each_spine _ ?_ _ _).trans ?_) | (refine (State.command_spine _ _ _ _ _ ?_).trans ?_) | split | rfl)

theorem execFlashInfo_spine : ∀ (x0 : Ns) (x1 : Mbx) (s : State), ∃ u, execFlashInfo x0 x1 s = .next u ∧ u.spine = { s.spine with now := (s.tick x0).now } := by
  intros; refine ⟨_, rfl, ?_⟩; rw [← State.tick_spine]; generalize State.tick _ _ = u; repeat' (first | (intro _) | simp | (refine (State.each_spine _ ?_ _ _).trans ?_) | (refine (State.command_spine _ _ _ _ _ ?_).trans ?_) | split | rfl)

theorem execDirRefresh_spine : ∀ (x0 : Ns) (x1 : Mbx) (s : State), ∃ u, execDirRefresh x0 x1 s = .next u ∧ u.spine = { s.spine with now := (s.tick x0).now } := by
  intros; refine ⟨_, rfl, ?_⟩; rw [← State.tick_spine]; generalize State.tick _ _ = u; repeat' (first | (intro _) | simp | (refine (State.each_spine _ ?_ _ _).trans ?_) | (refine (State.command_spine _ _ _ _ _ ?_).trans ?_) | split | rfl)

end Sys2Proof.Machine
end

