-- ==== Sys2Proof/Laws/SpineServe.lean ====
section
/-! SUPPORT. The spine of the state (the queue, scratch, the time, the fail-safe state, the OTP contents) under every operation: admission, the serving of requests, media and the tract walk. -/

set_option linter.all false

namespace Sys2Proof.Machine

@[simp ↓] theorem State.tickets_spine : ∀ (s : State) (x1 : ℕ) (x2 : ℕ), (State.tickets s x1 x2).spine = s.spine := by
  intros; unfold State.tickets; repeat' (first | (intro _) | simp | (refine (State.each_spine _ ?_ _ _).trans ?_) | (refine (State.command_spine _ _ _ _ _ ?_).trans ?_) | split | rfl)

@[simp ↓] theorem State.ticketDone_spine : ∀ (s : State) (x1 : ℕ) (x2 : ℕ), (State.ticketDone s x1 x2).spine = s.spine := by
  intros; unfold State.ticketDone; repeat' (first | (intro _) | simp | (refine (State.each_spine _ ?_ _ _).trans ?_) | (refine (State.command_spine _ _ _ _ _ ?_).trans ?_) | split | rfl)

@[simp ↓] theorem State.allTickets_spine : ∀ (s : State), (State.allTickets s).spine = s.spine := by
  intros; unfold State.allTickets; repeat' (first | (intro _) | simp | (refine (State.each_spine _ ?_ _ _).trans ?_) | (refine (State.command_spine _ _ _ _ _ ?_).trans ?_) | split | rfl)

@[simp ↓] theorem State.linePump_spine (s : State) : s.linePump.spine = s.spine := by
  unfold State.linePump
  rw [State.allTickets_spine]
  refine State.each_spine _ ?_ _ _
  intro a s
  split
  · split
    · split
      · rw [State.clearLine_spine]; rfl
      · rfl
    · rfl
  · simp
  · rfl

@[simp ↓] theorem State.onBars_spine : ∀ (s : State) (x1 : Barrier → Barrier), (State.onBars s x1).spine = s.spine := by intros; simp [State.onBars]

@[simp ↓] theorem State.openInt_spine : ∀ (s : State) (x1 : ℕ) (x2 : ℕ) (x3 : EKind) (x4 : ℕ) (x5 : ℕ) (x6 : Bool), (State.openInt s x1 x2 x3 x4 x5 x6).spine = s.spine := by intros; simp [State.openInt]

@[simp ↓] theorem State.onMov_spine : ∀ (s : State) (x1 : ℕ) (x2 : ℕ) (x3 : MovRec → MovRec), (State.onMov s x1 x2 x3).spine = s.spine := by intros; simp [State.onMov]

@[simp ↓] theorem State.endAllResv_spine : ∀ (s : State) (x1 : ℕ), (State.endAllResv s x1).spine = s.spine := by intros; simp [State.endAllResv]

@[simp ↓] theorem State.copyWrite_spine : ∀ (s : State) (x1 : ℕ) (x2 : ℕ) (x3 : Line) (x4 : Meta) (x5 : ℕ), (State.copyWrite s x1 x2 x3 x4 x5).spine = s.spine := by
  intros; unfold State.copyWrite; repeat' (first | (intro _) | simp | (refine (State.each_spine _ ?_ _ _).trans ?_) | (refine (State.command_spine _ _ _ _ _ ?_).trans ?_) | split | rfl)

@[simp ↓] theorem State.copyLoss_spine : ∀ (s : State) (x1 : ℕ) (x2 : ℕ) (x3 : ℕ) (x4 : Bool), (State.copyLoss s x1 x2 x3 x4).spine = s.spine := by intros; simp [State.copyLoss]

@[simp ↓] theorem State.readInt_spine : ∀ (s : State) (x1 : ℕ) (x2 : ℕ) (x3 : ℕ), (State.readInt s x1 x2 x3).spine = s.spine := by
  intros; unfold State.readInt; repeat' (first | (intro _) | simp | (refine (State.each_spine _ ?_ _ _).trans ?_) | (refine (State.command_spine _ _ _ _ _ ?_).trans ?_) | split | rfl)

@[simp ↓] theorem State.allocHold_spine : ∀ (s : State) (x1 : ℕ) (x2 : Req), (State.allocHold s x1 x2).spine = s.spine := by
  intros; unfold State.allocHold; repeat' (first | (intro _) | simp | (refine (State.each_spine _ ?_ _ _).trans ?_) | (refine (State.command_spine _ _ _ _ _ ?_).trans ?_) | split | rfl)

@[simp ↓] theorem State.openWb_spine : ∀ (s : State) (x1 : ℕ) (x2 : ℕ), (State.openWb s x1 x2).2.spine = s.spine := by
  intros; unfold State.openWb; repeat' (first | (intro _) | simp | (refine (State.each_spine _ ?_ _ _).trans ?_) | (refine (State.command_spine _ _ _ _ _ ?_).trans ?_) | split | rfl)

@[simp ↓] theorem State.commitWb_spine : ∀ (s : State) (x1 : ℕ) (x2 : ℕ) (x3 : ℕ) (x4 : ℕ) (x5 : Codeword) (x6 : Option ℕ), (State.commitWb s x1 x2 x3 x4 x5 x6).spine = s.spine := by
  intros; unfold State.commitWb; repeat' (first | (intro _) | simp | (refine (State.each_spine _ ?_ _ _).trans ?_) | (refine (State.command_spine _ _ _ _ _ ?_).trans ?_) | split | rfl)

@[simp ↓] theorem State.scrubWrite_spine : ∀ (s : State) (x1 : ℕ) (x2 : ℕ) (x3 : ℕ) (x4 : Line) (x5 : Meta) (x6 : ℕ) (x7 : ℕ), (State.scrubWrite s x1 x2 x3 x4 x5 x6 x7).spine = s.spine := by intros; simp [State.scrubWrite]

@[simp ↓] theorem State.countAge_spine : ∀ (s : State) (x1 : ℕ) (x2 : ℕ) (x3 : Meta), (State.countAge s x1 x2 x3).spine = s.spine := by intros; simp [State.countAge]

@[simp ↓] theorem State.refreshCopy_spine : ∀ (s : State) (x1 : ℕ) (x2 : ℕ) (x3 : Meta), (State.refreshCopy s x1 x2 x3).spine = s.spine := by intros; simp [State.refreshCopy]

@[simp ↓] theorem State.scrubGot_spine : ∀ (s : State) (x1 : ℕ) (x2 : ℕ) (x3 : ℕ) (x4 : Codeword) (x5 : Bool) (x6 : ℕ) (x7 : ℕ), (State.scrubGot s x1 x2 x3 x4 x5 x6 x7).spine = s.spine := by
  intros; unfold State.scrubGot; repeat' (first | (intro _) | simp | (refine (State.each_spine _ ?_ _ _).trans ?_) | (refine (State.command_spine _ _ _ _ _ ?_).trans ?_) | split | rfl)

@[simp ↓] theorem State.scrubLost_spine : ∀ (s : State) (x1 : ℕ) (x2 : ℕ) (x3 : ℕ) (x4 : ℕ) (x5 : ℕ), (State.scrubLost s x1 x2 x3 x4 x5).spine = s.spine := by
  intros; unfold State.scrubLost; repeat' (first | (intro _) | simp | (refine (State.each_spine _ ?_ _ _).trans ?_) | (refine (State.command_spine _ _ _ _ _ ?_).trans ?_) | split | rfl)

@[simp ↓] theorem State.scrubBack_spine : ∀ (s : State) (x1 : ℕ), (State.scrubBack s x1).spine = s.spine := by intros; simp [State.scrubBack]

@[simp ↓] theorem State.scrubSkip_spine : ∀ (s : State) (x1 : ℕ) (x2 : ℕ), (State.scrubSkip s x1 x2).spine = s.spine := by intros; simp [State.scrubSkip]

@[simp ↓] theorem State.resyncSend_spine : ∀ (s : State) (x1 : ℕ) (x2 : ℕ) (x3 : Line), (State.resyncSend s x1 x2 x3).spine = s.spine := by intros; simp [State.resyncSend]

@[simp ↓] theorem State.stopFor_spine : ∀ (s : State) (x1 : ℕ) (x2 : Bool), (State.stopFor s x1 x2).spine = s.spine := by
  intros; unfold State.stopFor; repeat' (first | (intro _) | simp | (refine (State.each_spine _ ?_ _ _).trans ?_) | (refine (State.command_spine _ _ _ _ _ ?_).trans ?_) | split | rfl)

@[simp ↓] theorem State.drainSet_spine : ∀ (s : State) (x1 : ℕ) (x2 : ℕ → Bool), (State.drainSet s x1 x2).spine = s.spine := by
  intros; unfold State.drainSet; repeat' (first | (intro _) | simp | (refine (State.each_spine _ ?_ _ _).trans ?_) | (refine (State.command_spine _ _ _ _ _ ?_).trans ?_) | split | rfl)

@[simp ↓] theorem State.spillOut_spine : ∀ (s : State) (x1 : ℕ) (x2 : ℕ × FEntry → Bool), (State.spillOut s x1 x2).spine = s.spine := by
  intros; unfold State.spillOut; repeat' (first | (intro _) | simp | (refine (State.each_spine _ ?_ _ _).trans ?_) | (refine (State.command_spine _ _ _ _ _ ?_).trans ?_) | split | rfl)

@[simp ↓] theorem State.prepWork_spine : ∀ (s : State) (x1 : ℕ) (x2 : ℕ), (State.prepWork s x1 x2).spine = s.spine := by intros; simp [State.prepWork]

@[simp ↓] theorem State.offWork_spine : ∀ (s : State) (x1 : ℕ), (State.offWork s x1).spine = s.spine := by intros; simp [State.offWork]

@[simp ↓] theorem State.clearSet_spine : ∀ (s : State) (x1 : ℕ) (x2 : ℕ) (x3 : ℕ), (State.clearSet s x1 x2 x3).spine = s.spine := by intros; simp [State.clearSet]

@[simp ↓] theorem State.handStep_spine : ∀ (s : State) (x1 : ℕ), (State.handStep s x1).spine = s.spine := by
  intros; unfold State.handStep; repeat' (first | (intro _) | simp | (refine (State.each_spine _ ?_ _ _).trans ?_) | (refine (State.command_spine _ _ _ _ _ ?_).trans ?_) | split | rfl)

@[simp ↓] theorem State.closeWork_spine : ∀ (s : State) (x1 : ℕ), (State.closeWork s x1).spine = s.spine := by intros; simp [State.closeWork]

@[simp ↓] theorem State.stopTick_spine : ∀ (s : State), (State.stopTick s).spine = s.spine := by
  intros; unfold State.stopTick; repeat' (first | (intro _) | simp | (refine (State.each_spine _ ?_ _ _).trans ?_) | (refine (State.command_spine _ _ _ _ _ ?_).trans ?_) | split | rfl)

@[simp ↓] theorem State.step10_spine : ∀ (s : State), (State.step10 s).spine = s.spine := by intros; simp [State.step10]

@[simp ↓] theorem State.refreshTick_spine : ∀ (s : State), (State.refreshTick s).spine = s.spine := by
  intros; unfold State.refreshTick; repeat' (first | (intro _) | simp | (refine (State.each_spine _ ?_ _ _).trans ?_) | (refine (State.command_spine _ _ _ _ _ ?_).trans ?_) | split | rfl)

@[simp ↓] theorem State.handTick_spine : ∀ (s : State) (x1 : ℕ), (State.handTick s x1).spine = s.spine := by intros; simp [State.handTick]

@[simp ↓] theorem State.sample_spine : ∀ (s : State) (x1 : ℕ) (x2 : Req), (State.sample s x1 x2).spine = s.spine := by intros; simp [State.sample]

@[simp ↓] theorem State.allocAt_spine : ∀ (s : State) (x1 : ℕ) (x2 : ℕ) (x3 : Req), (State.allocAt s x1 x2 x3).spine = s.spine := by intros; simp [State.allocAt]

@[simp ↓] theorem State.allocEnt_spine : ∀ (s : State) (x1 : ℕ) (x2 : Req), (State.allocEnt s x1 x2).spine = s.spine := by
  intros; unfold State.allocEnt; repeat' (first | (intro _) | simp | (refine (State.each_spine _ ?_ _ _).trans ?_) | (refine (State.command_spine _ _ _ _ _ ?_).trans ?_) | split | rfl)

@[simp ↓] theorem State.follow_spine : ∀ (s : State) (x1 : ℕ) (x2 : Req), (State.follow s x1 x2).spine = s.spine := by intros; simp [State.follow]

@[simp ↓] theorem State.unpark_spine : ∀ (s : State) (x1 : ℕ), (State.unpark s x1).spine = s.spine := by
  intros; unfold State.unpark; repeat' (first | (intro _) | simp | (refine (State.each_spine _ ?_ _ _).trans ?_) | (refine (State.command_spine _ _ _ _ _ ?_).trans ?_) | split | rfl)

@[simp ↓] theorem State.headTakes_spine : ∀ (s : State) (x1 : ℕ) (x2 : ℕ) (x3 : ℕ), (State.headTakes s x1 x2 x3).spine = s.spine := by
  intros; unfold State.headTakes; repeat' (first | (intro _) | simp | (refine (State.each_spine _ ?_ _ _).trans ?_) | (refine (State.command_spine _ _ _ _ _ ?_).trans ?_) | split | rfl)

@[simp ↓] theorem State.refill_spine (n : Nat) : ∀ (k : Nat) (s : State), (State.refill n k s).spine = s.spine
  | 0, s => by unfold State.refill; rfl
  | k + 1, s => by
    have ih := State.refill_spine n k
    unfold State.refill; repeat' (first | (intro _) | simp [ih] | (refine (State.each_spine _ ?_ _ _).trans ?_) | (refine (State.command_spine _ _ _ _ _ ?_).trans ?_) | split | rfl)

@[simp ↓] theorem State.refillAll_spine : ∀ (s : State) (x1 : ℕ), (State.refillAll s x1).spine = s.spine := by intros; simp [State.refillAll]

@[simp ↓] theorem State.admitPlain_spine : ∀ (s : State) (x1 : ℕ) (x2 : Req), (State.admitPlain s x1 x2).spine = s.spine := by intros; simp [State.admitPlain]

@[simp ↓] theorem State.takeHead_spine : ∀ (s : State) (x1 : ℕ) (x2 : ℕ) (x3 : Req), (State.takeHead s x1 x2 x3).spine = s.spine := by
  intros; unfold State.takeHead; repeat' (first | (intro _) | simp | (refine (State.each_spine _ ?_ _ _).trans ?_) | (refine (State.command_spine _ _ _ _ _ ?_).trans ?_) | split | rfl)

@[simp ↓] theorem State.learn_spine : ∀ (s : State) (x1 : ℕ) (x2 : ℕ), (State.learn s x1 x2).spine = s.spine := by
  intros; unfold State.learn; repeat' (first | (intro _) | simp | (refine (State.each_spine _ ?_ _ _).trans ?_) | (refine (State.command_spine _ _ _ _ _ ?_).trans ?_) | split | rfl)

@[simp ↓] theorem State.decideSnoops_spine : ∀ (s : State) (x1 : ℕ) (x2 : ℕ), (State.decideSnoops s x1 x2).spine = s.spine := by
  intros; unfold State.decideSnoops; repeat' (first | (intro _) | simp | (refine (State.each_spine _ ?_ _ _).trans ?_) | (refine (State.command_spine _ _ _ _ _ ?_).trans ?_) | split | rfl)

@[simp ↓] theorem State.ensureWay_spine : ∀ (s : State) (x1 : ℕ) (x2 : ℕ), (State.ensureWay s x1 x2).spine = s.spine := by
  intros; unfold State.ensureWay; repeat' (first | (intro _) | simp | (refine (State.each_spine _ ?_ _ _).trans ?_) | (refine (State.command_spine _ _ _ _ _ ?_).trans ?_) | split | rfl)

@[simp ↓] theorem State.setCopy_spine : ∀ (s : State) (x1 : ℕ) (x2 : ℕ) (x3 : ℕ) (x4 : ℕ), (State.setCopy s x1 x2 x3 x4).spine = s.spine := by intros; simp [State.setCopy]

theorem State.reserveFor_spine {s u : State} {p j pos r : Nat} (h : s.reserveFor p j pos = some (r, u)) : u.spine = s.spine := by
  unfold State.reserveFor at h
  dsimp only at h
  repeat' split at h
  all_goals first | (cases h; done) | skip
  · cases h; rfl
  · cases h; simp [State.alloc_spine ‹_›]

@[simp ↓] theorem State.plateCopy_spine (s : State) (n e epoch seq : Nat) : (s.plateCopy n e epoch seq).spine = s.spine := by
  unfold State.plateCopy
  (try dsimp only)
  repeat' split
  all_goals first | rfl | (simp; done) | skip
  all_goals
    have h := State.reserveFor_spine ‹State.reserveFor _ _ _ _ = some _›
    simp at h
    rw [← h]
    simp

@[simp ↓] theorem State.takeSeq_spine : ∀ (s : State) (x1 : ℕ) (x2 : Req) (x3 : List (ℕ × ℕ)) (x4 : Option ℕ) (x5 : Bool) (x6 : List (ℕ × ℕ)) (x7 : Option Line), (State.takeSeq s x1 x2 x3 x4 x5 x6 x7).2.spine = s.spine := by
  intros; unfold State.takeSeq; repeat' (first | (intro _) | simp | (refine (State.each_spine _ ?_ _ _).trans ?_) | (refine (State.command_spine _ _ _ _ _ ?_).trans ?_) | split | rfl)

@[simp ↓] theorem State.commitWbs_spine : ∀ (s : State) (x1 : ℕ) (x2 : ℕ), (State.commitWbs s x1 x2).spine = s.spine := by
  intros; unfold State.commitWbs; repeat' (first | (intro _) | simp | (refine (State.each_spine _ ?_ _ _).trans ?_) | (refine (State.command_spine _ _ _ _ _ ?_).trans ?_) | split | rfl)

@[simp ↓] theorem State.roleSeen_spine : ∀ (s : State) (x1 : ℕ) (x2 : ℕ), (State.roleSeen s x1 x2).spine = s.spine := by
  intros; unfold State.roleSeen; repeat' (first | (intro _) | simp | (refine (State.each_spine _ ?_ _ _).trans ?_) | (refine (State.command_spine _ _ _ _ _ ?_).trans ?_) | split | rfl)

theorem State.putRec_spine0 (n line e : Nat) (ws : List (Nat × (Nat × Nat))) : ∀ a : Nat × State,
    (ws.foldl (fun (a : Nat × State) (w : Nat × (Nat × Nat)) =>
      let r := a.2.dirWrite n (line / 16 * 16 + w.1) w.2.1 w.2.2 false (some e) none
      (if r.1 then a.1 else a.1 + 1, r.2)) a).2.spine = a.2.spine := by
  induction ws with
  | nil => intro a; rfl
  | cons w r ih => intro a; rw [List.foldl_cons, ih]; simp

@[simp ↓] theorem State.putRec_spine (s : State) (n e : Nat) (x : Entry) (new : HRec) : (s.putRec n e x new).2.spine = s.spine := by
  unfold State.putRec
  (try dsimp only)
  rw [State.putRec_spine0]
  generalize placeRec _ _ _ _ = pl
  have h0 : (if (Tbl.find s.twin.moves x.req.part).any (fun m => !m.old) then s.roleSeen x.req.part x.req.line else s).spine = s.spine := by simp
  generalize hu : (if (Tbl.find s.twin.moves x.req.part).any (fun m => !m.old) then s.roleSeen x.req.part x.req.line else s) = u at *
  rw [← h0]
  (repeat' split) <;> simp

@[simp ↓] theorem State.failReq_spine : ∀ (s : State) (x1 : Req), (State.failReq s x1).spine = s.spine := by
  intros; unfold State.failReq; repeat' (first | (intro _) | simp | (refine (State.each_spine _ ?_ _ _).trans ?_) | (refine (State.command_spine _ _ _ _ _ ?_).trans ?_) | split | rfl)

@[simp ↓] theorem State.endFail_spine : ∀ (s : State) (x1 : ℕ) (x2 : ℕ) (x3 : Entry), (State.endFail s x1 x2 x3).spine = s.spine := by
  intros; unfold State.endFail; repeat' (first | (intro _) | simp | (refine (State.each_spine _ ?_ _ _).trans ?_) | (refine (State.command_spine _ _ _ _ _ ?_).trans ?_) | split | rfl)

@[simp ↓] theorem State.fail_spine : ∀ (s : State) (x1 : ℕ) (x2 : ℕ) (x3 : Fail), (State.fail s x1 x2 x3).spine = s.spine := by
  intros; unfold State.fail; repeat' (first | (intro _) | simp | (refine (State.each_spine _ ?_ _ _).trans ?_) | (refine (State.command_spine _ _ _ _ _ ?_).trans ?_) | split | rfl)

@[simp ↓] theorem State.failColour_spine : ∀ (s : State) (x1 : ℕ) (x2 : ℕ) (x3 : ℕ) (x4 : Bool), (State.failColour s x1 x2 x3 x4).spine = s.spine := by
  intros; unfold State.failColour; repeat' (first | (intro _) | simp | (refine (State.each_spine _ ?_ _ _).trans ?_) | (refine (State.command_spine _ _ _ _ _ ?_).trans ?_) | split | rfl)

@[simp ↓] theorem State.failWalk_spine : ∀ (s : State) (x1 : ℕ) (x2 : ℕ) (x3 : Bool), (State.failWalk s x1 x2 x3).spine = s.spine := by
  intros; unfold State.failWalk; repeat' (first | (intro _) | simp | (refine (State.each_spine _ ?_ _ _).trans ?_) | (refine (State.command_spine _ _ _ _ _ ?_).trans ?_) | split | rfl)

@[simp ↓] theorem State.failFrozen_spine : ∀ (s : State) (x1 : ℕ) (x2 : ℕ), (State.failFrozen s x1 x2).spine = s.spine := by
  intros; unfold State.failFrozen; repeat' (first | (intro _) | simp | (refine (State.each_spine _ ?_ _ _).trans ?_) | (refine (State.command_spine _ _ _ _ _ ?_).trans ?_) | split | rfl)

@[simp ↓] theorem State.areaLine_spine : ∀ (s : State) (x1 : ℕ), (State.areaLine s x1).spine = s.spine := by
  intros; unfold State.areaLine; repeat' (first | (intro _) | simp | (refine (State.each_spine _ ?_ _ _).trans ?_) | (refine (State.command_spine _ _ _ _ _ ?_).trans ?_) | split | rfl)

@[simp ↓] theorem State.freeEnt_spine : ∀ (s : State) (x1 : ℕ) (x2 : ℕ) (x3 : ℕ), (State.freeEnt s x1 x2 x3).spine = s.spine := by intros; simp [State.freeEnt]

@[simp ↓] theorem State.lockWay_spine : ∀ (s : State) (x1 : ℕ) (x2 : ℕ), (State.lockWay s x1 x2).spine = s.spine := by intros; simp [State.lockWay]

@[simp ↓] theorem State.unlock_spine : ∀ (s : State) (x1 : ℕ) (x2 : ℕ), (State.unlock s x1 x2).spine = s.spine := by
  intros; unfold State.unlock; repeat' (first | (intro _) | simp | (refine (State.each_spine _ ?_ _ _).trans ?_) | (refine (State.command_spine _ _ _ _ _ ?_).trans ?_) | split | rfl)

@[simp ↓] theorem State.finishRead_spine (s : State) (n e : Nat) : (s.finishRead n e).spine = s.spine := by
  unfold State.finishRead
  split
  · rfl
  · rename_i x _
    dsimp only
    generalize outcome _ _ _ _ = g
    (repeat' split) <;> simp

@[simp ↓] theorem State.lockLine_spine : ∀ (s : State) (x1 : ℕ) (x2 : ℕ), (State.lockLine s x1 x2).spine = s.spine := by
  intros; unfold State.lockLine; repeat' (first | (intro _) | simp | (refine (State.each_spine _ ?_ _ _).trans ?_) | (refine (State.command_spine _ _ _ _ _ ?_).trans ?_) | split | rfl)

@[simp ↓] theorem State.settleRead_spine : ∀ (s : State) (x1 : ℕ) (x2 : ℕ), (State.settleRead s x1 x2).spine = s.spine := by
  intros; unfold State.settleRead; repeat' (first | (intro _) | simp | (refine (State.each_spine _ ?_ _ _).trans ?_) | (refine (State.command_spine _ _ _ _ _ ?_).trans ?_) | split | rfl)

@[simp ↓] theorem State.mergePtl_spine : ∀ (s : State) (x1 : ℕ) (x2 : ℕ), (State.mergePtl s x1 x2).spine = s.spine := by
  intros; unfold State.mergePtl; repeat' (first | (intro _) | simp | (refine (State.each_spine _ ?_ _ _).trans ?_) | (refine (State.command_spine _ _ _ _ _ ?_).trans ?_) | split | rfl)

@[simp ↓] theorem State.takeMain_spine : ∀ (s : State) (x1 : ℕ) (x2 : ℕ), (State.takeMain s x1 x2).spine = s.spine := by
  intros; unfold State.takeMain; repeat' (first | (intro _) | simp | (refine (State.each_spine _ ?_ _ _).trans ?_) | (refine (State.command_spine _ _ _ _ _ ?_).trans ?_) | split | rfl)

@[simp ↓] theorem State.onPends_spine : ∀ (s : State) (x1 : ℕ) (x2 : Pend → Bool) (x3 : Pend → Pend), (State.onPends s x1 x2 x3).spine = s.spine := by intros; simp [State.onPends]

@[simp ↓] theorem State.putData_spine : ∀ (s : State) (x1 : ℕ) (x2 : ℕ) (x3 : ℕ) (x4 : Entry) (x5 : Line) (x6 : Bool) (x7 : Option ℕ), (State.putData s x1 x2 x3 x4 x5 x6 x7).spine = s.spine := by
  intros; unfold State.putData; repeat' (first | (intro _) | simp | (refine (State.each_spine _ ?_ _ _).trans ?_) | (refine (State.command_spine _ _ _ _ _ ?_).trans ?_) | split | rfl)

@[simp ↓] theorem State.poisonAfter_spine : ∀ (s : State) (x1 : Req) (x2 : Bool), (State.poisonAfter s x1 x2).spine = s.spine := by intros; simp [State.poisonAfter]

@[simp ↓] theorem State.answerWrite_spine : ∀ (s : State) (x1 : Pend), (State.answerWrite s x1).spine = s.spine := by
  intros; unfold State.answerWrite; repeat' (first | (intro _) | simp | (refine (State.each_spine _ ?_ _ _).trans ?_) | (refine (State.command_spine _ _ _ _ _ ?_).trans ?_) | split | rfl)

@[simp ↓] theorem State.completeAll_spine : ∀ (s : State) (x1 : ℕ), (State.completeAll s x1).spine = s.spine := by
  intros; unfold State.completeAll; repeat' (first | (intro _) | simp | (refine (State.each_spine _ ?_ _ _).trans ?_) | (refine (State.command_spine _ _ _ _ _ ?_).trans ?_) | split | rfl)

@[simp ↓] theorem State.settledOwn_spine : ∀ (s : State) (x1 : ℕ) (x2 : Pend), (State.settledOwn s x1 x2).spine = s.spine := by
  intros; unfold State.settledOwn; repeat' (first | (intro _) | simp | (refine (State.each_spine _ ?_ _ _).trans ?_) | (refine (State.command_spine _ _ _ _ _ ?_).trans ?_) | split | rfl)

@[simp ↓] theorem State.finishWrite_spine (s : State) (n e : Nat) : (s.finishWrite n e).spine = s.spine := by
  unfold State.finishWrite
  split
  · rfl
  · split
    · rfl
    · dsimp only
      rw [State.completeAll_spine, State.refillAll_spine]
      generalize hu : State.onEnt _ n e _ = u
      have h : u.spine = s.spine := by rw [← hu]; simp
      rw [← h]
      split
      · split
        · simp
        · rfl
      · rfl

@[simp ↓] theorem State.splitWait_spine : ∀ (s : State) (x1 : ℕ) (x2 : ℕ), (State.splitWait s x1 x2).2.spine = s.spine := by intros; simp [State.splitWait]

@[simp ↓] theorem State.settleWay_spine : ∀ (s : State) (x1 : ℕ) (x2 : ℕ) (x3 : ℕ), (State.settleWay s x1 x2 x3).spine = s.spine := by
  intros; unfold State.settleWay; repeat' (first | (intro _) | simp | (refine (State.each_spine _ ?_ _ _).trans ?_) | (refine (State.command_spine _ _ _ _ _ ?_).trans ?_) | split | rfl)

@[simp ↓] theorem State.settleWrite_spine : ∀ (s : State) (x1 : ℕ) (x2 : ℕ), (State.settleWrite s x1 x2).spine = s.spine := by
  intros; unfold State.settleWrite; repeat' (first | (intro _) | simp | (refine (State.each_spine _ ?_ _ _).trans ?_) | (refine (State.command_spine _ _ _ _ _ ?_).trans ?_) | split | rfl)

@[simp ↓] theorem State.mainCopy_spine : ∀ (s : State) (x1 : ℕ) (x2 : ℕ), (State.mainCopy s x1 x2).spine = s.spine := by
  intros; unfold State.mainCopy; repeat' (first | (intro _) | simp | (refine (State.each_spine _ ?_ _ _).trans ?_) | (refine (State.command_spine _ _ _ _ _ ?_).trans ?_) | split | rfl)

@[simp ↓] theorem State.afterSnoops_spine : ∀ (s : State) (x1 : ℕ) (x2 : ℕ), (State.afterSnoops s x1 x2).spine = s.spine := by
  intros; unfold State.afterSnoops; repeat' (first | (intro _) | simp | (refine (State.each_spine _ ?_ _ _).trans ?_) | (refine (State.command_spine _ _ _ _ _ ?_).trans ?_) | split | rfl)

@[simp ↓] theorem State.serve_spine : ∀ (s : State) (x1 : ℕ) (x2 : ℕ), (State.serve s x1 x2).spine = s.spine := by
  intros; unfold State.serve; repeat' (first | (intro _) | simp | (refine (State.each_spine _ ?_ _ _).trans ?_) | (refine (State.command_spine _ _ _ _ _ ?_).trans ?_) | split | rfl)

@[simp ↓] theorem State.serveWb_spine : ∀ (s : State) (x1 : ℕ) (x2 : ℕ), (State.serveWb s x1 x2).spine = s.spine := by
  intros; unfold State.serveWb; repeat' (first | (intro _) | simp | (refine (State.each_spine _ ?_ _ _).trans ?_) | (refine (State.command_spine _ _ _ _ _ ?_).trans ?_) | split | rfl)

@[simp ↓] theorem State.wake_spine : ∀ (s : State) (x1 : ℕ), (State.wake s x1).spine = s.spine := by
  intros; unfold State.wake; repeat' (first | (intro _) | simp | (refine (State.each_spine _ ?_ _ _).trans ?_) | (refine (State.command_spine _ _ _ _ _ ?_).trans ?_) | split | rfl)

@[simp ↓] theorem State.settleUp_spine : ∀ (s : State) (x1 : ℕ), (State.settleUp s x1).spine = s.spine := by intros; simp [State.settleUp]

@[simp ↓] theorem State.dirDone_spine : ∀ (s : State) (x1 : ℕ) (x2 : ℕ), (State.dirDone s x1 x2).spine = s.spine := by
  intros; unfold State.dirDone; repeat' (first | (intro _) | simp | (refine (State.each_spine _ ?_ _ _).trans ?_) | (refine (State.command_spine _ _ _ _ _ ?_).trans ?_) | split | rfl)

theorem execMemRd_spine : ∀ (x0 : Ns) (x1 : M2S) (s : State), ∃ u, execMemRd x0 x1 s = .next u ∧ u.spine = { s.spine with now := (s.tick x0).now } := by
  intros; refine ⟨_, rfl, ?_⟩; rw [← State.tick_spine]; generalize State.tick _ _ = u; repeat' (first | (intro _) | simp | (refine (State.each_spine _ ?_ _ _).trans ?_) | (refine (State.command_spine _ _ _ _ _ ?_).trans ?_) | split | rfl)

theorem execMemRdData_spine : ∀ (x0 : Ns) (x1 : M2S) (s : State), ∃ u, execMemRdData x0 x1 s = .next u ∧ u.spine = { s.spine with now := (s.tick x0).now } := by
  intros; refine ⟨_, rfl, ?_⟩; rw [← State.tick_spine]; generalize State.tick _ _ = u; repeat' (first | (intro _) | simp | (refine (State.each_spine _ ?_ _ _).trans ?_) | (refine (State.command_spine _ _ _ _ _ ?_).trans ?_) | split | rfl)

theorem execMemInv_spine : ∀ (x0 : Ns) (x1 : M2S) (s : State), ∃ u, execMemInv x0 x1 s = .next u ∧ u.spine = { s.spine with now := (s.tick x0).now } := by
  intros; refine ⟨_, rfl, ?_⟩; rw [← State.tick_spine]; generalize State.tick _ _ = u; repeat' (first | (intro _) | simp | (refine (State.each_spine _ ?_ _ _).trans ?_) | (refine (State.command_spine _ _ _ _ _ ?_).trans ?_) | split | rfl)

theorem execMemInvNt_spine : ∀ (x0 : Ns) (x1 : M2S) (s : State), ∃ u, execMemInvNt x0 x1 s = .next u ∧ u.spine = { s.spine with now := (s.tick x0).now } := by
  intros; refine ⟨_, rfl, ?_⟩; rw [← State.tick_spine]; generalize State.tick _ _ = u; repeat' (first | (intro _) | simp | (refine (State.each_spine _ ?_ _ _).trans ?_) | (refine (State.command_spine _ _ _ _ _ ?_).trans ?_) | split | rfl)

theorem execMemClnEvct_spine : ∀ (x0 : Ns) (x1 : M2S) (s : State), ∃ u, execMemClnEvct x0 x1 s = .next u ∧ u.spine = { s.spine with now := (s.tick x0).now } := by
  intros; refine ⟨_, rfl, ?_⟩; rw [← State.tick_spine]; generalize State.tick _ _ = u; repeat' (first | (intro _) | simp | (refine (State.each_spine _ ?_ _ _).trans ?_) | (refine (State.command_spine _ _ _ _ _ ?_).trans ?_) | split | rfl)

theorem execMemSpecRd_spine : ∀ (x0 : Ns) (x1 : M2S) (s : State), ∃ u, execMemSpecRd x0 x1 s = .next u ∧ u.spine = { s.spine with now := (s.tick x0).now } := by
  intros; refine ⟨_, rfl, ?_⟩; rw [← State.tick_spine]; generalize State.tick _ _ = u; repeat' (first | (intro _) | simp | (refine (State.each_spine _ ?_ _ _).trans ?_) | (refine (State.command_spine _ _ _ _ _ ?_).trans ?_) | split | rfl)

theorem execBiConflict_spine : ∀ (x0 : Ns) (x1 : M2S) (s : State), ∃ u, execBiConflict x0 x1 s = .next u ∧ u.spine = { s.spine with now := (s.tick x0).now } := by
  intros; refine ⟨_, rfl, ?_⟩; rw [← State.tick_spine]; generalize State.tick _ _ = u; repeat' (first | (intro _) | simp | (refine (State.each_spine _ ?_ _ _).trans ?_) | (refine (State.command_spine _ _ _ _ _ ?_).trans ?_) | split | rfl)

theorem execMemWr_spine : ∀ (x0 : Ns) (x1 : M2S) (x2 : Line) (s : State), ∃ u, execMemWr x0 x1 x2 s = .next u ∧ u.spine = { s.spine with now := (s.tick x0).now } := by
  intros; refine ⟨_, rfl, ?_⟩; rw [← State.tick_spine]; generalize State.tick _ _ = u; repeat' (first | (intro _) | simp | (refine (State.each_spine _ ?_ _ _).trans ?_) | (refine (State.command_spine _ _ _ _ _ ?_).trans ?_) | split | rfl)

theorem execMemWrPtl_spine : ∀ (x0 : Ns) (x1 : M2S) (x2 : Line) (x3 : Quad) (s : State), ∃ u, execMemWrPtl x0 x1 x2 x3 s = .next u ∧ u.spine = { s.spine with now := (s.tick x0).now } := by
  intros; refine ⟨_, rfl, ?_⟩; rw [← State.tick_spine]; generalize State.tick _ _ = u; repeat' (first | (intro _) | simp | (refine (State.each_spine _ ?_ _ _).trans ?_) | (refine (State.command_spine _ _ _ _ _ ?_).trans ?_) | split | rfl)

@[simp ↓] theorem State.markWrote_spine : ∀ (s : State) (x1 : ℕ) (x2 : ℕ) (x3 : Option ℕ), (State.markWrote s x1 x2 x3).spine = s.spine := by intros; simp [State.markWrote]

@[simp ↓] theorem State.takeClean_spine : ∀ (s : State) (x1 : ℕ) (x2 : ℕ) (x3 : Req), (State.takeClean s x1 x2 x3).spine = s.spine := by intros; simp [State.takeClean]

@[simp ↓] theorem State.admitReq_spine : ∀ (s : State) (x1 : ℕ) (x2 : Req), (State.admitReq s x1 x2).spine = s.spine := by
  intros; unfold State.admitReq; repeat' (first | (intro _) | simp | (refine (State.each_spine _ ?_ _ _).trans ?_) | (refine (State.command_spine _ _ _ _ _ ?_).trans ?_) | split | rfl)

@[simp ↓] theorem State.takeCredit_spine : ∀ (s : State) (x1 : ℕ) (x2 : Bool), (State.takeCredit s x1 x2).spine = s.spine := by intros; simp [State.takeCredit]

@[simp ↓] theorem State.redeliver_spine : ∀ (s : State) (x1 : Redeliver), (State.redeliver s x1).spine = s.spine := by
  intros; unfold State.redeliver; repeat' (first | (intro _) | simp | (refine (State.each_spine _ ?_ _ _).trans ?_) | (refine (State.command_spine _ _ _ _ _ ?_).trans ?_) | split | rfl)

@[simp ↓] theorem State.claimEnd_spine : ∀ (s : State) (x1 : Quad) (x2 : List Redeliver), (State.claimEnd s x1 x2).spine = s.spine := by
  intros; unfold State.claimEnd; repeat' (first | (intro _) | simp | (refine (State.each_spine _ ?_ _ _).trans ?_) | (refine (State.command_spine _ _ _ _ _ ?_).trans ?_) | split | rfl)

@[simp ↓] theorem State.claimStep_spine : ∀ (s : State), (State.claimStep s).spine = s.spine := by
  intros; unfold State.claimStep; repeat' (first | (intro _) | simp | (refine (State.each_spine _ ?_ _ _).trans ?_) | (refine (State.command_spine _ _ _ _ _ ?_).trans ?_) | split | rfl)

@[simp ↓] theorem State.goOn_spine : ∀ (s : State) (x1 : ℕ) (x2 : Bool), (State.goOn s x1 x2).spine = s.spine := by
  intros; unfold State.goOn; repeat' (first | (intro _) | simp | (refine (State.each_spine _ ?_ _ _).trans ?_) | (refine (State.command_spine _ _ _ _ _ ?_).trans ?_) | split | rfl)

theorem execIntakeArbitration_spine : ∀ (x0 : Ns) (x1 : SliceId) (s : State), ∃ u, execIntakeArbitration x0 x1 s = .next u ∧ u.spine = { s.spine with now := (s.tick x0).now } := by
  intros; refine ⟨_, rfl, ?_⟩; rw [← State.tick_spine]; generalize State.tick _ _ = u; repeat' (first | (intro _) | simp | (refine (State.each_spine _ ?_ _ _).trans ?_) | (refine (State.command_spine _ _ _ _ _ ?_).trans ?_) | split | rfl)

@[simp ↓] theorem State.fltMiss_spine : ∀ (s : State) (x1 : ℕ) (x2 : ℕ) (x3 : Entry), (State.fltMiss s x1 x2 x3).spine = s.spine := by
  intros; unfold State.fltMiss; repeat' (first | (intro _) | simp | (refine (State.each_spine _ ?_ _ _).trans ?_) | (refine (State.command_spine _ _ _ _ _ ?_).trans ?_) | split | rfl)

@[simp ↓] theorem State.spillTry_spine : ∀ (s : State) (x1 : ℕ) (x2 : ℕ) (x3 : Entry) (x4 : ℕ), (State.spillTry s x1 x2 x3 x4).spine = s.spine := by intros; simp [State.spillTry]

@[simp ↓] theorem State.spillFreed_spine : ∀ (s : State) (x1 : ℕ), (State.spillFreed s x1).spine = s.spine := by
  intros; unfold State.spillFreed; repeat' (first | (intro _) | simp | (refine (State.each_spine _ ?_ _ _).trans ?_) | (refine (State.command_spine _ _ _ _ _ ?_).trans ?_) | split | rfl)

@[simp ↓] theorem State.issueRead_spine : ∀ (s : State) (x1 : ℕ) (x2 : ℕ) (x3 : ℕ × ℕ × ℕ), (State.issueRead s x1 x2 x3).spine = s.spine := by
  intros; unfold State.issueRead; repeat' (first | (intro _) | simp | (refine (State.each_spine _ ?_ _ _).trans ?_) | (refine (State.command_spine _ _ _ _ _ ?_).trans ?_) | split | rfl)

@[simp ↓] theorem State.startRead_spine : ∀ (s : State) (x1 : ℕ) (x2 : ℕ), (State.startRead s x1 x2).spine = s.spine := by
  intros; unfold State.startRead; repeat' (first | (intro _) | simp | (refine (State.each_spine _ ?_ _ _).trans ?_) | (refine (State.command_spine _ _ _ _ _ ?_).trans ?_) | split | rfl)

@[simp ↓] theorem State.grnHit_spine : ∀ (s : State) (x1 : ℕ) (x2 : ℕ) (x3 : ℕ) (x4 : Entry) (x5 : GEntry), (State.grnHit s x1 x2 x3 x4 x5).spine = s.spine := by intros; simp [State.grnHit]

@[simp ↓] theorem State.grnMiss_spine : ∀ (s : State) (x1 : ℕ) (x2 : ℕ) (x3 : Entry), (State.grnMiss s x1 x2 x3).spine = s.spine := by intros; simp [State.grnMiss]

@[simp ↓] theorem State.silent_spine : ∀ (s : State) (x1 : ℕ) (x2 : ℕ) (x3 : ℕ) (x4 : Bool), (State.silent s x1 x2 x3 x4).spine = s.spine := by
  intros; unfold State.silent; repeat' (first | (intro _) | simp | (refine (State.each_spine _ ?_ _ _).trans ?_) | (refine (State.command_spine _ _ _ _ _ ?_).trans ?_) | split | rfl)

@[simp ↓] theorem State.dropSnoop_spine : ∀ (s : State) (x1 : ℕ) (x2 : ℕ), (State.dropSnoop s x1 x2).spine = s.spine := by intros; simp [State.dropSnoop]

@[simp ↓] theorem State.declare_spine : ∀ (s : State) (x1 : ℕ) (x2 : ℕ) (x3 : ℕ) (x4 : ℕ) (x5 : SnpForm), (State.declare s x1 x2 x3 x4 x5).spine = s.spine := by
  intros; unfold State.declare; repeat' (first | (intro _) | simp | (refine (State.each_spine _ ?_ _ _).trans ?_) | (refine (State.command_spine _ _ _ _ _ ?_).trans ?_) | split | rfl)

@[simp ↓] theorem State.sendSnoop_spine : ∀ (s : State) (x1 : ℕ) (x2 : ℕ), (State.sendSnoop s x1 x2).spine = s.spine := by
  intros; unfold State.sendSnoop; repeat' (first | (intro _) | simp | (refine (State.each_spine _ ?_ _ _).trans ?_) | (refine (State.command_spine _ _ _ _ _ ?_).trans ?_) | split | rfl)

@[simp ↓] theorem State.sendWaiting_spine : ∀ (s : State) (x1 : ℕ), (State.sendWaiting s x1).spine = s.spine := by
  intros; unfold State.sendWaiting; repeat' (first | (intro _) | simp | (refine (State.each_spine _ ?_ _ _).trans ?_) | (refine (State.command_spine _ _ _ _ _ ?_).trans ?_) | split | rfl)

@[simp ↓] theorem State.takeWaiting_spine : ∀ (s : State) (x1 : ℕ) (x2 : ℕ) (x3 : ℕ) (x4 : ℕ), (State.takeWaiting s x1 x2 x3 x4).spine = s.spine := by
  intros; unfold State.takeWaiting; repeat' (first | (intro _) | simp | (refine (State.each_spine _ ?_ _ _).trans ?_) | (refine (State.command_spine _ _ _ _ _ ?_).trans ?_) | split | rfl)

@[simp ↓] theorem State.issuing_spine : ∀ (s : State) (x1 : ℕ) (x2 : ℕ) (x3 : List ℕ), (State.issuing s x1 x2 x3).spine = s.spine := by intros; simp [State.issuing]

theorem execBisnpIssue_spine (t : Ns) (n : SliceId) (s : State) : ∃ u, execBisnpIssue t n s = .next u ∧ u.spine = { s.spine with now := (s.tick t).now } := by
  refine ⟨_, rfl, ?_⟩
  rw [← State.tick_spine]
  have h : (if (s.tick t).mute then s.tick t else State.each (fun i s => s.sendWaiting i) (List.range 16) (s.tick t)).spine = (s.tick t).spine := by
    split
    · rfl
    · exact State.each_spine _ (by intro a s; simp) _ _
  rw [← h]
  generalize (if (s.tick t).mute then s.tick t else State.each (fun i s => s.sendWaiting i) (List.range 16) (s.tick t)) = u
  (try dsimp only)
  (repeat' split) <;> simp

theorem execBisnpCredit_spine : ∀ (x0 : Ns) (x1 : IntakeId) (s : State), ∃ u, execBisnpCredit x0 x1 s = .next u ∧ u.spine = { s.spine with now := (s.tick x0).now } := by
  intros; refine ⟨_, rfl, ?_⟩; rw [← State.tick_spine]; generalize State.tick _ _ = u; repeat' (first | (intro _) | simp | (refine (State.each_spine _ ?_ _ _).trans ?_) | (refine (State.command_spine _ _ _ _ _ ?_).trans ?_) | split | rfl)

@[simp ↓] theorem State.sendRsp_spine : ∀ (s : State) (x1 : ℕ) (x2 : Snoop) (x3 : BIAns), (State.sendRsp s x1 x2 x3).spine = s.spine := by intros; simp [State.sendRsp]

theorem execBiRsp_spine : ∀ (x0 : Ns) (x1 : IntakeId) (x2 : HostId) (x3 : BitVec 42) (x4 : ℕ) (x5 : BIAns) (s : State), ∃ u, execBiRsp x0 x1 x2 x3 x4 x5 s = .next u ∧ u.spine = { s.spine with now := (s.tick x0).now } := by
  intros; refine ⟨_, rfl, ?_⟩; rw [← State.tick_spine]; generalize State.tick _ _ = u; repeat' (first | (intro _) | simp | (refine (State.each_spine _ ?_ _ _).trans ?_) | (refine (State.command_spine _ _ _ _ _ ?_).trans ?_) | split | rfl)

theorem execSnoopTimeout_spine : ∀ (x0 : Ns) (x1 : IntakeId) (x2 : ℕ) (s : State), ∃ u, execSnoopTimeout x0 x1 x2 s = .next u ∧ u.spine = { s.spine with now := (s.tick x0).now } := by
  intros; refine ⟨_, rfl, ?_⟩; rw [← State.tick_spine]; generalize State.tick _ _ = u; repeat' (first | (intro _) | simp | (refine (State.each_spine _ ?_ _ _).trans ?_) | (refine (State.command_spine _ _ _ _ _ ?_).trans ?_) | split | rfl)

theorem execNoteAck_spine : ∀ (x0 : Ns) (x1 : IntakeId) (x2 : SliceId) (x3 : Word) (x4 : ℕ) (s : State), ∃ u, execNoteAck x0 x1 x2 x3 x4 s = .next u ∧ u.spine = { s.spine with now := (s.tick x0).now } := by
  intros; refine ⟨_, rfl, ?_⟩; rw [← State.tick_spine]; generalize State.tick _ _ = u; repeat' (first | (intro _) | simp | (refine (State.each_spine _ ?_ _ _).trans ?_) | (refine (State.command_spine _ _ _ _ _ ?_).trans ?_) | split | rfl)

theorem execWriteSettle_spine : ∀ (x0 : Ns) (x1 : SliceId) (x2 : Word) (s : State), ∃ u, execWriteSettle x0 x1 x2 s = .next u ∧ u.spine = { s.spine with now := (s.tick x0).now } := by
  intros; refine ⟨_, rfl, ?_⟩; rw [← State.tick_spine]; generalize State.tick _ _ = u; repeat' (first | (intro _) | simp | (refine (State.each_spine _ ?_ _ _).trans ?_) | (refine (State.command_spine _ _ _ _ _ ?_).trans ?_) | split | rfl)

theorem execTwinAck_spine : ∀ (x0 : Ns) (x1 : SliceId) (x2 : Word) (s : State), ∃ u, execTwinAck x0 x1 x2 s = .next u ∧ u.spine = { s.spine with now := (s.tick x0).now } := by
  intros; refine ⟨_, rfl, ?_⟩; rw [← State.tick_spine]; generalize State.tick _ _ = u; repeat' (first | (intro _) | simp | (refine (State.each_spine _ ?_ _ _).trans ?_) | (refine (State.command_spine _ _ _ _ _ ?_).trans ?_) | split | rfl)

@[simp ↓] theorem State.releaseKept_spine : ∀ (s : State) (x1 : ℕ) (x2 : Kept), (State.releaseKept s x1 x2).spine = s.spine := by
  intros; unfold State.releaseKept; repeat' (first | (intro _) | simp | (refine (State.each_spine _ ?_ _ _).trans ?_) | (refine (State.command_spine _ _ _ _ _ ?_).trans ?_) | split | rfl)

theorem execIntakeResponseRelease_spine : ∀ (x0 : Ns) (x1 : IntakeId) (x2 : ℕ) (s : State), ∃ u, execIntakeResponseRelease x0 x1 x2 s = .next u ∧ u.spine = { s.spine with now := (s.tick x0).now } := by
  intros; refine ⟨_, rfl, ?_⟩; rw [← State.tick_spine]; generalize State.tick _ _ = u; repeat' (first | (intro _) | simp | (refine (State.each_spine _ ?_ _ _).trans ?_) | (refine (State.command_spine _ _ _ _ _ ?_).trans ?_) | split | rfl)

theorem execHoldTimeout_spine : ∀ (x0 : Ns) (x1 : PartId) (s : State), ∃ u, execHoldTimeout x0 x1 s = .next u ∧ u.spine = { s.spine with now := (s.tick x0).now } := by
  intros; refine ⟨_, rfl, ?_⟩; rw [← State.tick_spine]; generalize State.tick _ _ = u; repeat' (first | (intro _) | simp | (refine (State.each_spine _ ?_ _ _).trans ?_) | (refine (State.command_spine _ _ _ _ _ ?_).trans ?_) | split | rfl)

theorem execHoldOverrun_spine : ∀ (x0 : Ns) (x1 : SliceId) (x2 : ℕ) (s : State), ∃ u, execHoldOverrun x0 x1 x2 s = .next u ∧ u.spine = { s.spine with now := (s.tick x0).now } := by
  intros; refine ⟨_, rfl, ?_⟩; rw [← State.tick_spine]; generalize State.tick _ _ = u; repeat' (first | (intro _) | simp | (refine (State.each_spine _ ?_ _ _).trans ?_) | (refine (State.command_spine _ _ _ _ _ ?_).trans ?_) | split | rfl)

theorem execTrackerAge_spine : ∀ (x0 : Ns) (x1 : SliceId) (x2 : ℕ) (s : State), ∃ u, execTrackerAge x0 x1 x2 s = .next u ∧ u.spine = { s.spine with now := (s.tick x0).now } := by
  intros; refine ⟨_, rfl, ?_⟩; rw [← State.tick_spine]; generalize State.tick _ _ = u; repeat' (first | (intro _) | simp | (refine (State.each_spine _ ?_ _ _).trans ?_) | (refine (State.command_spine _ _ _ _ _ ?_).trans ?_) | split | rfl)

@[simp ↓] theorem State.mirrorPlace_spine : ∀ (s : State) (x1 : ℕ) (x2 : Req) (x3 : Bool), (State.mirrorPlace s x1 x2 x3).spine = s.spine := by intros; simp [State.mirrorPlace]

@[simp ↓] theorem State.mirrorPut_spine : ∀ (s : State) (x1 : ℕ) (x2 : Req) (x3 : Bool), (State.mirrorPut s x1 x2 x3).spine = s.spine := by
  intros; unfold State.mirrorPut; repeat' (first | (intro _) | simp | (refine (State.each_spine _ ?_ _ _).trans ?_) | (refine (State.command_spine _ _ _ _ _ ?_).trans ?_) | split | rfl)

@[simp ↓] theorem State.mirrorStep_spine (n : Nat) : ∀ (k : Nat) (s : State), (State.mirrorStep n k s).spine = s.spine
  | 0, s => by unfold State.mirrorStep; rfl
  | k + 1, s => by
    have ih := State.mirrorStep_spine n k
    unfold State.mirrorStep; repeat' (first | (intro _) | simp [ih] | (refine (State.each_spine _ ?_ _ _).trans ?_) | (refine (State.command_spine _ _ _ _ _ ?_).trans ?_) | split | rfl)

@[simp ↓] theorem State.mirrorNext_spine : ∀ (s : State) (x1 : ℕ), (State.mirrorNext s x1).spine = s.spine := by intros; simp [State.mirrorNext]

@[simp ↓] theorem State.mirrorIn_spine : ∀ (s : State) (x1 : ℕ) (x2 : Req) (x3 : Bool), (State.mirrorIn s x1 x2 x3).spine = s.spine := by
  intros; unfold State.mirrorIn; repeat' (first | (intro _) | simp | (refine (State.each_spine _ ?_ _ _).trans ?_) | (refine (State.command_spine _ _ _ _ _ ?_).trans ?_) | split | rfl)

@[simp ↓] theorem State.mirrorGot_spine : ∀ (s : State) (x1 : ℕ) (x2 : ℕ) (x3 : Line) (x4 : Bool), (State.mirrorGot s x1 x2 x3 x4).spine = s.spine := by
  intros; unfold State.mirrorGot; repeat' (first | (intro _) | simp | (refine (State.each_spine _ ?_ _ _).trans ?_) | (refine (State.command_spine _ _ _ _ _ ?_).trans ?_) | split | rfl)

@[simp ↓] theorem State.mirrorDone_spine : ∀ (s : State) (x1 : ℕ) (x2 : ℕ), (State.mirrorDone s x1 x2).spine = s.spine := by
  intros; unfold State.mirrorDone; repeat' (first | (intro _) | simp | (refine (State.each_spine _ ?_ _ _).trans ?_) | (refine (State.command_spine _ _ _ _ _ ?_).trans ?_) | split | rfl)

@[simp ↓] theorem State.recallEnd_spine : ∀ (s : State) (x1 : ℕ) (x2 : ℕ), (State.recallEnd s x1 x2).spine = s.spine := by intros; simp [State.recallEnd]

@[simp ↓] theorem State.recallGot_spine : ∀ (s : State) (x1 : ℕ) (x2 : ℕ) (x3 : Line) (x4 : ℕ) (x5 : Bool) (x6 : ℕ), (State.recallGot s x1 x2 x3 x4 x5 x6).spine = s.spine := by
  intros; unfold State.recallGot; repeat' (first | (intro _) | simp | (refine (State.each_spine _ ?_ _ _).trans ?_) | (refine (State.command_spine _ _ _ _ _ ?_).trans ?_) | split | rfl)

@[simp ↓] theorem State.recall_spine : ∀ (s : State) (x1 : ℕ), (State.recall s x1).spine = s.spine := by
  intros; unfold State.recall; repeat' (first | (intro _) | simp | (refine (State.each_spine _ ?_ _ _).trans ?_) | (refine (State.command_spine _ _ _ _ _ ?_).trans ?_) | split | rfl)

@[simp ↓] theorem State.recallsGo_spine : ∀ (s : State), (State.recallsGo s).spine = s.spine := by
  intros; unfold State.recallsGo; repeat' (first | (intro _) | simp | (refine (State.each_spine _ ?_ _ _).trans ?_) | (refine (State.command_spine _ _ _ _ _ ?_).trans ?_) | split | rfl)

@[simp ↓] theorem State.startCopy_spine : ∀ (x0 : ℕ) (x1 : MovRec) (x2 : ℕ) (x3 : ℕ) (s : State), (State.startCopy x0 x1 x2 x3 s).spine = s.spine := by
  intros; unfold State.startCopy; repeat' (first | (intro _) | simp | (refine (State.each_spine _ ?_ _ _).trans ?_) | (refine (State.command_spine _ _ _ _ _ ?_).trans ?_) | split | rfl)

@[simp ↓] theorem State.pumpCopies_spine : ∀ (s : State) (x1 : ℕ), (State.pumpCopies s x1).spine = s.spine := by
  intros; unfold State.pumpCopies; repeat' (first | (intro _) | simp | (refine (State.each_spine _ ?_ _ _).trans ?_) | (refine (State.command_spine _ _ _ _ _ ?_).trans ?_) | split | rfl)

@[simp ↓] theorem State.pumpPort_spine : ∀ (s : State) (x1 : ℕ), (State.pumpPort s x1).spine = s.spine := by
  intros; unfold State.pumpPort; repeat' (first | (intro _) | simp | (refine (State.each_spine _ ?_ _ _).trans ?_) | (refine (State.command_spine _ _ _ _ _ ?_).trans ?_) | split | rfl)

@[simp ↓] theorem State.readAgain_spine : ∀ (s : State) (x1 : ℕ) (x2 : ℕ), (State.readAgain s x1 x2).spine = s.spine := by
  intros; unfold State.readAgain; repeat' (first | (intro _) | simp | (refine (State.each_spine _ ?_ _ _).trans ?_) | (refine (State.command_spine _ _ _ _ _ ?_).trans ?_) | split | rfl)

@[simp ↓] theorem State.hostUse_spine : ∀ (s : State) (x1 : ℕ) (x2 : ℕ) (x3 : Entry) (x4 : Bool) (x5 : Codeword), (State.hostUse s x1 x2 x3 x4 x5).2.spine = s.spine := by intros; simp [State.hostUse]

@[simp ↓] theorem State.hostGot_spine : ∀ (s : State) (x1 : ℕ) (x2 : ℕ) (x3 : ℕ) (x4 : MOp) (x5 : Codeword) (x6 : Bool) (x7 : Bool), (State.hostGot s x1 x2 x3 x4 x5 x6 x7).spine = s.spine := by
  intros; unfold State.hostGot; repeat' (first | (intro _) | simp | (refine (State.each_spine _ ?_ _ _).trans ?_) | (refine (State.command_spine _ _ _ _ _ ?_).trans ?_) | split | rfl)

@[simp ↓] theorem State.hostLost_spine : ∀ (s : State) (x1 : ℕ) (x2 : ℕ) (x3 : ℕ) (x4 : MOp) (x5 : Bool), (State.hostLost s x1 x2 x3 x4 x5).spine = s.spine := by
  intros; unfold State.hostLost; repeat' (first | (intro _) | simp | (refine (State.each_spine _ ?_ _ _).trans ?_) | (refine (State.command_spine _ _ _ _ _ ?_).trans ?_) | split | rfl)

@[simp ↓] theorem State.dropInt_spine : ∀ (s : State) (x1 : ℕ) (x2 : ℕ), (State.dropInt s x1 x2).spine = s.spine := by
  intros; unfold State.dropInt; repeat' (first | (intro _) | simp | (refine (State.each_spine _ ?_ _ _).trans ?_) | (refine (State.command_spine _ _ _ _ _ ?_).trans ?_) | split | rfl)

@[simp ↓] theorem State.intGot_spine : ∀ (s : State) (x1 : ℕ) (x2 : ℕ) (x3 : ℕ) (x4 : MOp) (x5 : Codeword) (x6 : Bool), (State.intGot s x1 x2 x3 x4 x5 x6).spine = s.spine := by
  intros; unfold State.intGot; repeat' (first | (intro _) | simp | (refine (State.each_spine _ ?_ _ _).trans ?_) | (refine (State.command_spine _ _ _ _ _ ?_).trans ?_) | split | rfl)

@[simp ↓] theorem State.intLost_spine : ∀ (s : State) (x1 : ℕ) (x2 : ℕ) (x3 : ℕ) (x4 : MOp) (x5 : Bool), (State.intLost s x1 x2 x3 x4 x5).spine = s.spine := by
  intros; unfold State.intLost; repeat' (first | (intro _) | simp | (refine (State.each_spine _ ?_ _ _).trans ?_) | (refine (State.command_spine _ _ _ _ _ ?_).trans ?_) | split | rfl)

@[simp ↓] theorem State.sendCw_spine : ∀ (s : State) (x1 : ℕ) (x2 : MOp) (x3 : Codeword), (State.sendCw s x1 x2 x3).spine = s.spine := by intros; simp [State.sendCw]

theorem execMediaReadReturn_spine : ∀ (x0 : Ns) (x1 : MediaId) (x2 : ℕ) (x3 : Codeword) (s : State), ∃ u, execMediaReadReturn x0 x1 x2 x3 s = .next u ∧ u.spine = { s.spine with now := (s.tick x0).now } := by
  intros; refine ⟨_, rfl, ?_⟩; rw [← State.tick_spine]; generalize State.tick _ _ = u; repeat' (first | (intro _) | simp | (refine (State.each_spine _ ?_ _ _).trans ?_) | (refine (State.command_spine _ _ _ _ _ ?_).trans ?_) | split | rfl)

@[simp ↓] theorem State.dirwDone_spine : ∀ (s : State) (x1 : ℕ) (x2 : DirW), (State.dirwDone s x1 x2).spine = s.spine := by
  intros; unfold State.dirwDone; repeat' (first | (intro _) | simp | (refine (State.each_spine _ ?_ _ _).trans ?_) | (refine (State.command_spine _ _ _ _ _ ?_).trans ?_) | split | rfl)

@[simp ↓] theorem State.dirRelease_spine : ∀ (s : State) (x1 : ℕ), (State.dirRelease s x1).spine = s.spine := by
  intros; unfold State.dirRelease; repeat' (first | (intro _) | simp | (refine (State.each_spine _ ?_ _ _).trans ?_) | (refine (State.command_spine _ _ _ _ _ ?_).trans ?_) | split | rfl)

@[simp ↓] theorem State.rmwGot_spine : ∀ (s : State) (x1 : ℕ) (x2 : DirW) (x3 : Codeword), (State.rmwGot s x1 x2 x3).spine = s.spine := by intros; simp [State.rmwGot]

@[simp ↓] theorem State.rmwLost_spine : ∀ (s : State) (x1 : ℕ) (x2 : ℕ) (x3 : DirW) (x4 : Bool), (State.rmwLost s x1 x2 x3 x4).spine = s.spine := by intros; simp [State.rmwLost]

theorem execMediaRmw_spine : ∀ (x0 : Ns) (x1 : MediaId) (x2 : ℕ) (x3 : Codeword) (s : State), ∃ u, execMediaRmw x0 x1 x2 x3 s = .next u ∧ u.spine = { s.spine with now := (s.tick x0).now } := by
  intros; refine ⟨_, rfl, ?_⟩; rw [← State.tick_spine]; generalize State.tick _ _ = u; repeat' (first | (intro _) | simp | (refine (State.each_spine _ ?_ _ _).trans ?_) | (refine (State.command_spine _ _ _ _ _ ?_).trans ?_) | split | rfl)

@[simp ↓] theorem State.evictDone_spine : ∀ (s : State) (x1 : ℕ) (x2 : ℕ) (x3 : ℕ), (State.evictDone s x1 x2 x3).spine = s.spine := by
  intros; unfold State.evictDone; repeat' (first | (intro _) | simp | (refine (State.each_spine _ ?_ _ _).trans ?_) | (refine (State.command_spine _ _ _ _ _ ?_).trans ?_) | split | rfl)

@[simp ↓] theorem State.evictAccepted_spine : ∀ (s : State) (x1 : ℕ) (x2 : ℕ) (x3 : ℕ), (State.evictAccepted s x1 x2 x3).spine = s.spine := by
  intros; unfold State.evictAccepted; repeat' (first | (intro _) | simp | (refine (State.each_spine _ ?_ _ _).trans ?_) | (refine (State.command_spine _ _ _ _ _ ?_).trans ?_) | split | rfl)

@[simp ↓] theorem State.cleanNote_spine : ∀ (s : State) (x1 : ℕ) (x2 : ℕ) (x3 : ℕ), (State.cleanNote s x1 x2 x3).spine = s.spine := by intros; simp [State.cleanNote]

@[simp ↓] theorem State.acceptedFor_spine : ∀ (s : State) (x1 : ℕ) (x2 : MOp), (State.acceptedFor s x1 x2).spine = s.spine := by
  intros; unfold State.acceptedFor; repeat' (first | (intro _) | simp | (refine (State.each_spine _ ?_ _ _).trans ?_) | (refine (State.command_spine _ _ _ _ _ ?_).trans ?_) | split | rfl)

@[simp ↓] theorem State.sendMack_spine : ∀ (s : State) (x1 : ℕ) (x2 : MOp) (x3 : Bool), (State.sendMack s x1 x2 x3).spine = s.spine := by intros; simp [State.sendMack]

theorem execMediaWriteAccepted_spine : ∀ (x0 : Ns) (x1 : MediaId) (x2 : ℕ) (s : State), ∃ u, execMediaWriteAccepted x0 x1 x2 s = .next u ∧ u.spine = { s.spine with now := (s.tick x0).now } := by
  intros; refine ⟨_, rfl, ?_⟩; rw [← State.tick_spine]; generalize State.tick _ _ = u; repeat' (first | (intro _) | simp | (refine (State.each_spine _ ?_ _ _).trans ?_) | (refine (State.command_spine _ _ _ _ _ ?_).trans ?_) | split | rfl)

@[simp ↓] theorem State.cleanLine_spine : ∀ (s : State) (x1 : ℕ) (x2 : MOp), (State.cleanLine s x1 x2).spine = s.spine := by
  intros; unfold State.cleanLine; repeat' (first | (intro _) | simp | (refine (State.each_spine _ ?_ _ _).trans ?_) | (refine (State.command_spine _ _ _ _ _ ?_).trans ?_) | split | rfl)

@[simp ↓] theorem State.drainOver_spine : ∀ (s : State), (State.drainOver s).spine = s.spine := by intros; simp [State.drainOver]

theorem execMediaWriteComplete_spine : ∀ (x0 : Ns) (x1 : MediaId) (x2 : ℕ) (s : State), ∃ u, execMediaWriteComplete x0 x1 x2 s = .next u ∧ u.spine = { s.spine with now := (s.tick x0).now } := by
  intros; refine ⟨_, rfl, ?_⟩; rw [← State.tick_spine]; generalize State.tick _ _ = u; repeat' (first | (intro _) | simp | (refine (State.each_spine _ ?_ _ _).trans ?_) | (refine (State.command_spine _ _ _ _ _ ?_).trans ?_) | split | rfl)

@[simp ↓] theorem State.repeatOp_spine : ∀ (s : State) (x1 : ℕ) (x2 : MOp), (State.repeatOp s x1 x2).spine = s.spine := by intros; simp [State.repeatOp]

theorem execMediaReadTimeout_spine : ∀ (x0 : Ns) (x1 : MediaId) (x2 : ℕ) (s : State), ∃ u, execMediaReadTimeout x0 x1 x2 s = .next u ∧ u.spine = { s.spine with now := (s.tick x0).now } := by
  intros; refine ⟨_, rfl, ?_⟩; rw [← State.tick_spine]; generalize State.tick _ _ = u; repeat' (first | (intro _) | simp | (refine (State.each_spine _ ?_ _ _).trans ?_) | (refine (State.command_spine _ _ _ _ _ ?_).trans ?_) | split | rfl)

theorem execMediaWriteTimeout_spine : ∀ (x0 : Ns) (x1 : MediaId) (x2 : ℕ) (s : State), ∃ u, execMediaWriteTimeout x0 x1 x2 s = .next u ∧ u.spine = { s.spine with now := (s.tick x0).now } := by
  intros; refine ⟨_, rfl, ?_⟩; rw [← State.tick_spine]; generalize State.tick _ _ = u; repeat' (first | (intro _) | simp | (refine (State.each_spine _ ?_ _ _).trans ?_) | (refine (State.command_spine _ _ _ _ _ ?_).trans ?_) | split | rfl)

theorem execMediaPortFault_spine : ∀ (x0 : Ns) (x1 : MediaId) (x2 : Byte) (s : State), ∃ u, execMediaPortFault x0 x1 x2 s = .next u ∧ u.spine = { s.spine with now := (s.tick x0).now } := by
  intros; refine ⟨_, rfl, ?_⟩; rw [← State.tick_spine]; generalize State.tick _ _ = u; repeat' (first | (intro _) | simp | (refine (State.each_spine _ ?_ _ _).trans ?_) | (refine (State.command_spine _ _ _ _ _ ?_).trans ?_) | split | rfl)

@[simp ↓] theorem State.cachePut_spine : ∀ (s : State) (x1 : ℕ), (State.cachePut s x1).spine = s.spine := by intros; simp [State.cachePut]

@[simp ↓] theorem State.walkGot_spine : ∀ (s : State) (x1 : ℕ) (x2 : ℕ) (x3 : ℕ) (x4 : Quad), (State.walkGot s x1 x2 x3 x4).spine = s.spine := by
  intros; unfold State.walkGot; repeat' (first | (intro _) | simp | (refine (State.each_spine _ ?_ _ _).trans ?_) | (refine (State.command_spine _ _ _ _ _ ?_).trans ?_) | split | rfl)

theorem execTractWalk_spine : ∀ (x0 : Ns) (x1 : SliceId) (x2 : ℕ) (x3 : MapRead) (s : State), ∃ u, execTractWalk x0 x1 x2 x3 s = .next u ∧ u.spine = { s.spine with now := (s.tick x0).now } := by
  intros; refine ⟨_, rfl, ?_⟩; rw [← State.tick_spine]; generalize State.tick _ _ = u; repeat' (first | (intro _) | simp | (refine (State.each_spine _ ?_ _ _).trans ?_) | (refine (State.command_spine _ _ _ _ _ ?_).trans ?_) | split | rfl)

@[simp ↓] theorem State.bufPut_spine : ∀ (s : State) (x1 : ℕ) (x2 : ℕ) (x3 : Quad), (State.bufPut s x1 x2 x3).spine = s.spine := by intros; simp [State.bufPut]

theorem execWalkResponse_spine : ∀ (x0 : Ns) (x1 : SliceId) (x2 : ℕ) (s : State), ∃ u, execWalkResponse x0 x1 x2 s = .next u ∧ u.spine = { s.spine with now := (s.tick x0).now } := by
  intros; refine ⟨_, rfl, ?_⟩; rw [← State.tick_spine]; generalize State.tick _ _ = u; repeat' (first | (intro _) | simp | (refine (State.each_spine _ ?_ _ _).trans ?_) | (refine (State.command_spine _ _ _ _ _ ?_).trans ?_) | split | rfl)

theorem execTractFreeze_spine : ∀ (x0 : Ns) (x1 : BitVec 32) (s : State), ∃ u, execTractFreeze x0 x1 s = .next u ∧ u.spine = { s.spine with now := (s.tick x0).now } := by
  intros; refine ⟨_, rfl, ?_⟩; rw [← State.tick_spine]; generalize State.tick _ _ = u; repeat' (first | (intro _) | simp | (refine (State.each_spine _ ?_ _ _).trans ?_) | (refine (State.command_spine _ _ _ _ _ ?_).trans ?_) | split | rfl)

@[simp ↓] theorem State.endFrozen_spine : ∀ (s : State) (x1 : ℕ), (State.endFrozen s x1).spine = s.spine := by
  intros; unfold State.endFrozen; repeat' (first | (intro _) | simp | (refine (State.each_spine _ ?_ _ _).trans ?_) | (refine (State.command_spine _ _ _ _ _ ?_).trans ?_) | split | rfl)

@[simp ↓] theorem State.thaw_spine : ∀ (s : State) (x1 : ℕ) (x2 : Quad), (State.thaw s x1 x2).spine = s.spine := by intros; simp [State.thaw]

theorem execThawAttempt_spine : ∀ (x0 : Ns) (x1 : BitVec 32) (x2 : Option Quad) (x3 : Bool) (s : State), ∃ u, execThawAttempt x0 x1 x2 x3 s = .next u ∧ u.spine = { s.spine with now := (s.tick x0).now } := by
  intros; refine ⟨_, rfl, ?_⟩; rw [← State.tick_spine]; generalize State.tick _ _ = u; repeat' (first | (intro _) | simp | (refine (State.each_spine _ ?_ _ _).trans ?_) | (refine (State.command_spine _ _ _ _ _ ?_).trans ?_) | split | rfl)

theorem execFrozenWriteHoldExpiry_spine : ∀ (x0 : Ns) (x1 : BitVec 32) (s : State), ∃ u, execFrozenWriteHoldExpiry x0 x1 s = .next u ∧ u.spine = { s.spine with now := (s.tick x0).now } := by
  intros; refine ⟨_, rfl, ?_⟩; rw [← State.tick_spine]; generalize State.tick _ _ = u; repeat' (first | (intro _) | simp | (refine (State.each_spine _ ?_ _ _).trans ?_) | (refine (State.command_spine _ _ _ _ _ ?_).trans ?_) | split | rfl)

@[simp ↓] theorem State.retireSpare_spine : ∀ (s : State) (x1 : ℕ) (x2 : ℕ), (State.retireSpare s x1 x2).spine = s.spine := by intros; simp [State.retireSpare]

@[simp ↓] theorem State.retireOne_spine : ∀ (s : State) (x1 : ℕ) (x2 : ℕ), (State.retireOne s x1 x2).2.spine = s.spine := by
  intros; unfold State.retireOne; repeat' (first | (intro _) | simp | (refine (State.each_spine _ ?_ _ _).trans ?_) | (refine (State.command_spine _ _ _ _ _ ?_).trans ?_) | split | rfl)

@[simp ↓] theorem State.retireRun_spine (m : Nat) : ∀ (k : Nat) (a b : Nat) (s : State), (State.retireRun m k a b s).2.spine = s.spine
  | 0, a, b, s => by unfold State.retireRun; rfl
  | k + 1, a, b, s => by
    have ih := State.retireRun_spine m k
    unfold State.retireRun; repeat' (first | (intro _) | simp [ih] | (refine (State.each_spine _ ?_ _ _).trans ?_) | (refine (State.command_spine _ _ _ _ _ ?_).trans ?_) | split | rfl)

theorem execRetireRange_spine : ∀ (x0 : Ns) (x1 : Mbx) (s : State), ∃ u, execRetireRange x0 x1 s = .next u ∧ u.spine = { s.spine with now := (s.tick x0).now } := by
  intros; refine ⟨_, rfl, ?_⟩; rw [← State.tick_spine]; generalize State.tick _ _ = u; repeat' (first | (intro _) | simp | (refine (State.each_spine _ ?_ _ _).trans ?_) | (refine (State.command_spine _ _ _ _ _ ?_).trans ?_) | split | rfl)

end Sys2Proof.Machine
end

