-- ==== Sys2Proof/Laws/SpineUnit.lean ====
section
/-! SUPPORT. The spine of the state (the queue, scratch, the time, the fail-safe state, the OTP contents) under every operation: fences, units, instants, barriers, the twin and the heat tables. -/

set_option linter.all false

namespace Sys2Proof.Machine

@[simp ↓] theorem State.sinkOn_spine : ∀ (s : State) (x1 : ℕ) (x2 : ℕ), (State.sinkOn s x1 x2).spine = s.spine := by intros; simp [State.sinkOn]

@[simp ↓] theorem State.fencePackets_spine : ∀ (s : State) (x1 : ℕ), (State.fencePackets s x1).spine = s.spine := by
  intros; unfold State.fencePackets; repeat' (first | (intro _) | simp | (refine (State.each_spine _ ?_ _ _).trans ?_) | (refine (State.command_spine _ _ _ _ _ ?_).trans ?_) | split | rfl)

@[simp ↓] theorem State.abandonInt_spine : ∀ (s : State) (x1 : ℕ), (State.abandonInt s x1).spine = s.spine := by
  intros; unfold State.abandonInt; repeat' (first | (intro _) | simp | (refine (State.each_spine _ ?_ _ _).trans ?_) | (refine (State.command_spine _ _ _ _ _ ?_).trans ?_) | split | rfl)

@[simp ↓] theorem State.endHandover_spine : ∀ (s : State) (x1 : ℕ), (State.endHandover s x1).spine = s.spine := by intros; simp [State.endHandover]

@[simp ↓] theorem State.fenceSlice_spine : ∀ (s : State) (x1 : ℕ), (State.fenceSlice s x1).spine = s.spine := by
  intros; unfold State.fenceSlice; repeat' (first | (intro _) | simp | (refine (State.each_spine _ ?_ _ _).trans ?_) | (refine (State.command_spine _ _ _ _ _ ?_).trans ?_) | split | rfl)

@[simp ↓] theorem State.fenceStook_spine : ∀ (s : State) (x1 : ℕ), (State.fenceStook s x1).spine = s.spine := by
  intros; unfold State.fenceStook; repeat' (first | (intro _) | simp | (refine (State.each_spine _ ?_ _ _).trans ?_) | (refine (State.command_spine _ _ _ _ _ ?_).trans ?_) | split | rfl)

@[simp ↓] theorem State.onCover_spine : ∀ (s : State) (x1 : ℕ) (x2 : Cover → Cover), (State.onCover s x1 x2).spine = s.spine := by intros; simp [State.onCover]

@[simp ↓] theorem State.askRecall_spine : ∀ (s : State) (x1 : ℕ), (State.askRecall s x1).spine = s.spine := by
  intros; unfold State.askRecall; repeat' (first | (intro _) | simp | (refine (State.each_spine _ ?_ _ _).trans ?_) | (refine (State.command_spine _ _ _ _ _ ?_).trans ?_) | split | rfl)

theorem execDgAdvancePersisted_spine : ∀ (x0 : Ns) (x1 : SliceId) (s : State), ∃ u, execDgAdvancePersisted x0 x1 s = .next u ∧ u.spine = { s.spine with now := (s.tick x0).now } := by
  intros; refine ⟨_, rfl, ?_⟩; rw [← State.tick_spine]; generalize State.tick _ _ = u; repeat' (first | (intro _) | simp | (refine (State.each_spine _ ?_ _ _).trans ?_) | (refine (State.command_spine _ _ _ _ _ ?_).trans ?_) | split | rfl)

theorem execRecallReturn_spine : ∀ (x0 : Ns) (x1 : SliceId) (x2 : List RecallLine) (s : State), ∃ u, execRecallReturn x0 x1 x2 s = .next u ∧ u.spine = { s.spine with now := (s.tick x0).now } := by
  intros; refine ⟨_, rfl, ?_⟩; rw [← State.tick_spine]; generalize State.tick _ _ = u; repeat' (first | (intro _) | simp | (refine (State.each_spine _ ?_ _ _).trans ?_) | (refine (State.command_spine _ _ _ _ _ ?_).trans ?_) | split | rfl)

theorem execRecallGapTimeout_spine : ∀ (x0 : Ns) (x1 : SliceId) (s : State), ∃ u, execRecallGapTimeout x0 x1 s = .next u ∧ u.spine = { s.spine with now := (s.tick x0).now } := by
  intros; refine ⟨_, rfl, ?_⟩; rw [← State.tick_spine]; generalize State.tick _ _ = u; repeat' (first | (intro _) | simp | (refine (State.each_spine _ ?_ _ _).trans ?_) | (refine (State.command_spine _ _ _ _ _ ?_).trans ?_) | split | rfl)

theorem execReplayList_spine : ∀ (x0 : Ns) (x1 : IntakeId) (x2 : SliceId) (s : State), ∃ u, execReplayList x0 x1 x2 s = .next u ∧ u.spine = { s.spine with now := (s.tick x0).now } := by
  intros; refine ⟨_, rfl, ?_⟩; rw [← State.tick_spine]; generalize State.tick _ _ = u; repeat' (first | (intro _) | simp | (refine (State.each_spine _ ?_ _ _).trans ?_) | (refine (State.command_spine _ _ _ _ _ ?_).trans ?_) | split | rfl)

@[simp ↓] theorem State.alreadyHeld_spine : ∀ (s : State) (x1 : ℕ) (x2 : Req) (x3 : ℕ), (State.alreadyHeld s x1 x2 x3).spine = s.spine := by intros; simp [State.alreadyHeld]

@[simp ↓] theorem State.replayOne_spine : ∀ (s : State) (x1 : ℕ) (x2 : Cover) (x3 : Req), (State.replayOne s x1 x2 x3).spine = s.spine := by
  intros; unfold State.replayOne; repeat' (first | (intro _) | simp | (refine (State.each_spine _ ?_ _ _).trans ?_) | (refine (State.command_spine _ _ _ _ _ ?_).trans ?_) | split | rfl)

@[simp ↓] theorem State.restream_spine : ∀ (s : State) (x1 : ℕ) (x2 : Req), (State.restream s x1 x2).spine = s.spine := by intros; simp [State.restream]

theorem execEndOfReplay_spine : ∀ (x0 : Ns) (x1 : SliceId) (s : State), ∃ u, execEndOfReplay x0 x1 s = .next u ∧ u.spine = { s.spine with now := (s.tick x0).now } := by
  intros; refine ⟨_, rfl, ?_⟩; rw [← State.tick_spine]; generalize State.tick _ _ = u; repeat' (first | (intro _) | simp | (refine (State.each_spine _ ?_ _ _).trans ?_) | (refine (State.command_spine _ _ _ _ _ ?_).trans ?_) | split | rfl)

@[simp ↓] theorem State.recallsFail_spine : ∀ (s : State), (State.recallsFail s).spine = s.spine := by
  intros; unfold State.recallsFail; repeat' (first | (intro _) | simp | (refine (State.each_spine _ ?_ _ _).trans ?_) | (refine (State.command_spine _ _ _ _ _ ?_).trans ?_) | split | rfl)

theorem execSlicePrepare_spine : ∀ (x0 : Ns) (x1 : SliceId) (s : State), ∃ u, execSlicePrepare x0 x1 s = .next u ∧ u.spine = { s.spine with now := (s.tick x0).now } := by
  intros; refine ⟨_, rfl, ?_⟩; rw [← State.tick_spine]; generalize State.tick _ _ = u; repeat' (first | (intro _) | simp | (refine (State.each_spine _ ?_ _ _).trans ?_) | (refine (State.command_spine _ _ _ _ _ ?_).trans ?_) | split | rfl)

@[simp ↓] theorem State.unprepare_spine : ∀ (s : State) (x1 : ℕ), (State.unprepare s x1).spine = s.spine := by intros; simp [State.unprepare]

@[simp ↓] theorem State.sliceOff_spine : ∀ (s : State) (x1 : ℕ), (State.sliceOff s x1).spine = s.spine := by intros; simp [State.sliceOff]

@[simp ↓] theorem State.sliceOn_spine : ∀ (s : State) (x1 : ℕ), (State.sliceOn s x1).spine = s.spine := by
  intros; unfold State.sliceOn; repeat' (first | (intro _) | simp | (refine (State.each_spine _ ?_ _ _).trans ?_) | (refine (State.command_spine _ _ _ _ _ ?_).trans ?_) | split | rfl)

theorem execHandoverOverrun_spine : ∀ (x0 : Ns) (x1 : SliceId) (s : State), ∃ u, execHandoverOverrun x0 x1 s = .next u ∧ u.spine = { s.spine with now := (s.tick x0).now } := by
  intros; refine ⟨_, rfl, ?_⟩; rw [← State.tick_spine]; generalize State.tick _ _ = u; repeat' (first | (intro _) | simp | (refine (State.each_spine _ ?_ _ _).trans ?_) | (refine (State.command_spine _ _ _ _ _ ?_).trans ?_) | split | rfl)

@[simp ↓] theorem State.enableOne_spine : ∀ (s : State) (x1 : ℕ), (State.enableOne s x1).2.spine = s.spine := by
  intros; unfold State.enableOne; repeat' (first | (intro _) | simp | (refine (State.each_spine _ ?_ _ _).trans ?_) | (refine (State.command_spine _ _ _ _ _ ?_).trans ?_) | split | rfl)

@[simp ↓] theorem State.enableRun_spine  : ∀ (k : Nat) (a : Nat) (b : Bool) (s : State), (State.enableRun k a b s).2.spine = s.spine
  | 0, a, b, s => by unfold State.enableRun; rfl
  | k + 1, a, b, s => by
    have ih := State.enableRun_spine k
    unfold State.enableRun; repeat' (first | (intro _) | simp [ih] | (refine (State.each_spine _ ?_ _ _).trans ?_) | (refine (State.command_spine _ _ _ _ _ ?_).trans ?_) | split | rfl)

theorem execEnableInstant_spine : ∀ (x0 : Ns) (x1 : SlotId) (s : State), ∃ u, execEnableInstant x0 x1 s = .next u ∧ u.spine = { s.spine with now := (s.tick x0).now } := by
  intros; refine ⟨_, rfl, ?_⟩; rw [← State.tick_spine]; generalize State.tick _ _ = u; repeat' (first | (intro _) | simp | (refine (State.each_spine _ ?_ _ _).trans ?_) | (refine (State.command_spine _ _ _ _ _ ?_).trans ?_) | split | rfl)

@[simp ↓] theorem State.refusePage_spine : ∀ (s : State) (x1 : ℕ), (State.refusePage s x1).spine = s.spine := by intros; simp [State.refusePage]

@[simp ↓] theorem State.pageRead_spine : ∀ (s : State) (x1 : ℕ) (x2 : ℕ) (x3 : ℕ) (x4 : ℕ), (State.pageRead s x1 x2 x3 x4).2.spine = s.spine := by intros; simp [State.pageRead]

@[simp ↓] theorem State.pageWrite_spine : ∀ (s : State) (x1 : ℕ) (x2 : ℕ) (x3 : ℕ) (x4 : ℕ), (State.pageWrite s x1 x2 x3 x4).spine = s.spine := by intros; simp [State.pageWrite]

theorem execHandshakeWatchdog_spine : ∀ (x0 : Ns) (x1 : HsWait) (s : State), ∃ u, execHandshakeWatchdog x0 x1 s = .next u ∧ u.spine = { s.spine with now := (s.tick x0).now } := by
  intros; refine ⟨_, rfl, ?_⟩; rw [← State.tick_spine]; generalize State.tick _ _ = u; repeat' (first | (intro _) | simp | (refine (State.each_spine _ ?_ _ _).trans ?_) | (refine (State.command_spine _ _ _ _ _ ?_).trans ?_) | split | rfl)

theorem execSliceFallowEntry_spine : ∀ (x0 : Ns) (x1 : SliceId) (s : State), ∃ u, execSliceFallowEntry x0 x1 s = .next u ∧ u.spine = { s.spine with now := (s.tick x0).now } := by
  intros; refine ⟨_, rfl, ?_⟩; rw [← State.tick_spine]; generalize State.tick _ _ = u; repeat' (first | (intro _) | simp | (refine (State.each_spine _ ?_ _ _).trans ?_) | (refine (State.command_spine _ _ _ _ _ ?_).trans ?_) | split | rfl)

theorem execStookFallowEntry_spine : ∀ (x0 : Ns) (x1 : StookId) (s : State), ∃ u, execStookFallowEntry x0 x1 s = .next u ∧ u.spine = { s.spine with now := (s.tick x0).now } := by
  intros; refine ⟨_, rfl, ?_⟩; rw [← State.tick_spine]; generalize State.tick _ _ = u; repeat' (first | (intro _) | simp | (refine (State.each_spine _ ?_ _ _).trans ?_) | (refine (State.command_spine _ _ _ _ _ ?_).trans ?_) | split | rfl)

theorem execRouterFallowEntry_spine : ∀ (x0 : Ns) (x1 : SiteId) (s : State), ∃ u, execRouterFallowEntry x0 x1 s = .next u ∧ u.spine = { s.spine with now := (s.tick x0).now } := by
  intros; refine ⟨_, rfl, ?_⟩; rw [← State.tick_spine]; generalize State.tick _ _ = u; repeat' (first | (intro _) | simp | (refine (State.each_spine _ ?_ _ _).trans ?_) | (refine (State.command_spine _ _ _ _ _ ?_).trans ?_) | split | rfl)

theorem execUnitWake_spine : ∀ (x0 : Ns) (x1 : HsUnit) (s : State), ∃ u, execUnitWake x0 x1 s = .next u ∧ u.spine = { s.spine with now := (s.tick x0).now } := by
  intros; refine ⟨_, rfl, ?_⟩; rw [← State.tick_spine]; generalize State.tick _ _ = u; repeat' (first | (intro _) | simp | (refine (State.each_spine _ ?_ _ _).trans ?_) | (refine (State.command_spine _ _ _ _ _ ?_).trans ?_) | split | rfl)

@[simp ↓] theorem State.goWt_spine : ∀ (s : State) (x1 : ℕ), (State.goWt s x1).spine = s.spine := by intros; simp [State.goWt]

@[simp ↓] theorem State.leaveWt_spine : ∀ (s : State) (x1 : ℕ), (State.leaveWt s x1).spine = s.spine := by intros; simp [State.leaveWt]

theorem execEnergyOkFall_spine : ∀ (x0 : Ns) (s : State), ∃ u, execEnergyOkFall x0 s = .next u ∧ u.spine = { s.spine with now := (s.tick x0).now } := by
  intros; refine ⟨_, rfl, ?_⟩; rw [← State.tick_spine]; generalize State.tick _ _ = u; repeat' (first | (intro _) | simp | (refine (State.each_spine _ ?_ _ _).trans ?_) | (refine (State.command_spine _ _ _ _ _ ?_).trans ?_) | split | rfl)

theorem execEnergyOkRise_spine : ∀ (x0 : Ns) (s : State), ∃ u, execEnergyOkRise x0 s = .next u ∧ u.spine = { s.spine with now := (s.tick x0).now } := by
  intros; refine ⟨_, rfl, ?_⟩; rw [← State.tick_spine]; generalize State.tick _ _ = u; repeat' (first | (intro _) | simp | (refine (State.each_spine _ ?_ _ _).trans ?_) | (refine (State.command_spine _ _ _ _ _ ?_).trans ?_) | split | rfl)

/-- What a write that reaches NCH_GRN_CTL can do to the spine: scratch bytes are cleared, and the canonical form stands (R272). -/
def Spine.Mem (a b : Spine) : Prop := b = { a with scratch := b.scratch } ∧ (Memory.wf a.scratch = true → Memory.wf b.scratch = true)

theorem Spine.mem_of_eq {a b : Spine} (h : b = a) : Spine.Mem a b := by subst h; exact ⟨rfl, id⟩

theorem State.setGrnCtl_spine (s : State) (n : Nat) (c : GrnCtl) :
    (s.setGrnCtl n c).spine = { s.spine with scratch := clearCells n (s.slc n).banks.ctl.carve.toNat c.carve.toNat s.scratch } := by
  simp only [State.setGrnCtl, State.endWaits_spine, State.onBanks_spine, State.onPlace_spine]; rfl

theorem State.setGrnCtl_mem (s : State) (n : Nat) (c : GrnCtl) : Spine.Mem s.spine (s.setGrnCtl n c).spine := by
  rw [State.setGrnCtl_spine]
  exact ⟨rfl, fun h => Memory.wf_clearCells _ _ _ _ h⟩

theorem execGrnCtlWrite_spine (t : Ns) (n : SliceId) (v : Word) (s : State) : ∃ u, execGrnCtlWrite t n v s = .next u ∧
    Spine.Mem { s.spine with now := (s.tick t).now } u.spine := by
  refine ⟨_, rfl, ?_⟩
  rw [← State.tick_spine]
  generalize s.tick t = u
  (try dsimp only)
  split
  · exact Spine.mem_of_eq (State.ignSlc_spine _ _ _)
  · have h := State.setGrnCtl_mem (u.rouse n.val) n.val (grnCtlOf v.toNat)
    rw [State.rouse_spine] at h
    exact h

@[simp ↓] theorem State.scratchRefuse_spine : ∀ (s : State) (x1 : ScrWho) (x2 : Bool), (State.scratchRefuse s x1 x2).spine = s.spine := by
  intros; unfold State.scratchRefuse; repeat' (first | (intro _) | simp | (refine (State.each_spine _ ?_ _ _).trans ?_) | (refine (State.command_spine _ _ _ _ _ ?_).trans ?_) | split | rfl)

@[simp ↓] theorem State.scrPackets_spine : ∀ (s : State) (x1 : ScrWho) (x2 : ℕ) (x3 : ℕ) (x4 : ℕ) (x5 : Bool) (x6 : ℕ), (State.scrPackets s x1 x2 x3 x4 x5 x6).spine = s.spine := by
  intros; unfold State.scrPackets; repeat' (first | (intro _) | simp | (refine (State.each_spine _ ?_ _ _).trans ?_) | (refine (State.command_spine _ _ _ _ _ ?_).trans ?_) | split | rfl)

@[simp ↓] theorem State.scratchOdd_spine : ∀ (s : State) (x1 : ScrWho) (x2 : Option (ℕ × ℕ)), (State.scratchOdd s x1 x2).spine = s.spine := by
  intros; unfold State.scratchOdd; repeat' (first | (intro _) | simp | (refine (State.each_spine _ ?_ _ _).trans ?_) | (refine (State.command_spine _ _ _ _ _ ?_).trans ?_) | split | rfl)

@[simp ↓] theorem State.pageAccess_spine : ∀ (s : State) (x1 : ℕ) (x2 : ℕ) (x3 : ℕ) (x4 : ℕ) (x5 : ℕ), (State.pageAccess s x1 x2 x3 x4 x5).spine = s.spine := by intros; simp [State.pageAccess]

theorem execScratchRead_spine : ∀ (x0 : Ns) (x1 : ScrWho) (x2 : Fin 12) (x3 : BitVec 22) (x4 : ScrRead) (s : State), ∃ u, execScratchRead x0 x1 x2 x3 x4 s = .next u ∧ u.spine = { s.spine with now := (s.tick x0).now } := by
  intros; refine ⟨_, rfl, ?_⟩; rw [← State.tick_spine]; generalize State.tick _ _ = u; repeat' (first | (intro _) | simp | (refine (State.each_spine _ ?_ _ _).trans ?_) | (refine (State.command_spine _ _ _ _ _ ?_).trans ?_) | split | rfl)

theorem State.scratchPut_spine (s : State) (ws : List Nat) (o : Nat) (l : List Byte) : Spine.Mem s.spine (s.scratchPut ws o l).spine :=
  ⟨rfl, fun h => State.scratchPut_wf s ws o l h⟩

theorem execScratchWrite_spine (t : Ns) (who : ScrWho) (way : Fin 12) (off : BitVec 22) (size : Nat) (data : Line) (s : State) :
    ∃ u, execScratchWrite t who way off size data s = .next u ∧ Spine.Mem { s.spine with now := (s.tick t).now } u.spine := by
  refine ⟨_, rfl, ?_⟩
  rw [← State.tick_spine]
  generalize s.tick t = u
  (try dsimp only)
  have hp : ∀ ws : List Nat, Spine.Mem u.spine (((State.each (fun w s => s.scrPackets who w off.toNat size true data.toNat) ws u).scratchPut ws off.toNat (leBytes size data.toNat)).spine) := by
    intro ws
    have h : (State.each (fun w s => s.scrPackets who w off.toNat size true data.toNat) ws u).spine = u.spine := State.each_spine _ (by intro a s; simp) _ _
    rw [← h]
    exact State.scratchPut_spine _ _ _ _
  repeat' split
  all_goals first | exact hp _ | (refine Spine.mem_of_eq ?_; simp; done)

@[simp ↓] theorem State.refuseDomain_spine : ∀ (s : State), (State.refuseDomain s).spine = s.spine := by intros; simp [State.refuseDomain]

@[simp ↓] theorem State.withdraw_spine : ∀ (s : State) (x1 : ℕ), (State.withdraw s x1).spine = s.spine := by
  intros; unfold State.withdraw; repeat' (first | (intro _) | simp | (refine (State.each_spine _ ?_ _ _).trans ?_) | (refine (State.command_spine _ _ _ _ _ ?_).trans ?_) | split | rfl)

@[simp ↓] theorem State.notice_spine : ∀ (s : State), (State.notice s).spine = s.spine := by
  intros; unfold State.notice; repeat' (first | (intro _) | simp | (refine (State.each_spine _ ?_ _ _).trans ?_) | (refine (State.command_spine _ _ _ _ _ ?_).trans ?_) | split | rfl)

@[simp ↓] theorem State.reportUp_spine : ∀ (s : State), (State.reportUp s).spine = s.spine := by intros; simp [State.reportUp]

@[simp ↓] theorem State.toFree_spine : ∀ (s : State), (State.toFree s).spine = s.spine := by intros; simp [State.toFree]

theorem execHoldoverExpiry_spine : ∀ (x0 : Ns) (s : State), ∃ u, execHoldoverExpiry x0 s = .next u ∧ u.spine = { s.spine with now := (s.tick x0).now } := by
  intros; refine ⟨_, rfl, ?_⟩; rw [← State.tick_spine]; generalize State.tick _ _ = u; repeat' (first | (intro _) | simp | (refine (State.each_spine _ ?_ _ _).trans ?_) | (refine (State.command_spine _ _ _ _ _ ?_).trans ?_) | split | rfl)

@[simp ↓] theorem State.join_spine : ∀ (s : State) (x1 : DomNotice), (State.join s x1).spine = s.spine := by
  intros; unfold State.join; repeat' (first | (intro _) | simp | (refine (State.each_spine _ ?_ _ _).trans ?_) | (refine (State.command_spine _ _ _ _ _ ?_).trans ?_) | split | rfl)

theorem execDomainNotice_spine : ∀ (x0 : Ns) (x1 : DomNotice) (s : State), ∃ u, execDomainNotice x0 x1 s = .next u ∧ u.spine = { s.spine with now := (s.tick x0).now } := by
  intros; refine ⟨_, rfl, ?_⟩; rw [← State.tick_spine]; generalize State.tick _ _ = u; repeat' (first | (intro _) | simp | (refine (State.each_spine _ ?_ _ _).trans ?_) | (refine (State.command_spine _ _ _ _ _ ?_).trans ?_) | split | rfl)

@[simp ↓] theorem State.unsteered_spine : ∀ (s : State), (State.unsteered s).spine = s.spine := by intros; simp [State.unsteered]

@[simp ↓] theorem State.sendTime_spine : ∀ (s : State), (State.sendTime s).spine = s.spine := by intros; simp [State.sendTime]

@[simp ↓] theorem State.measure_spine : ∀ (s : State) (x1 : TimeExch), (State.measure s x1).spine = s.spine := by intros; simp [State.measure]

@[simp ↓] theorem State.exchange_spine (s : State) (x : TimeExch) : (s.exchange x).spine = s.spine := by
  have key : ∀ b : State, b.spine = s.spine →
      (if b.mer.st = .twinSteered ∨ (b.mer.st = .free ∧ b.mer.twinFree ∧ b.side = 1) then { b with clk := { b.clk with slew := -b.mer.ofs * 65536 } } else b).spine = s.spine :=
    fun b h => by split <;> exact h
  exact key _ (by split <;> (try split) <;> simp)

@[simp ↓] theorem State.exchangeBad_spine : ∀ (s : State), (State.exchangeBad s).spine = s.spine := by intros; simp [State.exchangeBad]

theorem execTwinTimeExchange_spine : ∀ (x0 : Ns) (x1 : TimeExch) (s : State), ∃ u, execTwinTimeExchange x0 x1 s = .next u ∧ u.spine = { s.spine with now := (s.tick x0).now } := by
  intros; refine ⟨_, rfl, ?_⟩; rw [← State.tick_spine]; generalize State.tick _ _ = u; repeat' (first | (intro _) | simp | (refine (State.each_spine _ ?_ _ _).trans ?_) | (refine (State.command_spine _ _ _ _ _ ?_).trans ?_) | split | rfl)

theorem execTwinExchangeInvalid_spine : ∀ (x0 : Ns) (s : State), ∃ u, execTwinExchangeInvalid x0 s = .next u ∧ u.spine = { s.spine with now := (s.tick x0).now } := by
  intros; refine ⟨_, rfl, ?_⟩; rw [← State.tick_spine]; generalize State.tick _ _ = u; repeat' (first | (intro _) | simp | (refine (State.each_spine _ ?_ _ _).trans ?_) | (refine (State.command_spine _ _ _ _ _ ?_).trans ?_) | split | rfl)

theorem execEpochBoundary_spine : ∀ (x0 : Ns) (s : State), ∃ u, execEpochBoundary x0 s = .next u ∧ u.spine = { s.spine with now := (s.tick x0).now } := by
  intros; refine ⟨_, rfl, ?_⟩; rw [← State.tick_spine]; generalize State.tick _ _ = u; repeat' (first | (intro _) | simp | (refine (State.each_spine _ ?_ _ _).trans ?_) | (refine (State.command_spine _ _ _ _ _ ?_).trans ?_) | split | rfl)

@[simp ↓] theorem State.onBar_spine : ∀ (s : State) (x1 : ℕ) (x2 : Barrier → Barrier), (State.onBar s x1 x2).spine = s.spine := by intros; simp [State.onBar]

@[simp ↓] theorem State.confirmUp_spine : ∀ (s : State) (x1 : ℕ), (State.confirmUp s x1).spine = s.spine := by intros; simp [State.confirmUp]

theorem execSealConfirm_spine : ∀ (x0 : Ns) (x1 : SealSrc) (s : State), ∃ u, execSealConfirm x0 x1 s = .next u ∧ u.spine = { s.spine with now := (s.tick x0).now } := by
  intros; refine ⟨_, rfl, ?_⟩; rw [← State.tick_spine]; generalize State.tick _ _ = u; repeat' (first | (intro _) | simp | (refine (State.each_spine _ ?_ _ _).trans ?_) | (refine (State.command_spine _ _ _ _ _ ?_).trans ?_) | split | rfl)

theorem execPairSealExchange_spine : ∀ (x0 : Ns) (x1 : Quad) (s : State), ∃ u, execPairSealExchange x0 x1 s = .next u ∧ u.spine = { s.spine with now := (s.tick x0).now } := by
  intros; refine ⟨_, rfl, ?_⟩; rw [← State.tick_spine]; generalize State.tick _ _ = u; repeat' (first | (intro _) | simp | (refine (State.each_spine _ ?_ _ _).trans ?_) | (refine (State.command_spine _ _ _ _ _ ?_).trans ?_) | split | rfl)

theorem execPlateExposeInstant_spine : ∀ (x0 : Ns) (x1 : SlotId) (s : State), ∃ u, execPlateExposeInstant x0 x1 s = .next u ∧ u.spine = { s.spine with now := (s.tick x0).now } := by
  intros; refine ⟨_, rfl, ?_⟩; rw [← State.tick_spine]; generalize State.tick _ _ = u; repeat' (first | (intro _) | simp | (refine (State.each_spine _ ?_ _ _).trans ?_) | (refine (State.command_spine _ _ _ _ _ ?_).trans ?_) | split | rfl)

theorem execRachisModeInstant_spine : ∀ (x0 : Ns) (x1 : SlotId) (s : State), ∃ u, execRachisModeInstant x0 x1 s = .next u ∧ u.spine = { s.spine with now := (s.tick x0).now } := by
  intros; refine ⟨_, rfl, ?_⟩; rw [← State.tick_spine]; generalize State.tick _ _ = u; repeat' (first | (intro _) | simp | (refine (State.each_spine _ ?_ _ _).trans ?_) | (refine (State.command_spine _ _ _ _ _ ?_).trans ?_) | split | rfl)

@[simp ↓] theorem State.repoint_spine : ∀ (s : State) (x1 : (ℕ × ℕ) × ℕ × ℕ), (State.repoint s x1).spine = s.spine := by intros; simp [State.repoint]

@[simp ↓] theorem State.endTractResv_spine : ∀ (s : State) (x1 : ℕ), (State.endTractResv s x1).spine = s.spine := by intros; simp [State.endTractResv]

@[simp ↓] theorem State.commitTract_spine : ∀ (s : State) (x1 : Move), (State.commitTract s x1).spine = s.spine := by
  intros; unfold State.commitTract; repeat' (first | (intro _) | simp | (refine (State.each_spine _ ?_ _ _).trans ?_) | (refine (State.command_spine _ _ _ _ _ ?_).trans ?_) | split | rfl)

@[simp ↓] theorem State.engineArm_spine : ∀ (s : State) (x1 : ℕ) (x2 : ℕ) (x3 : ℕ), (State.engineArm s x1 x2 x3).2.spine = s.spine := by
  intros; unfold State.engineArm; repeat' (first | (intro _) | simp | (refine (State.each_spine _ ?_ _ _).trans ?_) | (refine (State.command_spine _ _ _ _ _ ?_).trans ?_) | split | rfl)

@[simp ↓] theorem State.armBatch_spine : ∀ (s : State), (State.armBatch s).spine = s.spine := by
  intros; unfold State.armBatch; repeat' (first | (intro _) | simp | (refine (State.each_spine _ ?_ _ _).trans ?_) | (refine (State.command_spine _ _ _ _ _ ?_).trans ?_) | split | rfl)

@[simp ↓] theorem State.commitBatch_spine : ∀ (s : State) (x1 : ℕ) (x2 : Bool), (State.commitBatch s x1 x2).spine = s.spine := by
  intros; unfold State.commitBatch; repeat' (first | (intro _) | simp | (refine (State.each_spine _ ?_ _ _).trans ?_) | (refine (State.command_spine _ _ _ _ _ ?_).trans ?_) | split | rfl)

theorem execTractCommitInstant_spine : ∀ (x0 : Ns) (x1 : SlotId) (s : State), ∃ u, execTractCommitInstant x0 x1 s = .next u ∧ u.spine = { s.spine with now := (s.tick x0).now } := by
  intros; refine ⟨_, rfl, ?_⟩; rw [← State.tick_spine]; generalize State.tick _ _ = u; repeat' (first | (intro _) | simp | (refine (State.each_spine _ ?_ _ _).trans ?_) | (refine (State.command_spine _ _ _ _ _ ?_).trans ?_) | split | rfl)

theorem execRoleMoveInstant_spine : ∀ (x0 : Ns) (x1 : SlotId) (s : State), ∃ u, execRoleMoveInstant x0 x1 s = .next u ∧ u.spine = { s.spine with now := (s.tick x0).now } := by
  intros; refine ⟨_, rfl, ?_⟩; rw [← State.tick_spine]; generalize State.tick _ _ = u; repeat' (first | (intro _) | simp | (refine (State.each_spine _ ?_ _ _).trans ?_) | (refine (State.command_spine _ _ _ _ _ ?_).trans ?_) | split | rfl)

theorem execCapacityInstant_spine : ∀ (x0 : Ns) (x1 : SlotId) (s : State), ∃ u, execCapacityInstant x0 x1 s = .next u ∧ u.spine = { s.spine with now := (s.tick x0).now } := by
  intros; refine ⟨_, rfl, ?_⟩; rw [← State.tick_spine]; generalize State.tick _ _ = u; repeat' (first | (intro _) | simp | (refine (State.each_spine _ ?_ _ _).trans ?_) | (refine (State.command_spine _ _ _ _ _ ?_).trans ?_) | split | rfl)

@[simp ↓] theorem State.sendMoves_spine : ∀ (s : State), (State.sendMoves s).spine = s.spine := by
  intros; unfold State.sendMoves; repeat' (first | (intro _) | simp | (refine (State.each_spine _ ?_ _ _).trans ?_) | (refine (State.command_spine _ _ _ _ _ ?_).trans ?_) | split | rfl)

@[simp ↓] theorem State.sendRecords_spine : ∀ (s : State), (State.sendRecords s).spine = s.spine := by
  intros; unfold State.sendRecords; repeat' (first | (intro _) | simp | (refine (State.each_spine _ ?_ _ _).trans ?_) | (refine (State.command_spine _ _ _ _ _ ?_).trans ?_) | split | rfl)

@[simp ↓] theorem State.raiseLevel_spine : ∀ (s : State), (State.raiseLevel s).spine = s.spine := by intros; simp [State.raiseLevel]

@[simp ↓] theorem State.becomePaired_spine : ∀ (s : State), (State.becomePaired s).spine = s.spine := by intros; simp [State.becomePaired]

theorem execPairInstant_spine : ∀ (x0 : Ns) (x1 : SlotId) (s : State), ∃ u, execPairInstant x0 x1 s = .next u ∧ u.spine = { s.spine with now := (s.tick x0).now } := by
  intros; refine ⟨_, rfl, ?_⟩; rw [← State.tick_spine]; generalize State.tick _ _ = u; repeat' (first | (intro _) | simp | (refine (State.each_spine _ ?_ _ _).trans ?_) | (refine (State.command_spine _ _ _ _ _ ?_).trans ?_) | split | rfl)

@[simp ↓] theorem State.enterBarrier_spine : ∀ (s : State) (x1 : ℕ) (x2 : ℕ) (x3 : Quad) (x4 : ℕ), (State.enterBarrier s x1 x2 x3 x4).spine = s.spine := by
  intros; unfold State.enterBarrier; repeat' (first | (intro _) | simp | (refine (State.each_spine _ ?_ _ _).trans ?_) | (refine (State.command_spine _ _ _ _ _ ?_).trans ?_) | split | rfl)

@[simp ↓] theorem State.doorbell_spine : ∀ (s : State) (x1 : ℕ) (x2 : ℕ) (x3 : Quad) (x4 : Bool), (State.doorbell s x1 x2 x3 x4).spine = s.spine := by intros; simp [State.doorbell]

@[simp ↓] theorem State.ring_spine : ∀ (s : State) (x1 : ℕ) (x2 : ℕ) (x3 : ℕ) (x4 : Quad) (x5 : Bool), (State.ring s x1 x2 x3 x4 x5).spine = s.spine := by intros; simp [State.ring]

theorem execBarrierHost_spine : ∀ (x0 : Ns) (x1 : HostId) (x2 : PartId) (x3 : Quad) (x4 : Bool) (s : State), ∃ u, execBarrierHost x0 x1 x2 x3 x4 s = .next u ∧ u.spine = { s.spine with now := (s.tick x0).now } := by
  intros; refine ⟨_, rfl, ?_⟩; rw [← State.tick_spine]; generalize State.tick _ _ = u; repeat' (first | (intro _) | simp | (refine (State.each_spine _ ?_ _ _).trans ?_) | (refine (State.command_spine _ _ _ _ _ ?_).trans ?_) | split | rfl)

theorem execBarrierPartition_spine : ∀ (x0 : Ns) (x1 : HostId) (x2 : PartId) (x3 : Quad) (x4 : Bool) (s : State), ∃ u, execBarrierPartition x0 x1 x2 x3 x4 s = .next u ∧ u.spine = { s.spine with now := (s.tick x0).now } := by
  intros; refine ⟨_, rfl, ?_⟩; rw [← State.tick_spine]; generalize State.tick _ _ = u; repeat' (first | (intro _) | simp | (refine (State.each_spine _ ?_ _ _).trans ?_) | (refine (State.command_spine _ _ _ _ _ ?_).trans ?_) | split | rfl)

theorem execBarrierTwin_spine : ∀ (x0 : Ns) (x1 : HostId) (x2 : PartId) (x3 : Quad) (x4 : Bool) (s : State), ∃ u, execBarrierTwin x0 x1 x2 x3 x4 s = .next u ∧ u.spine = { s.spine with now := (s.tick x0).now } := by
  intros; refine ⟨_, rfl, ?_⟩; rw [← State.tick_spine]; generalize State.tick _ _ = u; repeat' (first | (intro _) | simp | (refine (State.each_spine _ ?_ _ _).trans ?_) | (refine (State.command_spine _ _ _ _ _ ?_).trans ?_) | split | rfl)

theorem execBarrierDomain_spine : ∀ (x0 : Ns) (x1 : HostId) (x2 : PartId) (x3 : Quad) (x4 : Bool) (s : State), ∃ u, execBarrierDomain x0 x1 x2 x3 x4 s = .next u ∧ u.spine = { s.spine with now := (s.tick x0).now } := by
  intros; refine ⟨_, rfl, ?_⟩; rw [← State.tick_spine]; generalize State.tick _ _ = u; repeat' (first | (intro _) | simp | (refine (State.each_spine _ ?_ _ _).trans ?_) | (refine (State.command_spine _ _ _ _ _ ?_).trans ?_) | split | rfl)

theorem execBarrierComplete_spine : ∀ (x0 : Ns) (x1 : IntakeId) (x2 : ℕ) (s : State), ∃ u, execBarrierComplete x0 x1 x2 s = .next u ∧ u.spine = { s.spine with now := (s.tick x0).now } := by
  intros; refine ⟨_, rfl, ?_⟩; rw [← State.tick_spine]; generalize State.tick _ _ = u; repeat' (first | (intro _) | simp | (refine (State.each_spine _ ?_ _ _).trans ?_) | (refine (State.command_spine _ _ _ _ _ ?_).trans ?_) | split | rfl)

theorem execBarrier_spine : ∀ (x0 : Ns) (x1 : Mbx) (s : State), ∃ u, execBarrier x0 x1 s = .next u ∧ u.spine = { s.spine with now := (s.tick x0).now } := by
  intros; refine ⟨_, rfl, ?_⟩; rw [← State.tick_spine]; generalize State.tick _ _ = u; repeat' (first | (intro _) | simp | (refine (State.each_spine _ ?_ _ _).trans ?_) | (refine (State.command_spine _ _ _ _ _ ?_).trans ?_) | split | rfl)

@[simp ↓] theorem State.adminBar_spine : ∀ (s : State) (x1 : ℕ), (State.adminBar s x1).spine = s.spine := by
  intros; unfold State.adminBar; repeat' (first | (intro _) | simp | (refine (State.each_spine _ ?_ _ _).trans ?_) | (refine (State.command_spine _ _ _ _ _ ?_).trans ?_) | split | rfl)

theorem execBarrierList_spine : ∀ (x0 : Ns) (x1 : Mbx) (s : State), ∃ u, execBarrierList x0 x1 s = .next u ∧ u.spine = { s.spine with now := (s.tick x0).now } := by
  intros; refine ⟨_, rfl, ?_⟩; rw [← State.tick_spine]; generalize State.tick _ _ = u; repeat' (first | (intro _) | simp | (refine (State.each_spine _ ?_ _ _).trans ?_) | (refine (State.command_spine _ _ _ _ _ ?_).trans ?_) | split | rfl)

@[simp ↓] theorem State.flushLine_spine : ∀ (s : State) (x1 : ℕ) (x2 : ℕ), (State.flushLine s x1 x2).spine = s.spine := by
  intros; unfold State.flushLine; repeat' (first | (intro _) | simp | (refine (State.each_spine _ ?_ _ _).trans ?_) | (refine (State.command_spine _ _ _ _ _ ?_).trans ?_) | split | rfl)

@[simp ↓] theorem State.standFor_spine : ∀ (s : State) (x1 : ℕ) (x2 : Pend), (State.standFor s x1 x2).spine = s.spine := by intros; simp [State.standFor]

@[simp ↓] theorem State.awaitLine_spine : ∀ (s : State) (x1 : ℕ) (x2 : ℕ), (State.awaitLine s x1 x2).spine = s.spine := by intros; simp [State.awaitLine]

@[simp ↓] theorem State.fallSlice_spine : ∀ (s : State) (x1 : ℕ), (State.fallSlice s x1).spine = s.spine := by
  intros; unfold State.fallSlice; repeat' (first | (intro _) | simp | (refine (State.each_spine _ ?_ _ _).trans ?_) | (refine (State.command_spine _ _ _ _ _ ?_).trans ?_) | split | rfl)

@[simp ↓] theorem State.fallLevel_spine : ∀ (s : State), (State.fallLevel s).spine = s.spine := by
  intros; unfold State.fallLevel; repeat' (first | (intro _) | simp | (refine (State.each_spine _ ?_ _ _).trans ?_) | (refine (State.command_spine _ _ _ _ _ ?_).trans ?_) | split | rfl)

@[simp ↓] theorem State.onAllKept_spine : ∀ (s : State) (x1 : Kept → Kept), (State.onAllKept s x1).spine = s.spine := by intros; simp [State.onAllKept]

@[simp ↓] theorem State.dropFetches_spine : ∀ (s : State), (State.dropFetches s).spine = s.spine := by
  intros; unfold State.dropFetches; repeat' (first | (intro _) | simp | (refine (State.each_spine _ ?_ _ _).trans ?_) | (refine (State.command_spine _ _ _ _ _ ?_).trans ?_) | split | rfl)

@[simp ↓] theorem State.dropMoves_spine : ∀ (s : State), (State.dropMoves s).spine = s.spine := by
  intros; unfold State.dropMoves; repeat' (first | (intro _) | simp | (refine (State.each_spine _ ?_ _ _).trans ?_) | (refine (State.command_spine _ _ _ _ _ ?_).trans ?_) | split | rfl)

@[simp ↓] theorem State.staleLoss_spine : ∀ (s : State), (State.staleLoss s).spine = s.spine := by
  intros; unfold State.staleLoss; repeat' (first | (intro _) | simp | (refine (State.each_spine _ ?_ _ _).trans ?_) | (refine (State.command_spine _ _ _ _ _ ?_).trans ?_) | split | rfl)

@[simp ↓] theorem State.dropPeerMoves_spine : ∀ (s : State), (State.dropPeerMoves s).spine = s.spine := by
  intros; unfold State.dropPeerMoves; repeat' (first | (intro _) | simp | (refine (State.each_spine _ ?_ _ _).trans ?_) | (refine (State.command_spine _ _ _ _ _ ?_).trans ?_) | split | rfl)

@[simp ↓] theorem State.loseTwin_spine : ∀ (s : State), (State.loseTwin s).spine = s.spine := by
  intros; unfold State.loseTwin; repeat' (first | (intro _) | simp | (refine (State.each_spine _ ?_ _ _).trans ?_) | (refine (State.command_spine _ _ _ _ _ ?_).trans ?_) | split | rfl)

@[simp ↓] theorem State.ownLines_spine : ∀ (s : State) (x1 : Quad), (State.ownLines s x1).spine = s.spine := by
  intros; unfold State.ownLines; repeat' (first | (intro _) | simp | (refine (State.each_spine _ ?_ _ _).trans ?_) | (refine (State.command_spine _ _ _ _ _ ?_).trans ?_) | split | rfl)

@[simp ↓] theorem State.bindHost_spine : ∀ (s : State) (x1 : ℕ), (State.bindHost s x1).spine = s.spine := by
  intros; unfold State.bindHost; repeat' (first | (intro _) | simp | (refine (State.each_spine _ ?_ _ _).trans ?_) | (refine (State.command_spine _ _ _ _ _ ?_).trans ?_) | split | rfl)

@[simp ↓] theorem State.takeOver_spine : ∀ (s : State), (State.takeOver s).spine = s.spine := by
  intros; unfold State.takeOver; repeat' (first | (intro _) | simp | (refine (State.each_spine _ ?_ _ _).trans ?_) | (refine (State.command_spine _ _ _ _ _ ?_).trans ?_) | split | rfl)

@[simp ↓] theorem State.lossKnown_spine : ∀ (s : State), (State.lossKnown s).spine = s.spine := by intros; simp [State.lossKnown]

@[simp ↓] theorem State.declareLoss_spine : ∀ (s : State), (State.declareLoss s).spine = s.spine := by intros; simp [State.declareLoss]

theorem execHeartbeatLoss_spine : ∀ (x0 : Ns) (s : State), ∃ u, execHeartbeatLoss x0 s = .next u ∧ u.spine = { s.spine with now := (s.tick x0).now } := by
  intros; refine ⟨_, rfl, ?_⟩; rw [← State.tick_spine]; generalize State.tick _ _ = u; repeat' (first | (intro _) | simp | (refine (State.each_spine _ ?_ _ _).trans ?_) | (refine (State.command_spine _ _ _ _ _ ?_).trans ?_) | split | rfl)

theorem execTwinLinkDown_spine : ∀ (x0 : Ns) (s : State), ∃ u, execTwinLinkDown x0 s = .next u ∧ u.spine = { s.spine with now := (s.tick x0).now } := by
  intros; refine ⟨_, rfl, ?_⟩; rw [← State.tick_spine]; generalize State.tick _ _ = u; repeat' (first | (intro _) | simp | (refine (State.each_spine _ ?_ _ _).trans ?_) | (refine (State.command_spine _ _ _ _ _ ?_).trans ?_) | split | rfl)

theorem execTwinLinkUp_spine : ∀ (x0 : Ns) (s : State), ∃ u, execTwinLinkUp x0 s = .next u ∧ u.spine = { s.spine with now := (s.tick x0).now } := by
  intros; refine ⟨_, rfl, ?_⟩; rw [← State.tick_spine]; generalize State.tick _ _ = u; repeat' (first | (intro _) | simp | (refine (State.each_spine _ ?_ _ _).trans ?_) | (refine (State.command_spine _ _ _ _ _ ?_).trans ?_) | split | rfl)

theorem execPeerLinksDown_spine (t : Ns) (s : State) : ∃ u, execPeerLinksDown t s = .next u ∧ u.spine = { s.spine with now := (s.tick t).now } := by
  refine ⟨_, rfl, ?_⟩
  rw [← State.tick_spine]
  have h : ((s.tick t).onTwin fun w => { w with peerDown := true }).spine = (s.tick t).spine := rfl
  rw [← h]
  generalize ((s.tick t).onTwin fun w => { w with peerDown := true }) = u
  (repeat' split) <;> simp

theorem execPeerLinksUp_spine : ∀ (x0 : Ns) (s : State), ∃ u, execPeerLinksUp x0 s = .next u ∧ u.spine = { s.spine with now := (s.tick x0).now } := by
  intros; refine ⟨_, rfl, ?_⟩; rw [← State.tick_spine]; generalize State.tick _ _ = u; repeat' (first | (intro _) | simp | (refine (State.each_spine _ ?_ _ _).trans ?_) | (refine (State.command_spine _ _ _ _ _ ?_).trans ?_) | split | rfl)

theorem execLossReportTimeout_spine : ∀ (x0 : Ns) (s : State), ∃ u, execLossReportTimeout x0 s = .next u ∧ u.spine = { s.spine with now := (s.tick x0).now } := by
  intros; refine ⟨_, rfl, ?_⟩; rw [← State.tick_spine]; generalize State.tick _ _ = u; repeat' (first | (intro _) | simp | (refine (State.each_spine _ ?_ _ _).trans ?_) | (refine (State.command_spine _ _ _ _ _ ?_).trans ?_) | split | rfl)

@[simp ↓] theorem State.abdicated_spine : ∀ (s : State), (State.abdicated s).spine = s.spine := by intros; simp [State.abdicated]

theorem execAbdicationReceive_spine : ∀ (x0 : Ns) (x1 : Bool) (s : State), ∃ u, execAbdicationReceive x0 x1 s = .next u ∧ u.spine = { s.spine with now := (s.tick x0).now } := by
  intros; refine ⟨_, rfl, ?_⟩; rw [← State.tick_spine]; generalize State.tick _ _ = u; repeat' (first | (intro _) | simp | (refine (State.each_spine _ ?_ _ _).trans ?_) | (refine (State.command_spine _ _ _ _ _ ?_).trans ?_) | split | rfl)

@[simp ↓] theorem State.serveApplied_spine : ∀ (s : State) (x1 : Echo) (x2 : ℕ), (State.serveApplied s x1 x2).spine = s.spine := by intros; simp [State.serveApplied]

@[simp ↓] theorem State.serveEcho_spine : ∀ (s : State) (x1 : Echo), (State.serveEcho s x1).spine = s.spine := by
  intros; unfold State.serveEcho; repeat' (first | (intro _) | simp | (refine (State.each_spine _ ?_ _ _).trans ?_) | (refine (State.command_spine _ _ _ _ _ ?_).trans ?_) | split | rfl)

@[simp ↓] theorem State.serveDoor_spine : ∀ (s : State) (x1 : Echo) (x2 : Quad) (x3 : ℕ), (State.serveDoor s x1 x2 x3).spine = s.spine := by intros; simp [State.serveDoor]

@[simp ↓] theorem State.claimDone_spine : ∀ (s : State) (x1 : List Redeliver), (State.claimDone s x1).spine = s.spine := by
  intros; unfold State.claimDone; repeat' (first | (intro _) | simp | (refine (State.each_spine _ ?_ _ _).trans ?_) | (refine (State.command_spine _ _ _ _ _ ?_).trans ?_) | split | rfl)

theorem execClaimComplete_spine : ∀ (x0 : Ns) (x1 : List Redeliver) (s : State), ∃ u, execClaimComplete x0 x1 s = .next u ∧ u.spine = { s.spine with now := (s.tick x0).now } := by
  intros; refine ⟨_, rfl, ?_⟩; rw [← State.tick_spine]; generalize State.tick _ _ = u; repeat' (first | (intro _) | simp | (refine (State.each_spine _ ?_ _ _).trans ?_) | (refine (State.command_spine _ _ _ _ _ ?_).trans ?_) | split | rfl)

@[simp ↓] theorem State.walkDone_spine : ∀ (s : State) (x1 : ℕ), (State.walkDone s x1).spine = s.spine := by
  intros; unfold State.walkDone; repeat' (first | (intro _) | simp | (refine (State.each_spine _ ?_ _ _).trans ?_) | (refine (State.command_spine _ _ _ _ _ ?_).trans ?_) | split | rfl)

theorem execClaimLost_spine : ∀ (x0 : Ns) (s : State), ∃ u, execClaimLost x0 s = .next u ∧ u.spine = { s.spine with now := (s.tick x0).now } := by
  intros; refine ⟨_, rfl, ?_⟩; rw [← State.tick_spine]; generalize State.tick _ _ = u; repeat' (first | (intro _) | simp | (refine (State.each_spine _ ?_ _ _).trans ?_) | (refine (State.command_spine _ _ _ _ _ ?_).trans ?_) | split | rfl)

theorem execDrainedMarker_spine : ∀ (x0 : Ns) (x1 : PartId) (s : State), ∃ u, execDrainedMarker x0 x1 s = .next u ∧ u.spine = { s.spine with now := (s.tick x0).now } := by
  intros; refine ⟨_, rfl, ?_⟩; rw [← State.tick_spine]; generalize State.tick _ _ = u; repeat' (first | (intro _) | simp | (refine (State.each_spine _ ?_ _ _).trans ?_) | (refine (State.command_spine _ _ _ _ _ ?_).trans ?_) | split | rfl)

theorem execRouteClosedMarker_spine : ∀ (x0 : Ns) (x1 : PartId) (s : State), ∃ u, execRouteClosedMarker x0 x1 s = .next u ∧ u.spine = { s.spine with now := (s.tick x0).now } := by
  intros; refine ⟨_, rfl, ?_⟩; rw [← State.tick_spine]; generalize State.tick _ _ = u; repeat' (first | (intro _) | simp | (refine (State.each_spine _ ?_ _ _).trans ?_) | (refine (State.command_spine _ _ _ _ _ ?_).trans ?_) | split | rfl)

theorem execRoleMoveTimeout_spine : ∀ (x0 : Ns) (x1 : SlotId) (s : State), ∃ u, execRoleMoveTimeout x0 x1 s = .next u ∧ u.spine = { s.spine with now := (s.tick x0).now } := by
  intros; refine ⟨_, rfl, ?_⟩; rw [← State.tick_spine]; generalize State.tick _ _ = u; repeat' (first | (intro _) | simp | (refine (State.each_spine _ ?_ _ _).trans ?_) | (refine (State.command_spine _ _ _ _ _ ?_).trans ?_) | split | rfl)

@[simp ↓] theorem State.oldRecord_spine : ∀ (s : State) (x1 : ℕ) (x2 : Meta), (State.oldRecord s x1 x2).2.spine = s.spine := by
  intros; unfold State.oldRecord; repeat' (first | (intro _) | simp | (refine (State.each_spine _ ?_ _ _).trans ?_) | (refine (State.command_spine _ _ _ _ _ ?_).trans ?_) | split | rfl)

@[simp ↓] theorem State.answerFetch_spine : ∀ (s : State) (x1 : ℕ) (x2 : Meta), (State.answerFetch s x1 x2).spine = s.spine := by
  intros; unfold State.answerFetch; repeat' (first | (intro _) | simp | (refine (State.each_spine _ ?_ _ _).trans ?_) | (refine (State.command_spine _ _ _ _ _ ?_).trans ?_) | split | rfl)

theorem execRecordFetch_spine : ∀ (x0 : Ns) (x1 : SliceId) (x2 : ℕ) (x3 : FetchMsg) (s : State), ∃ u, execRecordFetch x0 x1 x2 x3 s = .next u ∧ u.spine = { s.spine with now := (s.tick x0).now } := by
  intros; refine ⟨_, rfl, ?_⟩; rw [← State.tick_spine]; generalize State.tick _ _ = u; repeat' (first | (intro _) | simp | (refine (State.each_spine _ ?_ _ _).trans ?_) | (refine (State.command_spine _ _ _ _ _ ?_).trans ?_) | split | rfl)

@[simp ↓] theorem State.fltDoubt_spine : ∀ (s : State) (x1 : ℕ) (x2 : ℕ), (State.fltDoubt s x1 x2).spine = s.spine := by
  intros; unfold State.fltDoubt; repeat' (first | (intro _) | simp | (refine (State.each_spine _ ?_ _ _).trans ?_) | (refine (State.command_spine _ _ _ _ _ ?_).trans ?_) | split | rfl)

@[simp ↓] theorem State.walkLine_spine : ∀ (s : State) (x1 : ℕ) (x2 : RoleMove) (x3 : ℕ) (x4 : Meta), (State.walkLine s x1 x2 x3 x4).spine = s.spine := by
  intros; unfold State.walkLine; repeat' (first | (intro _) | simp | (refine (State.each_spine _ ?_ _ _).trans ?_) | (refine (State.command_spine _ _ _ _ _ ?_).trans ?_) | split | rfl)

theorem execRecordWalkLine_spine : ∀ (x0 : Ns) (x1 : BitVec 42) (x2 : Meta) (s : State), ∃ u, execRecordWalkLine x0 x1 x2 s = .next u ∧ u.spine = { s.spine with now := (s.tick x0).now } := by
  intros; refine ⟨_, rfl, ?_⟩; rw [← State.tick_spine]; generalize State.tick _ _ = u; repeat' (first | (intro _) | simp | (refine (State.each_spine _ ?_ _ _).trans ?_) | (refine (State.command_spine _ _ _ _ _ ?_).trans ?_) | split | rfl)

theorem execRoleRecordReceive_spine : ∀ (x0 : Ns) (x1 : BitVec 42) (x2 : DirRec) (s : State), ∃ u, execRoleRecordReceive x0 x1 x2 s = .next u ∧ u.spine = { s.spine with now := (s.tick x0).now } := by
  intros; refine ⟨_, rfl, ?_⟩; rw [← State.tick_spine]; generalize State.tick _ _ = u; repeat' (first | (intro _) | simp | (refine (State.each_spine _ ?_ _ _).trans ?_) | (refine (State.command_spine _ _ _ _ _ ?_).trans ?_) | split | rfl)

@[simp ↓] theorem State.armPair_spine : ∀ (s : State), (State.armPair s).spine = s.spine := by intros; simp [State.armPair]

@[simp ↓] theorem State.step9_spine : ∀ (s : State), (State.step9 s).spine = s.spine := by intros; simp [State.step9]

@[simp ↓] theorem State.adoptAnchor_spine : ∀ (s : State) (x1 : Handshake), (State.adoptAnchor s x1).spine = s.spine := by
  intros; unfold State.adoptAnchor; repeat' (first | (intro _) | simp | (refine (State.each_spine _ ?_ _ _).trans ?_) | (refine (State.command_spine _ _ _ _ _ ?_).trans ?_) | split | rfl)

@[simp ↓] theorem State.enterTwin_spine : ∀ (s : State) (x1 : Twin → Twin), (State.enterTwin s x1).spine = s.spine := by intros; simp [State.enterTwin]

@[simp ↓] theorem State.toSource_spine : ∀ (s : State) (x1 : Handshake) (x2 : Bool) (x3 : Bool), (State.toSource s x1 x2 x3).spine = s.spine := by intros; simp [State.toSource]

@[simp ↓] theorem State.toTarget_spine : ∀ (s : State) (x1 : Handshake), (State.toTarget s x1).spine = s.spine := by intros; simp [State.toTarget]

@[simp ↓] theorem State.meet_spine : ∀ (s : State) (x1 : Handshake), (State.meet s x1).spine = s.spine := by
  intros; unfold State.meet; repeat' (first | (intro _) | simp | (refine (State.each_spine _ ?_ _ _).trans ?_) | (refine (State.command_spine _ _ _ _ _ ?_).trans ?_) | split | rfl)

theorem execTwinHandshake_spine : ∀ (x0 : Ns) (x1 : Handshake) (s : State), ∃ u, execTwinHandshake x0 x1 s = .next u ∧ u.spine = { s.spine with now := (s.tick x0).now } := by
  intros; refine ⟨_, rfl, ?_⟩; rw [← State.tick_spine]; generalize State.tick _ _ = u; repeat' (first | (intro _) | simp | (refine (State.each_spine _ ?_ _ _).trans ?_) | (refine (State.command_spine _ _ _ _ _ ?_).trans ?_) | split | rfl)

theorem execSeekingTimeout_spine : ∀ (x0 : Ns) (s : State), ∃ u, execSeekingTimeout x0 s = .next u ∧ u.spine = { s.spine with now := (s.tick x0).now } := by
  intros; refine ⟨_, rfl, ?_⟩; rw [← State.tick_spine]; generalize State.tick _ _ = u; repeat' (first | (intro _) | simp | (refine (State.each_spine _ ?_ _ _).trans ?_) | (refine (State.command_spine _ _ _ _ _ ?_).trans ?_) | split | rfl)

theorem execResyncWalkLine_spine : ∀ (x0 : Ns) (x1 : SliceId) (x2 : BitVec 42) (s : State), ∃ u, execResyncWalkLine x0 x1 x2 s = .next u ∧ u.spine = { s.spine with now := (s.tick x0).now } := by
  intros; refine ⟨_, rfl, ?_⟩; rw [← State.tick_spine]; generalize State.tick _ _ = u; repeat' (first | (intro _) | simp | (refine (State.each_spine _ ?_ _ _).trans ?_) | (refine (State.command_spine _ _ _ _ _ ?_).trans ?_) | split | rfl)

@[simp ↓] theorem State.resyncAcked_spine : ∀ (s : State) (x1 : ℕ), (State.resyncAcked s x1).spine = s.spine := by
  intros; unfold State.resyncAcked; repeat' (first | (intro _) | simp | (refine (State.each_spine _ ?_ _ _).trans ?_) | (refine (State.command_spine _ _ _ _ _ ?_).trans ?_) | split | rfl)

@[simp ↓] theorem State.resyncGot_spine : ∀ (s : State) (x1 : ℕ), (State.resyncGot s x1).spine = s.spine := by
  intros; unfold State.resyncGot; repeat' (first | (intro _) | simp | (refine (State.each_spine _ ?_ _ _).trans ?_) | (refine (State.command_spine _ _ _ _ _ ?_).trans ?_) | split | rfl)

@[simp ↓] theorem State.copyGen_spine : ∀ (s : State) (x1 : ℕ) (x2 : ℕ) (x3 : ℕ) (x4 : List (ℕ × ℕ)), (State.copyGen s x1 x2 x3 x4).spine = s.spine := by intros; simp [State.copyGen]

theorem execResyncRecord_spine : ∀ (x0 : Ns) (x1 : ResyncMsg) (s : State), ∃ u, execResyncRecord x0 x1 s = .next u ∧ u.spine = { s.spine with now := (s.tick x0).now } := by
  intros; refine ⟨_, rfl, ?_⟩; rw [← State.tick_spine]; generalize State.tick _ _ = u; repeat' (first | (intro _) | simp | (refine (State.each_spine _ ?_ _ _).trans ?_) | (refine (State.command_spine _ _ _ _ _ ?_).trans ?_) | split | rfl)

theorem execTwinEchoReceive_spine : ∀ (x0 : Ns) (x1 : IntakeId) (x2 : EchoMsg) (s : State), ∃ u, execTwinEchoReceive x0 x1 x2 s = .next u ∧ u.spine = { s.spine with now := (s.tick x0).now } := by
  intros; refine ⟨_, rfl, ?_⟩; rw [← State.tick_spine]; generalize State.tick _ _ = u; repeat' (first | (intro _) | simp | (refine (State.each_spine _ ?_ _ _).trans ?_) | (refine (State.command_spine _ _ _ _ _ ?_).trans ?_) | split | rfl)

theorem execTwinReleaseReceive_spine : ∀ (x0 : Ns) (x1 : IntakeId) (x2 : BitVec 12) (s : State), ∃ u, execTwinReleaseReceive x0 x1 x2 s = .next u ∧ u.spine = { s.spine with now := (s.tick x0).now } := by
  intros; refine ⟨_, rfl, ?_⟩; rw [← State.tick_spine]; generalize State.tick _ _ = u; repeat' (first | (intro _) | simp | (refine (State.each_spine _ ?_ _ _).trans ?_) | (refine (State.command_spine _ _ _ _ _ ?_).trans ?_) | split | rfl)

theorem execSettleRecordApply_spine : ∀ (x0 : Ns) (x1 : SettleRec) (s : State), ∃ u, execSettleRecordApply x0 x1 s = .next u ∧ u.spine = { s.spine with now := (s.tick x0).now } := by
  intros; refine ⟨_, rfl, ?_⟩; rw [← State.tick_spine]; generalize State.tick _ _ = u; repeat' (first | (intro _) | simp | (refine (State.each_spine _ ?_ _ _).trans ?_) | (refine (State.command_spine _ _ _ _ _ ?_).trans ?_) | split | rfl)

@[simp ↓] theorem State.mirrorClean_spine : ∀ (s : State) (x1 : ℕ) (x2 : ℕ) (x3 : ℕ), (State.mirrorClean s x1 x2 x3).spine = s.spine := by
  intros; unfold State.mirrorClean; repeat' (first | (intro _) | simp | (refine (State.each_spine _ ?_ _ _).trans ?_) | (refine (State.command_spine _ _ _ _ _ ?_).trans ?_) | split | rfl)

theorem execCleanNotice_spine : ∀ (x0 : Ns) (x1 : BitVec 42) (x2 : Word) (s : State), ∃ u, execCleanNotice x0 x1 x2 s = .next u ∧ u.spine = { s.spine with now := (s.tick x0).now } := by
  intros; refine ⟨_, rfl, ?_⟩; rw [← State.tick_spine]; generalize State.tick _ _ = u; repeat' (first | (intro _) | simp | (refine (State.each_spine _ ?_ _ _).trans ?_) | (refine (State.command_spine _ _ _ _ _ ?_).trans ?_) | split | rfl)

theorem execCleanRequest_spine : ∀ (x0 : Ns) (x1 : BitVec 42) (s : State), ∃ u, execCleanRequest x0 x1 s = .next u ∧ u.spine = { s.spine with now := (s.tick x0).now } := by
  intros; refine ⟨_, rfl, ?_⟩; rw [← State.tick_spine]; generalize State.tick _ _ = u; repeat' (first | (intro _) | simp | (refine (State.each_spine _ ?_ _ _).trans ?_) | (refine (State.command_spine _ _ _ _ _ ?_).trans ?_) | split | rfl)

theorem execTwinRecall_spine : ∀ (x0 : Ns) (x1 : SliceId) (s : State), ∃ u, execTwinRecall x0 x1 s = .next u ∧ u.spine = { s.spine with now := (s.tick x0).now } := by
  intros; refine ⟨_, rfl, ?_⟩; rw [← State.tick_spine]; generalize State.tick _ _ = u; repeat' (first | (intro _) | simp | (refine (State.each_spine _ ?_ _ _).trans ?_) | (refine (State.command_spine _ _ _ _ _ ?_).trans ?_) | split | rfl)

@[simp ↓] theorem State.answerFwd_spine : ∀ (s : State) (x1 : ℕ) (x2 : ℕ) (x3 : ℕ) (x4 : Bool × Bool), (State.answerFwd s x1 x2 x3 x4).spine = s.spine := by intros; simp [State.answerFwd]

theorem execForwardedRecord_spine : ∀ (x0 : Ns) (x1 : IntakeId) (x2 : M2S) (x3 : ReqOp) (x4 : Line) (x5 : Quad) (s : State), ∃ u, execForwardedRecord x0 x1 x2 x3 x4 x5 s = .next u ∧ u.spine = { s.spine with now := (s.tick x0).now } := by
  intros; refine ⟨_, rfl, ?_⟩; rw [← State.tick_spine]; generalize State.tick _ _ = u; repeat' (first | (intro _) | simp | (refine (State.each_spine _ ?_ _ _).trans ?_) | (refine (State.command_spine _ _ _ _ _ ?_).trans ?_) | split | rfl)

@[simp ↓] theorem State.forwardAnswer_spine : ∀ (s : State) (x1 : ℕ) (x2 : ℕ) (x3 : Kept) (x4 : ℕ) (x5 : Option (Line × Bool)) (x6 : Option NdrKind) (x7 : DevLoad), (State.forwardAnswer s x1 x2 x3 x4 x5 x6 x7).spine = s.spine := by
  intros; unfold State.forwardAnswer; repeat' (first | (intro _) | simp | (refine (State.each_spine _ ?_ _ _).trans ?_) | (refine (State.command_spine _ _ _ _ _ ?_).trans ?_) | split | rfl)

theorem execForwardedResponse_spine : ∀ (x0 : Ns) (x1 : IntakeId) (x2 : ℕ) (x3 : Option (Line × Bool)) (x4 : FwdNdr) (s : State), ∃ u, execForwardedResponse x0 x1 x2 x3 x4 s = .next u ∧ u.spine = { s.spine with now := (s.tick x0).now } := by
  intros; refine ⟨_, rfl, ?_⟩; rw [← State.tick_spine]; generalize State.tick _ _ = u; repeat' (first | (intro _) | simp | (refine (State.each_spine _ ?_ _ _).trans ?_) | (refine (State.command_spine _ _ _ _ _ ?_).trans ?_) | split | rfl)

theorem execForwardHoldTimeout_spine : ∀ (x0 : Ns) (x1 : IntakeId) (x2 : ℕ) (s : State), ∃ u, execForwardHoldTimeout x0 x1 x2 s = .next u ∧ u.spine = { s.spine with now := (s.tick x0).now } := by
  intros; refine ⟨_, rfl, ?_⟩; rw [← State.tick_spine]; generalize State.tick _ _ = u; repeat' (first | (intro _) | simp | (refine (State.each_spine _ ?_ _ _).trans ?_) | (refine (State.command_spine _ _ _ _ _ ?_).trans ?_) | split | rfl)

theorem execPowerFailNotice_spine : ∀ (x0 : Ns) (s : State), ∃ u, execPowerFailNotice x0 s = .next u ∧ u.spine = { s.spine with now := (s.tick x0).now } := by
  intros; refine ⟨_, rfl, ?_⟩; rw [← State.tick_spine]; generalize State.tick _ _ = u; repeat' (first | (intro _) | simp | (refine (State.each_spine _ ?_ _ _).trans ?_) | (refine (State.command_spine _ _ _ _ _ ?_).trans ?_) | split | rfl)

theorem execPowerFailNoticeTimeout_spine (t : Ns) (s : State) : ∃ u, execPowerFailNoticeTimeout t s = .next u ∧ u.spine = { s.spine with now := (s.tick t).now } := by
  refine ⟨_, rfl, ?_⟩
  rw [← State.tick_spine]
  generalize s.tick t = u
  (try dsimp only)
  (repeat' split) <;> simp

theorem execTwinStatus_spine : ∀ (x0 : Ns) (x1 : Mbx) (s : State), ∃ u, execTwinStatus x0 x1 s = .next u ∧ u.spine = { s.spine with now := (s.tick x0).now } := by
  intros; refine ⟨_, rfl, ?_⟩; rw [← State.tick_spine]; generalize State.tick _ _ = u; repeat' (first | (intro _) | simp | (refine (State.each_spine _ ?_ _ _).trans ?_) | (refine (State.command_spine _ _ _ _ _ ?_).trans ?_) | split | rfl)

theorem execTwinDrill_spine : ∀ (x0 : Ns) (x1 : Mbx) (s : State), ∃ u, execTwinDrill x0 x1 s = .next u ∧ u.spine = { s.spine with now := (s.tick x0).now } := by
  intros; refine ⟨_, rfl, ?_⟩; rw [← State.tick_spine]; generalize State.tick _ _ = u; repeat' (first | (intro _) | simp | (refine (State.each_spine _ ?_ _ _).trans ?_) | (refine (State.command_spine _ _ _ _ _ ?_).trans ?_) | split | rfl)

theorem execBlockRestart_spine : ∀ (x0 : Ns) (x1 : Mbx) (s : State), ∃ u, execBlockRestart x0 x1 s = .next u ∧ u.spine = { s.spine with now := (s.tick x0).now } := by
  intros; refine ⟨_, rfl, ?_⟩; rw [← State.tick_spine]; generalize State.tick _ _ = u; repeat' (first | (intro _) | simp | (refine (State.each_spine _ ?_ _ _).trans ?_) | (refine (State.command_spine _ _ _ _ _ ?_).trans ?_) | split | rfl)

@[simp ↓] theorem State.putNote_spine : ∀ (s : State) (x1 : ℕ) (x2 : Note), (State.putNote s x1 x2).spine = s.spine := by intros; simp [State.putNote]

theorem execHeatNote_spine : ∀ (x0 : Ns) (x1 : StookId) (x2 : HeatNote) (s : State), ∃ u, execHeatNote x0 x1 x2 s = .next u ∧ u.spine = { s.spine with now := (s.tick x0).now } := by
  intros; refine ⟨_, rfl, ?_⟩; rw [← State.tick_spine]; generalize State.tick _ _ = u; repeat' (first | (intro _) | simp | (refine (State.each_spine _ ?_ _ _).trans ?_) | (refine (State.command_spine _ _ _ _ _ ?_).trans ?_) | split | rfl)

@[simp ↓] theorem State.sendNotes_spine : ∀ (s : State), (State.sendNotes s).spine = s.spine := by
  intros; unfold State.sendNotes; repeat' (first | (intro _) | simp | (refine (State.each_spine _ ?_ _ _).trans ?_) | (refine (State.command_spine _ _ _ _ _ ?_).trans ?_) | split | rfl)

@[simp ↓] theorem State.stookWindow_spine : ∀ (s : State) (x1 : ℕ) (x2 : Bool), (State.stookWindow s x1 x2).spine = s.spine := by intros; simp [State.stookWindow]

theorem execHeatWindowEnd_spine : ∀ (x0 : Ns) (s : State), ∃ u, execHeatWindowEnd x0 s = .next u ∧ u.spine = { s.spine with now := (s.tick x0).now } := by
  intros; refine ⟨_, rfl, ?_⟩; rw [← State.tick_spine]; generalize State.tick _ _ = u; repeat' (first | (intro _) | simp | (refine (State.each_spine _ ?_ _ _).trans ?_) | (refine (State.command_spine _ _ _ _ _ ?_).trans ?_) | split | rfl)

theorem execColdScan_spine : ∀ (x0 : Ns) (s : State), ∃ u, execColdScan x0 s = .next u ∧ u.spine = { s.spine with now := (s.tick x0).now } := by
  intros; refine ⟨_, rfl, ?_⟩; rw [← State.tick_spine]; generalize State.tick _ _ = u; repeat' (first | (intro _) | simp | (refine (State.each_spine _ ?_ _ _).trans ?_) | (refine (State.command_spine _ _ _ _ _ ?_).trans ?_) | split | rfl)

@[simp ↓] theorem State.mapTake_spine : ∀ (s : State) (x1 : ℕ) (x2 : Quad), (State.mapTake s x1 x2).spine = s.spine := by
  intros; unfold State.mapTake; repeat' (first | (intro _) | simp | (refine (State.each_spine _ ?_ _ _).trans ?_) | (refine (State.command_spine _ _ _ _ _ ?_).trans ?_) | split | rfl)

@[simp ↓] theorem State.openMove_spine : ∀ (s : State) (x1 : Move), (State.openMove s x1).spine = s.spine := by
  intros; unfold State.openMove; repeat' (first | (intro _) | simp | (refine (State.each_spine _ ?_ _ _).trans ?_) | (refine (State.command_spine _ _ _ _ _ ?_).trans ?_) | split | rfl)

@[simp ↓] theorem State.joinMove_spine : ∀ (s : State) (x1 : ℕ) (x2 : ℕ × ℕ) (x3 : ℕ × ℕ) (x4 : ℕ) (x5 : Bool), (State.joinMove s x1 x2 x3 x4 x5).spine = s.spine := by intros; simp [State.joinMove]

@[simp ↓] theorem State.mapMsg_spine : ∀ (s : State) (x1 : ℕ) (x2 : MapMsg), (State.mapMsg s x1 x2).spine = s.spine := by
  intros; unfold State.mapMsg; repeat' (first | (intro _) | simp | (refine (State.each_spine _ ?_ _ _).trans ?_) | (refine (State.command_spine _ _ _ _ _ ?_).trans ?_) | split | rfl)

theorem execMapRecord_spine : ∀ (x0 : Ns) (x1 : BitVec 32) (x2 : MapMsg) (s : State), ∃ u, execMapRecord x0 x1 x2 s = .next u ∧ u.spine = { s.spine with now := (s.tick x0).now } := by
  intros; refine ⟨_, rfl, ?_⟩; rw [← State.tick_spine]; generalize State.tick _ _ = u; repeat' (first | (intro _) | simp | (refine (State.each_spine _ ?_ _ _).trans ?_) | (refine (State.command_spine _ _ _ _ _ ?_).trans ?_) | split | rfl)

end Sys2Proof.Machine
end

