-- ==== Sys2Proof/Laws/SpineCtl.lean ====
section
/-! SUPPORT. The spine of the state (the queue, scratch, the time, the fail-safe state, the OTP contents) under every operation: Heliostat, scrub, reactions, registers, power, flash and the grid. -/

set_option linter.all false

namespace Sys2Proof.Machine

@[simp ↓] theorem State.countMove_spine : ∀ (s : State) (x1 : MvWhy), (State.countMove s x1).spine = s.spine := by
  intros; unfold State.countMove; repeat' (first | (intro _) | simp | (refine (State.each_spine _ ?_ _ _).trans ?_) | (refine (State.command_spine _ _ _ _ _ ?_).trans ?_) | split | rfl)

@[simp ↓] theorem State.startMove_spine : ∀ (s : State) (x1 : ℕ) (x2 : ℕ × ℕ) (x3 : MvWhy), (State.startMove s x1 x2 x3).spine = s.spine := by
  intros; unfold State.startMove; repeat' (first | (intro _) | simp | (refine (State.each_spine _ ?_ _ _).trans ?_) | (refine (State.command_spine _ _ _ _ _ ?_).trans ?_) | split | rfl)

@[simp ↓] theorem State.countOver_spine : ∀ (s : State), (State.countOver s).spine = s.spine := by
  intros; unfold State.countOver; repeat' (first | (intro _) | simp | (refine (State.each_spine _ ?_ _ _).trans ?_) | (refine (State.command_spine _ _ _ _ _ ?_).trans ?_) | split | rfl)

@[simp ↓] theorem State.roleMoves_spine : ∀ (s : State), (State.roleMoves s).spine = s.spine := by
  intros; unfold State.roleMoves; repeat' (first | (intro _) | simp | (refine (State.each_spine _ ?_ _ _).trans ?_) | (refine (State.command_spine _ _ _ _ _ ?_).trans ?_) | split | rfl)

@[simp ↓] theorem State.adjustK_spine : ∀ (s : State) (x1 : List ℕ), (State.adjustK s x1).spine = s.spine := by
  intros; unfold State.adjustK; repeat' (first | (intro _) | simp | (refine (State.each_spine _ ?_ _ _).trans ?_) | (refine (State.command_spine _ _ _ _ _ ?_).trans ?_) | split | rfl)

@[simp ↓] theorem State.rollRound_spine : ∀ (s : State), (State.rollRound s).spine = s.spine := by intros; simp [State.rollRound]

@[simp ↓] theorem State.armRemoval_spine : ∀ (s : State), (State.armRemoval s).spine = s.spine := by
  intros; unfold State.armRemoval; repeat' (first | (intro _) | simp | (refine (State.each_spine _ ?_ _ _).trans ?_) | (refine (State.command_spine _ _ _ _ _ ?_).trans ?_) | split | rfl)

@[simp ↓] theorem State.drainLeft_spine : ∀ (s : State), (State.drainLeft s).spine = s.spine := by
  intros; unfold State.drainLeft; repeat' (first | (intro _) | simp | (refine (State.each_spine _ ?_ _ _).trans ?_) | (refine (State.command_spine _ _ _ _ _ ?_).trans ?_) | split | rfl)

@[simp ↓] theorem Round.move_spine (r : Round) (tract : Nat) (fast : Bool) (why : MvWhy) : (r.move tract fast why).s.spine = r.s.spine := by
  unfold Round.move
  repeat' split
  all_goals first | rfl | skip
  have h := State.alloc_spine ‹State.alloc _ _ = some _›
  simp [h]
theorem Round.leave_spine (r : Round) (tract : Nat) : (r.leave tract).s.spine = r.s.spine := by
  unfold Round.leave
  (try dsimp only)
  (repeat' split) <;> simp
theorem Round.swap_spine (r : Round) (x c : Nat) : (r.swap x c).s.spine = r.s.spine := by
  unfold Round.swap
  (try dsimp only)
  (repeat' split) <;> simp
theorem Round.promote_spine (r : Round) (c : Nat × Nat × Nat) : (r.promote c).s.spine = r.s.spine := by
  unfold Round.promote
  (try dsimp only)
  (repeat' split) <;> first | rfl | exact Round.swap_spine _ _ _ | simp
theorem Round.foldl_spine {α : Type} (f : Round → α → Round) (h : ∀ r x, (f r x).s.spine = r.s.spine) : ∀ (l : List α) (r : Round), (l.foldl f r).s.spine = r.s.spine
  | [], _ => rfl
  | _ :: l, r => (Round.foldl_spine f h l _).trans (h r _)
theorem Round.spread_spine (r : Round) (b : Nat) : (r.spread b).s.spine = r.s.spine := by
  unfold Round.spread
  (try dsimp only)
  refine Round.foldl_spine _ ?_ _ _
  intro r x
  (repeat' split) <;> simp
theorem State.roundFirst_spine (s : State) : s.roundFirst.s.spine = s.spine := by
  unfold State.roundFirst
  refine (Round.foldl_spine _ (by intro r x; (split <;> simp)) _ _).trans ?_
  refine (Round.foldl_spine _ (by intro r x; simp) _ _).trans ?_
  exact Round.foldl_spine _ Round.leave_spine _ _
theorem Round.finish_spine (r : Round) (b : Nat) : (r.finish b).s.spine = r.s.spine :=
  (Round.spread_spine _ _).trans (Round.foldl_spine _ Round.promote_spine _ _)
theorem State.roundMoves_eq (s : State) : s.roundMoves =
    (s.roundFirst.refused, (s.roundFirst.finish (capMoves s.place.migCap)).late, (s.roundFirst.finish (capMoves s.place.migCap)).s) := by
  delta State.roundMoves; rfl
theorem Round.out_spine (a : List Nat) (r : Round) : (a, r.late, r.s).2.2.spine = r.s.spine := rfl
@[simp ↓] theorem State.roundMoves_spine (s : State) : s.roundMoves.2.2.spine = s.spine := by
  rw [State.roundMoves_eq, Round.out_spine, Round.finish_spine, State.roundFirst_spine]

theorem execHeliostatRound_spine : ∀ (x0 : Ns) (s : State), ∃ u, execHeliostatRound x0 s = .next u ∧ u.spine = { s.spine with now := (s.tick x0).now } := by
  intros; refine ⟨_, rfl, ?_⟩; rw [← State.tick_spine]; generalize State.tick _ _ = u; repeat' (first | (intro _) | simp | (refine (State.each_spine _ ?_ _ _).trans ?_) | (refine (State.command_spine _ _ _ _ _ ?_).trans ?_) | split | rfl)

theorem execMoveStartAck_spine : ∀ (x0 : Ns) (x1 : BitVec 32) (s : State), ∃ u, execMoveStartAck x0 x1 s = .next u ∧ u.spine = { s.spine with now := (s.tick x0).now } := by
  intros; refine ⟨_, rfl, ?_⟩; rw [← State.tick_spine]; generalize State.tick _ _ = u; repeat' (first | (intro _) | simp | (refine (State.each_spine _ ?_ _ _).trans ?_) | (refine (State.command_spine _ _ _ _ _ ?_).trans ?_) | split | rfl)

theorem execMoveCopied_spine (t : Ns) (tract : BitVec 32) (s : State) : ∃ u, execMoveCopied t tract s = .next u ∧ u.spine = { s.spine with now := (s.tick t).now } := by
  refine ⟨_, rfl, ?_⟩
  rw [← State.tick_spine]
  generalize s.tick t = u
  (try dsimp only)
  (repeat' split) <;> simp

@[simp ↓] theorem State.markCommit_spine : ∀ (s : State) (x1 : ℕ) (x2 : ℕ), (State.markCommit s x1 x2).spine = s.spine := by intros; simp [State.markCommit]

@[simp ↓] theorem State.moveDrained_spine : ∀ (s : State) (x1 : ℕ) (x2 : MovRec), (State.moveDrained s x1 x2).spine = s.spine := by intros; simp [State.moveDrained]

theorem execCommitMark_spine : ∀ (x0 : Ns) (x1 : SliceId) (x2 : IntakeId) (s : State), ∃ u, execCommitMark x0 x1 x2 s = .next u ∧ u.spine = { s.spine with now := (s.tick x0).now } := by
  intros; refine ⟨_, rfl, ?_⟩; rw [← State.tick_spine]; generalize State.tick _ _ = u; repeat' (first | (intro _) | simp | (refine (State.each_spine _ ?_ _ _).trans ?_) | (refine (State.command_spine _ _ _ _ _ ?_).trans ?_) | split | rfl)

@[simp ↓] theorem State.endMove_spine : ∀ (s : State) (x1 : Move) (x2 : ℕ), (State.endMove s x1 x2).spine = s.spine := by
  intros; unfold State.endMove; repeat' (first | (intro _) | simp | (refine (State.each_spine _ ?_ _ _).trans ?_) | (refine (State.command_spine _ _ _ _ _ ?_).trans ?_) | split | rfl)

theorem execMoveDone_spine : ∀ (x0 : Ns) (x1 : BitVec 32) (s : State), ∃ u, execMoveDone x0 x1 s = .next u ∧ u.spine = { s.spine with now := (s.tick x0).now } := by
  intros; refine ⟨_, rfl, ?_⟩; rw [← State.tick_spine]; generalize State.tick _ _ = u; repeat' (first | (intro _) | simp | (refine (State.each_spine _ ?_ _ _).trans ?_) | (refine (State.command_spine _ _ _ _ _ ?_).trans ?_) | split | rfl)

theorem execCapAdd_spine : ∀ (x0 : Ns) (x1 : Mbx) (x2 : ℕ) (x3 : ℕ) (s : State), ∃ u, execCapAdd x0 x1 x2 x3 s = .next u ∧ u.spine = { s.spine with now := (s.tick x0).now } := by
  intros; refine ⟨_, rfl, ?_⟩; rw [← State.tick_spine]; generalize State.tick _ _ = u; repeat' (first | (intro _) | simp | (refine (State.each_spine _ ?_ _ _).trans ?_) | (refine (State.command_spine _ _ _ _ _ ?_).trans ?_) | split | rfl)

theorem execCapRemove_spine : ∀ (x0 : Ns) (x1 : Mbx) (s : State), ∃ u, execCapRemove x0 x1 s = .next u ∧ u.spine = { s.spine with now := (s.tick x0).now } := by
  intros; refine ⟨_, rfl, ?_⟩; rw [← State.tick_spine]; generalize State.tick _ _ = u; repeat' (first | (intro _) | simp | (refine (State.each_spine _ ?_ _ _).trans ?_) | (refine (State.command_spine _ _ _ _ _ ?_).trans ?_) | split | rfl)

theorem execTractRethaw_spine : ∀ (x0 : Ns) (x1 : Mbx) (s : State), ∃ u, execTractRethaw x0 x1 s = .next u ∧ u.spine = { s.spine with now := (s.tick x0).now } := by
  intros; refine ⟨_, rfl, ?_⟩; rw [← State.tick_spine]; generalize State.tick _ _ = u; repeat' (first | (intro _) | simp | (refine (State.each_spine _ ?_ _ _).trans ?_) | (refine (State.command_spine _ _ _ _ _ ?_).trans ?_) | split | rfl)

theorem execTractRebuild_spine : ∀ (x0 : Ns) (x1 : Mbx) (s : State), ∃ u, execTractRebuild x0 x1 s = .next u ∧ u.spine = { s.spine with now := (s.tick x0).now } := by
  intros; refine ⟨_, rfl, ?_⟩; rw [← State.tick_spine]; generalize State.tick _ _ = u; repeat' (first | (intro _) | simp | (refine (State.each_spine _ ?_ _ _).trans ?_) | (refine (State.command_spine _ _ _ _ _ ?_).trans ?_) | split | rfl)

@[simp ↓] theorem State.rebuild_spine (s : State) (tr : Nat) : (s.rebuild tr).spine = s.spine := by
  unfold State.rebuild
  (try dsimp only)
  generalize (match (s.mapEntry tr).bind _ with | some e => some (mePart e) | none => s.partOf (tr * 1024)) = p
  split
  · refine Eq.trans ?_ (State.alloc_spine ‹_›)
    simp
    refine (State.each_spine _ ?_ _ _).trans ?_
    · intro a s; simp
    · simp; split <;> simp
  · rfl

theorem execPatrolScrubLine_spine : ∀ (x0 : Ns) (x1 : SliceId) (x2 : BitVec 42) (s : State), ∃ u, execPatrolScrubLine x0 x1 x2 s = .next u ∧ u.spine = { s.spine with now := (s.tick x0).now } := by
  intros; refine ⟨_, rfl, ?_⟩; rw [← State.tick_spine]; generalize State.tick _ _ = u; repeat' (first | (intro _) | simp | (refine (State.each_spine _ ?_ _ _).trans ?_) | (refine (State.command_spine _ _ _ _ _ ?_).trans ?_) | split | rfl)

@[simp ↓] theorem State.raiseFloor_spine : ∀ (s : State) (x1 : ℕ), (State.raiseFloor s x1).spine = s.spine := by intros; simp [State.raiseFloor]

@[simp ↓] theorem State.endRestored_spine : ∀ (s : State), (State.endRestored s).spine = s.spine := by intros; simp [State.endRestored]

@[simp ↓] theorem State.nextPass_spine : ∀ (s : State), (State.nextPass s).spine = s.spine := by intros; simp [State.nextPass]

theorem execPatrolPassComplete_spine : ∀ (x0 : Ns) (s : State), ∃ u, execPatrolPassComplete x0 s = .next u ∧ u.spine = { s.spine with now := (s.tick x0).now } := by
  intros; refine ⟨_, rfl, ?_⟩; rw [← State.tick_spine]; generalize State.tick _ _ = u; repeat' (first | (intro _) | simp | (refine (State.each_spine _ ?_ _ _).trans ?_) | (refine (State.command_spine _ _ _ _ _ ?_).trans ?_) | split | rfl)

@[simp ↓] theorem State.unrecord_spine : ∀ (s : State) (x1 : ℕ) (x2 : ℕ) (x3 : ℕ), (State.unrecord s x1 x2 x3).spine = s.spine := by intros; simp [State.unrecord]

@[simp ↓] theorem State.dirAll_spine : ∀ (s : State) (x1 : ℕ) (x2 : ℕ) (x3 : ℕ × ℕ) (x4 : List ℕ), (State.dirAll s x1 x2 x3 x4).spine = s.spine := by
  intros; unfold State.dirAll; repeat' (first | (intro _) | simp | (refine (State.each_spine _ ?_ _ _).trans ?_) | (refine (State.command_spine _ _ _ _ _ ?_).trans ?_) | split | rfl)

@[simp ↓] theorem State.lostWord1_spine : ∀ (s : State) (x1 : ℕ) (x2 : ℕ) (x3 : FEntry), (State.lostWord1 s x1 x2 x3).spine = s.spine := by intros; simp [State.lostWord1]

@[simp ↓] theorem State.advanceOrGrave_spine : ∀ (s : State) (x1 : ℕ) (x2 : ℕ), (State.advanceOrGrave s x1 x2).spine = s.spine := by intros; simp [State.advanceOrGrave]

@[simp ↓] theorem State.bankLost_spine : ∀ (s : State) (x1 : ℕ), (State.bankLost s x1).spine = s.spine := by
  intros; unfold State.bankLost; repeat' (first | (intro _) | simp | (refine (State.each_spine _ ?_ _ _).trans ?_) | (refine (State.command_spine _ _ _ _ _ ?_).trans ?_) | split | rfl)

@[simp ↓] theorem State.lostWord0_spine : ∀ (s : State) (x1 : ℕ) (x2 : ℕ) (x3 : FEntry), (State.lostWord0 s x1 x2 x3).spine = s.spine := by intros; simp [State.lostWord0]

@[simp ↓] theorem State.fltLost_spine : ∀ (s : State) (x1 : ℕ) (x2 : ℕ) (x3 : Bool), (State.fltLost s x1 x2 x3).spine = s.spine := by
  intros; unfold State.fltLost; repeat' (first | (intro _) | simp | (refine (State.each_spine _ ?_ _ _).trans ?_) | (refine (State.command_spine _ _ _ _ _ ?_).trans ?_) | split | rfl)

@[simp ↓] theorem State.fltOut_spine : ∀ (s : State) (x1 : ℕ) (x2 : ℕ) (x3 : List (ℕ × Bool)), (State.fltOut s x1 x2 x3).spine = s.spine := by
  intros; unfold State.fltOut; repeat' (first | (intro _) | simp | (refine (State.each_spine _ ?_ _ _).trans ?_) | (refine (State.command_spine _ _ _ _ _ ?_).trans ?_) | split | rfl)

@[simp ↓] theorem State.poisonDirty_spine : ∀ (s : State) (x1 : ℕ) (x2 : ℕ) (x3 : GEntry) (x4 : Meta) (x5 : Trans), (State.poisonDirty s x1 x2 x3 x4 x5).spine = s.spine := by intros; simp [State.poisonDirty]

@[simp ↓] theorem State.grnLost_spine : ∀ (s : State) (x1 : ℕ) (x2 : ℕ) (x3 : Bool) (x4 : Trans), (State.grnLost s x1 x2 x3 x4).spine = s.spine := by
  intros; unfold State.grnLost; repeat' (first | (intro _) | simp | (refine (State.each_spine _ ?_ _ _).trans ?_) | (refine (State.command_spine _ _ _ _ _ ?_).trans ?_) | split | rfl)

@[simp ↓] theorem State.wayGone_spine : ∀ (s : State) (x1 : ℕ) (x2 : ℕ), (State.wayGone s x1 x2).spine = s.spine := by
  intros; unfold State.wayGone; repeat' (first | (intro _) | simp | (refine (State.each_spine _ ?_ _ _).trans ?_) | (refine (State.command_spine _ _ _ _ _ ?_).trans ?_) | split | rfl)

@[simp ↓] theorem State.wayOut_spine : ∀ (s : State) (x1 : ℕ) (x2 : ℕ) (x3 : List (ℕ × Bool)) (x4 : Trans), (State.wayOut s x1 x2 x3 x4).spine = s.spine := by
  intros; unfold State.wayOut; repeat' (first | (intro _) | simp | (refine (State.each_spine _ ?_ _ _).trans ?_) | (refine (State.command_spine _ _ _ _ _ ?_).trans ?_) | split | rfl)

@[simp ↓] theorem State.subOut_spine : ∀ (s : State) (x1 : ℕ) (x2 : ℕ) (x3 : ℕ) (x4 : List (ℕ × Bool)) (x5 : Trans), (State.subOut s x1 x2 x3 x4 x5).spine = s.spine := by
  intros; unfold State.subOut; repeat' (first | (intro _) | simp | (refine (State.each_spine _ ?_ _ _).trans ?_) | (refine (State.command_spine _ _ _ _ _ ?_).trans ?_) | split | rfl)

@[simp ↓] theorem State.arrayCe_spine : ∀ (s : State) (x1 : ArrayWord) (x2 : List (ℕ × Bool)) (x3 : Trans), (State.arrayCe s x1 x2 x3).spine = s.spine := by intros; simp [State.arrayCe]

@[simp ↓] theorem State.arrayUe_spine : ∀ (s : State) (x1 : ArrayWord) (x2 : Trans), (State.arrayUe s x1 x2).spine = s.spine := by
  intros; unfold State.arrayUe; repeat' (first | (intro _) | simp | (refine (State.each_spine _ ?_ _ _).trans ?_) | (refine (State.command_spine _ _ _ _ _ ?_).trans ?_) | split | rfl)

@[simp ↓] theorem State.wordFault_spine : ∀ (s : State) (x1 : ArrayWord) (x2 : WordFault) (x3 : Trans), (State.wordFault s x1 x2 x3).spine = s.spine := by
  intros; unfold State.wordFault; repeat' (first | (intro _) | simp | (refine (State.each_spine _ ?_ _ _).trans ?_) | (refine (State.command_spine _ _ _ _ _ ?_).trans ?_) | split | rfl)

@[simp ↓] theorem State.meets_spine : ∀ (s : State) (x1 : Option (ArrayWord × WordFault)) (x2 : Trans), (State.meets s x1 x2).spine = s.spine := by
  intros; unfold State.meets; repeat' (first | (intro _) | simp | (refine (State.each_spine _ ?_ _ _).trans ?_) | (refine (State.command_spine _ _ _ _ _ ?_).trans ?_) | split | rfl)

@[simp ↓] theorem State.wakeFor_spine : ∀ (s : State) (x1 : ℕ) (x2 : ℕ), (State.wakeFor s x1 x2).spine = s.spine := by intros; simp [State.wakeFor]

theorem execArrayScrubWord_spine : ∀ (x0 : Ns) (x1 : ArrayWord) (x2 : WordFault) (s : State), ∃ u, execArrayScrubWord x0 x1 x2 s = .next u ∧ u.spine = { s.spine with now := (s.tick x0).now } := by
  intros; refine ⟨_, rfl, ?_⟩; rw [← State.tick_spine]; generalize State.tick _ _ = u; repeat' (first | (intro _) | simp | (refine (State.each_spine _ ?_ _ _).trans ?_) | (refine (State.command_spine _ _ _ _ _ ?_).trans ?_) | split | rfl)

theorem execFilterLookupDone_spine : ∀ (x0 : Ns) (x1 : SliceId) (x2 : Lookup) (s : State), ∃ u, execFilterLookupDone x0 x1 x2 s = .next u ∧ u.spine = { s.spine with now := (s.tick x0).now } := by
  intros; refine ⟨_, rfl, ?_⟩; rw [← State.tick_spine]; generalize State.tick _ _ = u; repeat' (first | (intro _) | simp | (refine (State.each_spine _ ?_ _ _).trans ?_) | (refine (State.command_spine _ _ _ _ _ ?_).trans ?_) | split | rfl)

theorem execGranaryLookupDone_spine : ∀ (x0 : Ns) (x1 : SliceId) (x2 : Lookup) (s : State), ∃ u, execGranaryLookupDone x0 x1 x2 s = .next u ∧ u.spine = { s.spine with now := (s.tick x0).now } := by
  intros; refine ⟨_, rfl, ?_⟩; rw [← State.tick_spine]; generalize State.tick _ _ = u; repeat' (first | (intro _) | simp | (refine (State.each_spine _ ?_ _ _).trans ?_) | (refine (State.command_spine _ _ _ _ _ ?_).trans ?_) | split | rfl)

theorem execLaneEntryExpiry_spine : ∀ (x0 : Ns) (x1 : StookId) (x2 : MediaId) (x3 : Fin 72) (x4 : Fin 8) (s : State), ∃ u, execLaneEntryExpiry x0 x1 x2 x3 x4 s = .next u ∧ u.spine = { s.spine with now := (s.tick x0).now } := by
  intros; refine ⟨_, rfl, ?_⟩; rw [← State.tick_spine]; generalize State.tick _ _ = u; repeat' (first | (intro _) | simp | (refine (State.each_spine _ ?_ _ _).trans ?_) | (refine (State.command_spine _ _ _ _ _ ?_).trans ?_) | split | rfl)

theorem execLaneSteerDone_spine : ∀ (x0 : Ns) (x1 : MediaId) (s : State), ∃ u, execLaneSteerDone x0 x1 s = .next u ∧ u.spine = { s.spine with now := (s.tick x0).now } := by
  intros; refine ⟨_, rfl, ?_⟩; rw [← State.tick_spine]; generalize State.tick _ _ = u; repeat' (first | (intro _) | simp | (refine (State.each_spine _ ?_ _ _).trans ?_) | (refine (State.command_spine _ _ _ _ _ ?_).trans ?_) | split | rfl)

@[simp ↓] theorem State.drainAll_spine : ∀ (s : State), (State.drainAll s).spine = s.spine := by
  intros; unfold State.drainAll; repeat' (first | (intro _) | simp | (refine (State.each_spine _ ?_ _ _).trans ?_) | (refine (State.command_spine _ _ _ _ _ ?_).trans ?_) | split | rfl)

theorem State.failSafe_spine (s : State) (d : Bool) : (s.failSafe d).spine = { s.spine with failsafe := true } := by
  unfold State.failSafe
  split
  · rename_i h
    have : s.spine.failsafe = true := h
    rw [← this]
  · dsimp only
    generalize hu : State.onPwr (State.onWin _ _) _ = u
    have h : u.spine = { s.spine with failsafe := true } := by
      rw [← hu, State.onPwr_spine _ _ (by intro w; rfl)]
      refine Eq.trans (b := { (if (State.each (fun i s => s.onIp i fun q => { q with halted := true }) (List.range 16) s).twin.st = TwSt.paired then
          ((State.each (fun i s => s.onIp i fun q => { q with halted := true }) (List.range 16) s).toTwin (.abdicate false)).onTwin fun w => { w with st := .abdicated }
        else State.each (fun i s => s.onIp i fun q => { q with halted := true }) (List.range 16) s).spine with failsafe := true }) rfl ?_
      rw [spine_ite]
      simp only [State.onTwin_spine, State.toTwin_spine]
      rw [State.each_spine _ (by intro a s; simp)]
      simp
    rw [← h]
    split <;> simp

@[simp ↓] theorem State.markPlane_spine : ∀ (s : State) (x1 : RScope), (State.markPlane s x1).spine = s.spine := by
  intros; unfold State.markPlane; repeat' (first | (intro _) | simp | (refine (State.each_spine _ ?_ _ _).trans ?_) | (refine (State.command_spine _ _ _ _ _ ?_).trans ?_) | split | rfl)

/-- What a reaction can do to the spine: the fail-safe state is entered, never left (R571). -/
def Spine.Safe (a b : Spine) : Prop := b = a ∨ b = { a with failsafe := true }

theorem State.carryOut_spine (s : State) (k : RKind) (sc : RScope) (recno src : Nat) : Spine.Safe s.spine (s.carryOut k sc recno src).spine := by
  unfold State.carryOut
  split
  case h_12 => exact .inr (State.failSafe_spine s _)
  all_goals left; repeat' (first | simp | split)

@[simp ↓] theorem State.ackEvent_spine : ∀ (s : State) (x1 : SrcId) (x2 : ℕ), (State.ackEvent s x1 x2).spine = s.spine := by
  intros; unfold State.ackEvent; repeat' (first | (intro _) | simp | (refine (State.each_spine _ ?_ _ _).trans ?_) | (refine (State.command_spine _ _ _ _ _ ?_).trans ?_) | split | rfl)

theorem State.takeEvent_spine (s : State) (v : Ev) : Spine.Safe s.spine (s.takeEvent v).spine := by
  unfold State.takeEvent
  (try dsimp only)
  generalize hu : State.takeLost _ v.src = u
  have h : u.spine = s.spine := by rw [← hu]; simp
  rw [← h]
  split
  · exact State.carryOut_spine _ _ _ _ _
  · exact .inl rfl

theorem State.takeFirst_spine (w : State) (p : Ev → Bool) :
    Spine.Safe w.spine (match w.events.find? p with | some v => w.takeEvent v | none => w).spine := by
  split
  · exact State.takeEvent_spine _ _
  · exact .inl rfl

theorem execWinnowEvent_spine (t : Ns) (src : SrcId) (raised : Option EvIn) (s : State) : ∃ u, execWinnowEvent t src raised s = .next u ∧
    Spine.Safe { s.spine with now := (s.tick t).now } u.spine := by
  refine ⟨_, rfl, ?_⟩
  rw [← State.tick_spine]
  generalize s.tick t = u
  cases raised with
  | none => exact State.takeFirst_spine _ _
  | some x =>
    dsimp only
    by_cases hn : noSource src.val = true
    · simp only [hn, if_true]
      exact State.takeFirst_spine _ _
    · have h := State.raiseC_spine u src.val x.kind.toNat none x.line.toNat x.part.val x.unit.val x.extra.val
      rw [← h]
      simp only [hn]
      exact State.takeFirst_spine _ _

@[simp ↓] theorem State.eventLine_spine : ∀ (s : State) (x1 : ℕ), (State.eventLine s x1).spine = s.spine := by intros; simp [State.eventLine]

theorem execEventResend_spine : ∀ (x0 : Ns) (x1 : SrcId) (s : State), ∃ u, execEventResend x0 x1 s = .next u ∧ u.spine = { s.spine with now := (s.tick x0).now } := by
  intros; refine ⟨_, rfl, ?_⟩; rw [← State.tick_spine]; generalize State.tick _ _ = u; repeat' (first | (intro _) | simp | (refine (State.each_spine _ ?_ _ _).trans ?_) | (refine (State.command_spine _ _ _ _ _ ?_).trans ?_) | split | rfl)

theorem execEventLine_spine : ∀ (x0 : Ns) (x1 : HsUnit) (s : State), ∃ u, execEventLine x0 x1 s = .next u ∧ u.spine = { s.spine with now := (s.tick x0).now } := by
  intros; refine ⟨_, rfl, ?_⟩; rw [← State.tick_spine]; generalize State.tick _ _ = u; repeat' (first | (intro _) | simp | (refine (State.each_spine _ ?_ _ _).trans ?_) | (refine (State.command_spine _ _ _ _ _ ?_).trans ?_) | split | rfl)

theorem execShadowEnd_spine : ∀ (x0 : Ns) (x1 : Word) (s : State), ∃ u, execShadowEnd x0 x1 s = .next u ∧ u.spine = { s.spine with now := (s.tick x0).now } := by
  intros; refine ⟨_, rfl, ?_⟩; rw [← State.tick_spine]; generalize State.tick _ _ = u; repeat' (first | (intro _) | simp | (refine (State.each_spine _ ?_ _ _).trans ?_) | (refine (State.command_spine _ _ _ _ _ ?_).trans ?_) | split | rfl)

theorem execAliveToggle_spine : ∀ (x0 : Ns) (s : State), ∃ u, execAliveToggle x0 s = .next u ∧ u.spine = { s.spine with now := (s.tick x0).now } := by
  intros; refine ⟨_, rfl, ?_⟩; rw [← State.tick_spine]; generalize State.tick _ _ = u; repeat' (first | (intro _) | simp | (refine (State.each_spine _ ?_ _ _).trans ?_) | (refine (State.command_spine _ _ _ _ _ ?_).trans ?_) | split | rfl)

theorem execFirstClear_spine : ∀ (x0 : Ns) (s : State), ∃ u, execFirstClear x0 s = .next u ∧ u.spine = { s.spine with now := (s.tick x0).now } := by
  intros; refine ⟨_, rfl, ?_⟩; rw [← State.tick_spine]; generalize State.tick _ _ = u; repeat' (first | (intro _) | simp | (refine (State.each_spine _ ?_ _ _).trans ?_) | (refine (State.command_spine _ _ _ _ _ ?_).trans ?_) | split | rfl)

@[simp ↓] theorem State.inject_spine : ∀ (s : State) (x1 : ℕ), (State.inject s x1).spine = s.spine := by intros; simp [State.inject]

theorem execWinnowInject_spine : ∀ (x0 : Ns) (x1 : Word) (s : State), ∃ u, execWinnowInject x0 x1 s = .next u ∧ u.spine = { s.spine with now := (s.tick x0).now } := by
  intros; refine ⟨_, rfl, ?_⟩; rw [← State.tick_spine]; generalize State.tick _ _ = u; repeat' (first | (intro _) | simp | (refine (State.each_spine _ ?_ _ _).trans ?_) | (refine (State.command_spine _ _ _ _ _ ?_).trans ?_) | split | rfl)

theorem execAlidadeWatchdog_spine : ∀ (x0 : Ns) (s : State), ∃ u, execAlidadeWatchdog x0 s = .next u ∧ u.spine = { s.spine with now := (s.tick x0).now } := by
  intros; refine ⟨_, rfl, ?_⟩; rw [← State.tick_spine]; generalize State.tick _ _ = u; repeat' (first | (intro _) | simp | (refine (State.each_spine _ ?_ _ _).trans ?_) | (refine (State.command_spine _ _ _ _ _ ?_).trans ?_) | split | rfl)

@[simp ↓] theorem State.ignBlk_spine : ∀ (s : State) (x1 : ℕ), (State.ignBlk s x1).spine = s.spine := by intros; simp [State.ignBlk]

@[simp ↓] theorem State.ignore_spine : ∀ (s : State) (x1 : Reg) (x2 : ℕ), (State.ignore s x1 x2).spine = s.spine := by
  intros; unfold State.ignore; repeat' (first | (intro _) | simp | (refine (State.each_spine _ ?_ _ _).trans ?_) | (refine (State.command_spine _ _ _ _ _ ?_).trans ?_) | split | rfl)

@[simp ↓] theorem State.ignMbx_spine : ∀ (s : State) (x1 : ℕ) (x2 : ℕ), (State.ignMbx s x1 x2).spine = s.spine := by intros; simp [State.ignMbx]

@[simp ↓] theorem State.writePart_spine : ∀ (s : State) (x1 : ℕ) (x2 : ℕ) (x3 : ℕ) (x4 : ℕ), (State.writePart s x1 x2 x3 x4).spine = s.spine := by intros; simp [State.writePart]

@[simp ↓] theorem State.writeMemb_spine : ∀ (s : State) (x1 : ℕ) (x2 : ℕ) (x3 : ℕ) (x4 : ℕ), (State.writeMemb s x1 x2 x3 x4).spine = s.spine := by intros; simp [State.writeMemb]

@[simp ↓] theorem State.writeCredit_spine : ∀ (s : State) (x1 : ℕ) (x2 : ℕ) (x3 : ℕ), (State.writeCredit s x1 x2 x3).spine = s.spine := by intros; simp [State.writeCredit]

@[simp ↓] theorem State.writeScrub_spine : ∀ (s : State) (x1 : ℕ) (x2 : ℕ), (State.writeScrub s x1 x2).spine = s.spine := by intros; simp [State.writeScrub]

@[simp ↓] theorem State.writeMp_spine : ∀ (s : State) (x1 : ℕ) (x2 : ℕ) (x3 : ℕ), (State.writeMp s x1 x2 x3).spine = s.spine := by intros; simp [State.writeMp]

@[simp ↓] theorem State.gated_spine : ∀ (s : State) (x1 : Bool) (x2 : Reg) (x3 : ℕ) (x4 : ℕ) (x5 : ℕ) (x6 : Blk → Blk), (State.gated s x1 x2 x3 x4 x5 x6).spine = s.spine := by intros; simp [State.gated]

@[simp ↓] theorem State.writeMer_spine : ∀ (s : State) (x1 : ℕ) (x2 : ℕ), (State.writeMer s x1 x2).spine = s.spine := by intros; simp [State.writeMer]

@[simp ↓] theorem State.writeInst_spine : ∀ (s : State) (x1 : ℕ) (x2 : ℕ) (x3 : ℕ), (State.writeInst s x1 x2 x3).spine = s.spine := by intros; simp [State.writeInst]

@[simp ↓] theorem State.writeTime_spine : ∀ (s : State) (x1 : ℕ) (x2 : ℕ) (x3 : ℕ) (x4 : ℕ), (State.writeTime s x1 x2 x3 x4).spine = s.spine := by intros; simp [State.writeTime]

theorem execMeridianWord0Read_spine : ∀ (x0 : Ns) (x1 : BitVec 24) (s : State), ∃ u, execMeridianWord0Read x0 x1 s = .next u ∧ u.spine = { s.spine with now := (s.tick x0).now } := by
  intros; refine ⟨_, rfl, ?_⟩; rw [← State.tick_spine]; generalize State.tick _ _ = u; repeat' (first | (intro _) | simp | (refine (State.each_spine _ ?_ _ _).trans ?_) | (refine (State.command_spine _ _ _ _ _ ?_).trans ?_) | split | rfl)

@[simp ↓] theorem State.writeTwn_spine : ∀ (s : State) (x1 : ℕ) (x2 : ℕ), (State.writeTwn s x1 x2).spine = s.spine := by intros; simp [State.writeTwn]

@[simp ↓] theorem State.writeRole_spine : ∀ (s : State) (x1 : ℕ) (x2 : ℕ) (x3 : ℕ), (State.writeRole s x1 x2 x3).spine = s.spine := by intros; simp [State.writeRole]

@[simp ↓] theorem State.writePlc_spine : ∀ (s : State) (x1 : ℕ) (x2 : ℕ), (State.writePlc s x1 x2).spine = s.spine := by intros; simp [State.writePlc]

@[simp ↓] theorem State.writeSrc_spine : ∀ (s : State) (x1 : ℕ) (x2 : ℕ) (x3 : ℕ), (State.writeSrc s x1 x2 x3).spine = s.spine := by intros; simp [State.writeSrc]

@[simp ↓] theorem State.writeRch_spine : ∀ (s : State) (x1 : ℕ) (x2 : ℕ), (State.writeRch s x1 x2).spine = s.spine := by intros; simp [State.writeRch]

@[simp ↓] theorem State.writeMargin_spine : ∀ (s : State) (x1 : ℕ), (State.writeMargin s x1).spine = s.spine := by intros; simp [State.writeMargin]

@[simp ↓] theorem State.writeHead_spine : ∀ (s : State) (x1 : ℕ) (x2 : ℕ) (x3 : Bool), (State.writeHead s x1 x2 x3).spine = s.spine := by
  intros; unfold State.writeHead; repeat' (first | (intro _) | simp | (refine (State.each_spine _ ?_ _ _).trans ?_) | (refine (State.command_spine _ _ _ _ _ ?_).trans ?_) | split | rfl)

@[simp ↓] theorem State.writeBuf_spine : ∀ (s : State) (x1 : ℕ) (x2 : ℕ) (x3 : Bool), (State.writeBuf s x1 x2 x3).spine = s.spine := by intros; simp [State.writeBuf]

@[simp ↓] theorem State.writeSlc_spine : ∀ (s : State) (x1 : ℕ) (x2 : ℕ) (x3 : ℕ), (State.writeSlc s x1 x2 x3).spine = s.spine := by intros; simp [State.writeSlc]

theorem State.writeGrn_spine (s : State) (n v o : Nat) : Spine.Mem s.spine (s.writeGrn n v o).spine := by
  unfold State.writeGrn
  (try dsimp only)
  split
  · exact Spine.mem_of_eq rfl
  · split
    · exact Spine.mem_of_eq (State.ignSlc_spine _ _ _)
    · exact State.setGrnCtl_mem _ _ _

@[simp ↓] theorem State.writeInj_spine : ∀ (s : State) (x1 : Reg) (x2 : ℕ), (State.writeInj s x1 x2).spine = s.spine := by
  intros; unfold State.writeInj; repeat' (first | (intro _) | simp | (refine (State.each_spine _ ?_ _ _).trans ?_) | (refine (State.command_spine _ _ _ _ _ ?_).trans ?_) | split | rfl)

@[simp ↓] theorem State.regWrite_spine (s : State) (r : Reg) (o v : Nat) (h : ∀ n, r ≠ .grnCtl n) : (s.regWrite r o v).spine = s.spine := by
  unfold State.regWrite
  split
  · simp
  · split
    case h_32 => exact absurd rfl (h _)
    all_goals (repeat' (first | simp | split))

theorem State.regWrite_mem (s : State) (r : Reg) (o v : Nat) : Spine.Mem s.spine (s.regWrite r o v).spine := by
  cases r with
  | grnCtl n =>
    unfold State.regWrite
    split
    · exact Spine.mem_of_eq (by simp)
    · exact State.writeGrn_spine _ _ _ _
  | _ => exact Spine.mem_of_eq (State.regWrite_spine _ _ _ _ (by intro n; simp))

theorem State.busWrite_spine (s : State) (o v : Nat) : Spine.Mem s.spine (s.busWrite o v).spine := by
  unfold State.busWrite
  (try dsimp only)
  split
  · exact State.regWrite_mem _ _ _ _
  · split
    · exact Spine.mem_of_eq rfl
    · exact State.regWrite_mem _ _ _ _

@[simp ↓] theorem State.ringWrite_spine : ∀ (s : State) (x1 : ℕ) (x2 : ℕ), (State.ringWrite s x1 x2).spine = s.spine := by intros; simp [State.ringWrite]

theorem State.writeAt_spine (s : State) (o v len : Nat) : Spine.Mem s.spine (s.writeAt o v len).spine := by
  unfold State.writeAt
  split
  · exact Spine.mem_of_eq (by simp)
  · split
    · exact Spine.mem_of_eq (by simp)
    · exact State.busWrite_spine _ _ _

theorem execRegisterWrite_spine (t : Ns) (off : BitVec 24) (v : Word) (len : Nat) (s : State) : ∃ u, execRegisterWrite t off v len s = .next u ∧
    Spine.Mem { s.spine with now := (s.tick t).now } u.spine := by
  refine ⟨_, rfl, ?_⟩
  rw [← State.tick_spine]
  exact State.writeAt_spine _ _ _ _

theorem execAliasWrite_spine (t : Ns) (off : BitVec 24) (v : Word) (len : Nat) (s : State) : ∃ u, execAliasWrite t off v len s = .next u ∧
    Spine.Mem { s.spine with now := (s.tick t).now } u.spine := by
  refine ⟨_, rfl, ?_⟩
  rw [← State.tick_spine]
  exact State.writeAt_spine _ _ _ _

theorem State.deliver_spine (s : State) (o v : Nat) : Spine.Mem s.spine (s.deliver o v).spine := by
  unfold State.deliver
  (try dsimp only)
  split
  · split
    · exact Spine.mem_of_eq (by simp)
    · rw [← State.stookWork_spine s ((o - 0x100000) / 0x10000)]; exact State.busWrite_spine _ _ _
  · split
    · exact Spine.mem_of_eq (by simp)
    · rw [← State.rouse_spine s ((o - 0x200000) / 0x4000)]; exact State.busWrite_spine _ _ _

theorem execRingWriteDelivered_spine (t : Ns) (s : State) : ∃ u, execRingWriteDelivered t s = .next u ∧ Spine.Mem { s.spine with now := (s.tick t).now } u.spine := by
  refine ⟨_, rfl, ?_⟩
  rw [← State.tick_spine]
  generalize s.tick t = u
  (try dsimp only)
  split
  · exact Spine.mem_of_eq rfl
  · exact State.deliver_spine (u.onBlk _) _ _

@[simp ↓] theorem State.setVoted_spine : ∀ (s : State) (x1 : VotedField) (x2 : ℕ), (State.setVoted s x1 x2).spine = s.spine := by
  intros; unfold State.setVoted; repeat' (first | (intro _) | simp | (refine (State.each_spine _ ?_ _ _).trans ?_) | (refine (State.command_spine _ _ _ _ _ ?_).trans ?_) | split | rfl)

@[simp ↓] theorem State.vote_spine : ∀ (s : State) (x1 : VotedField) (x2 : ℕ) (x3 : ℕ) (x4 : ℕ), (State.vote s x1 x2 x3 x4).spine = s.spine := by intros; simp [State.vote]

theorem execVoteSweep_spine : ∀ (x0 : Ns) (x1 : VotedField) (x2 : Word) (x3 : Word) (x4 : Word) (s : State), ∃ u, execVoteSweep x0 x1 x2 x3 x4 s = .next u ∧ u.spine = { s.spine with now := (s.tick x0).now } := by
  intros; refine ⟨_, rfl, ?_⟩; rw [← State.tick_spine]; generalize State.tick _ _ = u; repeat' (first | (intro _) | simp | (refine (State.each_spine _ ?_ _ _).trans ?_) | (refine (State.command_spine _ _ _ _ _ ?_).trans ?_) | split | rfl)

@[simp ↓] theorem State.flashIssue_spine : ∀ (s : State) (x1 : FlashDesc), (State.flashIssue s x1).spine = s.spine := by intros; simp [State.flashIssue]

@[simp ↓] theorem State.flashNext_spine : ∀ (s : State) (x1 : FlashJob), (State.flashNext s x1).spine = s.spine := by
  intros; unfold State.flashNext; repeat' (first | (intro _) | simp | (refine (State.each_spine _ ?_ _ _).trans ?_) | (refine (State.command_spine _ _ _ _ _ ?_).trans ?_) | split | rfl)

@[simp ↓] theorem State.flashStart_spine : ∀ (s : State) (x1 : ℕ) (x2 : FlashGoal) (x3 : List FlashDesc), (State.flashStart s x1 x2 x3).spine = s.spine := by intros; simp [State.flashStart]

@[simp ↓] theorem State.flashEnd_spine : ∀ (s : State), (State.flashEnd s).spine = s.spine := by
  intros; unfold State.flashEnd; repeat' (first | (intro _) | simp | (refine (State.each_spine _ ?_ _ _).trans ?_) | (refine (State.command_spine _ _ _ _ _ ?_).trans ?_) | split | rfl)

@[simp ↓] theorem State.flashGain_spine : ∀ (s : State) (x1 : FlashGoal), (State.flashGain s x1).spine = s.spine := by
  intros; unfold State.flashGain; repeat' (first | (intro _) | simp | (refine (State.each_spine _ ?_ _ _).trans ?_) | (refine (State.command_spine _ _ _ _ _ ?_).trans ?_) | split | rfl)

@[simp ↓] theorem State.flashMark_spine : ∀ (s : State) (x1 : ℕ) (x2 : FlashDesc) (x3 : ℕ), (State.flashMark s x1 x2 x3).spine = s.spine := by intros; simp [State.flashMark]

@[simp ↓] theorem State.flashOver_spine : ∀ (s : State) (x1 : ℕ) (x2 : ℕ), (State.flashOver s x1 x2).spine = s.spine := by intros; simp [State.flashOver]

theorem execFlashDescriptorDone_spine : ∀ (x0 : Ns) (x1 : Fin 64) (x2 : Byte) (s : State), ∃ u, execFlashDescriptorDone x0 x1 x2 s = .next u ∧ u.spine = { s.spine with now := (s.tick x0).now } := by
  intros; refine ⟨_, rfl, ?_⟩; rw [← State.tick_spine]; generalize State.tick _ _ = u; repeat' (first | (intro _) | simp | (refine (State.each_spine _ ?_ _ _).trans ?_) | (refine (State.command_spine _ _ _ _ _ ?_).trans ?_) | split | rfl)

@[simp ↓] theorem State.swapSelector_spine : ∀ (s : State) (x1 : ℕ) (x2 : Bool), (State.swapSelector s x1 x2).2.spine = s.spine := by intros; simp [State.swapSelector]

theorem execBootSelect_spine : ∀ (x0 : Ns) (x1 : Mbx) (x2 : Bool) (s : State), ∃ u, execBootSelect x0 x1 x2 s = .next u ∧ u.spine = { s.spine with now := (s.tick x0).now } := by
  intros; refine ⟨_, rfl, ?_⟩; rw [← State.tick_spine]; generalize State.tick _ _ = u; repeat' (first | (intro _) | simp | (refine (State.each_spine _ ?_ _ _).trans ?_) | (refine (State.command_spine _ _ _ _ _ ?_).trans ?_) | split | rfl)

theorem execGetFwInfo_spine : ∀ (x0 : Ns) (x1 : Mbx) (s : State), ∃ u, execGetFwInfo x0 x1 s = .next u ∧ u.spine = { s.spine with now := (s.tick x0).now } := by
  intros; refine ⟨_, rfl, ?_⟩; rw [← State.tick_spine]; generalize State.tick _ _ = u; repeat' (first | (intro _) | simp | (refine (State.each_spine _ ?_ _ _).trans ?_) | (refine (State.command_spine _ _ _ _ _ ?_).trans ?_) | split | rfl)

@[simp ↓] theorem State.imagePart_spine : ∀ (s : State) (x1 : ℕ) (x2 : ℕ) (x3 : ℕ) (x4 : ℕ) (x5 : Bool) (x6 : Bool), (State.imagePart s x1 x2 x3 x4 x5 x6).spine = s.spine := by intros; simp [State.imagePart]

theorem execTransferFw_spine : ∀ (x0 : Ns) (x1 : Mbx) (s : State), ∃ u, execTransferFw x0 x1 s = .next u ∧ u.spine = { s.spine with now := (s.tick x0).now } := by
  intros; refine ⟨_, rfl, ?_⟩; rw [← State.tick_spine]; generalize State.tick _ _ = u; repeat' (first | (intro _) | simp | (refine (State.each_spine _ ?_ _ _).trans ?_) | (refine (State.command_spine _ _ _ _ _ ?_).trans ?_) | split | rfl)

theorem execActivateFw_spine : ∀ (x0 : Ns) (x1 : Mbx) (x2 : Bool) (s : State), ∃ u, execActivateFw x0 x1 x2 s = .next u ∧ u.spine = { s.spine with now := (s.tick x0).now } := by
  intros; refine ⟨_, rfl, ?_⟩; rw [← State.tick_spine]; generalize State.tick _ _ = u; repeat' (first | (intro _) | simp | (refine (State.each_spine _ ?_ _ _).trans ?_) | (refine (State.command_spine _ _ _ _ _ ?_).trans ?_) | split | rfl)

@[simp ↓] theorem State.purge_spine : ∀ (s : State) (x1 : ℕ) (x2 : ℕ), (State.purge s x1 x2).spine = s.spine := by intros; simp [State.purge]

@[simp ↓] theorem State.dropRoots_spine : ∀ (s : State) (x1 : ℕ) (x2 : ℕ), (State.dropRoots s x1 x2).spine = s.spine := by intros; simp [State.dropRoots]

@[simp ↓] theorem State.created_spine : ∀ (s : State) (x1 : ℕ), (State.created s x1).spine = s.spine := by
  intros; unfold State.created; repeat' (first | (intro _) | simp | (refine (State.each_spine _ ?_ _ _).trans ?_) | (refine (State.command_spine _ _ _ _ _ ?_).trans ?_) | split | rfl)

@[simp ↓] theorem State.resized_spine : ∀ (s : State) (x1 : ℕ) (x2 : ℕ), (State.resized s x1 x2).spine = s.spine := by intros; simp [State.resized]

@[simp ↓] theorem State.dropPlates_spine : ∀ (s : State) (x1 : ℕ), (State.dropPlates s x1).spine = s.spine := by
  intros; unfold State.dropPlates; repeat' (first | (intro _) | simp | (refine (State.each_spine _ ?_ _ _).trans ?_) | (refine (State.command_spine _ _ _ _ _ ?_).trans ?_) | split | rfl)

@[simp ↓] theorem State.destroyed_spine : ∀ (s : State) (x1 : ℕ), (State.destroyed s x1).spine = s.spine := by intros; simp [State.destroyed]

@[simp ↓] theorem State.completeWork_spine : ∀ (s : State), (State.completeWork s).spine = s.spine := by
  intros; unfold State.completeWork; repeat' (first | (intro _) | simp | (refine (State.each_spine _ ?_ _ _).trans ?_) | (refine (State.command_spine _ _ _ _ _ ?_).trans ?_) | split | rfl)

theorem State.powerUp_spine (s : State) : s.powerUp.spine = { s.spine with scratch := [], failsafe := false } := by
  unfold State.powerUp
  dsimp only
  split
  · rfl
  · exact (State.each_spine _ (by intro a s; simp) _ _).trans rfl

theorem execRailsGood_spine (t : Ns) (f : Bool) (s : State) : ∃ u, execRailsGood t f s = .next u ∧
    (u.spine = { s.spine with now := (s.tick t).now } ∨ u.spine = { s.spine with now := (s.tick t).now, scratch := [], failsafe := false }) := by
  refine ⟨_, rfl, ?_⟩
  have h : ({ s.spine with now := (s.tick t).now } : Spine) = (s.tick t).spine := (State.tick_spine s t).symm
  (try dsimp only)
  split
  · exact .inl h.symm
  · right
    have h2 : ({ s.spine with now := (s.tick t).now, scratch := [], failsafe := false } : Spine) = { (s.tick t).spine with scratch := [], failsafe := false } := by rw [← h]
    rw [h2, State.onPwr_spine _ _ (by intro w; rfl), State.powerUp_spine]

@[simp ↓] theorem State.defaultItem_spine : ∀ (s : State) (x1 : ℕ) (x2 : ℕ), (State.defaultItem s x1 x2).spine = s.spine := by
  intros; unfold State.defaultItem; repeat' (first | (intro _) | simp | (refine (State.each_spine _ ?_ _ _).trans ?_) | (refine (State.command_spine _ _ _ _ _ ?_).trans ?_) | split | rfl)

@[simp ↓] theorem State.defaultRec_spine : ∀ (s : State) (x1 : ℕ), (State.defaultRec s x1).spine = s.spine := by
  intros; unfold State.defaultRec; repeat' (first | (intro _) | simp | (refine (State.each_spine _ ?_ _ _).trans ?_) | (refine (State.command_spine _ _ _ _ _ ?_).trans ?_) | split | rfl)

@[simp ↓] theorem State.otpTake_spine : ∀ (s : State), (State.otpTake s).spine = s.spine := by
  intros; unfold State.otpTake; repeat' (first | (intro _) | simp | (refine (State.each_spine _ ?_ _ _).trans ?_) | (refine (State.command_spine _ _ _ _ _ ?_).trans ?_) | split | rfl)

theorem State.otpRead_spine (s : State) (r0 r1 r2 : BitVec 16384) : (s.otpRead r0 r1 r2).spine = { s.spine with otp := otpVote r0 r1 r2 } := by
  unfold State.otpRead
  generalize otpVote r0 r1 r2 = o
  dsimp only
  rw [State.onWin_spine _ _ (by intro w; rfl), State.otpVotes_spine]; rfl

theorem execOtpLoad_spine (t : Ns) (r0 r1 r2 : BitVec 16384) (s : State) :
    ∃ u o, execOtpLoad t r0 r1 r2 s = .next u ∧ u.spine = { s.spine with now := (s.tick t).now, otp := o } := by
  have h : ({ s.spine with now := (s.tick t).now } : Spine) = (s.tick t).spine := (State.tick_spine s t).symm
  suffices ∀ v, ∃ o, execOtpLoad t r0 r1 r2 s = .next v → v.spine = { (s.tick t).spine with otp := o } by
    obtain ⟨o, ho⟩ := this _
    exact ⟨_, o, rfl, (ho rfl).trans (by rw [← h])⟩
  intro v
  simp only [execOtpLoad, Host.Outcome.next.injEq]
  generalize s.tick t = w
  by_cases hc : w.pwr.step ≠ 2 ∨ (!w.pwr.railsUp) = true ∨ w.pwr.fail.isSome = true
  · rw [if_pos hc]
    exact ⟨w.pwr.otp, fun e => by rw [← e]; rfl⟩
  · rw [if_neg hc]
    refine ⟨otpVote r0 r1 r2, fun e => ?_⟩
    rw [← e]
    have h1 : (w.otpRead r0 r1 r2).spine = { w.spine with otp := otpVote r0 r1 r2 } := State.otpRead_spine w r0 r1 r2
    generalize w.otpRead r0 r1 r2 = x at h1 ⊢
    rw [← h1]
    split
    · simp
    · simp

@[simp ↓] theorem State.columnOut_spine : ∀ (s : State) (x1 : ℕ), (State.columnOut s x1).spine = s.spine := by intros; simp [State.columnOut]

theorem execArrayBist_spine : ∀ (x0 : Ns) (x1 : List (BitVec 23)) (s : State), ∃ u, execArrayBist x0 x1 s = .next u ∧ u.spine = { s.spine with now := (s.tick x0).now } := by
  intros; refine ⟨_, rfl, ?_⟩; rw [← State.tick_spine]; generalize State.tick _ _ = u; repeat' (first | (intro _) | simp | (refine (State.each_spine _ ?_ _ _).trans ?_) | (refine (State.command_spine _ _ _ _ _ ?_).trans ?_) | split | rfl)

@[simp ↓] theorem State.alidadeRuns_spine : ∀ (s : State), (State.alidadeRuns s).spine = s.spine := by
  intros; unfold State.alidadeRuns; repeat' (first | (intro _) | simp | (refine (State.each_spine _ ?_ _ _).trans ?_) | (refine (State.command_spine _ _ _ _ _ ?_).trans ?_) | split | rfl)

@[simp ↓] theorem State.bootTables_spine : ∀ (s : State) (x1 : BootInput), (State.bootTables s x1).spine = s.spine := by
  intros; unfold State.bootTables; repeat' (first | (intro _) | simp | (refine (State.each_spine _ ?_ _ _).trans ?_) | (refine (State.command_spine _ _ _ _ _ ?_).trans ?_) | split | rfl)

theorem execAlidadeBoot_spine : ∀ (x0 : Ns) (x1 : BootInput) (s : State), ∃ u, execAlidadeBoot x0 x1 s = .next u ∧ u.spine = { s.spine with now := (s.tick x0).now } := by
  intros; refine ⟨_, rfl, ?_⟩; rw [← State.tick_spine]; generalize State.tick _ _ = u; repeat' (first | (intro _) | simp | (refine (State.each_spine _ ?_ _ _).trans ?_) | (refine (State.command_spine _ _ _ _ _ ?_).trans ?_) | split | rfl)

theorem execStartupDirectoryDecision_spine : ∀ (x0 : Ns) (x1 : CloseInput) (s : State), ∃ u, execStartupDirectoryDecision x0 x1 s = .next u ∧ u.spine = { s.spine with now := (s.tick x0).now } := by
  intros; refine ⟨_, rfl, ?_⟩; rw [← State.tick_spine]; generalize State.tick _ _ = u; repeat' (first | (intro _) | simp | (refine (State.each_spine _ ?_ _ _).trans ?_) | (refine (State.command_spine _ _ _ _ _ ?_).trans ?_) | split | rfl)

@[simp ↓] theorem State.loadRecords_spine : ∀ (s : State) (x1 : GenInput), (State.loadRecords s x1).spine = s.spine := by
  intros; unfold State.loadRecords; repeat' (first | (intro _) | simp | (refine (State.each_spine _ ?_ _ _).trans ?_) | (refine (State.command_spine _ _ _ _ _ ?_).trans ?_) | split | rfl)

@[simp ↓] theorem State.settleJournal_spine : ∀ (s : State) (x1 : JournalIn), (State.settleJournal s x1).spine = s.spine := by
  intros; unfold State.settleJournal; repeat' (first | (intro _) | simp | (refine (State.each_spine _ ?_ _ _).trans ?_) | (refine (State.command_spine _ _ _ _ _ ?_).trans ?_) | split | rfl)

@[simp ↓] theorem State.firstEpoch_spine : ∀ (s : State) (x1 : Option ℕ), (State.firstEpoch s x1).spine = s.spine := by
  intros; unfold State.firstEpoch; repeat' (first | (intro _) | simp | (refine (State.each_spine _ ?_ _ _).trans ?_) | (refine (State.command_spine _ _ _ _ _ ?_).trans ?_) | split | rfl)

@[simp ↓] theorem State.applyQuiets_spine : ∀ (s : State), (State.applyQuiets s).spine = s.spine := by
  intros; unfold State.applyQuiets; repeat' (first | (intro _) | simp | (refine (State.each_spine _ ?_ _ _).trans ?_) | (refine (State.command_spine _ _ _ _ _ ?_).trans ?_) | split | rfl)

@[simp ↓] theorem State.startRecords_spine : ∀ (s : State) (x1 : GenInput), (State.startRecords s x1).spine = s.spine := by
  intros; unfold State.startRecords; repeat' (first | (intro _) | simp | (refine (State.each_spine _ ?_ _ _).trans ?_) | (refine (State.command_spine _ _ _ _ _ ?_).trans ?_) | split | rfl)

theorem execStartupGenerationAct_spine (t : Ns) (x : GenInput) (s : State) : ∃ u, execStartupGenerationAct t x s = .next u ∧ u.spine = { s.spine with now := (s.tick t).now } := by
  refine ⟨_, rfl, ?_⟩
  rw [← State.tick_spine]
  generalize s.tick t = u
  (try dsimp only)
  split
  · rfl
  · split
    · simp
    · have h : (u.startRecords x).spine = u.spine := by simp
      generalize u.startRecords x = v at h ⊢
      rw [← h]
      split
      · simp
      · split
        · simp
        · rw [State.step10_spine, State.applyQuiets_spine]
          exact State.each_spine _ (by intro a s; simp) _ _

theorem execStartupRefresh_spine : ∀ (x0 : Ns) (s : State), ∃ u, execStartupRefresh x0 s = .next u ∧ u.spine = { s.spine with now := (s.tick x0).now } := by
  intros; refine ⟨_, rfl, ?_⟩; rw [← State.tick_spine]; generalize State.tick _ _ = u; repeat' (first | (intro _) | simp | (refine (State.each_spine _ ?_ _ _).trans ?_) | (refine (State.command_spine _ _ _ _ _ ?_).trans ?_) | split | rfl)

theorem execRailFault_spine : ∀ (x0 : Ns) (x1 : Rail) (s : State), ∃ u, execRailFault x0 x1 s = .next u ∧ u.spine = { s.spine with now := (s.tick x0).now } := by
  intros; refine ⟨_, rfl, ?_⟩; rw [← State.tick_spine]; generalize State.tick _ _ = u; repeat' (first | (intro _) | simp | (refine (State.each_spine _ ?_ _ _).trans ?_) | (refine (State.command_spine _ _ _ _ _ ?_).trans ?_) | split | rfl)

theorem execRailGlitch_spine : ∀ (x0 : Ns) (x1 : Rail) (s : State), ∃ u, execRailGlitch x0 x1 s = .next u ∧ u.spine = { s.spine with now := (s.tick x0).now } := by
  intros; refine ⟨_, rfl, ?_⟩; rw [← State.tick_spine]; generalize State.tick _ _ = u; repeat' (first | (intro _) | simp | (refine (State.each_spine _ ?_ _ _).trans ?_) | (refine (State.command_spine _ _ _ _ _ ?_).trans ?_) | split | rfl)

theorem execMarginWrite_spine : ∀ (x0 : Ns) (x1 : Word) (s : State), ∃ u, execMarginWrite x0 x1 s = .next u ∧ u.spine = { s.spine with now := (s.tick x0).now } := by
  intros; refine ⟨_, rfl, ?_⟩; rw [← State.tick_spine]; generalize State.tick _ _ = u; repeat' (first | (intro _) | simp | (refine (State.each_spine _ ?_ _ _).trans ?_) | (refine (State.command_spine _ _ _ _ _ ?_).trans ?_) | split | rfl)

theorem execMarginStep_spine : ∀ (x0 : Ns) (s : State), ∃ u, execMarginStep x0 s = .next u ∧ u.spine = { s.spine with now := (s.tick x0).now } := by
  intros; refine ⟨_, rfl, ?_⟩; rw [← State.tick_spine]; generalize State.tick _ _ = u; repeat' (first | (intro _) | simp | (refine (State.each_spine _ ?_ _ _).trans ?_) | (refine (State.command_spine _ _ _ _ _ ?_).trans ?_) | split | rfl)

theorem execServiceButtonRelease_spine : ∀ (x0 : Ns) (x1 : Ns) (s : State), ∃ u, execServiceButtonRelease x0 x1 s = .next u ∧ u.spine = { s.spine with now := (s.tick x0).now } := by
  intros; refine ⟨_, rfl, ?_⟩; rw [← State.tick_spine]; generalize State.tick _ _ = u; repeat' (first | (intro _) | simp | (refine (State.each_spine _ ?_ _ _).trans ?_) | (refine (State.command_spine _ _ _ _ _ ?_).trans ?_) | split | rfl)

theorem execPresenceExpiry_spine : ∀ (x0 : Ns) (s : State), ∃ u, execPresenceExpiry x0 s = .next u ∧ u.spine = { s.spine with now := (s.tick x0).now } := by
  intros; refine ⟨_, rfl, ?_⟩; rw [← State.tick_spine]; generalize State.tick _ _ = u; repeat' (first | (intro _) | simp | (refine (State.each_spine _ ?_ _ _).trans ?_) | (refine (State.command_spine _ _ _ _ _ ?_).trans ?_) | split | rfl)

@[simp ↓] theorem State.abandonEntries_spine : ∀ (s : State), (State.abandonEntries s).spine = s.spine := by
  intros; unfold State.abandonEntries; repeat' (first | (intro _) | simp | (refine (State.each_spine _ ?_ _ _).trans ?_) | (refine (State.command_spine _ _ _ _ _ ?_).trans ?_) | split | rfl)

@[simp ↓] theorem State.haltIntake_spine : ∀ (s : State), (State.haltIntake s).spine = s.spine := by
  intros; unfold State.haltIntake; repeat' (first | (intro _) | simp | (refine (State.each_spine _ ?_ _ _).trans ?_) | (refine (State.command_spine _ _ _ _ _ ?_).trans ?_) | split | rfl)

@[simp ↓] theorem State.failHeld_spine : ∀ (s : State), (State.failHeld s).spine = s.spine := by
  intros; unfold State.failHeld; repeat' (first | (intro _) | simp | (refine (State.each_spine _ ?_ _ _).trans ?_) | (refine (State.command_spine _ _ _ _ _ ?_).trans ?_) | split | rfl)

@[simp ↓] theorem State.beginStop_spine : ∀ (s : State), (State.beginStop s).spine = s.spine := by
  intros; unfold State.beginStop; repeat' (first | (intro _) | simp | (refine (State.each_spine _ ?_ _ _).trans ?_) | (refine (State.command_spine _ _ _ _ _ ?_).trans ?_) | split | rfl)

theorem execForcedOff_spine : ∀ (x0 : Ns) (s : State), ∃ u, execForcedOff x0 s = .next u ∧ u.spine = { s.spine with now := (s.tick x0).now } := by
  intros; refine ⟨_, rfl, ?_⟩; rw [← State.tick_spine]; generalize State.tick _ _ = u; repeat' (first | (intro _) | simp | (refine (State.each_spine _ ?_ _ _).trans ?_) | (refine (State.command_spine _ _ _ _ _ ?_).trans ?_) | split | rfl)

theorem execShutdown_spine : ∀ (x0 : Ns) (x1 : Mbx) (s : State), ∃ u, execShutdown x0 x1 s = .next u ∧ u.spine = { s.spine with now := (s.tick x0).now } := by
  intros; refine ⟨_, rfl, ?_⟩; rw [← State.tick_spine]; generalize State.tick _ _ = u; repeat' (first | (intro _) | simp | (refine (State.each_spine _ ?_ _ _).trans ?_) | (refine (State.command_spine _ _ _ _ _ ?_).trans ?_) | split | rfl)

@[simp ↓] theorem State.beginFail_spine : ∀ (s : State), (State.beginFail s).spine = s.spine := by intros; simp [State.beginFail]

theorem execPowerFailWarn_spine : ∀ (x0 : Ns) (s : State), ∃ u, execPowerFailWarn x0 s = .next u ∧ u.spine = { s.spine with now := (s.tick x0).now } := by
  intros; refine ⟨_, rfl, ?_⟩; rw [← State.tick_spine]; generalize State.tick _ _ = u; repeat' (first | (intro _) | simp | (refine (State.each_spine _ ?_ _ _).trans ?_) | (refine (State.command_spine _ _ _ _ _ ?_).trans ?_) | split | rfl)

theorem execPowerFailWarnGlitch_spine : ∀ (x0 : Ns) (s : State), ∃ u, execPowerFailWarnGlitch x0 s = .next u ∧ u.spine = { s.spine with now := (s.tick x0).now } := by
  intros; refine ⟨_, rfl, ?_⟩; rw [← State.tick_spine]; generalize State.tick _ _ = u; repeat' (first | (intro _) | simp | (refine (State.each_spine _ ?_ _ _).trans ?_) | (refine (State.command_spine _ _ _ _ _ ?_).trans ?_) | split | rfl)

@[simp ↓] theorem State.halt_spine : ∀ (s : State), (State.halt s).spine = s.spine := by intros; simp [State.halt]

@[simp ↓] theorem State.writeGasp_spine : ∀ (s : State) (x1 : PwrFail), (State.writeGasp s x1).spine = s.spine := by intros; simp [State.writeGasp]

theorem execPowerFailDrainDone_spine : ∀ (x0 : Ns) (s : State), ∃ u, execPowerFailDrainDone x0 s = .next u ∧ u.spine = { s.spine with now := (s.tick x0).now } := by
  intros; refine ⟨_, rfl, ?_⟩; rw [← State.tick_spine]; generalize State.tick _ _ = u; repeat' (first | (intro _) | simp | (refine (State.each_spine _ ?_ _ _).trans ?_) | (refine (State.command_spine _ _ _ _ _ ?_).trans ?_) | split | rfl)

theorem execLastGaspDone_spine : ∀ (x0 : Ns) (s : State), ∃ u, execLastGaspDone x0 s = .next u ∧ u.spine = { s.spine with now := (s.tick x0).now } := by
  intros; refine ⟨_, rfl, ?_⟩; rw [← State.tick_spine]; generalize State.tick _ _ = u; repeat' (first | (intro _) | simp | (refine (State.each_spine _ ?_ _ _).trans ?_) | (refine (State.command_spine _ _ _ _ _ ?_).trans ?_) | split | rfl)

theorem execCommandTimeout_spine : ∀ (x0 : Ns) (x1 : MbxId) (s : State), ∃ u, execCommandTimeout x0 x1 s = .next u ∧ u.spine = { s.spine with now := (s.tick x0).now } := by
  intros; refine ⟨_, rfl, ?_⟩; rw [← State.tick_spine]; generalize State.tick _ _ = u; repeat' (first | (intro _) | simp | (refine (State.each_spine _ ?_ _ _).trans ?_) | (refine (State.command_spine _ _ _ _ _ ?_).trans ?_) | split | rfl)

@[simp ↓] theorem State.sanitized_spine : ∀ (s : State) (x1 : ℕ), (State.sanitized s x1).spine = s.spine := by intros; simp [State.sanitized]

@[simp ↓] theorem State.released_spine : ∀ (s : State) (x1 : ℕ) (x2 : ℕ), (State.released s x1 x2).spine = s.spine := by
  intros; unfold State.released; repeat' (first | (intro _) | simp | (refine (State.each_spine _ ?_ _ _).trans ?_) | (refine (State.command_spine _ _ _ _ _ ?_).trans ?_) | split | rfl)

@[simp ↓] theorem State.rethawed_spine : ∀ (s : State) (x1 : ℕ), (State.rethawed s x1).spine = s.spine := by
  intros; unfold State.rethawed; repeat' (first | (intro _) | simp | (refine (State.each_spine _ ?_ _ _).trans ?_) | (refine (State.command_spine _ _ _ _ _ ?_).trans ?_) | split | rfl)

@[simp ↓] theorem State.bgFinish_spine : ∀ (s : State) (x1 : ℕ) (x2 : Bg) (x3 : ℕ), (State.bgFinish s x1 x2 x3).spine = s.spine := by
  intros; unfold State.bgFinish; repeat' (first | (intro _) | simp | (refine (State.each_spine _ ?_ _ _).trans ?_) | (refine (State.command_spine _ _ _ _ _ ?_).trans ?_) | split | rfl)

theorem execBackgroundComplete_spine : ∀ (x0 : Ns) (x1 : MbxId) (x2 : Fin 9) (s : State), ∃ u, execBackgroundComplete x0 x1 x2 s = .next u ∧ u.spine = { s.spine with now := (s.tick x0).now } := by
  intros; refine ⟨_, rfl, ?_⟩; rw [← State.tick_spine]; generalize State.tick _ _ = u; repeat' (first | (intro _) | simp | (refine (State.each_spine _ ?_ _ _).trans ?_) | (refine (State.command_spine _ _ _ _ _ ?_).trans ?_) | split | rfl)

theorem execCounterRead_spine : ∀ (x0 : Ns) (x1 : Mbx) (s : State), ∃ u, execCounterRead x0 x1 s = .next u ∧ u.spine = { s.spine with now := (s.tick x0).now } := by
  intros; refine ⟨_, rfl, ?_⟩; rw [← State.tick_spine]; generalize State.tick _ _ = u; repeat' (first | (intro _) | simp | (refine (State.each_spine _ ?_ _ _).trans ?_) | (refine (State.command_spine _ _ _ _ _ ?_).trans ?_) | split | rfl)

theorem execPackBufferTimeout_spine : ∀ (x0 : Ns) (x1 : PackRef) (s : State), ∃ u, execPackBufferTimeout x0 x1 s = .next u ∧ u.spine = { s.spine with now := (s.tick x0).now } := by
  intros; refine ⟨_, rfl, ?_⟩; rw [← State.tick_spine]; generalize State.tick _ _ = u; repeat' (first | (intro _) | simp | (refine (State.each_spine _ ?_ _ _).trans ?_) | (refine (State.command_spine _ _ _ _ _ ?_).trans ?_) | split | rfl)

theorem execCreditReturn_spine : ∀ (x0 : Ns) (x1 : CreditRef) (s : State), ∃ u, execCreditReturn x0 x1 s = .next u ∧ u.spine = { s.spine with now := (s.tick x0).now } := by
  intros; refine ⟨_, rfl, ?_⟩; rw [← State.tick_spine]; generalize State.tick _ _ = u; repeat' (first | (intro _) | simp | (refine (State.each_spine _ ?_ _ _).trans ?_) | (refine (State.command_spine _ _ _ _ _ ?_).trans ?_) | split | rfl)

@[simp ↓] theorem State.askAgain_spine : ∀ (s : State) (x1 : StreamRef), (State.askAgain s x1).spine = s.spine := by
  intros; unfold State.askAgain; repeat' (first | (intro _) | simp | (refine (State.each_spine _ ?_ _ _).trans ?_) | (refine (State.command_spine _ _ _ _ _ ?_).trans ?_) | split | rfl)

theorem execStreamGapTimeout_spine : ∀ (x0 : Ns) (x1 : StreamRef) (s : State), ∃ u, execStreamGapTimeout x0 x1 s = .next u ∧ u.spine = { s.spine with now := (s.tick x0).now } := by
  intros; refine ⟨_, rfl, ?_⟩; rw [← State.tick_spine]; generalize State.tick _ _ = u; repeat' (first | (intro _) | simp | (refine (State.each_spine _ ?_ _ _).trans ?_) | (refine (State.command_spine _ _ _ _ _ ?_).trans ?_) | split | rfl)

@[simp ↓] theorem State.resendReq_spine : ∀ (s : State) (x1 : ℕ) (x2 : ℕ) (x3 : ℕ), (State.resendReq s x1 x2 x3).spine = s.spine := by
  intros; unfold State.resendReq; repeat' (first | (intro _) | simp | (refine (State.each_spine _ ?_ _ _).trans ?_) | (refine (State.command_spine _ _ _ _ _ ?_).trans ?_) | split | rfl)

theorem execResend_spine : ∀ (x0 : Ns) (x1 : StreamRef) (s : State), ∃ u, execResend x0 x1 s = .next u ∧ u.spine = { s.spine with now := (s.tick x0).now } := by
  intros; refine ⟨_, rfl, ?_⟩; rw [← State.tick_spine]; generalize State.tick _ _ = u; repeat' (first | (intro _) | simp | (refine (State.each_spine _ ?_ _ _).trans ?_) | (refine (State.command_spine _ _ _ _ _ ?_).trans ?_) | split | rfl)

theorem execSinkErr_spine : ∀ (x0 : Ns) (x1 : SinkErr) (s : State), ∃ u, execSinkErr x0 x1 s = .next u ∧ u.spine = { s.spine with now := (s.tick x0).now } := by
  intros; refine ⟨_, rfl, ?_⟩; rw [← State.tick_spine]; generalize State.tick _ _ = u; repeat' (first | (intro _) | simp | (refine (State.each_spine _ ?_ _ _).trans ?_) | (refine (State.command_spine _ _ _ _ _ ?_).trans ?_) | split | rfl)

@[simp ↓] theorem State.relayOn_spine : ∀ (s : State) (x1 : ℕ) (x2 : RelayDest), (State.relayOn s x1 x2).spine = s.spine := by
  intros; unfold State.relayOn; repeat' (first | (intro _) | simp | (refine (State.each_spine _ ?_ _ _).trans ?_) | (refine (State.command_spine _ _ _ _ _ ?_).trans ?_) | split | rfl)

theorem execMediaRelay_spine : ∀ (x0 : Ns) (x1 : MediaId) (x2 : RelayDest) (s : State), ∃ u, execMediaRelay x0 x1 x2 s = .next u ∧ u.spine = { s.spine with now := (s.tick x0).now } := by
  intros; refine ⟨_, rfl, ?_⟩; rw [← State.tick_spine]; generalize State.tick _ _ = u; repeat' (first | (intro _) | simp | (refine (State.each_spine _ ?_ _ _).trans ?_) | (refine (State.command_spine _ _ _ _ _ ?_).trans ?_) | split | rfl)

end Sys2Proof.Machine
end

