-- ==== Sys2Proof/Laws/Spine.lean ====
section
/-! SUPPORT. The three ways in which a command changes the spine of the state: its time alone, its scratch bytes too, or the fail-safe
state too. -/

namespace Sys2Proof.Machine
/-- What a command can do to the spine. -/
def Spine.By (i : Instr) (a b : Spine) : Prop := a.pending = b.pending ∧ (i.isLock = false → a.now ≤ b.now) ∧ (i.mayWriteOtp = false → b.otp = a.otp) ∧ (Memory.wf a.scratch = true → Memory.wf b.scratch = true) ∧ (i.mayWriteScratch = false → b.scratch = a.scratch) ∧ (i.isPowerUp = false → a.failsafe = true → b.failsafe = true)

theorem Spine.by_plain {i : Instr} {a b : Spine} {n : Nat} (hn : a.now ≤ n) (h : b = { a with now := n }) : Spine.By i a b := by
  subst h; exact ⟨rfl, fun _ => hn, fun _ => rfl, id, fun _ => rfl, fun _ => id⟩
theorem Spine.by_mem {i : Instr} {a b : Spine} {n : Nat} (hn : a.now ≤ n) (hi : i.mayWriteScratch = true) (h : Spine.Mem { a with now := n } b) : Spine.By i a b := by
  obtain ⟨h1, h2⟩ := h
  rw [h1] at h2 ⊢
  exact ⟨rfl, fun _ => hn, fun _ => rfl, h2, fun h => (by rw [hi] at h; cases h), fun _ => id⟩
theorem Spine.by_safe {i : Instr} {a b : Spine} {n : Nat} (hn : a.now ≤ n) (h : Spine.Safe { a with now := n } b) : Spine.By i a b := by
  rcases h with h | h <;> subst h <;> exact ⟨rfl, fun _ => hn, fun _ => rfl, id, fun _ => rfl, fun _ h => by simp_all⟩

end Sys2Proof.Machine
end

