-- ==== Sys2Proof/Laws/Shared.lean ====
section
/-! SUPPORT. What the shared operations of scratch writes (R269), instant slots (R298) and event raising (R548) do, said once each. -/

namespace Sys2Proof.Machine

/-- The packets of a scratch access leave every byte of scratch as it was. -/
theorem scrEach_scratch (who : ScrWho) (o sz : Nat) (b : Bool) (d : Nat) (ws : List Nat) (s : State) :
    (State.each (fun w s => s.scrPackets who w o sz b d) ws s).scratch = s.scratch :=
  congrArg Spine.scratch (State.each_spine _ (fun w s => State.scrPackets_spine s who w o sz b d) ws s)
/-- A write to several ways leaves every byte outside them as it was. -/
theorem cellsPut_other (o : Nat) (l : List Byte) (a : Nat) : ∀ (ws : List Nat) (m : List Host.Cell),
    (∀ w ∈ ws, a < scratchKey w o ∨ scratchKey w o + l.length ≤ a) →
    cellGet (ws.foldl (fun m w => cellsSet m (scratchKey w o) l) m) a = cellGet m a
  | [], _, _ => rfl
  | w :: r, m, h => by
    rw [List.foldl_cons, cellsPut_other o l a r _ fun v hv => h v (List.mem_cons_of_mem _ hv)]
    exact cellsGet_outside _ _ _ _ (h w List.mem_cons_self)
/-- A scratch write leaves every byte outside the ways written as it was (R269). -/
theorem scratchPut_other (s : State) (ws : List Nat) (o : Nat) (l : List Byte) (a : Nat)
    (h : ∀ w ∈ ws, a < scratchKey w o ∨ scratchKey w o + l.length ≤ a) : (s.scratchPut ws o l).scratchByte a = s.scratchByte a :=
  cellsPut_other o l a ws s.scratch h
/-- A write to several ways puts its bytes in each of them. -/
theorem cellsPut_same (o k x w i : Nat) (hi : i < k) (hs : o + k ≤ 2 ^ 22) : ∀ (ws : List Nat) (m : List Host.Cell), Memory.wf m = true →
    w ∈ ws ∨ cellGet m (scratchKey w o + i) = BitVec.ofNat 8 (x / 256 ^ i) →
    cellGet (ws.foldl (fun m w => cellsSet m (scratchKey w o) (leBytes k x)) m) (scratchKey w o + i) = BitVec.ofNat 8 (x / 256 ^ i)
  | [], _, _, h => by rcases h with h | h
                      · cases h
                      · exact h
  | v :: r, m, hm, h => by
    rw [List.foldl_cons]
    refine cellsPut_same o k x w i hi hs r _ (Memory.wf_cellsSet _ _ _ hm) ?_
    by_cases hv : v = w
    · subst hv
      exact Or.inr (cellsGet_inside k x _ i m hm hi)
    · rcases h with h | h
      · rcases List.mem_cons.mp h with h | h
        · exact absurd h.symm hv
        · exact Or.inl h
      · right
        rw [cellsGet_outside]
        · exact h
        · rw [leBytes_length]
          unfold scratchKey
          have : v < w ∨ w < v := Nat.lt_or_gt_of_ne hv
          rcases this with h | h
          · right; have : (v + 1) * 2 ^ 22 ≤ w * 2 ^ 22 := Nat.mul_le_mul_right _ h; omega
          · left; have : (w + 1) * 2 ^ 22 ≤ v * 2 ^ 22 := Nat.mul_le_mul_right _ h; omega
/-- A scratch write puts its bytes in every way that it names (R269). -/
theorem scratchPut_same (s : State) (ws : List Nat) (o k x w i : Nat) (hm : Memory.wf s.scratch = true) (h : w ∈ ws) (hi : i < k) (hs : o + k ≤ 2 ^ 22) :
    (s.scratchPut ws o (leBytes k x)).scratchByte (scratchKey w o + i) = BitVec.ofNat 8 (x / 256 ^ i) :=
  cellsPut_same o k x w i hi hs ws s.scratch hm (Or.inl h)
/-- The later of two settings of a key stands. -/
theorem Tbl.set_set {α : Type} (t : Tbl α) (k : Nat) (v w : α) : Tbl.set (Tbl.set t k v) k w = Tbl.set t k w := by
  induction t with
  | nil => simp [Tbl.set]
  | cons x r ih => simp only [Tbl.set]; split <;> [skip; split] <;> simp_all [Tbl.set]
/-- A slot that has been changed holds the change. -/
theorem State.slot_onSlot (s : State) (k : Nat) (f : Slot → Slot) : (s.onSlot k f).slot k = f (s.slot k) := Tbl.get_set_same ..
/-- Two changes of a slot are one. -/
theorem State.onSlot_onSlot (s : State) (k : Nat) (f g : Slot → Slot) : (s.onSlot k f).onSlot k g = s.onSlot k fun x => g (f x) := by
  simp [State.onSlot, State.slot, Tbl.set_set]
/-- The checks of R298 do not read the slot. -/
theorem State.armCheck_onSlot (s : State) (k : Nat) (f : Slot → Slot) (a b c d e : Nat) : (s.onSlot k f).armCheck a b c d e = s.armCheck a b c d e := rfl
/-- What INSTANT_ARM of a free slot does when the checks of R298 pass. -/
theorem armSlot_ok (u : State) (k : Nat) (h1 : (u.slot k).arm = false)
    (h2 : u.armCheck (u.slot k).kind (u.slot k).scope (u.slot k).param (u.slot k).time (leadNs (u.slot k).scope) = none) :
    (if (u.slot k).arm then u else ((u.onSlot k fun x => { x with by' := .register, peer := none, key := none }).armSlot k (leadNs (u.slot k).scope)).2) =
      (let x := u.slot k
       let v := u.onSlot k fun _ => { x with arm := true, st := .armed, reason := 0, by' := .register, peer := none, key := if x.scope = 2 then some (u.domId * 16 + k) else none }
       let v := (if x.kind = 2 then v.plateArm k x.param x.time else v).order { tag := k }
       if x.scope = 1 then v.toTwin (.slot k { x with by' := .register, peer := none, key := none })
       else if x.scope = 2 then if v.mer.root then v.rootTake (v.slotKey k) (v.slot k) else v.send (.rootSlot (v.slotKey k) (v.slot k) v.eps)
       else v) := by
  simp only [h1, Bool.false_eq_true, if_false]
  unfold State.armSlot
  simp only [State.slot_onSlot, State.armCheck_onSlot, h2, State.onSlot_onSlot]
  have e : (u.onSlot k fun x => { x with arm := true, st := .armed, reason := 0, by' := .register, peer := none, key := if x.scope = 2 then some ((u.onSlot k fun x => { x with by' := .register, peer := none, key := none }).domId * 16 + k) else none }) =
      u.onSlot k fun _ => { u.slot k with arm := true, st := .armed, reason := 0, by' := .register, peer := none, key := if (u.slot k).scope = 2 then some (u.domId * 16 + k) else none } := rfl
  rw [e]
  dsimp only
  generalize (u.onSlot k fun _ => (⟨(u.slot k).kind, (u.slot k).scope, true, .armed, 0, (u.slot k).param, (u.slot k).time, .register, none,
    if (u.slot k).scope = 2 then some (u.domId * 16 + k) else none⟩ : Slot)) = v0
  generalize (if (u.slot k).kind = 2 then v0.plateArm k (u.slot k).param (u.slot k).time else v0).order { tag := k } = v1
  rw [h1]
/-- What INSTANT_ARM of a free slot does when a check of R298 fails. -/
theorem armSlot_no (u : State) (k : Nat) {r : Nat × Nat} (h1 : (u.slot k).arm = false)
    (h2 : u.armCheck (u.slot k).kind (u.slot k).scope (u.slot k).param (u.slot k).time (leadNs (u.slot k).scope) = some r) :
    (if (u.slot k).arm then u else ((u.onSlot k fun x => { x with by' := .register, peer := none, key := none }).armSlot k (leadNs (u.slot k).scope)).2) =
      (u.onSlot k fun _ => { u.slot k with arm := true, by' := .register, peer := none, key := none }).endSlot k .rejected r.1 := by
  simp only [h1, Bool.false_eq_true, if_false, State.armSlot, State.slot_onSlot, State.armCheck_onSlot, h2, State.onSlot_onSlot]
  rfl

/-- What raising an event does (R547, R548): a place at its source is left, or none. -/
theorem raised_eq (s : State) (src : SrcId) (x : EvIn) :
    s.raiseC src.val x.kind.toNat none x.line.toNat x.part.val x.unit.val x.extra.val =
      if (s.events.filter fun w => w.src == src.val).length < 4 then
        { s.eventPacket (⟨src.val, Tbl.get 0 s.evSeq src.val, x.kind.toNat, s.time, none, x.line.toNat, x.part.val, x.unit.val, x.extra.val, 0, s.now⟩ : Ev) with
          evSeq := Tbl.set s.evSeq src.val ((Tbl.get 0 s.evSeq src.val + 1) % 65536)
          events := s.events ++ [(⟨src.val, Tbl.get 0 s.evSeq src.val, x.kind.toNat, s.time, none, x.line.toNat, x.part.val, x.unit.val, x.extra.val, 0, s.now⟩ : Ev)] }
      else
        { s with evLost := Tbl.set s.evLost (src.val * 8 + (s.srcCfg src.val).base) (Tbl.get 0 s.evLost (src.val * 8 + (s.srcCfg src.val).base) + 1) } := rfl

end Sys2Proof.Machine
end

