-- ==== Sys2Proof/Machine/Read.lean ====
section
/-! DEFINITION. What the registers read as (R21, R22, R667, R668, R682, chapter 17's maps and the maps that it names) and what the partitions'
control pages read as (R91 to R93, R702, R703). No row of the table is a read, but for MERIDIAN_WORD0_READ: a read changes no state. -/

namespace Sys2Proof.Machine

/-- How many of the low `w` bits are set. -/
def onesIn (x w : Nat) : Nat := ((List.range w).filter (bitN x)).length

/-! ### Identity and block control (R691 to R695, R544, R546) -/

/-- NCH_BLK_ID (R1, R692): part code, Nimlen 7, stepping B0. -/
def blkId : Nat := 0x4E48 + 2 ^ 16 * 7 + 2 ^ 24 * 0xB0

/-- NCH_BLK_CAPS (R692). -/
def blkCaps : Nat := 128 + 2 ^ 8 * 16 + 2 ^ 13 * 32 + 2 ^ 19 * 16 + 2 ^ 24 * 64

/-- Partitions ENABLED (R693). -/
def State.enabledCount (s : State) : Nat := (s.parts.filter fun x => x.2.st == .enabled).length

/-- NCH_BLK_STATUS (R693). -/
def State.blkStatus (s : State) : Nat := b2n s.ringBusy + 2 * b2n s.blk.snapValid + 4 * s.enabledCount

/-- NCH_BLK_REPAIR_STATUS (R546). -/
def State.repairStatus (s : State) : Nat :=
  let g := otpNewest s.pwr.otp 0
  let recs := match g with
    | some i => (repairRecs (otpPayload s.pwr.otp 0 i)).length
    | none => 0
  (g.map (· + 1)).getD 0 + 8 * recs + 2 ^ 9 * min 63 s.blk.repairs.length + 2 ^ 15 * b2n s.blk.noRoom

/-- NCH_BLK_LANE of a port (R544). -/
def MPort.lane (q : MPort) : Nat :=
  b2n q.spareUsed + 2 * q.steered + 2 ^ 8 * b2n q.erase + 2 ^ 9 * q.eraseSym + 2 ^ 16 * b2n q.erasePerm + 2 ^ 17 * b2n q.retiring

/-- ACTIVE of NCH_BLK_MP_CTL (R695): enabled, and its controller ready, which has then reported its size (log 56). -/
def MPort.active (q : MPort) : Bool := q.enable && q.size != 0

/-- NCH_BLK_IP_STATUS of a port (R695): headers and lines of data that the hold store and the ticket places do not hold. -/
def State.intakeStatus (s : State) (i : Nat) : Nat :=
  let main := (s.ip i).kept.filter fun k => k.own == .host && !s.inStore k
  main.length + 2 ^ 13 * (main.filter fun k => formWrite k.req.form).length + 2 ^ 25 * b2n (512 ≤ s.heldCount i)

/-- A register of the base page at 0 (R691). -/
def State.readBlk (s : State) (o : Nat) : Nat :=
  if o = 0x000 then blkId else if o = 0x004 then blkCaps
  else if o = 0x008 then fieldN s.serial 0 32 else if o = 0x00C then fieldN s.serial 32 32
  else if o = 0x014 then s.blkStatus
  else if o = 0x018 then Tbl.get 0 s.ignLast 0x018
  else if o = 0x01C then s.blk.hpIgn
  else if o = 0x034 then s.repairStatus
  else if o = 0x038 then fieldN s.blk.snapTime 0 32 else if o = 0x03C then fieldN s.blk.snapTime 32 32
  else if o = 0x040 then s.blk.voteLast
  else if o = 0x044 then s.grnScratch
  else if 0x100 ≤ o ∧ o < 0x180 then (s.mp ((o - 0x100) / 4)).lane
  else if 0x180 ≤ o ∧ o < 0x200 then
    (let m := (o - 0x180) / 4
     s.regValue (.mpCtl m) + 4 * b2n (s.mp m).active)
  else if 0x200 ≤ o ∧ o < 0x240 then s.intakeStatus ((o - 0x200) / 4)
  else s.regValue (regBlk o)

/-! ### Partitions and host ports (R699 to R701) -/

/-- NCH_BLK_PART_STATUS (R699). -/
def Part.status (q : Part) : Nat :=
  q.st.code + 8 * b2n (q.st == .enabled) + 16 * b2n q.overlap + 32 * b2n q.trkRes + 64 * b2n q.fltRes + 128 * b2n q.drained
    + 256 * b2n q.heldSince.isSome + 512 * b2n q.unfinished

/-- A register of the partitions' area (R699). -/
def State.readPart (s : State) (o : Nat) : Nat :=
  let p := (o - 0x4000) / 64
  let w := (o - 0x4000) % 64 / 4
  if w = 8 then (s.part p).status else if w = 10 then Tbl.get 0 s.ignLast (0x4028 + 64 * p) else s.regValue (regBlk o)

/-- NCH_BLK_HP_STATUS (R701). -/
def State.hpStatus (s : State) (h : Nat) : Nat :=
  let q := s.hp h
  b2n (q.enable && !q.unresp) + 2 * b2n q.unresp + 4 * b2n q.credRes + 8 * b2n (s.withheld h) + 16 * (q.reqCr - q.reqUsed) + 2 ^ 15 * (q.rwdCr - q.rwdUsed)

/-- A register of the host-port table (R701). -/
def State.readHp (s : State) (o : Nat) : Nat :=
  let y := (o - 0x080000) % 0x4000
  if 0x1000 ≤ y then 0 else if y % 16 = 12 then s.hpStatus (256 * ((o - 0x080000) / 0x4000) + y / 16) else s.regValue (regTable o)

/-! ### Meridian (R327 to R332) -/

/-- STATE of NCH_MER_STATUS (R328). -/
def MerSt.code : MerSt → Nat
  | .unlocked => 0
  | .locked => 1
  | .holdover => 2
  | .twinSteered => 3
  | .free => 4

/-- NCH_MER_STATUS (R328): HOLD_MS is 0 also before the first lock, when no reference has been lost. -/
def State.merStatus (s : State) : Nat :=
  let m := s.mer
  let hold := if m.st = .locked ∨ m.st = .unlocked then 0 else min 1023 s.holdMs
  m.st.code + 8 * b2n m.exch + 16 * b2n m.domOk + 32 * s.side + 2 ^ 16 * hold

/-- NCH_MER_ERR (R329). -/
def State.merErr (s : State) : Nat := s.eps + 2 ^ 12 * (if s.mer.member then s.skew else 0)

/-- NCH_MER_TWIN_OFS (R329). -/
def Mer.twinOfs (m : Mer) : Nat := (BitVec.ofInt 16 m.ofs).toNat + 2 ^ 16 * (m.delay % 2 ^ 16)

/-- A word that a read of word 0 latched; before the first such read, the value as it stands (R332; log 56). Words latch at their
base-page offset, and a page that shows the register elsewhere (R666) latches nothing (DESIGN CHOICE, log 59). -/
def State.latchedAt (s : State) (o now : Nat) : Nat := (Tbl.find s.mer.latch o).getD (now % 2 ^ 32)

/-- A register of the Meridian region (R704). -/
def State.readMer (s : State) (o : Nat) : Nat :=
  let m := s.mer
  if o = 0x010004 then s.merStatus else if o = 0x010008 then s.merErr else if o = 0x01000C then m.twinOfs
  else if o = 0x010010 then m.len
  else if o = 0x010014 then Tbl.get 0 s.ignLast o
  else if o = 0x010020 then s.clk.frac
  else if o = 0x010024 then s.latchedAt o s.time else if o = 0x010028 then s.latchedAt o (s.time / 2 ^ 32)
  else if o = 0x010030 then m.cur else if o = 0x010034 then s.latchedAt o (m.cur / 2 ^ 32)
  else if o = 0x010038 then m.pairSealed else if o = 0x01003C then s.latchedAt o (m.pairSealed / 2 ^ 32)
  else if o = 0x010040 then (if m.member then m.domSealed else 0)
  else if o = 0x010044 then s.latchedAt o (if m.member then m.domSealed / 2 ^ 32 else 0)
  else
    match regUnit o with
    | .instCtl k => (s.slot k).ctl
    | .instTime k 1 => s.latchedAt o ((s.slot k).time / 2 ^ 32)
    | r => s.regValue r

/-! ### Winnow, Rachis (R515, R516, R577 to R582) -/

/-- Reactions in progress (R551). -/
def State.progressing (s : State) : List Reaction := s.win.reacts.filter fun r => !r.done && !s.progressed r

/-- NCH_WIN_STATUS (R578). -/
def State.winStatus (s : State) : Nat :=
  let w := s.win
  (s.progressing.foldl (fun m r => max m r.cls) 0) + 8 * b2n w.failsafe + 16 * b2n w.service + 32 * b2n w.aliveRun + 64 * s.fences
    + 512 * b2n w.cfgOpen + 1024 * min 255 s.progressing.length + 2 ^ 18 * w.recs.length

/-- NCH_WIN_FIRST (R579). -/
def Win.firstWord (w : Win) : Nat :=
  match w.first with
  | some f => f.src + 2 ^ 11 * f.cls + 2 ^ 14 + 2 ^ 16 * (kindOf f.kind).toNat
  | none => 0

/-- A register of the Winnow region (R704); the injection registers are there in factory test mode alone (R576). -/
def State.readWin (s : State) (o : Nat) : Nat :=
  if o = 0x020004 then s.winStatus
  else if o = 0x020008 then s.win.firstWord
  else if o = 0x02000C then (s.win.first.map fun f => f.recno).getD 0
  else if o = 0x020014 then Tbl.get 0 s.ignLast o
  else if 0x020020 ≤ o ∧ o < 0x020034 then Tbl.get 0 s.live ((0x0A0940 + 2 * (o - 0x020020)) * 64)
  else
    match regUnit o with
    | .inject => if s.pwr.factory then s.regValue .inject else 0
    | .injDet w => if s.pwr.factory then s.regValue (.injDet w) else 0
    | r => s.regValue r

/-- KIND of a site (R516). -/
def siteKind (x : Nat) : Nat :=
  if gapSite x then 0
  else if x = 17 then 5
  else if twinSites.contains x then 4
  else if x / 8 = 0 ∨ x / 8 = 5 then 3
  else if x % 8 = 0 ∨ x % 8 = 7 then 2
  else 1

/-- NCH_RCH_STATUS (R515). -/
def State.rchStatus (s : State) : Nat :=
  let r := s.rch
  b2n r.bonded + 2 * b2n (s.mer.slots.any fun x => x.2.kind == 4 && x.2.arm && !x.2.ended) + 4 * b2n (r.planeOut.any fun x => x.2 != 0)
    + 8 * min 63 (sumOf (fun x => onesIn x.2 4) r.planeOut) + 2 ^ 9 * min 255 (sumOf (fun x => onesIn x.2 16) r.bufOut)
    + 2 ^ 17 * sumOf (fun x => onesIn x.2 9) r.sink

/-- NCH_RCH_SITE of a site (R516). -/
def State.rchSite (s : State) (x : Nat) : Nat :=
  if gapSite x then 0 else 1 + 2 * siteKind x + 16 * Tbl.get 0 s.rch.planeOut x + 2 ^ 8 * Tbl.get 0 s.rch.bufOut x

/-- A register of the Rachis region (R704). -/
def State.readRch (s : State) (o : Nat) : Nat :=
  if o = 0x030004 then s.rchStatus
  else if o = 0x030008 then Tbl.get 0 s.ignLast o
  else if 0x030100 ≤ o ∧ o < 0x0301C0 then s.rchSite ((o - 0x030100) / 4)
  else if 0x030200 ≤ o ∧ o < 0x0302C0 then Tbl.get 0 s.rch.sink ((o - 0x030200) / 4)
  else s.regValue (regUnit o)

/-! ### Twin, placement, power and OTP (R422 to R425, R474 to R477, R618 to R621) -/

/-- A register of the twin region (R704). -/
def State.readTwn (s : State) (o : Nat) : Nat :=
  if o = 0x040004 then s.twnStatus else if o = 0x040010 then s.twnResync
  else if o = 0x040014 then Tbl.get 0 s.ignLast o
  else s.regValue (regUnit o)

/-- Tracts frozen and not thawed (R440, R475): entries in the state FROZEN, and the frozen list. -/
def State.frozenCount (s : State) : Nat := (s.place.map.filter fun x => meState x.2 == 5).length + (s.place.frozen.filter fun f => f.listed).length

/-- NCH_PLC_STATUS (R475). -/
def State.plcStatus (s : State) : Nat :=
  let q := s.place
  q.moves.length + 2 ^ 9 * b2n q.late + 2 ^ 10 * b2n (s.mports.any fun x => x.2.ledger.any fun y => y.2 == 3)
    + 2 ^ 11 * b2n (s.mports.any fun x => x.2.draining) + 2 ^ 12 * min 127 s.frozenCount
    + 2 ^ 19 * b2n q.listFull

/-- NCH_PLC_PART of a partition (R476): a GOAL above the quota is read as the quota. -/
def Part.plc (q : Part) : Nat := min q.goal q.cfg.fastQuota.toNat + 2 ^ 16 * q.kFactor

/-- NCH_PLC_PORT of a port (R477). -/
def MPort.pool (q : MPort) : Nat := b2n q.present + 2 * b2n q.mapPort + 4 * b2n q.draining + 8 * q.dataTracts

/-- A register of the placement region (R704). -/
def State.readPlc (s : State) (o : Nat) : Nat :=
  if o = 0x050004 then s.plcStatus
  else if o = 0x050008 then Tbl.get 0 s.ignLast o
  else if 0x050100 ≤ o ∧ o < 0x050300 then
    (let p := (o - 0x050100) / 8
     if o % 8 = 0 then (s.part p).plc else s.fastTracts p)
  else if 0x050400 ≤ o ∧ o < 0x050500 then
    (let m := (o - 0x050400) / 8
     if o % 8 = 0 then (s.mp m).pool else (s.mp m).freeTracts)
  else s.regValue (regUnit o)

/-- STATE of NCH_PWR_STATUS (R618). -/
def PwrSt.code : PwrSt → Nat
  | .starting => 0
  | .running => 1
  | .powerFail => 2
  | .halt => 3
  | .failsafe => 4
  | .stopping => 5

/-- Seconds left in the presence window, a second begun counting whole (R595, R618; log 56). -/
def State.presenceLeft (s : State) : Nat := min 60 (((s.pwr.presence.getD 0) - s.time + 999999999) / 1000000000)

/-- NCH_PWR_STATUS (R618). -/
def State.pwrStatus (s : State) : Nat :=
  let p := s.pwr
  p.st.code + 8 * b2n p.readyOff + 16 * b2n p.pfWarn + 32 * b2n p.energy + 64 * b2n s.presenceOpen + 128 * (if s.presenceOpen then s.presenceLeft else 0)
    + 2 ^ 13 * b2n p.otpSeal + 2 ^ 14 * b2n (p.otpJob.isSome && p.railOtp) + 2 ^ 15 * b2n p.factory + 2 ^ 16 * b2n p.railRet + 2 ^ 17 * b2n p.railArray
    + 2 ^ 18 * b2n p.railCore + 2 ^ 19 * b2n p.railOtp

/-- NCH_PWR_MARGIN (R619). -/
def Pwr.marginWord (p : Pwr) : Nat :=
  (BitVec.ofInt 5 p.target).toNat + 2 ^ 8 * (BitVec.ofInt 5 p.current).toNat + 2 ^ 13 * b2n (p.current != p.target)

/-- NCH_PWR_BOOT (R620). -/
def State.pwrBoot (s : State) : Nat :=
  let p := s.pwr
  p.step + 16 * b2n s.dirGen.unclean + 32 * b2n p.refresh + 64 * b2n p.bootBlock + 128 * b2n p.gaspFound
    + 2 ^ 8 * (if p.railsUp then min 4095 ((s.now - p.goodAt) / 1000000) else 0)

/-- A register of the power and OTP region (R704). -/
def State.readPwr (s : State) (o : Nat) : Nat :=
  if o = 0x060000 then s.pwrStatus else if o = 0x060004 then s.pwr.marginWord else if o = 0x060008 then s.pwrBoot
  else if o = 0x06000C then s.otpStatus
  else if o = 0x060010 then Tbl.get 0 s.ignLast o
  else 0

/-! ### Mailboxes (R624, R705) -/

/-- The 64 bytes of a mailbox's header (R624). -/
def MBox.header (b : MBox) : List Byte :=
  leBytes 2 b.opcode ++ leBytes 2 b.inLen ++ leBytes 2 b.outLen ++ leBytes 1 b.status ++ leBytes 1 (b2n b.doorbell + 2 * b2n b.bgRun + 4 * b2n b.bgAbort)
    ++ leBytes 2 b.bgOpcode ++ leBytes 1 b.bgProgress ++ leBytes 1 b.bgStatus ++ leBytes 4 b.tag ++ leBytes 8 b.acceptAt ++ leBytes 8 b.doneAt
    ++ leBytes 4 b.detail ++ leBytes 4 b.bgLeft ++ zeros 24

/-- The word at an offset of some bytes; beyond them zero. -/
def wordAt (l : List Byte) (o : Nat) : Nat := ofLeBytes (((l.drop o) ++ zeros 4).take 4)

/-- NCH_MBX_DOORBELLS_j (R705). -/
def State.doorbells (s : State) (j : Nat) : Nat :=
  sumOf (fun i => 2 ^ i * b2n (32 * j + i < 66 && (s.box (32 * j + i)).doorbell)) (List.range 32)

/-- A location of the mailbox hardware region (R705). -/
def State.readMbx (s : State) (o : Nat) : Nat :=
  if 0x070004 ≤ o ∧ o < 0x070010 then s.doorbells ((o - 0x070004) / 4)
  else if o = 0x070010 then s.blk.mbxIgn
  else
    match regUnit o with
    | .mbxHead w sel => wordAt (s.box (s.windowBox sel)).header (4 * w)
    | .mbxBuf b sel => wordAt (s.box (s.windowBox sel)).payload b
    | r => s.regValue r

/-! ### Stook and slice windows (R707 to R709) -/

/-- A register of stook `k`'s window (R707). -/
def State.readStk (s : State) (k o : Nat) : Nat :=
  let x := o % 0x10000
  if x = 0 then s.regValue (.stkPwr k) else if x = 4 then s.stkStatus k else if x = 8 then s.stkCe k
  else if x = 12 then s.stkIgn k
  else if 0x100 ≤ x ∧ x < 0x140 then s.holdWord o
  else 0

/-- A register of slice `n`'s window (R708). -/
def State.readSlc (s : State) (n o : Nat) : Nat :=
  let x := o % 0x4000
  if x = 0x00 then s.slcCtl n else if x = 0x04 then s.trkStatus n else if x = 0x08 then s.shfStatus n else if x = 0x0C then s.shfGen n
  else if x = 0x10 then s.grnCtl n else if x = 0x14 then s.grnStatus n else if x = 0x18 then s.grnWays n
  else if x = 0x1C then s.slcIgn n
  else if 0x100 ≤ x ∧ x < 0x170 then s.holdWord o
  else 0

/-! ### One read (R665 to R668, R682) -/

/-- The register at an offset of a base page. -/
def State.readBase (s : State) (o : Nat) : Nat :=
  if o < 0x004000 then s.readBlk o
  else if o < 0x010000 then (if o < 0x005000 then s.readPart o else 0)
  else if o < 0x020000 then s.readMer o
  else if o < 0x030000 then s.readWin o
  else if o < 0x040000 then s.readRch o
  else if o < 0x050000 then s.readTwn o
  else if o < 0x060000 then s.readPlc o
  else if o < 0x070000 then s.readPwr o
  else if o < 0x080000 then s.readMbx o
  else if o < 0x090000 then s.readHp o
  else if o < 0x0A4000 then s.holdWord o
  else if 0x100000 ≤ o ∧ o < 0x200000 then s.readStk ((o - 0x100000) / 0x10000) o
  else if 0x200000 ≤ o ∧ o < 0x400000 then s.readSlc ((o - 0x200000) / 0x4000) o
  else 0

/-- A read of `len` bytes at an offset of the block (R667): a naturally aligned word, else zero; an alias page reads its base page, those of the
mailbox hardware region being reserved (R666). A read of a stook or slice window returns the value as it stands, which R672 allows in both modes
(log 56). -/
def State.regRead (s : State) (o len : Nat) : Nat :=
  let page := o / 0x1000 % 4
  if len ≠ 4 ∨ o % 4 ≠ 0 ∨ (page ≠ 0 ∧ 0x070000 ≤ o ∧ o < 0x080000) then 0 else s.readBase (o - 0x1000 * page) % 2 ^ 32

end Sys2Proof.Machine
end

