-- ==== Sys2Proof/WellFormed.lean ====
section
/-! DEFINITION. Well-formed commands: the bounds that the spec gives an operand and that its type does not hold. -/

namespace Sys2Proof

/-- An input payload is at most 4 KiB (R624). -/
def Mbx.wf (c : Mbx) : Bool := decide (c.input.length ≤ 4096)

/-- A physical row of an on-die array lies below 4,096 (R532). -/
def ArrayWord.wf (w : ArrayWord) : Bool := decide (w.row < 4096)

/-- A last-gasp record is 4 KiB (R605). -/
def BootInput.wf (x : BootInput) : Bool :=
  (x.gasp0.all fun b => b.length == 4096) && (x.gasp1.all fun b => b.length == 4096)

/-- An opcode that no row of the table names travels in the row MEM_RD or, in an M2S RwD, MEM_WR (log 11). -/
def ReqOp.spare (rwd : Bool) : ReqOp → Bool
  | .memRdFwd | .memWrFwd => !rwd
  | .other w _ _ | .undef w => w == rwd
  | _ => false

/-- The command is well-formed: opcodes without a row in the rows that carry them (log 11), tracker entries below 640 (R137), BITags below 4,096 (R117), intake tags of 16 bits
(R138), scratch writes of at most a line (R269), payloads of at most 4 KiB (R624). -/
def Instr.wf (i : Instr) : Bool :=
  match i with
  | .memRd _ m => m.enc.all fun o => o.spare false
  | .memRdData _ m => m.enc.isNone
  | .memInv _ m => m.enc.isNone
  | .memInvNt _ m => m.enc.isNone
  | .memClnEvct _ m => m.enc.isNone
  | .memSpecRd _ m => m.enc.isNone
  | .biConflict _ m => m.enc.isNone
  | .memWr _ m _ => m.enc.all fun o => o.spare true
  | .memWrPtl _ m _ _ => m.enc.isNone
  | .biRsp _ _ _ _ bitag _ => decide (bitag < 4096)
  | .holdTimeout _ _ => true
  | .intakeArbitration _ _ => true
  | .filterLookupDone _ n e => decide (e.entry < 640) && e.err.all fun w => w.1.wf && w.1.kind == 2 && w.1.unit.val == n.val
  | .granaryLookupDone _ n e => decide (e.entry < 640) && e.err.all fun w => w.1.wf && (w.1.kind == 3 || w.1.kind == 4) && w.1.unit.val == n.val
  | .bisnpIssue _ _ => true
  | .snoopTimeout _ _ bitag => decide (bitag < 4096)
  | .mediaReadReturn _ _ _ _ => true
  | .mediaRmw _ _ _ _ => true
  | .mediaWriteAccepted _ _ _ => true
  | .mediaWriteComplete _ _ _ => true
  | .mediaReadTimeout _ _ _ => true
  | .mediaWriteTimeout _ _ _ => true
  | .mediaPortFault _ _ _ => true
  | .tractWalk _ _ e _ => decide (e < 640)
  | .walkResponse _ _ e => decide (e < 640)
  | .tractFreeze _ _ => true
  | .thawAttempt _ _ _ _ => true
  | .frozenWriteHoldExpiry _ _ => true
  | .noteAck _ _ _ _ tag => decide (tag < 65536)
  | .writeSettle _ _ _ => true
  | .twinAck _ _ _ => true
  | .intakeResponseRelease _ _ tag => decide (tag < 65536)
  | .holdOverrun _ _ e => decide (e < 640)
  | .trackerAge _ _ e => decide (e < 640)
  | .handshakeWatchdog _ _ => true
  | .sliceFallowEntry _ _ => true
  | .stookFallowEntry _ _ => true
  | .routerFallowEntry _ _ => true
  | .unitWake _ _ => true
  | .dgAdvancePersisted _ _ => true
  | .recallReturn _ _ _ => true
  | .recallGapTimeout _ _ => true
  | .replayList _ _ _ => true
  | .endOfReplay _ _ => true
  | .slicePrepare _ _ => true
  | .handoverOverrun _ _ => true
  | .energyOkFall _ => true
  | .energyOkRise _ => true
  | .grnCtlWrite _ _ _ => true
  | .scratchRead _ _ _ _ r => decide (r.size ≤ 64)
  | .scratchWrite _ _ _ _ size _ => decide (size ≤ 64)
  | .timeRefLoss _ => true
  | .alignWord _ _ _ _ => true
  | .alignWordMissing _ => true
  | .meridianLock _ => true
  | .holdoverExpiry _ => true
  | .twinTimeExchange _ _ => true
  | .twinExchangeInvalid _ => true
  | .domainNotice _ _ => true
  | .domainNoticeTimeout _ => true
  | .instantArm _ _ => true
  | .instantDisarm _ _ => true
  | .twinSlotReceive _ _ _ _ _ _ => true
  | .twinSlotAck _ _ _ => true
  | .slotConfirmDeadline _ _ => true
  | .domainSlotConfirm _ _ => true
  | .slotCancelReceive _ _ => true
  | .epochBoundary _ => true
  | .epochLenInstant _ _ => true
  | .plateExposeInstant _ _ => true
  | .snapshotInstant _ _ => true
  | .rachisModeInstant _ _ => true
  | .tractCommitInstant _ _ => true
  | .enableInstant _ _ => true
  | .roleMoveInstant _ _ => true
  | .capacityInstant _ _ => true
  | .pairInstant _ _ => true
  | .sealConfirm _ _ => true
  | .pairSealExchange _ _ => true
  | .sealedEpochPersist _ => true
  | .barrierHost _ _ _ _ _ => true
  | .barrierPartition _ _ _ _ _ => true
  | .barrierTwin _ _ _ _ _ => true
  | .barrierDomain _ _ _ _ _ => true
  | .barrierComplete _ _ _ => true
  | .twinHandshake _ _ => true
  | .seekingTimeout _ => true
  | .twinEchoReceive _ _ _ => true
  | .settleRecordApply _ _ => true
  | .twinReleaseReceive _ _ _ => true
  | .cleanNotice _ _ _ => true
  | .cleanRequest _ _ => true
  | .twinRecall _ _ => true
  | .heartbeatLoss _ => true
  | .twinLinkDown _ => true
  | .twinLinkUp _ => true
  | .peerLinksDown _ => true
  | .lossReportTimeout _ => true
  | .abdicationReceive _ _ => true
  | .claimComplete _ _ => true
  | .claimLost _ => true
  | .forwardedRecord _ _ _ _ _ _ => true
  | .forwardHoldTimeout _ _ tag => decide (tag < 65536)
  | .resyncWalkLine _ _ _ => true
  | .resyncRecord _ _ => true
  | .drainedMarker _ _ => true
  | .routeClosedMarker _ _ => true
  | .recordFetch _ _ e _ => decide (e < 640)
  | .roleMoveTimeout _ _ => true
  | .powerFailNotice _ => true
  | .powerFailNoticeTimeout _ => true
  | .mapRecord _ _ _ => true
  | .heatNote _ _ _ => true
  | .heatWindowEnd _ => true
  | .coldScan _ => true
  | .heliostatRound _ => true
  | .moveStartAck _ _ => true
  | .moveCopied _ _ => true
  | .commitMark _ _ _ => true
  | .moveDone _ _ => true
  | .patrolScrubLine _ _ _ => true
  | .patrolPassComplete _ => true
  | .arrayScrubWord _ w _ => w.wf
  | .laneEntryExpiry _ _ _ _ _ => true
  | .laneSteerDone _ _ => true
  | .winnowEvent _ _ _ => true
  | .eventResend _ _ => true
  | .eventLine _ _ => true
  | .shadowEnd _ _ => true
  | .aliveToggle _ => true
  | .voteSweep _ _ _ _ _ => true
  | .firstClear _ => true
  | .winnowInject _ _ => true
  | .alidadeWatchdog _ => true
  | .railsGood _ _ => true
  | .otpLoad _ _ _ _ => true
  | .alidadeBoot _ x => x.wf
  | .startupDirectoryDecision _ _ => true
  | .startupGenerationAct _ _ => true
  | .startupRefresh _ => true
  | .meridianLockTimeout _ => true
  | .railFault _ _ => true
  | .railGlitch _ _ => true
  | .marginWrite _ _ => true
  | .marginStep _ => true
  | .serviceButtonRelease _ _ => true
  | .presenceExpiry _ => true
  | .forcedOff _ => true
  | .powerFailWarn _ => true
  | .powerFailDrainDone _ => true
  | .lastGaspDone _ => true
  | .flashDescriptorDone _ _ _ => true
  | .streamGapTimeout _ _ => true
  | .resend _ _ => true
  | .sinkErr _ _ => true
  | .mediaRelay _ _ _ => true
  | .packBufferTimeout _ _ => true
  | .creditReturn _ _ => true
  | .ringWriteDelivered _ => true
  | .aliasWrite _ _ _ _ => true
  | .meridianWord0Read _ _ => true
  | .registerWrite _ _ _ _ => true
  | .bgAbort _ _ => true
  | .commandTimeout _ _ => true
  | .backgroundComplete _ _ _ => true
  | .identify _ c => c.wf
  | .backgroundOperationStatus _ c => c.wf
  | .requestAbortBackgroundOp _ c => c.wf
  | .getEventRecords _ c => c.wf
  | .clearEventRecords _ c => c.wf
  | .getEventInterruptPolicy _ c => c.wf
  | .setEventInterruptPolicy _ c => c.wf
  | .getFwInfo _ c => c.wf
  | .transferFw _ c => c.wf
  | .activateFw _ c _ => c.wf
  | .getTimestamp _ c => c.wf
  | .setTimestamp _ c => c.wf
  | .getSupportedLogs _ c => c.wf
  | .getLog _ c => c.wf
  | .identifyMemoryDevice _ c => c.wf
  | .getPartitionInfo _ c => c.wf
  | .getHealthInfo _ c => c.wf
  | .getAlertConfiguration _ c => c.wf
  | .setAlertConfiguration _ c => c.wf
  | .getShutdownState _ c => c.wf
  | .setShutdownState _ c => c.wf
  | .getLsa _ c => c.wf
  | .setLsa _ c => c.wf
  | .getPoisonList _ c => c.wf
  | .clearPoison _ c => c.wf
  | .sanitize _ c => c.wf
  | .secureErase _ c => c.wf
  | .unsupportedCommand _ c _ => c.wf
  | .partCreate _ c => c.wf
  | .partResize _ c => c.wf
  | .partDestroy _ c => c.wf
  | .partQuery _ c => c.wf
  | .partEnableSet _ c => c.wf
  | .partEnableClear _ c => c.wf
  | .partRestart _ c => c.wf
  | .partQuiet _ c => c.wf
  | .partScratchAssign _ c => c.wf
  | .partScratchRelease _ c => c.wf
  | .hostPortSet _ c => c.wf
  | .hostPortRestore _ c => c.wf
  | .ticketArea _ c => c.wf
  | .partSet _ c => c.wf
  | .placeGoal _ c => c.wf
  | .placeQuery _ c => c.wf
  | .tractRethaw _ c => c.wf
  | .tractRebuild _ c => c.wf
  | .plateExpose _ c => c.wf
  | .plateBind _ c => c.wf
  | .plateUnbind _ c => c.wf
  | .plateRelease _ c => c.wf
  | .plateGroupName _ c => c.wf
  | .plateGroupDissolve _ c => c.wf
  | .plateQuery _ c => c.wf
  | .epochLen _ c => c.wf
  | .barrier _ c => c.wf
  | .barrierList _ c => c.wf
  | .twinPair _ c => c.wf
  | .twinStatus _ c => c.wf
  | .twinDrill _ c => c.wf
  | .roleMove _ c => c.wf
  | .blockRestart _ c => c.wf
  | .capAdd _ c _ _ => c.wf
  | .capRemove _ c => c.wf
  | .capQuery _ c => c.wf
  | .almRead _ c => c.wf
  | .firstFaultRead _ c => c.wf
  | .firstFaultClear _ c => c.wf
  | .ceLog _ c => c.wf
  | .lastgasp _ c => c.wf
  | .snapshot _ c => c.wf
  | .counterRead _ c => c.wf
  | .otpRepair _ c => c.wf
  | .otpDefaults _ c => c.wf
  | .otpFlashPw _ c => c.wf
  | .otpFactoryLock _ c => c.wf
  | .otpRead _ c => c.wf
  | .retireRange _ c => c.wf
  | .retireClearEntry _ c => c.wf
  | .dirRefresh _ c => c.wf
  | .shutdown _ c => c.wf
  | .instantCancel _ c => c.wf
  | .instantList _ c => c.wf
  | .flashInfo _ c => c.wf
  | .bootSelect _ c _ => c.wf
  | .domainSlotReceive _ _ _ _ _ => true
  | .recordWalkLine _ _ _ => true
  | .roleRecordReceive _ _ _ => true
  | .otpGoodRise _ _ => true
  | .powerFailWarnGlitch _ => true
  | .peerLinksUp _ => true
  | .bisnpCredit _ _ => true
  | .arrayBist _ _ => true
  | .forwardedResponse _ _ _ _ _ => true

end Sys2Proof
end

