-- ==== Sys2Proof/Tests/Slice0.lean ====
section
/-! SUPPORT. The model's own tests: an ill-formed term for each check of WellFormed, small tests of one step, and for every statement
a state that meets its conditions. -/

set_option linter.all false
set_option Elab.async false
set_option maxRecDepth 20000

namespace Sys2Proof.Machine

/-- Some state meets the conditions of a statement, at the time of its step. -/
def Meets (H : State → Prop) : Prop := ∃ (t : Ns) (s : State), H (s.tick t)

/-- Some state serves a mailbox command and meets its conditions. -/
def MbxMeets (i : Ns → Mbx → Instr) (H : Mbx → State → Prop) : Prop :=
  ∃ (c : Mbx) (s : State) (op : Nat) (k : CmdKind), (i 0 c).mailbox = some (0, c, op, k) ∧ s.serves c op k = true ∧ H c (s.accept c op k.otp)

/-- A running, unpaired block. -/
def up : State := { State.reset with pwr := { Pwr.reset with step := 11, st := .running, railRet := true, railArray := true, railCore := true, energy := true } }

/-- A running block whose partition 0 is ENABLED, with host ports 0 and 1 in its host set and bound to intake port 0. -/
def open0 : State :=
  { up with
    parts := [(0, { Part.init with st := .enabled })]
    hosts := [(0, { HostPort.init with memb := 1, enable := true }), (1, { HostPort.init with memb := 1, enable := true })] }

/-- As `open0`, with partition 0 DISABLED and drained and the presence window open. -/
def dis0 : State :=
  { open0 with parts := [(0, { Part.init with st := .disabled, drained := true })], pwr := { up.pwr with presence := some 100 } }

/-- A message of host port 0 to line 0. -/
def msg (mf : MetaField) (mv : MetaValue) (sn : SnpType) : M2S := ⟨0, 0, 0, mf, mv, sn, 5, none⟩

/-- A request of host port 0 for line 0. -/
def req (f : Form) : Req := mkReq 0 0 (some 0) f 0 0 0 0 0

end Sys2Proof.Machine

namespace Sys2Proof.Machine

/-! ### The checks of WellFormed refuse -/

theorem test_wf_refuses_long_payload : Mbx.wf ⟨0, 0, 0, List.replicate 4097 0, false⟩ = false := by decide +kernel
theorem test_wf_refuses_payload_command : Instr.wf (.identify 0 ⟨0, 0, 0, List.replicate 4097 0, false⟩) = false := by decide +kernel
theorem test_wf_refuses_entry_640 : Instr.wf (.filterLookupDone 0 0 ⟨640, none⟩) = false := by decide
theorem test_wf_refuses_bitag_4096 : Instr.wf (.snoopTimeout 0 0 4096) = false := by decide
theorem test_wf_refuses_tag_65536 : Instr.wf (.intakeResponseRelease 0 0 65536) = false := by decide
theorem test_wf_refuses_scratch_65 : Instr.wf (.scratchWrite 0 .alidade 0 0 65 0) = false := by decide
theorem test_wf_refuses_array_row : ∀ w : ArrayWord, w.row = 4096 → Instr.wf (.arrayScrubWord 0 w .clean) = false := by
  intro w h; simp [Instr.wf, ArrayWord.wf, h]
theorem test_wf_refuses_short_gasp : ∀ x : BootInput, x.gasp0 = some [] → Instr.wf (.alidadeBoot 0 x) = false := by
  intro x h; simp [Instr.wf, BootInput.wf, h]
theorem test_wf_refuses_opcode_in_other_row : Instr.wf (.memInv 0 { msg .meta0 .a .noOp with enc := some .memRdFwd }) = false := by decide
theorem test_wf_refuses_row_opcode : Instr.wf (.memRd 0 { msg .meta0 .a .noOp with enc := some .memInv }) = false := by decide
theorem test_wf_refuses_read_opcode_in_write : Instr.wf (.memWr 0 { msg .meta0 .a .noOp with enc := some .memRdFwd } 0) = false := by decide
theorem test_wf_refuses_array_of_other_kind : ∀ w : ArrayWord, w.kind = 3 → Instr.wf (.filterLookupDone 0 0 ⟨5, some (w, .clean)⟩) = false := by
  intro w h; simp [Instr.wf, h]
theorem test_wf_takes_forwarded_read : Instr.wf (.memRd 0 { msg .meta0 .a .noOp with enc := some .memRdFwd }) = true := by decide
theorem test_wf_takes_entry_639 : Instr.wf (.filterLookupDone 0 0 ⟨639, none⟩) = true := by decide

/-! ### Worked examples of the spec -/

/-- The example under R73: home offset 0x0123_4567_89C0 has home slice 53. -/
theorem test_slice_hash : sliceOf 0x48D159E27 = 53 := by decide +kernel
/-- R3: the buddy of slice 53 is slice 61. -/
theorem test_buddy : buddy 53 = 61 := by decide
/-- The example under R193: the set 0x1E2 of the sheaf filter. -/
theorem test_filter_set : fltSet 0x48D159E27 = 0x1E2 := by decide
/-- The example under R201: with DG = 5, generation 14 has age 7. -/
theorem test_age_of_f : genAge 5 14 = 7 := by decide
/-- The example under R201: with DG = 5, generation 3 has age 2, and generation 9 age 12. -/
theorem test_age_of_q : genAge 5 3 = 2 ∧ genAge 5 9 = 12 := by decide
/-- The example under R242: the LFSR steps from 0x3A75 to 0x74EA. -/
theorem test_lfsr_step : lfsrStep 0x3A75 = 0x74EA := by decide
/-- The example under R242: with both allowed ways valid and IDLE, the third nibble names way 2. -/
theorem test_pick_way : pickWay 0x3A75 4 [0, 2] (fun _ => true) = some (2, false) := by decide
/-- The example under R242: with way 2 LOCKED, the lowest usable way, 0, is the fallback. -/
theorem test_pick_way_fallback : pickWay 0x3A75 4 [0] (fun _ => true) = some (0, true) := by decide
/-- The example under R470: 4 Mi tracts at DRAIN_CAP 2 take 7.55 s. -/
theorem test_drain_slow : ({ State.reset with place := { Place.reset with drainCap := 2 } } : State).drainMs (4 * 2 ^ 20) / 10 = 754 := by decide +kernel
/-- The example under R470: at DRAIN_CAP 20 one port's rate limits the drain to 4.83 s. -/
theorem test_drain_fast : ({ State.reset with place := { Place.reset with drainCap := 20 } } : State).drainMs (4 * 2 ^ 20) / 10 = 483 := by decide +kernel
/-- The check value of CRC-32 of IEEE 802.3 over the digits 1 to 9 (R605). -/
theorem test_crc32 : crc32 [0x31, 0x32, 0x33, 0x34, 0x35, 0x36, 0x37, 0x38, 0x39] = 0xCBF43926 := by decide +kernel
/-- R494: the CRC-16 of no bytes is 0xFFFF. -/
theorem test_crc16_empty : crc16 [] = 0xFFFF := by decide +kernel

/-- The payload of the PART_CREATE example under R644. -/
def createPayload : List Byte :=
  [0x03, 0x00, 0x04, 0x04, 0x00, 0x10, 0x00, 0x00, 0xFF, 0x07, 0x00, 0x00, 0x00, 0x80, 0x00, 0x00,
   0xF0, 0x00, 0x10, 0x20, 0x00, 0x01, 0x00, 0x04, 0x00, 0x20, 0x00, 0x01, 0x00, 0x02, 0x01, 0x00]

/-- The example under R644: the ranges that its payload configures. -/
theorem test_create_ranges : (cfgOf ⟨0, 0, 0, createPayload, false⟩ 0).ranges = [(4096, 2048), (32768, 8192)] := by decide +kernel
/-- The example under R644: the tracker and conflict-queue bounds that its payload configures. -/
theorem test_create_tracker : [(cfgOf ⟨0, 0, 0, createPayload, false⟩ 0).trkMin.toNat, (cfgOf ⟨0, 0, 0, createPayload, false⟩ 0).cqMax.toNat,
    (cfgOf ⟨0, 0, 0, createPayload, false⟩ 0).trkMax.toNat] = [16, 32, 256] := by decide +kernel
/-- The example under R644: the filter bounds and the quota that its payload configures. -/
theorem test_create_filter : [(cfgOf ⟨0, 0, 0, createPayload, false⟩ 0).filterMin.toNat, (cfgOf ⟨0, 0, 0, createPayload, false⟩ 0).filterMax.toNat,
    (cfgOf ⟨0, 0, 0, createPayload, false⟩ 0).fastQuota.toNat] = [1024, 8192, 256] := by decide +kernel
/-- The example under R644: no field is out of its range. -/
theorem test_create_ok : cfgBad ⟨0, 0, 0, createPayload, false⟩ = none := by decide +kernel

/-! ### One step -/

/-- R122: a BIConflict behind no response is acknowledged at once, with its line. -/
theorem test_biconflict_acknowledged :
    (match step { open0 with pending := [.biConflict 1 (msg .meta0 .a .noOp)] } with
     | .next s => s.out
     | _ => []) = [.conflictAck 0 0 0 .light] := by decide +kernel
/-- R122, R161: it waits behind a response that the slice has handed over. -/
theorem test_biconflict_waits :
    (match step { open0 with
        pending := [.biConflict 1 (msg .meta0 .a .noOp)]
        intakes := [(0, { Intake.init with kept := [⟨req .rdA, .host, 5, 0, .sent, some (0, false), some .cmpE, true, 0, none⟩] })] } with
     | .next s => (s.out, (s.ip 0).acks.map fun a => a.line)
     | _ => ([], [])) = ([], [0]) := by decide +kernel
/-- R131: a request without a credit is discarded and counted. -/
theorem test_overrun_keeps_nothing :
    (match step { open0 with pending := [.memRd 1 (msg .meta0 .a .snpInv)], hosts := [(0, { HostPort.init with memb := 1, enable := true, reqUsed := 48 })] } with
     | .next s => (s.ip 0).kept.length
     | _ => 9) = 0 := by decide +kernel
/-- R129: with a credit it is kept. -/
theorem test_request_is_kept :
    (match step { open0 with pending := [.memRd 1 (msg .meta0 .a .snpInv)] } with
     | .next s => (s.ip 0).kept.length
     | _ => 9) = 1 := by decide +kernel
/-- The block idles on an empty queue (assumption log 1). -/
theorem test_idle : (match step State.reset with
     | .next s => s == State.reset
     | _ => false) = true := by decide +kernel

end Sys2Proof.Machine

namespace Sys2Proof.Machine

theorem test_meets_step_idle : ∃ s : State, s.pending = [] :=
  ⟨State.reset, rfl⟩

theorem test_meets_lock_stays : ∃ (t : Ns) (s : State), (s.tick t).mer.st ≠ .unlocked :=
  ⟨0, { State.reset with mer := { Mer.reset with st := .locked } }, by decide⟩

theorem test_meets_fs_stays : ∃ (i : Instr) (s : State), s.win.failsafe = true ∧ i.isPowerUp = false :=
  ⟨.aliveToggle 0, { State.reset with win := { Win.reset with failsafe := true } }, rfl, rfl⟩

theorem test_meets_fs_start : ∃ (t : Ns) (s : State), (s.tick t).win.failsafe = true ∧ (s.tick t).pwr.railsUp = false :=
  ⟨0, { State.reset with win := { Win.reset with failsafe := true } }, rfl, rfl⟩

theorem test_meets_only_otp : ∃ i : Instr, i.mayWriteOtp = false :=
  ⟨.aliveToggle 0, rfl⟩

theorem test_meets_only_scratch : ∃ i : Instr, i.mayWriteScratch = false :=
  ⟨.aliveToggle 0, rfl⟩

theorem test_meets_host_kept : ∃ (op : ReqOp) (m : M2S) (data : Line) (be : Quad) (r : Req), Meets fun s => s.hasCredit m op = true ∧ (s.charged m op).check m op (msgData op data) (msgBe op be) false = .pass r ∧
      r.form ≠ .specRd ∧ r.form ≠ .biConf ∧ ¬(r.form = .clnEvct ∧ r.plate.isSome = true) :=
  ⟨.memRd, msg .meta0 .a .snpInv, 0, 0, req .rdA, 0, open0, by decide +kernel, by decide +kernel, by decide +kernel⟩

theorem test_meets_host_specrd : ∃ (m : M2S) (r : Req), Meets fun s => s.hasCredit m .memSpecRd = true ∧ (s.charged m .memSpecRd).check m .memSpecRd 0 0 false = .pass r ∧ r.form = .specRd :=
  ⟨msg .meta0 .a .noOp, req .specRd, 0, open0, by decide +kernel, by decide +kernel, by decide +kernel⟩

theorem test_meets_host_biconf : ∃ (m : M2S) (r : Req), Meets fun s => s.hasCredit m .biConflict = true ∧ (s.charged m .biConflict).check m .biConflict 0 0 false = .pass r ∧ r.form = .biConf ∧
      ((s.charged m .biConflict).firstPlace r).goes = false ∧ (s.charged m .biConflict).handed r.intake (r.host.getD 0) r.line = [] :=
  ⟨msg .meta0 .a .noOp, req .biConf, 0, open0, by decide +kernel, by decide +kernel, by decide +kernel, by decide +kernel, by decide +kernel⟩

theorem test_meets_host_biconf_waits : ∃ (m : M2S) (r : Req), Meets fun s => s.hasCredit m .biConflict = true ∧ (s.charged m .biConflict).check m .biConflict 0 0 false = .pass r ∧ r.form = .biConf ∧
      ((s.charged m .biConflict).firstPlace r).goes = false ∧ (s.charged m .biConflict).handed r.intake (r.host.getD 0) r.line ≠ [] :=
  ⟨msg .meta0 .a .noOp, req .biConf, 0, { open0 with intakes := [(0, { Intake.init with kept := [⟨req .rdA, .host, 5, 0, .sent, some (0, false), some .cmpE, true, 0, none⟩] })] }, by decide +kernel, by decide +kernel, by decide +kernel, by decide +kernel, by decide +kernel⟩

theorem test_meets_host_biconf_goes : ∃ (m : M2S) (r : Req), Meets fun s => s.hasCredit m .biConflict = true ∧ (s.charged m .biConflict).check m .biConflict 0 0 false = .pass r ∧ r.form = .biConf ∧
      ((s.charged m .biConflict).firstPlace r).goes = true :=
  ⟨msg .meta0 .a .noOp, req .biConf, 0, { open0 with twin := { Twin.reset with st := .paired } }, by decide +kernel, by decide +kernel, by decide +kernel, by decide +kernel⟩

theorem test_meets_host_clnwin : ∃ (m : M2S) (r : Req), Meets fun s => s.hasCredit m .memClnEvct = true ∧ (s.charged m .memClnEvct).check m .memClnEvct 0 0 false = .pass r ∧ r.form = .clnEvct ∧ r.plate.isSome = true :=
  ⟨⟨0, 0, 2 ^ 30, .meta0, .i, .noOp, 5, none⟩, { req .clnEvct with plate := some 3 }, 0, { open0 with parts := [(0, { Part.init with st := .enabled, cfg := { PartCfg.init with winBase := 1, winSlots := 1 }, winBind := [(0, 3)] })] }, by decide +kernel, by decide +kernel, by decide +kernel⟩

theorem test_meets_host_failed : ∃ (op : ReqOp) (m : M2S) (data : Line) (be : Quad) (k : Nat) (p : Option Nat), Meets fun s => s.hasCredit m op = true ∧ (s.charged m op).check m op (msgData op data) (msgBe op be) false = .fail k p :=
  ⟨.memWr, ⟨0, 0, 2 ^ 31, .meta0, .i, .noOp, 5, none⟩, 0, 0, 3, none, 0, open0, by decide +kernel, by decide +kernel⟩

theorem test_meets_host_unbound : ∃ (op : ReqOp) (m : M2S) (data : Line) (be : Quad) (k : Nat) (p : Option Nat), Meets fun s => (s.ip m.port.val).halted = false ∧ s.holdsCredits m.port.val m.host.val = false ∧ (s.bumpIp m.port.val 0 0 64).check m op (msgData op data) (msgBe op be) false = .fail k p :=
  ⟨.memWr, ⟨0, 9, 0, .meta0, .i, .noOp, 5, none⟩, 0, 0, 0, none, 0, open0, by decide +kernel, by decide +kernel, by decide +kernel⟩

theorem test_meets_host_held : ∃ (op : ReqOp) (m : M2S) (data : Line) (be : Quad) (r : Req), Meets fun s => s.hasCredit m op = true ∧ (s.charged m op).check m op (msgData op data) (msgBe op be) false = .hold r :=
  ⟨.memWr, msg .meta0 .i .noOp, 0, 0, { req .wrI with be := BitVec.allOnes 64 }, 0, { open0 with parts := [(0, { Part.init with st := .disabled, cfg := { PartCfg.init with hold := true } })] }, by decide +kernel, by decide +kernel⟩

theorem test_meets_host_halted : ∃ (op : ReqOp) (m : M2S) (data : Line) (be : Quad), Meets fun s => (s.ip m.port.val).halted = true :=
  ⟨.memRd, msg .meta0 .i .noOp, 0, 0, 0, { open0 with intakes := [(0, { Intake.init with halted := true })] }, by decide +kernel⟩

theorem test_meets_host_overrun : ∃ (op : ReqOp) (m : M2S) (data : Line) (be : Quad), Meets fun s => (s.ip m.port.val).halted = false ∧ s.holdsCredits m.port.val m.host.val = true ∧
      (if opRwd op then (s.hp m.host.val).rwdCr ≤ (s.hp m.host.val).rwdUsed else (s.hp m.host.val).reqCr ≤ (s.hp m.host.val).reqUsed) :=
  ⟨.memWr, msg .meta0 .i .noOp, 0, 0, 0, { open0 with hosts := [(0, { HostPort.init with memb := 1, enable := true, rwdUsed := 16 })] }, by decide +kernel, by decide +kernel, by decide +kernel⟩

theorem test_meets_birsp_conform : ∃ (port : IntakeId) (host : HostId) (line : BitVec 42) (bitag : Nat) (ans : BIAns) (y : Snoop) (k : Option Bool), Meets fun s => (s.ip port.val).halted = false ∧ (s.ip port.val).retired.contains bitag = false ∧ Tbl.find (s.ip port.val).snoops bitag = some y ∧
      ans ≠ .block ∧ y.host = host.val ∧ y.line = line.toNat ∧ y.left.isSome = true ∧ conform y.form ans = some k :=
  ⟨0, 0, 0, 4095, .rspI, ⟨0, 0, 0, 0, 0, .inv, true, some 0, false, 0⟩, none, 0, { up with intakes := [(0, { Intake.init with snoops := [(4095, ⟨0, 0, 0, 0, 0, .inv, true, some 0, false, 0⟩)] })] }, by decide +kernel⟩

theorem test_meets_birsp_wrong : ∃ (port : IntakeId) (host : HostId) (line : BitVec 42) (bitag : Nat) (ans : BIAns) (y : Snoop), Meets fun s => (s.ip port.val).halted = false ∧ (s.ip port.val).retired.contains bitag = false ∧ Tbl.find (s.ip port.val).snoops bitag = some y ∧
      ans ≠ .block ∧ y.host = host.val ∧ y.line = line.toNat ∧ y.left.isSome = true ∧ conform y.form ans = none :=
  ⟨0, 0, 0, 0, .rspS, ⟨0, 0, 0, 0, 0, .inv, true, some 0, false, 0⟩, 0, { up with intakes := [(0, { Intake.init with snoops := [(0, ⟨0, 0, 0, 0, 0, .inv, true, some 0, false, 0⟩)] })] }, by decide +kernel⟩

theorem test_meets_birsp_alone : ∃ (port : IntakeId) (host : HostId) (line : BitVec 42) (bitag : Nat) (ans : BIAns), Meets fun s => (s.ip port.val).halted = false ∧ (s.ip port.val).retired.contains bitag = false ∧ Tbl.find (s.ip port.val).snoops bitag = none :=
  ⟨15, 0, 0, 0, .rspS, 0, up, by decide +kernel⟩

theorem test_meets_snoop_timeout : ∃ (port : IntakeId) (bitag : Nat) (y : Snoop) (t0 : Nat), Meets fun s => Tbl.find (s.ip port.val).snoops bitag = some y ∧ y.left = some t0 ∧ t0 + s.blk.snpTmo * 1000 ≤ s.now :=
  ⟨0, 0, ⟨0, 0, 0, 0, 0, .inv, true, some 0, false, 0⟩, 0, 0, { up with now := 50000, intakes := [(0, { Intake.init with snoops := [(0, ⟨0, 0, 0, 0, 0, .inv, true, some 0, false, 0⟩)] })] }, by decide +kernel⟩

theorem test_meets_bisnp_issue : ∃ (n : SliceId) (e w : Nat) (rest : List Nat) (x : Entry) (tag : Nat) (v : State), Meets fun s => s.mute = false ∧ State.each (fun i s => s.sendWaiting i) (List.range 16) s = v ∧ v.mute = false ∧ v.nextIssue n.val = some (e, x) ∧
      x.toIssue = w :: rest ∧ (v.hp w).unresp = false ∧ (v.ip (v.hp w).intake).bitag = some tag :=
  ⟨0, 0, 1, [], { (Entry.blank .host (req .rdA) 0) with st := .snoop, toIssue := [1] }, 0, _, 0, { open0 with slices := [(0, { Slice.init 0 with front := { Front.init with ents := [(0, { (Entry.blank .host (req .rdA) 0) with st := .snoop, toIssue := [1] })] } })] }, by decide +kernel, rfl, by decide +kernel⟩

theorem test_meets_bisnp_silent : ∃ (n : SliceId) (e w : Nat) (rest : List Nat) (x : Entry) (v : State), Meets fun s => s.mute = false ∧ State.each (fun i s => s.sendWaiting i) (List.range 16) s = v ∧ v.mute = false ∧ v.nextIssue n.val = some (e, x) ∧
      x.toIssue = w :: rest ∧ (v.hp w).unresp = true :=
  ⟨0, 0, 1, [], { (Entry.blank .host (req .rdA) 0) with st := .snoop, toIssue := [1] }, _, 0, { open0 with hosts := [(1, { HostPort.init with unresp := true })], slices := [(0, { Slice.init 0 with front := { Front.init with ents := [(0, { (Entry.blank .host (req .rdA) 0) with st := .snoop, toIssue := [1] })] } })] }, by decide +kernel, rfl, by decide +kernel⟩

theorem test_meets_bisnp_credit : ∃ (i : IntakeId), Meets fun s => (s.onIp i.val fun q => { q with snpCredits := q.snpCredits + 1 }).mute = false :=
  ⟨0, 0, up, by decide +kernel⟩

theorem test_meets_arbitration : ∃ (n : SliceId) (i : Nat) (r : Req), Meets fun s => s.takes n.val = true ∧ s.win.failsafe = false ∧ (s.slc n.val).front.pick = some (i, r) :=
  ⟨0, 2, req .rdA, 0, { open0 with slices := [(0, { Slice.init 0 with front := { Front.init with streams := [(2, [req .rdA])] } })] }, by decide +kernel⟩

theorem test_meets_flt_hit : ∃ (n : SliceId) (e w : Nat) (err : Option (ArrayWord × WordFault)) (x y : Entry) (f : FEntry), Meets fun s => s.ent n.val e = some x ∧ x.kind = .host ∧ x.st = .lookup ∧ x.fltDone = false ∧ (s.slc n.val).banks.inSpill x.req.line = false ∧
      (s.meets err (Form.trans x.req.form)).ent n.val e = some y ∧ ((s.meets err (Form.trans x.req.form)).slc n.val).banks.fltWay y.req.line = some w ∧
      ((s.meets err (Form.trans x.req.form)).slc n.val).banks.fltAt (fltSet y.req.line) w = some f :=
  ⟨0, 0, 15, none, (Entry.blank .host (req .rdA) 0), (Entry.blank .host (req .rdA) 0), ⟨BitVec.ofNat 64 (2 ^ 31), 0, 0⟩, 0, { open0 with slices := [(0, { Slice.init 0 with front := { Front.init with ents := [(0, (Entry.blank .host (req .rdA) 0))] }, banks := { Banks.init 0 with flt := [(15, ⟨BitVec.ofNat 64 (2 ^ 31), 0, 0⟩)] } })] }, by decide +kernel⟩

theorem test_meets_flt_miss : ∃ (n : SliceId) (e : Nat) (err : Option (ArrayWord × WordFault)) (x y : Entry), Meets fun s => s.ent n.val e = some x ∧ x.kind = .host ∧ x.st = .lookup ∧ x.fltDone = false ∧ (s.slc n.val).banks.inSpill x.req.line = false ∧
      (s.meets err (Form.trans x.req.form)).ent n.val e = some y ∧ ((s.meets err (Form.trans x.req.form)).slc n.val).banks.fltWay y.req.line = none :=
  ⟨0, 639, none, (Entry.blank .host (req .rdA) 0), (Entry.blank .host (req .rdA) 0), 0, { open0 with slices := [(0, { Slice.init 0 with front := { Front.init with ents := [(639, (Entry.blank .host (req .rdA) 0))] } })] }, by decide +kernel⟩

theorem test_meets_grn_hit : ∃ (n : SliceId) (e k : Nat) (err : Option (ArrayWord × WordFault)) (x y : Entry) (g : GEntry), Meets fun s => s.ent n.val e = some x ∧ x.kind = .host ∧ x.fail = none ∧ x.grnDone = false ∧ (s.slc n.val).banks.fillPending x.req.line = false ∧
      (s.meets err (Form.trans x.req.form)).ent n.val e = some y ∧ (s.meets err (Form.trans x.req.form)).isFrozen (tractOf x.req.line) = false ∧
      y.req.plate = none ∧ ((s.meets err (Form.trans x.req.form)).slc n.val).banks.grnFind x.req.line = some k ∧
      Tbl.find ((s.meets err (Form.trans x.req.form)).slc n.val).banks.grn k = some g ∧ g.st ≠ .evicting :=
  ⟨0, 0, (Banks.init 0).ctl.key 0 0, none, (Entry.blank .host (req .rdA) 0), (Entry.blank .host (req .rdA) 0), ⟨true, false, 0, 0, false, 0, .idle, 0⟩, 0, { open0 with slices := [(0, { Slice.init 0 with front := { Front.init with ents := [(0, (Entry.blank .host (req .rdA) 0))] }, banks := { Banks.init 0 with grn := [((Banks.init 0).ctl.key 0 0, ⟨true, false, 0, 0, false, 0, .idle, 0⟩)] } })] }, by decide +kernel⟩

theorem test_meets_grn_miss : ∃ (n : SliceId) (e : Nat) (err : Option (ArrayWord × WordFault)) (x y : Entry), Meets fun s => s.ent n.val e = some x ∧ x.kind = .host ∧ x.fail = none ∧ x.grnDone = false ∧ (s.slc n.val).banks.fillPending x.req.line = false ∧
      (s.meets err (Form.trans x.req.form)).ent n.val e = some y ∧ (s.meets err (Form.trans x.req.form)).isFrozen (tractOf x.req.line) = false ∧
      y.req.plate = none ∧ ((s.meets err (Form.trans x.req.form)).slc n.val).banks.grnFind x.req.line = none :=
  ⟨0, 0, none, (Entry.blank .host (req .rdA) 0), (Entry.blank .host (req .rdA) 0), 0, { open0 with slices := [(0, { Slice.init 0 with front := { Front.init with ents := [(0, (Entry.blank .host (req .rdA) 0))] } })] }, by decide +kernel⟩

theorem test_meets_note_ack : ∃ (port : IntakeId) (n : SliceId) (seq : Word) (tag : Nat) (w : Pend) (k : Kept), Meets fun s => s.pend? n.val seq.toNat = some w ∧ s.kept? port.val tag = some k ∧ w.notes.contains (port.val, tag) = true :=
  ⟨0, 0, 7, 0, { (default : Pend) with seq := 7, tags := [(0, 0)], notes := [(0, 0)] }, ⟨req .wrI, .host, 5, 0, .sent, none, none, false, 0, none⟩, 0, { open0 with intakes := [(0, { Intake.init with kept := [⟨req .wrI, .host, 5, 0, .sent, none, none, false, 0, none⟩] })], slices := [(0, { Slice.init 0 with front := { Front.init with pends := [{ (default : Pend) with seq := 7, tags := [(0, 0)], notes := [(0, 0)] }] } })] }, by decide +kernel⟩

theorem test_meets_write_settle : ∃ (n : SliceId) (seq : Word), Meets fun _ => True :=
  ⟨0, 0, 0, up, by decide +kernel⟩

theorem test_meets_twin_ack : ∃ (n : SliceId) (seq : Word), Meets fun _ => True :=
  ⟨0, 0, 0, up, by decide +kernel⟩

theorem test_meets_response_release : ∃ (port : IntakeId) (tag : Nat) (k : Kept), Meets fun s => s.kept? port.val tag = some k ∧ k.ready = true ∧ k.after ≤ s.sliceNow k.slice ∧ s.mute = false ∧ (s.ip port.val).behindAck k = false :=
  ⟨0, 0, ⟨req .rdA, .host, 5, 0, .sent, some (0, false), some .cmpE, true, 0, none⟩, 0, { open0 with intakes := [(0, { Intake.init with kept := [⟨req .rdA, .host, 5, 0, .sent, some (0, false), some .cmpE, true, 0, none⟩] })] }, by decide +kernel⟩

theorem test_meets_hold_timeout : ∃ (part : PartId) (t0 : Nat), Meets fun s => (s.part part.val).heldSince = some t0 ∧ t0 + 5000000 ≤ s.now ∧ (s.part part.val).holdEv = false :=
  ⟨63, 0, 0, { up with now := 5000000, parts := [(63, { Part.init with heldSince := some 0 })] }, by decide +kernel⟩

theorem test_meets_hold_overrun : ∃ (n : SliceId) (e : Nat) (x : Entry), Meets fun s => s.ent n.val e = some x ∧ x.hold = true ∧ x.start + 2000 ≤ s.time :=
  ⟨0, 512, { (Entry.blank .host (req .rdA) 0) with hold := true, kind := .migrate }, 0, { up with now := 2000, mer := { Mer.reset with st := .locked }, slices := [(0, { Slice.init 0 with front := { Front.init with ents := [(512, { (Entry.blank .host (req .rdA) 0) with hold := true, kind := .migrate })] } })] }, by decide +kernel⟩

theorem test_meets_tracker_age : ∃ (n : SliceId) (e : Nat) (x : Entry), Meets fun s => s.ent n.val e = some x ∧ x.aged = false ∧ x.start + s.blk.trkAge * 1000000 < s.time :=
  ⟨0, 0, (Entry.blank .host (req .rdA) 0), 0, { up with now := 5000001, mer := { Mer.reset with st := .locked }, slices := [(0, { Slice.init 0 with front := { Front.init with ents := [(0, (Entry.blank .host (req .rdA) 0))] } })] }, by decide +kernel⟩

theorem test_meets_read_ok : ∃ (m : MediaId) (id : Nat) (cw : Codeword) (o : MOp) (e : Nat) (c : Codeword) (f a : Bool), Meets fun s => s.op? m.val id = some o ∧ o.write = false ∧ o.purp = .read e ∧ ((s.sendCw m.val o cw).decode m.val o cw (s.sendCw m.val o cw).laneCtl).1 = .ok c f a :=
  ⟨0, 3, encodeLine 0 0, { (default : MOp) with id := 3, purp := .read 0 }, 0, encodeLine 0 0, false, false, 0, { up with mports := [(0, { MPort.init with ops := [{ (default : MOp) with id := 3, purp := .read 0 }] })] }, by decide +kernel⟩

theorem test_meets_read_again : ∃ (m : MediaId) (id : Nat) (cw : Codeword) (o : MOp) (e : Nat), Meets fun s => s.op? m.val id = some o ∧ o.write = false ∧ o.purp = .read e ∧ ((s.sendCw m.val o cw).decode m.val o cw (s.sendCw m.val o cw).laneCtl).1 = .again :=
  ⟨0, 3, BitVec.ofNat 576 0x5A11C3, { (default : MOp) with id := 3, purp := .read 0 }, 0, 0, { up with mports := [(0, { MPort.init with ops := [{ (default : MOp) with id := 3, purp := .read 0 }] })] }, by decide +kernel⟩

theorem test_meets_read_lost : ∃ (m : MediaId) (id : Nat) (cw : Codeword) (o : MOp) (e : Nat), Meets fun s => s.op? m.val id = some o ∧ o.write = false ∧ o.purp = .read e ∧ ((s.sendCw m.val o cw).decode m.val o cw (s.sendCw m.val o cw).laneCtl).1 = .lost :=
  ⟨0, 3, BitVec.ofNat 576 0x5A11C3, { ({ (default : MOp) with id := 3, purp := .read 0 } : MOp) with reread := true }, 0, 0, { up with mports := [(0, { MPort.init with ops := [{ ({ (default : MOp) with id := 3, purp := .read 0 } : MOp) with reread := true }] })] }, by decide +kernel⟩

theorem test_meets_scrub_ok : ∃ (m : MediaId) (id : Nat) (cw : Codeword) (o : MOp) (e : Nat) (c : Codeword) (f a : Bool), Meets fun s => s.op? m.val id = some o ∧ o.write = false ∧ o.purp = .scrub e ∧ ((s.sendCw m.val o cw).decode m.val o cw (s.sendCw m.val o cw).laneCtl).1 = .ok c f a :=
  ⟨0, 3, encodeLine 0 0, { ({ (default : MOp) with id := 3, purp := .read 0 } : MOp) with purp := .scrub 512 }, 512, encodeLine 0 0, false, false, 0, { up with mports := [(0, { MPort.init with ops := [{ ({ (default : MOp) with id := 3, purp := .read 0 } : MOp) with purp := .scrub 512 }] })] }, by decide +kernel⟩

theorem test_meets_scrub_lost : ∃ (m : MediaId) (id : Nat) (cw : Codeword) (o : MOp) (e : Nat), Meets fun s => s.op? m.val id = some o ∧ o.write = false ∧ o.purp = .scrub e ∧ ((s.sendCw m.val o cw).decode m.val o cw (s.sendCw m.val o cw).laneCtl).1 = .lost :=
  ⟨0, 3, BitVec.ofNat 576 0x5A11C3, { ({ (default : MOp) with id := 3, purp := .read 0 } : MOp) with purp := .scrub 512, reread := true }, 512, 0, { up with mports := [(0, { MPort.init with ops := [{ ({ (default : MOp) with id := 3, purp := .read 0 } : MOp) with purp := .scrub 512, reread := true }] })] }, by decide +kernel⟩

theorem test_meets_scrub_again : ∃ (m : MediaId) (id : Nat) (cw : Codeword) (o : MOp) (e : Nat), Meets fun s => s.op? m.val id = some o ∧ o.write = false ∧ o.purp = .scrub e ∧ ((s.sendCw m.val o cw).decode m.val o cw (s.sendCw m.val o cw).laneCtl).1 = .again :=
  ⟨0, 3, BitVec.ofNat 576 0x5A11C3, { ({ (default : MOp) with id := 3, purp := .read 0 } : MOp) with purp := .scrub 512 }, 512, 0, { up with mports := [(0, { MPort.init with ops := [{ ({ (default : MOp) with id := 3, purp := .read 0 } : MOp) with purp := .scrub 512 }] })] }, by decide +kernel⟩

theorem test_meets_rmw_ok : ∃ (m : MediaId) (id : Nat) (cw : Codeword) (o : MOp) (k : Nat) (c : Codeword) (f a : Bool) (d : DirW), Meets fun s => s.op? m.val id = some o ∧ o.write = false ∧ o.purp = .dirw k ∧ ((s.sendCw m.val o cw).decode m.val o cw s.laneCtl).1 = .ok c f a ∧ ((s.sendCw m.val o cw).decode m.val o cw s.laneCtl).2.dirw? o.slice k = some d :=
  ⟨0, 3, encodeLine 0 0, { ({ (default : MOp) with id := 3, purp := .read 0 } : MOp) with purp := .dirw 1 }, 1, encodeLine 0 0, false, false, { (default : DirW) with id := 1 }, 0, { up with mports := [(0, { MPort.init with ops := [{ ({ (default : MOp) with id := 3, purp := .read 0 } : MOp) with purp := .dirw 1 }] })], slices := [(0, { Slice.init 0 with banks := { Banks.init 0 with dirw := [{ (default : DirW) with id := 1 }] } })] }, by decide +kernel⟩

theorem test_meets_rmw_lost : ∃ (m : MediaId) (id : Nat) (cw : Codeword) (o : MOp) (k : Nat) (d : DirW), Meets fun s => s.op? m.val id = some o ∧ o.write = false ∧ o.purp = .dirw k ∧ ((s.sendCw m.val o cw).decode m.val o cw s.laneCtl).1 = .lost ∧ ((s.sendCw m.val o cw).decode m.val o cw s.laneCtl).2.dirw? o.slice k = some d :=
  ⟨0, 3, BitVec.ofNat 576 0x5A11C3, { ({ (default : MOp) with id := 3, purp := .read 0 } : MOp) with purp := .dirw 1, reread := true }, 1, { (default : DirW) with id := 1 }, 0, { up with mports := [(0, { MPort.init with ops := [{ ({ (default : MOp) with id := 3, purp := .read 0 } : MOp) with purp := .dirw 1, reread := true }] })], slices := [(0, { Slice.init 0 with banks := { Banks.init 0 with dirw := [{ (default : DirW) with id := 1 }] } })] }, by decide +kernel⟩

theorem test_meets_rmw_again : ∃ (m : MediaId) (id : Nat) (cw : Codeword) (o : MOp) (k : Nat), Meets fun s => s.op? m.val id = some o ∧ o.write = false ∧ o.purp = .dirw k ∧ ((s.sendCw m.val o cw).decode m.val o cw s.laneCtl).1 = .again :=
  ⟨0, 3, BitVec.ofNat 576 0x5A11C3, { ({ (default : MOp) with id := 3, purp := .read 0 } : MOp) with purp := .dirw 1 }, 1, 0, { up with mports := [(0, { MPort.init with ops := [{ ({ (default : MOp) with id := 3, purp := .read 0 } : MOp) with purp := .dirw 1 }] })] }, by decide +kernel⟩

theorem test_meets_write_accepted : ∃ (m : MediaId) (id : Nat) (o : MOp), Meets fun s => s.op? m.val id = some o ∧ o.write = true ∧ o.accepted = false ∧ (s.mp m.val).held < 256 ∧ (s.mp m.val).before o = false ∧ s.win.failsafe = false ∧ s.pwr.st ≠ .halt :=
  ⟨0, 3, { ({ (default : MOp) with id := 3, purp := .through, write := true, accepted := true } : MOp) with accepted := false }, 0, { up with mports := [(0, { MPort.init with ops := [{ ({ (default : MOp) with id := 3, purp := .through, write := true, accepted := true } : MOp) with accepted := false }] })] }, by decide +kernel⟩

theorem test_meets_write_complete : ∃ (m : MediaId) (id : Nat) (o : MOp), Meets fun s => s.op? m.val id = some o ∧ o.write = true ∧ o.accepted = true ∧ (o.purp = .through ∨ o.purp = .drain) :=
  ⟨0, 3, { (default : MOp) with id := 3, purp := .through, write := true, accepted := true }, 0, { up with mports := [(0, { MPort.init with ops := [{ (default : MOp) with id := 3, purp := .through, write := true, accepted := true }] })] }, by decide +kernel⟩

theorem test_meets_write_complete_other : ∃ (m : MediaId) (id : Nat) (o : MOp), Meets fun s => s.op? m.val id = some o ∧ o.write = true ∧ o.accepted = true ∧ o.purp ≠ .through ∧ o.purp ≠ .drain :=
  ⟨0, 3, { ({ (default : MOp) with id := 3, purp := .through, write := true, accepted := true } : MOp) with purp := .evict 0 0 }, 0, { up with mports := [(0, { MPort.init with ops := [{ ({ (default : MOp) with id := 3, purp := .through, write := true, accepted := true } : MOp) with purp := .evict 0 0 }] })] }, by decide +kernel⟩

theorem test_meets_rdtmo_first : ∃ (m : MediaId) (id : Nat) (o : MOp), Meets fun s => s.op? m.val id = some o ∧ o.write = false ∧ o.accepted = false ∧ o.since + s.blk.readTmo * 1000 ≤ s.now ∧ o.tries = 0 :=
  ⟨0, 3, { (default : MOp) with id := 3, purp := .read 0 }, 0, { up with now := 50000, mports := [(0, { MPort.init with ops := [{ (default : MOp) with id := 3, purp := .read 0 }] })] }, by decide +kernel⟩

theorem test_meets_rdtmo_again : ∃ (m : MediaId) (id : Nat) (o : MOp) (e : Nat), Meets fun s => s.op? m.val id = some o ∧ o.write = false ∧ o.accepted = false ∧ o.since + s.blk.readTmo * 1000 ≤ s.now ∧ o.tries ≠ 0 ∧ o.purp = .read e :=
  ⟨0, 3, { ({ (default : MOp) with id := 3, purp := .read 0 } : MOp) with tries := 1 }, 0, 0, { up with now := 50000, mports := [(0, { MPort.init with ops := [{ ({ (default : MOp) with id := 3, purp := .read 0 } : MOp) with tries := 1 }] })] }, by decide +kernel⟩

theorem test_meets_rdtmo_scrub : ∃ (m : MediaId) (id : Nat) (o : MOp) (e : Nat), Meets fun s => s.op? m.val id = some o ∧ o.write = false ∧ o.accepted = false ∧ o.since + s.blk.readTmo * 1000 ≤ s.now ∧ o.tries ≠ 0 ∧ o.purp = .scrub e :=
  ⟨0, 3, { ({ (default : MOp) with id := 3, purp := .read 0 } : MOp) with tries := 1, purp := .scrub 512 }, 512, 0, { up with now := 50000, mports := [(0, { MPort.init with ops := [{ ({ (default : MOp) with id := 3, purp := .read 0 } : MOp) with tries := 1, purp := .scrub 512 }] })] }, by decide +kernel⟩

theorem test_meets_wrtmo_first : ∃ (m : MediaId) (id : Nat) (o : MOp), Meets fun s => s.op? m.val id = some o ∧ o.write = true ∧ o.accepted = true ∧ o.since + s.blk.writeTmo * 1000 ≤ s.now ∧ o.tries = 0 :=
  ⟨0, 3, { (default : MOp) with id := 3, purp := .through, write := true, accepted := true }, 0, { up with now := 200000, mports := [(0, { MPort.init with ops := [{ (default : MOp) with id := 3, purp := .through, write := true, accepted := true }] })] }, by decide +kernel⟩

theorem test_meets_wrtmo_again : ∃ (m : MediaId) (id : Nat) (o : MOp), Meets fun s => s.op? m.val id = some o ∧ o.write = true ∧ o.accepted = true ∧ o.since + s.blk.writeTmo * 1000 ≤ s.now ∧ o.tries ≠ 0 :=
  ⟨0, 3, { ({ (default : MOp) with id := 3, purp := .through, write := true, accepted := true } : MOp) with tries := 1 }, 0, { up with now := 200000, mports := [(0, { MPort.init with ops := [{ ({ (default : MOp) with id := 3, purp := .through, write := true, accepted := true } : MOp) with tries := 1 }] })] }, by decide +kernel⟩

theorem test_meets_port_fault : ∃ (m : MediaId) (kind : Byte), Meets fun _ => True :=
  ⟨31, 0xFF, 0, up, by decide +kernel⟩

theorem test_meets_walk_frozen : ∃ (n : SliceId) (e : Nat) (x : Entry) (rd : MapRead), Meets fun s => s.ent n.val e = some x ∧ x.walking = true ∧ x.place = none ∧ x.fail = none ∧ (s.place.frozen.any fun f => f.tract == tractOf x.req.line) = true :=
  ⟨0, 0, { (Entry.blank .host (req .rdA) 0) with walking := true }, default, 0, { open0 with place := { Place.reset with frozen := [⟨0, 0, 0, true, true⟩] }, slices := [(0, { Slice.init 0 with front := { Front.init with ents := [(0, { (Entry.blank .host (req .rdA) 0) with walking := true })] } })] }, by decide +kernel⟩

theorem test_meets_walk_cached : ∃ (n : SliceId) (e : Nat) (x : Entry) (rd : MapRead), Meets fun s => s.ent n.val e = some x ∧ x.walking = true ∧ x.place = none ∧ x.fail = none ∧ (s.place.frozen.any fun f => f.tract == tractOf x.req.line) = false ∧
      s.cacheHit (tractOf x.req.line) = true :=
  ⟨0, 0, { (Entry.blank .host (req .rdA) 0) with walking := true }, default, 0, { open0 with place := { Place.reset with cache := [(0, 0)] }, slices := (List.range 128).map fun n => (n, { Slice.init n with front := { Front.init with ents := [(0, { (Entry.blank .host (req .rdA) 0) with walking := true })] }, banks := { Banks.init n with ctl := ⟨3, 12, false⟩ } }) }, by decide +kernel⟩

theorem test_meets_walk_first : ∃ (n : SliceId) (e : Nat) (x : Entry) (rd : MapRead) (q : Quad), Meets fun s => s.ent n.val e = some x ∧ x.walking = true ∧ x.place = none ∧ x.fail = none ∧ (s.place.frozen.any fun f => f.tract == tractOf x.req.line) = false ∧
      s.cacheHit (tractOf x.req.line) = false ∧ s.walkRead (tractOf x.req.line) rd = some (q, false) :=
  ⟨0, 0, { (Entry.blank .host (req .rdA) 0) with walking := true }, default, 0, 0, { open0 with place := { Place.reset with roots := [(0, 0)] }, slices := [(0, { Slice.init 0 with front := { Front.init with ents := [(0, { (Entry.blank .host (req .rdA) 0) with walking := true })] } })] }, by decide +kernel⟩

theorem test_meets_walk_second : ∃ (n : SliceId) (e : Nat) (x : Entry) (rd : MapRead) (q : Quad), Meets fun s => s.ent n.val e = some x ∧ x.walking = true ∧ x.place = none ∧ x.fail = none ∧ (s.place.frozen.any fun f => f.tract == tractOf x.req.line) = false ∧
      s.cacheHit (tractOf x.req.line) = false ∧ s.walkRead (tractOf x.req.line) rd = some (q, true) :=
  ⟨0, 0, { (Entry.blank .host (req .rdA) 0) with walking := true }, { (default : MapRead) with ue0 := true }, 0, 0, { open0 with place := { Place.reset with roots := [(0, 0)] }, slices := [(0, { Slice.init 0 with front := { Front.init with ents := [(0, { (Entry.blank .host (req .rdA) 0) with walking := true })] } })] }, by decide +kernel⟩

theorem test_meets_walk_bad : ∃ (n : SliceId) (e : Nat) (x : Entry) (rd : MapRead), Meets fun s => s.ent n.val e = some x ∧ x.walking = true ∧ x.place = none ∧ x.fail = none ∧ (s.place.frozen.any fun f => f.tract == tractOf x.req.line) = false ∧
      s.cacheHit (tractOf x.req.line) = false ∧ s.walkRead (tractOf x.req.line) rd = none :=
  ⟨0, 0, { (Entry.blank .host (req .rdA) 0) with walking := true }, default, 0, { open0 with slices := [(0, { Slice.init 0 with front := { Front.init with ents := [(0, { (Entry.blank .host (req .rdA) 0) with walking := true })] } })] }, by decide +kernel⟩

theorem test_meets_walk_response : ∃ (n : SliceId) (e : Nat) (x : Entry) (p : Nat × Nat × Nat) (q : Quad), Meets fun s => s.ent n.val e = some x ∧ x.walking = true ∧ x.place = some p ∧ s.isFrozen (tractOf x.req.line) = false ∧ s.mapEntry (tractOf x.req.line) = some q :=
  ⟨0, 0, { (Entry.blank .host (req .rdA) 0) with walking := true, place := some (0, 9, 0) }, (0, 9, 0), mkEntry 0 0 9 0 1 0 0, 0, { open0 with place := { Place.reset with map := [(0, mkEntry 0 0 9 0 1 0 0)] }, slices := [(0, { Slice.init 0 with front := { Front.init with ents := [(0, { (Entry.blank .host (req .rdA) 0) with walking := true, place := some (0, 9, 0) })] } })] }, by decide +kernel⟩

theorem test_meets_tract_freeze : ∃ (tract : BitVec 32), Meets fun _ => True :=
  ⟨7, 0, up, by decide +kernel⟩

theorem test_meets_thaw_ok : ∃ (tract : BitVec 32) (q : Quad) (f : Freeze), Meets fun s => (s.place.frozen.find? fun f => f.tract == tract.toNat && !f.tried) = some f ∧ s.now ≤ f.since + 1000000 ∧
      (s.twin.st = .paired ∨ f.since + 100000 ≤ s.now) ∧ meOk tract.toNat q = true ∧ s.partOf (tract.toNat * 1024) = some (mePart q) :=
  ⟨7, mkEntry 7 0 9 0 1 0 0, ⟨7, 7168, 0, false, false⟩, 0, { open0 with now := 1000000, place := { Place.reset with frozen := [⟨7, 7168, 0, false, false⟩] } }, by decide +kernel⟩

theorem test_meets_thaw_not : ∃ (tract : BitVec 32) (lineOk : Bool) (f : Freeze), Meets fun s => (s.place.frozen.find? fun f => f.tract == tract.toNat && !f.tried) = some f ∧ s.now ≤ f.since + 1000000 ∧
      (s.twin.st = .paired ∨ f.since + 100000 ≤ s.now) :=
  ⟨7, true, ⟨7, 7168, 0, false, false⟩, 0, { open0 with now := 100000, place := { Place.reset with frozen := [⟨7, 7168, 0, false, false⟩] } }, by decide +kernel⟩

theorem test_meets_frozen_expiry : ∃ (tract : BitVec 32) (f : Freeze), Meets fun s => (s.place.frozen.find? fun f => f.tract == tract.toNat && !f.tried) = some f ∧ f.since + 1000000 ≤ s.now :=
  ⟨7, ⟨7, 7168, 0, false, false⟩, 0, { open0 with now := 1000000, place := { Place.reset with frozen := [⟨7, 7168, 0, false, false⟩] } }, by decide +kernel⟩

theorem test_meets_dg_saved : ∃ (n : SliceId), Meets fun s => s.dirGen.adv.contains n.val = true :=
  ⟨127, 0, { up with dirGen := { up.dirGen with adv := [127] } }, by decide +kernel⟩

theorem test_meets_dg_none : ∃ (n : SliceId), Meets fun s => s.dirGen.adv.contains n.val = false :=
  ⟨0, 0, up, by decide +kernel⟩

theorem test_meets_recall_return : ∃ (n : SliceId) (lines : List RecallLine) (c : Cover), Meets fun s => let s := s.frame
      s.coverOf n.val = some c ∧ c.asked = true ∧ c.recalled = false :=
  ⟨0, [], { (default : Cover) with asked := true }, 0, { up with slices := [(0, { Slice.init 0 with phase := .fenced }), (8, { Slice.init 8 with cover := some { (default : Cover) with asked := true } })] }, by decide +kernel⟩

theorem test_meets_recall_gap : ∃ (n : SliceId) (c : Cover), Meets fun s => s.coverOf n.val = some c ∧ c.since + 50000 ≤ s.now :=
  ⟨0, { (default : Cover) with since := 0 }, 0, { up with now := 50000, slices := [(0, { Slice.init 0 with phase := .fenced }), (8, { Slice.init 8 with cover := some { (default : Cover) with since := 0 } })] }, by decide +kernel⟩

theorem test_meets_replay_list : ∃ (port : IntakeId) (n : SliceId) (c : Cover) (l : List Req), Meets fun s => s.coverOf n.val = some c ∧ c.markers.contains port.val = false ∧
      (sortBy ((s.ip port.val).replayKey n.val) ((s.ip port.val).kept.filter fun k => k.st == .fenced && k.slice == n.val)).map (fun k => k.req) = l :=
  ⟨15, 0, { (default : Cover) with asked := true }, [], 0, { up with slices := [(0, { Slice.init 0 with phase := .fenced }), (8, { Slice.init 8 with cover := some { (default : Cover) with asked := true } })] }, by decide +kernel⟩

theorem test_meets_end_of_replay : ∃ (n : SliceId) (c : Cover), Meets fun s => s.coverOf n.val = some c ∧ c.serving = false ∧ c.dgDone = true ∧ c.recalled = true ∧ 16 ≤ c.markers.length ∧ c.replay ≠ [] :=
  ⟨0, { (default : Cover) with dgDone := true, recalled := true, markers := List.range 16, replay := [req .rdA] }, 0, { up with slices := [(0, { Slice.init 0 with phase := .fenced }), (8, { Slice.init 8 with cover := some { (default : Cover) with dgDone := true, recalled := true, markers := List.range 16, replay := [req .rdA] } })] }, by decide +kernel⟩

theorem test_meets_end_of_replay_none : ∃ (n : SliceId) (c : Cover), Meets fun s => s.coverOf n.val = some c ∧ c.serving = false ∧ c.dgDone = true ∧ c.recalled = true ∧ 16 ≤ c.markers.length ∧ c.replay = [] :=
  ⟨0, { (default : Cover) with dgDone := true, recalled := true, markers := List.range 16 }, 0, { up with slices := [(0, { Slice.init 0 with phase := .fenced }), (8, { Slice.init 8 with cover := some { (default : Cover) with dgDone := true, recalled := true, markers := List.range 16 } })] }, by decide +kernel⟩

theorem test_meets_slice_prepare : ∃ (n : SliceId), Meets fun s => (s.slc (buddy n.val)).phase = .run ∧ (s.slc n.val).phase = .run :=
  ⟨0, 0, up, by decide +kernel⟩

theorem test_meets_slice_prepare_ignored : ∃ (n : SliceId), Meets fun s => (s.slc (buddy n.val)).phase ≠ .run :=
  ⟨0, 0, { up with slices := [(8, { Slice.init 8 with phase := .fenced })] }, by decide +kernel⟩

theorem test_meets_handover_overrun : ∃ (n : SliceId), Meets fun s => (s.slc n.val).phase = .quiesce ∧ (s.slc n.val).handOver = false ∧ (s.slc n.val).handAt + 1000000 ≤ s.now :=
  ⟨0, 0, { up with now := 1000000, slices := [(0, { Slice.init 0 with phase := .quiesce })] }, by decide +kernel⟩

theorem test_meets_enable_instant : ∃ (k : SlotId) (x : Slot), Meets fun s => s.toInstant.due k.val 6 = some x ∧ (State.enableRun 64 (x.param % 64) false s.toInstant).1 = false :=
  ⟨0, ⟨6, 0, true, .armed, 0, 0, 0, .register, none, none⟩, 0, { up with mer := { Mer.reset with slots := [(0, ⟨6, 0, true, .armed, 0, 0, 0, .register, none, none⟩)] } }, by decide +kernel⟩

theorem test_meets_enable_abandoned : ∃ (k : SlotId) (x : Slot), Meets fun s => s.toInstant.due k.val 6 = some x ∧ (State.enableRun 64 (x.param % 64) false s.toInstant).1 = true :=
  ⟨0, ⟨6, 0, true, .armed, 0, 0, 0, .register, none, none⟩, 0, { up with blk := { up.blk with pend := [(0, 2049)] }, parts := [(0, { Part.init with st := .stopped })], mer := { Mer.reset with slots := [(0, ⟨6, 0, true, .armed, 0, 0, 0, .register, none, none⟩)] } }, by decide +kernel⟩

theorem test_meets_watchdog : ∃ (w on : HsUnit) (since : Quad) (k : Nat), Meets fun s => hsSource w = some k ∧ s.hsLate on since.toNat = true :=
  ⟨.meridian, .slice 0, 0, (hsSource .meridian).get (by decide), 0, { up with now := 1000000000 }, by decide +kernel⟩

theorem test_meets_watchdog_not : ∃ (w on : HsUnit) (since : Quad), Meets fun s => s.hsLate on since.toNat = false :=
  ⟨.slice 0, .media 0, 0, 0, up, by decide +kernel⟩

theorem test_meets_slice_fallow : ∃ (n : SliceId), Meets fun s => s.sliceIdle n.val = true ∧ (s.slc n.val).fallow = false ∧ (s.slc n.val).phase ≠ .fenced ∧ (s.stk (stookOf n.val)).fallowEn = true ∧
      (s.slc n.val).busyAt + 100000 ≤ s.now :=
  ⟨0, 0, { up with now := 100000 }, by decide +kernel⟩

theorem test_meets_stook_fallow : ∃ (k : StookId), Meets fun s => (s.stk k.val).fallowEn = true ∧ (s.stk k.val).fallow = false ∧ (s.stk k.val).busyAt + 100000 ≤ s.now ∧
      ((List.range 8).all fun i => (s.slc (8 * k.val + i)).fallow) = true ∧ s.takeoverDuty k.val = false ∧ s.ringTo (0x100000 + 0x10000 * k.val) (0x110000 + 0x10000 * k.val) = false :=
  ⟨0, 0, { up with now := 100000, slices := (List.range 8).map fun n => (n, { Slice.init n with fallow := true }) }, by decide +kernel⟩

theorem test_meets_router_fallow : ∃ (x : SiteId), Meets fun s => s.routerIdle x.val = true :=
  ⟨10, 0, { up with now := 100000 }, by decide +kernel⟩

theorem test_meets_wake_slice : ∃ (n : SliceId), Meets fun _ => True :=
  ⟨0, 0, up, by decide +kernel⟩

theorem test_meets_wake_stook : ∃ (k : StookId), Meets fun _ => True :=
  ⟨0, 0, up, by decide +kernel⟩

theorem test_meets_wake_site : ∃ (x : SiteId), Meets fun _ => True :=
  ⟨47, 0, up, by decide +kernel⟩

theorem test_meets_wake_other : ∃ (w : HsUnit), Meets fun _ => (match w with | .slice _ | .stook _ | .site _ => False | _ => True) :=
  ⟨.intake 3, 0, up, by decide +kernel⟩

theorem test_meets_energy_fall : Meets fun s => s.pwr.energy = true :=
  ⟨0, up, by decide +kernel⟩

theorem test_meets_energy_rise : Meets fun s => s.pwr.energy = false :=
  ⟨0, { up with pwr := { up.pwr with energy := false } }, by decide +kernel⟩

theorem test_meets_grn_ctl : ∃ (n : SliceId) (v : Word), Meets fun s => (s.slc n.val).enable = false ∧ (s.slc n.val).phase ≠ .quiesce ∧ (s.slc n.val).phase ≠ .fenced ∧ (grnCtlOf v.toNat).ok = true :=
  ⟨127, 0x23, 0, up, by decide +kernel⟩

theorem test_meets_grn_ctl_ignored : ∃ (n : SliceId) (v : Word), Meets fun s => (s.slc n.val).enable = true ∨ (s.slc n.val).phase = .quiesce ∨ (s.slc n.val).phase = .fenced ∨ (grnCtlOf v.toNat).ok = false :=
  ⟨0, 0xFF, 0, up, by decide +kernel⟩

theorem test_meets_scratch_read : ∃ (who : ScrWho) (way : Fin 12) (off : BitVec 22) (size : Nat) (bad : List Nat) (k w : Nat), Meets fun s => s.scratchAlien who = none ∧ scratchFits who off.toNat size = true ∧ s.scratchWay who way.val = some k ∧ s.copyRead k off.toNat bad = some w :=
  ⟨.alidade, 0, 0x3FFFC0, 64, [0], 0, 1, 0, { up with slices := (List.range 128).map fun n => (n, { Slice.init n with banks := { Banks.init n with ctl := ⟨3, 12, false⟩ } }) }, by decide +kernel⟩

theorem test_meets_scratch_write : ∃ (who : ScrWho) (way : Fin 12) (off : BitVec 22) (size : Nat) (data : Line) (k : Nat), Meets fun s => s.scratchAlien who = none ∧ scratchFits who off.toNat size = true ∧ s.scratchWay who way.val = some k ∧ s.copiesAt k off.toNat ≠ [] :=
  ⟨.alidade, 0, 0, 64, 7, 0, 0, { up with slices := (List.range 128).map fun n => (n, { Slice.init n with banks := { Banks.init n with ctl := ⟨3, 12, false⟩ } }) }, by decide +kernel⟩

theorem test_meets_scratch_frame : ∃ (who : ScrWho) (way : Fin 12) (off : BitVec 22) (size k a : Nat) (t : Ns) (s : State), (s.tick t).scratchAlien who = none ∧ scratchFits who off.toNat size = true ∧
    (s.tick t).scratchWay who way.val = some k ∧ (s.tick t).copiesAt k off.toNat ≠ [] ∧ ∀ w ∈ (s.tick t).copiesAt k off.toNat, a < scratchKey w off.toNat ∨ scratchKey w off.toNat + size ≤ a :=
  ⟨.alidade, 0, 0x3FFFC0, 64, 0, 2 ^ 23, 0, { up with slices := (List.range 128).map fun n => (n, { Slice.init n with banks := { Banks.init n with ctl := ⟨3, 12, false⟩ } }) }, by decide +kernel⟩

theorem test_meets_scratch_stored : ∃ (who : ScrWho) (way : Fin 12) (off : BitVec 22) (size k w i : Nat) (t : Ns) (s : State), s.scratchCanonical ∧ (s.tick t).scratchAlien who = none ∧
    scratchFits who off.toNat size = true ∧ (s.tick t).scratchWay who way.val = some k ∧ w ∈ (s.tick t).copiesAt k off.toNat ∧ i < size :=
  ⟨.alidade, 0, 0, 64, 0, 1, 63, 0, { up with slices := (List.range 128).map fun n => (n, { Slice.init n with banks := { Banks.init n with ctl := ⟨3, 12, false⟩ } }) }, by decide +kernel⟩

theorem test_meets_scratch_alien : ∃ (who : ScrWho) (way : Fin 12) (off : BitVec 22) (size : Nat) (data : Line) (p : Nat), Meets fun s => s.scratchAlien who = some p :=
  ⟨.bar 0 1023, 0, 0, 4, 0, 0, 0, up, by decide +kernel⟩

theorem test_meets_scratch_alien_read : ∃ (who : ScrWho) (way : Fin 12) (off : BitVec 22) (size : Nat) (bad : List Nat) (p : Nat), Meets fun s => s.scratchAlien who = some p :=
  ⟨.bar 0 1023, 0, 0, 4, [], 0, 0, up, by decide +kernel⟩

theorem test_meets_scratch_odd : ∃ (p : PartId) (q : HostId) (way : Fin 12) (off : BitVec 22) (size : Nat) (data : Line), Meets fun s => s.member q.val p.val = true ∧ scratchFits (.bar p q) off.toNat size = false :=
  ⟨0, 0, 0, 2, 4, 0, 0, open0, by decide +kernel⟩

theorem test_meets_scratch_odd_read : ∃ (p : PartId) (q : HostId) (way : Fin 12) (off : BitVec 22) (size : Nat) (bad : List Nat), Meets fun s => s.member q.val p.val = true ∧ scratchFits (.bar p q) off.toNat size = false :=
  ⟨0, 0, 0, 0, 64, [], 0, open0, by decide +kernel⟩

theorem test_meets_scratch_refused : ∃ (way : Fin 12) (off : BitVec 22) (size : Nat) (bad : List Nat), Meets fun s => s.scratchWay .alidade way.val = some way.val ∧ scratchFits .alidade off.toNat size = true ∧ s.copyRead way.val off.toNat bad = none :=
  ⟨11, 0, 64, [], 0, up, by decide +kernel⟩

theorem test_meets_scratch_abort : ∃ (p : PartId) (q : HostId) (way : Fin 12) (off : BitVec 22) (size : Nat) (bad : List Nat), Meets fun s => s.member q.val p.val = true ∧ scratchFits (.bar p q) off.toNat size = true ∧ (s.part p.val).pairs[way.val]? = none :=
  ⟨0, 0, 0, 0, 4, [], 0, open0, by decide +kernel⟩

theorem test_meets_page_read : ∃ (p : PartId) (q : HostId) (way : Fin 12) (off : BitVec 22) (size : Nat) (bad : List Nat), Meets fun s => s.member q.val p.val = true :=
  ⟨0, 0, 0, 0x20, 8, [], 0, open0, by decide +kernel⟩

theorem test_meets_page_write_refused : ∃ (p : PartId) (q : HostId) (way : Fin 12) (off : BitVec 22) (size : Nat) (data : Line), Meets fun s => s.member q.val p.val = true ∧ (off.toNat < 0x050 ∨ (off.toNat < 0x108 ∧ 0x100 < off.toNat + size ∧ ¬(off.toNat = 0x100 ∧ size = 8))) :=
  ⟨0, 0, 0, 0x104, 4, 0, 0, open0, by decide +kernel⟩

theorem test_meets_page_write_ignored : ∃ (p : PartId) (q : HostId) (way : Fin 12) (off : BitVec 22) (size : Nat) (data : Line), Meets fun s => s.member q.val p.val = true ∧ 0x108 ≤ off.toNat :=
  ⟨0, 0, 0, 0x108, 4, 0, 0, open0, by decide +kernel⟩

theorem test_meets_scratch_unstored : ∃ (way : Fin 12) (off : BitVec 22) (size : Nat) (data : Line), Meets fun s => s.scratchWay .alidade way.val = some way.val ∧ scratchFits .alidade off.toNat size = true ∧ s.copiesAt way.val off.toNat = [] :=
  ⟨11, 0, 64, 0, 0, up, by decide +kernel⟩

theorem test_meets_ref_loss : Meets fun s => s.mer.st = .locked :=
  ⟨0, { up with mer := { Mer.reset with st := .locked } }, by decide +kernel⟩

theorem test_meets_ref_loss_again : Meets fun s => s.mer.st ≠ .locked :=
  ⟨0, up, by decide +kernel⟩

theorem test_meets_word_good : ∃ (count : Quad) (check : Byte) (sub : BitVec 16) (o : Int), Meets fun s => s.mer.st ≠ .unlocked ∧ check = Config.timeCheck count ∧ s.mer.lastCount < count.toNat ∧
      (count.toNat * 65536 : Int) - (s.now * 65536 + s.clk.frac + sub.toNat : Int) = o ∧ o.natAbs ≤ 65536000 :=
  ⟨1000, Config.timeCheck 1000, 0xFFFF, 1000 * 65536 - 0xFFFF, 0, { up with mer := { Mer.reset with st := .locked } }, by decide, rfl, by decide +kernel, by decide +kernel, by decide +kernel⟩

theorem test_meets_word_first : ∃ (count : Quad) (check : Byte) (sub : BitVec 16), Meets fun s => s.mer.st = .unlocked ∧ check = Config.timeCheck count ∧ s.mer.lastCount < count.toNat :=
  ⟨1, Config.timeCheck 1, 0, 0, up, by decide +kernel, rfl, by decide +kernel⟩

theorem test_meets_word_bad : ∃ (count : Quad) (check : Byte) (sub : BitVec 16), Meets fun s => check ≠ Config.timeCheck count ∨ count.toNat ≤ s.mer.lastCount ∨
      (s.mer.st ≠ .unlocked ∧ 65536000 < ((count.toNat * 65536 : Int) - (s.now * 65536 + s.clk.frac + sub.toNat : Int)).natAbs) :=
  ⟨1002, Config.timeCheck 1002, 0, 0, { up with mer := { Mer.reset with st := .locked } }, Or.inr (Or.inr (by decide +kernel))⟩

theorem test_meets_word_missing : Meets fun s => s.mer.lastAt + 1536 ≤ s.now :=
  ⟨0, { up with now := 1536 }, by decide +kernel⟩

theorem test_meets_first_lock : Meets fun s => s.mer.st = .unlocked ∧ 0 < s.mer.good :=
  ⟨0, { up with mer := { Mer.reset with good := 1 } }, by decide +kernel⟩

theorem test_meets_lock_no_word : Meets fun s => s.mer.st = .unlocked ∧ s.mer.good = 0 :=
  ⟨0, up, by decide +kernel⟩

theorem test_meets_lock_timeout : Meets fun s => s.mer.st = .unlocked ∧ s.pwr.goodAt + 1000000000 ≤ s.now :=
  ⟨0, { up with now := 1000000000 }, by decide +kernel⟩

theorem test_meets_holdover_free : Meets fun s => s.mer.st = .holdover ∧ 1000 ≤ s.holdMs ∧ s.mer.noRef ≠ .twinSteered :=
  ⟨0, { up with now := 1000000000, mer := { Mer.reset with st := .holdover } }, by decide +kernel⟩

theorem test_meets_holdover_twin : Meets fun s => s.mer.st = .holdover ∧ 1000 ≤ s.holdMs ∧ s.mer.noRef = .twinSteered :=
  ⟨0, { up with now := 1000000000, mer := { Mer.reset with st := .holdover, steer := true, exch := true, twinLock := true } }, by decide +kernel⟩

theorem test_meets_exch_valid : ∃ (x : TimeExch), Meets fun s => s.twin.linkUp = true ∧ s.twin.st ≠ .unpaired ∧ x.valid = true :=
  ⟨{ (default : TimeExch) with valid := true }, 0, { up with twin := { Twin.reset with linkUp := true, st := .paired } }, by decide +kernel⟩

theorem test_meets_exch_bad : ∃ (x : TimeExch), Meets fun s => s.twin.linkUp = true ∧ s.twin.st ≠ .unpaired ∧ x.valid = false :=
  ⟨default, 0, { up with twin := { Twin.reset with linkUp := true, st := .paired } }, by decide +kernel⟩

theorem test_meets_exch_down : ∃ (x : TimeExch), Meets fun s => s.twin.linkUp = false ∨ s.twin.st = .unpaired :=
  ⟨default, 0, up, by decide +kernel⟩

theorem test_meets_exch_invalid : Meets fun s => s.mer.exchBad < 15 ∧ s.twin.linkUp = true ∧ s.twin.st ≠ .unpaired :=
  ⟨0, { up with mer := { Mer.reset with exchBad := 14 }, twin := { Twin.reset with linkUp := true, st := .paired } }, by decide +kernel⟩

theorem test_meets_exch_invalid_down : Meets fun s => s.mer.exchBad < 15 ∧ (s.twin.linkUp = false ∨ s.twin.st = .unpaired) :=
  ⟨0, { up with mer := { Mer.reset with exchBad := 14 } }, by decide +kernel⟩

theorem test_meets_exch_ends : Meets fun s => 15 ≤ s.mer.exchBad ∧ s.mer.exch = true ∧ s.twin.linkUp = false ∧ (s.mer.st ≠ .twinSteered ∨ s.holdMs < 1000) :=
  ⟨0, { up with mer := { Mer.reset with exchBad := 15, exch := true } }, by decide +kernel⟩

theorem test_meets_exch_ends_free : Meets fun s => 15 ≤ s.mer.exchBad ∧ s.mer.exch = true ∧ s.mer.st = .twinSteered ∧ 1000 ≤ s.holdMs :=
  ⟨0, { up with now := 1000000000, mer := { Mer.reset with st := .twinSteered, exchBad := 15, exch := true }, twin := { Twin.reset with linkUp := true, st := .paired } }, by decide +kernel⟩

theorem test_meets_notice : ∃ (x : DomNotice), Meets fun s => s.mer.member = true ∧ s.mer.root = false ∧ x.ok = true ∧ s.mer.domainAble = true :=
  ⟨{ (default : DomNotice) with ok := true, sdom := 80 }, 0, { up with mer := { Mer.reset with st := .locked, member := true } }, by decide +kernel⟩

theorem test_meets_notice_refused : ∃ (x : DomNotice), Meets fun s => s.mer.member = true ∧ s.mer.root = false ∧ (x.ok = false ∨ s.mer.domainAble = false) :=
  ⟨default, 0, { up with mer := { Mer.reset with member := true } }, by decide +kernel⟩

theorem test_meets_notice_root : ∃ (x : DomNotice), Meets fun s => s.mer.member = true ∧ s.mer.root = true :=
  ⟨default, 0, { up with mer := { Mer.reset with member := true, root := true } }, by decide +kernel⟩

theorem test_meets_notice_late : Meets fun s => s.mer.member = true ∧ s.mer.noticeLate = false ∧ s.mer.noticeAt + 1000000 ≤ s.now :=
  ⟨0, { up with now := 1000000, mer := { Mer.reset with member := true } }, by decide +kernel⟩

theorem test_meets_notice_skew : ∃ s : State, s.mer.noticeLate = true :=
  ⟨{ up with mer := { Mer.reset with noticeLate := true } }, rfl⟩

theorem test_meets_dom_take : ∃ (key : Fin 512) (kind : BitVec 4) (param : BitVec 16) (time : Quad), Meets fun s => s.mer.root = true :=
  ⟨0x35, 1, 100, 1000000, 0, { up with mer := { Mer.reset with root := true, member := true } }, by decide +kernel⟩

theorem test_meets_dom_arm : ∃ (key : Fin 512) (kind : BitVec 4) (param : BitVec 16) (time : Quad) (j : Nat), Meets fun s => s.keySlot key.val = none ∧ s.idleSlot (key.val % 16) = some j ∧ s.armCheck kind.toNat 2 param.toNat time.toNat 10000 = none ∧ kind.toNat ≠ 2 :=
  ⟨0x35, 1, 100, 1000000, 5, 0, { up with mer := { Mer.reset with st := .locked, member := true, domOk := true, next := 100000, len := 100 } }, by decide +kernel⟩

theorem test_meets_dom_arm_plate : ∃ (key : Fin 512) (kind : BitVec 4) (param : BitVec 16) (time : Quad) (j : Nat), Meets fun s => s.keySlot key.val = none ∧ s.idleSlot (key.val % 16) = some j ∧ s.armCheck kind.toNat 2 param.toNat time.toNat 10000 = none ∧ kind.toNat = 2 :=
  ⟨0x35, 2, 512, 1000000, 5, 0, { up with mer := { Mer.reset with st := .locked, member := true, domOk := true, next := 100000, len := 100 } }, by decide +kernel⟩

theorem test_meets_dom_stands : ∃ (key : Fin 512) (kind : BitVec 4) (param : BitVec 16) (time : Quad) (j : Nat), Meets fun s => s.keySlot key.val = some j ∧ s.twin.st = .paired :=
  ⟨0x35, 8, 0, 50000, 0, 0, { { up with mer := { Mer.reset with slots := [(0, ⟨8, 2, true, .armed, 0, 0, 50000, .peer, none, some 0x35⟩)] } } with twin := { Twin.reset with st := .paired } }, by decide +kernel⟩

theorem test_meets_dom_refused : ∃ (key : Fin 512) (kind : BitVec 4) (param : BitVec 16) (time : Quad), Meets fun s => s.keySlot key.val = none ∧ (s.idleSlot (key.val % 16) = none ∨ (s.armCheck kind.toNat 2 param.toNat time.toNat 10000).isSome = true) :=
  ⟨0x35, 1, 100, 1, 0, up, by decide +kernel⟩

theorem test_meets_dom_confirm : ∃ (key : Fin 512) (j : Nat), Meets fun s => s.keySlot key.val = some j ∧ (s.slot j).st = .armed ∧ (s.confirmSlot j).twin.st = .paired :=
  ⟨0x35, 0, 0, { { up with mer := { Mer.reset with slots := [(0, ⟨8, 2, true, .armed, 0, 0, 50000, .peer, none, some 0x35⟩)] } } with twin := { Twin.reset with st := .paired } }, by decide +kernel⟩

theorem test_meets_dom_confirm_solo : ∃ (key : Fin 512) (j : Nat), Meets fun s => s.keySlot key.val = some j ∧ (s.slot j).st = .armed ∧ (s.confirmSlot j).twin.st ≠ .paired :=
  ⟨0x35, 0, 0, { up with mer := { Mer.reset with slots := [(0, ⟨8, 2, true, .armed, 0, 0, 50000, .peer, none, some 0x35⟩)] } }, by decide +kernel⟩

theorem test_meets_dom_cancel : ∃ (key : Fin 512) (j : Nat) (a : Bool), Meets fun s => s.mer.root = false ∧ s.keySlot key.val = some j ∧ s.twin.st ≠ .paired :=
  ⟨0x35, 0, true, 0, { up with mer := { Mer.reset with slots := [(0, ⟨8, 2, true, .armed, 0, 0, 50000, .peer, none, some 0x35⟩)] } }, by decide +kernel⟩

theorem test_meets_dom_cancel_pair : ∃ (key : Fin 512) (j : Nat) (a : Bool), Meets fun s => s.mer.root = false ∧ s.keySlot key.val = some j ∧ s.twin.st = .paired :=
  ⟨0x35, 0, false, 0, { { up with mer := { Mer.reset with slots := [(0, ⟨8, 2, true, .armed, 0, 0, 50000, .peer, none, some 0x35⟩)] } } with twin := { Twin.reset with st := .paired } }, by decide +kernel⟩

theorem test_meets_dom_cancel_root : ∃ (key : Fin 512) (a : Bool), Meets fun s => s.mer.root = true :=
  ⟨0x35, true, 0, { up with mer := { Mer.reset with root := true, member := true } }, by decide +kernel⟩

theorem test_meets_arm_block : ∃ (k : SlotId) (x : Slot), Meets fun s => s.slot k.val = x ∧ x.arm = false ∧ x.scope = 0 ∧ s.armCheck x.kind x.scope x.param x.time 10000 = none :=
  ⟨15, ⟨3, 0, false, .idle, 0, 0, 100000, .register, none, none⟩, 0, { up with mer := { Mer.reset with slots := [(15, ⟨3, 0, false, .idle, 0, 0, 100000, .register, none, none⟩)] } }, by decide +kernel⟩

theorem test_meets_arm_twin : ∃ (k : SlotId) (x : Slot), Meets fun s => s.slot k.val = x ∧ x.arm = false ∧ x.scope = 1 ∧ s.armCheck x.kind x.scope x.param x.time 50000 = none :=
  ⟨0, ⟨3, 1, false, .idle, 0, 0, 100000, .register, none, none⟩, 0, { up with mer := { Mer.reset with exch := true, slots := [(0, ⟨3, 1, false, .idle, 0, 0, 100000, .register, none, none⟩)] }, twin := { Twin.reset with st := .paired } }, by decide +kernel⟩

theorem test_meets_arm_domain : ∃ (k : SlotId) (x : Slot), Meets fun s => s.slot k.val = x ∧ x.arm = false ∧ x.scope = 2 ∧ s.armCheck x.kind x.scope x.param x.time 500000 = none :=
  ⟨0, ⟨1, 2, false, .idle, 0, 100, 1000000, .register, none, none⟩, 0, { up with mer := { Mer.reset with st := .locked, member := true, domOk := true, next := 100000, slots := [(0, ⟨1, 2, false, .idle, 0, 100, 1000000, .register, none, none⟩)] } }, by decide +kernel⟩

theorem test_meets_arm_rejected : ∃ (k : SlotId) (x : Slot) (r : Nat × Nat), Meets fun s => s.slot k.val = x ∧ x.arm = false ∧ s.armCheck x.kind x.scope x.param x.time (leadNs x.scope) = some r :=
  ⟨0, ⟨0, 0, false, .idle, 0, 0, 0, .register, none, none⟩, (1, 4), 0, up, by decide +kernel⟩

theorem test_meets_arm_again : ∃ (k : SlotId), Meets fun s => (s.slot k.val).arm = true :=
  ⟨0, 0, { up with mer := { Mer.reset with slots := [(0, ⟨7, 1, true, .armed, 0, 0, 100, .register, none, none⟩)] } }, by decide +kernel⟩

theorem test_meets_disarm_ended : ∃ (k : SlotId), Meets fun s => (s.slot k.val).ended = true :=
  ⟨0, 0, { up with mer := { Mer.reset with slots := [(0, { (⟨7, 1, true, .armed, 0, 0, 100, .register, none, none⟩ : Slot) with st := .done })] } }, by decide +kernel⟩

theorem test_meets_disarm_armed : ∃ (k : SlotId), Meets fun s => (s.slot k.val).arm = true ∧ (s.slot k.val).ended = false :=
  ⟨0, 0, { up with mer := { Mer.reset with slots := [(0, ⟨7, 1, true, .armed, 0, 0, 100, .register, none, none⟩)] } }, by decide +kernel⟩

theorem test_meets_slot_receive : ∃ (k : SlotId) (kind : BitVec 4) (scope : BitVec 2) (param : BitVec 16) (time : Quad) (key : Option (Fin 512)) (j : Nat), Meets fun s => let s := s.frame
      (scope.toNat = 2 → (key.map Fin.val).bind s.keySlot = none) ∧ s.idleSlot k.val = some j ∧
      s.armCheck kind.toNat scope.toNat param.toNat time.toNat 10000 = none :=
  ⟨0, 3, 1, 0, 100000, none, 0, 0, { up with mer := { Mer.reset with st := .locked, exch := true }, twin := { Twin.reset with st := .paired } }, by decide +kernel⟩

theorem test_meets_slot_refused : ∃ (k : SlotId) (kind : BitVec 4) (scope : BitVec 2) (param : BitVec 16) (time : Quad) (key : Option (Fin 512)), Meets fun s => let s := s.frame
      (scope.toNat = 2 → (key.map Fin.val).bind s.keySlot = none) ∧
      (s.idleSlot k.val = none ∨ (s.armCheck kind.toNat scope.toNat param.toNat time.toNat 10000).isSome = true) :=
  ⟨0, 3, 0, 0, 1, none, 0, { up with mer := { Mer.reset with st := .locked } }, by decide +kernel⟩

theorem test_meets_slot_stands : ∃ (k : SlotId) (kind : BitVec 4) (param : BitVec 16) (time : Quad) (key : Fin 512) (j : Nat), Meets fun s => let s := s.frame
      s.keySlot key.val = some j :=
  ⟨3, 8, 0, 50000, 0x35, 0, 0, { up with mer := { Mer.reset with slots := [(0, ⟨8, 2, true, .armed, 0, 0, 50000, .peer, none, some 0x35⟩)] } }, by decide +kernel⟩

theorem test_meets_slot_ack : ∃ (k : SlotId) (x : Slot), Meets fun s => let s := s.frame
      s.slot k.val = x ∧ x.arm = true ∧ x.st = .armed ∧ x.scope = 1 :=
  ⟨0, ⟨7, 1, true, .armed, 0, 0, 100, .register, none, none⟩, 0, { up with mer := { Mer.reset with slots := [(0, ⟨7, 1, true, .armed, 0, 0, 100, .register, none, none⟩)] } }, by decide +kernel⟩

theorem test_meets_slot_nack : ∃ (k : SlotId) (x : Slot), Meets fun s => let s := s.frame
      s.slot k.val = x ∧ x.arm = true ∧ x.st = .armed ∧ x.scope = 1 :=
  ⟨0, ⟨7, 1, true, .armed, 0, 0, 100, .register, none, none⟩, 0, { up with mer := { Mer.reset with slots := [(0, ⟨7, 1, true, .armed, 0, 0, 100, .register, none, none⟩)] } }, by decide +kernel⟩

theorem test_meets_slot_confirmed : ∃ (k : SlotId) (j : Nat), Meets fun s => let s := s.frame
      s.peerSlot k.val = some j ∧ (s.slot j).st = .armed :=
  ⟨3, 0, 0, { up with mer := { Mer.reset with slots := [(0, { (⟨7, 1, true, .armed, 0, 0, 100, .register, none, none⟩ : Slot) with peer := some 3 })] } }, by decide +kernel⟩

theorem test_meets_slot_ack_domain : ∃ (k : SlotId) (x : Slot), Meets fun s => let s := s.frame
      s.slot k.val = x ∧ x.arm = true ∧ x.st = .armed ∧ x.scope = 2 :=
  ⟨0, ⟨8, 2, true, .armed, 0, 0, 50000, .peer, none, some 0x35⟩, 0, { up with mer := { Mer.reset with slots := [(0, ⟨8, 2, true, .armed, 0, 0, 50000, .peer, none, some 0x35⟩)] } }, by decide +kernel⟩

theorem test_meets_slot_nack_domain : ∃ (k : SlotId) (x : Slot), Meets fun s => let s := s.frame
      s.slot k.val = x ∧ x.arm = true ∧ x.st = .armed ∧ x.scope = 2 :=
  ⟨0, ⟨8, 2, true, .armed, 0, 0, 50000, .peer, none, some 0x35⟩, 0, { up with mer := { Mer.reset with slots := [(0, ⟨8, 2, true, .armed, 0, 0, 50000, .peer, none, some 0x35⟩)] } }, by decide +kernel⟩

theorem test_meets_slot_deadline : ∃ (k : SlotId) (x : Slot), Meets fun s => s.slot k.val = x ∧ x.arm = true ∧ x.st = .armed ∧ x.scope = 1 ∧ x.time ≤ s.now + 10000 :=
  ⟨0, ⟨7, 1, true, .armed, 0, 0, 100, .register, none, none⟩, 0, { up with mer := { Mer.reset with slots := [(0, ⟨7, 1, true, .armed, 0, 0, 100, .register, none, none⟩)] } }, by decide +kernel⟩

theorem test_meets_slot_deadline_dom : ∃ (k : SlotId) (x : Slot), Meets fun s => s.slot k.val = x ∧ x.arm = true ∧ x.st = .armed ∧ 1 < x.scope ∧ x.time ≤ s.now + 50000 :=
  ⟨0, ⟨8, 2, true, .armed, 0, 0, 50000, .peer, none, some 0x35⟩, 0, { up with mer := { Mer.reset with slots := [(0, ⟨8, 2, true, .armed, 0, 0, 50000, .peer, none, some 0x35⟩)] } }, by decide +kernel⟩

theorem test_meets_unconfirmed_slot : ∃ (s : State) (k : Nat), (s.slot k).scope = 1 ∧ s.waitOf (.slot k) = none :=
  ⟨{ up with mer := { Mer.reset with slots := [(0, ⟨7, 1, true, .armed, 0, 0, 100, .register, none, none⟩)] } }, 0, by decide +kernel⟩

theorem test_meets_cancel_sent : ∃ (k : SlotId) (j : Nat) (a : Bool), Meets fun s => s.frame.peerSlot k.val = some j :=
  ⟨3, 0, true, 0, { up with mer := { Mer.reset with slots := [(0, { (⟨7, 1, true, .armed, 0, 0, 100, .register, none, none⟩ : Slot) with peer := some 3 })] } }, by decide +kernel⟩

theorem test_meets_cancel_own : ∃ (k : SlotId) (a : Bool), Meets fun s => (s.frame.slot k.val).arm = true ∧ (s.frame.slot k.val).ended = false :=
  ⟨0, false, 0, { up with mer := { Mer.reset with slots := [(0, ⟨7, 1, true, .armed, 0, 0, 100, .register, none, none⟩)] } }, by decide +kernel⟩

theorem test_meets_boundary : Meets fun _ => True :=
  ⟨0, up, by decide +kernel⟩

theorem test_meets_epoch_len : ∃ (k : SlotId) (x : Slot), Meets fun s => s.toInstant.due k.val 1 = some x :=
  ⟨0, ⟨1, 0, true, .armed, 0, 200, 0, .register, none, none⟩, 0, { up with mer := { Mer.reset with slots := [(0, ⟨1, 0, true, .armed, 0, 200, 0, .register, none, none⟩)] } }, by decide +kernel⟩

theorem test_meets_seal_slice : ∃ (n : SliceId), Meets fun _ => True :=
  ⟨0, 0, up, by decide +kernel⟩

theorem test_meets_seal_stook : ∃ (k : StookId), Meets fun s => s.twin.st ≠ .paired ∧ s.mer.member = false :=
  ⟨0, 0, up, by decide +kernel⟩

theorem test_meets_seal_stook_paired : ∃ (k : StookId), Meets fun s => s.twin.st = .paired ∧ s.mer.member = false :=
  ⟨0, 0, { up with twin := { Twin.reset with st := .paired } }, by decide +kernel⟩

theorem test_meets_seal_stook_member : ∃ (k : StookId), Meets fun s => s.mer.member = true :=
  ⟨0, 0, { up with mer := { Mer.reset with member := true } }, by decide +kernel⟩

theorem test_meets_seal_slices : ∃ (n : SliceId) (id : Nat) (b : Barrier), Meets fun s => s.bar? id = some b ∧ s.partServed n.val b = true :=
  ⟨0, 0, { (default : Barrier) with scope := .partition, slices := [0] }, 0, { open0 with intakes := [(0, { Intake.init with bars := [{ (default : Barrier) with scope := .partition, slices := [0] }] })] }, by decide +kernel⟩

theorem test_meets_seal_waits : ∃ (n : SliceId) (id : Nat), Meets fun s => ∀ b, s.bar? id = some b → s.partServed n.val b = false :=
  ⟨0, 0, 0, up, by decide +kernel⟩

theorem test_meets_seal_twin : ∃ (id : Nat), Meets fun _ => True :=
  ⟨0, 0, up, by decide +kernel⟩

theorem test_meets_seal_root : ∃ (b : Fin 32) (e d : Nat) (able : Bool), Meets fun s => s.mer.root = true :=
  ⟨0, 4, 40, true, 0, { up with mer := { Mer.reset with root := true } }, by decide +kernel⟩

theorem test_meets_slot_pair : ∃ (b : Fin 32) (key : Fin 512) (ok : Bool) (d : Nat), Meets fun s => s.mer.root = true :=
  ⟨0, 0x35, true, 40, 0, { up with mer := { Mer.reset with root := true } }, by decide +kernel⟩

theorem test_meets_slot_effect : ∃ (b : Fin 32) (key : Fin 512) (d : Nat), Meets fun s => s.mer.root = true :=
  ⟨0, 0x35, 40, 0, { up with mer := { Mer.reset with root := true } }, by decide +kernel⟩

theorem test_meets_pair_seal : ∃ (e : Quad), Meets fun _ => True :=
  ⟨7, 0, up, by decide +kernel⟩

theorem test_meets_persist : Meets fun _ => True :=
  ⟨0, up, by decide +kernel⟩

theorem test_meets_plate_instant : ∃ (k : SlotId) (x : Slot), Meets fun s => s.toInstant.due k.val 2 = some x :=
  ⟨0, ⟨2, 0, true, .armed, 0, 0, 0, .register, none, none⟩, 0, { up with mer := { Mer.reset with slots := [(0, ⟨2, 0, true, .armed, 0, 0, 0, .register, none, none⟩)] } }, by decide +kernel⟩

theorem test_meets_snapshot_instant : ∃ (k : SlotId) (x : Slot), Meets fun s => s.toInstant.due k.val 3 = some x ∧ x.param % 2 = 0 :=
  ⟨0, ⟨3, 0, true, .armed, 0, 0, 0, .register, none, none⟩, 0, { up with mer := { Mer.reset with slots := [(0, ⟨3, 0, true, .armed, 0, 0, 0, .register, none, none⟩)] } }, by decide +kernel⟩

theorem test_meets_snapshot_clear : ∃ (k : SlotId) (x : Slot), Meets fun s => s.toInstant.due k.val 3 = some x ∧ x.param % 2 = 1 :=
  ⟨0, ⟨3, 0, true, .armed, 0, 1, 0, .register, none, none⟩, 0, { up with mer := { Mer.reset with slots := [(0, ⟨3, 0, true, .armed, 0, 1, 0, .register, none, none⟩)] } }, by decide +kernel⟩

theorem test_meets_mode_instant : ∃ (k : SlotId) (x : Slot), Meets fun s => s.toInstant.due k.val 4 = some x ∧ (s.toInstant.pwr.step ≠ 10 ∨ s.toInstant.pwr.fail ≠ none) :=
  ⟨0, ⟨4, 0, true, .armed, 0, 0, 0, .register, none, none⟩, 0, { up with mer := { Mer.reset with slots := [(0, ⟨4, 0, true, .armed, 0, 0, 0, .register, none, none⟩)] } }, by decide +kernel⟩

theorem test_meets_mode_start : ∃ (k : SlotId) (x : Slot), Meets fun s => s.toInstant.due k.val 4 = some x ∧ s.toInstant.pwr.step = 10 ∧ s.toInstant.pwr.fail = none :=
  ⟨0, ⟨4, 0, true, .armed, 0, 0, 0, .register, none, none⟩, 0, { up with pwr := { up.pwr with step := 10 }, mer := { Mer.reset with slots := [(0, ⟨4, 0, true, .armed, 0, 0, 0, .register, none, none⟩)] } }, by decide +kernel⟩

theorem test_meets_commit_instant : ∃ (k : SlotId) (x : Slot), Meets fun s => s.toInstant.due k.val 5 = some x :=
  ⟨0, ⟨5, 0, true, .armed, 0, 0, 0, .register, none, none⟩, 0, { up with mer := { Mer.reset with slots := [(0, ⟨5, 0, true, .armed, 0, 0, 0, .register, none, none⟩)] } }, by decide +kernel⟩

theorem test_meets_role_instant : ∃ (k : SlotId) (x : Slot), Meets fun s => s.toInstant.due k.val 7 = some x ∧ s.toInstant.twin.st = .paired ∧ bitN s.toInstant.twin.roles.toNat (x.param % 64) = false :=
  ⟨0, ⟨7, 0, true, .armed, 0, 0, 0, .register, none, none⟩, 0, { up with mer := { Mer.reset with slots := [(0, ⟨7, 0, true, .armed, 0, 0, 0, .register, none, none⟩)] }, twin := { Twin.reset with st := .paired } }, by decide +kernel⟩

theorem test_meets_role_instant_old : ∃ (k : SlotId) (x : Slot), Meets fun s => s.toInstant.due k.val 7 = some x ∧ s.toInstant.twin.st = .paired ∧ bitN s.toInstant.twin.roles.toNat (x.param % 64) = true :=
  ⟨0, ⟨7, 0, true, .armed, 0, 0, 0, .register, none, none⟩, 0, { up with mer := { Mer.reset with slots := [(0, ⟨7, 0, true, .armed, 0, 0, 0, .register, none, none⟩)] }, twin := { Twin.reset with st := .paired, roles := 1 } }, by decide +kernel⟩

theorem test_meets_role_instant_solo : ∃ (k : SlotId) (x : Slot), Meets fun s => s.toInstant.due k.val 7 = some x ∧ s.toInstant.twin.st ≠ .paired :=
  ⟨0, ⟨7, 0, true, .armed, 0, 0, 0, .register, none, none⟩, 0, { up with mer := { Mer.reset with slots := [(0, ⟨7, 0, true, .armed, 0, 0, 0, .register, none, none⟩)] } }, by decide +kernel⟩

theorem test_meets_cap_reply : ∃ (k : SlotId) (x : Slot) (mb : Nat), Meets fun s => s.toInstant.due k.val 8 = some x ∧ (s.toInstant.mp (x.param % 32)).draining = true ∧ s.toInstant.bgOf (fun b => b == .capRemove (x.param % 32)) = some mb :=
  ⟨0, ⟨8, 0, true, .armed, 0, 0, 0, .register, none, none⟩, 64, 0, { up with mer := { Mer.reset with slots := [(0, ⟨8, 0, true, .armed, 0, 0, 0, .register, none, none⟩)] }, mports := [(0, { MPort.init with draining := true })], mbx := [(64, { MBox.init with bgRun := true, bg := some (.capRemove 0) })] }, by decide +kernel⟩

theorem test_meets_cap_instant : ∃ (k : SlotId) (x : Slot), Meets fun s => s.toInstant.due k.val 8 = some x ∧ (s.toInstant.mp (x.param % 32)).draining = true ∧ s.toInstant.bgOf (fun b => b == .capRemove (x.param % 32)) = none :=
  ⟨0, ⟨8, 0, true, .armed, 0, 0, 0, .register, none, none⟩, 0, { up with mer := { Mer.reset with slots := [(0, ⟨8, 0, true, .armed, 0, 0, 0, .register, none, none⟩)] }, mports := [(0, { MPort.init with draining := true })] }, by decide +kernel⟩

theorem test_meets_cap_add_instant : ∃ (k : SlotId) (x : Slot), Meets fun s => s.toInstant.due k.val 8 = some x ∧ (s.toInstant.mp (x.param % 32)).draining = false ∧ (s.toInstant.mp (x.param % 32)).mapPort = false
        ∧ (s.toInstant.mp (x.param % 32)).present = false ∧ (s.toInstant.mp (x.param % 32)).enable = true :=
  ⟨0, ⟨8, 0, true, .armed, 0, 0, 0, .register, none, none⟩, 0, { up with mer := { Mer.reset with slots := [(0, ⟨8, 0, true, .armed, 0, 0, 0, .register, none, none⟩)] }, mports := [(0, { MPort.init with draining := false, mapPort := false, present := false, enable := true })] }, by decide +kernel⟩

theorem test_meets_cap_map_instant : ∃ (k : SlotId) (x : Slot), Meets fun s => s.toInstant.due k.val 8 = some x ∧ (s.toInstant.mp (x.param % 32)).draining = false ∧ (s.toInstant.mp (x.param % 32)).mapPort = true
        ∧ (s.toInstant.mp (x.param % 32)).present = false ∧ (s.toInstant.mp (x.param % 32)).enable = true
        ∧ (s.toInstant.mp (x.param % 32 ^^^ 1)).present = true :=
  ⟨0, ⟨8, 0, true, .armed, 0, 0, 0, .register, none, none⟩, 0, { up with mer := { Mer.reset with slots := [(0, ⟨8, 0, true, .armed, 0, 0, 0, .register, none, none⟩)] }, mports := [(0, { MPort.init with draining := false, mapPort := true, present := false, enable := true }), (1, { MPort.init with present := true })] }, by decide +kernel⟩

theorem test_meets_cap_none : ∃ (k : SlotId) (x : Slot), Meets fun s => s.toInstant.due k.val 8 = some x ∧ (s.toInstant.mp (x.param % 32)).draining = false ∧ (s.toInstant.mp (x.param % 32)).mapPort = false
        ∧ ((s.toInstant.mp (x.param % 32)).present = true ∨ (s.toInstant.mp (x.param % 32)).enable = false) :=
  ⟨0, ⟨8, 0, true, .armed, 0, 0, 0, .register, none, none⟩, 0, { up with mer := { Mer.reset with slots := [(0, ⟨8, 0, true, .armed, 0, 0, 0, .register, none, none⟩)] }, mports := [(0, { MPort.init with draining := false, mapPort := false, present := true, enable := true })] }, by decide +kernel⟩

theorem test_meets_pair_instant : ∃ (k : SlotId) (x : Slot), Meets fun s => s.toInstant.due k.val 9 = some x ∧ (s.toInstant.twin.st = .resyncSource ∨ s.toInstant.twin.st = .resyncTarget) :=
  ⟨0, ⟨9, 0, true, .armed, 0, 0, 0, .register, none, none⟩, 0, { up with mer := { Mer.reset with slots := [(0, ⟨9, 0, true, .armed, 0, 0, 0, .register, none, none⟩)] }, twin := { Twin.reset with st := .resyncTarget } }, by decide +kernel⟩

theorem test_meets_pair_none : ∃ (k : SlotId) (x : Slot), Meets fun s => s.toInstant.due k.val 9 = some x ∧ s.toInstant.twin.st ≠ .resyncSource ∧ s.toInstant.twin.st ≠ .resyncTarget :=
  ⟨0, ⟨9, 0, true, .armed, 0, 0, 0, .register, none, none⟩, 0, { up with mer := { Mer.reset with slots := [(0, ⟨9, 0, true, .armed, 0, 0, 0, .register, none, none⟩)] } }, by decide +kernel⟩

theorem test_meets_not_due_2 : ∃ (k : SlotId), Meets fun s => s.toInstant.due k.val 2 = none :=
  ⟨0, 0, up, by decide +kernel⟩

theorem test_meets_not_due_3 : ∃ (k : SlotId), Meets fun s => s.toInstant.due k.val 3 = none :=
  ⟨0, 0, up, by decide +kernel⟩

theorem test_meets_not_due_4 : ∃ (k : SlotId), Meets fun s => s.toInstant.due k.val 4 = none :=
  ⟨0, 0, up, by decide +kernel⟩

theorem test_meets_not_due_5 : ∃ (k : SlotId), Meets fun s => s.toInstant.due k.val 5 = none :=
  ⟨0, 0, up, by decide +kernel⟩

theorem test_meets_not_due_7 : ∃ (k : SlotId), Meets fun s => s.toInstant.due k.val 7 = none :=
  ⟨0, 0, up, by decide +kernel⟩

theorem test_meets_not_due_8 : ∃ (k : SlotId), Meets fun s => s.toInstant.due k.val 8 = none :=
  ⟨0, 0, up, by decide +kernel⟩

theorem test_meets_not_due_9 : ∃ (k : SlotId), Meets fun s => s.toInstant.due k.val 9 = none :=
  ⟨0, 0, up, by decide +kernel⟩

theorem test_meets_bar_ignored_0 : ∃ (p : HostId) (part : PartId) (word : Quad) (al : Bool), Meets fun s => (s.part part.val).st ≠ .enabled ∨ s.member p.val part.val = false ∨ al = false :=
  ⟨0, 0, 0, false, 0, up, by decide +kernel⟩

theorem test_meets_bar_stopped_0 : ∃ (p : HostId) (part : PartId) (word : Quad), Meets fun s => s.win.failsafe = true ∧ (s.part part.val).st = .enabled ∧ s.member p.val part.val = true :=
  ⟨0, 0, 0, 0, { open0 with win := { open0.win with failsafe := true } }, by decide +kernel⟩

theorem test_meets_bar_slot_0 : ∃ (p : HostId) (part : PartId) (word : Quad), Meets fun s => s.win.failsafe = false ∧ (s.part part.val).st = .enabled ∧ s.member p.val part.val = true
        ∧ ((s.part part.val).ticketSlots ≤ fieldN (putField word 32 2 0).toNat 34 10 ∨ fieldN (putField word 32 2 0).toNat 0 32 = 0) :=
  ⟨0, 0, 0, 0, open0, by decide +kernel⟩

theorem test_meets_bar_place_0 : ∃ (p : HostId) (part : PartId) (word : Quad), Meets fun s => s.win.failsafe = false ∧ (s.part part.val).st = .enabled ∧ s.member p.val part.val = true
        ∧ fieldN (putField word 32 2 0).toNat 34 10 < (s.part part.val).ticketSlots ∧ fieldN (putField word 32 2 0).toNat 0 32 ≠ 0
        ∧ s.barrierWhy p.val (putField word 32 2 0) ≠ 0 ∧ 8 ≤ (s.ip (s.hp p.val).intake).refusals p.val :=
  ⟨0, 0, 1 + 2 ^ 44, 0, { { open0 with parts := [(0, { Part.init with st := .enabled, ticketSlots := 4 })] } with intakes := [(0, { Intake.init with bars := List.replicate 8 { (default : Barrier) with refused := true, host := 0 } })] }, by decide +kernel⟩

theorem test_meets_bar_enter_0 : ∃ (p : HostId) (part : PartId) (word : Quad), Meets fun s => s.win.failsafe = false ∧ (s.part part.val).st = .enabled ∧ s.member p.val part.val = true
        ∧ fieldN (putField word 32 2 0).toNat 34 10 < (s.part part.val).ticketSlots ∧ fieldN (putField word 32 2 0).toNat 0 32 ≠ 0
        ∧ (s.barrierWhy p.val (putField word 32 2 0) = 0 ∨ (s.ip (s.hp p.val).intake).refusals p.val < 8) :=
  ⟨0, 0, 1, 0, { open0 with parts := [(0, { Part.init with st := .enabled, ticketSlots := 4 })] }, by decide +kernel⟩

theorem test_meets_bar_ignored_1 : ∃ (p : HostId) (part : PartId) (word : Quad) (al : Bool), Meets fun s => (s.part part.val).st ≠ .enabled ∨ s.member p.val part.val = false ∨ al = false :=
  ⟨0, 0, 0, false, 0, up, by decide +kernel⟩

theorem test_meets_bar_stopped_1 : ∃ (p : HostId) (part : PartId) (word : Quad), Meets fun s => s.win.failsafe = true ∧ (s.part part.val).st = .enabled ∧ s.member p.val part.val = true :=
  ⟨0, 0, 0, 0, { open0 with win := { open0.win with failsafe := true } }, by decide +kernel⟩

theorem test_meets_bar_slot_1 : ∃ (p : HostId) (part : PartId) (word : Quad), Meets fun s => s.win.failsafe = false ∧ (s.part part.val).st = .enabled ∧ s.member p.val part.val = true
        ∧ ((s.part part.val).ticketSlots ≤ fieldN (putField word 32 2 1).toNat 34 10 ∨ fieldN (putField word 32 2 1).toNat 0 32 = 0) :=
  ⟨0, 0, 0, 0, open0, by decide +kernel⟩

theorem test_meets_bar_place_1 : ∃ (p : HostId) (part : PartId) (word : Quad), Meets fun s => s.win.failsafe = false ∧ (s.part part.val).st = .enabled ∧ s.member p.val part.val = true
        ∧ fieldN (putField word 32 2 1).toNat 34 10 < (s.part part.val).ticketSlots ∧ fieldN (putField word 32 2 1).toNat 0 32 ≠ 0
        ∧ s.barrierWhy p.val (putField word 32 2 1) ≠ 0 ∧ 8 ≤ (s.ip (s.hp p.val).intake).refusals p.val :=
  ⟨0, 0, 1 + 2 ^ 44, 0, { { open0 with parts := [(0, { Part.init with st := .enabled, ticketSlots := 4 })] } with intakes := [(0, { Intake.init with bars := List.replicate 8 { (default : Barrier) with refused := true, host := 0 } })] }, by decide +kernel⟩

theorem test_meets_bar_enter_1 : ∃ (p : HostId) (part : PartId) (word : Quad), Meets fun s => s.win.failsafe = false ∧ (s.part part.val).st = .enabled ∧ s.member p.val part.val = true
        ∧ fieldN (putField word 32 2 1).toNat 34 10 < (s.part part.val).ticketSlots ∧ fieldN (putField word 32 2 1).toNat 0 32 ≠ 0
        ∧ (s.barrierWhy p.val (putField word 32 2 1) = 0 ∨ (s.ip (s.hp p.val).intake).refusals p.val < 8) :=
  ⟨0, 0, 1, 0, { open0 with parts := [(0, { Part.init with st := .enabled, ticketSlots := 4 })] }, by decide +kernel⟩

theorem test_meets_bar_ignored_2 : ∃ (p : HostId) (part : PartId) (word : Quad) (al : Bool), Meets fun s => (s.part part.val).st ≠ .enabled ∨ s.member p.val part.val = false ∨ al = false :=
  ⟨0, 0, 0, false, 0, up, by decide +kernel⟩

theorem test_meets_bar_stopped_2 : ∃ (p : HostId) (part : PartId) (word : Quad), Meets fun s => s.win.failsafe = true ∧ (s.part part.val).st = .enabled ∧ s.member p.val part.val = true :=
  ⟨0, 0, 0, 0, { open0 with win := { open0.win with failsafe := true } }, by decide +kernel⟩

theorem test_meets_bar_slot_2 : ∃ (p : HostId) (part : PartId) (word : Quad), Meets fun s => s.win.failsafe = false ∧ (s.part part.val).st = .enabled ∧ s.member p.val part.val = true
        ∧ ((s.part part.val).ticketSlots ≤ fieldN (putField word 32 2 2).toNat 34 10 ∨ fieldN (putField word 32 2 2).toNat 0 32 = 0) :=
  ⟨0, 0, 0, 0, open0, by decide +kernel⟩

theorem test_meets_bar_place_2 : ∃ (p : HostId) (part : PartId) (word : Quad), Meets fun s => s.win.failsafe = false ∧ (s.part part.val).st = .enabled ∧ s.member p.val part.val = true
        ∧ fieldN (putField word 32 2 2).toNat 34 10 < (s.part part.val).ticketSlots ∧ fieldN (putField word 32 2 2).toNat 0 32 ≠ 0
        ∧ s.barrierWhy p.val (putField word 32 2 2) ≠ 0 ∧ 8 ≤ (s.ip (s.hp p.val).intake).refusals p.val :=
  ⟨0, 0, 1 + 2 ^ 44, 0, { { open0 with parts := [(0, { Part.init with st := .enabled, ticketSlots := 4 })] } with intakes := [(0, { Intake.init with bars := List.replicate 8 { (default : Barrier) with refused := true, host := 0 } })] }, by decide +kernel⟩

theorem test_meets_bar_enter_2 : ∃ (p : HostId) (part : PartId) (word : Quad), Meets fun s => s.win.failsafe = false ∧ (s.part part.val).st = .enabled ∧ s.member p.val part.val = true
        ∧ fieldN (putField word 32 2 2).toNat 34 10 < (s.part part.val).ticketSlots ∧ fieldN (putField word 32 2 2).toNat 0 32 ≠ 0
        ∧ (s.barrierWhy p.val (putField word 32 2 2) = 0 ∨ (s.ip (s.hp p.val).intake).refusals p.val < 8) :=
  ⟨0, 0, 1, 0, { open0 with parts := [(0, { Part.init with st := .enabled, ticketSlots := 4 })] }, by decide +kernel⟩

theorem test_meets_bar_ignored_3 : ∃ (p : HostId) (part : PartId) (word : Quad) (al : Bool), Meets fun s => (s.part part.val).st ≠ .enabled ∨ s.member p.val part.val = false ∨ al = false :=
  ⟨0, 0, 0, false, 0, up, by decide +kernel⟩

theorem test_meets_bar_stopped_3 : ∃ (p : HostId) (part : PartId) (word : Quad), Meets fun s => s.win.failsafe = true ∧ (s.part part.val).st = .enabled ∧ s.member p.val part.val = true :=
  ⟨0, 0, 0, 0, { open0 with win := { open0.win with failsafe := true } }, by decide +kernel⟩

theorem test_meets_bar_slot_3 : ∃ (p : HostId) (part : PartId) (word : Quad), Meets fun s => s.win.failsafe = false ∧ (s.part part.val).st = .enabled ∧ s.member p.val part.val = true
        ∧ ((s.part part.val).ticketSlots ≤ fieldN (putField word 32 2 3).toNat 34 10 ∨ fieldN (putField word 32 2 3).toNat 0 32 = 0) :=
  ⟨0, 0, 0, 0, open0, by decide +kernel⟩

theorem test_meets_bar_place_3 : ∃ (p : HostId) (part : PartId) (word : Quad), Meets fun s => s.win.failsafe = false ∧ (s.part part.val).st = .enabled ∧ s.member p.val part.val = true
        ∧ fieldN (putField word 32 2 3).toNat 34 10 < (s.part part.val).ticketSlots ∧ fieldN (putField word 32 2 3).toNat 0 32 ≠ 0
        ∧ s.barrierWhy p.val (putField word 32 2 3) ≠ 0 ∧ 8 ≤ (s.ip (s.hp p.val).intake).refusals p.val :=
  ⟨0, 0, 1, 0, { { open0 with parts := [(0, { Part.init with st := .enabled, ticketSlots := 4 })] } with intakes := [(0, { Intake.init with bars := List.replicate 8 { (default : Barrier) with refused := true, host := 0 } })] }, by decide +kernel⟩

theorem test_meets_bar_enter_3 : ∃ (p : HostId) (part : PartId) (word : Quad), Meets fun s => s.win.failsafe = false ∧ (s.part part.val).st = .enabled ∧ s.member p.val part.val = true
        ∧ fieldN (putField word 32 2 3).toNat 34 10 < (s.part part.val).ticketSlots ∧ fieldN (putField word 32 2 3).toNat 0 32 ≠ 0
        ∧ (s.barrierWhy p.val (putField word 32 2 3) = 0 ∨ (s.ip (s.hp p.val).intake).refusals p.val < 8) :=
  ⟨0, 0, 1, 0, { open0 with parts := [(0, { Part.init with st := .enabled, ticketSlots := 4 })] }, by decide +kernel⟩

theorem test_meets_bar_done : ∃ (port : IntakeId) (id : Nat) (b : Barrier), Meets fun s => ((s.ip port.val).bars.find? fun b => b.id == id) = some b ∧ b.doneAt = none ∧ s.barReady b (s.ip port.val).kept = true :=
  ⟨0, 0, { (default : Barrier) with scope := .host, doneAt := none }, 0, { open0 with intakes := [(0, { Intake.init with bars := [{ (default : Barrier) with scope := .host, doneAt := none }] })] }, by decide +kernel⟩

theorem test_meets_bar_waits : ∃ (port : IntakeId) (id : Nat) (b : Barrier), Meets fun s => ((s.ip port.val).bars.find? fun b => b.id == id) = some b ∧ (b.doneAt ≠ none ∨ s.barReady b (s.ip port.val).kept = false) :=
  ⟨0, 0, { (default : Barrier) with scope := .host, doneAt := some 3 }, 0, { open0 with intakes := [(0, { Intake.init with bars := [{ (default : Barrier) with scope := .host, doneAt := some 3 }] })] }, by decide +kernel⟩

theorem test_meets_hs_wait : ∃ (x : Handshake), Meets fun s => let s := s.frame
      s.twin.st = .seeking ∧ s.twin.decided = false :=
  ⟨default, 0, { up with twin := { Twin.reset with st := .seeking } }, by decide +kernel⟩

theorem test_meets_hs_later : ∃ (x : Handshake), Meets fun s => let s := s.frame
      s.twin.st = .paired ∨ s.twin.st = .resyncSource ∨ s.twin.st = .resyncTarget :=
  ⟨default, 0, { up with twin := { Twin.reset with st := .paired } }, by decide +kernel⟩

theorem test_meets_hs_bad : ∃ (x : Handshake) (p : Bool × Nat × Nat), Meets fun s => let s := s.frame
      (s.twin.st = .seeking ∧ s.twin.decided = true ∨ s.twin.st = .split) ∧ s.twin.pairing = some p ∧ (x.pairNo.toNat ≠ p.2.2 ∨ x.mediaOk = false) :=
  ⟨default, (true, 4, 5), 0, { up with twin := { Twin.reset with st := .seeking, decided := true, pairing := some (true, 4, 5) } }, by decide +kernel⟩

theorem test_meets_hs_took : ∃ (x : Handshake) (p : Bool × Nat × Nat), Meets fun s => let s := s.frame
      (s.twin.st = .seeking ∧ s.twin.decided = true ∨ s.twin.st = .split) ∧ s.twin.pairing = some p ∧ x.pairNo.toNat = p.2.2 ∧ x.mediaOk = true ∧ s.twin.tookOver = true :=
  ⟨{ (default : Handshake) with mediaOk := true, pairNo := 5, serial := 4 }, (true, 4, 5), 0, { up with twin := { Twin.reset with st := .split, tookOver := true, pairing := some (true, 4, 5) } }, by decide +kernel⟩

theorem test_meets_hs_taken : ∃ (x : Handshake) (p : Bool × Nat × Nat), Meets fun s => let s := s.frame
      (s.twin.st = .seeking ∧ s.twin.decided = true ∨ s.twin.st = .split) ∧ s.twin.pairing = some p ∧ x.pairNo.toNat = p.2.2 ∧ x.mediaOk = true
        ∧ (s.twin.tookOver = false ∧ x.takenOver = true) :=
  ⟨{ (default : Handshake) with mediaOk := true, pairNo := 5, takenOver := true }, (true, 4, 5), 0, { up with twin := { Twin.reset with st := .split, pairing := some (true, 4, 5) } }, by decide +kernel⟩

theorem test_meets_hs_paired : ∃ (x : Handshake) (p : Bool × Nat × Nat), Meets fun s => let s := s.frame
      (s.twin.st = .seeking ∧ s.twin.decided = true ∨ s.twin.st = .split) ∧ s.twin.pairing = some p ∧ x.pairNo.toNat = p.2.2 ∧ x.mediaOk = true
        ∧ (s.twin.tookOver = false ∧ x.takenOver = false ∧ s.twin.hasSplit = false ∧ x.split = false ∧ x.serial.toNat = p.2.1 ∧ x.weReplaced = false) :=
  ⟨{ (default : Handshake) with mediaOk := true, pairNo := 5, serial := 4 }, (true, 4, 5), 0, { up with twin := { Twin.reset with st := .seeking, decided := true, pairing := some (true, 4, 5) } }, by decide +kernel⟩

theorem test_meets_hs_both : ∃ (x : Handshake) (p : Bool × Nat × Nat), Meets fun s => let s := s.frame
      (s.twin.st = .seeking ∧ s.twin.decided = true ∨ s.twin.st = .split) ∧ s.twin.pairing = some p ∧ x.pairNo.toNat = p.2.2 ∧ x.mediaOk = true
        ∧ (s.twin.tookOver = false ∧ x.takenOver = false ∧ s.twin.hasSplit = true ∧ x.split = true) :=
  ⟨{ (default : Handshake) with mediaOk := true, pairNo := 5, split := true, serial := 4 }, (true, 4, 5), 0, { up with twin := { Twin.reset with st := .split, hasSplit := true, pairing := some (true, 4, 5) } }, by decide +kernel⟩

theorem test_meets_hs_source : ∃ (x : Handshake) (p : Bool × Nat × Nat), Meets fun s => let s := s.frame
      (s.twin.st = .seeking ∧ s.twin.decided = true ∨ s.twin.st = .split) ∧ s.twin.pairing = some p ∧ x.pairNo.toNat = p.2.2 ∧ x.mediaOk = true
        ∧ (s.twin.tookOver = false ∧ x.takenOver = false ∧ x.split = false ∧ (s.twin.hasSplit = true ∨ x.serial.toNat ≠ p.2.1)) :=
  ⟨{ (default : Handshake) with mediaOk := true, pairNo := 5, serial := 9 }, (true, 4, 5), 0, { up with twin := { Twin.reset with st := .split, pairing := some (true, 4, 5) } }, by decide +kernel⟩

theorem test_meets_hs_target : ∃ (x : Handshake) (p : Bool × Nat × Nat), Meets fun s => let s := s.frame
      (s.twin.st = .seeking ∧ s.twin.decided = true ∨ s.twin.st = .split) ∧ s.twin.pairing = some p ∧ x.pairNo.toNat = p.2.2 ∧ x.mediaOk = true
        ∧ (s.twin.tookOver = false ∧ x.takenOver = false ∧ s.twin.hasSplit = false ∧ (x.split = true ∨ (x.serial.toNat = p.2.1 ∧ x.weReplaced = true))) :=
  ⟨{ (default : Handshake) with mediaOk := true, pairNo := 5, split := true, serial := 4 }, (true, 4, 5), 0, { up with twin := { Twin.reset with st := .split, pairing := some (true, 4, 5) } }, by decide +kernel⟩

theorem test_meets_seek_stale : Meets fun s => (s.twin.st = .seeking ∧ s.twin.step8 = true ∧ s.twin.decided = true ∧ s.twin.refused = false ∧ s.twin.seekAt + 500000000 ≤ s.now)
        ∧ (s.twin.peerDown = false ∨ s.twin.takeoverEn = false) :=
  ⟨0, { up with twin := { Twin.reset with st := .seeking, step8 := true, decided := true }, now := 500000000 }, by decide +kernel⟩

theorem test_meets_seek_takeover : Meets fun s => (s.twin.st = .seeking ∧ s.twin.step8 = true ∧ s.twin.decided = true ∧ s.twin.refused = false ∧ s.twin.seekAt + 500000000 ≤ s.now)
        ∧ s.twin.peerDown = true ∧ s.twin.takeoverEn = true :=
  ⟨0, { up with twin := { Twin.reset with st := .seeking, step8 := true, decided := true, peerDown := true }, now := 500000000 }, by decide +kernel⟩

theorem test_meets_seek_refused : Meets fun s => s.twin.refused = true :=
  ⟨0, { up with twin := { Twin.reset with st := .seeking, refused := true } }, by decide +kernel⟩

theorem test_meets_hb_alive : Meets fun s => s.hbOk = true :=
  ⟨0, { up with twin := { Twin.reset with st := .paired, frameAt := some 0 } }, by decide +kernel⟩

theorem test_meets_hb_loss : Meets fun s => s.hbOk = false ∧ (s.twin.st = .paired ∨ s.twin.st = .resyncSource) ∧ s.loseTwin.twin.peerDown = false ∧ s.loseTwin.twin.stale = false :=
  ⟨0, { up with twin := { Twin.reset with st := .paired } }, by decide +kernel⟩

theorem test_meets_hb_confirmed : Meets fun s => s.hbOk = false ∧ (s.twin.st = .paired ∨ s.twin.st = .resyncSource) ∧ (s.loseTwin.twin.peerDown = true ∨ s.loseTwin.twin.stale = true) :=
  ⟨0, { up with twin := { Twin.reset with st := .paired, peerDown := true } }, by decide +kernel⟩

theorem test_meets_hb_target : Meets fun s => s.hbOk = false ∧ s.twin.st = .resyncTarget :=
  ⟨0, { up with twin := { Twin.reset with st := .resyncTarget } }, by decide +kernel⟩

theorem test_meets_hb_other : Meets fun s => s.twin.st = .unpaired ∨ s.twin.st = .seeking ∨ s.twin.st = .split ∨ s.twin.st = .abdicated :=
  ⟨0, { up with twin := { Twin.reset with st := .split } }, by decide +kernel⟩

theorem test_meets_link_down : Meets fun s => s.twin.st ≠ .unpaired :=
  ⟨0, { up with twin := { Twin.reset with st := .paired } }, by decide +kernel⟩

theorem test_meets_link_up_hs : Meets fun s => s.twin.st = .split ∨ (s.twin.st = .seeking ∧ s.twin.decided = true) :=
  ⟨0, { up with twin := { Twin.reset with st := .split } }, by decide +kernel⟩

theorem test_meets_link_up : Meets fun s => s.twin.st ≠ .split ∧ (s.twin.st ≠ .seeking ∨ s.twin.decided = false) :=
  ⟨0, { up with twin := { Twin.reset with st := .paired } }, by decide +kernel⟩

theorem test_meets_link_down_solo : Meets fun s => s.twin.st = .unpaired :=
  ⟨0, { up with twin := { Twin.reset with st := .unpaired } }, by decide +kernel⟩

theorem test_meets_peer_down_paired : Meets fun s => s.twin.st = .paired ∨ s.twin.st = .resyncSource ∨ s.twin.st = .resyncTarget :=
  ⟨0, { up with twin := { Twin.reset with st := .paired } }, by decide +kernel⟩

theorem test_meets_peer_down_split : Meets fun s => s.twin.st = .split ∧ s.twin.tookOver = false :=
  ⟨0, { up with twin := { Twin.reset with st := .split } }, by decide +kernel⟩

theorem test_meets_peer_down_other : Meets fun s => s.twin.st = .unpaired ∨ s.twin.st = .seeking ∨ (s.twin.st = .split ∧ s.twin.tookOver = true) :=
  ⟨0, { up with twin := { Twin.reset with st := .seeking } }, by decide +kernel⟩

theorem test_meets_peer_up : Meets fun _ => True :=
  ⟨0, up, by decide +kernel⟩

theorem test_meets_loss_report : Meets fun s => s.twin.st = .split ∧ s.twin.tookOver = false ∧ s.twin.peerDown = false ∧ ∃ x, s.twin.lostAt = some x ∧ x + 100000 ≤ s.now :=
  ⟨0, { up with twin := { Twin.reset with st := .split, lostAt := some 0 }, now := 100000 }, rfl, rfl, rfl, 0, rfl, by decide⟩

theorem test_meets_abdication : ∃ (drill : Bool), Meets fun s => let s := s.frame
      (s.twin.st = .paired ∨ s.twin.st = .split ∨ s.twin.st = .resyncSource ∨ s.twin.st = .resyncTarget) ∧ (s.twin.tookOver = false ∨ drill = true) :=
  ⟨false, 0, { up with twin := { Twin.reset with st := .paired } }, by decide +kernel⟩

theorem test_meets_claim_takeover : ∃ (ps : Quad) (l : List Redeliver), Meets fun s => s.pwr.fail = none ∧ s.twin.tk = some ps ∧ s.twin.redel = none :=
  ⟨5, [], 0, { up with twin := { Twin.reset with st := .split, tk := some 5 } }, by decide +kernel⟩

theorem test_meets_claim_again : ∃ (ps : Quad) (l r : List Redeliver), Meets fun s => s.pwr.fail = none ∧ s.twin.tk = some ps ∧ s.twin.redel = some r :=
  ⟨5, [], [], 0, { up with twin := { Twin.reset with st := .split, tk := some 5, redel := some [] } }, by decide +kernel⟩

theorem test_meets_claim_move : ∃ (l : List Redeliver), Meets fun s => s.pwr.fail = none ∧ s.twin.tk = none :=
  ⟨[], 0, { up with twin := { Twin.reset with st := .paired, moves := [(0, ⟨false, .forward, 0, 0, []⟩)] } }, by decide +kernel⟩

theorem test_meets_claim_powerfail : ∃ (l : List Redeliver), Meets fun s => s.pwr.fail.isSome = true :=
  ⟨[], 0, { up with pwr := { up.pwr with fail := some default } }, by decide +kernel⟩

theorem test_meets_claim_lost : Meets fun s => (s.twin.moves.filter fun x => x.2.old && x.2.phase == .forward) = [] ∧ s.drilled = false :=
  ⟨0, up, by decide +kernel⟩

theorem test_meets_claim_lost_drill : Meets fun s => (s.twin.moves.filter fun x => x.2.old && x.2.phase == .forward) = [] ∧ s.drilled = true :=
  ⟨0, { up with twin := { Twin.reset with st := .abdicated } }, by decide +kernel⟩

theorem test_meets_claim_lost_move : ∃ (l : Tbl RoleMove), Meets fun s => (s.twin.moves.filter fun x => x.2.old && x.2.phase == .forward) = l ∧ l ≠ [] :=
  ⟨[(0, ⟨true, .forward, 0, 0, []⟩)], 0, { up with twin := { Twin.reset with st := .paired, moves := [(0, ⟨true, .forward, 0, 0, []⟩)] } }, by decide +kernel⟩

theorem test_meets_drained : ∃ (part : PartId) (m : RoleMove), Meets fun s => let s := s.frame
      Tbl.find s.twin.moves part.val = some m ∧ m.old = false ∧ m.phase = .drain :=
  ⟨0, ⟨false, .drain, 0, 0, []⟩, 0, { up with twin := { Twin.reset with st := .paired, moves := [(0, ⟨false, .drain, 0, 0, []⟩)] } }, by decide +kernel⟩

theorem test_meets_drained_other : ∃ (part : PartId) (m : RoleMove), Meets fun s => let s := s.frame
      Tbl.find s.twin.moves part.val = some m ∧ (m.old = true ∨ m.phase ≠ .drain) :=
  ⟨0, ⟨true, .drain, 0, 0, []⟩, 0, { up with twin := { Twin.reset with st := .paired, moves := [(0, ⟨true, .drain, 0, 0, []⟩)] } }, by decide +kernel⟩

theorem test_meets_closed : ∃ (part : PartId) (m : RoleMove), Meets fun s => let s := s.frame
      Tbl.find s.twin.moves part.val = some m ∧ m.old = false ∧ (m.phase = .routed ∨ m.phase = .forward) :=
  ⟨0, ⟨false, .routed, 0, 0, []⟩, 0, { up with twin := { Twin.reset with st := .paired, moves := [(0, ⟨false, .routed, 0, 0, []⟩)] } }, by decide +kernel⟩

theorem test_meets_rec_fetch : ∃ (n : SliceId) (e : Nat) (r : DirRec) (x : Entry), Meets fun s => let s := s.frame
      s.ent n.val e = some x ∧ x.fetching = true :=
  ⟨0, 0, ⟨1, 4⟩, { (Entry.blank .host (req .rdA) 0) with fetching := true }, 0, { up with slices := [(0, { Slice.init 0 with front := { Front.init with ents := [(0, { (Entry.blank .host (req .rdA) 0) with fetching := true })] } })] }, by decide +kernel⟩

theorem test_meets_rec_ask : ∃ (n : SliceId) (e : Nat) (line : BitVec 42) (f : Meta) (p : Nat) (m : RoleMove), Meets fun s => let s := s.frame
      s.partOf line.toNat = some p ∧ Tbl.find s.twin.moves p = some m ∧ m.old = true :=
  ⟨0, 0, 0, 0, 0, ⟨true, .handover, 0, 0, []⟩, 0, { open0 with twin := { Twin.reset with st := .paired, moves := [(0, ⟨true, .handover, 0, 0, []⟩)] } }, by decide +kernel⟩

theorem test_meets_move_timeout : ∃ (k : SlotId) (p : Nat) (m : RoleMove), Meets fun s => (s.twin.moves.find? fun x => x.2.slot == k.val && x.2.phase == .drain && x.2.since + 1000000 ≤ s.now) = some (p, m) :=
  ⟨0, 0, ⟨true, .drain, 0, 0, []⟩, 0, { { up with twin := { Twin.reset with st := .paired, moves := [(0, ⟨true, .drain, 0, 0, []⟩)] } } with now := 1000000 }, by decide +kernel⟩

theorem test_meets_walk_not : ∃ (part : PartId) (line : BitVec 42) (f : Meta) (m : RoleMove), Meets fun s => s.partOf line.toNat = some part.val ∧ Tbl.find s.twin.moves part.val = some m ∧ (m.old = false ∨ m.phase ≠ .handover ∨ m.walked.contains line.toNat = true) :=
  ⟨0, 0, 0, ⟨false, .drain, 0, 0, []⟩, 0, { open0 with twin := { Twin.reset with st := .paired, moves := [(0, ⟨false, .drain, 0, 0, []⟩)] } }, by decide +kernel⟩

theorem test_meets_walk_line : ∃ (part : PartId) (line : BitVec 42) (f : Meta) (m : RoleMove), Meets fun s => s.partOf line.toNat = some part.val ∧ Tbl.find s.twin.moves part.val = some m ∧ m.old = true ∧ m.phase = .handover ∧ m.walked.contains line.toNat = false :=
  ⟨0, 0, 0, ⟨true, .handover, 0, 0, []⟩, 0, { open0 with twin := { Twin.reset with st := .paired, moves := [(0, ⟨true, .handover, 0, 0, []⟩)] } }, by decide +kernel⟩

theorem test_meets_role_record : ∃ (part : PartId) (line : BitVec 42) (r : DirRec) (m : RoleMove), Meets fun s => let s := s.frame
      s.partOf line.toNat = some part.val ∧ Tbl.find s.twin.moves part.val = some m ∧ m.old = false ∧ m.phase = .handover ∧ m.walked.contains line.toNat = false :=
  ⟨0, 0, ⟨0, 0⟩, ⟨false, .handover, 0, 0, []⟩, 0, { open0 with twin := { Twin.reset with st := .paired, moves := [(0, ⟨false, .handover, 0, 0, []⟩)] } }, by decide +kernel⟩

theorem test_meets_echo : ∃ (port : IntakeId) (x : EchoMsg), Meets fun s => let s := s.frame
      s.mirroring = true :=
  ⟨0, default, 0, { open0 with twin := { Twin.reset with st := .paired } }, by decide +kernel⟩

theorem test_meets_echo_no : ∃ (port : IntakeId) (x : EchoMsg), Meets fun s => let s := s.frame
      s.mirroring = false :=
  ⟨0, default, 0, up, by decide +kernel⟩

theorem test_meets_settle_full : ∃ (x : SettleRec) (d : Line), Meets fun s => let s := s.frame
      s.mirroring = true ∧ x.full = some d :=
  ⟨{ (default : SettleRec) with full := some 0 }, 0, 0, { open0 with twin := { Twin.reset with st := .paired } }, by decide +kernel⟩

theorem test_meets_settle_echo : ∃ (x : SettleRec) (y : Echo) (d : Line × Quad), Meets fun s => let s := s.frame
      s.mirroring = true ∧ x.full = none ∧ (s.twin.echoes.find? fun y => x.echoes.any fun e => e.1.val == y.intake && e.2.toNat == y.idx) = some y ∧ y.data = some d :=
  ⟨{ (default : SettleRec) with echoes := [(0, 3)] }, { (default : Echo) with idx := 3, data := some (5, 7) }, (5, 7), 0, { open0 with twin := { Twin.reset with st := .paired, echoes := [{ (default : Echo) with idx := 3, data := some (5, 7) }] } }, by decide +kernel⟩

theorem test_meets_settle_none : ∃ (x : SettleRec), Meets fun s => let s := s.frame
      s.mirroring = true ∧ x.full = none ∧ ∀ y ∈ s.twin.echoes, x.echoes.any (fun e => e.1.val == y.intake && e.2.toNat == y.idx) = false :=
  ⟨default, 0, { open0 with twin := { Twin.reset with st := .paired } }, by decide +kernel⟩

theorem test_meets_settle_no : ∃ (x : SettleRec), Meets fun s => let s := s.frame
      s.mirroring = false :=
  ⟨default, 0, up, by decide +kernel⟩

theorem test_meets_release : ∃ (port : IntakeId) (echo : BitVec 12), Meets fun s => let s := s.frame
      s.mirroring = true :=
  ⟨0, 0, 0, { open0 with twin := { Twin.reset with st := .paired } }, by decide +kernel⟩

theorem test_meets_release_no : ∃ (port : IntakeId) (echo : BitVec 12), Meets fun s => let s := s.frame
      s.mirroring = false :=
  ⟨0, 0, 0, up, by decide +kernel⟩

theorem test_meets_clean_plain : ∃ (line : BitVec 42) (q : Word), Meets fun s => let s := s.frame
      Tbl.find (s.slc (s.homeSlice line.toNat)).banks.held line.toNat ≠ some q.toNat :=
  ⟨0, 3, 0, { open0 with twin := { Twin.reset with st := .paired } }, by decide +kernel⟩

theorem test_meets_clean_held : ∃ (line : BitVec 42) (q : Word), Meets fun s => let s := s.frame
      Tbl.find (s.slc (s.homeSlice line.toNat)).banks.held line.toNat = some q.toNat ∧ (s.mirrorClean (s.homeSlice line.toNat) line.toNat q.toNat).stuckWays (s.homeSlice line.toNat) = [] :=
  ⟨0, 3, 0, { up with slices := [(0, { Slice.init 0 with banks := { Banks.init 0 with held := [(0, 3)] } })] }, by decide +kernel⟩

theorem test_meets_clean_next : ∃ (line : BitVec 42) (q : Word) (x : Nat × GEntry) (l : List (Nat × GEntry)), Meets fun s => let s := s.frame
      Tbl.find (s.slc (s.homeSlice line.toNat)).banks.held line.toNat = some q.toNat ∧ (s.mirrorClean (s.homeSlice line.toNat) line.toNat q.toNat).stuckWays (s.homeSlice line.toNat) = x :: l :=
  ⟨0, 3, (0, { (default : GEntry) with st := .evicting, twinHeld := true }), [], 0, { up with slices := [(0, { Slice.init 0 with banks := { Banks.init 0 with held := [(0, 3)], grn := [(0, { (default : GEntry) with st := .evicting, twinHeld := true })] } })] }, by decide +kernel⟩

theorem test_meets_clean_request : ∃ (line : BitVec 42), Meets fun _ => True :=
  ⟨0, 0, up, by decide +kernel⟩

theorem test_meets_recall : ∃ (n : SliceId), Meets fun s => let s := s.frame
      s.twin.st = .paired :=
  ⟨0, 0, { open0 with twin := { Twin.reset with st := .paired } }, by decide +kernel⟩

theorem test_meets_recall_no : ∃ (n : SliceId), Meets fun s => let s := s.frame
      s.twin.st ≠ .paired :=
  ⟨0, 0, up, by decide +kernel⟩

theorem test_meets_rwalk_grn : ∃ (n : SliceId) (line : BitVec 42) (v : Line × Meta), Meets fun s => (s.twin.st = .resyncSource ∧ s.homeSlice line.toNat = n.val ∧ s.twin.split.contains (tractOf line.toNat) = true ∧ s.twin.walk.contains line.toNat = false
        ∧ s.primary (s.mapPart line.toNat) = true ∧ s.walkYields line.toNat = false ∧ ((s.slc n.val).front.ents.any fun y => y.2.kind == .resync && y.2.req.line == line.toNat) = false)
        ∧ s.grnValue n.val line.toNat = some v ∧ Meta.colour v.2 = s.mapPart line.toNat :=
  ⟨Fin.ofNat 128 (sliceOf 0), 0, (7, 0), 0, { open0 with twin := { Twin.reset with st := .resyncSource, split := [0], roles := 1 }, place := { Place.reset with map := [(0, mkEntry 0 0 0 1 1 0 0)] }, slices := [(sliceOf 0, { Slice.init (sliceOf 0) with banks := { Banks.init (sliceOf 0) with grn := [(0, { (default : GEntry) with valid := true, data := 7 })] } })] }, by decide +kernel⟩

theorem test_meets_rwalk_colour : ∃ (n : SliceId) (line : BitVec 42) (v : Line × Meta), Meets fun s => (s.twin.st = .resyncSource ∧ s.homeSlice line.toNat = n.val ∧ s.twin.split.contains (tractOf line.toNat) = true ∧ s.twin.walk.contains line.toNat = false
        ∧ s.primary (s.mapPart line.toNat) = true ∧ s.walkYields line.toNat = false ∧ ((s.slc n.val).front.ents.any fun y => y.2.kind == .resync && y.2.req.line == line.toNat) = false)
        ∧ s.grnValue n.val line.toNat = some v ∧ Meta.colour v.2 ≠ s.mapPart line.toNat :=
  ⟨Fin.ofNat 128 (sliceOf 0), 0, (7, BitVec.ofNat 32 65536), 0, { open0 with twin := { Twin.reset with st := .resyncSource, split := [0], roles := 1 }, place := { Place.reset with map := [(0, mkEntry 0 0 0 1 1 0 0)] }, slices := [(sliceOf 0, { Slice.init (sliceOf 0) with banks := { Banks.init (sliceOf 0) with grn := [(0, { (default : GEntry) with valid := true, data := 7, info := BitVec.ofNat 32 65536 })] } })] }, by decide +kernel⟩

theorem test_meets_rwalk_busy : ∃ (n : SliceId) (line : BitVec 42), Meets fun s => ((s.slc n.val).front.ents.any fun y => y.2.kind == .resync && y.2.req.line == line.toNat) = true :=
  ⟨0, 0, 0, { up with slices := [(0, { Slice.init 0 with front := { Front.init with ents := [(512, Entry.blank .resync (req .rdA) 0)] } })] }, by decide +kernel⟩

theorem test_meets_rwalk_full : ∃ (n : SliceId) (line : BitVec 42), Meets fun s => s.grnValue n.val line.toNat = none ∧ s.freeInt n.val .resync = none :=
  ⟨0, 0, 0, { up with slices := [(0, { Slice.init 0 with front := { Front.init with ents := (List.range 112).map fun i => (512 + i, Entry.blank .resync (req .rdA) 0) } })] }, by decide +kernel⟩

theorem test_meets_rwalk_read : ∃ (n : SliceId) (line : BitVec 42) (e : Nat), Meets fun s => (s.twin.st = .resyncSource ∧ s.homeSlice line.toNat = n.val ∧ s.twin.split.contains (tractOf line.toNat) = true ∧ s.twin.walk.contains line.toNat = false
        ∧ s.primary (s.mapPart line.toNat) = true ∧ s.walkYields line.toNat = false ∧ ((s.slc n.val).front.ents.any fun y => y.2.kind == .resync && y.2.req.line == line.toNat) = false)
        ∧ s.grnValue n.val line.toNat = none ∧ s.freeInt n.val .resync = some e :=
  ⟨Fin.ofNat 128 (sliceOf 0), 0, 512, 0, { open0 with twin := { Twin.reset with st := .resyncSource, split := [0], roles := 1 }, place := { Place.reset with map := [(0, mkEntry 0 0 0 1 1 0 0)] } }, by decide +kernel⟩

theorem test_meets_rwalk_no : ∃ (n : SliceId) (line : BitVec 42), Meets fun s => s.twin.st ≠ .resyncSource ∨ s.homeSlice line.toNat ≠ n.val ∨ s.twin.split.contains (tractOf line.toNat) = false ∨ s.twin.walk.contains line.toNat = true ∨ s.primary (s.mapPart line.toNat) = false ∨ s.walkYields line.toNat = true :=
  ⟨0, 0, 0, up, by decide +kernel⟩

theorem test_meets_rrec : ∃ (line : BitVec 42) (part : PartId) (d : Line) (po : Bool) (g : BitVec 4) (q : Word) (e : Nat), Meets fun s => let s := s.frame
      s.twin.st = .resyncTarget ∨ s.twin.st = .resyncSource :=
  ⟨0, 0, 0, false, 0, 0, 0, 0, { open0 with twin := { Twin.reset with st := .resyncTarget } }, by decide +kernel⟩

theorem test_meets_rack : ∃ (line : BitVec 42), Meets fun s => let s := s.frame
      s.twin.st = .resyncSource :=
  ⟨0, 0, { open0 with twin := { Twin.reset with st := .resyncSource } }, by decide +kernel⟩

theorem test_meets_rgen : ∃ (n : SliceId) (dg fl : BitVec 4) (q : List (PartId × BitVec 4)), Meets fun s => let s := s.frame
      s.twin.st = .paired ∨ s.twin.st = .resyncTarget :=
  ⟨0, 3, 2, [], 0, { open0 with twin := { Twin.reset with st := .resyncTarget } }, by decide +kernel⟩

theorem test_meets_map_none : ∃ (tr : BitVec 32) (e : MapMsg), Meets fun s => let s := s.frame
      s.mirroring = false :=
  ⟨0, .abandon, 0, up, by decide +kernel⟩

theorem test_meets_map_bad : ∃ (tr : BitVec 32) (e : Quad), Meets fun _ => meOk tr.toNat e = false :=
  ⟨0, 1, 0, up, by decide +kernel⟩

theorem test_meets_map_new : ∃ (tr : BitVec 32) (e : Quad), Meets fun s => let s := s.frame
      s.mirroring = true ∧ meOk tr.toNat e = true ∧ meState e ≠ 0 ∧ s.mapEntry tr.toNat = none :=
  ⟨0, mkEntry 0 0 0 1 1 0 0, 0, { open0 with twin := { Twin.reset with st := .paired } }, by decide +kernel⟩

theorem test_meets_map_gone : ∃ (tr : BitVec 32) (e x : Quad), Meets fun s => let s := s.frame
      s.mirroring = true ∧ meOk tr.toNat e = true ∧ meState e = 0 ∧ s.openMv tr.toNat = none ∧ s.mapEntry tr.toNat = some x ∧ (mePort x ≠ mePort e ∨ meTract x ≠ meTract e) :=
  ⟨0, mkEntry 0 1 1 1 0 0 0, mkEntry 0 0 0 1 1 0 0, 0, { { open0 with twin := { Twin.reset with st := .paired } } with place := { Place.reset with map := [(0, mkEntry 0 0 0 1 1 0 0)], map2 := [(0, mkEntry 0 0 0 1 1 0 0)] } }, by decide +kernel⟩

theorem test_meets_map_join : ∃ (tr : BitVec 32) (old new : MediaId × Nat) (g : BitVec 4) (r : Bool), Meets fun s => let s := s.frame
      s.mirroring = true ∧ (s.place.moves.any fun v => v.tract == tr.toNat) = false :=
  ⟨0, (0, 1), (1, 1), 3, false, 0, { open0 with twin := { Twin.reset with st := .paired } }, by decide +kernel⟩

theorem test_meets_map_batch : ∃ (tr : BitVec 32) (b : Nat), Meets fun s => let s := s.frame
      s.mirroring = true :=
  ⟨0, 7, 0, { open0 with twin := { Twin.reset with st := .paired } }, by decide +kernel⟩

theorem test_meets_map_abandon : ∃ (tr : BitVec 32) (v : Move), Meets fun s => let s := s.frame
      s.mirroring = true ∧ s.openMv tr.toNat = some v :=
  ⟨0, ⟨0, (0, 1), (1, 1), 3, .start, .spread, [], false, [], 0, false, false⟩, 0, { { open0 with twin := { Twin.reset with st := .paired } } with place := { Place.reset with moves := [⟨0, (0, 1), (1, 1), 3, .start, .spread, [], false, [], 0, false, false⟩] } }, by decide +kernel⟩

theorem test_meets_fwd_not : ∃ (port : IntakeId) (v : State) (m : M2S) (op : ReqOp) (d : Line) (be : Quad), Meets fun s => let s := s.frame
      s.twinIn (.intake port.val) 0x02 { prio := s.prio ((s.partOf (m.offset.toNat / 64)).getD 64), tag := m.tag.toNat, host := some m.host.val, line := m.offset.toNat / 64, aux := be.toNat, data := if opRwd op then lineUnits d else [] } = v
        ∧ (v.mirroring = false ∨ (v.ip port.val).halted = true) :=
  ⟨0, (State.tick up 0).frame.twinIn (.intake (0 : IntakeId).val) 0x02 { prio := (State.tick up 0).frame.prio (((State.tick up 0).frame.partOf ((msg .meta0 .a .noOp : M2S).offset.toNat / 64)).getD 64), tag := (msg .meta0 .a .noOp : M2S).tag.toNat, host := some (msg .meta0 .a .noOp : M2S).host.val, line := (msg .meta0 .a .noOp : M2S).offset.toNat / 64, aux := (0 : Quad).toNat, data := if opRwd .memRd then lineUnits 0 else [] }, msg .meta0 .a .noOp, .memRd, 0, 0, 0, up, by decide +kernel⟩

theorem test_meets_fwd_fail : ∃ (port : IntakeId) (v : State) (m : M2S) (op : ReqOp) (d : Line) (be : Quad) (c : Nat) (p : Option Nat), Meets fun s => let s := s.frame
      s.twinIn (.intake port.val) 0x02 { prio := s.prio ((s.partOf (m.offset.toNat / 64)).getD 64), tag := m.tag.toNat, host := some m.host.val, line := m.offset.toNat / 64, aux := be.toNat, data := if opRwd op then lineUnits d else [] } = v
        ∧ v.mirroring = true ∧ (v.ip port.val).halted = false ∧ v.check { m with port := port } op d be true = .fail c p :=
  ⟨0, (State.tick { open0 with twin := { Twin.reset with st := .paired, roles := 1 } } 0).frame.twinIn (.intake (0 : IntakeId).val) 0x02 { prio := (State.tick { open0 with twin := { Twin.reset with st := .paired, roles := 1 } } 0).frame.prio (((State.tick { open0 with twin := { Twin.reset with st := .paired, roles := 1 } } 0).frame.partOf ((⟨0, 0, 2 ^ 31, .meta0, .i, .noOp, 5, none⟩ : M2S).offset.toNat / 64)).getD 64), tag := (⟨0, 0, 2 ^ 31, .meta0, .i, .noOp, 5, none⟩ : M2S).tag.toNat, host := some (⟨0, 0, 2 ^ 31, .meta0, .i, .noOp, 5, none⟩ : M2S).host.val, line := (⟨0, 0, 2 ^ 31, .meta0, .i, .noOp, 5, none⟩ : M2S).offset.toNat / 64, aux := (0 : Quad).toNat, data := if opRwd .memWr then lineUnits 0 else [] }, ⟨0, 0, 2 ^ 31, .meta0, .i, .noOp, 5, none⟩, .memWr, 0, 0, 3, none, 0, { open0 with twin := { Twin.reset with st := .paired, roles := 1 } }, by decide +kernel⟩

theorem test_meets_fwd_hold : ∃ (port : IntakeId) (v : State) (m : M2S) (op : ReqOp) (d : Line) (be : Quad) (r : Req), Meets fun s => let s := s.frame
      s.twinIn (.intake port.val) 0x02 { prio := s.prio ((s.partOf (m.offset.toNat / 64)).getD 64), tag := m.tag.toNat, host := some m.host.val, line := m.offset.toNat / 64, aux := be.toNat, data := if opRwd op then lineUnits d else [] } = v
        ∧ v.mirroring = true ∧ (v.ip port.val).halted = false ∧ v.check { m with port := port } op d be true = .hold r :=
  ⟨0, (State.tick { { open0 with twin := { Twin.reset with st := .paired, roles := 1 } } with parts := [(0, { Part.init with st := .disabled, cfg := { PartCfg.init with hold := true } })] } 0).frame.twinIn (.intake (0 : IntakeId).val) 0x02 { prio := (State.tick { { open0 with twin := { Twin.reset with st := .paired, roles := 1 } } with parts := [(0, { Part.init with st := .disabled, cfg := { PartCfg.init with hold := true } })] } 0).frame.prio (((State.tick { { open0 with twin := { Twin.reset with st := .paired, roles := 1 } } with parts := [(0, { Part.init with st := .disabled, cfg := { PartCfg.init with hold := true } })] } 0).frame.partOf ((msg .meta0 .i .noOp : M2S).offset.toNat / 64)).getD 64), tag := (msg .meta0 .i .noOp : M2S).tag.toNat, host := some (msg .meta0 .i .noOp : M2S).host.val, line := (msg .meta0 .i .noOp : M2S).offset.toNat / 64, aux := (BitVec.allOnes 64 : Quad).toNat, data := if opRwd .memWr then lineUnits 0 else [] }, msg .meta0 .i .noOp, .memWr, 0, BitVec.allOnes 64, { req .wrI with be := BitVec.allOnes 64, fwd := true }, 0, { { open0 with twin := { Twin.reset with st := .paired, roles := 1 } } with parts := [(0, { Part.init with st := .disabled, cfg := { PartCfg.init with hold := true } })] }, by decide +kernel⟩

theorem test_meets_fwd_kept : ∃ (port : IntakeId) (v : State) (m : M2S) (op : ReqOp) (d : Line) (be : Quad) (r : Req), Meets fun s => let s := s.frame
      s.twinIn (.intake port.val) 0x02 { prio := s.prio ((s.partOf (m.offset.toNat / 64)).getD 64), tag := m.tag.toNat, host := some m.host.val, line := m.offset.toNat / 64, aux := be.toNat, data := if opRwd op then lineUnits d else [] } = v
        ∧ v.mirroring = true ∧ (v.ip port.val).halted = false ∧ v.check { m with port := port } op d be true = .pass r ∧ r.form ≠ .specRd ∧ r.form ≠ .biConf ∧ (r.form = .clnEvct → r.plate = none) :=
  ⟨0, (State.tick { open0 with twin := { Twin.reset with st := .paired, roles := 1 } } 0).frame.twinIn (.intake (0 : IntakeId).val) 0x02 { prio := (State.tick { open0 with twin := { Twin.reset with st := .paired, roles := 1 } } 0).frame.prio (((State.tick { open0 with twin := { Twin.reset with st := .paired, roles := 1 } } 0).frame.partOf ((msg .meta0 .a .snpInv : M2S).offset.toNat / 64)).getD 64), tag := (msg .meta0 .a .snpInv : M2S).tag.toNat, host := some (msg .meta0 .a .snpInv : M2S).host.val, line := (msg .meta0 .a .snpInv : M2S).offset.toNat / 64, aux := (0 : Quad).toNat, data := if opRwd .memRd then lineUnits 0 else [] }, msg .meta0 .a .snpInv, .memRd, 0, 0, { req .rdA with fwd := true }, 0, { open0 with twin := { Twin.reset with st := .paired, roles := 1 } }, by decide +kernel⟩

theorem test_meets_fwd_hint : ∃ (port : IntakeId) (v : State) (m : M2S) (op : ReqOp) (d : Line) (be : Quad) (r : Req), Meets fun s => let s := s.frame
      s.twinIn (.intake port.val) 0x02 { prio := s.prio ((s.partOf (m.offset.toNat / 64)).getD 64), tag := m.tag.toNat, host := some m.host.val, line := m.offset.toNat / 64, aux := be.toNat, data := if opRwd op then lineUnits d else [] } = v
        ∧ v.mirroring = true ∧ (v.ip port.val).halted = false ∧ v.check { m with port := port } op d be true = .pass r ∧ r.form = .specRd :=
  ⟨0, (State.tick { open0 with twin := { Twin.reset with st := .paired, roles := 1 } } 0).frame.twinIn (.intake (0 : IntakeId).val) 0x02 { prio := (State.tick { open0 with twin := { Twin.reset with st := .paired, roles := 1 } } 0).frame.prio (((State.tick { open0 with twin := { Twin.reset with st := .paired, roles := 1 } } 0).frame.partOf ((msg .meta0 .a .noOp : M2S).offset.toNat / 64)).getD 64), tag := (msg .meta0 .a .noOp : M2S).tag.toNat, host := some (msg .meta0 .a .noOp : M2S).host.val, line := (msg .meta0 .a .noOp : M2S).offset.toNat / 64, aux := (0 : Quad).toNat, data := if opRwd .memSpecRd then lineUnits 0 else [] }, msg .meta0 .a .noOp, .memSpecRd, 0, 0, { req .specRd with fwd := true }, 0, { open0 with twin := { Twin.reset with st := .paired, roles := 1 } }, by decide +kernel⟩

theorem test_meets_fwd_conf : ∃ (port : IntakeId) (v : State) (m : M2S) (op : ReqOp) (d : Line) (be : Quad) (r : Req), Meets fun s => let s := s.frame
      s.twinIn (.intake port.val) 0x02 { prio := s.prio ((s.partOf (m.offset.toNat / 64)).getD 64), tag := m.tag.toNat, host := some m.host.val, line := m.offset.toNat / 64, aux := be.toNat, data := if opRwd op then lineUnits d else [] } = v
        ∧ v.mirroring = true ∧ (v.ip port.val).halted = false ∧ v.check { m with port := port } op d be true = .pass r ∧ r.form = .biConf ∧ (v.firstPlace r).goes = false :=
  ⟨0, (State.tick { open0 with twin := { Twin.reset with st := .paired, roles := 1 } } 0).frame.twinIn (.intake (0 : IntakeId).val) 0x02 { prio := (State.tick { open0 with twin := { Twin.reset with st := .paired, roles := 1 } } 0).frame.prio (((State.tick { open0 with twin := { Twin.reset with st := .paired, roles := 1 } } 0).frame.partOf ((msg .meta0 .a .noOp : M2S).offset.toNat / 64)).getD 64), tag := (msg .meta0 .a .noOp : M2S).tag.toNat, host := some (msg .meta0 .a .noOp : M2S).host.val, line := (msg .meta0 .a .noOp : M2S).offset.toNat / 64, aux := (0 : Quad).toNat, data := if opRwd .biConflict then lineUnits 0 else [] }, msg .meta0 .a .noOp, .biConflict, 0, 0, { req .biConf with fwd := true }, 0, { open0 with twin := { Twin.reset with st := .paired, roles := 1 } }, by decide +kernel⟩

theorem test_meets_fwd_conf_goes : ∃ (port : IntakeId) (v : State) (m : M2S) (op : ReqOp) (d : Line) (be : Quad) (r : Req), Meets fun s => let s := s.frame
      s.twinIn (.intake port.val) 0x02 { prio := s.prio ((s.partOf (m.offset.toNat / 64)).getD 64), tag := m.tag.toNat, host := some m.host.val, line := m.offset.toNat / 64, aux := be.toNat, data := if opRwd op then lineUnits d else [] } = v
        ∧ v.mirroring = true ∧ (v.ip port.val).halted = false ∧ v.check { m with port := port } op d be true = .pass r ∧ r.form = .biConf ∧ (v.firstPlace r).goes = true :=
  ⟨0, (State.tick { open0 with twin := { Twin.reset with st := .resyncSource } } 0).frame.twinIn (.intake (0 : IntakeId).val) 0x02 { prio := (State.tick { open0 with twin := { Twin.reset with st := .resyncSource } } 0).frame.prio (((State.tick { open0 with twin := { Twin.reset with st := .resyncSource } } 0).frame.partOf ((msg .meta0 .a .noOp : M2S).offset.toNat / 64)).getD 64), tag := (msg .meta0 .a .noOp : M2S).tag.toNat, host := some (msg .meta0 .a .noOp : M2S).host.val, line := (msg .meta0 .a .noOp : M2S).offset.toNat / 64, aux := (0 : Quad).toNat, data := if opRwd .biConflict then lineUnits 0 else [] }, msg .meta0 .a .noOp, .biConflict, 0, 0, { req .biConf with fwd := true }, 0, { open0 with twin := { Twin.reset with st := .resyncSource } }, by decide +kernel⟩

theorem test_meets_fwd_win : ∃ (port : IntakeId) (v : State) (m : M2S) (op : ReqOp) (d : Line) (be : Quad) (r : Req), Meets fun s => let s := s.frame
      s.twinIn (.intake port.val) 0x02 { prio := s.prio ((s.partOf (m.offset.toNat / 64)).getD 64), tag := m.tag.toNat, host := some m.host.val, line := m.offset.toNat / 64, aux := be.toNat, data := if opRwd op then lineUnits d else [] } = v
        ∧ v.mirroring = true ∧ (v.ip port.val).halted = false ∧ v.check { m with port := port } op d be true = .pass r ∧ r.form = .clnEvct ∧ r.plate.isSome = true :=
  ⟨0, (State.tick { { open0 with twin := { Twin.reset with st := .paired, roles := 1 } } with parts := [(0, { Part.init with st := .enabled, cfg := { PartCfg.init with winBase := 1, winSlots := 1 }, winBind := [(0, 3)] })] } 0).frame.twinIn (.intake (0 : IntakeId).val) 0x02 { prio := (State.tick { { open0 with twin := { Twin.reset with st := .paired, roles := 1 } } with parts := [(0, { Part.init with st := .enabled, cfg := { PartCfg.init with winBase := 1, winSlots := 1 }, winBind := [(0, 3)] })] } 0).frame.prio (((State.tick { { open0 with twin := { Twin.reset with st := .paired, roles := 1 } } with parts := [(0, { Part.init with st := .enabled, cfg := { PartCfg.init with winBase := 1, winSlots := 1 }, winBind := [(0, 3)] })] } 0).frame.partOf ((⟨0, 0, 2 ^ 30, .meta0, .i, .noOp, 5, none⟩ : M2S).offset.toNat / 64)).getD 64), tag := (⟨0, 0, 2 ^ 30, .meta0, .i, .noOp, 5, none⟩ : M2S).tag.toNat, host := some (⟨0, 0, 2 ^ 30, .meta0, .i, .noOp, 5, none⟩ : M2S).host.val, line := (⟨0, 0, 2 ^ 30, .meta0, .i, .noOp, 5, none⟩ : M2S).offset.toNat / 64, aux := (0 : Quad).toNat, data := if opRwd .memClnEvct then lineUnits 0 else [] }, ⟨0, 0, 2 ^ 30, .meta0, .i, .noOp, 5, none⟩, .memClnEvct, 0, 0, { req .clnEvct with plate := some 3, fwd := true }, 0, { { open0 with twin := { Twin.reset with st := .paired, roles := 1 } } with parts := [(0, { Part.init with st := .enabled, cfg := { PartCfg.init with winBase := 1, winSlots := 1 }, winBind := [(0, 3)] })] }, by decide +kernel⟩

theorem test_meets_fwd_response : ∃ (port : IntakeId) (tag : Nat) (drs : Option (Line × Bool)) (ndr : Option NdrKind) (load : DevLoad) (k : Kept) (t0 hh : Nat), Meets fun s => let s := s.frame
      s.kept? port.val tag = some k ∧ k.st = .fwd t0 ∧ k.req.host = some hh :=
  ⟨0, 0, none, none, .light, { (⟨req .wrI, .host, 5, 0, .sent, none, none, false, 0, none⟩ : Kept) with st := .fwd 0 }, 0, 0, 0, { open0 with intakes := [(0, { Intake.init with kept := [{ (⟨req .wrI, .host, 5, 0, .sent, none, none, false, 0, none⟩ : Kept) with st := .fwd 0 }] })], now := 5000000 }, by decide +kernel⟩

theorem test_meets_fwd_timeout : ∃ (port : IntakeId) (tag : Nat) (k : Kept) (t0 : Nat), Meets fun s => s.kept? port.val tag = some k ∧ k.st = .fwd t0 ∧ s.forwards k.req.part = false ∧ t0 + 5000000 ≤ s.now :=
  ⟨0, 0, { (⟨req .wrI, .host, 5, 0, .sent, none, none, false, 0, none⟩ : Kept) with st := .fwd 0 }, 0, 0, { open0 with intakes := [(0, { Intake.init with kept := [{ (⟨req .wrI, .host, 5, 0, .sent, none, none, false, 0, none⟩ : Kept) with st := .fwd 0 }] })], now := 5000000 }, by decide +kernel⟩

theorem test_meets_pf_notice : Meets fun _ => True :=
  ⟨0, up, by decide +kernel⟩

theorem test_meets_pf_notice_to : ∃ (t0 : Nat), Meets fun s => s.twin.peerFail = some t0 ∧ s.pwr.fail = none ∧ s.pwr.pfWarn = false ∧ t0 + 50000 ≤ s.now ∧ (s.twin.st = .paired ∨ s.twin.st = .resyncSource ∨ s.twin.st = .resyncTarget) :=
  ⟨0, 0, { up with twin := { Twin.reset with st := .paired, peerFail := some 0 }, now := 50000 }, by decide +kernel⟩

theorem test_meets_pf_notice_solo : ∃ (t0 : Nat), Meets fun s => s.twin.peerFail = some t0 ∧ s.pwr.fail = none ∧ s.pwr.pfWarn = false ∧ t0 + 50000 ≤ s.now ∧ s.twin.st = .split :=
  ⟨0, 0, { up with twin := { Twin.reset with st := .split, peerFail := some 0 }, now := 50000 }, by decide +kernel⟩

theorem test_meets_heat_note : ∃ (k : StookId) (x : HeatNote), Meets fun _ => True :=
  ⟨0, default, 0, up, by decide +kernel⟩

theorem test_meets_heat_window : Meets fun s => s.place.window < s.now / 1000000 :=
  ⟨0, { up with now := 1000000 }, by decide +kernel⟩

theorem test_meets_heat_window_once : Meets fun s => s.now / 1000000 ≤ s.place.window :=
  ⟨0, up, by decide +kernel⟩

theorem test_meets_cold_scan_off : Meets fun s => s.place.scanEn = false :=
  ⟨0, { up with place := { Place.reset with scanEn := false } }, by decide +kernel⟩

theorem test_meets_cold_scan : Meets fun s => s.place.scanEn = true ∧ s.scanPages = [] :=
  ⟨0, { up with place := { Place.reset with scanEn := true } }, by decide +kernel⟩

theorem test_meets_cold_scan_pages : ∃ (l : List Nat) (g : Nat), Meets fun s => s.place.scanEn = true ∧ s.scanPages = l ++ [g] :=
  ⟨[], 0, 0, { up with place := { Place.reset with scanEn := true, map := [(0, mkEntry 0 0 0 1 1 0 0)] } }, by decide +kernel⟩

theorem test_meets_round_issued : Meets fun s => s.place.round < s.now / 10000000 ∧ s.place.helio = false :=
  ⟨0, { up with now := 10000000, place := { Place.reset with helio := false } }, by decide +kernel⟩

theorem test_meets_round_moves : Meets fun s => s.place.round < s.now / 10000000 ∧ s.place.helio = true :=
  ⟨0, { up with now := 10000000, place := { Place.reset with helio := true } }, by decide +kernel⟩

theorem test_meets_round_once : Meets fun s => s.now / 10000000 ≤ s.place.round :=
  ⟨0, up, by decide +kernel⟩

theorem test_meets_move_start : ∃ (tr : BitVec 32) (v : Move), Meets fun s => (s.place.moves.find? fun v => v.tract == tr.toNat && v.phase == .start) = some v :=
  ⟨0, { (default : Move) with tract := 0, phase := .start }, 0, { up with place := { Place.reset with moves := [{ (default : Move) with tract := 0, phase := .start }] } }, by decide +kernel⟩

theorem test_meets_move_start_no : ∃ (tr : BitVec 32), Meets fun s => (s.place.moves.find? fun v => v.tract == tr.toNat && v.phase == .start) = none :=
  ⟨0, 0, up, by decide +kernel⟩

theorem test_meets_move_copied : ∃ (tr : BitVec 32) (v : Move), Meets fun s => (s.place.moves.find? fun v => v.tract == tr.toNat && v.phase == .copy) = some v ∧ (tractSlices tr.toNat).all (fun n => v.copied.contains n) = true ∧ v.own = true :=
  ⟨0, { (default : Move) with tract := 0, phase := .copy, copied := List.range 128, own := true }, 0, { up with place := { Place.reset with moves := [{ (default : Move) with tract := 0, phase := .copy, copied := List.range 128, own := true }] } }, by decide +kernel⟩

theorem test_meets_move_copied_paired : ∃ (tr : BitVec 32) (v : Move), Meets fun s => (s.place.moves.find? fun v => v.tract == tr.toNat && v.phase == .copy) = some v ∧ (tractSlices tr.toNat).all (fun n => v.copied.contains n) = true ∧ v.own = false :=
  ⟨0, { (default : Move) with tract := 0, phase := .copy, copied := List.range 128 }, 0, { up with twin := { Twin.reset with st := .paired }, place := { Place.reset with moves := [{ (default : Move) with tract := 0, phase := .copy, copied := List.range 128 }] } }, by decide +kernel⟩

theorem test_meets_move_copied_wait : ∃ (tr : BitVec 32) (v : Move), Meets fun s => (s.place.moves.find? fun v => v.tract == tr.toNat && v.phase == .copy) = some v ∧ (tractSlices tr.toNat).all (fun n => v.copied.contains n) = false :=
  ⟨0, { (default : Move) with tract := 0, phase := .copy }, 0, { up with place := { Place.reset with moves := [{ (default : Move) with tract := 0, phase := .copy }] } }, by decide +kernel⟩

theorem test_meets_commit_mark : ∃ (n : SliceId) (i : IntakeId), Meets fun s => (s.markCommit n.val i.val).drainedHere n.val = [] :=
  ⟨0, 0, 0, up, by decide +kernel⟩

theorem test_meets_commit_mark_full : ∃ (n : SliceId) (i : IntakeId) (r : MovRec) (l : List MovRec), Meets fun s => (s.markCommit n.val i.val).drainedHere n.val = r :: l :=
  ⟨0, 0, { (default : MovRec) with committed := true, marks := [0,1,2,3,4,5,6,7,8,9,10,11,12,13,14,15] }, [], 0, { up with slices := [(0, { Slice.init 0 with banks := { Banks.init 0 with moves := [{ (default : MovRec) with committed := true, marks := [0,1,2,3,4,5,6,7,8,9,10,11,12,13,14,15] }] } })] }, by decide +kernel⟩

theorem test_meets_move_done : ∃ (tr : BitVec 32) (v : Move), Meets fun s => (s.place.moves.find? fun v => v.tract == tr.toNat && v.phase == .drain) = some v ∧ s.moveOpen tr.toNat = false :=
  ⟨0, { (default : Move) with tract := 0, phase := .drain }, 0, { up with place := { Place.reset with moves := [{ (default : Move) with tract := 0, phase := .drain }] } }, by decide +kernel⟩

theorem test_meets_move_done_wait : ∃ (tr : BitVec 32) (v : Move), Meets fun s => (s.place.moves.find? fun v => v.tract == tr.toNat && v.phase == .drain) = some v ∧ s.moveOpen tr.toNat = true :=
  ⟨0, { (default : Move) with tract := 0, phase := .drain }, 0, { up with place := { Place.reset with moves := [{ (default : Move) with tract := 0, phase := .drain }] }, slices := [(0, { Slice.init 0 with banks := { Banks.init 0 with moves := [default] } })] }, by decide +kernel⟩

theorem test_meets_patrol_line : ∃ (n : SliceId) (line : BitVec 42) (e : Quad) (k : Nat), Meets fun s => s.mapEntry (tractOf line.toNat) = some e ∧ s.freeInt n.val .scrub = some k ∧ s.blk.patrolEn = true ∧ s.homeSlice line.toNat = n.val ∧ s.fencedSlice n.val = false
        ∧ s.scrubNext (sliceOf line.toNat) = some (scrubPos line.toNat) ∧ s.win.failsafe = false ∧ ((s.livePlaces n.val line.toNat).any fun p => s.yields p.1 true) = false :=
  ⟨Fin.ofNat 128 (sliceOf 0), 0, mkEntry 0 0 0 1 1 0 0, 512, 0, { up with blk := { Blk.reset with patrolEn := true }, place := { Place.reset with map := [(0, mkEntry 0 0 0 1 1 0 0)] } }, by decide +kernel⟩

theorem test_meets_patrol_off : ∃ (n : SliceId) (line : BitVec 42), Meets fun s => s.blk.patrolEn = false ∨ s.homeSlice line.toNat ≠ n.val ∨ s.scrubNext (sliceOf line.toNat) ≠ some (scrubPos line.toNat)
        ∨ ((s.livePlaces n.val line.toNat).any fun p => s.yields p.1 true) = true ∨ s.mapEntry (tractOf line.toNat) = none ∨ s.freeInt n.val .scrub = none :=
  ⟨0, 0, 0, up, by decide +kernel⟩

theorem test_meets_pass_complete : Meets fun s => s.blk.patrolEn = true ∧ s.scrubbing = false ∧ (List.range 128).all s.shareDone = true :=
  ⟨0, { up with blk := { Blk.reset with patrolEn := true } }, by decide +kernel⟩

theorem test_meets_pass_open : Meets fun s => s.blk.patrolEn = false ∨ s.scrubbing = true ∨ (List.range 128).all s.shareDone = false :=
  ⟨0, { up with blk := { Blk.reset with patrolEn := false } }, by decide +kernel⟩

theorem test_meets_array_clean : ∃ (w : ArrayWord), Meets fun s => s.scrubbed w = true :=
  ⟨{ (default : ArrayWord) with kind := 2 }, 0, { up with blk := { Blk.reset with arrayEn := true } }, by decide +kernel⟩

theorem test_meets_array_ce : ∃ (w : ArrayWord) (lost : List (Nat × Bool)), Meets fun s => s.scrubbed w = true :=
  ⟨{ (default : ArrayWord) with kind := 2 }, [], 0, { up with blk := { Blk.reset with arrayEn := true } }, by decide +kernel⟩

theorem test_meets_array_ue : ∃ (w : ArrayWord), Meets fun s => s.scrubbed w = true :=
  ⟨{ (default : ArrayWord) with kind := 2 }, 0, { up with blk := { Blk.reset with arrayEn := true } }, by decide +kernel⟩

theorem test_meets_array_off : ∃ (w : ArrayWord) (f : WordFault), Meets fun s => s.scrubbed w = false :=
  ⟨default, .clean, 0, up, by decide +kernel⟩

theorem test_meets_lane_expiry : ∃ (k : StookId) (m : MediaId) (sym : Fin 72) (bit : Fin 8), Meets fun s => ((s.stk k.val).lanes.any fun e => e.port == m.val && e.sym == sym.val && e.bit == bit.val && e.first + s.blk.laneWindow * 1000000 ≤ s.now) = true :=
  ⟨0, 0, 0, 0, 0, { up with now := 2000000000, stooks := [(0, { Stook.init with lanes := [{ (default : LaneEnt) with port := 0 }] })] }, by decide +kernel⟩

theorem test_meets_lane_expiry_none : ∃ (k : StookId) (m : MediaId) (sym : Fin 72) (bit : Fin 8), Meets fun s => ((s.stk k.val).lanes.any fun e => e.port == m.val && e.sym == sym.val && e.bit == bit.val && e.first + s.blk.laneWindow * 1000000 ≤ s.now) = false :=
  ⟨0, 0, 0, 0, 0, up, by decide +kernel⟩

theorem test_meets_lane_steer : ∃ (m : MediaId), Meets fun s => (s.mp m.val).erase = true ∧ (s.mp m.val).erasePerm = false ∧ (s.mp m.val).spareUsed = false :=
  ⟨0, 0, { up with mports := [(0, { MPort.init with erase := true })] }, by decide +kernel⟩

theorem test_meets_lane_steer_no : ∃ (m : MediaId), Meets fun s => (s.mp m.val).erase = false ∨ (s.mp m.val).erasePerm = true ∨ (s.mp m.val).spareUsed = true :=
  ⟨0, 0, up, by decide +kernel⟩

theorem test_meets_win_take : ∃ (src : SrcId) (v : Ev), Meets fun s => (s.events.find? fun v => v.src == src.val && !s.evTaken v) = some v :=
  ⟨3, { (default : Ev) with src := 3, seq := 0 }, 0, { up with events := [{ (default : Ev) with src := 3, seq := 0 }] }, by decide +kernel⟩

theorem test_meets_win_none : ∃ (src : SrcId), Meets fun s => (s.events.find? fun v => v.src == src.val && !s.evTaken v) = none :=
  ⟨3, 0, up, by decide +kernel⟩

theorem test_meets_win_raised : ∃ (src : SrcId) (x : EvIn) (v : Ev), Meets fun s => noSource src.val = false ∧ ((s.raiseC src.val x.kind.toNat none x.line.toNat x.part.val x.unit.val x.extra.val).events.find? fun v => v.src == src.val && !(s.raiseC src.val x.kind.toNat none x.line.toNat x.part.val x.unit.val x.extra.val).evTaken v) = some v :=
  ⟨3, default, { (default : Ev) with src := 3, seq := 0 }, 0, up, by decide +kernel⟩

theorem test_meets_win_reserved : ∃ (src : SrcId) (x : EvIn), Meets fun s => noSource src.val = true ∧ (s.events.find? fun v => v.src == src.val && !s.evTaken v) = none :=
  ⟨0x5AB, default, 0, up, by decide +kernel⟩

theorem test_meets_raise_room : ∃ (src : SrcId) (x : EvIn), Meets fun s => noSource src.val = false ∧ s.win.taken = [] ∧ s.events = [] :=
  ⟨3, default, 0, up, by decide +kernel⟩

theorem test_meets_raise_full : ∃ (src : SrcId) (x : EvIn), Meets fun s => noSource src.val = false ∧ 4 ≤ (s.events.filter fun w => w.src == src.val).length ∧ (s.events.find? fun w => w.src == src.val && !s.evTaken w) = none :=
  ⟨3, default, 0, { up with events := List.replicate 4 { (default : Ev) with src := 3, seq := 0 }, win := { Win.reset with taken := [(3, 0)] } }, by decide +kernel⟩

theorem test_meets_resend_ev : ∃ (src : SrcId) (v : Ev), Meets fun s => (s.events.find? fun v => v.src == src.val && v.sent + 10000 ≤ s.now) = some v ∧ v.repeats < 8 ∧ s.evTaken v = false :=
  ⟨3, { (default : Ev) with src := 3, seq := 0 }, 0, { up with now := 10000, events := [{ (default : Ev) with src := 3, seq := 0 }] }, by decide +kernel⟩

theorem test_meets_resend_taken : ∃ (src : SrcId) (v : Ev), Meets fun s => (s.events.find? fun v => v.src == src.val && v.sent + 10000 ≤ s.now) = some v ∧ v.repeats < 8 ∧ s.evTaken v = true :=
  ⟨3, { (default : Ev) with src := 3, seq := 0 }, 0, { up with now := 10000, events := [{ (default : Ev) with src := 3, seq := 0 }], win := { Win.reset with taken := [(3, 0)] } }, by decide +kernel⟩

theorem test_meets_resend_line : ∃ (src : SrcId) (v : Ev), Meets fun s => (s.events.find? fun v => v.src == src.val && v.sent + 10000 ≤ s.now) = some v ∧ 8 ≤ v.repeats :=
  ⟨3, { (default : Ev) with src := 3, repeats := 8 }, 0, { up with now := 10000, events := [{ (default : Ev) with src := 3, repeats := 8 }] }, by decide +kernel⟩

theorem test_meets_resend_idle : ∃ (src : SrcId), Meets fun s => (s.events.find? fun v => v.src == src.val && v.sent + 10000 ≤ s.now) = none :=
  ⟨3, 0, up, by decide +kernel⟩

theorem test_meets_event_line : ∃ (x : HsUnit), Meets fun _ => True :=
  ⟨.slice 0, 0, up, by decide +kernel⟩

theorem test_meets_shadow_none : ∃ (recno : Word), Meets fun s => (s.pruneReacts.win.shadowed.find? fun x => x.1 == recno.toNat) = none :=
  ⟨4, 0, up, by decide +kernel⟩

theorem test_meets_shadow_end : ∃ (recno : Word) (x : Nat × Ev), Meets fun s => (s.pruneReacts.win.shadowed.find? fun x => x.1 == recno.toNat) = some x ∧ s.pruneReacts.shadowOver recno.toNat = true :=
  ⟨4, (4, { (default : Ev) with src := 3, seq := 0 }), 0, { up with win := { Win.reset with shadowed := [(4, { (default : Ev) with src := 3, seq := 0 })] } }, by decide +kernel⟩

theorem test_meets_shadow_on : ∃ (recno : Word) (x : Nat × Ev), Meets fun s => (s.pruneReacts.win.shadowed.find? fun x => x.1 == recno.toNat) = some x ∧ s.pruneReacts.shadowOver recno.toNat = false :=
  ⟨4, (4, { (default : Ev) with src := 3, seq := 0 }), 0, { up with win := { Win.reset with shadowed := [(4, { (default : Ev) with src := 3, seq := 0 })], recs := [{ (default : AlmRec) with recno := 4, parent := some 2 }], reacts := [{ (default : Reaction) with recno := 2, kind := .failsafe }] } }, by decide +kernel⟩

theorem test_meets_alive : Meets fun s => s.win.aliveRun = true ∧ s.now % 500000 = 0 :=
  ⟨0, { up with win := { Win.reset with aliveRun := true } }, by decide +kernel⟩

theorem test_meets_alive_not : Meets fun s => s.win.aliveRun = false ∨ s.now % 500000 ≠ 0 :=
  ⟨0, up, by decide +kernel⟩

theorem test_meets_vote_same : ∃ (f : VotedField) (a b c : Word), Meets fun s => s.votedCopy f a = s.votedCopy f b ∧ s.votedCopy f b = s.votedCopy f c :=
  ⟨.ringMode, 0, 0, 0, 0, up, by decide +kernel⟩

theorem test_meets_vote_one : ∃ (f : VotedField) (a b : Word) (k : Fin 3), Meets fun s => s.votedCopy f a ≠ s.votedCopy f b :=
  ⟨.ringMode, 0, 1, 0, 0, up, by decide +kernel⟩

theorem test_meets_vote_two : ∃ (f : VotedField) (a b c : Word), Meets fun s => s.votedCopy f a ≠ s.votedCopy f b ∧ s.votedCopy f a ≠ s.votedCopy f c ∧ s.votedCopy f b ≠ s.votedCopy f c :=
  ⟨.ringMode, 0, 1, 2, 0, up, by decide +kernel⟩

theorem test_meets_first_clear : Meets fun s => s.pruneReacts.firstBusy = false :=
  ⟨0, up, by decide +kernel⟩

theorem test_meets_first_refused : Meets fun s => s.pruneReacts.firstBusy = true :=
  ⟨0, { up with win := { Win.reset with failsafe := true } }, by decide +kernel⟩

theorem test_meets_inject : ∃ (v : Word), Meets fun s => s.pwr.factory = true ∧ s.win.failsafe = false :=
  ⟨0, 0, { up with pwr := { up.pwr with factory := true } }, by decide +kernel⟩

theorem test_meets_inject_not : ∃ (v : Word), Meets fun s => s.pwr.factory = false :=
  ⟨0, 0, up, by decide +kernel⟩

theorem test_meets_inject_off : ∃ (v : Word), Meets fun s => s.pwr.factory = true ∧ s.win.failsafe = true :=
  ⟨0, 0, { up with pwr := { up.pwr with factory := true }, win := { Win.reset with failsafe := true } }, by decide +kernel⟩

theorem test_meets_watchdog_alidade : Meets fun s => s.selector = none :=
  ⟨0, up, by decide +kernel⟩

theorem test_meets_watchdog_active : ∃ (x : Nat × Nat × Bool), Meets fun s => s.selector = some x :=
  ⟨(0, 1, true), 0, { up with pwr := { up.pwr with sels := [(0, (1, true))] } }, by decide +kernel⟩

theorem test_meets_rails_good : ∃ (fm : Bool), Meets fun s => s.pwr.railsUp = false :=
  ⟨true, 0, State.reset, by decide +kernel⟩

theorem test_meets_rails_already : ∃ (fm : Bool), Meets fun s => s.pwr.railsUp = true :=
  ⟨true, 0, up, by decide +kernel⟩

theorem test_meets_otp_load : ∃ (a b c : BitVec 16384), Meets fun s => s.pwr.step = 2 ∧ s.pwr.railsUp = true ∧ s.pwr.fail = none ∧ otpBroken (otpVote a b c) 1 = false ∧ otpBroken (otpVote a b c) 2 = false :=
  ⟨BitVec.ofNat 16384 ((5 + otpTrailer 1 5 <<< 256) <<< 4864), BitVec.ofNat 16384 ((5 + otpTrailer 1 5 <<< 256) <<< 4864), BitVec.ofNat 16384 ((5 + otpTrailer 1 5 <<< 256) <<< 4864), 0, { up with pwr := { up.pwr with step := 2 } }, by decide +kernel⟩

theorem test_meets_otp_broken : ∃ (a b c : BitVec 16384), Meets fun s => s.pwr.step = 2 ∧ s.pwr.railsUp = true ∧ s.pwr.fail = none ∧ (otpBroken (otpVote a b c) 1 = true ∨ otpBroken (otpVote a b c) 2 = true) :=
  ⟨0, 0, 0, 0, { up with pwr := { up.pwr with step := 2 } }, by decide +kernel⟩

theorem test_meets_otp_not : ∃ (a b c : BitVec 16384), Meets fun s => s.pwr.step ≠ 2 ∨ s.pwr.railsUp = false ∨ s.pwr.fail.isSome = true :=
  ⟨0, 0, 0, 0, up, by decide +kernel⟩

theorem test_meets_bist : ∃ (l : List (BitVec 23)), Meets fun s => s.pwr.step = 3 ∧ s.pwr.fail = none :=
  ⟨[], 0, { up with pwr := { up.pwr with step := 3 } }, by decide +kernel⟩

theorem test_meets_bist_not : ∃ (l : List (BitVec 23)), Meets fun s => s.pwr.step ≠ 3 ∨ s.pwr.fail.isSome = true :=
  ⟨[], 0, up, by decide +kernel⟩

theorem test_meets_boot_active : ∃ (x : BootInput), Meets fun s => s.pwr.step = 7 ∧ s.pwr.fail = none ∧ (if (s.bootTables x).activeBlock then x.ok1 else x.ok0) = true :=
  ⟨{ (default : BootInput) with ok0 := true, ok1 := true }, 0, { up with pwr := { up.pwr with step := 7 } }, by decide +kernel⟩

theorem test_meets_boot_other : ∃ (x : BootInput), Meets fun s => s.pwr.step = 7 ∧ s.pwr.fail = none ∧ (if (s.bootTables x).activeBlock then x.ok1 else x.ok0) = false ∧ (if (s.bootTables x).activeBlock then x.ok0 else x.ok1) = true :=
  ⟨{ (default : BootInput) with ok1 := true }, 0, { up with pwr := { up.pwr with step := 7 } }, by decide +kernel⟩

theorem test_meets_boot_grave : ∃ (x : BootInput), Meets fun s => s.pwr.step = 7 ∧ s.pwr.fail = none ∧ x.ok0 = false ∧ x.ok1 = false :=
  ⟨default, 0, { up with pwr := { up.pwr with step := 7 } }, by decide +kernel⟩

theorem test_meets_boot_not : ∃ (x : BootInput), Meets fun s => s.pwr.step ≠ 7 ∨ s.pwr.fail.isSome = true :=
  ⟨default, 0, up, by decide +kernel⟩

theorem test_meets_dir_solo : ∃ (x : CloseInput), Meets fun s => s.pwr.step = 8 ∧ s.pwr.fail = none ∧ s.twin.st = .unpaired :=
  ⟨default, 0, { up with pwr := { up.pwr with step := 8 } }, by decide +kernel⟩

theorem test_meets_dir_paired : ∃ (x : CloseInput), Meets fun s => s.pwr.step = 8 ∧ s.pwr.fail = none ∧ s.twin.st ≠ .unpaired ∧ s.twin.shake = none :=
  ⟨default, 0, { { up with pwr := { up.pwr with step := 8 } } with twin := { Twin.reset with st := .seeking } }, by decide +kernel⟩

theorem test_meets_dir_meets : ∃ (x : CloseInput) (y : Handshake), Meets fun s => s.pwr.step = 8 ∧ s.pwr.fail = none ∧ s.twin.st ≠ .unpaired ∧ s.twin.shake = some y :=
  ⟨default, default, 0, { { up with pwr := { up.pwr with step := 8 } } with twin := { Twin.reset with st := .seeking, shake := some default } }, by decide +kernel⟩

theorem test_meets_dir_not : ∃ (x : CloseInput), Meets fun s => s.pwr.step ≠ 8 ∨ s.pwr.fail.isSome = true :=
  ⟨default, 0, up, by decide +kernel⟩

theorem test_meets_gen_bad : ∃ (x : GenInput), Meets fun s => s.pwr.step = 9 ∧ s.pwr.refresh = false ∧ s.pwr.fail = none ∧ x.readable = false :=
  ⟨default, 0, { up with pwr := { up.pwr with step := 9 } }, by decide +kernel⟩

theorem test_meets_gen_clean : ∃ (x : GenInput), Meets fun s => s.pwr.step = 9 ∧ s.pwr.refresh = false ∧ s.pwr.fail = none ∧ x.readable = true ∧ (s.startRecords x).dirGen.unclean = false :=
  ⟨{ (default : GenInput) with readable := true }, 0, { up with pwr := { up.pwr with step := 9 } }, by decide +kernel⟩

theorem test_meets_gen_advance : ∃ (x : GenInput), Meets fun s => s.pwr.step = 9 ∧ s.pwr.refresh = false ∧ s.pwr.fail = none ∧ x.readable = true ∧ (s.startRecords x).dirGen.unclean = true ∧ ((List.range 128).any fun n => (s.startRecords x).advLeft n = 0) = false :=
  ⟨{ (default : GenInput) with readable := true }, 0, { up with pwr := { up.pwr with step := 9 }, dirGen := { State.reset.dirGen with unclean := true } }, by decide +kernel⟩

theorem test_meets_gen_refresh : ∃ (x : GenInput), Meets fun s => s.pwr.step = 9 ∧ s.pwr.refresh = false ∧ s.pwr.fail = none ∧ x.readable = true ∧ (s.startRecords x).dirGen.unclean = true ∧ ((List.range 128).any fun n => (s.startRecords x).advLeft n = 0) = true :=
  ⟨{ (default : GenInput) with readable := true, dg := List.replicate 128 15 }, 0, { up with pwr := { up.pwr with step := 9 }, dirGen := { State.reset.dirGen with unclean := true } }, by decide +kernel⟩

theorem test_meets_gen_not : ∃ (x : GenInput), Meets fun s => s.pwr.step ≠ 9 ∨ s.pwr.refresh = true ∨ s.pwr.fail.isSome = true :=
  ⟨default, 0, up, by decide +kernel⟩

theorem test_meets_refresh : Meets fun s => s.pwr.refresh = true ∧ s.pwr.refreshing = false ∧ s.pwr.fail = none :=
  ⟨0, { up with pwr := { up.pwr with refresh := true } }, by decide +kernel⟩

theorem test_meets_refresh_not : Meets fun s => s.pwr.refresh = false ∨ s.pwr.refreshing = true ∨ s.pwr.fail.isSome = true :=
  ⟨0, up, by decide +kernel⟩

theorem test_meets_glitch : ∃ (r : Rail), Meets fun s => s.pwr.rail r = true :=
  ⟨.ret, 0, up, by decide +kernel⟩

theorem test_meets_glitch_down : ∃ (r : Rail), Meets fun s => s.pwr.rail r = false :=
  ⟨.otp, 0, up, by decide +kernel⟩

theorem test_meets_rail_fault : ∃ (r : Rail), Meets fun s => s.pwr.railsUp = true ∧ s.pwr.readyOff = false ∧ (r = .otp → s.pwr.otpJob.isSome = true) :=
  ⟨.core, 0, up, by decide +kernel⟩

theorem test_meets_rail_fault_off : ∃ (r : Rail), Meets fun s => s.pwr.railsUp = true ∧ s.pwr.readyOff = true ∧ r ≠ .otp :=
  ⟨.core, 0, { up with pwr := { up.pwr with readyOff := true } }, by decide +kernel⟩

theorem test_meets_rail_fault_no : ∃ (r : Rail), Meets fun s => s.pwr.railsUp = false ∨ (r = .otp ∧ s.pwr.otpJob = none) :=
  ⟨.core, 0, State.reset, by decide +kernel⟩

theorem test_meets_margin_write : ∃ (v : Word), Meets fun s => s.win.failsafe = false :=
  ⟨5, 0, up, by decide +kernel⟩

theorem test_meets_margin_up : Meets fun s => s.pwr.current < s.pwr.target :=
  ⟨0, { up with pwr := { up.pwr with target := 5 } }, by decide +kernel⟩

theorem test_meets_margin_down : Meets fun s => s.pwr.target < s.pwr.current :=
  ⟨0, { up with pwr := { up.pwr with target := -5 } }, by decide +kernel⟩

theorem test_meets_margin_there : Meets fun s => s.pwr.current = s.pwr.target :=
  ⟨0, up, by decide +kernel⟩

theorem test_meets_press_short : ∃ (d : Ns), Meets fun _ => d < 50000000 :=
  ⟨0, 0, up, by decide +kernel⟩

theorem test_meets_press_window : ∃ (d : Ns), Meets fun _ => 50000000 ≤ d ∧ d ≤ 2000000000 :=
  ⟨2000000000, 0, up, by decide +kernel⟩

theorem test_meets_press_long : ∃ (d : Ns), Meets fun _ => 2000000000 < d ∧ d < 8000000000 :=
  ⟨7999999999, 0, up, by decide +kernel⟩

theorem test_meets_press_acted : ∃ (d : Ns), Meets fun _ => 8000000000 ≤ d :=
  ⟨8000000000, 0, up, by decide +kernel⟩

theorem test_meets_forced_off : Meets fun s => s.pwr.fail = none ∧ s.pwr.stopping = false ∧ s.pwr.readyOff = false ∧ s.pwr.railsUp = true :=
  ⟨0, up, by decide +kernel⟩

theorem test_meets_forced_again : Meets fun s => s.pwr.fail.isSome = true ∨ s.pwr.stopping = true ∨ s.pwr.readyOff = true ∨ s.pwr.railsUp = false :=
  ⟨0, State.reset, by decide +kernel⟩

theorem test_meets_presence_end : ∃ (e : Nat), Meets fun s => s.pwr.presence = some e ∧ e ≤ s.now :=
  ⟨0, 0, { up with pwr := { up.pwr with presence := some 0 } }, by decide +kernel⟩

theorem test_meets_presence_open : Meets fun s => ∀ e, s.pwr.presence = some e → s.now < e :=
  ⟨0, up, by decide +kernel⟩

theorem test_meets_pf_warn : Meets fun s => s.pwr.fail = none ∧ s.pwr.st ≠ .halt ∧ s.pwr.railsUp = true ∧ 11 ≤ s.pwr.step :=
  ⟨0, up, by decide +kernel⟩

theorem test_meets_pf_early : Meets fun s => s.pwr.fail = none ∧ s.pwr.st ≠ .halt ∧ s.pwr.railsUp = true ∧ s.pwr.step < 11 :=
  ⟨0, { up with pwr := { up.pwr with step := 4 } }, by decide +kernel⟩

theorem test_meets_pf_again : Meets fun s => s.pwr.fail.isSome = true ∨ s.pwr.st = .halt ∨ s.pwr.railsUp = false :=
  ⟨0, State.reset, by decide +kernel⟩

theorem test_meets_pf_glitch : Meets fun _ => True :=
  ⟨0, up, by decide +kernel⟩

theorem test_meets_drain_done : ∃ (f : PwrFail), Meets fun s => s.pwr.fail = some f ∧ f.drained = false ∧ s.pwr.st ≠ .halt ∧ s.draining f = false ∧ f.early = false :=
  ⟨{ (default : PwrFail) with early := false }, 0, { up with pwr := { up.pwr with fail := some { (default : PwrFail) with early := false } } }, by decide +kernel⟩

theorem test_meets_drain_early : ∃ (f : PwrFail), Meets fun s => s.pwr.fail = some f ∧ f.drained = false ∧ s.pwr.st ≠ .halt ∧ s.draining f = false ∧ f.early = true :=
  ⟨{ (default : PwrFail) with early := true }, 0, { up with pwr := { up.pwr with fail := some { (default : PwrFail) with early := true } } }, by decide +kernel⟩

theorem test_meets_drain_waits : ∃ (f : PwrFail), Meets fun s => s.pwr.fail = some f ∧ (f.drained = true ∨ s.pwr.st = .halt ∨ s.draining f = true) :=
  ⟨{ (default : PwrFail) with drained := true }, 0, { up with pwr := { up.pwr with fail := some { (default : PwrFail) with drained := true } } }, by decide +kernel⟩

theorem test_meets_drain_none : Meets fun s => s.pwr.fail = none :=
  ⟨0, up, by decide +kernel⟩

theorem test_meets_gasp_done : ∃ (k : Nat) (r : List Byte), Meets fun s => (s.pwr.fail.bind fun f => f.record) = some (k, r) ∧ s.pwr.st ≠ .halt :=
  ⟨1, [], 0, { up with pwr := { up.pwr with fail := some { (default : PwrFail) with record := some (1, []) } } }, by decide +kernel⟩

theorem test_meets_gasp_none : Meets fun s => (s.pwr.fail.bind fun f => f.record) = none :=
  ⟨0, up, by decide +kernel⟩

theorem test_meets_flash_free : ∃ (i : Fin 64) (v : Byte), Meets fun s => Tbl.find s.pwr.flash i.val = none :=
  ⟨0, 1, 0, up, by decide +kernel⟩

theorem test_meets_flash_again : ∃ (i : Fin 64) (v : Byte) (d : FlashDesc), Meets fun s => Tbl.find s.pwr.flash i.val = some d ∧ (d.status ≠ 0 ∨ v = 0) :=
  ⟨0, 0, { (default : FlashDesc) with status := 0 }, 0, { up with pwr := { up.pwr with flash := [(0, { (default : FlashDesc) with status := 0 })] } }, by decide +kernel⟩

theorem test_meets_flash_alone : ∃ (i : Fin 64) (v : Byte) (d : FlashDesc), Meets fun s => Tbl.find s.pwr.flash i.val = some d ∧ d.status = 0 ∧ v ≠ 0 ∧ (s.pwr.flashJob = none ∨ ∃ j, s.pwr.flashJob = some j ∧ j.cur ≠ some i.val) :=
  ⟨0, 1, { (default : FlashDesc) with status := 0 }, 0, { up with pwr := { up.pwr with flash := [(0, { (default : FlashDesc) with status := 0 })] } }, by decide +kernel, by decide +kernel, by decide +kernel, .inl (by decide +kernel)⟩

theorem test_meets_flash_next : ∃ (i : Fin 64) (d : FlashDesc) (j : FlashJob), Meets fun s => Tbl.find s.pwr.flash i.val = some d ∧ d.status = 0 ∧ s.pwr.flashJob = some j ∧ j.cur = some i.val ∧ j.todo ≠ [] :=
  ⟨0, { (default : FlashDesc) with status := 0 }, { (default : FlashJob) with cur := some 0, mb := 0, todo := [default] }, 0, { up with pwr := { up.pwr with flash := [(0, { (default : FlashDesc) with status := 0 })], flashJob := some { (default : FlashJob) with cur := some 0, mb := 0, todo := [default] } } }, by decide +kernel⟩

theorem test_meets_flash_last : ∃ (i : Fin 64) (d : FlashDesc) (j : FlashJob), Meets fun s => Tbl.find s.pwr.flash i.val = some d ∧ d.status = 0 ∧ s.pwr.flashJob = some j ∧ j.cur = some i.val ∧ j.todo = [] :=
  ⟨0, { (default : FlashDesc) with status := 0 }, { (default : FlashJob) with cur := some 0, mb := 0, todo := [] }, 0, { up with pwr := { up.pwr with flash := [(0, { (default : FlashDesc) with status := 0 })], flashJob := some { (default : FlashJob) with cur := some 0, mb := 0, todo := [] } } }, by decide +kernel⟩

theorem test_meets_flash_error : ∃ (i : Fin 64) (v : Byte) (d : FlashDesc) (j : FlashJob), Meets fun s => Tbl.find s.pwr.flash i.val = some d ∧ d.status = 0 ∧ v ≠ 0 ∧ v ≠ 1 ∧ s.pwr.flashJob = some j ∧ j.cur = some i.val :=
  ⟨0, 2, { (default : FlashDesc) with status := 0 }, { (default : FlashJob) with cur := some 0, mb := 0 }, 0, { up with pwr := { up.pwr with flash := [(0, { (default : FlashDesc) with status := 0 })], flashJob := some { (default : FlashJob) with cur := some 0, mb := 0 } } }, by decide +kernel⟩

theorem test_meets_otp_none : ∃ (x : BitVec 16384), Meets fun s => s.pwr.otpJob = none :=
  ⟨0, 0, up, by decide +kernel⟩

theorem test_meets_otp_slot : ∃ (x : BitVec 16384) (j : OtpJob) (k : Nat), Meets fun s => s.pwr.otpJob = some j ∧ otpNext s.pwr.otp j.group = some k ∧ ((s.onPwr fun q => { q with railOtp := true }).otpWrite j.group k j.payload x).1 = true :=
  ⟨BitVec.ofNat 16384 (otpTrailer 5 0 <<< 16256), { (default : OtpJob) with group := 5 }, 0, 0, { up with pwr := { up.pwr with otpJob := some { (default : OtpJob) with group := 5 } } }, by decide +kernel⟩

theorem test_meets_otp_bad : ∃ (x : BitVec 16384) (j : OtpJob) (k : Nat), Meets fun s => s.pwr.otpJob = some j ∧ otpNext s.pwr.otp j.group = some k ∧ ((s.onPwr fun q => { q with railOtp := true }).otpWrite j.group k j.payload x).1 = false ∧ j.group ≠ 4 :=
  ⟨0, { (default : OtpJob) with group := 5 }, 0, 0, { up with pwr := { up.pwr with otpJob := some { (default : OtpJob) with group := 5 } } }, by decide +kernel⟩

theorem test_meets_otp_full : ∃ (x : BitVec 16384) (j : OtpJob), Meets fun s => s.pwr.otpJob = some j ∧ otpNext s.pwr.otp j.group = none :=
  ⟨0, { (default : OtpJob) with group := 5 }, 0, { up with pwr := { up.pwr with otp := BitVec.ofNat 16384 ((2 ^ 128 - 1) <<< 16256), otpJob := some { (default : OtpJob) with group := 5 } } }, by decide +kernel⟩

theorem test_meets_gap_req : ∃ (n : SliceId) (i : IntakeId) (k : BitVec 12), Meets fun s => s.resends.contains (.req i n k) = false :=
  ⟨0, 0, 3, 0, up, by decide +kernel⟩

theorem test_meets_gap_slice : ∃ (n : SliceId) (k : BitVec 12), Meets fun s => s.resends.contains (.twinSlice n k) = false :=
  ⟨0, 3, 0, up, by decide +kernel⟩

theorem test_meets_gap_intake : ∃ (i : IntakeId) (k : BitVec 12), Meets fun s => s.resends.contains (.twinIntake i k) = false :=
  ⟨0, 3, 0, up, by decide +kernel⟩

theorem test_meets_gap_again : ∃ (x : StreamRef), Meets fun s => s.resends.contains x = true :=
  ⟨.req 0 0 3, 0, { up with resends := [.req 0 0 3] }, by decide +kernel⟩

theorem test_meets_resend_req : ∃ (i : IntakeId) (n : SliceId) (k : BitVec 12), Meets fun s => s.resends.contains (.req i n k) = true :=
  ⟨0, 0, 3, 0, { up with resends := [.req 0 0 3] }, by decide +kernel⟩

theorem test_meets_resend_twin : ∃ (x : StreamRef), Meets fun s => s.resends.contains x = true ∧ ∀ i n k, x ≠ .req i n k :=
  ⟨.twinSlice 0 3, 0, { up with resends := [.twinSlice 0 3] }, by decide +kernel, by intro i n k; simp⟩

theorem test_meets_resend_none : ∃ (x : StreamRef), Meets fun s => s.resends.contains x = false :=
  ⟨.req 0 0 3, 0, up, by decide +kernel⟩

theorem test_meets_credit_stream : ∃ (i : IntakeId) (n : SliceId), Meets fun s => s.credits.contains (.stream i n) = true :=
  ⟨0, 0, 0, { up with credits := [.stream 0 0] }, by decide +kernel⟩

theorem test_meets_credit_event : ∃ (src : SrcId) (q : BitVec 16), Meets fun s => s.credits.contains (.event src q) = true :=
  ⟨3, 0, 0, { up with credits := [.event 3 0], events := [{ (default : Ev) with src := 3, seq := 0 }] }, by decide +kernel⟩

theorem test_meets_credit_other : ∃ (x : CreditRef), Meets fun s => s.credits.contains x = true ∧ (∀ i n, x ≠ .stream i n) ∧ ∀ a b, x ≠ .event a b :=
  ⟨.snoop 0 0, 0, { up with credits := [.snoop 0 0] }, by decide +kernel, by intro i n; simp, by intro i n; simp⟩

theorem test_meets_credit_none : ∃ (x : CreditRef), Meets fun s => s.credits.contains x = false :=
  ⟨.stream 0 0, 0, up, by decide +kernel⟩

theorem test_meets_pack_echo : ∃ (i : IntakeId), Meets fun s => (s.ip i.val).echoPack.recs ≠ [] ∧ (s.ip i.val).echoPack.since + 20 ≤ s.now :=
  ⟨0, 0, { up with now := 20, intakes := [(0, { Intake.init with echoPack := ⟨[.moveCopied 0], 0⟩ })] }, by decide +kernel⟩

theorem test_meets_pack_release : ∃ (i : IntakeId), Meets fun s => (s.ip i.val).relPack.recs ≠ [] ∧ (s.ip i.val).relPack.since + 20 ≤ s.now :=
  ⟨0, 0, { up with now := 20, intakes := [(0, { Intake.init with relPack := ⟨[.moveCopied 0], 0⟩ })] }, by decide +kernel⟩

theorem test_meets_pack_settle : ∃ (n : SliceId), Meets fun s => (s.slc n.val).front.pack.recs ≠ [] ∧ (s.slc n.val).front.pack.since + 20 ≤ s.now :=
  ⟨0, 0, { up with now := 20, slices := [(0, { Slice.init 0 with front := { Front.init with pack := ⟨[.moveCopied 0], 0⟩ } })] }, by decide +kernel⟩

theorem test_meets_pack_young : ∃ (i : IntakeId), Meets fun s => (s.ip i.val).echoPack.recs = [] ∨ s.now < (s.ip i.val).echoPack.since + 20 :=
  ⟨0, 0, up, by decide +kernel⟩

theorem test_meets_sink_intake : ∃ (i : IntakeId) (n : SliceId) (tag : Nat), Meets fun s => s.fencedSlice n.val = true :=
  ⟨0, 0, 5, 0, { up with pwr := { up.pwr with step := 11 }, slices := [(0, { Slice.init 0 with phase := .fenced })] }, by decide +kernel⟩

theorem test_meets_sink_scratch : ∃ (n : SliceId) (who : ScrWho), Meets fun s => s.fencedSlice n.val = true :=
  ⟨0, default, 0, { up with pwr := { up.pwr with step := 11 }, slices := [(0, { Slice.init 0 with phase := .fenced })] }, by decide +kernel⟩

theorem test_meets_sink_other : ∃ (n : SliceId) (x : SinkErr), Meets fun s => s.fencedSlice n.val = true ∧ ((∃ k, x = .bisnp n k) ∨ ∃ k, x = .walk n k) :=
  ⟨0, .bisnp 0 5, 0, { up with pwr := { up.pwr with step := 11 }, slices := [(0, { Slice.init 0 with phase := .fenced })] }, by decide +kernel, .inl ⟨5, rfl⟩⟩

theorem test_meets_sink_open : ∃ (x : SinkErr), Meets fun s => s.fencedSlice (sinkSlice x) = false :=
  ⟨.bisnp 0 5, 0, up, by decide +kernel⟩

theorem test_meets_relay : ∃ (m : MediaId) (x : RelayDest), Meets fun s => (s.stk (relayStook m.val)).fenced = false :=
  ⟨0, .winnow 0, 0, up, by decide +kernel⟩

theorem test_meets_relay_fenced : ∃ (m : MediaId) (x : RelayDest), Meets fun s => (s.stk (relayStook m.val)).fenced = true :=
  ⟨0, .winnow 0, 0, { up with stooks := [(0, { Stook.init with fenced := true })] }, by decide +kernel⟩

theorem test_meets_reg_bad : ∃ (off : BitVec 24) (v : Word) (len : Nat), Meets fun _ => len ≠ 4 ∨ off.toNat % 4 ≠ 0 :=
  ⟨2, 0, 4, 0, up, by decide +kernel⟩

theorem test_meets_reg_base : ∃ (off : BitVec 24) (v : Word), Meets fun _ => off.toNat % 4 = 0 ∧ (off.toNat < 0x100000 ∨ 0x400000 ≤ off.toNat) ∧ off.toNat / 0x1000 % 4 = 0 :=
  ⟨0x060004, 5, 0, up, by decide +kernel⟩

theorem test_meets_reg_ring : ∃ (off : BitVec 24) (v : Word), Meets fun s => off.toNat % 4 = 0 ∧ 0x100000 ≤ off.toNat ∧ off.toNat < 0x400000 ∧ s.ringBusy = false :=
  ⟨0x100000, 1, 0, up, by decide +kernel⟩

theorem test_meets_reg_busy : ∃ (off : BitVec 24) (v : Word), Meets fun s => off.toNat % 4 = 0 ∧ 0x100000 ≤ off.toNat ∧ off.toNat < 0x400000 ∧ s.ringBusy = true :=
  ⟨0x100000, 1, 0, { up with blk := { Blk.reset with ring := [⟨true, 0, 0⟩] } }, by decide +kernel⟩

theorem test_meets_alias_bad : ∃ (off : BitVec 24) (v : Word) (len : Nat), Meets fun _ => len ≠ 4 ∨ off.toNat % 4 ≠ 0 :=
  ⟨2, 0, 4, 0, up, by decide +kernel⟩

theorem test_meets_alias_set : ∃ (off : BitVec 24) (v : Word), Meets fun _ => off.toNat % 4 = 0 ∧ (off.toNat < 0x100000 ∨ 0x400000 ≤ off.toNat) ∧ off.toNat / 0x1000 % 4 = 1 ∧ ¬(0x070000 ≤ off.toNat ∧ off.toNat < 0x080000) ∧ regAt (off.toNat - 4096) ≠ .other ∧ regAt (off.toNat - 4096) ≠ .winCtl :=
  ⟨0x61004, 7, 0, up, by decide +kernel⟩

theorem test_meets_alias_clear : ∃ (off : BitVec 24) (v : Word), Meets fun _ => off.toNat % 4 = 0 ∧ (off.toNat < 0x100000 ∨ 0x400000 ≤ off.toNat) ∧ off.toNat / 0x1000 % 4 = 2 ∧ ¬(0x070000 ≤ off.toNat ∧ off.toNat < 0x080000) ∧ regAt (off.toNat - 8192) ≠ .other ∧ regAt (off.toNat - 8192) ≠ .winCtl :=
  ⟨0x62004, 7, 0, up, by decide +kernel⟩

theorem test_meets_alias_toggle : ∃ (off : BitVec 24) (v : Word), Meets fun _ => off.toNat % 4 = 0 ∧ (off.toNat < 0x100000 ∨ 0x400000 ≤ off.toNat) ∧ off.toNat / 0x1000 % 4 = 3 ∧ ¬(0x070000 ≤ off.toNat ∧ off.toNat < 0x080000) ∧ regAt (off.toNat - 12288) ≠ .other ∧ regAt (off.toNat - 12288) ≠ .winCtl :=
  ⟨0x63004, 7, 0, up, by decide +kernel⟩

theorem test_meets_alias_reserved : ∃ (off : BitVec 24) (v : Word), Meets fun _ => off.toNat % 4 = 0 ∧ 0x070000 ≤ off.toNat ∧ off.toNat < 0x080000 ∧ off.toNat / 0x1000 % 4 ≠ 0 :=
  ⟨0x071000, 1, 0, up, by decide +kernel⟩

theorem test_meets_ring_empty : Meets fun s => s.blk.ring = [] :=
  ⟨0, up, by decide +kernel⟩

theorem test_meets_ring_stook : ∃ (r : RingOp) (l : List RingOp), Meets fun s => s.blk.ring = r :: l ∧ r.off < 0x200000 ∧ (s.stk ((r.off - 0x100000) / 0x10000)).fenced = false :=
  ⟨⟨true, 0x100000, 1⟩, [], 0, { up with blk := { Blk.reset with ring := [⟨true, 0x100000, 1⟩] } }, by decide +kernel⟩

theorem test_meets_ring_slice : ∃ (r : RingOp) (l : List RingOp), Meets fun s => s.blk.ring = r :: l ∧ 0x200000 ≤ r.off ∧ s.fencedSlice ((r.off - 0x200000) / 0x4000) = false :=
  ⟨⟨true, 0x200000, 1⟩, [], 0, { up with blk := { Blk.reset with ring := [⟨true, 0x200000, 1⟩] } }, by decide +kernel⟩

theorem test_meets_ring_stook_fenced : ∃ (r : RingOp) (l : List RingOp), Meets fun s => s.blk.ring = r :: l ∧ r.off < 0x200000 ∧ (s.stk ((r.off - 0x100000) / 0x10000)).fenced = true :=
  ⟨⟨true, 0x100000, 1⟩, [], 0, { up with blk := { Blk.reset with ring := [⟨true, 0x100000, 1⟩] }, stooks := [(0, { Stook.init with fenced := true })] }, by decide +kernel⟩

theorem test_meets_ring_fenced : ∃ (r : RingOp) (l : List RingOp), Meets fun s => s.blk.ring = r :: l ∧ 0x200000 ≤ r.off ∧ s.fencedSlice ((r.off - 0x200000) / 0x4000) = true :=
  ⟨⟨true, 0x200000, 1⟩, [], 0, { up with blk := { Blk.reset with ring := [⟨true, 0x200000, 1⟩] }, slices := [(0, { Slice.init 0 with phase := .fenced })] }, by decide +kernel⟩

theorem test_meets_word0_time : Meets fun _ => True :=
  ⟨0, up, by decide +kernel⟩

theorem test_meets_word0_cur : Meets fun _ => True :=
  ⟨0, up, by decide +kernel⟩

theorem test_meets_word0_other : ∃ (off : BitVec 24), Meets fun s => s.latched off.toNat = [] :=
  ⟨0, 0, up, by decide +kernel⟩

theorem test_meets_q_identify : MbxMeets (fun t c => .identify t c) fun _ _ => True :=
  ⟨⟨64, 0, 7, [], false⟩, up, _, _, rfl, by decide +kernel, by decide +kernel⟩

theorem test_meets_q_bgstatus : MbxMeets (fun t c => .backgroundOperationStatus t c) fun _ _ => True :=
  ⟨⟨64, 0, 7, [], false⟩, up, _, _, rfl, by decide +kernel, by decide +kernel⟩

theorem test_meets_q_events : MbxMeets (fun t c => .getEventRecords t c) fun c _ => mbByte c 0 ≤ 3 :=
  ⟨⟨64, 0, 7, [0], false⟩, up, _, _, rfl, by decide +kernel, by decide +kernel⟩

theorem test_meets_q_events_log : MbxMeets (fun t c => .getEventRecords t c) fun c _ => 3 < mbByte c 0 :=
  ⟨⟨64, 0, 7, [4], false⟩, up, _, _, rfl, by decide +kernel, by decide +kernel⟩

theorem test_meets_q_policy : MbxMeets (fun t c => .getEventInterruptPolicy t c) fun _ _ => True :=
  ⟨⟨64, 0, 7, [], false⟩, up, _, _, rfl, by decide +kernel, by decide +kernel⟩

theorem test_meets_q_time : MbxMeets (fun t c => .getTimestamp t c) fun _ _ => True :=
  ⟨⟨64, 0, 7, [], false⟩, up, _, _, rfl, by decide +kernel, by decide +kernel⟩

theorem test_meets_q_logs : MbxMeets (fun t c => .getSupportedLogs t c) fun _ _ => True :=
  ⟨⟨64, 0, 7, [], false⟩, up, _, _, rfl, by decide +kernel, by decide +kernel⟩

theorem test_meets_q_getlog : MbxMeets (fun t c => .getLog t c) fun c _ => mbLe c 0 16 = celUuid ∧ mbLe c 16 4 + mbLe c 20 4 ≤ celBytes.length :=
  ⟨⟨64, 0, 7, (leBytes 16 celUuid ++ zeros 8), false⟩, up, _, _, rfl, by decide +kernel, by decide +kernel⟩

theorem test_meets_q_getlog_range : MbxMeets (fun t c => .getLog t c) fun c _ => mbLe c 0 16 = celUuid ∧ celBytes.length < mbLe c 16 4 + mbLe c 20 4 :=
  ⟨⟨64, 0, 7, (leBytes 16 celUuid ++ leBytes 8 4294967295), false⟩, up, _, _, rfl, by decide +kernel, by decide +kernel⟩

theorem test_meets_q_getlog_other : MbxMeets (fun t c => .getLog t c) fun c _ => mbLe c 0 16 ≠ celUuid :=
  ⟨⟨64, 0, 7, (zeros 24), false⟩, up, _, _, rfl, by decide +kernel, by decide +kernel⟩

theorem test_meets_q_memdev : MbxMeets (fun t c => .identifyMemoryDevice t c) fun c _ => c.mb.val < 64 :=
  ⟨⟨0, 0, 7, [], false⟩, open0, _, _, rfl, by decide +kernel, by decide +kernel⟩

theorem test_meets_q_memdev_none : MbxMeets (fun t c => .identifyMemoryDevice t c) fun c _ => 64 ≤ c.mb.val :=
  ⟨⟨64, 0, 7, [], false⟩, up, _, _, rfl, by decide +kernel, by decide +kernel⟩

theorem test_meets_q_partinfo : MbxMeets (fun t c => .getPartitionInfo t c) fun c _ => c.mb.val < 64 :=
  ⟨⟨0, 0, 7, [], false⟩, open0, _, _, rfl, by decide +kernel, by decide +kernel⟩

theorem test_meets_q_partinfo_none : MbxMeets (fun t c => .getPartitionInfo t c) fun c _ => 64 ≤ c.mb.val :=
  ⟨⟨64, 0, 7, [], false⟩, up, _, _, rfl, by decide +kernel, by decide +kernel⟩

theorem test_meets_q_health : MbxMeets (fun t c => .getHealthInfo t c) fun _ _ => True :=
  ⟨⟨64, 0, 7, [], false⟩, up, _, _, rfl, by decide +kernel, by decide +kernel⟩

theorem test_meets_q_alerts_none : MbxMeets (fun t c => .getAlertConfiguration t c) fun c _ => 64 ≤ c.mb.val :=
  ⟨⟨64, 0, 7, [], false⟩, up, _, _, rfl, by decide +kernel, by decide +kernel⟩

theorem test_meets_q_alerts : MbxMeets (fun t c => .getAlertConfiguration t c) fun c _ => c.mb.val < 64 :=
  ⟨⟨0, 0, 7, [], false⟩, open0, _, _, rfl, by decide +kernel, by decide +kernel⟩

theorem test_meets_q_shutdown : MbxMeets (fun t c => .getShutdownState t c) fun c _ => c.mb.val < 64 :=
  ⟨⟨0, 0, 7, [], false⟩, open0, _, _, rfl, by decide +kernel, by decide +kernel⟩

theorem test_meets_q_shutdown_none : MbxMeets (fun t c => .getShutdownState t c) fun c _ => 64 ≤ c.mb.val :=
  ⟨⟨64, 0, 7, [], false⟩, up, _, _, rfl, by decide +kernel, by decide +kernel⟩

theorem test_meets_q_lsa : MbxMeets (fun t c => .getLsa t c) fun c _ => c.mb.val < 64 ∧ mbLe c 0 4 + mbLe c 4 4 ≤ 131072 ∧ mbLe c 4 4 ≤ 4096 :=
  ⟨⟨0, 0, 7, (leBytes 4 5 ++ leBytes 4 2), false⟩, open0, _, _, rfl, by decide +kernel, by decide +kernel⟩

theorem test_meets_q_lsa_range : MbxMeets (fun t c => .getLsa t c) fun c _ => c.mb.val < 64 ∧ 131072 < mbLe c 0 4 + mbLe c 4 4 :=
  ⟨⟨0, 0, 7, (leBytes 4 131072 ++ leBytes 4 2), false⟩, open0, _, _, rfl, by decide +kernel, by decide +kernel⟩

theorem test_meets_q_lsa_long : MbxMeets (fun t c => .getLsa t c) fun c _ => c.mb.val < 64 ∧ mbLe c 0 4 + mbLe c 4 4 ≤ 131072 ∧ 4096 < mbLe c 4 4 :=
  ⟨⟨0, 0, 7, (leBytes 4 0 ++ leBytes 4 4097), false⟩, open0, _, _, rfl, by decide +kernel, by decide +kernel⟩

theorem test_meets_q_lsa_none : MbxMeets (fun t c => .getLsa t c) fun c _ => 64 ≤ c.mb.val :=
  ⟨⟨64, 0, 7, (zeros 8), false⟩, up, _, _, rfl, by decide +kernel, by decide +kernel⟩

theorem test_meets_q_poison : MbxMeets (fun t c => .getPoisonList t c) fun c _ => c.mb.val < 64 :=
  ⟨⟨0, 0, 7, (leBytes 8 0 ++ leBytes 8 9), false⟩, { open0 with parts := [(0, { Part.init with st := .enabled, poison := [3] })] }, _, _, rfl, by decide +kernel, by decide +kernel⟩

theorem test_meets_q_poison_none : MbxMeets (fun t c => .getPoisonList t c) fun c _ => 64 ≤ c.mb.val :=
  ⟨⟨64, 0, 7, (zeros 16), false⟩, up, _, _, rfl, by decide +kernel, by decide +kernel⟩

theorem test_meets_w_abort : MbxMeets (fun t c => .requestAbortBackgroundOp t c) fun _ _ => True :=
  ⟨⟨64, 0, 7, [], false⟩, up, _, _, rfl, by decide +kernel, by decide +kernel⟩

theorem test_meets_w_clear_all : MbxMeets (fun t c => .clearEventRecords t c) fun c _ => mbByte c 0 ≤ 3 ∧ mbByte c 1 = 1 :=
  ⟨⟨64, 0, 7, ([0, 1] ++ zeros 4), false⟩, up, _, _, rfl, by decide +kernel, by decide +kernel⟩

theorem test_meets_w_clear_some : MbxMeets (fun t c => .clearEventRecords t c) fun c s => mbByte c 0 ≤ 3 ∧ mbByte c 1 = 0 ∧ (((List.range (mbByte c 2)).map fun j => mbLe c (6 + 2 * j) 2).find? fun h => !((s.logs c.mb.val).log (mbByte c 0)).recs.any fun r => r.1 == h) = none :=
  ⟨⟨64, 0, 7, ([0, 0, 1] ++ zeros 3 ++ leBytes 2 9), false⟩, { up with blkLogs := { EvLogs.init with info := { EvLog.init with recs := [(9, 0, default)] } } }, _, _, rfl, by decide +kernel, by decide +kernel⟩

theorem test_meets_w_clear_missing : MbxMeets (fun t c => .clearEventRecords t c) fun c s => mbByte c 0 ≤ 3 ∧ mbByte c 1 = 0 ∧ (((List.range (mbByte c 2)).map fun j => mbLe c (6 + 2 * j) 2).find? fun h => !((s.logs c.mb.val).log (mbByte c 0)).recs.any fun r => r.1 == h).isSome = true :=
  ⟨⟨64, 0, 7, ([0, 0, 1] ++ zeros 3 ++ leBytes 2 9), false⟩, up, _, _, rfl, by decide +kernel, by decide +kernel⟩

theorem test_meets_w_clear_log : MbxMeets (fun t c => .clearEventRecords t c) fun c _ => mbByte c 1 ≤ 1 ∧ 3 < mbByte c 0 :=
  ⟨⟨64, 0, 7, ([4, 1] ++ zeros 4), false⟩, up, _, _, rfl, by decide +kernel, by decide +kernel⟩

theorem test_meets_w_clear_flags : MbxMeets (fun t c => .clearEventRecords t c) fun c _ => 1 < mbByte c 1 :=
  ⟨⟨64, 0, 7, ([0, 2] ++ zeros 4), false⟩, up, _, _, rfl, by decide +kernel, by decide +kernel⟩

theorem test_meets_w_policy : MbxMeets (fun t c => .setEventInterruptPolicy t c) fun c _ => ((List.range c.input.length).find? fun i => mbByte c i / 4 % 4 != 0) = none ∧ c.mb.val ≠ 65 :=
  ⟨⟨64, 0, 7, (zeros 4), false⟩, up, _, _, rfl, by decide +kernel, by decide +kernel⟩

theorem test_meets_w_policy_service : MbxMeets (fun t c => .setEventInterruptPolicy t c) fun c _ => ((List.range c.input.length).find? fun i => mbByte c i / 4 % 4 != 0) = none ∧ c.mb.val = 65 :=
  ⟨⟨65, 0, 7, (zeros 4), false⟩, up, _, _, rfl, by decide +kernel, by decide +kernel⟩

theorem test_meets_w_policy_bits : ∃ (i : Nat), MbxMeets (fun t c => .setEventInterruptPolicy t c) fun c _ => ((List.range c.input.length).find? fun i => mbByte c i / 4 % 4 != 0) = some i :=
  ⟨1, ⟨64, 0, 7, [0, 4, 0, 0], false⟩, up, _, _, rfl, by decide +kernel, by decide +kernel⟩

theorem test_meets_w_timestamp : MbxMeets (fun t c => .setTimestamp t c) fun _ _ => True :=
  ⟨⟨64, 0, 7, [], false⟩, up, _, _, rfl, by decide +kernel, by decide +kernel⟩

theorem test_meets_w_alerts : MbxMeets (fun t c => .setAlertConfiguration t c) fun c _ => mbByte c 0 < 32 ∧ mbByte c 1 < 32 ∧ c.mb.val < 64 :=
  ⟨⟨0, 0, 7, (zeros 12), false⟩, open0, _, _, rfl, by decide +kernel, by decide +kernel⟩

theorem test_meets_w_shutdown : MbxMeets (fun t c => .setShutdownState t c) fun c _ => mbByte c 0 ≤ 1 ∧ c.mb.val < 64 :=
  ⟨⟨0, 0, 7, [1], false⟩, open0, _, _, rfl, by decide +kernel, by decide +kernel⟩

theorem test_meets_w_alerts_none : MbxMeets (fun t c => .setAlertConfiguration t c) fun c _ => mbByte c 0 < 32 ∧ mbByte c 1 < 32 ∧ 64 ≤ c.mb.val :=
  ⟨⟨64, 0, 7, (zeros 12), false⟩, up, _, _, rfl, by decide +kernel, by decide +kernel⟩

theorem test_meets_w_alerts_bits : MbxMeets (fun t c => .setAlertConfiguration t c) fun c _ => 32 ≤ mbByte c 0 :=
  ⟨⟨0, 0, 7, ([32] ++ zeros 11), false⟩, open0, _, _, rfl, by decide +kernel, by decide +kernel⟩

theorem test_meets_w_alerts_enable : MbxMeets (fun t c => .setAlertConfiguration t c) fun c _ => mbByte c 0 < 32 ∧ 32 ≤ mbByte c 1 :=
  ⟨⟨0, 0, 7, ([0, 32] ++ zeros 10), false⟩, open0, _, _, rfl, by decide +kernel, by decide +kernel⟩

theorem test_meets_w_shutdown_none : MbxMeets (fun t c => .setShutdownState t c) fun c _ => mbByte c 0 ≤ 1 ∧ 64 ≤ c.mb.val :=
  ⟨⟨64, 0, 7, [1], false⟩, up, _, _, rfl, by decide +kernel, by decide +kernel⟩

theorem test_meets_w_shutdown_bits : MbxMeets (fun t c => .setShutdownState t c) fun c _ => 1 < mbByte c 0 :=
  ⟨⟨0, 0, 7, [2], false⟩, open0, _, _, rfl, by decide +kernel, by decide +kernel⟩

theorem test_meets_w_lsa_none : MbxMeets (fun t c => .setLsa t c) fun c _ => 64 ≤ c.mb.val :=
  ⟨⟨64, 0, 7, (zeros 8), false⟩, up, _, _, rfl, by decide +kernel, by decide +kernel⟩

theorem test_meets_w_lsa_range : MbxMeets (fun t c => .setLsa t c) fun c _ => c.mb.val < 64 ∧ 131072 < mbLe c 0 4 + (c.input.drop 8).length :=
  ⟨⟨0, 0, 7, (leBytes 4 131072 ++ zeros 4 ++ [5]), false⟩, open0, _, _, rfl, by decide +kernel, by decide +kernel⟩

theorem test_meets_w_lsa : MbxMeets (fun t c => .setLsa t c) fun c s => c.mb.val < 64 ∧ mbLe c 0 4 + (c.input.drop 8).length ≤ 131072 ∧ s.mirrors = false :=
  ⟨⟨0, 0, 7, (zeros 8 ++ [5]), false⟩, open0, _, _, rfl, by decide +kernel, by decide +kernel⟩

theorem test_meets_w_lsa_twin : MbxMeets (fun t c => .setLsa t c) fun c s => c.mb.val < 64 ∧ mbLe c 0 4 + (c.input.drop 8).length ≤ 131072 ∧ s.mirrors = true :=
  ⟨⟨0, 0, 7, (zeros 8 ++ [5]), false⟩, { open0 with twin := { Twin.reset with st := .paired } }, _, _, rfl, by decide +kernel, by decide +kernel⟩

theorem test_meets_w_poison : MbxMeets (fun t c => .clearPoison t c) fun c s => c.mb.val < 64 ∧ mbLe c 0 8 % 64 = 0 ∧ mbLe c 0 8 < (s.part c.mb.val).dataLen * 64 ∧ (s.part c.mb.val).st ≠ .free ∧ s.lineRoom = true :=
  ⟨⟨0, 0, 7, (zeros 72), false⟩, open0, _, _, rfl, by decide +kernel, by decide +kernel⟩

theorem test_meets_w_poison_wait : MbxMeets (fun t c => .clearPoison t c) fun c s => c.mb.val < 64 ∧ mbLe c 0 8 % 64 = 0 ∧ mbLe c 0 8 < (s.part c.mb.val).dataLen * 64 ∧ (s.part c.mb.val).st ≠ .free ∧ s.lineRoom = false :=
  ⟨⟨0, 0, 7, (zeros 72), false⟩, { open0 with intakes := [(0, { Intake.init with kept := List.replicate 256 { (⟨req .wrI, .host, 5, 0, .sent, none, none, false, 0, none⟩ : Kept) with own := .clearPoison 0 } })] }, _, _, rfl, by decide +kernel, by decide +kernel⟩

theorem test_meets_w_poison_bad : MbxMeets (fun t c => .clearPoison t c) fun c s => c.mb.val < 64 ∧ (mbLe c 0 8 % 64 ≠ 0 ∨ (s.part c.mb.val).dataLen * 64 ≤ mbLe c 0 8 ∨ (s.part c.mb.val).st = .free) :=
  ⟨⟨0, 0, 7, ([1] ++ zeros 71), false⟩, open0, _, _, rfl, by decide +kernel, by decide +kernel⟩

theorem test_meets_w_poison_none : MbxMeets (fun t c => .clearPoison t c) fun c _ => 64 ≤ c.mb.val :=
  ⟨⟨64, 0, 7, (zeros 72), false⟩, up, _, _, rfl, by decide +kernel, by decide +kernel⟩

theorem test_meets_w_sanitize : MbxMeets (fun t c => .sanitize t c) fun c s => c.mb.val < 64 ∧ (s.part c.mb.val).st = .disabled ∧ s.bgHeld (.part c.mb.val) = false :=
  ⟨⟨0, 0, 7, [], false⟩, dis0, _, _, rfl, by decide +kernel, by decide +kernel⟩

theorem test_meets_w_erase : MbxMeets (fun t c => .secureErase t c) fun c s => c.mb.val < 64 ∧ (s.part c.mb.val).st = .disabled ∧ s.bgHeld (.part c.mb.val) = false :=
  ⟨⟨0, 0, 7, [], false⟩, dis0, _, _, rfl, by decide +kernel, by decide +kernel⟩

theorem test_meets_w_sanitize_on : MbxMeets (fun t c => .sanitize t c) fun c s => c.mb.val < 64 ∧ ((s.part c.mb.val).st ≠ .disabled ∨ s.bgHeld (.part c.mb.val) = true) :=
  ⟨⟨0, 0, 7, [], false⟩, { open0 with pwr := { up.pwr with presence := some 9 } }, _, _, rfl, by decide +kernel, by decide +kernel⟩

theorem test_meets_w_erase_on : MbxMeets (fun t c => .secureErase t c) fun c s => c.mb.val < 64 ∧ ((s.part c.mb.val).st ≠ .disabled ∨ s.bgHeld (.part c.mb.val) = true) :=
  ⟨⟨0, 0, 7, [], false⟩, { open0 with pwr := { up.pwr with presence := some 9 } }, _, _, rfl, by decide +kernel, by decide +kernel⟩

theorem test_meets_w_sanitize_none : MbxMeets (fun t c => .sanitize t c) fun c _ => 64 ≤ c.mb.val :=
  ⟨⟨64, 0, 7, [], false⟩, { up with pwr := { up.pwr with presence := some 9 } }, _, _, rfl, by decide +kernel, by decide +kernel⟩

theorem test_meets_w_erase_none : MbxMeets (fun t c => .secureErase t c) fun c _ => 64 ≤ c.mb.val :=
  ⟨⟨64, 0, 7, [], false⟩, { up with pwr := { up.pwr with presence := some 9 } }, _, _, rfl, by decide +kernel, by decide +kernel⟩

theorem test_meets_w_other : ∃ (opcode : BitVec 16), MbxMeets (fun t c => .unsupportedCommand t c opcode) fun _ _ => True :=
  ⟨0x7777, ⟨64, 0, 7, [], false⟩, up, _, _, rfl, by decide +kernel, by decide +kernel⟩

theorem test_meets_p_create : MbxMeets (fun t c => .partCreate t c) fun c s => (s.part (mbByte c 0)).st = .free ∧ s.mapPair.isSome = true ∧ cfgBad c = none ∧ s.rangeClash (mbByte c 0) (cfgOf c 0) = false
        ∧ ((cfgOf c 0).dataSize.toNat + 1) * 16384 + ((cfgOf c 0).dataSize.toNat + 1) * 16384 / 8192 + mbLe c 28 2 * 16384 ≤ s.tierFree false :=
  ⟨⟨64, 0, 7, (zeros 16 ++ [255, 255, 0, 64, 0, 2, 0, 0, 0, 128] ++ zeros 6), false⟩, { up with pwr := { up.pwr with presence := some 100 }, mports := [(0, { MPort.init with mapPort := true, present := true }), (1, { MPort.init with mapPort := true, present := true }), (2, { MPort.init with present := true, enable := true, dataTracts := 20000, size := 20000 })] }, _, _, rfl, by decide +kernel, by decide +kernel⟩

theorem test_meets_p_create_state : MbxMeets (fun t c => .partCreate t c) fun c s => (s.part (mbByte c 0)).st ≠ .free :=
  ⟨⟨64, 0, 7, (zeros 16 ++ [255, 255, 0, 64, 0, 2, 0, 0, 0, 128] ++ zeros 6), false⟩, dis0, _, _, rfl, by decide +kernel, by decide +kernel⟩

theorem test_meets_p_create_room : MbxMeets (fun t c => .partCreate t c) fun c s => (s.part (mbByte c 0)).st = .free ∧ s.mapPair.isSome = true ∧ cfgBad c = none ∧ s.rangeClash (mbByte c 0) (cfgOf c 0) = false
        ∧ s.tierFree false < ((cfgOf c 0).dataSize.toNat + 1) * 16384 + ((cfgOf c 0).dataSize.toNat + 1) * 16384 / 8192 + mbLe c 28 2 * 16384 :=
  ⟨⟨64, 0, 7, (zeros 16 ++ [255, 255, 0, 64, 0, 2, 0, 0, 0, 128] ++ zeros 6), false⟩, { up with pwr := { up.pwr with presence := some 100 }, mports := [(0, { MPort.init with mapPort := true, present := true }), (1, { MPort.init with mapPort := true, present := true })] }, _, _, rfl, by decide +kernel, by decide +kernel⟩

theorem test_meets_p_resize : MbxMeets (fun t c => .partResize t c) fun c s => (s.part (mbByte c 0)).st = .disabled ∧ (s.part (mbByte c 0)).drained = true ∧ (s.part (mbByte c 0)).live = [] ∧ mbLe c 4 4 ≤ 262143 ∧ s.rangeClash (mbByte c 0) { (s.part (mbByte c 0)).cfg with dataSize := BitVec.ofNat 18 (mbLe c 4 4) } = false
        ∧ (mbLe c 4 4 - (s.part (mbByte c 0)).cfg.dataSize.toNat) * 16384 + (mbLe c 4 4 - (s.part (mbByte c 0)).cfg.dataSize.toNat) * 16384 / 8192 ≤ s.tierFree false :=
  ⟨⟨64, 0, 7, (zeros 8), false⟩, dis0, _, _, rfl, by decide +kernel, by decide +kernel⟩

theorem test_meets_p_resize_state : MbxMeets (fun t c => .partResize t c) fun c s => (s.part (mbByte c 0)).st ≠ .disabled :=
  ⟨⟨64, 0, 7, (zeros 8), false⟩, open0, _, _, rfl, by decide +kernel, by decide +kernel⟩

theorem test_meets_p_destroy : MbxMeets (fun t c => .partDestroy t c) fun c s => mbByte c 1 ≤ 1 ∧ (((s.part (mbByte c 0)).st = .disabled ∧ (s.part (mbByte c 0)).drained = true) ∨ (s.part (mbByte c 0)).st = .stopped) :=
  ⟨⟨64, 0, 7, [0, 0], false⟩, dis0, _, _, rfl, by decide +kernel, by decide +kernel⟩

theorem test_meets_p_destroy_state : MbxMeets (fun t c => .partDestroy t c) fun c s => mbByte c 1 ≤ 1 ∧ (s.part (mbByte c 0)).st = .enabled :=
  ⟨⟨64, 0, 7, [0, 0], false⟩, { open0 with pwr := { up.pwr with presence := some 100 } }, _, _, rfl, by decide +kernel, by decide +kernel⟩

theorem test_meets_p_query : MbxMeets (fun t c => .partQuery t c) fun _ _ => True :=
  ⟨⟨64, 0, 7, [0], false⟩, open0, _, _, rfl, by decide +kernel, by decide +kernel⟩

theorem test_meets_p_enable : ∃ (k : Nat), MbxMeets (fun t c => .partEnableSet t c) fun c s => mbByte c 1 = 1 ∧ mbByte c 2 ≤ 1 ∧ (mbByte c 2 = 0 → s.twin.st ≠ .paired) ∧ ((s.part (mbByte c 0)).st = .disabled ∨ (s.part (mbByte c 0)).st = .draining) ∧ (s.part (mbByte c 0)).unfinished = false ∧ s.trkOver (mbByte c 0) = false ∧ s.fltOver (mbByte c 0) = false ∧ s.freePend = some k :=
  ⟨0, ⟨64, 0, 7, ([0, 1] ++ zeros 14), false⟩, dis0, _, _, rfl, by decide +kernel, by decide +kernel⟩

theorem test_meets_p_disable : ∃ (k : Nat), MbxMeets (fun t c => .partEnableClear t c) fun c s => mbByte c 1 = 0 ∧ mbByte c 2 ≤ 1 ∧ (mbByte c 2 = 0 → s.twin.st ≠ .paired) ∧ (s.part (mbByte c 0)).st = .enabled ∧ s.freePend = some k :=
  ⟨0, ⟨64, 0, 7, ([0, 0] ++ zeros 14), false⟩, open0, _, _, rfl, by decide +kernel, by decide +kernel⟩

theorem test_meets_p_enable_state : MbxMeets (fun t c => .partEnableSet t c) fun c s => mbByte c 1 = 1 ∧ mbByte c 2 ≤ 1 ∧ (mbByte c 2 = 0 → s.twin.st ≠ .paired) ∧ ((s.part (mbByte c 0)).st = .free ∨ (s.part (mbByte c 0)).st = .stopped ∨ (s.part (mbByte c 0)).st = .enabled ∨ (s.part (mbByte c 0)).unfinished = true) :=
  ⟨⟨64, 0, 7, ([0, 1] ++ zeros 14), false⟩, open0, _, _, rfl, by decide +kernel, by decide +kernel⟩

theorem test_meets_p_enable_sums : MbxMeets (fun t c => .partEnableSet t c) fun c s => mbByte c 1 = 1 ∧ mbByte c 2 ≤ 1 ∧ (mbByte c 2 = 0 → s.twin.st ≠ .paired) ∧ (s.part (mbByte c 0)).st = .disabled ∧ (s.part (mbByte c 0)).unfinished = false ∧ (s.trkOver (mbByte c 0) = true ∨ s.fltOver (mbByte c 0) = true) :=
  ⟨⟨64, 0, 7, ([0, 1] ++ zeros 14), false⟩, { dis0 with parts := [(0, { Part.init with st := .disabled, cfg := { PartCfg.init with trkMin := 64, filterMin := 16384 } }), (1, { Part.init with st := .enabled, cfg := { PartCfg.init with filterMin := 1 } })] }, _, _, rfl, by decide +kernel, by decide +kernel⟩

theorem test_meets_p_enable_scope : MbxMeets (fun t c => .partEnableSet t c) fun c s => mbByte c 1 = 1 ∧ mbByte c 2 = 0 ∧ s.twin.st = .paired :=
  ⟨⟨64, 0, 7, ([0, 1] ++ zeros 14), false⟩, { dis0 with twin := { Twin.reset with st := .paired } }, _, _, rfl, by decide +kernel, by decide +kernel⟩

theorem test_meets_p_disable_state : MbxMeets (fun t c => .partEnableClear t c) fun c s => mbByte c 1 = 0 ∧ mbByte c 2 ≤ 1 ∧ (mbByte c 2 = 0 → s.twin.st ≠ .paired) ∧ (s.part (mbByte c 0)).st ≠ .enabled :=
  ⟨⟨64, 0, 7, ([0, 0] ++ zeros 14), false⟩, dis0, _, _, rfl, by decide +kernel, by decide +kernel⟩

theorem test_meets_p_restart : MbxMeets (fun t c => .partRestart t c) fun c s => (s.part (mbByte c 0)).st = .stopped ∧ (s.part (mbByte c 0)).drained = true :=
  ⟨⟨64, 0, 7, [0], false⟩, { open0 with parts := [(0, { Part.init with st := .stopped, drained := true })] }, _, _, rfl, by decide +kernel, by decide +kernel⟩

theorem test_meets_p_restart_state : MbxMeets (fun t c => .partRestart t c) fun c s => (s.part (mbByte c 0)).st ≠ .stopped :=
  ⟨⟨64, 0, 7, [0], false⟩, open0, _, _, rfl, by decide +kernel, by decide +kernel⟩

theorem test_meets_p_quiet : MbxMeets (fun t c => .partQuiet t c) fun c s => (s.part (mbByte c 0)).st ≠ .free ∧ (s.part (mbByte c 0)).wasEnabled = false ∧ (10 ≤ s.pwr.step ∨ s.pwr.refreshing = true) :=
  ⟨⟨64, 0, 7, [0], false⟩, dis0, _, _, rfl, by decide +kernel, by decide +kernel⟩

theorem test_meets_p_quiet_start : MbxMeets (fun t c => .partQuiet t c) fun c s => (s.part (mbByte c 0)).st ≠ .free ∧ (s.part (mbByte c 0)).wasEnabled = false ∧ s.pwr.step < 10 ∧ s.pwr.refreshing = false :=
  ⟨⟨64, 0, 7, [0], false⟩, { dis0 with pwr := { up.pwr with step := 9 } }, _, _, rfl, by decide +kernel, by decide +kernel⟩

theorem test_meets_p_quiet_state : MbxMeets (fun t c => .partQuiet t c) fun c s => (s.part (mbByte c 0)).st = .free ∨ (s.part (mbByte c 0)).wasEnabled = true :=
  ⟨⟨64, 0, 7, [0], false⟩, up, _, _, rfl, by decide +kernel, by decide +kernel⟩

theorem test_meets_p_assign : MbxMeets (fun t c => .partScratchAssign t c) fun c s => (mbByte c 1 = 3 ∨ mbByte c 1 = 5 ∨ mbByte c 1 = 7 ∨ mbByte c 1 = 9) ∧ mbByte c 2 = 1 ∧ (s.part (mbByte c 0)).st = .disabled ∧ s.scratchReady (mbByte c 1) = true ∧ s.scratchReady (mbByte c 1 + 1) = true
        ∧ (s.parts.any fun x => x.1 != mbByte c 0 && x.2.pairs.contains (mbByte c 1)) = false :=
  ⟨⟨64, 0, 7, [0, 3, 1], false⟩, { dis0 with slices := (List.range 128).map fun n => (n, { Slice.init n with banks := { Banks.init n with ctl := ⟨3, 12, false⟩ } }) }, _, _, rfl, by decide +kernel, by decide +kernel⟩

theorem test_meets_p_release : MbxMeets (fun t c => .partScratchRelease t c) fun c s => (mbByte c 1 = 3 ∨ mbByte c 1 = 5 ∨ mbByte c 1 = 7 ∨ mbByte c 1 = 9) ∧ mbByte c 2 = 0 ∧ (s.part (mbByte c 0)).st = .disabled ∧ s.scratchReady (mbByte c 1) = true ∧ s.scratchReady (mbByte c 1 + 1) = true
        ∧ (s.parts.any fun x => x.1 != mbByte c 0 && x.2.pairs.contains (mbByte c 1)) = false ∧ (s.part (mbByte c 0)).pairs.contains (mbByte c 1) = true :=
  ⟨⟨64, 0, 7, [0, 3, 0], false⟩, { { dis0 with parts := [(0, { Part.init with st := .disabled, drained := true, pairs := [3] })] } with slices := (List.range 128).map fun n => (n, { Slice.init n with banks := { Banks.init n with ctl := ⟨3, 12, false⟩ } }) }, _, _, rfl, by decide +kernel, by decide +kernel⟩

theorem test_meets_p_assign_pair : MbxMeets (fun t c => .partScratchAssign t c) fun c _ => mbByte c 1 = 4 :=
  ⟨⟨64, 0, 7, [0, 4, 1], false⟩, dis0, _, _, rfl, by decide +kernel, by decide +kernel⟩

theorem test_meets_p_set : MbxMeets (fun t c => .partSet t c) fun c s => (s.part (mbByte c 0)).st = .disabled ∧ cfgBad c = none ∧ (cfgOf c 0).dataBase = (s.part (mbByte c 0)).cfg.dataBase ∧ (cfgOf c 0).dataSize = (s.part (mbByte c 0)).cfg.dataSize ∧ (s.part (mbByte c 0)).winBind = [] ∧ s.rangeClash (mbByte c 0) (cfgOf c 0) = false :=
  ⟨⟨64, 0, 7, (zeros 16 ++ [255, 255, 0, 64, 0, 2, 0, 0, 0, 128] ++ zeros 6), false⟩, dis0, _, _, rfl, by decide +kernel, by decide +kernel⟩

theorem test_meets_p_set_state : MbxMeets (fun t c => .partSet t c) fun c s => (s.part (mbByte c 0)).st ≠ .disabled :=
  ⟨⟨64, 0, 7, (zeros 16 ++ [255, 255, 0, 64, 0, 2, 0, 0, 0, 128] ++ zeros 6), false⟩, open0, _, _, rfl, by decide +kernel, by decide +kernel⟩

theorem test_meets_h_set : MbxMeets (fun t c => .hostPortSet t c) fun c s => mbLe c 0 2 ≤ 1023 ∧ mbByte c 2 ≤ 15 ∧ mbByte c 3 ≤ 1 ∧ 1 ≤ mbLe c 12 2 ∧ mbLe c 12 2 ≤ 1024 ∧ 1 ≤ mbLe c 14 2 ∧ mbLe c 14 2 ≤ 512 ∧ ((s.hp (mbLe c 0 2)).enable = true → mbByte c 2 = (s.hp (mbLe c 0 2)).intake ∧ mbLe c 12 2 = (s.hp (mbLe c 0 2)).reqCr ∧ mbLe c 14 2 = (s.hp (mbLe c 0 2)).rwdCr)
        ∧ s.membClash (mbLe c 0 2) (BitVec.ofNat 64 (mbLe c 4 8)) = false ∧ (mbByte c 3 = 1 → (s.hp (mbLe c 0 2)).enable = false → s.credOver (mbLe c 0 2) (mbByte c 2) (mbLe c 12 2) (mbLe c 14 2) = false) :=
  ⟨⟨64, 0, 7, (leBytes 2 5 ++ [0, 1] ++ leBytes 8 1 ++ leBytes 2 16 ++ leBytes 2 16), false⟩, dis0, _, _, rfl, by decide +kernel, by decide +kernel⟩

theorem test_meets_h_set_over : MbxMeets (fun t c => .hostPortSet t c) fun c s => mbLe c 0 2 ≤ 1023 ∧ mbByte c 2 ≤ 15 ∧ mbByte c 3 ≤ 1 ∧ 1 ≤ mbLe c 12 2 ∧ mbLe c 12 2 ≤ 1024 ∧ 1 ≤ mbLe c 14 2 ∧ mbLe c 14 2 ≤ 512 ∧ mbByte c 3 = 1 ∧ (s.hp (mbLe c 0 2)).enable = false
        ∧ s.membClash (mbLe c 0 2) (BitVec.ofNat 64 (mbLe c 4 8)) = false ∧ s.credOver (mbLe c 0 2) (mbByte c 2) (mbLe c 12 2) (mbLe c 14 2) = true :=
  ⟨⟨64, 0, 7, (leBytes 2 5 ++ [0, 1] ++ leBytes 8 1 ++ leBytes 2 1024 ++ leBytes 2 512), false⟩, { dis0 with hosts := [(0, { HostPort.init with memb := 1, enable := true, reqCr := 1024, rwdCr := 512 }), (1, { HostPort.init with memb := 1, enable := true, reqCr := 1024, rwdCr := 512 }), (2, { HostPort.init with memb := 1, enable := true, reqCr := 1024, rwdCr := 512 }), (3, { HostPort.init with memb := 1, enable := true, reqCr := 1024, rwdCr := 512 })] }, _, _, rfl, by decide +kernel, by decide +kernel⟩

theorem test_meets_h_set_member : MbxMeets (fun t c => .hostPortSet t c) fun c s => mbLe c 0 2 ≤ 1023 ∧ mbByte c 2 ≤ 15 ∧ mbByte c 3 ≤ 1 ∧ 1 ≤ mbLe c 12 2 ∧ mbLe c 12 2 ≤ 1024 ∧ 1 ≤ mbLe c 14 2 ∧ mbLe c 14 2 ≤ 512 ∧ s.membClash (mbLe c 0 2) (BitVec.ofNat 64 (mbLe c 4 8)) = true :=
  ⟨⟨64, 0, 7, (leBytes 2 0 ++ [1, 1] ++ leBytes 8 0 ++ leBytes 2 16 ++ leBytes 2 16), false⟩, open0, _, _, rfl, by decide +kernel, by decide +kernel⟩

theorem test_meets_h_set_host : MbxMeets (fun t c => .hostPortSet t c) fun c _ => 1023 < mbLe c 0 2 :=
  ⟨⟨64, 0, 7, (leBytes 2 1024 ++ zeros 14), false⟩, up, _, _, rfl, by decide +kernel, by decide +kernel⟩

theorem test_meets_h_set_credits : MbxMeets (fun t c => .hostPortSet t c) fun c _ => mbLe c 0 2 ≤ 1023 ∧ mbByte c 2 ≤ 15 ∧ mbByte c 3 ≤ 1 ∧ (mbLe c 12 2 < 1 ∨ 1024 < mbLe c 12 2) :=
  ⟨⟨64, 0, 7, (zeros 16), false⟩, up, _, _, rfl, by decide +kernel, by decide +kernel⟩

theorem test_meets_h_set_enabled : MbxMeets (fun t c => .hostPortSet t c) fun c s => mbLe c 0 2 ≤ 1023 ∧ mbByte c 2 ≤ 15 ∧ mbByte c 3 ≤ 1 ∧ 1 ≤ mbLe c 12 2 ∧ mbLe c 12 2 ≤ 1024 ∧ 1 ≤ mbLe c 14 2 ∧ mbLe c 14 2 ≤ 512 ∧ (s.hp (mbLe c 0 2)).enable = true ∧ (mbByte c 2 ≠ (s.hp (mbLe c 0 2)).intake ∨ mbLe c 12 2 ≠ (s.hp (mbLe c 0 2)).reqCr ∨ mbLe c 14 2 ≠ (s.hp (mbLe c 0 2)).rwdCr) :=
  ⟨⟨64, 0, 7, (leBytes 2 0 ++ [1, 1] ++ leBytes 8 1 ++ leBytes 2 16 ++ leBytes 2 16), false⟩, open0, _, _, rfl, by decide +kernel, by decide +kernel⟩

theorem test_meets_h_restore : MbxMeets (fun t c => .hostPortRestore t c) fun c s => mbLe c 0 2 ≤ 1023 ∧ (s.hp (mbLe c 0 2)).unresp = true :=
  ⟨⟨64, 0, 7, [0, 0], false⟩, { open0 with hosts := [(0, { HostPort.init with unresp := true })] }, _, _, rfl, by decide +kernel, by decide +kernel⟩

theorem test_meets_h_restore_no : MbxMeets (fun t c => .hostPortRestore t c) fun c s => mbLe c 0 2 ≤ 1023 ∧ (s.hp (mbLe c 0 2)).unresp = false :=
  ⟨⟨64, 0, 7, [0, 0], false⟩, open0, _, _, rfl, by decide +kernel, by decide +kernel⟩

theorem test_meets_t_area : MbxMeets (fun t c => .ticketArea t c) fun c s => mbLe c 8 2 ≤ 1024 ∧ mbLe c 4 4 * 1024 + mbLe c 8 2 ≤ (s.part (mbByte c 0)).dataLen ∧ (s.part (mbByte c 0)).st ≠ .free ∧ (s.part (mbByte c 0)).st ≠ .enabled ∧ mbLe c 8 2 ≠ 0 :=
  ⟨⟨64, 0, 7, (zeros 8 ++ leBytes 2 2), false⟩, dis0, _, _, rfl, by decide +kernel, by decide +kernel⟩

theorem test_meets_t_area_none : MbxMeets (fun t c => .ticketArea t c) fun c s => (s.part (mbByte c 0)).st ≠ .free ∧ (s.part (mbByte c 0)).st ≠ .enabled ∧ mbLe c 4 4 * 1024 ≤ (s.part (mbByte c 0)).dataLen ∧ mbLe c 8 2 = 0 :=
  ⟨⟨64, 0, 7, (zeros 10), false⟩, dis0, _, _, rfl, by decide +kernel, by decide +kernel⟩

theorem test_meets_t_area_on : MbxMeets (fun t c => .ticketArea t c) fun c s => mbLe c 8 2 ≤ 1024 ∧ mbLe c 4 4 * 1024 + mbLe c 8 2 ≤ (s.part (mbByte c 0)).dataLen ∧ (s.part (mbByte c 0)).st = .enabled :=
  ⟨⟨64, 0, 7, (zeros 10), false⟩, open0, _, _, rfl, by decide +kernel, by decide +kernel⟩

theorem test_meets_pl_goal : MbxMeets (fun t c => .placeGoal t c) fun c s => (s.part (mbByte c 0)).st ≠ .free :=
  ⟨⟨64, 0, 7, (zeros 4), false⟩, open0, _, _, rfl, by decide +kernel, by decide +kernel⟩

theorem test_meets_pl_query : MbxMeets (fun t c => .placeQuery t c) fun c s => (s.part (mbByte c 0)).st ≠ .free :=
  ⟨⟨64, 0, 7, [0], false⟩, open0, _, _, rfl, by decide +kernel, by decide +kernel⟩

theorem test_meets_pl_goal_free : MbxMeets (fun t c => .placeGoal t c) fun c s => (s.part (mbByte c 0)).st = .free :=
  ⟨⟨64, 0, 7, (zeros 4), false⟩, up, _, _, rfl, by decide +kernel, by decide +kernel⟩

theorem test_meets_pl_query_free : MbxMeets (fun t c => .placeQuery t c) fun c s => (s.part (mbByte c 0)).st = .free :=
  ⟨⟨64, 0, 7, [0], false⟩, up, _, _, rfl, by decide +kernel, by decide +kernel⟩

theorem test_meets_pl_bind : MbxMeets (fun t c => .plateBind t c) fun c s => mbByte c 1 ≤ 7 ∧ mbByte c 2 < (s.part (mbByte c 0)).slots ∧ ((Tbl.find (s.part (mbByte c 0)).plates (mbByte c 1)).any fun x => x.st == .exposed) = true ∧ Tbl.find (s.part (mbByte c 0)).winBind (mbByte c 2) = none ∧ (s.part (mbByte c 0)).windowOf (mbByte c 1) = none :=
  ⟨⟨64, 0, 7, [0, 0, 0], false⟩, { open0 with parts := [(0, { Part.init with st := .enabled, cfg := { PartCfg.init with winBase := 1, winSlots := 1 }, plates := [(0, { (default : Plate) with st := .exposed })] })] }, _, _, rfl, by decide +kernel, by decide +kernel⟩

theorem test_meets_pl_bind_state : MbxMeets (fun t c => .plateBind t c) fun c s => mbByte c 1 ≤ 7 ∧ mbByte c 2 < (s.part (mbByte c 0)).slots ∧ (((Tbl.find (s.part (mbByte c 0)).plates (mbByte c 1)).any fun x => x.st == .exposed) = false ∨ (Tbl.find (s.part (mbByte c 0)).winBind (mbByte c 2)).isSome = true ∨ ((s.part (mbByte c 0)).windowOf (mbByte c 1)).isSome = true) :=
  ⟨⟨64, 0, 7, [0, 0, 0], false⟩, { open0 with parts := [(0, { Part.init with st := .enabled, cfg := { PartCfg.init with winBase := 1, winSlots := 1 }, plates := [(0, { (default : Plate) with st := .exposed })], winBind := [(0, 0)] })] }, _, _, rfl, by decide +kernel, by decide +kernel⟩

theorem test_meets_pl_bind_plate : MbxMeets (fun t c => .plateBind t c) fun c _ => 7 < mbByte c 1 :=
  ⟨⟨64, 0, 7, [0, 8, 0], false⟩, { open0 with parts := [(0, { Part.init with st := .enabled, cfg := { PartCfg.init with winBase := 1, winSlots := 1 }, plates := [(0, { (default : Plate) with st := .exposed })] })] }, _, _, rfl, by decide +kernel, by decide +kernel⟩

theorem test_meets_pl_bind_window : MbxMeets (fun t c => .plateBind t c) fun c s => mbByte c 1 ≤ 7 ∧ (s.part (mbByte c 0)).slots ≤ mbByte c 2 :=
  ⟨⟨64, 0, 7, [0, 0, 1], false⟩, { open0 with parts := [(0, { Part.init with st := .enabled, cfg := { PartCfg.init with winBase := 1, winSlots := 1 }, plates := [(0, { (default : Plate) with st := .exposed })] })] }, _, _, rfl, by decide +kernel, by decide +kernel⟩

theorem test_meets_pl_unbind : MbxMeets (fun t c => .plateUnbind t c) fun c s => (Tbl.find (s.part (mbByte c 0)).winBind (mbByte c 1)).isSome = true :=
  ⟨⟨64, 0, 7, [0, 0], false⟩, { open0 with parts := [(0, { Part.init with st := .enabled, cfg := { PartCfg.init with winBase := 1, winSlots := 1 }, plates := [(0, { (default : Plate) with st := .exposed })], winBind := [(0, 0)] })] }, _, _, rfl, by decide +kernel, by decide +kernel⟩

theorem test_meets_pl_unbind_free : MbxMeets (fun t c => .plateUnbind t c) fun c s => Tbl.find (s.part (mbByte c 0)).winBind (mbByte c 1) = none :=
  ⟨⟨64, 0, 7, [0, 0], false⟩, { open0 with parts := [(0, { Part.init with st := .enabled, cfg := { PartCfg.init with winBase := 1, winSlots := 1 }, plates := [(0, { (default : Plate) with st := .exposed })] })] }, _, _, rfl, by decide +kernel, by decide +kernel⟩

theorem test_meets_pl_release : ∃ (x : Plate), MbxMeets (fun t c => .plateRelease t c) fun c s => mbByte c 1 ≤ 7 ∧ Tbl.find (s.part (mbByte c 0)).live (mbByte c 1) = some x ∧ (s.part (mbByte c 0)).windowOf (mbByte c 1) = none ∧ x.st = .exposed :=
  ⟨{ (default : Plate) with st := .exposed }, ⟨64, 0, 7, [0, 0], false⟩, { open0 with parts := [(0, { Part.init with st := .enabled, cfg := { PartCfg.init with winBase := 1, winSlots := 1 }, plates := [(0, { (default : Plate) with st := .exposed })] })] }, _, _, rfl, by decide +kernel, by decide +kernel⟩

theorem test_meets_pl_release_armed : ∃ (x : Plate), MbxMeets (fun t c => .plateRelease t c) fun c s => mbByte c 1 ≤ 7 ∧ Tbl.find (s.part (mbByte c 0)).live (mbByte c 1) = some x ∧ (s.part (mbByte c 0)).windowOf (mbByte c 1) = none ∧ x.st = .armed :=
  ⟨{ (default : Plate) with st := .armed, slot := 3 }, ⟨64, 0, 7, [0, 0], false⟩, { open0 with parts := [(0, { Part.init with st := .enabled, cfg := { PartCfg.init with winBase := 1, winSlots := 1 }, plates := [(0, { (default : Plate) with st := .armed, slot := 3 })] })] }, _, _, rfl, by decide +kernel, by decide +kernel⟩

theorem test_meets_pl_release_none : MbxMeets (fun t c => .plateRelease t c) fun c s => mbByte c 1 ≤ 7 ∧ Tbl.find (s.part (mbByte c 0)).live (mbByte c 1) = none :=
  ⟨⟨64, 0, 7, [0, 0], false⟩, open0, _, _, rfl, by decide +kernel, by decide +kernel⟩

theorem test_meets_pl_release_state : ∃ (x : Plate), MbxMeets (fun t c => .plateRelease t c) fun c s => mbByte c 1 ≤ 7 ∧ Tbl.find (s.part (mbByte c 0)).live (mbByte c 1) = some x ∧ (((s.part (mbByte c 0)).windowOf (mbByte c 1)).isSome = true ∨ x.st = .pending ∨ x.st = .releasing ∨ x.st = .withdrawn) :=
  ⟨{ (default : Plate) with st := .exposed }, ⟨64, 0, 7, [0, 0], false⟩, { open0 with parts := [(0, { Part.init with st := .enabled, cfg := { PartCfg.init with winBase := 1, winSlots := 1 }, plates := [(0, { (default : Plate) with st := .exposed })], winBind := [(0, 0)] })] }, _, _, rfl, by decide +kernel, by decide +kernel⟩

theorem test_meets_pl_release_plate : MbxMeets (fun t c => .plateRelease t c) fun c _ => 7 < mbByte c 1 :=
  ⟨⟨64, 0, 7, [0, 8], false⟩, open0, _, _, rfl, by decide +kernel, by decide +kernel⟩

theorem test_meets_pg_name : MbxMeets (fun t c => .plateGroupName t c) fun c s => mbByte c 0 ≤ 63 ∧ mbByte c 1 = 1 ∧ 1 ≤ mbByte c 2 ∧ mbByte c 2 ≤ 64 ∧ c.input.length = 4 + 2 * mbByte c 2 ∧ (((List.range (mbByte c 2)).map fun k => mbLe c (4 + 2 * k) 2).any fun w => 1024 ≤ w) = false ∧ hasRepeat (((List.range (mbByte c 2)).map fun k => mbLe c (4 + 2 * k) 2).map fun w => (w % 64, w / 64 % 16)) = false ∧ s.mer.member = true ∧ s.mer.domOk = true
        ∧ (s.groups.any fun x => x.1 != mbByte c 0 && x.2.any fun m => (((List.range (mbByte c 2)).map fun k => mbLe c (4 + 2 * k) 2).map fun w => (w % 64, w / 64 % 16)).contains m) = false :=
  ⟨⟨64, 0, 7, ([0, 1, 1, 0] ++ leBytes 2 65), false⟩, { up with mer := { Mer.reset with member := true, domOk := true } }, _, _, rfl, by decide +kernel, by decide +kernel⟩

theorem test_meets_pg_name_no : MbxMeets (fun t c => .plateGroupName t c) fun c s => mbByte c 0 ≤ 63 ∧ mbByte c 1 = 1 ∧ 1 ≤ mbByte c 2 ∧ mbByte c 2 ≤ 64 ∧ c.input.length = 4 + 2 * mbByte c 2 ∧ (((List.range (mbByte c 2)).map fun k => mbLe c (4 + 2 * k) 2).any fun w => 1024 ≤ w) = false ∧ hasRepeat (((List.range (mbByte c 2)).map fun k => mbLe c (4 + 2 * k) 2).map fun w => (w % 64, w / 64 % 16)) = false ∧ (s.mer.member = false ∨ s.mer.domOk = false ∨ (s.groups.any fun x => x.1 != mbByte c 0 && x.2.any fun m => (((List.range (mbByte c 2)).map fun k => mbLe c (4 + 2 * k) 2).map fun w => (w % 64, w / 64 % 16)).contains m) = true) :=
  ⟨⟨64, 0, 7, ([0, 1, 1, 0] ++ leBytes 2 65), false⟩, up, _, _, rfl, by decide +kernel, by decide +kernel⟩

theorem test_meets_pg_name_bad : MbxMeets (fun t c => .plateGroupName t c) fun c _ => mbByte c 0 ≤ 63 ∧ mbByte c 1 = 1 ∧ 1 ≤ mbByte c 2 ∧ mbByte c 2 ≤ 64 ∧ c.input.length = 4 + 2 * mbByte c 2 ∧ ((((List.range (mbByte c 2)).map fun k => mbLe c (4 + 2 * k) 2).any fun w => 1024 ≤ w) = true ∨ hasRepeat (((List.range (mbByte c 2)).map fun k => mbLe c (4 + 2 * k) 2).map fun w => (w % 64, w / 64 % 16)) = true) :=
  ⟨⟨64, 0, 7, ([0, 1, 1, 0] ++ leBytes 2 1024), false⟩, up, _, _, rfl, by decide +kernel, by decide +kernel⟩

theorem test_meets_pg_dissolve : MbxMeets (fun t c => .plateGroupDissolve t c) fun c s => mbByte c 0 ≤ 63 ∧ mbByte c 1 = 0 ∧ 1 ≤ mbByte c 2 ∧ mbByte c 2 ≤ 64 ∧ c.input.length = 4 + 2 * mbByte c 2 ∧ (((List.range (mbByte c 2)).map fun k => mbLe c (4 + 2 * k) 2).any fun w => 1024 ≤ w) = false ∧ hasRepeat (((List.range (mbByte c 2)).map fun k => mbLe c (4 + 2 * k) 2).map fun w => (w % 64, w / 64 % 16)) = false ∧ s.mer.member = true ∧ s.mer.domOk = true ∧ (s.parts.any fun x => x.2.live.any fun y => y.2.group == some (mbByte c 0)) = false :=
  ⟨⟨64, 0, 7, ([0, 0, 1, 0] ++ leBytes 2 65), false⟩, { up with mer := { Mer.reset with member := true, domOk := true } }, _, _, rfl, by decide +kernel, by decide +kernel⟩

theorem test_meets_pg_dissolve_no : MbxMeets (fun t c => .plateGroupDissolve t c) fun c s => mbByte c 0 ≤ 63 ∧ mbByte c 1 = 0 ∧ 1 ≤ mbByte c 2 ∧ mbByte c 2 ≤ 64 ∧ c.input.length = 4 + 2 * mbByte c 2 ∧ (((List.range (mbByte c 2)).map fun k => mbLe c (4 + 2 * k) 2).any fun w => 1024 ≤ w) = false ∧ hasRepeat (((List.range (mbByte c 2)).map fun k => mbLe c (4 + 2 * k) 2).map fun w => (w % 64, w / 64 % 16)) = false ∧ (s.mer.member = false ∨ s.mer.domOk = false ∨ (s.parts.any fun x => x.2.live.any fun y => y.2.group == some (mbByte c 0)) = true) :=
  ⟨⟨64, 0, 7, ([0, 0, 1, 0] ++ leBytes 2 65), false⟩, up, _, _, rfl, by decide +kernel, by decide +kernel⟩

theorem test_meets_pg_dissolve_bad : MbxMeets (fun t c => .plateGroupDissolve t c) fun c _ => mbByte c 0 ≤ 63 ∧ mbByte c 1 = 0 ∧ 1 ≤ mbByte c 2 ∧ mbByte c 2 ≤ 64 ∧ c.input.length = 4 + 2 * mbByte c 2 ∧ ((((List.range (mbByte c 2)).map fun k => mbLe c (4 + 2 * k) 2).any fun w => 1024 ≤ w) = true ∨ hasRepeat (((List.range (mbByte c 2)).map fun k => mbLe c (4 + 2 * k) 2).map fun w => (w % 64, w / 64 % 16)) = true) :=
  ⟨⟨64, 0, 7, ([0, 0, 1, 0] ++ leBytes 2 1024), false⟩, up, _, _, rfl, by decide +kernel, by decide +kernel⟩

theorem test_meets_pl_query8 : MbxMeets (fun t c => .plateQuery t c) fun _ _ => True :=
  ⟨⟨64, 0, 7, [0], false⟩, open0, _, _, rfl, by decide +kernel, by decide +kernel⟩

theorem test_meets_ic_full : ∃ s : State, s.anySlot = none :=
  ⟨{ up with mer := { Mer.reset with slots := (List.range 16).map fun k => (k, ⟨3, 0, true, .armed, 0, 0, 0, .register, none, none⟩) } }, by decide +kernel⟩

theorem test_meets_ic_armed : ∃ (s : State) (mb kind scope param inst k : Nat) (u : State), s.anySlot = some k ∧
      (s.onSlot k fun _ => ⟨kind, scope, false, .idle, 0, param, s.instTime kind scope inst, .mailbox mb, none, none⟩).armSlot k (leadNs scope) = (none, u) :=
  ⟨up, 64, 3, 0, 0, 20000, 0, _, by decide +kernel, rfl⟩

theorem test_meets_ic_refused : ∃ (s : State) (mb kind scope param inst k st : Nat) (u : State), s.anySlot = some k ∧
      (s.onSlot k fun _ => ⟨kind, scope, false, .idle, 0, param, s.instTime kind scope inst, .mailbox mb, none, none⟩).armSlot k (leadNs scope) = (some st, u) :=
  ⟨up, 64, 3, 0, 0, 5, 0, 4, _, by decide +kernel, rfl⟩

theorem test_meets_i_snapshot : MbxMeets (fun t c => .snapshot t c) fun c _ => mbByte c 0 ≤ 1 ∧ mbByte c 1 ≤ 1 :=
  ⟨⟨64, 0, 7, (zeros 16), false⟩, up, _, _, rfl, by decide +kernel, by decide +kernel⟩

theorem test_meets_i_epochlen : MbxMeets (fun t c => .epochLen t c) fun c s => 10 ≤ mbLe c 0 4 ∧ mbLe c 0 4 ≤ 10000 ∧ mbByte c 4 ≤ 2 ∧ s.scopeOk 1 (mbByte c 4) (mbLe c 0 4) = true :=
  ⟨⟨64, 0, 7, (leBytes 4 100 ++ zeros 12), false⟩, up, _, _, rfl, by decide +kernel, by decide +kernel⟩

theorem test_meets_i_epochlen_bad : MbxMeets (fun t c => .epochLen t c) fun c _ => mbLe c 0 4 < 10 ∨ 10000 < mbLe c 0 4 :=
  ⟨⟨64, 0, 7, (zeros 16), false⟩, up, _, _, rfl, by decide +kernel, by decide +kernel⟩

theorem test_meets_i_expose : MbxMeets (fun t c => .plateExpose t c) fun c s => mbByte c 1 = 0 ∧ mbByte c 0 ≤ 63 ∧ (64 ≤ c.mb.val ∨ mbByte c 0 = c.mb.val) ∧ mbByte c 2 ≤ 7
        ∧ ((s.plateParts (mbByte c 0 % 64 + 64 * mbByte c 2)).any fun p => (s.part p).st == .free || (s.part p).live.any fun y => y.1 == mbByte c 2) = false :=
  ⟨⟨64, 0, 7, (zeros 16), false⟩, open0, _, _, rfl, by decide +kernel, by decide +kernel⟩

theorem test_meets_i_expose_group : MbxMeets (fun t c => .plateExpose t c) fun c s => 64 ≤ c.mb.val ∧ mbByte c 1 = 1 ∧ mbByte c 0 ≤ 63 ∧ mbByte c 2 ≤ 7 ∧ (Tbl.find s.groups (mbByte c 0)).isSome = true ∧ s.mer.domOk = true
        ∧ ((s.plateParts (mbByte c 0 % 64 + 64 * mbByte c 2 + 512)).any fun p => (s.part p).st == .free || (s.part p).live.any fun y => y.1 == mbByte c 2) = false :=
  ⟨⟨64, 0, 7, ([0, 1] ++ zeros 14), false⟩, { open0 with groups := [(0, [(0, 0)])], mer := { Mer.reset with domOk := true } }, _, _, rfl, by decide +kernel, by decide +kernel⟩

theorem test_meets_i_rolemove : MbxMeets (fun t c => .roleMove t c) fun c s => s.twin.st = .paired ∧ bitN s.twin.roles.toNat (mbByte c 0) = true ∧ Tbl.find s.twin.moves (mbByte c 0) = none
        ∧ ((List.range 16).any fun k => (s.slot k).arm && !(s.slot k).ended && (s.slot k).kind == 7 && (s.slot k).param % 64 == mbByte c 0) = false :=
  ⟨⟨64, 0, 7, (zeros 16), false⟩, { open0 with twin := { Twin.reset with st := .paired, roles := 1 } }, _, _, rfl, by decide +kernel, by decide +kernel⟩

theorem test_meets_i_rolemove_no : MbxMeets (fun t c => .roleMove t c) fun c s => s.twin.st ≠ .paired ∨ bitN s.twin.roles.toNat (mbByte c 0) = false ∨ (Tbl.find s.twin.moves (mbByte c 0)).isSome = true
        ∨ ((List.range 16).any fun k => (s.slot k).arm && !(s.slot k).ended && (s.slot k).kind == 7 && (s.slot k).param % 64 == mbByte c 0) = true :=
  ⟨⟨64, 0, 7, (zeros 16), false⟩, open0, _, _, rfl, by decide +kernel, by decide +kernel⟩

theorem test_meets_i_expose_no : MbxMeets (fun t c => .plateExpose t c) fun c s => (64 ≤ c.mb.val ∨ (mbByte c 1 = 0 ∧ mbByte c 0 = c.mb.val)) ∧ mbByte c 1 ≤ 1 ∧ mbByte c 0 ≤ 63 ∧ mbByte c 2 ≤ 7
        ∧ ((mbByte c 1 = 1 ∧ ((Tbl.find s.groups (mbByte c 0)).isNone = true ∨ s.mer.domOk = false))
            ∨ ((s.plateParts (mbByte c 0 % 64 + 64 * mbByte c 2 + 512 * b2n (mbByte c 1 % 2 == 1))).any fun p => (s.part p).st == .free || (s.part p).live.any fun y => y.1 == mbByte c 2) = true) :=
  ⟨⟨64, 0, 7, (zeros 16), false⟩, up, _, _, rfl, by decide +kernel, by decide +kernel⟩

theorem test_meets_i_snapshot_bad : MbxMeets (fun t c => .snapshot t c) fun c _ => 1 < mbByte c 0 :=
  ⟨⟨64, 0, 7, (2 :: zeros 15), false⟩, up, _, _, rfl, by decide +kernel, by decide +kernel⟩

theorem test_meets_i_epochlen_scope : MbxMeets (fun t c => .epochLen t c) fun c s => 10 ≤ mbLe c 0 4 ∧ mbLe c 0 4 ≤ 10000 ∧ (2 < mbByte c 4 ∨ s.scopeOk 1 (mbByte c 4) (mbLe c 0 4) = false) :=
  ⟨⟨64, 0, 7, (leBytes 4 100 ++ [3] ++ zeros 11), false⟩, up, _, _, rfl, by decide +kernel, by decide +kernel⟩

theorem test_meets_i_cancel : MbxMeets (fun t c => .instantCancel t c) fun c _ => mbByte c 0 ≤ 15 :=
  ⟨⟨64, 0, 7, [0], false⟩, up, _, _, rfl, by decide +kernel, by decide +kernel⟩

theorem test_meets_i_list : MbxMeets (fun t c => .instantList t c) fun _ _ => True :=
  ⟨⟨64, 0, 7, [], false⟩, up, _, _, rfl, by decide +kernel, by decide +kernel⟩

theorem test_meets_b_barrier : MbxMeets (fun t c => .barrier t c) fun c s => 1 ≤ mbByte c 1 ∧ mbByte c 1 ≤ 3 ∧ mbByte c 2 ≤ 1 ∧ (mbByte c 2 = 0 → mbLe c 8 8 = 0) ∧ (mbByte c 1 = 3 → s.mer.member = true ∧ s.mer.domOk = true) ∧ (mbByte c 1 ≠ 3 → mbByte c 2 = 0) :=
  ⟨⟨64, 0, 7, ([0, 1] ++ zeros 14), false⟩, open0, _, _, rfl, by decide +kernel, by decide +kernel⟩

theorem test_meets_b_barrier_no : MbxMeets (fun t c => .barrier t c) fun c s => 1 ≤ mbByte c 1 ∧ mbByte c 1 ≤ 3 ∧ mbByte c 2 ≤ 1 ∧ (mbByte c 2 = 0 → mbLe c 8 8 = 0) ∧ ((mbByte c 1 = 3 ∧ (s.mer.member && s.mer.domOk) = false) ∨ (mbByte c 1 ≠ 3 ∧ mbByte c 2 = 1)) :=
  ⟨⟨64, 0, 7, ([0, 3] ++ zeros 14), false⟩, open0, _, _, rfl, by decide +kernel, by decide +kernel⟩

theorem test_meets_b_barrier_scope : MbxMeets (fun t c => .barrier t c) fun c _ => mbByte c 1 = 0 ∨ 3 < mbByte c 1 :=
  ⟨⟨64, 0, 7, (zeros 16), false⟩, open0, _, _, rfl, by decide +kernel, by decide +kernel⟩

theorem test_meets_b_barrier_flags : MbxMeets (fun t c => .barrier t c) fun c _ => 1 ≤ mbByte c 1 ∧ mbByte c 1 ≤ 3 ∧ 1 < mbByte c 2 :=
  ⟨⟨64, 0, 7, ([0, 1, 2] ++ zeros 13), false⟩, open0, _, _, rfl, by decide +kernel, by decide +kernel⟩

theorem test_meets_b_barrier_inst : MbxMeets (fun t c => .barrier t c) fun c _ => 1 ≤ mbByte c 1 ∧ mbByte c 1 ≤ 3 ∧ mbByte c 2 = 0 ∧ mbLe c 8 8 ≠ 0 :=
  ⟨⟨64, 0, 7, ([0, 1] ++ zeros 6 ++ leBytes 8 5), false⟩, open0, _, _, rfl, by decide +kernel, by decide +kernel⟩

theorem test_meets_b_list : MbxMeets (fun t c => .barrierList t c) fun _ _ => True :=
  ⟨⟨64, 0, 7, [], false⟩, up, _, _, rfl, by decide +kernel, by decide +kernel⟩

theorem test_meets_tw_status : MbxMeets (fun t c => .twinStatus t c) fun _ _ => True :=
  ⟨⟨64, 0, 7, [], false⟩, up, _, _, rfl, by decide +kernel, by decide +kernel⟩

theorem test_meets_tw_drill : MbxMeets (fun t c => .twinDrill t c) fun _ s => s.twin.st = .paired ∧ ((List.range 16).any fun k => (s.slot k).arm && !(s.slot k).ended && (s.slot k).kind == 7) = false :=
  ⟨⟨64, 0, 7, [], false⟩, { up with twin := { Twin.reset with st := .paired } }, _, _, rfl, by decide +kernel, by decide +kernel⟩

theorem test_meets_tw_drill_no : MbxMeets (fun t c => .twinDrill t c) fun _ s => s.twin.st ≠ .paired ∨ ((List.range 16).any fun k => (s.slot k).arm && !(s.slot k).ended && (s.slot k).kind == 7) = true :=
  ⟨⟨64, 0, 7, [], false⟩, up, _, _, rfl, by decide +kernel, by decide +kernel⟩

theorem test_meets_tw_restart : MbxMeets (fun t c => .blockRestart t c) fun _ s => s.twin.st = .abdicated ∨ s.twin.abdParts ≠ 0 ∨ s.pwr.readyOff = true :=
  ⟨⟨64, 0, 7, [], false⟩, { up with twin := { Twin.reset with st := .abdicated } }, _, _, rfl, by decide +kernel, by decide +kernel⟩

theorem test_meets_tw_restart_no : MbxMeets (fun t c => .blockRestart t c) fun _ s => s.twin.st ≠ .abdicated ∧ s.twin.abdParts = 0 ∧ s.pwr.readyOff = false :=
  ⟨⟨64, 0, 7, [], false⟩, up, _, _, rfl, by decide +kernel, by decide +kernel⟩

theorem test_meets_c_query : MbxMeets (fun t c => .capQuery t c) fun c _ => mbByte c 0 ≤ 31 :=
  ⟨⟨64, 0, 7, [0], false⟩, up, _, _, rfl, by decide +kernel, by decide +kernel⟩

theorem test_meets_c_add : ∃ (size pair : Nat), MbxMeets (fun t c => .capAdd t c size pair) fun c s => mbByte c 0 ≤ 31 ∧ mbByte c 1 ≤ 1 ∧ mbByte c 2 = 0 ∧ (s.mp (mbByte c 0)).present = false ∧ size ≠ 0 :=
  ⟨100, 0, ⟨64, 0, 7, (zeros 16), false⟩, up, _, _, rfl, by decide +kernel, by decide +kernel⟩

theorem test_meets_c_add_map : ∃ (size pair : Nat), MbxMeets (fun t c => .capAdd t c size pair) fun c s => mbByte c 0 ≤ 31 ∧ mbByte c 1 ≤ 1 ∧ mbByte c 2 = 1 ∧ (s.mp (mbByte c 0)).present = false ∧ size ≠ 0 ∧ s.mapPair = none ∧ (s.mp (mbByte c 0 ^^^ 1)).present = false ∧ pair ≠ 0 :=
  ⟨100, 100, ⟨64, 0, 7, ([0, 0, 1] ++ zeros 13), false⟩, up, _, _, rfl, by decide +kernel, by decide +kernel⟩

theorem test_meets_c_add_no : ∃ (size pair : Nat), MbxMeets (fun t c => .capAdd t c size pair) fun c s => mbByte c 0 ≤ 31 ∧ mbByte c 1 ≤ 1 ∧ mbByte c 2 ≤ 1 ∧ ((s.mp (mbByte c 0)).present = true ∨ size = 0 ∨ (mbByte c 2 = 1 ∧ (s.mapPair.isSome = true ∨ (s.mp (mbByte c 0 ^^^ 1)).present = true ∨ pair = 0))) :=
  ⟨100, 0, ⟨64, 0, 7, (zeros 16), false⟩, { up with mports := [(0, { MPort.init with present := true })] }, _, _, rfl, by decide +kernel, by decide +kernel⟩

theorem test_meets_c_remove : MbxMeets (fun t c => .capRemove t c) fun c s => mbByte c 0 ≤ 31 ∧ (s.mp (mbByte c 0)).mapPort = false ∧ (s.mp (mbByte c 0)).draining = false ∧ (s.mp (mbByte c 0)).present = true
        ∧ 101 * (s.mp (mbByte c 0)).countSt 1 ≤ 100 * sumOf s.freeHere (below 32 fun k => k != mbByte c 0 && (s.mp k).open') :=
  ⟨⟨64, 0, 7, [0], false⟩, { up with mports := [(0, { MPort.init with present := true, mapPort := false })] }, _, _, rfl, by decide +kernel, by decide +kernel⟩

theorem test_meets_c_remove_room : MbxMeets (fun t c => .capRemove t c) fun c s => mbByte c 0 ≤ 31 ∧ (s.mp (mbByte c 0)).mapPort = false ∧ (s.mp (mbByte c 0)).draining = false ∧ (s.mp (mbByte c 0)).present = true
        ∧ 100 * sumOf s.freeHere (below 32 fun k => k != mbByte c 0 && (s.mp k).open') < 101 * (s.mp (mbByte c 0)).countSt 1 :=
  ⟨⟨64, 0, 7, [0], false⟩, { up with mports := [(0, { MPort.init with present := true, mapPort := false, dataTracts := 4, ledger := [(0, 1)] })] }, _, _, rfl, by decide +kernel, by decide +kernel⟩

theorem test_meets_c_remove_no : MbxMeets (fun t c => .capRemove t c) fun c s => mbByte c 0 ≤ 31 ∧ ((s.mp (mbByte c 0)).mapPort = true ∨ (s.mp (mbByte c 0)).draining = true ∨ (s.mp (mbByte c 0)).present = false) :=
  ⟨⟨64, 0, 7, [0], false⟩, up, _, _, rfl, by decide +kernel, by decide +kernel⟩

theorem test_meets_t_rethaw : MbxMeets (fun t c => .tractRethaw t c) fun c s => mbByte c 0 = 0 ∧ s.frozenFor (mbLe c 4 4) = true :=
  ⟨⟨64, 0, 7, (zeros 8), false⟩, { up with place := { Place.reset with map := [(0, mkEntry 0 2 0 1 5 0 0)], map2 := [(0, mkEntry 0 2 0 1 5 0 0)] }, mports := [(2, { MPort.init with present := true, enable := true, dataTracts := 20, size := 20 })] }, _, _, rfl, by decide +kernel, by decide +kernel⟩

theorem test_meets_t_rethaw_no : MbxMeets (fun t c => .tractRethaw t c) fun c s => mbByte c 0 = 0 ∧ s.frozenFor (mbLe c 4 4) = false :=
  ⟨⟨64, 0, 7, (zeros 8), false⟩, up, _, _, rfl, by decide +kernel, by decide +kernel⟩

theorem test_meets_t_rebuild : MbxMeets (fun t c => .tractRebuild t c) fun c s => mbByte c 0 = 1 ∧ s.frozenFor (mbLe c 4 4) = true ∧ s.tierFree ((s.mapEntry (mbLe c 4 4)).any fun e => meOk (mbLe c 4 4) e && (s.mp (mePort e)).fast) ≠ 0 :=
  ⟨⟨64, 0, 7, ([1] ++ zeros 7), false⟩, { up with place := { Place.reset with map := [(0, mkEntry 0 2 0 1 5 0 0)], map2 := [(0, mkEntry 0 2 0 1 5 0 0)] }, mports := [(2, { MPort.init with present := true, enable := true, dataTracts := 20, size := 20 })] }, _, _, rfl, by decide +kernel, by decide +kernel⟩

theorem test_meets_t_rebuild_room : MbxMeets (fun t c => .tractRebuild t c) fun c s => mbByte c 0 = 1 ∧ s.frozenFor (mbLe c 4 4) = true ∧ s.tierFree ((s.mapEntry (mbLe c 4 4)).any fun e => meOk (mbLe c 4 4) e && (s.mp (mePort e)).fast) = 0 :=
  ⟨⟨64, 0, 7, ([1] ++ zeros 7), false⟩, { up with place := { Place.reset with map := [(0, mkEntry 0 2 0 1 5 0 0)], map2 := [(0, mkEntry 0 2 0 1 5 0 0)] } }, _, _, rfl, by decide +kernel, by decide +kernel⟩

theorem test_meets_t_rebuild_no : MbxMeets (fun t c => .tractRebuild t c) fun c s => mbByte c 0 = 1 ∧ s.frozenFor (mbLe c 4 4) = false :=
  ⟨⟨64, 0, 7, ([1] ++ zeros 7), false⟩, up, _, _, rfl, by decide +kernel, by decide +kernel⟩

theorem test_meets_d_refresh : MbxMeets (fun t c => .dirRefresh t c) fun _ s => s.place.refresh = false :=
  ⟨⟨64, 0, 7, [], false⟩, up, _, _, rfl, by decide +kernel, by decide +kernel⟩

theorem test_meets_d_refresh_on : MbxMeets (fun t c => .dirRefresh t c) fun _ s => s.place.refresh = true :=
  ⟨⟨64, 0, 7, [], false⟩, { up with place := { Place.reset with refresh := true } }, _, _, rfl, by decide +kernel, by decide +kernel⟩

theorem test_meets_s_shutdown : MbxMeets (fun t c => .shutdown t c) fun _ s => s.pwr.stopping = false ∧ s.pwr.readyOff = false :=
  ⟨⟨64, 0, 7, [], false⟩, up, _, _, rfl, by decide +kernel, by decide +kernel⟩

theorem test_meets_s_shutdown_on : MbxMeets (fun t c => .shutdown t c) fun _ s => s.pwr.stopping = true ∨ s.pwr.readyOff = true :=
  ⟨⟨64, 0, 7, [], false⟩, { up with pwr := { up.pwr with readyOff := true } }, _, _, rfl, by decide +kernel, by decide +kernel⟩

theorem test_meets_f_alm : MbxMeets (fun t c => .almRead t c) fun c _ => 1 ≤ mbByte c 4 ∧ mbByte c 4 ≤ 126 ∧ mbByte c 5 = 0 :=
  ⟨⟨64, 0, 7, ([255, 255, 255, 255, 3, 0]), false⟩, { up with win := { Win.reset with recs := [{ (default : AlmRec) with recno := 7 }] } }, _, _, rfl, by decide +kernel, by decide +kernel⟩

theorem test_meets_f_alm_ack : ∃ (r : AlmRec), MbxMeets (fun t c => .almRead t c) fun c s => 1 ≤ mbByte c 4 ∧ mbByte c 4 ≤ 126 ∧ mbByte c 5 = 1 ∧ ((s.win.recs.filter fun r => mbLe c 0 4 == 0xFFFFFFFF || r.recno == mbLe c 0 4 || later32 r.recno (mbLe c 0 4)).take (mbByte c 4)).getLast? = some r :=
  ⟨{ (default : AlmRec) with recno := 7 }, ⟨64, 0, 7, ([255, 255, 255, 255, 3, 1]), false⟩, { up with win := { Win.reset with recs := [{ (default : AlmRec) with recno := 7 }] } }, _, _, rfl, by decide +kernel, by decide +kernel⟩

theorem test_meets_f_alm_ack_none : MbxMeets (fun t c => .almRead t c) fun c s => 1 ≤ mbByte c 4 ∧ mbByte c 4 ≤ 126 ∧ mbByte c 5 = 1 ∧ ((s.win.recs.filter fun r => mbLe c 0 4 == 0xFFFFFFFF || r.recno == mbLe c 0 4 || later32 r.recno (mbLe c 0 4)).take (mbByte c 4)).getLast? = none :=
  ⟨⟨64, 0, 7, ([255, 255, 255, 255, 3, 1]), false⟩, up, _, _, rfl, by decide +kernel, by decide +kernel⟩

theorem test_meets_f_alm_flags : MbxMeets (fun t c => .almRead t c) fun c _ => 1 ≤ mbByte c 4 ∧ mbByte c 4 ≤ 126 ∧ 1 < mbByte c 5 :=
  ⟨⟨64, 0, 7, [0, 0, 0, 0, 1, 2], false⟩, up, _, _, rfl, by decide +kernel, by decide +kernel⟩

theorem test_meets_f_alm_max : MbxMeets (fun t c => .almRead t c) fun c _ => mbByte c 4 < 1 ∨ 126 < mbByte c 4 :=
  ⟨⟨64, 0, 7, (zeros 6), false⟩, up, _, _, rfl, by decide +kernel, by decide +kernel⟩

theorem test_meets_f_first : MbxMeets (fun t c => .firstFaultRead t c) fun c _ => mbByte c 0 = 0 :=
  ⟨⟨64, 0, 7, [0], false⟩, up, _, _, rfl, by decide +kernel, by decide +kernel⟩

theorem test_meets_f_clear : MbxMeets (fun t c => .firstFaultClear t c) fun c s => mbByte c 0 = 1 ∧ s.firstBusy = false :=
  ⟨⟨64, 0, 7, [1], false⟩, up, _, _, rfl, by decide +kernel, by decide +kernel⟩

theorem test_meets_f_clear_busy : MbxMeets (fun t c => .firstFaultClear t c) fun c s => mbByte c 0 = 1 ∧ s.firstBusy = true :=
  ⟨⟨64, 0, 7, [1], false⟩, { up with win := { Win.reset with failsafe := true } }, _, _, rfl, by decide +kernel, by decide +kernel⟩

theorem test_meets_f_celog : MbxMeets (fun t c => .ceLog t c) fun c _ => mbByte c 0 ≤ 15 :=
  ⟨⟨64, 0, 7, [3], false⟩, up, _, _, rfl, by decide +kernel, by decide +kernel⟩

theorem test_meets_f_celog_bad : MbxMeets (fun t c => .ceLog t c) fun c _ => 15 < mbByte c 0 :=
  ⟨⟨64, 0, 7, [16], false⟩, up, _, _, rfl, by decide +kernel, by decide +kernel⟩

theorem test_meets_f_gasp : ∃ (b : List Byte), MbxMeets (fun t c => .lastgasp t c) fun c s => mbByte c 0 ≤ 1 ∧ Tbl.find s.pwr.gasp (mbByte c 0) = some b :=
  ⟨[9], ⟨64, 0, 7, [1], false⟩, { up with pwr := { up.pwr with gasp := [(1, [9])] } }, _, _, rfl, by decide +kernel, by decide +kernel⟩

theorem test_meets_f_gasp_new : ∃ (k : Nat) (b : List Byte), MbxMeets (fun t c => .lastgasp t c) fun c s => mbByte c 0 = 2 ∧ s.newerGasp = some k ∧ Tbl.find s.pwr.gasp k = some b :=
  ⟨1, [9], ⟨64, 0, 7, [2], false⟩, { up with pwr := { up.pwr with gasp := [(1, [9])] } }, _, _, rfl, by decide +kernel, by decide +kernel⟩

theorem test_meets_f_gasp_none : MbxMeets (fun t c => .lastgasp t c) fun c s => (mbByte c 0 ≤ 1 ∧ Tbl.find s.pwr.gasp (mbByte c 0) = none) ∨ (mbByte c 0 = 2 ∧ s.newerGasp = none) :=
  ⟨⟨64, 0, 7, [1], false⟩, up, _, _, rfl, by decide +kernel, by decide +kernel⟩

theorem test_meets_cr_words : MbxMeets (fun t c => .counterRead t c) fun c s => mbByte c 0 = 0 ∧ mbLe c 4 4 % 4 = 0 ∧ mbLe c 4 4 < 0x400000 ∧ 1 ≤ mbLe c 8 2 ∧ mbLe c 8 2 ≤ 1020 ∧ mbLe c 4 4 + 4 * mbLe c 8 2 ≤ 0x400000 ∧ s.blk.snapValid = true :=
  ⟨⟨64, 0, 7, (zeros 8 ++ [2, 0]), false⟩, { up with blk := { Blk.reset with snapValid := true } }, _, _, rfl, by decide +kernel, by decide +kernel⟩

theorem test_meets_cr_stats : MbxMeets (fun t c => .counterRead t c) fun c s => mbByte c 0 = 1 ∧ mbLe c 4 4 ≤ 1172 ∧ 1 ≤ mbLe c 8 2 ∧ mbLe c 8 2 ≤ 63 ∧ mbLe c 4 4 + mbLe c 8 2 ≤ 1173 ∧ s.blk.snapValid = true :=
  ⟨⟨64, 0, 7, ([1] ++ zeros 7 ++ [2, 0]), false⟩, { up with blk := { Blk.reset with snapValid := true } }, _, _, rfl, by decide +kernel, by decide +kernel⟩

theorem test_meets_cr_none : MbxMeets (fun t c => .counterRead t c) fun c s => s.blk.snapValid = false ∧ ((mbByte c 0 = 0 ∧ mbLe c 4 4 % 4 = 0 ∧ mbLe c 4 4 < 0x400000 ∧ 1 ≤ mbLe c 8 2 ∧ mbLe c 8 2 ≤ 1020 ∧ mbLe c 4 4 + 4 * mbLe c 8 2 ≤ 0x400000)
        ∨ (mbByte c 0 = 1 ∧ mbLe c 4 4 ≤ 1172 ∧ 1 ≤ mbLe c 8 2 ∧ mbLe c 8 2 ≤ 63 ∧ mbLe c 4 4 + mbLe c 8 2 ≤ 1173)) :=
  ⟨⟨64, 0, 7, (zeros 8 ++ [2, 0]), false⟩, up, _, _, rfl, by decide +kernel, by decide +kernel⟩

theorem test_meets_cr_kind : MbxMeets (fun t c => .counterRead t c) fun c _ => 1 < mbByte c 0 :=
  ⟨⟨64, 0, 7, ([2] ++ zeros 9), false⟩, up, _, _, rfl, by decide +kernel, by decide +kernel⟩

theorem test_meets_cr_first : MbxMeets (fun t c => .counterRead t c) fun c _ => (mbByte c 0 = 0 ∧ (mbLe c 4 4 % 4 ≠ 0 ∨ 0x400000 ≤ mbLe c 4 4)) ∨ (mbByte c 0 = 1 ∧ 1172 < mbLe c 4 4) :=
  ⟨⟨64, 0, 7, (zeros 4 ++ [1] ++ zeros 5), false⟩, up, _, _, rfl, by decide +kernel, by decide +kernel⟩

theorem test_meets_cr_count : MbxMeets (fun t c => .counterRead t c) fun c _ => (mbByte c 0 = 0 ∧ mbLe c 4 4 % 4 = 0 ∧ mbLe c 4 4 < 0x400000 ∧ (mbLe c 8 2 = 0 ∨ 1020 < mbLe c 8 2 ∨ 0x400000 < mbLe c 4 4 + 4 * mbLe c 8 2))
        ∨ (mbByte c 0 = 1 ∧ mbLe c 4 4 ≤ 1172 ∧ (mbLe c 8 2 = 0 ∨ 63 < mbLe c 8 2 ∨ 1173 < mbLe c 4 4 + mbLe c 8 2)) :=
  ⟨⟨64, 0, 7, (zeros 10), false⟩, up, _, _, rfl, by decide +kernel, by decide +kernel⟩

theorem test_meets_o_repair : ∃ (rs : List Nat), MbxMeets (fun t c => .otpRepair t c) fun _ s => s.pwr.otpJob = none ∧ otpFrozen s.pwr.otp 0 = false ∧ s.nextRepairs = some rs :=
  ⟨[], ⟨64, 0, 7, [], true⟩, { up with pwr := { up.pwr with presence := some 100 } }, _, _, rfl, by decide +kernel, by decide +kernel⟩

theorem test_meets_o_repair_busy : ∃ (rs : List Nat), MbxMeets (fun t c => .otpRepair t c) fun _ s => s.pwr.otpJob.isSome = true ∧ s.nextRepairs = some rs :=
  ⟨[], ⟨64, 0, 7, [], true⟩, { up with pwr := { up.pwr with presence := some 100, otpJob := some ⟨0, 0, 64⟩ } }, _, _, rfl, by decide +kernel, by decide +kernel⟩

theorem test_meets_o_repair_full : MbxMeets (fun t c => .otpRepair t c) fun _ s => s.nextRepairs = none :=
  ⟨⟨64, 0, 7, [], true⟩, { up with pwr := { up.pwr with presence := some 100, otp := BitVec.allOnes 16384 } }, _, _, rfl, by decide +kernel, by decide +kernel⟩

theorem test_meets_o_defaults_busy : MbxMeets (fun t c => .otpDefaults t c) fun c s => s.pwr.otpJob.isSome = true ∧ s.pwr.otpJob ≠ none ∧ 1 ≤ mbByte c 0 ∧ mbByte c 0 ≤ 46 ∧ c.input.length = 2 + 6 * mbByte c 0 ∧ (∀ k ∈ List.range (mbByte c 0), mbLe c (2 + 6 * k) 6 % 4 ≠ 3) :=
  ⟨⟨64, 0, 7, ([1, 0] ++ zeros 6), true⟩, { up with pwr := { up.pwr with presence := some 100, otpJob := some ⟨0, 0, 64⟩ } }, _, _, rfl, by decide +kernel, by decide +kernel⟩

theorem test_meets_o_flash_busy : MbxMeets (fun t c => .otpFlashPw t c) fun c s => s.pwr.otpJob.isSome = true ∧ mbLe c 0 16 ≠ 0 :=
  ⟨⟨64, 0, 7, ([1] ++ zeros 15), true⟩, { up with pwr := { up.pwr with presence := some 100, otpJob := some ⟨0, 0, 64⟩ } }, _, _, rfl, by decide +kernel, by decide +kernel⟩

theorem test_meets_o_lock_busy : MbxMeets (fun t c => .otpFactoryLock t c) fun _ s => s.pwr.otpJob.isSome = true ∧ otpNewest s.pwr.otp 5 = none :=
  ⟨⟨65, 0, 7, [], true⟩, { up with pwr := { up.pwr with presence := some 100, otpJob := some ⟨0, 0, 64⟩ } }, _, _, rfl, by decide +kernel, by decide +kernel⟩

theorem test_meets_o_lock_full : MbxMeets (fun t c => .otpFactoryLock t c) fun _ s => s.pwr.otpJob = none ∧ otpFrozen s.pwr.otp 5 = true ∧ otpNewest s.pwr.otp 5 = none :=
  ⟨⟨65, 0, 7, [], true⟩, { up with pwr := { up.pwr with presence := some 100, otp := BitVec.allOnes 16384 } }, _, _, rfl, by decide +kernel, by decide +kernel⟩

theorem test_meets_o_pair_full : MbxMeets (fun t c => .twinPair t c) fun c s => s.pwr.otpJob = none ∧ otpFrozen s.pwr.otp 2 = true ∧ mbByte c 10 ≤ 1 :=
  ⟨⟨64, 0, 7, (zeros 16), true⟩, { up with pwr := { up.pwr with presence := some 100, otp := BitVec.allOnes 16384 } }, _, _, rfl, by decide +kernel, by decide +kernel⟩

theorem test_meets_o_defaults : MbxMeets (fun t c => .otpDefaults t c) fun c s => s.pwr.otpJob = none ∧ otpFrozen s.pwr.otp 3 = false ∧ 1 ≤ mbByte c 0 ∧ mbByte c 0 ≤ 46 ∧ c.input.length = 2 + 6 * mbByte c 0 ∧ (∀ k ∈ List.range (mbByte c 0), mbLe c (2 + 6 * k) 6 % 4 ≠ 3) :=
  ⟨⟨64, 0, 7, ([1, 0] ++ zeros 6), true⟩, { up with pwr := { up.pwr with presence := some 100 } }, _, _, rfl, by decide +kernel, by decide +kernel⟩

theorem test_meets_o_defaults_full : MbxMeets (fun t c => .otpDefaults t c) fun c s => s.pwr.otpJob = none ∧ otpFrozen s.pwr.otp 3 = true ∧ 1 ≤ mbByte c 0 ∧ mbByte c 0 ≤ 46 ∧ c.input.length = 2 + 6 * mbByte c 0 ∧ (∀ k ∈ List.range (mbByte c 0), mbLe c (2 + 6 * k) 6 % 4 ≠ 3) :=
  ⟨⟨64, 0, 7, ([1, 0] ++ zeros 6), true⟩, { up with pwr := { up.pwr with presence := some 100, otp := BitVec.allOnes 16384 } }, _, _, rfl, by decide +kernel, by decide +kernel⟩

theorem test_meets_o_defaults_count : MbxMeets (fun t c => .otpDefaults t c) fun c _ => mbByte c 0 < 1 ∨ 46 < mbByte c 0 ∨ c.input.length ≠ 2 + 6 * mbByte c 0 :=
  ⟨⟨64, 0, 7, ([2, 0] ++ zeros 6), true⟩, { up with pwr := { up.pwr with presence := some 100 } }, _, _, rfl, by decide +kernel, by decide +kernel⟩

theorem test_meets_o_flash : MbxMeets (fun t c => .otpFlashPw t c) fun c s => s.pwr.otpJob = none ∧ otpFrozen s.pwr.otp 4 = false ∧ mbLe c 0 16 ≠ 0 :=
  ⟨⟨64, 0, 7, ([1] ++ zeros 15), true⟩, { up with pwr := { up.pwr with presence := some 100 } }, _, _, rfl, by decide +kernel, by decide +kernel⟩

theorem test_meets_o_flash_zero : MbxMeets (fun t c => .otpFlashPw t c) fun c _ => mbLe c 0 16 = 0 :=
  ⟨⟨64, 0, 7, (zeros 16), true⟩, { up with pwr := { up.pwr with presence := some 100 } }, _, _, rfl, by decide +kernel, by decide +kernel⟩

theorem test_meets_o_flash_full : MbxMeets (fun t c => .otpFlashPw t c) fun c s => s.pwr.otpJob = none ∧ otpFrozen s.pwr.otp 4 = true ∧ mbLe c 0 16 ≠ 0 :=
  ⟨⟨64, 0, 7, ([1] ++ zeros 15), true⟩, { up with pwr := { up.pwr with presence := some 100, otp := BitVec.allOnes 16384 } }, _, _, rfl, by decide +kernel, by decide +kernel⟩

theorem test_meets_o_lock : MbxMeets (fun t c => .otpFactoryLock t c) fun _ s => s.pwr.otpJob = none ∧ otpFrozen s.pwr.otp 5 = false ∧ otpNewest s.pwr.otp 5 = none :=
  ⟨⟨65, 0, 7, [], true⟩, { up with pwr := { up.pwr with presence := some 100 } }, _, _, rfl, by decide +kernel, by decide +kernel⟩

theorem test_meets_o_lock_again : MbxMeets (fun t c => .otpFactoryLock t c) fun _ s => (otpNewest s.pwr.otp 5).isSome = true :=
  ⟨⟨65, 0, 7, [], true⟩, { up with pwr := { up.pwr with presence := some 100, otp := BitVec.ofNat 16384 ((0 + otpTrailer 5 0 <<< otpBits 5) <<< (otpGroup 5).1) } }, _, _, rfl, by decide +kernel, by decide +kernel⟩

theorem test_meets_o_pair : MbxMeets (fun t c => .twinPair t c) fun c s => s.pwr.otpJob = none ∧ otpFrozen s.pwr.otp 2 = false ∧ mbByte c 10 ≤ 1 :=
  ⟨⟨64, 0, 7, (zeros 16), true⟩, { up with pwr := { up.pwr with presence := some 100 } }, _, _, rfl, by decide +kernel, by decide +kernel⟩

theorem test_meets_o_pair_bad : MbxMeets (fun t c => .twinPair t c) fun c _ => 1 < mbByte c 10 :=
  ⟨⟨64, 0, 7, (zeros 10 ++ [2] ++ zeros 5), true⟩, { up with pwr := { up.pwr with presence := some 100 } }, _, _, rfl, by decide +kernel, by decide +kernel⟩

theorem test_meets_o_pair_busy : MbxMeets (fun t c => .twinPair t c) fun c s => s.pwr.otpJob.isSome = true ∧ mbByte c 10 ≤ 1 :=
  ⟨⟨64, 0, 7, (zeros 16), true⟩, { up with pwr := { up.pwr with presence := some 100, otpJob := some ⟨0, 0, 64⟩ } }, _, _, rfl, by decide +kernel, by decide +kernel⟩

theorem test_meets_o_read : ∃ (i : Nat), MbxMeets (fun t c => .otpRead t c) fun c s => mbByte c 0 ≤ 5 ∧ mbByte c 0 ≠ 4 ∧ mbByte c 1 = 0xFF ∧ otpNewest s.pwr.otp (mbByte c 0) = some i :=
  ⟨0, ⟨64, 0, 7, [5, 255], false⟩, { up with pwr := { up.pwr with otp := BitVec.ofNat 16384 ((0 + otpTrailer 5 0 <<< otpBits 5) <<< (otpGroup 5).1) } }, _, _, rfl, by decide +kernel, by decide +kernel⟩

theorem test_meets_o_read_slot : MbxMeets (fun t c => .otpRead t c) fun c s => mbByte c 0 ≤ 5 ∧ mbByte c 0 ≠ 4 ∧ mbByte c 1 ≤ 3 ∧ otpValid s.pwr.otp (mbByte c 0) (mbByte c 1) = true :=
  ⟨⟨64, 0, 7, [5, 0], false⟩, { up with pwr := { up.pwr with otp := BitVec.ofNat 16384 ((0 + otpTrailer 5 0 <<< otpBits 5) <<< (otpGroup 5).1) } }, _, _, rfl, by decide +kernel, by decide +kernel⟩

theorem test_meets_o_read_pw : MbxMeets (fun t c => .otpRead t c) fun c s => mbByte c 0 = 4 ∧ mbByte c 1 = 0xFF ∧ (otpNewest s.pwr.otp 4).isSome = true :=
  ⟨⟨64, 0, 7, [4, 255], false⟩, { up with pwr := { up.pwr with otp := BitVec.ofNat 16384 ((9 + otpTrailer 4 9 <<< otpBits 4) <<< (otpGroup 4).1) } }, _, _, rfl, by decide +kernel, by decide +kernel⟩

theorem test_meets_o_read_pw_slot : MbxMeets (fun t c => .otpRead t c) fun c s => mbByte c 0 = 4 ∧ mbByte c 1 ≤ 3 ∧ otpValid s.pwr.otp 4 (mbByte c 1) = true :=
  ⟨⟨64, 0, 7, [4, 0], false⟩, { up with pwr := { up.pwr with otp := BitVec.ofNat 16384 ((9 + otpTrailer 4 9 <<< otpBits 4) <<< (otpGroup 4).1) } }, _, _, rfl, by decide +kernel, by decide +kernel⟩

theorem test_meets_o_read_none : MbxMeets (fun t c => .otpRead t c) fun c s => mbByte c 0 ≤ 5 ∧ mbByte c 1 ≤ 3 ∧ otpValid s.pwr.otp (mbByte c 0) (mbByte c 1) = false :=
  ⟨⟨64, 0, 7, [5, 0], false⟩, up, _, _, rfl, by decide +kernel, by decide +kernel⟩

theorem test_meets_o_read_empty : MbxMeets (fun t c => .otpRead t c) fun c s => mbByte c 0 ≤ 5 ∧ mbByte c 1 = 0xFF ∧ otpNewest s.pwr.otp (mbByte c 0) = none :=
  ⟨⟨64, 0, 7, [5, 255], false⟩, up, _, _, rfl, by decide +kernel, by decide +kernel⟩

theorem test_meets_fl_info : MbxMeets (fun t c => .flashInfo t c) fun _ _ => True :=
  ⟨⟨64, 0, 7, [], false⟩, up, _, _, rfl, by decide +kernel, by decide +kernel⟩

theorem test_meets_fl_fwinfo : MbxMeets (fun t c => .getFwInfo t c) fun _ _ => True :=
  ⟨⟨64, 0, 7, [], false⟩, { up with pwr := { up.pwr with presence := some 100, sels := [(0, (5, false))] } }, _, _, rfl, by decide +kernel, by decide +kernel⟩

theorem test_meets_fl_select : MbxMeets (fun t c => .bootSelect t c true) fun c s => mbByte c 0 ≤ 1 ∧ (s.selector.any fun x => x.2.2 == (mbByte c 0 == 1)) = false ∧ s.pwr.flashJob = none :=
  ⟨⟨64, 0, 7, [1], false⟩, { up with pwr := { up.pwr with presence := some 100, sels := [(0, (5, false))] } }, _, _, rfl, by decide +kernel, by decide +kernel⟩

theorem test_meets_fl_select_no : ∃ (ok : Bool), MbxMeets (fun t c => .bootSelect t c ok) fun c s => mbByte c 0 ≤ 1 ∧ ((s.selector.any fun x => x.2.2 == (mbByte c 0 == 1)) = true ∨ s.pwr.flashJob.isSome = true) :=
  ⟨true, ⟨64, 0, 7, [0], false⟩, { up with pwr := { up.pwr with presence := some 100, sels := [(0, (5, false))] } }, _, _, rfl, by decide +kernel, by decide +kernel⟩

theorem test_meets_fl_select_image : MbxMeets (fun t c => .bootSelect t c false) fun c _ => mbByte c 0 ≤ 1 :=
  ⟨⟨64, 0, 7, [0], false⟩, { up with pwr := { up.pwr with presence := some 100 } }, _, _, rfl, by decide +kernel, by decide +kernel⟩

theorem test_meets_fl_activate : MbxMeets (fun t c => .activateFw t c true) fun c s => mbByte c 0 = 1 ∧ (mbByte c 1 = 1 ∨ mbByte c 1 = 2) ∧ s.pwr.flashJob = none :=
  ⟨⟨64, 0, 7, [1, 2], false⟩, { up with pwr := { up.pwr with presence := some 100, sels := [(0, (5, false))] } }, _, _, rfl, by decide +kernel, by decide +kernel⟩

theorem test_meets_fl_activate_busy : MbxMeets (fun t c => .activateFw t c true) fun c s => mbByte c 0 = 1 ∧ (mbByte c 1 = 1 ∨ mbByte c 1 = 2) ∧ s.pwr.flashJob.isSome = true :=
  ⟨⟨64, 0, 7, [1, 2], false⟩, { up with pwr := { up.pwr with presence := some 100, flashJob := some { (default : FlashJob) with mb := 64 } } }, _, _, rfl, by decide +kernel, by decide +kernel⟩

theorem test_meets_fl_activate_online : ∃ (ok : Bool), MbxMeets (fun t c => .activateFw t c ok) fun c _ => mbByte c 0 = 0 :=
  ⟨true, ⟨64, 0, 7, [0, 2], false⟩, { up with pwr := { up.pwr with presence := some 100 } }, _, _, rfl, by decide +kernel, by decide +kernel⟩

theorem test_meets_fl_activate_image : MbxMeets (fun t c => .activateFw t c false) fun c _ => mbByte c 0 = 1 :=
  ⟨⟨64, 0, 7, [1, 2], false⟩, { up with pwr := { up.pwr with presence := some 100 } }, _, _, rfl, by decide +kernel, by decide +kernel⟩

theorem test_meets_fw_first : MbxMeets (fun t c => .transferFw t c) fun c s => mbByte c 0 ≤ 1 ∧ s.presenceOpen = true ∧ (s.pwr.xfer.any fun x => x.1 != c.mb.val) = false ∧ (mbByte c 1 = 1 ∨ mbByte c 1 = 2) ∧ mbByte c 1 - 1 ≠ b2n s.pwr.bootBlock ∧ s.pwr.flashJob = none :=
  ⟨⟨64, 0, 7, ([1, 2] ++ zeros 126), false⟩, { up with pwr := { up.pwr with presence := some 100 } }, _, _, rfl, by decide +kernel, by decide +kernel⟩

theorem test_meets_fw_presence : MbxMeets (fun t c => .transferFw t c) fun c s => mbByte c 0 ≤ 1 ∧ s.presenceOpen = false :=
  ⟨⟨64, 0, 7, ([1, 2] ++ zeros 126), false⟩, up, _, _, rfl, by decide +kernel, by decide +kernel⟩

theorem test_meets_fw_other : MbxMeets (fun t c => .transferFw t c) fun c s => mbByte c 0 ≤ 4 ∧ (mbByte c 0 ≤ 1 → s.presenceOpen = true) ∧ ((s.pwr.xfer.any fun x => x.1 != c.mb.val) = true ∨ s.pwr.flashJob.isSome = true) :=
  ⟨⟨65, 0, 7, ([2, 2] ++ zeros 126), false⟩, { up with pwr := { up.pwr with xfer := some (64, 1) } }, _, _, rfl, by decide +kernel, by decide +kernel⟩

theorem test_meets_fw_slot : MbxMeets (fun t c => .transferFw t c) fun c s => mbByte c 0 ≤ 4 ∧ (mbByte c 0 ≤ 1 → s.presenceOpen = true) ∧ s.pwr.xfer = none ∧ s.pwr.flashJob = none ∧ (mbByte c 1 = 0 ∨ 2 < mbByte c 1 ∨ mbByte c 1 - 1 = b2n s.pwr.bootBlock) :=
  ⟨⟨64, 0, 7, ([2, 0] ++ zeros 126), false⟩, up, _, _, rfl, by decide +kernel, by decide +kernel⟩

theorem test_meets_fw_none : MbxMeets (fun t c => .transferFw t c) fun c s => 2 ≤ mbByte c 0 ∧ mbByte c 0 ≤ 4 ∧ s.pwr.xfer = none ∧ (mbByte c 1 = 1 ∨ mbByte c 1 = 2) ∧ mbByte c 1 - 1 ≠ b2n s.pwr.bootBlock ∧ s.pwr.flashJob = none :=
  ⟨⟨64, 0, 7, ([2, 2] ++ zeros 126), false⟩, up, _, _, rfl, by decide +kernel, by decide +kernel⟩

theorem test_meets_fw_part : MbxMeets (fun t c => .transferFw t c) fun c s => (mbByte c 0 = 2 ∨ mbByte c 0 = 3) ∧ s.pwr.xfer = some (c.mb.val, mbByte c 1 - 1) ∧ (mbByte c 1 = 1 ∨ mbByte c 1 = 2) ∧ mbByte c 1 - 1 ≠ b2n s.pwr.bootBlock ∧ s.pwr.flashJob = none :=
  ⟨⟨64, 0, 7, ([2, 2] ++ zeros 126), false⟩, { up with pwr := { up.pwr with xfer := some (64, 1) } }, _, _, rfl, by decide +kernel, by decide +kernel⟩

theorem test_meets_fw_abort : MbxMeets (fun t c => .transferFw t c) fun c s => mbByte c 0 = 4 ∧ s.pwr.xfer = some (c.mb.val, mbByte c 1 - 1) ∧ (mbByte c 1 = 1 ∨ mbByte c 1 = 2) ∧ mbByte c 1 - 1 ≠ b2n s.pwr.bootBlock ∧ s.pwr.flashJob = none :=
  ⟨⟨64, 0, 7, ([4, 2] ++ zeros 126), false⟩, { up with pwr := { up.pwr with xfer := some (64, 1) } }, _, _, rfl, by decide +kernel, by decide +kernel⟩

theorem test_meets_re_range : MbxMeets (fun t c => .retireRange t c) fun c s => mbByte c 0 = 0 ∧ mbByte c 1 ≤ 31 ∧ (s.mp (mbByte c 1)).present = true ∧ mbLe c 4 4 + mbLe c 8 4 ≤ (s.mp (mbByte c 1)).dataTracts + (s.mp (mbByte c 1)).deviceTracts :=
  ⟨⟨64, 0, 7, ([0, 2, 0, 0] ++ zeros 4 ++ [1, 0, 0, 0]), false⟩, { up with mports := [(2, { MPort.init with present := true, enable := true, dataTracts := 20, size := 20 })] }, _, _, rfl, by decide +kernel, by decide +kernel⟩

theorem test_meets_re_range_bad : MbxMeets (fun t c => .retireRange t c) fun c s => mbByte c 0 = 0 ∧ mbByte c 1 ≤ 31 ∧ (s.mp (mbByte c 1)).present = true ∧ (s.mp (mbByte c 1)).dataTracts + (s.mp (mbByte c 1)).deviceTracts < mbLe c 4 4 + mbLe c 8 4 :=
  ⟨⟨64, 0, 7, ([0, 2, 0, 0] ++ zeros 4 ++ [255, 255, 255, 255]), false⟩, { up with mports := [(2, { MPort.init with present := true })] }, _, _, rfl, by decide +kernel, by decide +kernel⟩

theorem test_meets_re_range_port : MbxMeets (fun t c => .retireRange t c) fun c s => mbByte c 0 = 0 ∧ (31 < mbByte c 1 ∨ (s.mp (mbByte c 1)).present = false) :=
  ⟨⟨64, 0, 7, ([0, 32, 0, 0] ++ zeros 8), false⟩, up, _, _, rfl, by decide +kernel, by decide +kernel⟩

theorem test_meets_re_clear_stook : MbxMeets (fun t c => .retireClearEntry t c) fun c _ => mbByte c 0 = 1 ∧ 15 < mbByte c 1 :=
  ⟨⟨64, 0, 7, ([1, 16, 0, 0] ++ zeros 8), false⟩, up, _, _, rfl, by decide +kernel, by decide +kernel⟩

theorem test_meets_re_clear : MbxMeets (fun t c => .retireClearEntry t c) fun c s => mbByte c 0 = 1 ∧ mbByte c 1 ≤ 15 ∧ mbByte c 2 < (s.stk (mbByte c 1)).ceLog.length :=
  ⟨⟨64, 0, 7, ([1, 3, 0, 0] ++ zeros 8), false⟩, { up with stooks := [(3, { Stook.init with ceLog := [default] })] }, _, _, rfl, by decide +kernel, by decide +kernel⟩

theorem test_meets_re_clear_none : MbxMeets (fun t c => .retireClearEntry t c) fun c s => mbByte c 0 = 1 ∧ mbByte c 1 ≤ 15 ∧ (s.stk (mbByte c 1)).ceLog.length ≤ mbByte c 2 :=
  ⟨⟨64, 0, 7, ([1, 3, 0, 0] ++ zeros 8), false⟩, up, _, _, rfl, by decide +kernel, by decide +kernel⟩

theorem test_meets_c_abort : ∃ (mb : MbxId), Meets fun s => (s.box mb.val).bgRun = true :=
  ⟨64, 0, { up with mbx := [(64, { MBox.init with bgRun := true })] }, by decide +kernel⟩

theorem test_meets_c_abort_idle : ∃ (mb : MbxId), Meets fun s => (s.box mb.val).bgRun = false :=
  ⟨64, 0, up, by decide +kernel⟩

theorem test_meets_c_to_early : ∃ (mb : MbxId), Meets fun s => (s.box mb.val).doorbell = false ∨ s.time < (s.box mb.val).acceptAt + 10000000 :=
  ⟨64, 0, up, by decide +kernel⟩

theorem test_meets_c_to_slot : ∃ (mb : MbxId) (k : Nat), Meets fun s => (s.box mb.val).doorbell = true ∧ (s.box mb.val).acceptAt + 10000000 ≤ s.time ∧ (s.box mb.val).wait = some (.slot k) ∧ (s.slot k).st = .armed ∧ s.now + leadNs (s.slot k).scope < (s.slot k).time :=
  ⟨64, 3, 20000000, { up with mbx := [(64, { MBox.init with doorbell := true, wait := some (.slot 3) })], mer := { Mer.reset with st := .locked, slots := [(3, ⟨3, 1, true, .armed, 0, 0, 90000000, .mailbox 64, none, none⟩)] } }, by decide +kernel⟩

theorem test_meets_c_to_late : ∃ (mb : MbxId) (k : Nat), Meets fun s => (s.box mb.val).wait = some (.slot k) ∧ ¬((s.slot k).st = .armed ∧ s.now + leadNs (s.slot k).scope < (s.slot k).time) :=
  ⟨64, 3, 20000000, { up with mbx := [(64, { MBox.init with doorbell := true, wait := some (.slot 3) })] }, by decide +kernel⟩

theorem test_meets_c_to_flash : ∃ (mb : MbxId) (k : Nat), Meets fun s => (s.box mb.val).doorbell = true ∧ (s.box mb.val).acceptAt + 10000000 ≤ s.time ∧ (s.box mb.val).wait = some (.flash k) :=
  ⟨64, 0, 20000000, { up with mbx := [(64, { MBox.init with doorbell := true, wait := some (.flash 0) })], mer := { Mer.reset with st := .locked } }, by decide +kernel⟩

theorem test_meets_c_to_own : ∃ (mb : MbxId), Meets fun s => (s.box mb.val).wait = none ∨ (s.box mb.val).wait = some .otp ∨ (s.box mb.val).wait = some .line ∨ ∃ k, (s.box mb.val).wait = some (.lines k) :=
  ⟨64, 20000000, { up with mbx := [(64, { MBox.init with doorbell := true, wait := some .otp })] }, Or.inr (Or.inl (by decide +kernel))⟩

theorem test_meets_bgd_none : ∃ (mb : MbxId) (v : Fin 9), Meets fun s => (s.box mb.val).bg = none ∨ (s.box mb.val).bgRun = false :=
  ⟨64, 0, 0, up, by decide +kernel⟩

theorem test_meets_bgd_create : ∃ (mb : MbxId) (p : Nat) (v : Fin 9), Meets fun s => (s.box mb.val).bg = some (.partCreate p) ∧ (s.box mb.val).bgRun = true :=
  ⟨64, 3, 0, 0, { up with mbx := [(64, { MBox.init with bgRun := true, bg := some (.partCreate 3) })] }, by decide +kernel⟩

theorem test_meets_bgd_resize : ∃ (mb : MbxId) (p n : Nat) (v : Fin 9), Meets fun s => (s.box mb.val).bg = some (.partResize p n) ∧ (s.box mb.val).bgRun = true :=
  ⟨64, 3, 9, 0, 0, { up with mbx := [(64, { MBox.init with bgRun := true, bg := some (.partResize 3 9) })] }, by decide +kernel⟩

theorem test_meets_bgd_destroy : ∃ (mb : MbxId) (p : Nat) (e : Bool) (v : Fin 9), Meets fun s => (s.box mb.val).bg = some (.partDestroy p e) ∧ (s.box mb.val).bgRun = true :=
  ⟨64, 3, true, 0, 0, { up with mbx := [(64, { MBox.init with bgRun := true, bg := some (.partDestroy 3 true) })] }, by decide +kernel⟩

theorem test_meets_bgd_sanitize : ∃ (mb : MbxId) (p : Nat) (v : Fin 9), Meets fun s => (s.box mb.val).bg = some (.sanitize p) ∧ (s.box mb.val).bgRun = true :=
  ⟨64, 3, 0, 0, { up with mbx := [(64, { MBox.init with bgRun := true, bg := some (.sanitize 3) })] }, by decide +kernel⟩

theorem test_meets_bgd_release : ∃ (mb : MbxId) (p j : Nat) (v : Fin 9), Meets fun s => (s.box mb.val).bg = some (.plateRelease p j) ∧ (s.box mb.val).bgRun = true ∧ s.plateRead p j = false :=
  ⟨64, 3, 1, 0, 0, { up with mbx := [(64, { MBox.init with bgRun := true, bg := some (.plateRelease 3 1) })] }, by decide +kernel⟩

theorem test_meets_bgd_release_read : ∃ (mb : MbxId) (p j : Nat) (v : Fin 9), Meets fun s => (s.box mb.val).bg = some (.plateRelease p j) ∧ (s.box mb.val).bgRun = true ∧ s.plateRead p j = true :=
  ⟨64, 0, 1, 0, 0, { up with mbx := [(64, { MBox.init with bgRun := true, bg := some (.plateRelease 0 1) })], intakes := [(0, { Intake.init with kept := [⟨{ req .wrI with plate := some 1 }, .host, 5, 0, .sent, none, none, false, 0, none⟩] })] }, by decide +kernel⟩

theorem test_meets_bgd_cap : ∃ (mb : MbxId) (m : Nat), Meets fun s => (s.box mb.val).bg = some (.capRemove m) ∧ (s.box mb.val).bgRun = true ∧ (s.box mb.val).bgAbort = true :=
  ⟨64, 3, 0, { up with mbx := [(64, { MBox.init with bgRun := true, bg := some (.capRemove 3), bgAbort := true })] }, by decide +kernel⟩

theorem test_meets_bgd_refresh : ∃ (mb : MbxId), Meets fun s => (s.box mb.val).bg = some (.dirRefresh) ∧ (s.box mb.val).bgRun = true ∧ s.place.refresh = false :=
  ⟨64, 0, { up with mbx := [(64, { MBox.init with bgRun := true, bg := some (.dirRefresh) })] }, by decide +kernel⟩

theorem test_meets_bgd_shutdown : ∃ (mb : MbxId) (v : Fin 9), Meets fun s => (s.box mb.val).bg = some (.shutdown) ∧ (s.box mb.val).bgRun = true ∧ s.pwr.readyOff = true :=
  ⟨64, 0, 0, { up with mbx := [(64, { MBox.init with bgRun := true, bg := some (.shutdown) })], pwr := { up.pwr with readyOff := true } }, by decide +kernel⟩

theorem test_meets_bgd_drill : ∃ (mb : MbxId) (v : Fin 9), Meets fun s => (s.box mb.val).bg = some (.twinDrill) ∧ (s.box mb.val).bgRun = true :=
  ⟨64, 0, 0, { up with mbx := [(64, { MBox.init with bgRun := true, bg := some (.twinDrill) })] }, by decide +kernel⟩

theorem test_meets_bgd_rethaw : ∃ (mb : MbxId) (tr : Nat) (v : Fin 9), Meets fun s => (s.box mb.val).bg = some (.rethaw tr) ∧ (s.box mb.val).bgRun = true :=
  ⟨64, 3, 0, 0, { up with mbx := [(64, { MBox.init with bgRun := true, bg := some (.rethaw 3) })] }, by decide +kernel⟩

theorem test_meets_bgd_rebuild : ∃ (mb : MbxId) (tr : Nat) (v : Fin 9), Meets fun s => (s.box mb.val).bg = some (.rebuild tr) ∧ (s.box mb.val).bgRun = true :=
  ⟨64, 3, 0, 0, { up with mbx := [(64, { MBox.init with bgRun := true, bg := some (.rebuild 3) })] }, by decide +kernel⟩

theorem test_meets_bgd_fw : ∃ (mb : MbxId) (b : Nat) (v : Fin 9), Meets fun s => (s.box mb.val).bg = some (.transferFw b) ∧ (s.box mb.val).bgRun = true ∧ (s.pwr.flashJob.any fun j => j.mb == mb.val && j.cur.isNone && !j.bad) = true :=
  ⟨64, 1, 0, 0, { up with mbx := [(64, { MBox.init with bgRun := true, bg := some (.transferFw 1) })], pwr := { up.pwr with flashJob := some { (default : FlashJob) with mb := 64 } } }, by decide +kernel⟩

theorem test_meets_gate_down : ∃ (i : Instr) (t : Ns) (c : Mbx) (op : Nat) (k : CmdKind) (s : State), i.mailbox = some (t, c, op, k) ∧ (s.tick t).alidadeUp = false :=
  ⟨.identify 0 ⟨64, 0, 0, [], false⟩, _, _, _, _, State.reset, rfl, by decide +kernel⟩

theorem test_meets_gate_alien : ∃ (i : Instr) (t : Ns) (c : Mbx) (op : Nat) (k : CmdKind) (s : State), i.mailbox = some (t, c, op, k) ∧ (s.tick t).alidadeUp = true ∧ c.mb.val < 64 ∧ (s.tick t).member c.host.val c.mb.val = false :=
  ⟨.identify 0 ⟨3, 0, 0, [], false⟩, _, _, _, _, up, rfl, by decide +kernel⟩

theorem test_meets_gate_busy : ∃ (i : Instr) (t : Ns) (c : Mbx) (op : Nat) (k : CmdKind) (s : State), i.mailbox = some (t, c, op, k) ∧ (s.tick t).alidadeUp = true ∧ (64 ≤ c.mb.val ∨ (s.tick t).member c.host.val c.mb.val = true) ∧ c.mb.val ≠ 64 ∧ ((s.tick t).box c.mb.val).doorbell = true :=
  ⟨.identify 0 ⟨65, 0, 0, [], false⟩, _, _, _, _, { up with mbx := [(65, { MBox.init with doorbell := true })] }, rfl, by decide +kernel⟩

theorem test_meets_gate_mgmt : ∃ (i : Instr) (t : Ns) (c : Mbx) (op : Nat) (k : CmdKind) (s : State), i.mailbox = some (t, c, op, k) ∧ (s.tick t).alidadeUp = true ∧ c.mb.val = 64 ∧ ((s.tick t).box c.mb.val).doorbell = true :=
  ⟨.identify 0 ⟨64, 0, 0, [], false⟩, _, _, _, _, { up with mbx := [(64, { MBox.init with doorbell := true })] }, rfl, by decide +kernel⟩

theorem test_meets_gate_refused : ∃ (i : Instr) (t : Ns) (c : Mbx) (op : Nat) (k : CmdKind) (s : State) (st d : Nat), i.mailbox = some (t, c, op, k) ∧
      (s.tick t).alidadeUp = true ∧ (64 ≤ c.mb.val ∨ (s.tick t).member c.host.val c.mb.val = true) ∧ ((s.tick t).box c.mb.val).doorbell = false ∧ ((s.tick t).accept c op k.otp).commonCheck c k = some (st, d) :=
  ⟨.identify 0 ⟨64, 0, 0, [1], false⟩, _, _, _, _, up, 4, 0, rfl, by decide +kernel⟩

end Sys2Proof.Machine
end

section
/-! SUPPORT. What a command leaves of the spine of the state, said once for every command; from it, that the fail-safe state ends
at a power-up alone (R33, R571). -/

namespace Sys2Proof.Machine

/-! ### What one command does to the spine -/

/-- The first lock may set the time back and changes nothing else of the spine (R280, R286). -/
theorem Spine.by_lock {i : Instr} {a b : Spine} {n : Nat} (hi : i.isLock = true) (h : b = { a with now := n }) : Spine.By i a b := by
  subst h; exact ⟨rfl, by simp [hi], fun _ => rfl, id, fun _ => rfl, fun _ => id⟩

/-- A command that may write the OTP changes its contents and the time (R612, R616). -/
theorem Spine.by_otp {i : Instr} {a b : Spine} {n : Nat} {o : BitVec 16384} (hn : a.now ≤ n) (hi : i.mayWriteOtp = true)
    (h : b = { a with now := n, otp := o }) : Spine.By i a b := by
  subst h; exact ⟨rfl, fun _ => hn, by simp [hi], id, fun _ => rfl, fun _ => id⟩

/-- A power-up empties scratch and ends the fail-safe state (R272, R571). -/
theorem Spine.by_power {i : Instr} {a b : Spine} {n : Nat} (hn : a.now ≤ n) (hw : i.mayWriteScratch = true) (hp : i.isPowerUp = true)
    (h : b = { a with now := n, scratch := [], failsafe := false }) : Spine.By i a b := by
  subst h; exact ⟨rfl, fun _ => hn, fun _ => rfl, fun _ => rfl, by simp [hw], by simp [hp]⟩

section
/-! A meaning's own lemma, with whatever time `t` the command carries, says what `Spine.By` asks of it. -/

variable {i : Instr} {s : State} {t : Ns} {r : Host.Outcome State Fault Refusal}

theorem spine_by_time (h : ∃ u, r = .next u ∧ u.spine = { s.spine with now := (s.tick t).now }) : ∃ u, r = .next u ∧ Spine.By i s.spine u.spine :=
  h.imp fun _ => And.imp_right (Spine.by_plain (s.tick_now t))

theorem spine_by_mem (hi : i.mayWriteScratch = true) (h : ∃ u, r = .next u ∧ Spine.Mem { s.spine with now := (s.tick t).now } u.spine) :
    ∃ u, r = .next u ∧ Spine.By i s.spine u.spine :=
  h.imp fun _ => And.imp_right (Spine.by_mem (s.tick_now t) hi)

theorem spine_by_safe (h : ∃ u, r = .next u ∧ Spine.Safe { s.spine with now := (s.tick t).now } u.spine) :
    ∃ u, r = .next u ∧ Spine.By i s.spine u.spine :=
  h.imp fun _ => And.imp_right (Spine.by_safe (s.tick_now t))

theorem spine_by_otp (hi : i.mayWriteOtp = true) (h : ∃ u o, r = .next u ∧ u.spine = { s.spine with now := (s.tick t).now, otp := o }) :
    ∃ u, r = .next u ∧ Spine.By i s.spine u.spine := by
  obtain ⟨u, o, hr, hu⟩ := h
  exact ⟨u, hr, Spine.by_otp (s.tick_now t) hi hu⟩

theorem spine_by_lock {P : Nat → Prop} (hi : i.isLock = true) (h : ∃ u n, r = .next u ∧ P n ∧ u.spine = { s.spine with now := n }) :
    ∃ u, r = .next u ∧ Spine.By i s.spine u.spine := by
  obtain ⟨u, n, hr, -, hu⟩ := h
  exact ⟨u, hr, Spine.by_lock hi hu⟩

theorem spine_by_power (hw : i.mayWriteScratch = true) (hp : i.isPowerUp = true)
    (h : ∃ u, r = .next u ∧ (u.spine = { s.spine with now := (s.tick t).now } ∨
      u.spine = { s.spine with now := (s.tick t).now, scratch := [], failsafe := false })) :
    ∃ u, r = .next u ∧ Spine.By i s.spine u.spine :=
  h.imp fun _ => And.imp_right fun h => h.elim (Spine.by_plain (s.tick_now t)) (Spine.by_power (s.tick_now t) hw hp)
end

/-- Every command, in every state, answers a next state, and does to the spine what its class allows: each arm of `exec` by the lemma of
its own meaning. -/
theorem exec_spine (i : Instr) (s : State) : ∃ u, exec i s = .next u ∧ Spine.By i s.spine u.spine := by
  cases i with
  | memRd t m => exact spine_by_time (execMemRd_spine t m s)
  | memRdData t m => exact spine_by_time (execMemRdData_spine t m s)
  | memInv t m => exact spine_by_time (execMemInv_spine t m s)
  | memInvNt t m => exact spine_by_time (execMemInvNt_spine t m s)
  | memClnEvct t m => exact spine_by_time (execMemClnEvct_spine t m s)
  | memSpecRd t m => exact spine_by_time (execMemSpecRd_spine t m s)
  | biConflict t m => exact spine_by_time (execBiConflict_spine t m s)
  | memWr t m data => exact spine_by_time (execMemWr_spine t m data s)
  | memWrPtl t m data be => exact spine_by_time (execMemWrPtl_spine t m data be s)
  | biRsp t port host line bitag ans => exact spine_by_time (execBiRsp_spine t port host line bitag ans s)
  | holdTimeout t part => exact spine_by_time (execHoldTimeout_spine t part s)
  | intakeArbitration t n => exact spine_by_time (execIntakeArbitration_spine t n s)
  | filterLookupDone t n e => exact spine_by_time (execFilterLookupDone_spine t n e s)
  | granaryLookupDone t n e => exact spine_by_time (execGranaryLookupDone_spine t n e s)
  | bisnpIssue t n => exact spine_by_time (execBisnpIssue_spine t n s)
  | snoopTimeout t port bitag => exact spine_by_time (execSnoopTimeout_spine t port bitag s)
  | mediaReadReturn t m id cw => exact spine_by_time (execMediaReadReturn_spine t m id cw s)
  | mediaRmw t m id cw => exact spine_by_time (execMediaRmw_spine t m id cw s)
  | mediaWriteAccepted t m id => exact spine_by_time (execMediaWriteAccepted_spine t m id s)
  | mediaWriteComplete t m id => exact spine_by_time (execMediaWriteComplete_spine t m id s)
  | mediaReadTimeout t m id => exact spine_by_time (execMediaReadTimeout_spine t m id s)
  | mediaWriteTimeout t m id => exact spine_by_time (execMediaWriteTimeout_spine t m id s)
  | mediaPortFault t m kind => exact spine_by_time (execMediaPortFault_spine t m kind s)
  | tractWalk t n e rd => exact spine_by_time (execTractWalk_spine t n e rd s)
  | walkResponse t n e => exact spine_by_time (execWalkResponse_spine t n e s)
  | tractFreeze t tract => exact spine_by_time (execTractFreeze_spine t tract s)
  | thawAttempt t tract got lineOk => exact spine_by_time (execThawAttempt_spine t tract got lineOk s)
  | frozenWriteHoldExpiry t tract => exact spine_by_time (execFrozenWriteHoldExpiry_spine t tract s)
  | noteAck t port n seq tag => exact spine_by_time (execNoteAck_spine t port n seq tag s)
  | writeSettle t n seq => exact spine_by_time (execWriteSettle_spine t n seq s)
  | twinAck t n seq => exact spine_by_time (execTwinAck_spine t n seq s)
  | intakeResponseRelease t port tag => exact spine_by_time (execIntakeResponseRelease_spine t port tag s)
  | holdOverrun t n e => exact spine_by_time (execHoldOverrun_spine t n e s)
  | trackerAge t n e => exact spine_by_time (execTrackerAge_spine t n e s)
  | handshakeWatchdog t u => exact spine_by_time (execHandshakeWatchdog_spine t u s)
  | sliceFallowEntry t n => exact spine_by_time (execSliceFallowEntry_spine t n s)
  | stookFallowEntry t k => exact spine_by_time (execStookFallowEntry_spine t k s)
  | routerFallowEntry t x => exact spine_by_time (execRouterFallowEntry_spine t x s)
  | unitWake t u => exact spine_by_time (execUnitWake_spine t u s)
  | dgAdvancePersisted t n => exact spine_by_time (execDgAdvancePersisted_spine t n s)
  | recallReturn t n lines => exact spine_by_time (execRecallReturn_spine t n lines s)
  | recallGapTimeout t n => exact spine_by_time (execRecallGapTimeout_spine t n s)
  | replayList t port n => exact spine_by_time (execReplayList_spine t port n s)
  | endOfReplay t n => exact spine_by_time (execEndOfReplay_spine t n s)
  | slicePrepare t n => exact spine_by_time (execSlicePrepare_spine t n s)
  | handoverOverrun t n => exact spine_by_time (execHandoverOverrun_spine t n s)
  | energyOkFall t => exact spine_by_time (execEnergyOkFall_spine t s)
  | energyOkRise t => exact spine_by_time (execEnergyOkRise_spine t s)
  | grnCtlWrite t n v => exact spine_by_mem rfl (execGrnCtlWrite_spine t n v s)
  | scratchRead t who way off read => exact spine_by_time (execScratchRead_spine t who way off read s)
  | scratchWrite t who way off size data => exact spine_by_mem rfl (execScratchWrite_spine t who way off size data s)
  | timeRefLoss t => exact spine_by_time (execTimeRefLoss_spine t s)
  | alignWord t count check sub => exact spine_by_time (execAlignWord_spine t count check sub s)
  | alignWordMissing t => exact spine_by_time (execAlignWordMissing_spine t s)
  | meridianLock t => exact spine_by_lock rfl (execMeridianLock_spine t s)
  | holdoverExpiry t => exact spine_by_time (execHoldoverExpiry_spine t s)
  | twinTimeExchange t x => exact spine_by_time (execTwinTimeExchange_spine t x s)
  | twinExchangeInvalid t => exact spine_by_time (execTwinExchangeInvalid_spine t s)
  | domainNotice t x => exact spine_by_time (execDomainNotice_spine t x s)
  | domainNoticeTimeout t => exact spine_by_time (execDomainNoticeTimeout_spine t s)
  | instantArm t k => exact spine_by_time (execInstantArm_spine t k s)
  | instantDisarm t k => exact spine_by_time (execInstantDisarm_spine t k s)
  | twinSlotReceive t k kind scope param time => exact spine_by_time (execTwinSlotReceive_spine t k kind scope param time s)
  | twinSlotAck t k ans => exact spine_by_time (execTwinSlotAck_spine t k ans s)
  | slotConfirmDeadline t k => exact spine_by_time (execSlotConfirmDeadline_spine t k s)
  | domainSlotConfirm t key => exact spine_by_time (execDomainSlotConfirm_spine t key s)
  | slotCancelReceive t v => exact spine_by_time (execSlotCancelReceive_spine t v s)
  | epochBoundary t => exact spine_by_time (execEpochBoundary_spine t s)
  | epochLenInstant t k => exact spine_by_time (execEpochLenInstant_spine t k s)
  | plateExposeInstant t k => exact spine_by_time (execPlateExposeInstant_spine t k s)
  | snapshotInstant t k => exact spine_by_time (execSnapshotInstant_spine t k s)
  | rachisModeInstant t k => exact spine_by_time (execRachisModeInstant_spine t k s)
  | tractCommitInstant t k => exact spine_by_time (execTractCommitInstant_spine t k s)
  | enableInstant t k => exact spine_by_time (execEnableInstant_spine t k s)
  | roleMoveInstant t k => exact spine_by_time (execRoleMoveInstant_spine t k s)
  | capacityInstant t k => exact spine_by_time (execCapacityInstant_spine t k s)
  | pairInstant t k => exact spine_by_time (execPairInstant_spine t k s)
  | sealConfirm t src => exact spine_by_time (execSealConfirm_spine t src s)
  | pairSealExchange t twinSealed => exact spine_by_time (execPairSealExchange_spine t twinSealed s)
  | sealedEpochPersist t => exact spine_by_time (execSealedEpochPersist_spine t s)
  | barrierHost t host part word aligned => exact spine_by_time (execBarrierHost_spine t host part word aligned s)
  | barrierPartition t host part word aligned => exact spine_by_time (execBarrierPartition_spine t host part word aligned s)
  | barrierTwin t host part word aligned => exact spine_by_time (execBarrierTwin_spine t host part word aligned s)
  | barrierDomain t host part word aligned => exact spine_by_time (execBarrierDomain_spine t host part word aligned s)
  | barrierComplete t port id => exact spine_by_time (execBarrierComplete_spine t port id s)
  | twinHandshake t x => exact spine_by_time (execTwinHandshake_spine t x s)
  | seekingTimeout t => exact spine_by_time (execSeekingTimeout_spine t s)
  | twinEchoReceive t port x => exact spine_by_time (execTwinEchoReceive_spine t port x s)
  | settleRecordApply t x => exact spine_by_time (execSettleRecordApply_spine t x s)
  | twinReleaseReceive t port echo => exact spine_by_time (execTwinReleaseReceive_spine t port echo s)
  | cleanNotice t line seq => exact spine_by_time (execCleanNotice_spine t line seq s)
  | cleanRequest t line => exact spine_by_time (execCleanRequest_spine t line s)
  | twinRecall t n => exact spine_by_time (execTwinRecall_spine t n s)
  | heartbeatLoss t => exact spine_by_time (execHeartbeatLoss_spine t s)
  | twinLinkDown t => exact spine_by_time (execTwinLinkDown_spine t s)
  | twinLinkUp t => exact spine_by_time (execTwinLinkUp_spine t s)
  | peerLinksDown t => exact spine_by_time (execPeerLinksDown_spine t s)
  | lossReportTimeout t => exact spine_by_time (execLossReportTimeout_spine t s)
  | abdicationReceive t drill => exact spine_by_time (execAbdicationReceive_spine t drill s)
  | claimComplete t redelivered => exact spine_by_time (execClaimComplete_spine t redelivered s)
  | claimLost t => exact spine_by_time (execClaimLost_spine t s)
  | forwardedRecord t port m op data be => exact spine_by_time (execForwardedRecord_spine t port m op data be s)
  | forwardHoldTimeout t port tag => exact spine_by_time (execForwardHoldTimeout_spine t port tag s)
  | resyncWalkLine t n line => exact spine_by_time (execResyncWalkLine_spine t n line s)
  | resyncRecord t x => exact spine_by_time (execResyncRecord_spine t x s)
  | drainedMarker t part => exact spine_by_time (execDrainedMarker_spine t part s)
  | routeClosedMarker t part => exact spine_by_time (execRouteClosedMarker_spine t part s)
  | recordFetch t n e r => exact spine_by_time (execRecordFetch_spine t n e r s)
  | roleMoveTimeout t k => exact spine_by_time (execRoleMoveTimeout_spine t k s)
  | powerFailNotice t => exact spine_by_time (execPowerFailNotice_spine t s)
  | powerFailNoticeTimeout t => exact spine_by_time (execPowerFailNoticeTimeout_spine t s)
  | mapRecord t tract entry => exact spine_by_time (execMapRecord_spine t tract entry s)
  | heatNote t k note => exact spine_by_time (execHeatNote_spine t k note s)
  | heatWindowEnd t => exact spine_by_time (execHeatWindowEnd_spine t s)
  | coldScan t => exact spine_by_time (execColdScan_spine t s)
  | heliostatRound t => exact spine_by_time (execHeliostatRound_spine t s)
  | moveStartAck t tract => exact spine_by_time (execMoveStartAck_spine t tract s)
  | moveCopied t tract => exact spine_by_time (execMoveCopied_spine t tract s)
  | commitMark t n j => exact spine_by_time (execCommitMark_spine t n j s)
  | moveDone t tract => exact spine_by_time (execMoveDone_spine t tract s)
  | patrolScrubLine t n line => exact spine_by_time (execPatrolScrubLine_spine t n line s)
  | patrolPassComplete t => exact spine_by_time (execPatrolPassComplete_spine t s)
  | arrayScrubWord t w fault => exact spine_by_time (execArrayScrubWord_spine t w fault s)
  | laneEntryExpiry t k port sym bit => exact spine_by_time (execLaneEntryExpiry_spine t k port sym bit s)
  | laneSteerDone t m => exact spine_by_time (execLaneSteerDone_spine t m s)
  | winnowEvent t src raised => exact spine_by_safe (execWinnowEvent_spine t src raised s)
  | eventResend t src => exact spine_by_time (execEventResend_spine t src s)
  | eventLine t u => exact spine_by_time (execEventLine_spine t u s)
  | shadowEnd t recno => exact spine_by_time (execShadowEnd_spine t recno s)
  | aliveToggle t => exact spine_by_time (execAliveToggle_spine t s)
  | voteSweep t f c0 c1 c2 => exact spine_by_time (execVoteSweep_spine t f c0 c1 c2 s)
  | firstClear t => exact spine_by_time (execFirstClear_spine t s)
  | winnowInject t v => exact spine_by_time (execWinnowInject_spine t v s)
  | alidadeWatchdog t => exact spine_by_time (execAlidadeWatchdog_spine t s)
  | railsGood t factoryMode => exact spine_by_power rfl rfl (execRailsGood_spine t factoryMode s)
  | otpLoad t r0 r1 r2 => exact spine_by_otp rfl (execOtpLoad_spine t r0 r1 r2 s)
  | arrayBist t failing => exact spine_by_time (execArrayBist_spine t failing s)
  | alidadeBoot t x => exact spine_by_time (execAlidadeBoot_spine t x s)
  | startupDirectoryDecision t x => exact spine_by_time (execStartupDirectoryDecision_spine t x s)
  | startupGenerationAct t x => exact spine_by_time (execStartupGenerationAct_spine t x s)
  | startupRefresh t => exact spine_by_time (execStartupRefresh_spine t s)
  | meridianLockTimeout t => exact spine_by_time (execMeridianLockTimeout_spine t s)
  | railFault t rail => exact spine_by_time (execRailFault_spine t rail s)
  | railGlitch t rail => exact spine_by_time (execRailGlitch_spine t rail s)
  | marginWrite t v => exact spine_by_time (execMarginWrite_spine t v s)
  | marginStep t => exact spine_by_time (execMarginStep_spine t s)
  | serviceButtonRelease t held => exact spine_by_time (execServiceButtonRelease_spine t held s)
  | presenceExpiry t => exact spine_by_time (execPresenceExpiry_spine t s)
  | forcedOff t => exact spine_by_time (execForcedOff_spine t s)
  | powerFailWarn t => exact spine_by_time (execPowerFailWarn_spine t s)
  | powerFailDrainDone t => exact spine_by_time (execPowerFailDrainDone_spine t s)
  | lastGaspDone t => exact spine_by_time (execLastGaspDone_spine t s)
  | flashDescriptorDone t j status => exact spine_by_time (execFlashDescriptorDone_spine t j status s)
  | streamGapTimeout t x => exact spine_by_time (execStreamGapTimeout_spine t x s)
  | resend t x => exact spine_by_time (execResend_spine t x s)
  | sinkErr t x => exact spine_by_time (execSinkErr_spine t x s)
  | mediaRelay t m dest => exact spine_by_time (execMediaRelay_spine t m dest s)
  | packBufferTimeout t x => exact spine_by_time (execPackBufferTimeout_spine t x s)
  | creditReturn t x => exact spine_by_time (execCreditReturn_spine t x s)
  | ringWriteDelivered t => exact spine_by_mem rfl (execRingWriteDelivered_spine t s)
  | aliasWrite t off v len => exact spine_by_mem rfl (execAliasWrite_spine t off v len s)
  | meridianWord0Read t off => exact spine_by_time (execMeridianWord0Read_spine t off s)
  | registerWrite t off v len => exact spine_by_mem rfl (execRegisterWrite_spine t off v len s)
  | bgAbort t mb => exact spine_by_time (execBgAbort_spine t mb s)
  | commandTimeout t mb => exact spine_by_time (execCommandTimeout_spine t mb s)
  | backgroundComplete t mb status => exact spine_by_time (execBackgroundComplete_spine t mb status s)
  | identify t c => exact spine_by_time (execIdentify_spine t c s)
  | backgroundOperationStatus t c => exact spine_by_time (execBackgroundOperationStatus_spine t c s)
  | requestAbortBackgroundOp t c => exact spine_by_time (execRequestAbortBackgroundOp_spine t c s)
  | getEventRecords t c => exact spine_by_time (execGetEventRecords_spine t c s)
  | clearEventRecords t c => exact spine_by_time (execClearEventRecords_spine t c s)
  | getEventInterruptPolicy t c => exact spine_by_time (execGetEventInterruptPolicy_spine t c s)
  | setEventInterruptPolicy t c => exact spine_by_time (execSetEventInterruptPolicy_spine t c s)
  | getFwInfo t c => exact spine_by_time (execGetFwInfo_spine t c s)
  | transferFw t c => exact spine_by_time (execTransferFw_spine t c s)
  | activateFw t c digestOk => exact spine_by_time (execActivateFw_spine t c digestOk s)
  | getTimestamp t c => exact spine_by_time (execGetTimestamp_spine t c s)
  | setTimestamp t c => exact spine_by_time (execSetTimestamp_spine t c s)
  | getSupportedLogs t c => exact spine_by_time (execGetSupportedLogs_spine t c s)
  | getLog t c => exact spine_by_time (execGetLog_spine t c s)
  | identifyMemoryDevice t c => exact spine_by_time (execIdentifyMemoryDevice_spine t c s)
  | getPartitionInfo t c => exact spine_by_time (execGetPartitionInfo_spine t c s)
  | getHealthInfo t c => exact spine_by_time (execGetHealthInfo_spine t c s)
  | getAlertConfiguration t c => exact spine_by_time (execGetAlertConfiguration_spine t c s)
  | setAlertConfiguration t c => exact spine_by_time (execSetAlertConfiguration_spine t c s)
  | getShutdownState t c => exact spine_by_time (execGetShutdownState_spine t c s)
  | setShutdownState t c => exact spine_by_time (execSetShutdownState_spine t c s)
  | getLsa t c => exact spine_by_time (execGetLsa_spine t c s)
  | setLsa t c => exact spine_by_time (execSetLsa_spine t c s)
  | getPoisonList t c => exact spine_by_time (execGetPoisonList_spine t c s)
  | clearPoison t c => exact spine_by_time (execClearPoison_spine t c s)
  | sanitize t c => exact spine_by_time (execSanitize_spine t c s)
  | secureErase t c => exact spine_by_time (execSecureErase_spine t c s)
  | unsupportedCommand t c opcode => exact spine_by_time (execUnsupportedCommand_spine t c opcode s)
  | partCreate t c => exact spine_by_time (execPartCreate_spine t c s)
  | partResize t c => exact spine_by_time (execPartResize_spine t c s)
  | partDestroy t c => exact spine_by_time (execPartDestroy_spine t c s)
  | partQuery t c => exact spine_by_time (execPartQuery_spine t c s)
  | partEnableSet t c => exact spine_by_time (execPartEnableSet_spine t c s)
  | partEnableClear t c => exact spine_by_time (execPartEnableClear_spine t c s)
  | partRestart t c => exact spine_by_time (execPartRestart_spine t c s)
  | partQuiet t c => exact spine_by_time (execPartQuiet_spine t c s)
  | partScratchAssign t c => exact spine_by_time (execPartScratchAssign_spine t c s)
  | partScratchRelease t c => exact spine_by_time (execPartScratchRelease_spine t c s)
  | hostPortSet t c => exact spine_by_time (execHostPortSet_spine t c s)
  | hostPortRestore t c => exact spine_by_time (execHostPortRestore_spine t c s)
  | ticketArea t c => exact spine_by_time (execTicketArea_spine t c s)
  | partSet t c => exact spine_by_time (execPartSet_spine t c s)
  | placeGoal t c => exact spine_by_time (execPlaceGoal_spine t c s)
  | placeQuery t c => exact spine_by_time (execPlaceQuery_spine t c s)
  | tractRethaw t c => exact spine_by_time (execTractRethaw_spine t c s)
  | tractRebuild t c => exact spine_by_time (execTractRebuild_spine t c s)
  | plateExpose t c => exact spine_by_time (execPlateExpose_spine t c s)
  | plateBind t c => exact spine_by_time (execPlateBind_spine t c s)
  | plateUnbind t c => exact spine_by_time (execPlateUnbind_spine t c s)
  | plateRelease t c => exact spine_by_time (execPlateRelease_spine t c s)
  | plateGroupName t c => exact spine_by_time (execPlateGroupName_spine t c s)
  | plateGroupDissolve t c => exact spine_by_time (execPlateGroupDissolve_spine t c s)
  | plateQuery t c => exact spine_by_time (execPlateQuery_spine t c s)
  | epochLen t c => exact spine_by_time (execEpochLen_spine t c s)
  | barrier t c => exact spine_by_time (execBarrier_spine t c s)
  | barrierList t c => exact spine_by_time (execBarrierList_spine t c s)
  | twinPair t c => exact spine_by_time (execTwinPair_spine t c s)
  | twinStatus t c => exact spine_by_time (execTwinStatus_spine t c s)
  | twinDrill t c => exact spine_by_time (execTwinDrill_spine t c s)
  | roleMove t c => exact spine_by_time (execRoleMove_spine t c s)
  | blockRestart t c => exact spine_by_time (execBlockRestart_spine t c s)
  | capAdd t c size pairSize => exact spine_by_time (execCapAdd_spine t c size pairSize s)
  | capRemove t c => exact spine_by_time (execCapRemove_spine t c s)
  | capQuery t c => exact spine_by_time (execCapQuery_spine t c s)
  | almRead t c => exact spine_by_time (execAlmRead_spine t c s)
  | firstFaultRead t c => exact spine_by_time (execFirstFaultRead_spine t c s)
  | firstFaultClear t c => exact spine_by_time (execFirstFaultClear_spine t c s)
  | ceLog t c => exact spine_by_time (execCeLog_spine t c s)
  | lastgasp t c => exact spine_by_time (execLastgasp_spine t c s)
  | snapshot t c => exact spine_by_time (execSnapshot_spine t c s)
  | counterRead t c => exact spine_by_time (execCounterRead_spine t c s)
  | otpRepair t c => exact spine_by_time (execOtpRepair_spine t c s)
  | otpDefaults t c => exact spine_by_time (execOtpDefaults_spine t c s)
  | otpFlashPw t c => exact spine_by_time (execOtpFlashPw_spine t c s)
  | otpFactoryLock t c => exact spine_by_time (execOtpFactoryLock_spine t c s)
  | otpRead t c => exact spine_by_time (execOtpRead_spine t c s)
  | retireRange t c => exact spine_by_time (execRetireRange_spine t c s)
  | retireClearEntry t c => exact spine_by_time (execRetireClearEntry_spine t c s)
  | dirRefresh t c => exact spine_by_time (execDirRefresh_spine t c s)
  | shutdown t c => exact spine_by_time (execShutdown_spine t c s)
  | instantCancel t c => exact spine_by_time (execInstantCancel_spine t c s)
  | instantList t c => exact spine_by_time (execInstantList_spine t c s)
  | flashInfo t c => exact spine_by_time (execFlashInfo_spine t c s)
  | bootSelect t c digestOk => exact spine_by_time (execBootSelect_spine t c digestOk s)
  | domainSlotReceive t k kind param time => exact spine_by_time (execDomainSlotReceive_spine t k kind param time s)
  | forwardedResponse t port tag drs ndr => exact spine_by_time (execForwardedResponse_spine t port tag drs ndr s)
  | recordWalkLine t line found => exact spine_by_time (execRecordWalkLine_spine t line found s)
  | roleRecordReceive t line r => exact spine_by_time (execRoleRecordReceive_spine t line r s)
  | otpGoodRise t readBack => exact spine_by_otp rfl (execOtpGoodRise_spine t readBack s)
  | powerFailWarnGlitch t => exact spine_by_time (execPowerFailWarnGlitch_spine t s)
  | peerLinksUp t => exact spine_by_time (execPeerLinksUp_spine t s)
  | bisnpCredit t j => exact spine_by_time (execBisnpCredit_spine t j s)

/-! ### The fail-safe state -/

/-- No command but a power-up ends the fail-safe state (R571). -/
theorem exec_keeps_failsafe (i : Instr) (s : State) (hs : s.win.failsafe = true) (hi : i.isPowerUp = false) :
    ∃ u, exec i s = .next u ∧ u.win.failsafe = true := by
  obtain ⟨u, hu, -, -, -, -, -, hsafe⟩ := exec_spine i s
  exact ⟨u, hu, hsafe hi hs⟩

/-- A power-up starts outside the fail-safe state. -/
theorem State.powerUp_failsafe (s : State) : s.powerUp.win.failsafe = false :=
  congrArg Spine.failsafe s.powerUp_spine

/-- Settles O6: every command but RAILS_GOOD keeps the fail-safe state, by what each command does to the spine; RAILS_GOOD with the
rails down is the power-up, which resets it. -/
theorem failSafeEndsOnlyAtAPowerUp : Obligations.FailSafeEndsOnlyAtAPowerUp := by
  refine ⟨exec_keeps_failsafe, fun t f s _ hrails => ⟨_, congrArg Host.Outcome.next (if_neg ?_), ?_⟩⟩
  · simp only [hrails, Bool.false_eq_true, not_false_eq_true]
  · exact (s.tick t).powerUp_failsafe

end Sys2Proof.Machine
end

section
/-! SUPPORT. Commands of the units and of power: reset, the fallow states, the reference of the Meridian unit, start-up, rails. -/

namespace Sys2Proof.Machine

/-! ### Reset -/

/-- Settles O2: each value is the one that the reset state or the reset value of its unit names. -/
theorem resetHoldsTheValuesOfTheSpec : Obligations.ResetHoldsTheValuesOfTheSpec :=
  ⟨rfl, rfl, rfl, rfl, rfl, rfl, rfl, rfl, rfl, rfl, rfl, rfl, fun _ => ⟨rfl, rfl⟩, fun _ => rfl, fun _ => rfl⟩

/-! ### The fallow states (R37, R46 to R49, R53) -/

/-- Settles O19: each command is one test of its unit, which the conditions decide. -/
theorem unitsGoFallowAndWake : Obligations.UnitsGoFallowAndWake := by
  unfold Obligations.UnitsGoFallowAndWake
  refine ⟨fun w on since k t s h => ?watchdog, fun w on since t s h => ?noWatchdog, fun n t s h => ?slice, fun k t s h => ?stook, fun x t s h => ?router,
    fun n t s _ => rfl, fun k t s _ => rfl, fun x t s _ => rfl, fun w t s h => ?other⟩
  case watchdog =>
    obtain ⟨hk, hl⟩ := h
    dsimp only [exec, execHandshakeWatchdog]
    rw [hk]
    exact congrArg Host.Outcome.next (if_pos hl)
  case noWatchdog =>
    refine congrArg Host.Outcome.next ?_
    dsimp only
    split
    · exact if_neg (ne_true_of_eq_false h)
    · rfl
  case slice => exact congrArg Host.Outcome.next (if_pos (by simpa only [Bool.not_eq_true'] using h))
  case stook => exact congrArg Host.Outcome.next (if_pos (by simpa only [Bool.not_eq_true'] using h))
  case router => exact congrArg Host.Outcome.next (if_pos h)
  case other => cases w with
    | slice _ | stook _ | site _ => exact h.elim
    | _ => rfl

/-! ### The reference of the Meridian unit (R282 to R289) -/

theorem State.loseRef_locked {s : State} (h : s.mer.st = .locked) :
    s.loseRef = (s.onMer fun m => { m with st := m.noRef, lostAt := s.now, good := 0 }).raise (srcMer 2) (256 + 285) 0 0 0 := if_pos h

theorem State.loseRef_not_locked {s : State} (h : s.mer.st ≠ .locked) : s.loseRef = s := if_neg h

/-- What an alignment word does, at the offset that it shows. -/
theorem alignWord_eq (t : Ns) (count : Quad) (check : Byte) (sub : BitVec 16) (s : State) (o : Int)
    (ho : (if (s.tick t).mer.st = .unlocked then 0 else
      (count.toNat * 65536 : Int) - ((s.tick t).now * 65536 + (s.tick t).clk.frac + sub.toNat : Int)) = o) :
    exec (.alignWord t count check sub) s = .next (if check != Config.timeCheck count || count.toNat ≤ (s.tick t).mer.lastCount || 65536000 < o.natAbs
      then (s.tick t).badWord 0 else (s.tick t).goodWord count.toNat o) := by
  subst ho; rfl

/-- A word with the right check that counts up and lies within 1 µs is accepted with its offset (R284). -/
theorem alignWord_good {t : Ns} {count : Quad} {check : Byte} {sub : BitVec 16} {s : State} {o : Int} (hc : check = Config.timeCheck count)
    (hl : (s.tick t).mer.lastCount < count.toNat)
    (ho : (if (s.tick t).mer.st = .unlocked then 0 else
      (count.toNat * 65536 : Int) - ((s.tick t).now * 65536 + (s.tick t).clk.frac + sub.toNat : Int)) = o) (hn : o.natAbs ≤ 65536000) :
    exec (.alignWord t count check sub) s = .next ((s.tick t).goodWord count.toNat o) := by
  rw [alignWord_eq t count check sub s o ho, if_neg]
  simp only [Bool.or_eq_true, bne_iff_ne, decide_eq_true_eq]
  exact not_or.mpr ⟨not_or.mpr ⟨not_not.mpr hc, by omega⟩, by omega⟩

/-- Settles O22: a word by whether its check, its count and its offset pass, the loss of the reference by whether the unit is LOCKED,
the end of holdover by whether the twin can steer. -/
theorem referenceWordsDriveTheMeridianState : Obligations.ReferenceWordsDriveTheMeridianState := by
  unfold Obligations.ReferenceWordsDriveTheMeridianState
  refine ⟨fun t s h => ?lost, fun t s h => ?lostAgain, fun count check sub o t s h => ?good, fun count check sub t s h => ?first,
    fun count check sub t s h => ?bad, fun t s h => congrArg Host.Outcome.next (if_pos h), fun t s h => congrArg Host.Outcome.next (if_pos h),
    fun t s h => congrArg Host.Outcome.next (if_neg fun g => by omega), fun t s h => congrArg Host.Outcome.next (if_pos h),
    fun t s h => ?free, fun t s h => ?steered⟩
  case lost =>
    refine congrArg Host.Outcome.next ((State.loseRef_locked ?_).trans ?_)
    · rw [State.raise_mer]; exact h
    · simp only [State.raise_now, State.onMer_now]
  case lostAgain =>
    refine congrArg Host.Outcome.next (State.loseRef_not_locked ?_)
    rw [State.raise_mer]; exact h
  case good =>
    obtain ⟨hu, hc, hl, ho, hn⟩ := h
    exact alignWord_good hc hl ((if_neg hu).trans ho) hn
  case first =>
    obtain ⟨hu, hc, hl⟩ := h
    exact alignWord_good hc hl (if_pos hu) (by decide)
  case bad =>
    dsimp only
    rw [alignWord_eq t count check sub s _ rfl, if_pos]
    simp only [Bool.or_eq_true, bne_iff_ne, decide_eq_true_eq]
    rcases h with h | h | ⟨hu, h⟩
    · exact .inl (.inl h)
    · exact .inl (.inr h)
    · right; rwa [if_neg hu]
  case free =>
    obtain ⟨hst, hms, hno⟩ := h
    exact congrArg Host.Outcome.next ((if_pos ⟨hst, hms⟩).trans (if_neg hno))
  case steered =>
    obtain ⟨hst, hms, hno⟩ := h
    exact congrArg Host.Outcome.next ((if_pos ⟨hst, hms⟩).trans (if_pos hno))

/-! ### Start-up (R607) -/

/-- Settles O39: each start-up command tests its step first, then the outcome of its own work. -/
theorem startUpStepsFollowOneAnother : Obligations.StartUpStepsFollowOneAnother := by
  unfold Obligations.StartUpStepsFollowOneAnother
  refine ⟨fun fm t s h => congrArg Host.Outcome.next (if_neg (ne_true_of_eq_false h)), fun fm t s h => congrArg Host.Outcome.next (if_pos h),
    fun a b c t s h => ?otp, fun a b c t s h => ?otpBroken, fun a b c t s h => ?otpNot, fun l t s h => ?bist,
    fun l t s h => congrArg Host.Outcome.next (if_pos h), fun x t s h => ?boot, fun x t s h => ?bootOther, fun x t s h => ?bootNone,
    fun x t s h => congrArg Host.Outcome.next (if_pos h)⟩
  case otp =>
    obtain ⟨h2, hr, hf, h1, h3⟩ := h
    refine congrArg Host.Outcome.next ((if_neg ?_).trans (if_neg ?_))
    · simp only [h2, hr, hf]; decide
    · simp only [h1, h3]; decide
  case otpBroken =>
    obtain ⟨h2, hr, hf, h⟩ := h
    refine congrArg Host.Outcome.next ((if_neg ?_).trans (if_pos h))
    simp only [h2, hr, hf]; decide
  case otpNot => exact congrArg Host.Outcome.next (if_pos (by simpa only [Bool.not_eq_true'] using h))
  case bist =>
    obtain ⟨h3, hf⟩ := h
    refine congrArg Host.Outcome.next (if_neg ?_)
    simp only [h3, hf]; decide
  case boot =>
    obtain ⟨h7, hf, hok⟩ := h
    refine congrArg Host.Outcome.next ((if_neg ?_).trans (if_pos hok))
    simp only [h7, hf]; decide
  case bootOther =>
    obtain ⟨h7, hf, hno, hok⟩ := h
    refine congrArg Host.Outcome.next ((if_neg ?_).trans ((if_neg (ne_true_of_eq_false hno)).trans (if_pos ?_)))
    · simp only [h7, hf]; decide
    · revert hok; cases ((s.tick t).bootTables x).activeBlock <;> exact id
  case bootNone =>
    obtain ⟨h7, hf, h0, h1⟩ := h
    refine congrArg Host.Outcome.next ((if_neg ?_).trans ((if_neg ?_).trans (if_neg ?_)))
    · simp only [h7, hf]; decide
    · simp [h0, h1]
    · simp [h0, h1]

/-! ### Rails (R32) -/

/-- Settles O41: RAIL_GLITCH counts and raises on a good rail alone, and neither touches the power unit. -/
theorem railGlitchIsOnlyCounted : Obligations.RailGlitchIsOnlyCounted := by
  unfold Obligations.RailGlitchIsOnlyCounted
  refine ⟨fun r t s h => congrArg Host.Outcome.next (if_pos h), fun r t s h => congrArg Host.Outcome.next (if_neg (ne_true_of_eq_false h)), fun s => ?_, ?_⟩
  · rw [State.raise_pwr, State.bumpPwr_pwr]
  · rfl

end Sys2Proof.Machine
end

section
/-! SUPPORT. Register writes: the pages, the windows on the ring, the delivery of a write (R665 to R675). -/

namespace Sys2Proof.Machine

/-! ### Register writes (R665 to R675) -/

theorem State.writeAt_ignored (s : State) {o v len : Nat} (h : len ≠ 4 ∨ o % 4 ≠ 0) : s.writeAt o v len = s.ignBlk o := if_pos h

theorem State.writeAt_bus (s : State) {o v : Nat} (ha : o % 4 = 0) (ho : o < 0x100000 ∨ 0x400000 ≤ o) : s.writeAt o v 4 = s.busWrite o v :=
  (if_neg (by omega)).trans (if_neg (by omega))

theorem State.writeAt_ring (s : State) {o v : Nat} (ha : o % 4 = 0) (hl : 0x100000 ≤ o) (hh : o < 0x400000) : s.writeAt o v 4 = s.ringWrite o v :=
  (if_neg (by omega)).trans (if_pos ⟨hl, hh⟩)

theorem State.busWrite_base (s : State) {o v : Nat} (hp : o / 0x1000 % 4 = 0) : s.busWrite o v = s.regWrite (regAt o) o v := by
  unfold State.busWrite
  simp only [hp, if_pos, Nat.mul_zero, Nat.sub_zero]

/-- What a write through a set, clear or toggle page writes: its bits set, cleared or toggled in the register (R666). -/
def aliasWord (page old v : Nat) : Nat := if page = 1 then old ||| v else if page = 2 then old ^^^ (old &&& v) else old ^^^ v

theorem aliasWord_set (old v : Nat) : aliasWord 1 old v = old ||| v := if_pos rfl

theorem aliasWord_clear (old v : Nat) : aliasWord 2 old v = old ^^^ (old &&& v) := (if_neg (by decide)).trans (if_pos rfl)

theorem aliasWord_toggle (old v : Nat) : aliasWord 3 old v = old ^^^ v := (if_neg (by decide)).trans (if_neg (by decide))

theorem State.busWrite_alias (s : State) {o v page : Nat} (hp : o / 0x1000 % 4 = page) (h0 : page ≠ 0) (hm : ¬(0x070000 ≤ o ∧ o < 0x080000))
    (hr : regAt (o - 0x1000 * page) ≠ .other) (hw : regAt (o - 0x1000 * page) ≠ .winCtl) :
    s.busWrite o v = s.regWrite (regAt (o - 0x1000 * page)) (o - 0x1000 * page)
      (aliasWord page (s.regValue (regAt (o - 0x1000 * page))) (aliasBits (regAt (o - 0x1000 * page)) v)) := by
  unfold State.busWrite
  simp only [hp, h0, hm, hr, hw, if_false, false_or]
  rfl

theorem State.busWrite_reserved (s : State) {o v : Nat} (hm : 0x070000 ≤ o ∧ o < 0x080000) (hp : o / 0x1000 % 4 ≠ 0) : s.busWrite o v = s :=
  (if_neg hp).trans (if_pos (.inl hm))

/-- A write outside the ring windows, through the page that lies `d` bytes above the base page and writes `w` of the register's
value and the bits written (R666). -/
theorem aliasWrite_does (page d : Nat) (w : Nat → Nat → Nat) (h0 : page ≠ 0) (hd : 0x1000 * page = d) (hpw : ∀ old v, aliasWord page old v = w old v)
    (off : BitVec 24) (v : Word) : Does (fun t => .aliasWrite t off v 4)
    (fun _ => off.toNat % 4 = 0 ∧ (off.toNat < 0x100000 ∨ 0x400000 ≤ off.toNat) ∧ off.toNat / 0x1000 % 4 = page ∧
      ¬(0x070000 ≤ off.toNat ∧ off.toNat < 0x080000) ∧ regAt (off.toNat - d) ≠ .other ∧ regAt (off.toNat - d) ≠ .winCtl)
    fun s => s.regWrite (regAt (off.toNat - d)) (off.toNat - d) (w (s.regValue (regAt (off.toNat - d))) (aliasBits (regAt (off.toNat - d)) v.toNat)) := by
  subst hd
  obtain rfl : aliasWord page = w := funext₂ hpw
  rintro t s ⟨ha, ho, hp, hm, hr, hw⟩
  exact congrArg Host.Outcome.next ((State.writeAt_bus _ ha ho).trans (State.busWrite_alias _ hp h0 hm hr hw))

/-- A delivery takes the oldest write from the ring (R672). -/
theorem ringWriteDelivered_eq {t : Ns} {s : State} {r : RingOp} {l : List RingOp} (h : (s.tick t).blk.ring = r :: l) :
    exec (.ringWriteDelivered t) s = .next (((s.tick t).onBlk fun b => { b with ring := l }).deliver r.off r.value.toNat) := by
  dsimp only [exec, execRingWriteDelivered]
  rw [h]

/-- Settles O47: a register write by its place (the ring windows or the bus) and, on the bus, by its page; a delivery by the window of
the oldest write and whether its unit is fenced. -/
theorem registerWritesActByPageAndWindow : Obligations.RegisterWritesActByPageAndWindow := by
  unfold Obligations.RegisterWritesActByPageAndWindow
  refine ⟨fun off v len t s h => congrArg Host.Outcome.next (State.writeAt_ignored _ h), fun off v t s h => ?base,
    fun off v t s h => ?ring, fun off v t s h => ?ringBusy,
    fun off v len t s h => congrArg Host.Outcome.next (State.writeAt_ignored _ h),
    aliasWrite_does 1 4096 (fun old v => old ||| v) (by decide) rfl aliasWord_set,
    aliasWrite_does 2 8192 (fun old v => old ^^^ (old &&& v)) (by decide) rfl aliasWord_clear,
    aliasWrite_does 3 12288 (fun old v => old ^^^ v) (by decide) rfl aliasWord_toggle,
    fun off v t s h => ?reserved, fun t s h => ?ringEmpty, fun r l t s h => ?stook, fun r l t s h => ?slice,
    fun r l t s h => ?stookFenced, fun r l t s h => ?sliceFenced,
    fun t s _ => rfl, fun t s _ => rfl, fun off t s h => ?noLatch⟩
  case base =>
    obtain ⟨ha, ho, hp⟩ := h
    exact congrArg Host.Outcome.next ((State.writeAt_bus _ ha ho).trans (State.busWrite_base _ hp))
  case ring =>
    obtain ⟨ha, hl, hh, hb⟩ := h
    refine congrArg Host.Outcome.next ((State.writeAt_ring _ ha hl hh).trans ((if_neg (ne_true_of_eq_false hb)).trans ?_))
    rw [BitVec.ofNat_toNat, BitVec.setWidth_eq]
  case ringBusy =>
    obtain ⟨ha, hl, hh, hb⟩ := h
    exact congrArg Host.Outcome.next ((State.writeAt_ring _ ha hl hh).trans (if_pos hb))
  case reserved =>
    obtain ⟨ha, hl, hh, hp⟩ := h
    exact congrArg Host.Outcome.next ((State.writeAt_bus _ ha (by omega)).trans (State.busWrite_reserved _ ⟨hl, hh⟩ hp))
  case ringEmpty =>
    dsimp only [exec, execRingWriteDelivered]
    rw [h]
  case stook =>
    obtain ⟨hr, ho, hf⟩ := h
    exact (ringWriteDelivered_eq hr).trans (congrArg Host.Outcome.next ((if_pos ho).trans (if_neg (ne_true_of_eq_false hf))))
  case slice =>
    obtain ⟨hr, ho, hf⟩ := h
    exact (ringWriteDelivered_eq hr).trans (congrArg Host.Outcome.next ((if_neg (by omega)).trans (if_neg (ne_true_of_eq_false hf))))
  case stookFenced =>
    obtain ⟨hr, ho, hf⟩ := h
    exact (ringWriteDelivered_eq hr).trans (congrArg Host.Outcome.next ((if_pos ho).trans (if_pos hf)))
  case sliceFenced =>
    obtain ⟨hr, ho, hf⟩ := h
    exact (ringWriteDelivered_eq hr).trans (congrArg Host.Outcome.next ((if_neg (by omega)).trans (if_pos hf)))
  case noLatch =>
    dsimp only [exec, execMeridianWord0Read]
    rw [h]
    rfl

end Sys2Proof.Machine
end

section
/-! SUPPORT. Mailbox commands: how a statement that one of them does something follows from what its own rules answer; the commands
of host ports, ticket areas and placement (R645). -/

namespace Sys2Proof.Machine

/-! ### What a served mailbox command does, from what its own rules answer (R625, R628) -/

/-- A mailbox command that is served does what its own rules answer on the state that has accepted it. -/
theorem MbxDoes.of_body {i : Ns → Mbx → Instr} {H : Mbx → State → Prop} {body : Mbx → State → Reply × State} {r : Mbx → State → Reply}
    {u : Mbx → State → State}
    (hx : ∀ t c s, ∃ op k, (i t c).mailbox = some (t, c, op, k) ∧ exec (i t c) s = .next ((s.tick t).command c op k (body c)))
    (hb : ∀ c s, H c s → body c s = (r c s, u c s)) : MbxDoes i H fun c s => (u c s).answer c.mb.val (r c s) := by
  intro t c s op k hm hs hH
  obtain ⟨op', k', hm', he⟩ := hx t c s
  obtain ⟨rfl, rfl⟩ : op' = op ∧ k' = k := by simpa [hm'] using hm
  rw [he, State.command_served hs, hb c _ hH]

section
variable {i : Ns → Mbx → Instr} {H : Mbx → State → Prop} {body : Mbx → State → Reply × State} {u : Mbx → State → State}
  (hx : ∀ t c s, ∃ op k, (i t c).mailbox = some (t, c, op, k) ∧ exec (i t c) s = .next ((s.tick t).command c op k (body c)))
include hx

theorem MbxDoes.completes {out : Mbx → State → List Byte} (hb : ∀ c s, H c s → body c s = (.done 0 (out c s), u c s)) :
    MbxDoes i H fun c s => (u c s).completes c (out c s) := .of_body hx hb

theorem MbxDoes.refuses {status : Nat} (hb : ∀ c s, H c s → body c s = (.done status [], u c s)) :
    MbxDoes i H fun c s => (u c s).refuses c status := .of_body hx hb

theorem MbxDoes.badField {off : Nat} (hb : ∀ c s, H c s → body c s = (.detail 4 off, u c s)) :
    MbxDoes i H fun c s => (u c s).badField c off := .of_body hx hb

theorem MbxDoes.waitsFor {w : Mbx → State → Wait} (hb : ∀ c s, H c s → body c s = (.wait (w c s), u c s)) :
    MbxDoes i H fun c s => (u c s).waitsFor c (w c s) := .of_body hx hb
end

/-! ### Host ports (R129, R645) -/

/-- HOST_PORT_SET with every field in range answers what follows the checks of its fields. -/
theorem hostPortFields_inRange {α : Type} {x₁ x₂ x₃ x₄ x₅ y : α} {h i en req rwd : Nat} (hh : h ≤ 1023) (hi : i ≤ 15) (he : en ≤ 1)
    (h1 : 1 ≤ req) (h2 : req ≤ 1024) (h3 : 1 ≤ rwd) (h4 : rwd ≤ 512) :
    (if 1023 < h then x₁ else if 15 < i then x₂ else if 1 < en then x₃ else if req < 1 ∨ 1024 < req then x₄ else
      if rwd < 1 ∨ 512 < rwd then x₅ else y) = y :=
  (if_neg (by omega)).trans <| (if_neg (by omega)).trans <| (if_neg (by omega)).trans <| (if_neg (by omega)).trans (if_neg (by omega))

/-- Settles O51: each command by the first of its checks that fails, or by none failing. -/
theorem hostPortTicketAndPlacementCommands : Obligations.HostPortTicketAndPlacementCommands := by
  unfold Obligations.HostPortTicketAndPlacementCommands
  refine ⟨.completes (fun t c s => ⟨_, _, rfl, rfl⟩) fun c s h => ?set, .refuses (fun t c s => ⟨_, _, rfl, rfl⟩) fun c s h => ?setOver,
    .refuses (fun t c s => ⟨_, _, rfl, rfl⟩) fun c s h => ?setClash, .badField (fun t c s => ⟨_, _, rfl, rfl⟩) fun c s h => if_pos h,
    .badField (fun t c s => ⟨_, _, rfl, rfl⟩) fun c s h => ?setReq, .refuses (fun t c s => ⟨_, _, rfl, rfl⟩) fun c s h => ?setBound,
    .completes (fun t c s => ⟨_, _, rfl, rfl⟩) fun c s h => ?restore, .refuses (fun t c s => ⟨_, _, rfl, rfl⟩) fun c s h => ?restoreNot,
    .waitsFor (fun t c s => ⟨_, _, rfl, rfl⟩) fun c s h => ?area, .completes (fun t c s => ⟨_, _, rfl, rfl⟩) fun c s h => ?areaNone,
    .refuses (fun t c s => ⟨_, _, rfl, rfl⟩) fun c s h => ?areaEnabled,
    .completes (fun t c s => ⟨_, _, rfl, rfl⟩) fun c s h => if_neg h, .completes (fun t c s => ⟨_, _, rfl, rfl⟩) fun c s h => if_neg h,
    .refuses (fun t c s => ⟨_, _, rfl, rfl⟩) fun c s h => if_pos h, .refuses (fun t c s => ⟨_, _, rfl, rfl⟩) fun c s h => if_pos h⟩
  case set =>
    obtain ⟨hh, hi, he, h1, h2, h3, h4, hkept, hmemb, hcred⟩ := h
    refine (hostPortFields_inRange hh hi he h1 h2 h3 h4).trans ((if_neg ?_).trans (if_neg ?_))
    · rintro (⟨hen, hne⟩ | hc)
      · obtain ⟨hi', hreq, hrwd⟩ := hkept hen
        omega
      · exact ne_true_of_eq_false hmemb hc
    · rintro ⟨hen, hdis, hov⟩
      exact ne_true_of_eq_false (hcred (beq_iff_eq.mp hen) ((Bool.not_eq_true' _).mp hdis)) hov
  case setOver =>
    obtain ⟨hh, hi, he, h1, h2, h3, h4, hen, hdis, hmemb, hov⟩ := h
    refine (hostPortFields_inRange hh hi he h1 h2 h3 h4).trans ((if_neg ?_).trans (if_pos ⟨beq_iff_eq.mpr hen, (Bool.not_eq_true' _).mpr hdis, hov⟩))
    rintro (⟨hen', -⟩ | hc)
    · exact ne_true_of_eq_false hdis hen'
    · exact ne_true_of_eq_false hmemb hc
  case setClash =>
    obtain ⟨hh, hi, he, h1, h2, h3, h4, hmemb⟩ := h
    exact (hostPortFields_inRange hh hi he h1 h2 h3 h4).trans (if_pos (.inr hmemb))
  case setReq =>
    obtain ⟨hh, hi, he, hreq⟩ := h
    exact (if_neg (by omega)).trans <| (if_neg (by omega)).trans <| (if_neg (by omega)).trans (if_pos hreq)
  case setBound =>
    obtain ⟨hh, hi, he, h1, h2, h3, h4, hen, hne⟩ := h
    exact (hostPortFields_inRange hh hi he h1 h2 h3 h4).trans (if_pos (.inl ⟨hen, hne⟩))
  case restore =>
    obtain ⟨hh, hun⟩ := h
    refine (if_neg (by omega)).trans (if_neg ?_)
    rw [hun]; decide
  case restoreNot =>
    obtain ⟨hh, hun⟩ := h
    exact (if_neg (by omega)).trans (if_pos ((Bool.not_eq_true' _).mpr hun))
  case area =>
    obtain ⟨hn, hlen, hfree, hen, h0⟩ := h
    exact (if_neg (by omega)).trans <| (if_neg (by omega)).trans <| (if_neg (not_or.mpr ⟨hfree, hen⟩)).trans (if_neg h0)
  case areaNone =>
    obtain ⟨hfree, hen, hlen, h0⟩ := h
    dsimp only
    rw [h0]
    exact (if_neg (by omega)).trans <| (if_neg (by omega)).trans <| (if_neg (not_or.mpr ⟨hfree, hen⟩)).trans (if_pos rfl)
  case areaEnabled =>
    obtain ⟨hn, hlen, hen⟩ := h
    exact (if_neg (by omega)).trans <| (if_neg (by omega)).trans (if_pos (.inr hen))

end Sys2Proof.Machine
end

section
/-! SUPPORT. Host messages that meet the checks of R75 (R75 to R77), the answers to snoops (R117 to R133), the age limits of requests
(R67, R167, R169). -/

namespace Sys2Proof.Machine

/-! ### A host message by what the checks of R75 say of it -/

/-- A message that passed is kept and sent on, unless the port itself answers one of its form (R102, R103, R122). -/
theorem State.takeIn_keeps {s : State} {r : Req} {c : Nat} (hspec : r.form ≠ .specRd) (hconf : r.form ≠ .biConf)
    (hcln : ¬(r.form = .clnEvct ∧ r.plate.isSome = true)) : s.takeIn r c = s.keep r .host c (s.firstPlace r) := by
  unfold State.takeIn
  cases hf : r.form with
  | specRd => exact absurd hf hspec
  | biConf => exact absurd hf hconf
  | clnEvct => exact if_neg fun hp => hcln ⟨hf, hp⟩
  | _ => rfl

/-- The failed answer leaves the host ports, and so the credits they hold, as they were (R76, R77). -/
theorem State.failed_holdsCredits (s : State) (i c h : Nat) (op : ReqOp) (o : Nat) (p : Option Nat) (cxl : Nat) (a : Bool × Bool) (j g : Nat) :
    ((s.countFail i c h op o p).failOut i h cxl a).holdsCredits j g = s.holdsCredits j g :=
  State.holds_of_hosts ((State.failOut_hosts ..).trans (State.countFail_hosts ..)) j g

section
variable {s : State} {m : M2S} {op : ReqOp} {data : Line} {be : Quad} {fwd : Bool}

theorem State.judge_pass {r : Req} (h : s.check m op data be fwd = .pass r) : s.judge m op data be fwd = s.takeIn r m.tag.toNat := by
  unfold State.judge
  rw [h]

theorem State.judge_hold {r : Req} (h : s.check m op data be fwd = .hold r) : s.judge m op data be fwd = s.holdReq r m.tag.toNat := by
  unfold State.judge
  rw [h]

/-- The host port of a failed message holds credits here after the answer if it did before; one returns then (R76, R77). -/
theorem State.judge_fail {k : Nat} {p : Option Nat} (h : s.check m op data be fwd = .fail k p) :
    s.judge m op data be fwd =
      let u := (s.countFail m.port.val k m.host.val op m.offset.toNat p).failOut m.port.val m.host.val m.tag.toNat
        (failAnswer op m.mf (formOf op m.mf m.mv m.snp))
      if s.holdsCredits m.port.val m.host.val then u.returnCredit m.host.val (opRwd op) else u := by
  unfold State.judge
  rw [h]
  dsimp only
  rw [State.failed_holdsCredits]

/-- A port whose intake is stopped takes no message (R571). -/
theorem State.arrive_halted (h : (s.ip m.port.val).halted = true) : s.arrive m op data be = s := if_pos h

/-- A message for a host port that holds no credits here is counted and checked, and consumes none (R129, R130). -/
theorem State.arrive_uncredited (hi : (s.ip m.port.val).halted = false) (hc : s.holdsCredits m.port.val m.host.val = false) :
    s.arrive { m with enc := none } op data be = (s.bumpIp m.port.val 0 0 64).judge m op data be false :=
  (if_neg (ne_true_of_eq_false hi)).trans
    (if_neg (ne_true_of_eq_false ((State.holds_of_hosts (State.bumpIp_hosts ..) _ _).trans hc)))
end

/-- A host message whose host port has a credit does what the checks say of it, on the state that counted it and consumed the credit. -/
theorem hostMessage_does {op : ReqOp} {m : M2S} {data : Line} {be : Quad} {H : State → Prop} {E : State → State}
    (h : ∀ s, H s → s.hasCredit m op = true ∧ (s.charged m op).judge m op (msgData op data) (msgBe op be) false = E s) :
    Does (fun t => hostMessage op t m data be) H E := fun t s hH => by
  obtain ⟨hc, hj⟩ := h _ hH
  exact (host_arrive hc data be).trans (congrArg Host.Outcome.next hj)

/-- A host port with a credit left holds credits here. -/
theorem State.hasCredit_holds {s : State} {m : M2S} {op : ReqOp} (h : s.hasCredit m op = true) : s.holdsCredits m.port.val m.host.val = true := by
  simp only [State.hasCredit, Bool.and_eq_true] at h
  exact h.1.2

/-- Settles O8: with a credit the message is judged, and one that passes and has no form of the port's own is kept. -/
theorem hostRequestWithCreditIsKept : Obligations.HostRequestWithCreditIsKept := by
  unfold Obligations.HostRequestWithCreditIsKept
  refine fun op m data be r => hostMessage_does fun s h => ?_
  obtain ⟨hcredit, hpass, hspec, hconf, hcln⟩ := h
  exact ⟨hcredit, (State.judge_pass hpass).trans (State.takeIn_keeps hspec hconf hcln)⟩

/-- Settles O10: a message is judged where its port takes messages, and the verdict decides; the port returns a credit only to a host
port that holds credits here. -/
theorem hostMessageFailsOrIsHeld : Obligations.HostMessageFailsOrIsHeld := by
  unfold Obligations.HostMessageFailsOrIsHeld
  refine ⟨fun op m data be k p => hostMessage_does fun s h => ?failed, fun op m data be k p t s h => ?uncredited,
    fun op m data be r => hostMessage_does fun s h => ⟨h.1, State.judge_hold h.2⟩, fun op m data be t s h => ?halted⟩
  case failed =>
    obtain ⟨hcredit, hfail⟩ := h
    exact ⟨hcredit, (State.judge_fail hfail).trans (if_pos (State.charged_holds (State.hasCredit_holds hcredit)))⟩
  case uncredited =>
    obtain ⟨hi, hc, hfail⟩ := h
    refine (host_exec ..).trans (congrArg Host.Outcome.next ((State.arrive_uncredited hi hc).trans ((State.judge_fail hfail).trans (if_neg ?_))))
    exact ne_true_of_eq_false ((State.holds_of_hosts (State.bumpIp_hosts ..) _ _).trans hc)
  case halted => exact (host_exec ..).trans (congrArg Host.Outcome.next (State.arrive_halted h))

/-! ### Snoops (R117 to R133) -/

/-- The answer that an outstanding snoop waits for: no block answer, from its host port, for its line, after the snoop has left (R78). -/
theorem snoop_answered {y : Snoop} {ans : BIAns} {h l : Nat} (hb : ans ≠ .block) (hh : y.host = h) (hl : y.line = l) (hleft : y.left.isSome = true) :
    ¬(ans == .block || y.host != h || y.line != l || y.left.isNone) = true := by
  simp only [beq_eq_false_iff_ne.mpr hb, hh, hl, bne_self_eq_false, Option.isNone_eq_false_iff.mpr hleft]
  decide

section
variable {s : State} {t : Ns} {port : IntakeId} {host : HostId} {line : BitVec 42} {bitag : Nat} {ans : BIAns}
  (hi : ((s.tick t).ip port.val).halted = false) (hr : ((s.tick t).ip port.val).retired.contains bitag = false)
include hi hr

/-- A BIRsp whose BITag stands for no snoop is discarded, counted and raised (R78). -/
theorem biRsp_unmatched (hy : Tbl.find ((s.tick t).ip port.val).snoops bitag = none) : exec (.biRsp t port host line bitag ans) s =
    .next (((s.tick t).bumpIp port.val 2 48 16).raise (srcIp port.val 0) (256 + 78) line.toNat 0 host.val) := by
  refine congrArg Host.Outcome.next ((if_neg ?_).trans ((if_neg ?_).trans ?_))
  · rw [hi]; exact Bool.false_ne_true
  · rw [hr]; exact Bool.false_ne_true
  · rw [hy]

/-- A BIRsp that its snoop waits for goes on to the snoop's slice, and acts there by whether it conforms to the snoop's form (R119). -/
theorem biRsp_matched {y : Snoop} (hy : Tbl.find ((s.tick t).ip port.val).snoops bitag = some y)
    (ha : ¬(ans == .block || y.host != host.val || y.line != line.toNat || y.left.isNone) = true) : exec (.biRsp t port host line bitag ans) s =
    .next (match conform y.form ans with
      | some k => ((((s.tick t).sendRsp port.val y ans).dropSnoop port.val bitag).onEnt y.slice y.entry fun x =>
          { x with expect := x.expect - 1, stay := match k with
              | some b => x.stay ++ [(y.host, b)]
              | none => x.stay }).serve y.slice y.entry
      | none => (((((((s.tick t).sendRsp port.val y ans).dropSnoop port.val bitag).bumpIp port.val 5 32 32).raise (srcIp port.val 2) (256 + 119) y.line y.part
          y.host).declare port.val y.host y.line y.part y.form).silent y.slice y.entry port.val y.dirty).serve y.slice y.entry) := by
  refine congrArg Host.Outcome.next ((if_neg ?_).trans ((if_neg ?_).trans ?_))
  · rw [hi]; exact Bool.false_ne_true
  · rw [hr]; exact Bool.false_ne_true
  · rw [hy]
    exact if_neg ha
end

section
variable {s : State} {t : Ns} {n : SliceId} {e w : Nat} {rest : List Nat} {x : Entry} {v : State}
  (hs : (s.tick t).mute = false) (hv : State.each (fun i s => s.sendWaiting i) (List.range 16) (s.tick t) = v) (hm : v.mute = false)
  (hx : v.nextIssue n.val = some (e, x)) (hw : x.toIssue = w :: rest)
include hs hv hm hx hw

/-- After the snoops that wait at the ports, the entry whose turn it is issues its next snoop: to an unresponsive host port none, and the
holder counts as silent (R126); else with a free BITag of the holder's port (R117, R165). -/
theorem bisnpIssue_turn : exec (.bisnpIssue t n) s = .next (
    let u := v.issuing n.val e rest
    if (u.hp w).unresp then (u.silent n.val e (u.hp w).intake (mayDirty x.hrec)).serve n.val e
    else match (u.ip (u.hp w).intake).bitag with
      | none => u
      | some tag =>
        let y : Snoop := { slice := n.val, entry := e, host := w, line := x.req.line, part := x.req.part, form := x.snp, dirty := mayDirty x.hrec,
                           left := none, wrote := false, after := x.after' }
        let z := u.packet (.slice n.val) (.intake (u.hp w).intake) 0x20
          { prio := u.prio x.req.part, tag := e, host := some w, part := x.req.part, line := x.req.line, form := x.snp.num }
        (((z.onIp (u.hp w).intake fun q => { q with snoops := Tbl.set q.snoops tag y }).sendSnoop (u.hp w).intake tag).takeWaiting n.val e w x.req.line)) := by
  dsimp only [exec, execBisnpIssue]
  rw [if_neg (ne_true_of_eq_false hs), hv, if_neg (ne_true_of_eq_false hm), hx]
  dsimp only
  rw [hw] <;> rfl
end

/-- Settles O12: a BIRsp by the snoop that its BITag stands for and by its form, a snoop timeout by its age, an issue by the responsiveness
of the holder's host port. -/
theorem snoopAnswersReachTheirEntry : Obligations.SnoopAnswersReachTheirEntry := by
  unfold Obligations.SnoopAnswersReachTheirEntry
  refine ⟨fun port host line bitag ans y k t s h => ?conforms, fun port host line bitag ans y t s h => ?nonconforming,
    fun port host line bitag ans t s h => ?unmatched, fun port bitag y t0 t s h => ?timeout, fun n e w rest x tag v t s h => ?issued,
    fun n e w rest x v t s h => ?unresponsive, fun i t s h => congrArg Host.Outcome.next (if_neg (ne_true_of_eq_false h))⟩
  case conforms =>
    obtain ⟨hi, hr, hy, hb, hh, hl, hleft, hk⟩ := h
    rw [biRsp_matched hi hr hy (snoop_answered hb hh hl hleft), hk] <;> rfl
  case nonconforming =>
    obtain ⟨hi, hr, hy, hb, hh, hl, hleft, hk⟩ := h
    rw [biRsp_matched hi hr hy (snoop_answered hb hh hl hleft), hk]
  case unmatched =>
    obtain ⟨hi, hr, hy⟩ := h
    exact biRsp_unmatched hi hr hy
  case timeout =>
    obtain ⟨hy, hleft, hlate⟩ := h
    dsimp only [exec, execSnoopTimeout]
    rw [hy]
    dsimp only
    rw [hleft]
    exact congrArg Host.Outcome.next (if_neg (Nat.not_lt.mpr hlate))
  case issued =>
    obtain ⟨hs, hv, hm, hx, hw, hun, htag⟩ := h
    have hp := State.hp_of_hosts (State.issuing_hosts v n.val e rest) w
    have ip := State.ip_of_intakes (State.issuing_intakes v n.val e rest) (v.hp w).intake
    rw [bisnpIssue_turn hs hv hm hx hw]
    dsimp only
    rw [hp, hun, ip, htag, hv] <;> rfl
  case unresponsive =>
    obtain ⟨hs, hv, hm, hx, hw, hun⟩ := h
    have hp := State.hp_of_hosts (State.issuing_hosts v n.val e rest) w
    rw [bisnpIssue_turn hs hv hm hx hw]
    dsimp only
    rw [hp, hun, hv] <;> rfl

/-! ### Age limits (R67, R167, R169) -/

/-- Settles O14: each limit by the time since its request's start, and by whether its event has been raised. -/
theorem requestAgeLimitsRaiseTheirEvent : Obligations.RequestAgeLimitsRaiseTheirEvent := by
  unfold Obligations.RequestAgeLimitsRaiseTheirEvent
  refine ⟨fun part t0 t s h => ?held, fun n e x t s h => ?overrun, fun n e x t s h => ?aged⟩
  case held =>
    obtain ⟨hsince, hlate, hev⟩ := h
    dsimp only [exec, execHoldTimeout]
    rw [hsince]
    refine congrArg Host.Outcome.next (if_pos ?_)
    rw [hev]
    exact Bool.and_eq_true_iff.mpr ⟨decide_eq_true hlate, rfl⟩
  case overrun =>
    obtain ⟨hx, hhold, hlate⟩ := h
    dsimp only [exec, execHoldOverrun]
    rw [hx]
    exact congrArg Host.Outcome.next (if_pos (Bool.and_eq_true_iff.mpr ⟨hhold, decide_eq_true hlate⟩))
  case aged =>
    obtain ⟨hx, haged, hlate⟩ := h
    dsimp only [exec, execTrackerAge]
    rw [hx]
    refine congrArg Host.Outcome.next (if_pos ?_)
    rw [haged]
    exact Bool.and_eq_true_iff.mpr ⟨rfl, decide_eq_true hlate⟩

end Sys2Proof.Machine
end

section
/-! SUPPORT. The partition commands (R642, R643): the order of their checks, and what each does when they pass. -/

namespace Sys2Proof.Machine

section
variable {i : Ns → Mbx → Instr} {H : Mbx → State → Prop} {body : Mbx → State → Reply × State}
  (hx : ∀ t c s, ∃ op k, (i t c).mailbox = some (t, c, op, k) ∧ exec (i t c) s = .next ((s.tick t).command c op k (body c)))
include hx

theorem MbxDoes.starts {b : Mbx → State → Bg} {left : Nat} {u : Mbx → State → State} (hb : ∀ c s, H c s → body c s = (.started (b c s) left, u c s)) :
    MbxDoes i H fun c s => (u c s).begins c (b c s) left := .of_body hx hb

/-- A served command ends with the answer of its own rules, whatever kind of answer that is. -/
theorem MbxDoes.answers {r : Mbx → State → Reply × State} (hb : ∀ c s, H c s → body c s = r c s) :
    MbxDoes i H fun c s => (r c s).2.answer c.mb.val (r c s).1 := .of_body hx hb
end

/-- PART_CREATE passes the checks of state with a FREE partition and a pair of map ports (R642). -/
theorem State.creatable {s : State} {p : Nat} (hfree : (s.part p).st = .free) (hmap : s.mapPair.isSome = true) :
    ¬((s.part p).st ≠ .free ∨ s.mapPair.isNone = true) :=
  not_or.mpr ⟨not_not.mpr hfree, ne_true_of_eq_false (Option.isNone_eq_false_iff.mpr hmap)⟩

/-! ### PART_ENABLE (R63, R642) -/

section
variable {s : State} {c : Mbx}

/-- PART_ENABLE at block scope in a paired block names the scope as the field at fault (R642). -/
theorem State.enableCmd_paired {act : Nat} (ha : mbByte c 1 = act) (h0 : mbByte c 2 = 0) (hp : s.twin.st = .paired) :
    s.enableCmd c act = (.detail 4 2, s) :=
  (if_neg (not_not.mpr ha)).trans (if_pos (.inr ⟨h0, hp⟩))

/-- PART_ENABLE with its fields in range answers by the partition's state, then the pool, then the pending entries. -/
theorem State.enableCmd_inRange {act : Nat} (ha : mbByte c 1 = act) (h1 : mbByte c 2 ≤ 1) (hp : mbByte c 2 = 0 → s.twin.st ≠ .paired) :
    s.enableCmd c act =
      if act = 1 ∧ ((s.part (mbByte c 0)).st = .free ∨ (s.part (mbByte c 0)).st = .stopped ∨ (s.part (mbByte c 0)).st = .enabled ∨ (s.part (mbByte c 0)).unfinished)
        then (.done 7 [], s)
      else if act = 0 ∧ (s.part (mbByte c 0)).st ≠ .enabled then (.done 7 [], s)
      else if act = 1 ∧ (s.trkOver (mbByte c 0) ∨ s.fltOver (mbByte c 0)) then (.done 8 [], s)
      else match s.freePend with
        | none => (.done 8 [], s)
        | some k => (s.onBlk fun b => { b with pend := Tbl.set b.pend k (1 + 2 * act + 16 * mbByte c 0 + 2048) }).instCmd c.mb.val 6 (mbByte c 2) k (mbLe c 8 8) := by
  refine (if_neg (not_not.mpr ha)).trans (if_neg ?_)
  rintro (h | ⟨h0, h2⟩)
  · omega
  · exact hp h0 h2
end

/-- A finished partition that is DISABLED or DRAINING is in none of the states in which PART_ENABLE is refused (R642). -/
theorem State.enableable {s : State} {p : Nat} (hst : (s.part p).st = .disabled ∨ (s.part p).st = .draining) (hun : (s.part p).unfinished = false) :
    ¬((s.part p).st = .free ∨ (s.part p).st = .stopped ∨ (s.part p).st = .enabled ∨ (s.part p).unfinished = true) := by
  rw [hun]
  rcases hst with h | h <;> rw [h] <;> decide

/-! ### PART_SCRATCH (R268, R642) -/

/-- PART_SCRATCH of a ready pair, which a DISABLED partition may take, assigns it or releases it. -/
theorem State.scratchCmd_ready {s : State} {c : Mbx} {act : Nat}
    (hpair : mbByte c 1 = 3 ∨ mbByte c 1 = 5 ∨ mbByte c 1 = 7 ∨ mbByte c 1 = 9) (ha : mbByte c 2 = act)
    (hst : (s.part (mbByte c 0)).st = .disabled) (h1 : s.scratchReady (mbByte c 1) = true) (h2 : s.scratchReady (mbByte c 1 + 1) = true)
    (hfree : (s.parts.any fun x => x.1 != mbByte c 0 && x.2.pairs.contains (mbByte c 1)) = false) :
    s.scratchCmd c act =
      if act = 1 then (.done 0 [], s.onPart (mbByte c 0) fun q => { q with pairs := insertNat (mbByte c 1) q.pairs })
      else if !(s.part (mbByte c 0)).pairs.contains (mbByte c 1) then (.done 7 [], s)
      else (.done 0 [], s.onPart (mbByte c 0) fun q => { q with pairs := q.pairs.filter (· != mbByte c 1) }) := by
  refine (if_neg ?_).trans ((if_neg (not_not.mpr ha)).trans (if_neg ?_))
  · rcases hpair with h | h | h | h <;> rw [h] <;> decide
  · rw [hst, h1, h2, hfree]; decide

/-! ### The statement -/

/-- Settles O50: each command by the first of its checks that fails, or by none failing. -/
theorem partitionCommandsConfigureTheirPartition : Obligations.PartitionCommandsConfigureTheirPartition := by
  unfold Obligations.PartitionCommandsConfigureTheirPartition
  refine ⟨.starts (fun t c s => ⟨_, _, rfl, rfl⟩) fun c s h => ?create, .refuses (fun t c s => ⟨_, _, rfl, rfl⟩) fun c s h => if_pos (.inl h),
    .refuses (fun t c s => ⟨_, _, rfl, rfl⟩) fun c s h => ?createRoom, .starts (fun t c s => ⟨_, _, rfl, rfl⟩) fun c s h => ?resize,
    .refuses (fun t c s => ⟨_, _, rfl, rfl⟩) fun c s h => if_pos (.inl h), .starts (fun t c s => ⟨_, _, rfl, rfl⟩) fun c s h => ?destroy,
    .refuses (fun t c s => ⟨_, _, rfl, rfl⟩) fun c s h => ?destroyEnabled, .completes (fun t c s => ⟨_, _, rfl, rfl⟩) fun c s h => rfl,
    fun k => .answers (fun t c s => ⟨_, _, rfl, rfl⟩) fun c s h => ?enable, fun k => .answers (fun t c s => ⟨_, _, rfl, rfl⟩) fun c s h => ?disable,
    .refuses (fun t c s => ⟨_, _, rfl, rfl⟩) fun c s h => ?enableNot, .refuses (fun t c s => ⟨_, _, rfl, rfl⟩) fun c s h => ?enableRoom,
    .badField (fun t c s => ⟨_, _, rfl, rfl⟩) fun c s h => State.enableCmd_paired h.1 h.2.1 h.2.2,
    .refuses (fun t c s => ⟨_, _, rfl, rfl⟩) fun c s h => ?disableNot, .completes (fun t c s => ⟨_, _, rfl, rfl⟩) fun c s h => ?restart,
    .refuses (fun t c s => ⟨_, _, rfl, rfl⟩) fun c s h => if_pos (.inl h), .completes (fun t c s => ⟨_, _, rfl, rfl⟩) fun c s h => ?quiet,
    .completes (fun t c s => ⟨_, _, rfl, rfl⟩) fun c s h => ?quietLater, .refuses (fun t c s => ⟨_, _, rfl, rfl⟩) fun c s h => if_pos h,
    .completes (fun t c s => ⟨_, _, rfl, rfl⟩) fun c s h => ?assign, .completes (fun t c s => ⟨_, _, rfl, rfl⟩) fun c s h => ?release,
    .badField (fun t c s => ⟨_, _, rfl, rfl⟩) fun c s h => if_pos ?noPair, .completes (fun t c s => ⟨_, _, rfl, rfl⟩) fun c s h => ?set,
    .refuses (fun t c s => ⟨_, _, rfl, rfl⟩) fun c s h => if_pos h⟩
  case create =>
    obtain ⟨hfree, hmap, hcfg, hclash, hroom⟩ := h
    refine (if_neg (State.creatable hfree hmap)).trans ?_
    rw [hcfg]
    exact (if_neg (ne_true_of_eq_false hclash)).trans (if_neg (Nat.not_lt.mpr hroom))
  case createRoom =>
    obtain ⟨hfree, hmap, hcfg, hclash, hroom⟩ := h
    refine (if_neg (State.creatable hfree hmap)).trans ?_
    rw [hcfg]
    exact (if_neg (ne_true_of_eq_false hclash)).trans (if_pos hroom)
  case resize =>
    obtain ⟨hdis, hdr, hlive, hlen, hclash, hroom⟩ := h
    refine (if_neg ?_).trans ((if_neg ?_).trans (if_neg (Nat.not_lt.mpr hroom)))
    · simp only [hdis, hdr, hlive]; decide
    · rintro (hlong | hc)
      · omega
      · exact ne_true_of_eq_false hclash hc
  case destroy =>
    obtain ⟨hflag, hst⟩ := h
    refine (if_neg (by omega)).trans (if_neg ?_)
    rcases hst with ⟨hdis, hdr⟩ | hstop
    · simp only [hdis, hdr]; decide
    · rw [hstop, beq_self_eq_true, Bool.or_true]; decide
  case destroyEnabled =>
    obtain ⟨hflag, hen⟩ := h
    refine (if_neg (by omega)).trans (if_pos ?_)
    rw [hen]; rfl
  case enable =>
    obtain ⟨ha, h1, hp, hst, hun, htrk, hflt, hpend⟩ := h
    refine (State.enableCmd_inRange ha h1 hp).trans ((if_neg ?_).trans ((if_neg (by omega)).trans ((if_neg ?_).trans ?_)))
    · exact fun hno => State.enableable hst hun hno.2
    · simp only [htrk, hflt]; decide
    · rw [hpend]
  case disable =>
    obtain ⟨ha, h1, hp, hen, hpend⟩ := h
    refine (State.enableCmd_inRange ha h1 hp).trans
      ((if_neg (by omega)).trans ((if_neg fun hno => hno.2 hen).trans ((if_neg (by omega)).trans ?_)))
    rw [hpend]
  case enableNot =>
    obtain ⟨ha, h1, hp, hst⟩ := h
    exact (State.enableCmd_inRange ha h1 hp).trans (if_pos ⟨rfl, hst⟩)
  case enableRoom =>
    obtain ⟨ha, h1, hp, hdis, hun, hover⟩ := h
    refine (State.enableCmd_inRange ha h1 hp).trans ((if_neg ?_).trans ((if_neg (by omega)).trans (if_pos ⟨rfl, hover⟩)))
    exact fun hno => State.enableable (.inl hdis) hun hno.2
  case disableNot =>
    obtain ⟨ha, h1, hp, hst⟩ := h
    exact (State.enableCmd_inRange ha h1 hp).trans ((if_neg (by omega)).trans (if_pos ⟨rfl, hst⟩))
  case restart =>
    obtain ⟨hstop, hdr⟩ := h
    refine if_neg ?_
    simp only [hstop, hdr]; decide
  case quiet =>
    obtain ⟨hst, hwas, hnow⟩ := h
    exact (if_neg (not_or.mpr ⟨hst, ne_true_of_eq_false hwas⟩)).trans (if_pos hnow)
  case quietLater =>
    obtain ⟨hst, hwas, hstep, href⟩ := h
    exact (if_neg (not_or.mpr ⟨hst, ne_true_of_eq_false hwas⟩)).trans (if_neg (not_or.mpr ⟨Nat.not_le.mpr hstep, ne_true_of_eq_false href⟩))
  case assign =>
    obtain ⟨hpair, ha, hst, h1, h2, hfree⟩ := h
    exact (State.scratchCmd_ready hpair ha hst h1 h2 hfree).trans (if_pos rfl)
  case release =>
    obtain ⟨hpair, ha, hst, h1, h2, hfree, hmine⟩ := h
    refine (State.scratchCmd_ready hpair ha hst h1 h2 hfree).trans ((if_neg (by omega)).trans (if_neg ?_))
    rw [hmine]; decide
  case noPair => rw [h]; decide
  case set =>
    obtain ⟨hdis, hcfg, hbase, hsize, hwin, hclash⟩ := h
    refine (if_neg (not_not.mpr hdis)).trans ?_
    rw [hcfg]
    refine (if_neg (not_not.mpr hbase)).trans ((if_neg (not_not.mpr hsize)).trans ((if_neg ?_).trans (if_neg (ne_true_of_eq_false hclash))))
    rw [hwin]
    exact fun hno => Bool.false_ne_true hno.1

end Sys2Proof.Machine
end

section
/-! SUPPORT. Host messages that are not kept: those that the intake port answers itself (R102, R103, R122), and those without a credit
(R131, R135). -/

namespace Sys2Proof.Machine

/-! ### Messages that the intake port answers itself (R102, R103, R122) -/

/-- A speculative read is counted and its credit returned (R103). -/
theorem State.takeIn_specRd {s : State} {r : Req} {c : Nat} (h : r.form = .specRd) :
    s.takeIn r c = (s.bumpIp r.intake 3 32 32).returnCredit (r.host.getD 0) false := by
  unfold State.takeIn
  rw [h]

/-- A clean eviction in a plate window receives Cmp after its echo is released (R102, R394). -/
theorem State.takeIn_clnEvct_window {s : State} {r : Req} {c : Nat} (h : r.form = .clnEvct) (hw : r.plate.isSome = true) :
    s.takeIn r c = ((s.passEcho r c).send (.ndr r.intake (r.host.getD 0) c .cmp (s.ownLoad (r.host.getD 0)))).returnCredit (r.host.getD 0) false := by
  unfold State.takeIn
  rw [h]
  exact if_pos hw

section
variable {s : State} {r : Req} {c : Nat} (hf : r.fwd = false)
include hf

/-- A BIConflict of this block's own host port with no earlier response left at the port is acknowledged (R122). -/
theorem State.conflict_first (h : s.handed r.intake (r.host.getD 0) r.line = []) :
    s.conflict r c =
      (s.send (.conflictAck r.intake (r.host.getD 0) r.line (s.devLoad (s.homeSlice r.line) (r.host.getD 0)))).returnCredit (r.host.getD 0) false := by
  unfold State.conflict
  dsimp only
  rw [h, hf]
  rfl

/-- One behind responses of its host port and line is remembered with their tags (R122). -/
theorem State.conflict_behind (h : s.handed r.intake (r.host.getD 0) r.line ≠ []) :
    s.conflict r c = s.onIp r.intake fun p =>
      { p with acks := p.acks ++ [⟨r.host.getD 0, r.line, c, false, s.handed r.intake (r.host.getD 0) r.line⟩] } := by
  unfold State.conflict
  dsimp only
  rw [hf]
  exact if_neg (mt List.isEmpty_iff.mp h)
end

/-- Settles O9: a message that passed is taken in by its form; a BIConflict that stays here, by the responses left before it. -/
theorem unkeptHostMessagesAreAnsweredAtOnce : Obligations.UnkeptHostMessagesAreAnsweredAtOnce := by
  unfold Obligations.UnkeptHostMessagesAreAnsweredAtOnce
  refine ⟨fun m r => hostMessage_does (op := .memSpecRd) (data := 0) (be := 0) fun s h => ?specRd,
    fun m r => hostMessage_does (op := .biConflict) (data := 0) (be := 0) fun s h => ?conflictFirst,
    fun m r => hostMessage_does (op := .biConflict) (data := 0) (be := 0) fun s h => ?conflictBehind,
    fun m r => hostMessage_does (op := .biConflict) (data := 0) (be := 0) fun s h => ?conflictGoes,
    fun m r => hostMessage_does (op := .memClnEvct) (data := 0) (be := 0) fun s h => ?window⟩
  case specRd =>
    obtain ⟨hcredit, hpass, hform⟩ := h
    exact ⟨hcredit, (State.judge_pass hpass).trans (State.takeIn_specRd hform)⟩
  case conflictFirst =>
    obtain ⟨hcredit, hpass, hform, hstays, hnone⟩ := h
    exact ⟨hcredit, (State.judge_pass hpass).trans ((State.takeIn_biConf hform hstays).trans (State.conflict_first (State.check_pass_fwd hpass) hnone))⟩
  case conflictBehind =>
    obtain ⟨hcredit, hpass, hform, hstays, hsome⟩ := h
    exact ⟨hcredit, (State.judge_pass hpass).trans ((State.takeIn_biConf hform hstays).trans (State.conflict_behind (State.check_pass_fwd hpass) hsome))⟩
  case conflictGoes =>
    obtain ⟨hcredit, hpass, hform, hgoes⟩ := h
    exact ⟨hcredit, (State.judge_pass hpass).trans (State.takeIn_biConf_goes hform hgoes)⟩
  case window =>
    obtain ⟨hcredit, hpass, hform, hwin⟩ := h
    exact ⟨hcredit, (State.judge_pass hpass).trans (State.takeIn_clnEvct_window hform hwin)⟩

/-! ### Messages without a credit (R131, R135) -/

/-- A message for a host port that holds credits here and has none of the message's class left is an overrun (R131). -/
theorem State.arrive_overrun {s : State} {m : M2S} {op : ReqOp} {data : Line} {be : Quad} (hi : (s.ip m.port.val).halted = false)
    (hc : s.holdsCredits m.port.val m.host.val = true)
    (hspent : if opRwd op then (s.hp m.host.val).rwdCr ≤ (s.hp m.host.val).rwdUsed else (s.hp m.host.val).reqCr ≤ (s.hp m.host.val).reqUsed) :
    s.arrive { m with enc := none } op data be = (s.bumpIp m.port.val 0 0 64).overrun m.port.val m.host.val (opRwd op) m.offset.toNat :=
  (if_neg (ne_true_of_eq_false hi)).trans
    ((if_pos ((State.holds_of_hosts (State.bumpIp_hosts ..) _ _).trans hc)).trans (if_pos hspent))

/-- The event of an overrun leaves the partition that records it as it was (R135). -/
theorem State.overrunPart_raised (s : State) (i : Nat) (src kind loc p d h o : Nat) :
    ((s.bumpIp i 3 0 32).raise src kind loc p d).overrunPart h o = s.overrunPart h o :=
  State.overrunPart_of (by simp) (by simp) h o

/-- Settles O11: the overrun is counted and raised, and recorded where its offset lies in a partition of the host port. -/
theorem hostMessageWithoutCreditIsDiscarded : Obligations.HostMessageWithoutCreditIsDiscarded := by
  unfold Obligations.HostMessageWithoutCreditIsDiscarded
  rintro op m data be t s ⟨hi, hc, hspent⟩
  refine (host_exec ..).trans (congrArg Host.Outcome.next ((State.arrive_overrun hi hc hspent).trans ?_))
  unfold State.overrun
  dsimp only
  rw [State.overrunPart_raised]
  cases ((s.tick t).bumpIp m.port.val 0 0 64).overrunPart m.host.val m.offset.toNat with
  | none => rfl
  | some p => rfl

end Sys2Proof.Machine
end

section
/-! SUPPORT. The stages of a slice: arbitration, the lookups of the filter and the Granary, the notice, the release (R144 to R161, R244,
R393). -/

namespace Sys2Proof.Machine

/-- A kept response leaves when its slice has handed it over, its time has come, the block is not muted, and no BIConflict's
acknowledgement must go first (R122, R161). -/
theorem State.releasable {s : State} {i : Nat} {k : Kept} (hr : k.ready = true) (ht : k.after ≤ s.sliceNow k.slice) (hm : s.mute = false)
    (ha : (s.ip i).behindAck k = false) : (k.ready && k.after ≤ s.sliceNow k.slice && !s.mute && !(s.ip i).behindAck k) = true := by
  rw [hr, decide_eq_true ht, hm, ha]; rfl

section
variable {s : State} {t : Ns} {n : SliceId} {e : Nat} {err : Option (ArrayWord × WordFault)} {x y : Entry}
  (hx : (s.tick t).ent n.val e = some x) (hk : x.kind = .host)
include hx hk

/-- The filter's lookup, for a host's entry that waits for it and whose line is not in the spill, gives the entry the holder record of the way
that holds its sheaf, or takes it through a miss (R144, R154). -/
theorem filterLookupDone_awaited (hst : x.st = .lookup) (hd : x.fltDone = false) (hs : ((s.tick t).slc n.val).banks.inSpill x.req.line = false)
    (hy : ((s.tick t).meets err (Form.trans x.req.form)).ent n.val e = some y) :
    let u := (s.tick t).meets err (Form.trans x.req.form)
    exec (.filterLookupDone t n ⟨e, err⟩) s =
      .next (match ((u.slc n.val).banks.fltWay y.req.line).bind fun w => (u.slc n.val).banks.fltAt (fltSet y.req.line) w with
        | some f => (u.putEnt n.val e { y with fltDone := true, hrec := f.recOf (inSheaf y.req.line) }).serve n.val e
        | none => (u.fltMiss n.val e y).serve n.val e) := by
  dsimp only [exec, execFilterLookupDone]
  rw [hx]
  dsimp only
  rw [if_neg (by simp only [hk, hst, hd, hs, bne_self_eq_false, Bool.false_and]; decide), hy] <;> rfl

/-- The Granary's lookup, for a host's entry outside the windows that waits for it and whose tract is not frozen, is a miss or, where a way
holds its line, a hit (R244). -/
theorem granaryLookupDone_awaited (hf : x.fail = none) (hd : x.grnDone = false) (hp : ((s.tick t).slc n.val).banks.fillPending x.req.line = false)
    (hy : ((s.tick t).meets err (Form.trans x.req.form)).ent n.val e = some y)
    (hz : ((s.tick t).meets err (Form.trans x.req.form)).isFrozen (tractOf x.req.line) = false) (hw : y.req.plate = none) :
    let u := (s.tick t).meets err (Form.trans x.req.form)
    exec (.granaryLookupDone t n ⟨e, err⟩) s =
      .next (match (u.slc n.val).banks.grnFind x.req.line with
        | some k => match Tbl.find (u.slc n.val).banks.grn k with
          | some g => if g.st == .evicting && !formRead y.req.form then u else u.grnHit n.val e k y g
          | none => u
        | none => u.grnMiss n.val e y) := by
  dsimp only [exec, execGranaryLookupDone]
  rw [hx]
  dsimp only
  rw [if_neg (by simp only [hk, hf, hd, hp]; decide), hy, if_neg (ne_true_of_eq_false hz)]
  dsimp only [Option.getD_some]
  rw [hw] <;> rfl
end

/-- Settles O13: each stage by what it awaits; the lookups by hit or miss. -/
theorem sliceStagesAdvanceTheirRequest : Obligations.SliceStagesAdvanceTheirRequest := by
  unfold Obligations.SliceStagesAdvanceTheirRequest
  refine ⟨fun n i r t s h => ?arbitration, fun n e w err x y f t s h => ?filterHit, fun n e err x y t s h => ?filterMiss,
    fun n e k err x y g t s h => ?granaryHit, fun n e err x y t s h => ?granaryMiss, fun port n seq tag w k t s h => ?note,
    fun n seq t s h => rfl, fun n seq t s h => rfl, fun port tag k t s h => ?release⟩
  case arbitration =>
    obtain ⟨htakes, hsafe, hpick⟩ := h
    dsimp only [exec, execIntakeArbitration]
    refine congrArg Host.Outcome.next ((if_neg ?_).trans ?_)
    · rw [htakes, hsafe]
      exact not_or.mpr ⟨by decide, fun hno => Bool.false_ne_true hno.1⟩
    · rw [hpick]
  case filterHit =>
    obtain ⟨hx, hk, hst, hd, hs, hy, hway, hat⟩ := h
    rw [filterLookupDone_awaited hx hk hst hd hs hy, hway, Option.bind_some, hat]
  case filterMiss =>
    obtain ⟨hx, hk, hst, hd, hs, hy, hway⟩ := h
    rw [filterLookupDone_awaited hx hk hst hd hs hy, hway, Option.bind_none]
  case granaryHit =>
    obtain ⟨hx, hk, hf, hd, hp, hy, hz, hw, hfind, hg, hst⟩ := h
    rw [granaryLookupDone_awaited hx hk hf hd hp hy hz hw, hfind]
    dsimp only
    rw [hg]
    exact congrArg Host.Outcome.next (if_neg (by simp [hst]))
  case granaryMiss =>
    obtain ⟨hx, hk, hf, hd, hp, hy, hz, hw, hfind⟩ := h
    rw [granaryLookupDone_awaited hx hk hf hd hp hy hz hw, hfind]
  case note =>
    obtain ⟨hw, hk, hnote⟩ := h
    dsimp only [exec, execNoteAck]
    rw [hw, hk]
    dsimp only
    refine congrArg Host.Outcome.next (if_neg ?_)
    rw [hnote]; decide
  case release =>
    obtain ⟨hk, hr, ht, hm, ha⟩ := h
    dsimp only [exec, execIntakeResponseRelease]
    rw [hk]
    exact congrArg Host.Outcome.next (if_pos (State.releasable hr ht hm ha))

end Sys2Proof.Machine
end

section
/-! SUPPORT. The answers of the media: a codeword that a port returns, a write that it accepts or completes (R112, R191, R253, R340,
R520). -/

namespace Sys2Proof.Machine

section
variable {s : State} {t : Ns} {m : MediaId} {id : Nat} {cw : Codeword} {o : MOp} (ho : (s.tick t).op? m.val id = some o) (hw : o.write = false)
include ho hw

/-- What a media read returned goes to the request or the internal entry that asked for it, by the outcome of its decoding (R112, R520, R521). -/
theorem mediaReadReturn_issued :
    let u := (s.tick t).sendCw m.val o cw
    let g := u.decode m.val o cw u.laneCtl
    exec (.mediaReadReturn t m id cw) s = .next (match o.purp with
      | .read e => match g.1 with
        | .again => g.2.send (.media m.val o)
        | .ok c fixed acc => ((g.2.dropOp m.val id).hostGot o.slice e m.val o c fixed acc).pumpPort m.val
        | .lost => ((g.2.dropOp m.val id).hostLost o.slice e m.val o true).pumpPort m.val
      | .scrub e => match g.1 with
        | .again => g.2.send (.media m.val o)
        | .ok c fixed _ => (g.2.dropOp m.val id).intGot o.slice e m.val o c fixed
        | .lost => (g.2.dropOp m.val id).intLost o.slice e m.val o true
      | _ => u) := by
  dsimp only [exec, execMediaReadReturn]
  rw [ho]
  exact congrArg Host.Outcome.next (if_neg (ne_true_of_eq_false hw))

/-- The media read of a directory write: the outcome of its decoding decides, and whether the write still waits (R191, R192). -/
theorem mediaRmw_dirw {k : Nat} (hp : o.purp = .dirw k) :
    let g := ((s.tick t).sendCw m.val o cw).decode m.val o cw (s.tick t).laneCtl
    exec (.mediaRmw t m id cw) s = .next (match g.1 with
      | .again => g.2.send (.media m.val o)
      | .ok c _ _ => match g.2.dirw? o.slice k with
        | some d => (g.2.dropOp m.val id).rmwGot o.slice d c
        | none => g.2.dropOp m.val id
      | .lost => match g.2.dirw? o.slice k with
        | some d => (g.2.dropOp m.val id).rmwLost o.slice m.val d true
        | none => g.2.dropOp m.val id) := by
  dsimp only [exec, execMediaRmw]
  rw [ho]
  dsimp only
  rw [hw, hp] <;> rfl
end

/-- An accepted write that is complete leaves its port; the line that a drain or a write through wrote is clean (R253, R340). -/
theorem mediaWriteComplete_held {s : State} {t : Ns} {m : MediaId} {id : Nat} {o : MOp} (ho : (s.tick t).op? m.val id = some o) (hw : o.write = true)
    (ha : o.accepted = true) :
    let u := ((s.tick t).dropOp m.val id).onPends o.slice (fun w => w.line == o.line && o.holds.contains w.seq) fun w => { w with media := true }
    exec (.mediaWriteComplete t m id) s = .next ((((((match o.purp with
      | .through | .drain => u.cleanLine o.slice o
      | _ => u).sendMack m.val o true).settleUp o.slice).handTick o.slice).drainOver).pumpPort m.val) := by
  dsimp only [exec, execMediaWriteComplete]
  rw [ho]
  refine congrArg Host.Outcome.next (if_neg ?_)
  rw [hw, ha]; decide

/-- A media write is taken while the port holds fewer than 256, behind no earlier write of its line, in a block neither fail-safe nor halted
(R253, R605). -/
theorem State.mediaWrite_taken {s : State} {m : Nat} {o : MOp} (hw : o.write = true) (ha : o.accepted = false) (hn : (s.mp m).held < 256)
    (hb : (s.mp m).before o = false) (hf : s.win.failsafe = false) (hh : s.pwr.st ≠ .halt) :
    ¬(!o.write || o.accepted || 256 ≤ (s.mp m).held || (s.mp m).before o || (s.win.failsafe && !s.win.draining) || s.pwr.st == .halt) = true := by
  rw [hw, ha, decide_eq_false (Nat.not_le.mpr hn), hb, hf, beq_eq_false_iff_ne.mpr hh]
  exact Bool.false_ne_true

/-- Settles O15: a codeword by its purpose and by what decodes of it; a write by whether it can be taken, or by its purpose. -/
theorem mediaAnswersReachTheirRequest : Obligations.MediaAnswersReachTheirRequest := by
  unfold Obligations.MediaAnswersReachTheirRequest
  refine ⟨fun m id cw o e c f a t s h => ?readOk, fun m id cw o e t s h => ?readAgain, fun m id cw o e t s h => ?readLost,
    fun m id cw o e c f a t s h => ?scrubOk, fun m id cw o e t s h => ?scrubLost, fun m id cw o e t s h => ?scrubAgain,
    fun m id cw o k c f a d t s h => ?rmwOk, fun m id cw o k d t s h => ?rmwLost, fun m id cw o k t s h => ?rmwAgain,
    fun m id o t s h => ?accepted, fun m id o t s h => ?clean, fun m id o t s h => ?complete⟩
  case readOk | readAgain | readLost | scrubOk | scrubAgain | scrubLost =>
    obtain ⟨ho, hw, hp, hg⟩ := h
    rw [mediaReadReturn_issued ho hw, hp]
    dsimp only
    rw [hg]
  case rmwOk | rmwLost =>
    obtain ⟨ho, hw, hp, hg, hd⟩ := h
    rw [mediaRmw_dirw ho hw hp, hg]
    dsimp only
    rw [hd]
  case rmwAgain =>
    obtain ⟨ho, hw, hp, hg⟩ := h
    rw [mediaRmw_dirw ho hw hp, hg]
  case accepted =>
    obtain ⟨ho, hw, ha, hn, hb, hf, hh⟩ := h
    dsimp only [exec, execMediaWriteAccepted]
    rw [ho]
    exact congrArg Host.Outcome.next (if_neg (State.mediaWrite_taken hw ha hn hb hf hh))
  case clean =>
    obtain ⟨ho, hw, ha, hp⟩ := h
    rw [mediaWriteComplete_held ho hw ha]
    rcases hp with hp | hp <;> rw [hp]
  case complete =>
    obtain ⟨ho, hw, ha, hthrough, hdrain⟩ := h
    rw [mediaWriteComplete_held ho hw ha]
    cases hp : o.purp with
    | through => exact absurd hp hthrough
    | drain => exact absurd hp hdrain
    | _ => rfl

end Sys2Proof.Machine
end

section
/-! SUPPORT. The standard commands of the mailboxes (R136, R624, R637, R638, R713): the queries, and the writes of a partition. -/

namespace Sys2Proof.Machine

/-- The device of a partition's mailbox is its partition (R637; assumption log 13). -/
theorem devPart_partition {mb : Nat} (h : mb < 64) : devPart mb = some mb := if_pos h

/-- The management and the service mailbox are devices without a partition (R637; assumption log 13). -/
theorem devPart_block {mb : Nat} (h : 64 ≤ mb) : devPart mb = none := if_neg (Nat.not_lt.mpr h)

/-! ### Queries (R136, R624, R637, R638) -/

/-- Settles O48: each query by the first of its checks that fails, and by whether its mailbox is a partition's. -/
theorem mailboxQueriesAnswerTheirBytes : Obligations.MailboxQueriesAnswerTheirBytes := by
  unfold Obligations.MailboxQueriesAnswerTheirBytes
  refine ⟨.completes (fun t c s => ⟨_, _, rfl, rfl⟩) fun c s h => rfl, .completes (fun t c s => ⟨_, _, rfl, rfl⟩) fun c s h => rfl,
    .completes (fun t c s => ⟨_, _, rfl, rfl⟩) fun c s h => if_neg (Nat.not_lt.mpr h), .badField (fun t c s => ⟨_, _, rfl, rfl⟩) fun c s h => if_pos h,
    .completes (fun t c s => ⟨_, _, rfl, rfl⟩) fun c s h => rfl, .completes (fun t c s => ⟨_, _, rfl, rfl⟩) fun c s h => rfl,
    .completes (fun t c s => ⟨_, _, rfl, rfl⟩) fun c s h => rfl,
    .completes (fun t c s => ⟨_, _, rfl, rfl⟩) fun c s ⟨hcel, hin⟩ => (if_neg (not_not.mpr hcel)).trans (if_neg (Nat.not_lt.mpr hin)),
    .badField (fun t c s => ⟨_, _, rfl, rfl⟩) fun c s ⟨hcel, hout⟩ => (if_neg (not_not.mpr hcel)).trans (if_pos hout),
    .badField (fun t c s => ⟨_, _, rfl, rfl⟩) fun c s h => if_pos h,
    .completes (fun t c s => ⟨_, _, rfl, rfl⟩) fun c s h => ?deviceOfPart, .completes (fun t c s => ⟨_, _, rfl, rfl⟩) fun c s h => ?deviceOfBlock,
    .completes (fun t c s => ⟨_, _, rfl, rfl⟩) fun c s h => ?infoOfPart, .completes (fun t c s => ⟨_, _, rfl, rfl⟩) fun c s h => ?infoOfBlock,
    .completes (fun t c s => ⟨_, _, rfl, rfl⟩) fun c s h => rfl,
    .completes (fun t c s => ⟨_, _, rfl, rfl⟩) fun c s h => ?alertsOfBlock, .completes (fun t c s => ⟨_, _, rfl, rfl⟩) fun c s h => ?alertsOfPart,
    .completes (fun t c s => ⟨_, _, rfl, rfl⟩) fun c s h => ?shutdownOfPart, .refuses (fun t c s => ⟨_, _, rfl, rfl⟩) fun c s h => ?shutdownOfBlock,
    .completes (fun t c s => ⟨_, _, rfl, rfl⟩) fun c s h => ?label, .badField (fun t c s => ⟨_, _, rfl, rfl⟩) fun c s h => ?labelOutside,
    .badField (fun t c s => ⟨_, _, rfl, rfl⟩) fun c s h => ?labelLong, .refuses (fun t c s => ⟨_, _, rfl, rfl⟩) fun c s h => ?labelOfBlock,
    .completes (fun t c s => ⟨_, _, rfl, rfl⟩) fun c s h => ?poison, .refuses (fun t c s => ⟨_, _, rfl, rfl⟩) fun c s h => ?poisonOfBlock⟩
  case deviceOfPart =>
    dsimp only
    rw [devPart_partition h]
    dsimp only
    rw [State.freeBytes_part]
  case infoOfPart | alertsOfPart | shutdownOfPart | poison => rw [devPart_partition h]
  case deviceOfBlock | infoOfBlock | alertsOfBlock | shutdownOfBlock | labelOfBlock | poisonOfBlock => rw [devPart_block h]
  case label =>
    obtain ⟨hpart, hin, hlen⟩ := h
    rw [devPart_partition hpart]
    exact (if_neg (Nat.not_lt.mpr hin)).trans (if_neg (Nat.not_lt.mpr hlen))
  case labelOutside =>
    obtain ⟨hpart, hout⟩ := h
    rw [devPart_partition hpart]
    exact if_pos hout
  case labelLong =>
    obtain ⟨hpart, hin, hlong⟩ := h
    rw [devPart_partition hpart]
    exact (if_neg (Nat.not_lt.mpr hin)).trans (if_pos hlong)

/-! ### Writes (R134, R630, R637, R638, R713) -/

/-- SANITIZE and SECURE_ERASE of a DISABLED partition whose work is free start in the background (R629, R637). -/
theorem State.sanitizeStart_free {s : State} {mb : Nat} (hp : mb < 64) (hst : (s.part mb).st = .disabled) (hfree : s.bgHeld (.part mb) = false) :
    s.sanitizeStart mb = (.started (.sanitize mb) 0xFFFFFFFF, s) := by
  unfold State.sanitizeStart
  rw [devPart_partition hp]
  exact if_neg (not_or.mpr ⟨not_not.mpr hst, ne_true_of_eq_false hfree⟩)

/-- Of a partition in another state, or whose work is held, they are refused (R637). -/
theorem State.sanitizeStart_held {s : State} {mb : Nat} (hp : mb < 64) (h : (s.part mb).st ≠ .disabled ∨ s.bgHeld (.part mb) = true) :
    s.sanitizeStart mb = (.done 7 [], s) := by
  unfold State.sanitizeStart
  rw [devPart_partition hp]
  exact if_pos h

/-- On a mailbox without a partition they are not supported (R637). -/
theorem State.sanitizeStart_block {s : State} {mb : Nat} (h : 64 ≤ mb) : s.sanitizeStart mb = (.done 2 [], s) := by
  unfold State.sanitizeStart
  rw [devPart_block h]

/-- The address of CLEAR_POISON is a line of a partition that is not FREE (R713). -/
theorem State.poisonClearable {s : State} {p a : Nat} (ha : a % 64 = 0) (hin : a < (s.part p).dataLen * 64) (hst : (s.part p).st ≠ .free) :
    ¬(a % 64 ≠ 0 ∨ (s.part p).dataLen * 64 ≤ a ∨ (s.part p).st = .free) := by
  rintro (h | h | h)
  · exact h ha
  · omega
  · exact hst h

/-- Settles O49: each command by the first of its checks that fails, or by none failing. -/
theorem mailboxWritesOfThePartitionTakeEffect : Obligations.MailboxWritesOfThePartitionTakeEffect := by
  unfold Obligations.MailboxWritesOfThePartitionTakeEffect
  refine ⟨.completes (fun t c s => ⟨_, _, rfl, rfl⟩) fun c s h => rfl,
    .completes (fun t c s => ⟨_, _, rfl, rfl⟩) fun c s h => ?clearAll, .completes (fun t c s => ⟨_, _, rfl, rfl⟩) fun c s h => ?clearHandles,
    .badField (fun t c s => ⟨_, _, rfl, rfl⟩) fun c s h => ?clearUnknown, .badField (fun t c s => ⟨_, _, rfl, rfl⟩) fun c s h => ?clearNoLog,
    .badField (fun t c s => ⟨_, _, rfl, rfl⟩) fun c s h => if_pos h,
    .completes (fun t c s => ⟨_, _, rfl, rfl⟩) fun c s h => ?policy, .refuses (fun t c s => ⟨_, _, rfl, rfl⟩) fun c s h => ?policyService,
    fun i => .badField (fun t c s => ⟨_, _, rfl, rfl⟩) fun c s h => ?policyReserved, .refuses (fun t c s => ⟨_, _, rfl, rfl⟩) fun c s h => rfl,
    .completes (fun t c s => ⟨_, _, rfl, rfl⟩) fun c s h => ?alerts, .completes (fun t c s => ⟨_, _, rfl, rfl⟩) fun c s h => ?shutdown,
    .refuses (fun t c s => ⟨_, _, rfl, rfl⟩) fun c s h => ?alertsOfBlock, .badField (fun t c s => ⟨_, _, rfl, rfl⟩) fun c s h => if_pos h,
    .badField (fun t c s => ⟨_, _, rfl, rfl⟩) fun c s ⟨h0, h1⟩ => (if_neg (Nat.not_le.mpr h0)).trans (if_pos h1),
    .refuses (fun t c s => ⟨_, _, rfl, rfl⟩) fun c s h => ?shutdownOfBlock, .badField (fun t c s => ⟨_, _, rfl, rfl⟩) fun c s h => if_pos h,
    .refuses (fun t c s => ⟨_, _, rfl, rfl⟩) fun c s h => ?labelOfBlock, .badField (fun t c s => ⟨_, _, rfl, rfl⟩) fun c s h => ?labelOutside,
    .completes (fun t c s => ⟨_, _, rfl, rfl⟩) fun c s h => ?label, .completes (fun t c s => ⟨_, _, rfl, rfl⟩) fun c s h => ?labelMirrored,
    .waitsFor (fun t c s => ⟨_, _, rfl, rfl⟩) fun c s h => ?line, .waitsFor (fun t c s => ⟨_, _, rfl, rfl⟩) fun c s h => ?place,
    .badField (fun t c s => ⟨_, _, rfl, rfl⟩) fun c s h => ?lineOutside, .refuses (fun t c s => ⟨_, _, rfl, rfl⟩) fun c s h => ?lineOfBlock,
    .starts (fun t c s => ⟨_, _, rfl, rfl⟩) fun c s ⟨hpart, hst, hfree⟩ => State.sanitizeStart_free hpart hst hfree,
    .starts (fun t c s => ⟨_, _, rfl, rfl⟩) fun c s ⟨hpart, hst, hfree⟩ => State.sanitizeStart_free hpart hst hfree,
    .refuses (fun t c s => ⟨_, _, rfl, rfl⟩) fun c s ⟨hpart, hheld⟩ => State.sanitizeStart_held hpart hheld,
    .refuses (fun t c s => ⟨_, _, rfl, rfl⟩) fun c s ⟨hpart, hheld⟩ => State.sanitizeStart_held hpart hheld,
    .refuses (fun t c s => ⟨_, _, rfl, rfl⟩) fun c s h => State.sanitizeStart_block h,
    .refuses (fun t c s => ⟨_, _, rfl, rfl⟩) fun c s h => State.sanitizeStart_block h,
    fun opcode => .refuses (fun t c s => ⟨_, _, rfl, rfl⟩) fun c s h => rfl⟩
  case clearAll =>
    obtain ⟨hlog, hall⟩ := h
    exact (if_neg (by omega)).trans ((if_neg (by omega)).trans (if_pos hall))
  case clearHandles =>
    obtain ⟨hlog, hsome, hknown⟩ := h
    refine (if_neg (by omega)).trans ((if_neg (by omega)).trans ((if_neg (by omega)).trans ?_))
    rw [hknown]
  case clearUnknown =>
    obtain ⟨hlog, hsome, hunknown⟩ := h
    obtain ⟨x, hx⟩ := Option.isSome_iff_exists.mp hunknown
    refine (if_neg (by omega)).trans ((if_neg (by omega)).trans ((if_neg (by omega)).trans ?_))
    rw [hx]
  case clearNoLog =>
    obtain ⟨hflag, hno⟩ := h
    exact (if_neg (Nat.not_lt.mpr hflag)).trans (if_pos hno)
  case policy =>
    obtain ⟨hrsv, hmb⟩ := h
    rw [hrsv]
    exact if_neg hmb
  case policyService =>
    obtain ⟨hrsv, hmb⟩ := h
    rw [hrsv]
    exact if_pos hmb
  case policyReserved => rw [h]
  case alerts =>
    obtain ⟨h0, h1, hpart⟩ := h
    refine (if_neg (Nat.not_le.mpr h0)).trans ((if_neg (Nat.not_le.mpr h1)).trans ?_)
    rw [devPart_partition hpart]
  case alertsOfBlock =>
    obtain ⟨h0, h1, hblock⟩ := h
    refine (if_neg (Nat.not_le.mpr h0)).trans ((if_neg (Nat.not_le.mpr h1)).trans ?_)
    rw [devPart_block hblock]
  case shutdown =>
    obtain ⟨h0, hpart⟩ := h
    refine (if_neg (Nat.not_lt.mpr h0)).trans ?_
    rw [devPart_partition hpart]
  case shutdownOfBlock =>
    obtain ⟨h0, hblock⟩ := h
    refine (if_neg (Nat.not_lt.mpr h0)).trans ?_
    rw [devPart_block hblock]
  case labelOutside =>
    obtain ⟨hpart, hout⟩ := h
    rw [devPart_partition hpart]
    exact if_pos hout
  case label =>
    obtain ⟨hpart, hin, halone⟩ := h
    rw [devPart_partition hpart]
    exact (if_neg (Nat.not_lt.mpr hin)).trans (congrArg (Prod.mk _) (if_neg (ne_true_of_eq_false halone)))
  case labelMirrored =>
    obtain ⟨hpart, hin, htwin⟩ := h
    rw [devPart_partition hpart]
    exact (if_neg (Nat.not_lt.mpr hin)).trans (congrArg (Prod.mk _) (if_pos htwin))
  case line =>
    obtain ⟨hpart, ha, hin, hst, hroom⟩ := h
    rw [devPart_partition hpart]
    exact (if_neg (State.poisonClearable ha hin hst)).trans (if_pos hroom)
  case place =>
    obtain ⟨hpart, ha, hin, hst, hfull⟩ := h
    rw [devPart_partition hpart]
    exact (if_neg (State.poisonClearable ha hin hst)).trans (if_neg (ne_true_of_eq_false hfull))
  case lineOutside =>
    obtain ⟨hpart, hbad⟩ := h
    rw [devPart_partition hpart]
    exact if_pos hbad
  case lineOfBlock | labelOfBlock => rw [devPart_block h]

end Sys2Proof.Machine
end

section
/-! SUPPORT. The buddy's takeover of a fenced slice, the handover of a slice, the enable instant (R174, R175, R185, R187, R219, R221, R509,
R697). -/

namespace Sys2Proof.Machine

/-- With every marker, the persisted generation and the recall, the replay of a takeover that does not serve yet ends (R174). -/
theorem Cover.replayEnds {c : Cover} (hs : c.serving = false) (hd : c.dgDone = true) (hr : c.recalled = true) (hm : 16 ≤ c.markers.length) :
    ¬(c.serving || !c.dgDone || !c.recalled || c.markers.length < 16) = true := by
  rw [hs, hd, hr, decide_eq_false (Nat.not_lt.mpr hm)]; decide

/-- The end of a replay: the writes with acknowledged notices in the order of their sequences, then the others in their streams; with nothing to
replay the cover ends; then the ports open (R174, R175). -/
theorem endOfReplay_due {t : Ns} {n : SliceId} {s : State} {c : Cover} (hc : (s.tick t).coverOf n.val = some c) (hs : c.serving = false)
    (hd : c.dgDone = true) (hr : c.recalled = true) (hm : 16 ≤ c.markers.length) :
    let u := State.each (fun (r : Req) s => s.restream (buddy n.val) r) (c.replay.filter fun r => r.noted.isNone)
      (State.each (fun (r : Req) s => s.replayOne (buddy n.val) c r) ((c.replay.filter fun r => r.noted.isSome).foldl (fun l r => insertNoted r l) [])
        ((s.tick t).onCover n.val fun c => { c with serving := true }))
    exec (.endOfReplay t n) s = .next ((((if c.replay.isEmpty then u.onSlc (buddy n.val) fun x => { x with cover := none } else u).stopFor n.val false).completeAll
      (buddy n.val)).pumpCopies (buddy n.val)) := by
  dsimp only [exec, execEndOfReplay]
  rw [hc]
  exact congrArg Host.Outcome.next (if_neg (Cover.replayEnds hs hd hr hm))

/-- An enable instant that has come runs the pending enables of its slot; the slot is abandoned if the run met a stopped partition (R697). -/
theorem enableInstant_due {t : Ns} {k : SlotId} {s : State} {x : Slot} (hx : (s.tick t).toInstant.due k.val 6 = some x) :
    let r := State.enableRun 64 (x.param % 64) false (s.tick t).toInstant
    exec (.enableInstant t k) s = .next (if r.1 then r.2.endSlot k.val .abandoned 0 else r.2.slotDone k.val) := by
  dsimp only [exec, execEnableInstant]
  rw [hx]

/-- Settles O18: each stage of a takeover by the cover of its slice and by what that cover still awaits, a handover by the phases of the
slice and its buddy, an enable instant by whether its run met a stopped partition. -/
theorem buddyTakeoverStagesAndHandover : Obligations.BuddyTakeoverStagesAndHandover := by
  unfold Obligations.BuddyTakeoverStagesAndHandover
  refine ⟨fun n t s h => ?persisted, fun n t s h => ?noAdvance, fun n lines c t s h => ?returned, fun n c t s h => ?recallGap,
    fun port n c l t s h => ?replayList, fun n c t s h => ?replayed, fun n c t s h => ?nothingToReplay, fun n t s h => ?prepare,
    fun n t s h => congrArg Host.Outcome.next (if_pos h), fun n t s h => ?overrun, fun k x t s h => ?enabled, fun k x t s h => ?abandoned⟩
  case persisted => exact congrArg Host.Outcome.next (if_neg (Bool.not_not_eq.mpr h))
  case noAdvance => exact congrArg Host.Outcome.next (if_pos (by rw [h]; rfl))
  case returned =>
    obtain ⟨hc, hasked, hrecalled⟩ := h
    dsimp only [exec, execRecallReturn]
    rw [hc]
    exact congrArg Host.Outcome.next (if_neg (by rw [hasked, hrecalled]; decide))
  case recallGap =>
    obtain ⟨hc, hdue⟩ := h
    dsimp only [exec, execRecallGapTimeout]
    rw [hc]
    exact congrArg Host.Outcome.next (if_pos hdue)
  case replayList =>
    obtain ⟨hc, hmarker, rfl⟩ := h
    dsimp only [exec, execReplayList]
    rw [hc]
    exact congrArg Host.Outcome.next (if_neg (ne_true_of_eq_false hmarker))
  case replayed =>
    obtain ⟨hc, hserving, hpersisted, hrecalled, hmarkers, hreplay⟩ := h
    rw [endOfReplay_due hc hserving hpersisted hrecalled hmarkers, List.isEmpty_eq_false_iff.mpr hreplay]
    rfl
  case nothingToReplay =>
    obtain ⟨hc, hserving, hpersisted, hrecalled, hmarkers, hreplay⟩ := h
    rw [endOfReplay_due hc hserving hpersisted hrecalled hmarkers, hreplay]
    rfl
  case prepare =>
    obtain ⟨hbuddy, hslice⟩ := h
    exact congrArg Host.Outcome.next ((if_neg (not_not.mpr hbuddy)).trans (if_pos hslice))
  case overrun => exact congrArg Host.Outcome.next (if_pos (by simpa only [Bool.not_eq_true'] using h))
  case enabled =>
    obtain ⟨hx, hrun⟩ := h
    rw [enableInstant_due hx]
    exact congrArg Host.Outcome.next (if_neg (ne_true_of_eq_false hrun))
  case abandoned =>
    obtain ⟨hx, hrun⟩ := h
    rw [enableInstant_due hx]
    exact congrArg Host.Outcome.next (if_pos hrun)

end Sys2Proof.Machine
end

section
/-! SUPPORT. What Rachis carries: missing packets of a stream, credits, packed records, the answers of sinks, relays (R141, R486, R488,
R501, R507, R508, R548). -/

namespace Sys2Proof.Machine

/-- A packet that has not been asked for is asked for, once (R507). -/
theorem streamGapTimeout_first {t : Ns} {x : StreamRef} {s : State} (h : (s.tick t).resends.contains x = false) :
    exec (.streamGapTimeout t x) s = .next { (s.tick t).askAgain x with resends := (s.tick t).resends ++ [x] } :=
  congrArg Host.Outcome.next (if_neg (ne_true_of_eq_false h))

/-- A packing buffer whose first record is 20 ns old is due (R486). -/
theorem Pack.due {p : Pack} {now : Nat} (hr : p.recs ≠ []) (ho : p.since + 20 ≤ now) : (!p.recs.isEmpty && p.since + 20 ≤ now) = true := by
  rw [List.isEmpty_eq_false_iff.mpr hr, decide_eq_true ho]; rfl

/-- A packing buffer that is empty, or whose first record is younger, stays (R486). -/
theorem Pack.not_due {p : Pack} {now : Nat} (h : p.recs = [] ∨ now < p.since + 20) : (!p.recs.isEmpty && p.since + 20 ≤ now) = false := by
  rcases h with h | h
  · rw [h]; rfl
  · rw [decide_eq_false (Nat.not_le.mpr h), Bool.and_false]

/-- Settles O46: a missing packet by whether it has been asked for, a credit by whether it is in flight and by its kind, a packing buffer
by its records and their age, a sink's answer and a relay by whether their unit is fenced. -/
theorem rachisDeliversWhatItCarries : Obligations.RachisDeliversWhatItCarries := by
  unfold Obligations.RachisDeliversWhatItCarries
  refine ⟨fun i n k t s h => streamGapTimeout_first h, fun n k t s h => streamGapTimeout_first h, fun i k t s h => streamGapTimeout_first h,
    fun x t s h => congrArg Host.Outcome.next (if_pos h), fun i n k t s h => ?resendRequest, fun x t s h => ?resendTwin, fun x t s h => ?resendNone,
    fun i n t s h => ?streamCredit, fun src q t s h => ?eventCredit, fun x t s h => ?otherCredit, fun x t s h => ?noCredit,
    fun i t s h => congrArg Host.Outcome.next (if_pos (Pack.due h.1 h.2)), fun i t s h => congrArg Host.Outcome.next (if_pos (Pack.due h.1 h.2)),
    fun n t s h => congrArg Host.Outcome.next (if_pos (Pack.due h.1 h.2)),
    fun i t s h => congrArg Host.Outcome.next (if_neg (ne_true_of_eq_false (Pack.not_due h))),
    fun i n tag t s h => ?sinkIntake, fun n who t s h => ?sinkScratch, fun n x t s h => ?sinkOther, fun x t s h => ?sinkNone,
    fun m x t s h => congrArg Host.Outcome.next (if_neg (ne_true_of_eq_false h)), fun m x t s h => congrArg Host.Outcome.next (if_pos h)⟩
  case resendRequest | streamCredit | eventCredit | sinkIntake | sinkScratch =>
    exact congrArg Host.Outcome.next (if_neg (Bool.not_not_eq.mpr h))
  case resendNone | noCredit | sinkNone => exact congrArg Host.Outcome.next (if_pos (by rw [h]; rfl))
  case resendTwin =>
    obtain ⟨hx, hkind⟩ := h
    refine congrArg Host.Outcome.next ((if_neg (Bool.not_not_eq.mpr hx)).trans ?_)
    cases x with
    | req i n k => exact absurd rfl (hkind i n k)
    | twinSlice _ _ | twinIntake _ _ => rfl
  case otherCredit =>
    obtain ⟨hx, hstream, hevent⟩ := h
    refine congrArg Host.Outcome.next ((if_neg (Bool.not_not_eq.mpr hx)).trans ?_)
    cases x with
    | stream i n => exact absurd rfl (hstream i n)
    | event a b => exact absurd rfl (hevent a b)
    | _ => rfl
  case sinkOther =>
    obtain ⟨hf, ⟨k, rfl⟩ | ⟨k, rfl⟩⟩ := h
    all_goals exact congrArg Host.Outcome.next (if_neg (Bool.not_not_eq.mpr hf))

end Sys2Proof.Machine
end

section
/-! SUPPORT. The handshake of the twins: the table of R382 once both blocks agree on their pairing, what each of its rows enters, and the end of
SEEKING (R308, R382, R383, R411, R412, R457). -/

namespace Sys2Proof.Machine

/-! ### What a row of the table enters (R382, R411, R412) -/

theorem State.adoptAnchor_provisioned (s : State) (x : Handshake) : (s.adoptAnchor x).provisioned = s.provisioned := by
  unfold State.provisioned; rw [State.adoptAnchor_place]

/-- The source of a resynchronization whose handshake gave the serial that stands against `n`, the one of the pairing. -/
theorem State.toSource_eq (s : State) (x : Handshake) (both : Bool) (n : Nat) :
    s.toSource x both (x.serial.toNat != n) = (State.launchFwd (State.step9 (s.onTwin fun w =>
      { w with st := .resyncSource, split := if x.serial.toNat ≠ n ∨ x.rePaired = true then s.provisioned else w.split, stale := both,
               roles := if w.st = .seeking then w.owned else w.roles, lostAt := none, shake := none, refused := false, abdParts := 0 }))).armPair := by
  have hall : ((x.serial.toNat != n || x.rePaired) = true) = (x.serial.toNat ≠ n ∨ x.rePaired = true) := by rw [Bool.or_eq_true, bne_iff_ne]
  simp only [State.toSource, State.enterTwin, hall]

theorem State.toTarget_eq (s : State) (x : Handshake) :
    s.toTarget x = State.launchFwd (State.step9 (s.onTwin fun w =>
      { w with st := .resyncTarget, roles := 0, stale := true, toGet := if x.weReplaced = true ∨ w.rePaired = true then x.placed else x.marked, got := [],
               lostAt := none, shake := none, refused := false, abdParts := 0 })) := by
  simp only [State.toTarget, State.enterTwin, Bool.or_eq_true]

/-! ### The handshakes meet (R382, R411, R457) -/

theorem State.meet_refused {s : State} {x : Handshake} {p : Bool × Nat × Nat} (hst : s.twin.st = .seeking ∨ s.twin.st = .split)
    (hp : s.twin.pairing = some p) (hbad : x.pairNo.toNat ≠ p.2.2 ∨ x.mediaOk = false) :
    s.meet x = (s.onTwin fun w => { w with refused := w.st == .seeking }).raise (srcTwn 2) (256 + 382) 0 0 0 := by
  have hbad' : x.pairNo.toNat ≠ p.2.2 ∨ (!x.mediaOk) = true := by rwa [Bool.not_eq_true']
  unfold State.meet
  rcases hst with hst | hst
  all_goals
    rw [hst, hp]
    exact if_pos hbad'

/-- The rows of R382 in their order, for blocks that agree on pairing number and media. -/
theorem State.meet_agreed {s : State} {x : Handshake} {p : Bool × Nat × Nat} (hst : s.twin.st = .seeking ∨ s.twin.st = .split)
    (hp : s.twin.pairing = some p) (hno : x.pairNo.toNat = p.2.2) (hmedia : x.mediaOk = true) :
    s.meet x =
      if s.twin.tookOver = true then (s.adoptAnchor x).toSource x false (x.serial.toNat != p.2.1)
      else if x.takenOver = true then (s.adoptAnchor x).toTarget x
      else if s.twin.hasSplit = false ∧ x.split = false ∧ x.serial.toNat = p.2.1 ∧ x.weReplaced = false then
        { s.adoptAnchor x with dirGen := { s.dirGen with unclean := s.dirGen.unclean || x.unclean } }.enterTwin fun w =>
          { w with st := .paired, stale := false, rePaired := false }
      else if s.twin.hasSplit = true ∧ x.split = true then (s.adoptAnchor x).toSource x true (x.serial.toNat != p.2.1)
      else if s.twin.hasSplit = true ∨ (x.split = false ∧ x.serial.toNat ≠ p.2.1) then (s.adoptAnchor x).toSource x false (x.serial.toNat != p.2.1)
      else (s.adoptAnchor x).toTarget x := by
  have hok : ¬(x.pairNo.toNat ≠ p.2.2 ∨ (!x.mediaOk) = true) := by simp [hno, hmedia]
  unfold State.meet
  rcases hst with hst | hst
  all_goals
    rw [hst, hp]
    refine (if_neg hok).trans ?_
    simp only [State.adoptAnchor_twin, State.adoptAnchor_dirGen, Bool.and_eq_true, Bool.or_eq_true, Bool.not_eq_true', bne_iff_ne, bne_eq_false_iff_eq,
      and_assoc]

/-! ### TWIN_HANDSHAKE -/

/-- A SEEKING block that has its own directory decision meets the twin's handshake, and so does a SPLIT one (R382, R411). -/
theorem twinHandshake_meets {t : Ns} {x : Handshake} {s : State}
    (h : (s.tick t).frame.twin.st = .seeking ∧ (s.tick t).frame.twin.decided = true ∨ (s.tick t).frame.twin.st = .split) :
    exec (.twinHandshake t x) s = .next ((s.tick t).frame.meet x) := by
  dsimp only [exec, execTwinHandshake]
  rcases h with ⟨hst, hd⟩ | hst
  · rw [hst]; exact congrArg Host.Outcome.next (if_pos hd)
  · rw [hst]

/-- Settles O29: a handshake by whether the block meets it, then by the first row of R382 that applies; the timeout by whether it has come and
by the adapters' report. -/
theorem handshakeSetsTheTwinState : Obligations.HandshakeSetsTheTwinState := by
  unfold Obligations.HandshakeSetsTheTwinState
  refine ⟨fun x t s h => ?waits, fun x t s h => ?later, fun x p t s h => ?refused, fun x p t s h => ?survivor, fun x p t s h => ?taken,
    fun x p t s h => ?paired, fun x p t s h => ?bothSplit, fun x p t s h => ?source, fun x p t s h => ?target,
    fun t s h => ?timeout, fun t s h => ?timeoutTakes, fun t s h => ?timeoutRefused⟩
  case waits =>
    obtain ⟨hst, hd⟩ := h
    dsimp only [exec, execTwinHandshake]
    rw [hst]
    exact congrArg Host.Outcome.next (if_neg (ne_true_of_eq_false hd))
  case later =>
    dsimp only [exec, execTwinHandshake]
    rcases h with h | h | h
    all_goals rw [h]
  case refused =>
    obtain ⟨hst, hp, hbad⟩ := h
    rw [twinHandshake_meets hst, State.meet_refused (hst.imp_left And.left) hp hbad]
  case survivor =>
    obtain ⟨hst, hp, hno, hmedia, htook⟩ := h
    rw [twinHandshake_meets hst, State.meet_agreed (hst.imp_left And.left) hp hno hmedia, if_pos htook, State.toSource_eq, State.adoptAnchor_provisioned]
  case taken =>
    obtain ⟨hst, hp, hno, hmedia, htook, htaken⟩ := h
    rw [twinHandshake_meets hst, State.meet_agreed (hst.imp_left And.left) hp hno hmedia, if_neg (ne_true_of_eq_false htook), if_pos htaken, State.toTarget_eq]
  case paired =>
    obtain ⟨hst, hp, hno, hmedia, htook, htaken, hclean⟩ := h
    rw [twinHandshake_meets hst, State.meet_agreed (hst.imp_left And.left) hp hno hmedia, if_neg (ne_true_of_eq_false htook),
      if_neg (ne_true_of_eq_false htaken), if_pos hclean]
    rfl
  case bothSplit =>
    obtain ⟨hst, hp, hno, hmedia, htook, htaken, hhere, hthere⟩ := h
    rw [twinHandshake_meets hst, State.meet_agreed (hst.imp_left And.left) hp hno hmedia, if_neg (ne_true_of_eq_false htook),
      if_neg (ne_true_of_eq_false htaken), if_neg (by simp [hhere]), if_pos ⟨hhere, hthere⟩, State.toSource_eq, State.adoptAnchor_provisioned]
  case source =>
    obtain ⟨hst, hp, hno, hmedia, htook, htaken, hthere, hnew⟩ := h
    have hpaired : ¬((s.tick t).frame.twin.hasSplit = false ∧ x.split = false ∧ x.serial.toNat = p.2.1 ∧ x.weReplaced = false) := by
      rintro ⟨hhere, -, hserial, -⟩
      exact hnew.elim (ne_true_of_eq_false hhere) (absurd hserial)
    rw [twinHandshake_meets hst, State.meet_agreed (hst.imp_left And.left) hp hno hmedia, if_neg (ne_true_of_eq_false htook),
      if_neg (ne_true_of_eq_false htaken), if_neg hpaired, if_neg (by simp [hthere]), if_pos (hnew.imp_right (And.intro hthere)),
      State.toSource_eq, State.adoptAnchor_provisioned]
  case target =>
    obtain ⟨hst, hp, hno, hmedia, htook, htaken, hhere, hthere⟩ := h
    have hpaired : ¬((s.tick t).frame.twin.hasSplit = false ∧ x.split = false ∧ x.serial.toNat = p.2.1 ∧ x.weReplaced = false) := by
      rintro ⟨-, hsplit, -, hours⟩
      rcases hthere with h | ⟨-, h⟩
      · exact ne_true_of_eq_false hsplit h
      · exact ne_true_of_eq_false hours h
    have hsource : ¬((s.tick t).frame.twin.hasSplit = true ∨ (x.split = false ∧ x.serial.toNat ≠ p.2.1)) := by
      rintro (h | ⟨hsplit, hnew⟩)
      · exact ne_true_of_eq_false hhere h
      · rcases hthere with h | ⟨hserial, -⟩
        · exact ne_true_of_eq_false hsplit h
        · exact hnew hserial
    rw [twinHandshake_meets hst, State.meet_agreed (hst.imp_left And.left) hp hno hmedia, if_neg (ne_true_of_eq_false htook),
      if_neg (ne_true_of_eq_false htaken), if_neg hpaired, if_neg (by simp [hhere]), if_neg hsource, State.toTarget_eq]
  case timeout =>
    obtain ⟨hdue, hstays⟩ := h
    refine congrArg Host.Outcome.next ((if_pos (by simpa only [Bool.not_eq_true'] using hdue)).trans (if_neg ?_))
    rw [Bool.and_eq_true]
    rintro ⟨hdown, hen⟩
    exact hstays.elim (fun h => ne_true_of_eq_false h hdown) (fun h => ne_true_of_eq_false h hen)
  case timeoutTakes =>
    obtain ⟨hdue, hdown, hen⟩ := h
    exact congrArg Host.Outcome.next ((if_pos (by simpa only [Bool.not_eq_true'] using hdue)).trans (if_pos ((Bool.and_eq_true _ _).mpr ⟨hdown, hen⟩)))
  case timeoutRefused =>
    refine congrArg Host.Outcome.next (if_neg ?_)
    rintro ⟨-, -, -, hnot, -⟩
    rw [h] at hnot
    exact Bool.false_ne_true hnot

end Sys2Proof.Machine
end

section
/-! SUPPORT. The scrubs: the patrol's lines and passes, the words of the arrays, the ends of the lane recogniser's entries and of a lane's
steering (R223, R228, R524, R525, R538 to R540). -/

namespace Sys2Proof.Machine

/-! ### Patrol scrub (R538, R539) -/

/-- With a map entry of its tract and a free entry of the scrub share, the line is read unless a condition of the pass fails. -/
theorem patrolScrubLine_with {t : Ns} {n : SliceId} {line : BitVec 42} {s : State} {e : Quad} {k : Nat}
    (he : (s.tick t).mapEntry (tractOf line.toNat) = some e) (hk : (s.tick t).freeInt n.val .scrub = some k) :
    exec (.patrolScrubLine t n line) s = .next (
      if !(s.tick t).blk.patrolEn ∨ (s.tick t).homeSlice line.toNat ≠ n.val ∨ (s.tick t).fencedSlice n.val
          ∨ (s.tick t).scrubNext (sliceOf line.toNat) ≠ some (scrubPos line.toNat) ∨ (s.tick t).win.failsafe
          ∨ (((s.tick t).livePlaces n.val line.toNat).any fun p => (s.tick t).yields p.1 true) then s.tick t
      else (((s.tick t).openInt n.val k .scrub line.toNat (mePart e) false).readInt n.val k line.toNat).onPlace fun q =>
        { q with passAt := Tbl.set q.passAt (sliceOf line.toNat) (scrubPos line.toNat + 1) }) := by
  dsimp only [exec, execPatrolScrubLine]
  rw [he, hk]

/-- Without a map entry or without an entry of the scrub share nothing is read. -/
theorem patrolScrubLine_without {t : Ns} {n : SliceId} {line : BitVec 42} {s : State}
    (h : (s.tick t).mapEntry (tractOf line.toNat) = none ∨ (s.tick t).freeInt n.val .scrub = none) :
    exec (.patrolScrubLine t n line) s = .next (s.tick t) := by
  dsimp only [exec, execPatrolScrubLine]
  rcases h with h | h
  · rw [h]
  · rw [h]; cases (s.tick t).mapEntry (tractOf line.toNat) <;> rfl

/-! ### Array scrub (R540) -/

theorem arrayScrubWord_scrubbed {t : Ns} {w : ArrayWord} {f : WordFault} {s : State} (h : (s.tick t).scrubbed w = true) :
    exec (.arrayScrubWord t w f) s =
      .next ((((s.tick t).wakeFor w.kind.val w.unit.val).bumpStk ((s.tick t).duty (arrayStook w.kind.val w.unit.val)) 5 0 64).wordFault w f .mediaScrub) :=
  congrArg Host.Outcome.next (if_neg (by rw [h]; decide))

/-- Settles O36: a patrol line by whether its map entry and an entry of the scrub share are there, then by the conditions of the pass; a pass by
whether it is complete; an array word by whether it is scrubbed and by what it holds; a lane by its entries. -/
theorem scrubsReadTheirLinesAndWords : Obligations.ScrubsReadTheirLinesAndWords := by
  unfold Obligations.ScrubsReadTheirLinesAndWords
  refine ⟨fun n line e k t s h => ?line, fun n line t s h => ?noLine, fun t s h => ?pass, fun t s h => ?noPass,
    fun w t s h => arrayScrubWord_scrubbed h, fun w lost t s h => arrayScrubWord_scrubbed h, fun w t s h => arrayScrubWord_scrubbed h,
    fun w f t s h => congrArg Host.Outcome.next (if_pos (by rw [h]; rfl)), fun k m sym bit t s h => congrArg Host.Outcome.next (if_pos h),
    fun k m sym bit t s h => congrArg Host.Outcome.next (if_neg (ne_true_of_eq_false h)), fun m t s h => ?steered, fun m t s h => ?notSteered⟩
  case line =>
    obtain ⟨he, hk, hen, hhome, hfenced, hnext, hsafe, hyields⟩ := h
    rw [patrolScrubLine_with he hk, if_neg]
    simp only [hen, hhome, hfenced, hnext, hsafe, hyields, ne_eq, not_true_eq_false]; decide
  case noLine =>
    dsimp only at h
    cases he : (s.tick t).mapEntry (tractOf line.toNat) with
    | none => exact patrolScrubLine_without (.inl he)
    | some e =>
      cases hk : (s.tick t).freeInt n.val .scrub with
      | none => exact patrolScrubLine_without (.inr hk)
      | some k =>
        rw [patrolScrubLine_with he hk, if_pos]
        rcases h with hen | hhome | hnext | hyields | hnone | hfull
        · exact .inl (by rw [hen]; rfl)
        · exact .inr (.inl hhome)
        · exact .inr (.inr (.inr (.inl hnext)))
        · exact .inr (.inr (.inr (.inr (.inr hyields))))
        · rw [he] at hnone; cases hnone
        · rw [hk] at hfull; cases hfull
  case pass =>
    obtain ⟨hen, hbusy, hdone⟩ := h
    exact congrArg Host.Outcome.next (if_neg (by rw [hen, hbusy, hdone]; decide))
  case noPass => exact congrArg Host.Outcome.next (if_pos (by simpa only [Bool.not_eq_true'] using h))
  case steered => exact congrArg Host.Outcome.next (if_pos (by simpa only [Bool.not_eq_true'] using h))
  case notSteered =>
    refine congrArg Host.Outcome.next (if_neg ?_)
    rintro ⟨herase, hperm, hspare⟩
    rcases h with h | h | h
    · rw [h] at herase; cases herase
    · rw [h] at hperm; cases hperm
    · rw [h] at hspare; cases hspare

end Sys2Proof.Machine
end

section
/-! SUPPORT. Steps 8 and 9 of the start-up sequence: the directory decision, the generations, the refresh (R220 to R225, R607). -/

namespace Sys2Proof.Machine

theorem startupDirectoryDecision_due {t : Ns} {x : CloseInput} {s : State} (h8 : (s.tick t).pwr.step = 8) (hf : (s.tick t).pwr.fail = none) :
    let u := { s.tick t with dirGen := { (s.tick t).dirGen with close := x.closeValid, unclean := !x.closeValid } }.onTwin fun w =>
      { w with owned := x.roles, hasSplit := x.split.isSome, split := (x.split.getD []).map BitVec.toNat, decided := true, rePaired := x.rePaired }
    exec (.startupDirectoryDecision t x) s = .next (if (s.tick t).twin.st = .unpaired then u.step9
      else match (s.tick t).twin.shake with
        | some y => u.handshake.meet y
        | none => u.handshake) := by
  refine congrArg Host.Outcome.next (if_neg ?_)
  simp only [h8, hf]; decide

theorem startupGenerationAct_due {t : Ns} {x : GenInput} {s : State} (h9 : (s.tick t).pwr.step = 9) (hr : (s.tick t).pwr.refresh = false)
    (hf : (s.tick t).pwr.fail = none) (hx : x.readable = true) :
    let u := (s.tick t).startRecords x
    exec (.startupGenerationAct t x) s = .next (if !u.dirGen.unclean then u.applyQuiets.step10
      else if (List.range 128).any fun n => u.advLeft n = 0 then u.onPwr fun p => { p with refresh := true }
      else (State.each (fun n s => s.advanceDg n n) (List.range 128) u).applyQuiets.step10) := by
  refine congrArg Host.Outcome.next ((if_neg ?_).trans (if_neg ?_))
  · simp only [h9, hr, hf]; decide
  · rw [hx]; decide

/-- Settles O40: each command tests its step first; then the decision goes by the pairing and by whether the twin's handshake has come, the
generations by their records, the kind of the stop and the advances left. -/
theorem startUpReadsTheRecordsOfTheLastStop : Obligations.StartUpReadsTheRecordsOfTheLastStop := by
  unfold Obligations.StartUpReadsTheRecordsOfTheLastStop
  refine ⟨fun x t s h => ?unpaired, fun x t s h => ?alone, fun x y t s h => ?met, fun x t s h => congrArg Host.Outcome.next (if_pos h),
    fun x t s h => ?unreadable, fun x t s h => ?clean, fun x t s h => ?unclean, fun x t s h => ?noAdvance,
    fun x t s h => congrArg Host.Outcome.next (if_pos h), fun t s h => ?refresh, fun t s h => ?noRefresh⟩
  case unpaired =>
    obtain ⟨h8, hf, hst⟩ := h
    rw [startupDirectoryDecision_due h8 hf, if_pos hst]
  case alone =>
    obtain ⟨h8, hf, hst, hshake⟩ := h
    rw [startupDirectoryDecision_due h8 hf, if_neg hst, hshake]
  case met =>
    obtain ⟨h8, hf, hst, hshake⟩ := h
    rw [startupDirectoryDecision_due h8 hf, if_neg hst, hshake]
  case unreadable =>
    obtain ⟨h9, hr, hf, hx⟩ := h
    refine congrArg Host.Outcome.next ((if_neg ?_).trans (if_pos ?_))
    · simp only [h9, hr, hf]; decide
    · rw [hx]; rfl
  case clean =>
    obtain ⟨h9, hr, hf, hx, hclean⟩ := h
    rw [startupGenerationAct_due h9 hr hf hx, hclean]
    rfl
  case unclean =>
    obtain ⟨h9, hr, hf, hx, hunclean, hleft⟩ := h
    rw [startupGenerationAct_due h9 hr hf hx, hunclean, hleft]
    rfl
  case noAdvance =>
    obtain ⟨h9, hr, hf, hx, hunclean, hleft⟩ := h
    rw [startupGenerationAct_due h9 hr hf hx, hunclean, hleft]
    rfl
  case refresh =>
    obtain ⟨hr, hing, hf⟩ := h
    refine congrArg Host.Outcome.next (if_neg ?_)
    simp only [hr, hing, hf]; decide
  case noRefresh => exact congrArg Host.Outcome.next (if_pos (by simpa only [Bool.not_eq_true'] using h))

end Sys2Proof.Machine
end

section
/-! SUPPORT. The Granary and scratch: what commands can do to the scratch bytes and the OTP, ENERGY_OK and NCH_GRN_CTL, the accesses to scratch and
to the control pages (R263 to R274, R612, R616). -/

namespace Sys2Proof.Machine

/-! ### The canonical form and the frames (R269, R272, R612, R616) -/

/-- Whatever a command answers, its scratch is canonical where it was before. -/
theorem exec_keeps_scratchCanonical {i : Instr} {s u : State} (hs : s.scratchCanonical) (hu : exec i s = .next u) : u.scratchCanonical := by
  obtain ⟨v, hv, -, -, -, hcanon, -, -⟩ := exec_spine i s
  obtain rfl : v = u := Host.Outcome.next.inj (hv.symm.trans hu)
  exact hcanon hs

/-- Settles O4: an idle step changes nothing, and a command keeps the form by what it does to the spine. -/
theorem stepsKeepScratchCanonical : Obligations.StepsKeepScratchCanonical := by
  intro s u hs hu
  unfold step at hu
  cases hq : s.pending with
  | nil =>
    rw [hq] at hu
    exact Host.Outcome.next.inj hu ▸ hs
  | cons c rest =>
    rw [hq] at hu
    exact exec_keeps_scratchCanonical (s := { s with pending := rest }) hs hu

/-- Settles O5: the reset state lists no byte of scratch. -/
theorem resetScratchIsCanonical : Obligations.ResetScratchIsCanonical := rfl

/-- Settles O7: both frames are part of what a command does to the spine. -/
theorem onlyTheirCommandsChangeOtpAndScratch : Obligations.OnlyTheirCommandsChangeOtpAndScratch := by
  refine ⟨fun i s hi => ?otp, fun i s a hi => ?scratch⟩
  case otp =>
    obtain ⟨u, hu, -, -, hotp, -, -, -⟩ := exec_spine i s
    exact ⟨u, hu, hotp hi⟩
  case scratch =>
    obtain ⟨u, hu, -, -, -, -, hscratch, -⟩ := exec_spine i s
    exact ⟨u, hu, congrArg (cellGet · a) (hscratch hi)⟩

/-! ### ENERGY_OK and NCH_GRN_CTL (R263 to R266, R272, R274) -/

/-- Settles O20: ENERGY_OK by its level before, NCH_GRN_CTL by its one test of the slice and of the word. -/
theorem energyAndCarvedWaysOfTheGranary : Obligations.EnergyAndCarvedWaysOfTheGranary := by
  refine ⟨fun t s h => ?fall, fun t s h => ?rise, fun n v t s h => ?taken, fun n v t s h => ?ignored⟩
  case fall =>
    have hon : (s.tick t).pwr.energy = true := h
    exact congrArg Host.Outcome.next (if_neg (by rw [hon]; decide))
  case rise => exact congrArg Host.Outcome.next (if_neg (ne_true_of_eq_false h))
  case taken =>
    obtain ⟨hen, hquiesce, hfenced, hok⟩ := h
    exact congrArg Host.Outcome.next (if_neg (by simp only [hen, hquiesce, hfenced, hok]; decide))
  case ignored => exact congrArg Host.Outcome.next (if_pos (by simpa only [Bool.not_eq_true'] using h))

/-! ### Who accesses scratch (R92, R268, R271) -/

theorem State.scratchAlien_bar_member {s : State} {p : PartId} {q : HostId} (h : s.member q.val p.val = true) : s.scratchAlien (.bar p q) = none :=
  if_pos h

theorem State.scratchAlien_page_member {s : State} {p : PartId} {q : HostId} (h : s.member q.val p.val = true) : s.scratchAlien (.page p q) = none :=
  if_pos h

/-- An access within its limits lies in its region. -/
theorem scratchFits_bound {who : ScrWho} {off : BitVec 22} {size : Nat} (h : scratchFits who off.toNat size = true) : off.toNat + size ≤ 2 ^ 22 := by
  have hoff := off.isLt
  have aligned : ((size == 4 || size == 8) && off.toNat % size == 0) = true → off.toNat + size ≤ 2 ^ 22 := by
    simp only [Bool.and_eq_true, Bool.or_eq_true, beq_iff_eq]
    rintro ⟨rfl | rfl, hmod⟩ <;> omega
  have inLine : (decide (0 < size) && decide (off.toNat % 64 + size ≤ 64)) = true → off.toNat + size ≤ 2 ^ 22 := by
    simp only [Bool.and_eq_true, decide_eq_true_eq]
    omega
  cases who with
  | bar p q | page p q => exact aligned h
  | _ => exact inLine h

/-! ### Reads of scratch (R269 to R271) -/

section
variable {t : Ns} {who : ScrWho} {way : Fin 12} {off : BitVec 22} {size : Nat} {bad : List Nat} {s : State}

/-- A read from outside the partition's host set is counted and reads zero (R92). -/
theorem scratchRead_alien {p : Nat} (ha : (s.tick t).scratchAlien who = some p) :
    exec (.scratchRead t who way off ⟨size, bad⟩) s = .next (((s.tick t).bumpPart p 0 16 32).send (.scratch way.val off.toNat 0)) := by
  dsimp only [exec, execScratchRead]
  rw [ha]

/-- A read within its limits is answered from the copy that it takes, after the packets that carry the bytes (R269). -/
theorem scratchRead_served {w : Nat} (ha : (s.tick t).scratchAlien who = none) (hf : scratchFits who off.toNat size = true)
    (hcopy : (((s.tick t).scratchWay who way.val).bind fun k => (s.tick t).copyRead k off.toNat bad) = some w) :
    exec (.scratchRead t who way off ⟨size, bad⟩) s =
      .next (((s.tick t).scrPackets who w off.toNat size false (lineOf (cellsGet (s.tick t).scratch size (scratchKey w off.toNat))).toNat).send
        (.scratch way.val off.toNat (lineOf (cellsGet (s.tick t).scratch size (scratchKey w off.toNat))))) := by
  dsimp only [exec, execScratchRead]
  rw [ha]
  cases who with
  | page p q => cases hcopy
  | _ => simp only [hf, hcopy]; rfl

/-- A read within its limits that no copy can serve is refused (R270). -/
theorem scratchRead_refused (hp : ∀ p q, who ≠ .page p q) (ha : (s.tick t).scratchAlien who = none) (hf : scratchFits who off.toNat size = true)
    (hcopy : (((s.tick t).scratchWay who way.val).bind fun k => (s.tick t).copyRead k off.toNat bad) = none) :
    exec (.scratchRead t who way off ⟨size, bad⟩) s = .next ((s.tick t).scratchRefuse who false) := by
  dsimp only [exec, execScratchRead]
  rw [ha]
  cases who with
  | page p q => exact absurd rfl (hp p q)
  | _ => simp only [hf, hcopy]; rfl

/-- A read of a BAR of another size or alignment than R271 names is counted and reads zero (assumption log 56). -/
theorem scratchRead_odd {p : PartId} {q : HostId} (hm : (s.tick t).member q.val p.val = true) (hf : scratchFits (.bar p q) off.toNat size = false) :
    exec (.scratchRead t (.bar p q) way off ⟨size, bad⟩) s = .next (((s.tick t).bumpPart p.val 0 16 32).send (.scratch way.val off.toNat 0)) := by
  dsimp only [exec, execScratchRead]
  rw [State.scratchAlien_bar_member hm]
  simp only [hf]
  rfl

/-- A member's read of a control page answers its value (R703). -/
theorem scratchRead_page {p : PartId} {q : HostId} (hm : (s.tick t).member q.val p.val = true) :
    exec (.scratchRead t (.page p q) way off ⟨size, bad⟩) s =
      .next ((s.tick t).send (.scratch way.val off.toNat (BitVec.ofNat 512 ((s.tick t).pageValue p.val off.toNat size)))) := by
  dsimp only [exec, execScratchRead]
  rw [State.scratchAlien_page_member hm]
  simp only [State.pageAccess, State.pageRead, hm, if_true]
end

/-! ### Writes of scratch (R269 to R271) -/

section
variable {t : Ns} {who : ScrWho} {way : Fin 12} {off : BitVec 22} {size : Nat} {data : Line} {s : State}

/-- A write from outside the partition's host set is counted (R92). -/
theorem scratchWrite_alien {p : Nat} (ha : (s.tick t).scratchAlien who = some p) :
    exec (.scratchWrite t who way off size data) s = .next ((s.tick t).bumpPart p 0 16 32) := by
  dsimp only [exec, execScratchWrite]
  rw [ha]

/-- A write within its limits goes to the copies of its region that can be used, and is refused where there is none. -/
theorem scratchWrite_fits {k : Nat} (ha : (s.tick t).scratchAlien who = none) (hf : scratchFits who off.toNat size = true)
    (hw : (s.tick t).scratchWay who way.val = some k) :
    exec (.scratchWrite t who way off size data) s = .next (if (s.tick t).copiesAt k off.toNat = [] then (s.tick t).scratchRefuse who true
      else (State.each (fun w s => s.scrPackets who w off.toNat size true data.toNat) ((s.tick t).copiesAt k off.toNat) (s.tick t)).scratchPut
        ((s.tick t).copiesAt k off.toNat) off.toNat (leBytes size data.toNat)) := by
  dsimp only [exec, execScratchWrite]
  rw [ha]
  cases who with
  | page p q => cases hw
  | _ =>
    simp only [hf, hw, Option.map_some]
    cases (s.tick t).copiesAt k off.toNat <;> rfl

/-- A write within its limits, with a copy that can be used, stores its bytes in every such copy (R269). -/
theorem scratchWrite_stores {k : Nat} (ha : (s.tick t).scratchAlien who = none) (hf : scratchFits who off.toNat size = true)
    (hw : (s.tick t).scratchWay who way.val = some k) (hc : (s.tick t).copiesAt k off.toNat ≠ []) :
    exec (.scratchWrite t who way off size data) s =
      .next ((State.each (fun w s => s.scrPackets who w off.toNat size true data.toNat) ((s.tick t).copiesAt k off.toNat) (s.tick t)).scratchPut
        ((s.tick t).copiesAt k off.toNat) off.toNat (leBytes size data.toNat)) :=
  (scratchWrite_fits ha hf hw).trans (congrArg Host.Outcome.next (if_neg hc))

/-- A write of a BAR of another size or alignment than R271 names is counted (assumption log 56). -/
theorem scratchWrite_odd {p : PartId} {q : HostId} (hm : (s.tick t).member q.val p.val = true) (hf : scratchFits (.bar p q) off.toNat size = false) :
    exec (.scratchWrite t (.bar p q) way off size data) s = .next ((s.tick t).bumpPart p.val 0 16 32) := by
  dsimp only [exec, execScratchWrite]
  rw [State.scratchAlien_bar_member hm]
  simp only [hf]
  rfl

/-- A member's write of a control page is the page's own (R92). -/
theorem scratchWrite_page {p : PartId} {q : HostId} (hm : (s.tick t).member q.val p.val = true) :
    exec (.scratchWrite t (.page p q) way off size data) s = .next ((s.tick t).pageWrite q.val p.val off.toNat size) := by
  dsimp only [exec, execScratchWrite]
  rw [State.scratchAlien_page_member hm]
end

/-- A member's write to a read-only location of a control page, or to a part of the doorbell, is refused (R92). -/
theorem State.pageWrite_refused {s : State} {h p o size : Nat} (ho : o < 0x050 ∨ (o < 0x108 ∧ 0x100 < o + size ∧ ¬(o = 0x100 ∧ size = 8))) :
    s.pageWrite h p o size = s.refusePage p := by
  refine if_pos ?_
  simp only [Bool.or_eq_true, Bool.and_eq_true, Bool.not_eq_true', Bool.and_eq_false_iff, beq_eq_false_iff_ne, decide_eq_true_eq]
  omega

/-- A member's write beyond the doorbell of a control page is ignored (R22, R92). -/
theorem State.pageWrite_beyond {s : State} {h p o size : Nat} (hm : s.member h p = true) (ho : 0x108 ≤ o) : s.pageWrite h p o size = s := by
  refine if_neg ?_
  simp only [hm, Bool.not_true, Bool.false_or, Bool.or_eq_true, Bool.and_eq_true, decide_eq_true_eq]
  rintro (hlow | ⟨⟨hdoor, -⟩, -⟩) <;> omega

/-! ### The statement -/

/-- Settles O21: each access by who makes it, whether it fits its limits, and whether a copy can serve it; the bytes written and those
left by the laws of scratch writes. -/
theorem scratchAccessesReadAndWriteTheirBytes : Obligations.ScratchAccessesReadAndWriteTheirBytes := by
  refine ⟨fun who way off size bad k w t s h => ?read, fun who way off size data k t s h => ?write,
    fun t who way off size data s k a ha hf hw hc hout => ?frame,
    fun t who way off size data s k w i hcanon ha hf hw hmem hi => ?stored, fun _ _ _ _ _ _ _ _ h => scratchWrite_alien h,
    fun _ _ _ _ _ _ _ _ h => scratchRead_alien h, fun _ _ _ _ _ _ _ _ h => scratchWrite_odd h.1 h.2, fun _ _ _ _ _ _ _ _ h => scratchRead_odd h.1 h.2,
    fun way off size bad t s h => ?unread, fun p q way off size bad t s h => ?abort, fun _ _ _ _ _ _ _ _ hm => scratchRead_page hm,
    fun p q way off size data t s h => ?readOnly, fun p q way off size data t s h => ?beyond, fun way off size data t s h => ?unstored⟩
  case read =>
    obtain ⟨ha, hf, hw, hcopy⟩ := h
    exact scratchRead_served ha hf (by rw [hw, Option.bind_some, hcopy])
  case write =>
    obtain ⟨ha, hf, hw, hc⟩ := h
    exact scratchWrite_stores ha hf hw hc
  case frame =>
    refine ⟨_, scratchWrite_stores ha hf hw hc, ?_⟩
    rw [scratchPut_other]
    · unfold State.scratchByte
      rw [scrEach_scratch, State.tick_scratch]
    · rwa [leBytes_length]
  case stored =>
    refine ⟨_, scratchWrite_stores ha hf hw (List.ne_nil_of_mem hmem), scratchPut_same _ _ _ _ _ _ _ ?_ hmem hi (scratchFits_bound hf)⟩
    rw [scrEach_scratch, State.tick_scratch]
    exact hcanon
  case unread =>
    obtain ⟨hw, hf, hcopy⟩ := h
    exact scratchRead_refused nofun rfl hf (by rw [hw, Option.bind_some, hcopy])
  case abort =>
    obtain ⟨hm, hf, hpair⟩ := h
    have hw : (s.tick t).scratchWay (.bar p q) way.val = none := hpair
    exact scratchRead_refused nofun (State.scratchAlien_bar_member hm) hf (by rw [hw, Option.bind_none])
  case readOnly =>
    obtain ⟨hm, ho⟩ := h
    rw [scratchWrite_page hm, State.pageWrite_refused ho]
  case beyond =>
    obtain ⟨hm, ho⟩ := h
    rw [scratchWrite_page hm, State.pageWrite_beyond hm ho]
  case unstored =>
    obtain ⟨hw, hf, hc⟩ := h
    rw [scratchWrite_fits rfl hf hw, if_pos hc]
    rfl

end Sys2Proof.Machine
end

section
/-! SUPPORT. The time exchange with the twin, the notices of the domain, and its slots (R287 to R301). -/

namespace Sys2Proof.Machine

/-! ### The exchange with the twin (R288, R289) -/

section
variable {s : State}

/-- An exchange period that is not valid counts, as long as fewer than sixteen stand in a row (R289). -/
theorem State.exchangeBad_counts (h : s.mer.exchBad < 15) : s.exchangeBad = s.onMer fun m => { m with exchBad := m.exchBad + 1 } := by
  have hmin : min 16 (s.mer.exchBad + 1) = s.mer.exchBad + 1 := by omega
  unfold State.exchangeBad State.onMer
  dsimp only
  rw [hmin]
  exact if_neg (by omega)

/-- The sixteenth in a row ends the exchange, with its event (R289). -/
theorem State.exchangeBad_ends (h : 15 ≤ s.mer.exchBad) (he : s.mer.exch = true) :
    s.exchangeBad = (s.onMer fun m => { m with exchBad := 16, exch := false }).unsteered.raise (srcTwn 5) (256 + 289) 0 0 0 := by
  have hmin : min 16 (s.mer.exchBad + 1) = 16 := by omega
  unfold State.exchangeBad State.onMer
  dsimp only
  rw [hmin]
  exact if_pos ⟨rfl, he⟩

/-- A block whose link to the twin is down sends no message of the exchange. -/
theorem State.exchange_off (h : s.twin.linkUp = false ∨ s.twin.st = .unpaired) : ¬(s.twin.linkUp = true ∧ s.twin.st ≠ .unpaired) := by
  rintro ⟨hup, hst⟩
  rcases h with h | h
  · exact ne_true_of_eq_false h hup
  · exact hst h

/-- Without the exchange a block whose reference has been lost for less than 1 s keeps its state, but for HOLDOVER after TWIN_STEERED (R286, R287). -/
theorem State.unsteered_stays (h : s.mer.st ≠ .twinSteered ∨ s.holdMs < 1000) :
    s.unsteered = s.onMer fun m => { m with st := if m.st = .twinSteered then .holdover else m.st } := by
  by_cases hst : s.mer.st = .twinSteered
  · have hms : s.holdMs < 1000 := h.resolve_left (not_not.mpr hst)
    exact (if_pos hst).trans ((if_neg (Nat.not_le.mpr hms)).trans (congrArg (fun st => s.onMer fun m => { m with st := st }) (if_pos hst).symm))
  · exact (if_neg hst).trans (congrArg (fun st => s.onMer fun m => { m with st := st }) (if_neg hst).symm)

/-- A TWIN_STEERED block whose reference has been lost for 1 s is FREE (R286). -/
theorem State.unsteered_frees (hst : s.mer.st = .twinSteered) (h : 1000 ≤ s.holdMs) : s.unsteered = s.toFree :=
  (if_pos hst).trans (if_pos h)

/-- The sixteenth in a row of a block that the twin does not steer, or that lost its reference less than 1 s ago. -/
theorem State.exchangeBad_stays (h : 15 ≤ s.mer.exchBad) (he : s.mer.exch = true) (hst : s.mer.st ≠ .twinSteered ∨ s.holdMs < 1000) :
    s.exchangeBad = (s.onMer fun m =>
      { m with exchBad := 16, exch := false, st := if m.st = .twinSteered then .holdover else m.st }).raise (srcTwn 5) (256 + 289) 0 0 0 :=
  (State.exchangeBad_ends h he).trans (congrArg (fun u : State => u.raise (srcTwn 5) (256 + 289) 0 0 0) (State.unsteered_stays hst))

/-- The sixteenth in a row of a TWIN_STEERED block whose reference has been lost for 1 s. -/
theorem State.exchangeBad_frees (h : 15 ≤ s.mer.exchBad) (he : s.mer.exch = true) (hst : s.mer.st = .twinSteered) (hms : 1000 ≤ s.holdMs) :
    s.exchangeBad = (s.onMer fun m => { m with exchBad := 16, exch := false }).toFree.raise (srcTwn 5) (256 + 289) 0 0 0 :=
  (State.exchangeBad_ends h he).trans (congrArg (fun u : State => u.raise (srcTwn 5) (256 + 289) 0 0 0) (State.unsteered_frees hst hms))

/-! ### Notices (R291, R292, R308) -/

/-- Joining the domain leaves whether the block may take part in domain-scope operations. -/
theorem State.join_domainAble (s : State) (x : DomNotice) : (s.join x).mer.domainAble = s.mer.domainAble := by
  unfold Mer.domainAble
  rw [State.join_member, State.join_st]

/-- A notice at a member that is not the root (R291, R292, R300). -/
theorem domainNotice_member {t : Ns} {x : DomNotice} (hm : (s.tick t).mer.member = true) (hr : (s.tick t).mer.root = false) :
    exec (.domainNotice t x) s = .next (let v := ((s.tick t).join x).onMer fun m =>
        { m with sdom := min 4095 (max 40 x.sdom), noticeAt := (s.tick t).now, noticeLate := false, domSealed := max m.domSealed x.sealed }
      (State.each (fun (p : Fin 1024) s => s.withdraw p.val) x.withdraw
        (if x.ok && (s.tick t).mer.domainAble then v.onMer fun m => { m with domOk := true } else v.refuseDomain)).exposePlates) := by
  have hout : ¬(!(s.tick t).mer.member) = true := by rw [hm]; nofun
  refine congrArg Host.Outcome.next ((if_neg hout).trans ((if_neg (ne_true_of_eq_false hr)).trans ?_))
  rw [← State.join_domainAble (s.tick t) x]
  rfl

/-! ### Domain-scope slots (R299) -/

/-- A slot from the root that no slot here stands for takes an IDLE one when it passes the checks of R298, and goes to the twin or up the tree. -/
theorem State.armDown_arms {key j : Nat} {x : Slot} (hk : s.keySlot key = none) (hj : s.idleSlot (key % 16) = some j)
    (hc : s.armCheck x.kind 2 x.param x.time 10000 = none) :
    s.armDown key x = (let v := (s.onSlot j fun _ =>
        { x with scope := 2, arm := true, st := .armed, reason := 0, by' := .peer, peer := none, key := some key }).order { tag := j }
      let v := if x.kind = 2 then v.plateArm j x.param x.time else v
      if v.twin.st = .paired then v.toTwin (.slot j { v.slot j with key := some key }) else v.confUp key true) := by
  unfold State.armDown
  rw [hk]
  dsimp only
  rw [hj]
  dsimp only
  rw [hc]

/-- One without an IDLE slot, or that fails a check, is refused up the tree. -/
theorem State.armDown_refuses {key : Nat} {x : Slot} (hk : s.keySlot key = none)
    (h : s.idleSlot (key % 16) = none ∨ (s.armCheck x.kind 2 x.param x.time 10000).isSome = true) : s.armDown key x = s.confUp key false := by
  unfold State.armDown
  rw [hk]
  dsimp only
  cases hj : s.idleSlot (key % 16) with
  | none => rfl
  | some j =>
    obtain ⟨r, hr⟩ := Option.isSome_iff_exists.mp (h.resolve_left fun hn => nomatch hj.symm.trans hn)
    dsimp only
    rw [hr]

/-- A cancel from the root ends the slot that stands here for its key. -/
theorem State.cancelDown_found {key j : Nat} {asked : Bool} (hj : s.keySlot key = some j) :
    s.cancelDown key asked = (if s.twin.st = .paired then s.cancelTwin j asked else s).endSlot j .cancelled (cancelReason asked) := by
  unfold State.cancelDown
  rw [hj]
end

/-! ### The statement -/

/-- Settles O23: -/
theorem timeExchangesAndDomainNotices : Obligations.TimeExchangesAndDomainNotices := by
  unfold Obligations.TimeExchangesAndDomainNotices
  refine ⟨fun x t s h => ?exchange, fun x t s h => ?exchangeBad, fun x t s h => ?exchangeDown, fun t s h => ?bad, fun t s h => ?badDown,
    fun t s h => ?ends, fun t s h => ?endsFree, fun x t s h => ?notice, fun x t s h => ?noticeNot, fun x t s h => ?noticeRoot, fun t s h => ?late,
    fun s h => if_pos h, fun key kind param time t s h => ?rootSlot, fun key kind param time j t s h => ?slot, fun key kind param time j t s h => ?slotPlate,
    fun key kind param time j t s h => ?slotAgain, fun key kind param time t s h => ?slotNot, fun key j t s h => ?confirmPaired, fun key j t s h => ?confirmSolo,
    fun key j a t s h => ?cancelSolo, fun key j a t s h => ?cancelPaired, fun key a t s h => ?cancelRoot⟩
  case exchange =>
    obtain ⟨hup, hst, hv⟩ := h
    refine congrArg Host.Outcome.next ((if_neg ?_).trans (congrArg State.sendTime (if_pos hv)))
    rw [hup]; exact not_or.mpr ⟨nofun, hst⟩
  case exchangeBad =>
    obtain ⟨hup, hst, hv⟩ := h
    refine congrArg Host.Outcome.next ((if_neg ?_).trans (congrArg State.sendTime (if_neg (ne_true_of_eq_false hv))))
    rw [hup]; exact not_or.mpr ⟨nofun, hst⟩
  case exchangeDown => exact congrArg Host.Outcome.next (if_pos (by rwa [Bool.not_eq_true']))
  case bad =>
    obtain ⟨hb, hup⟩ := h
    dsimp only [exec, execTwinExchangeInvalid]
    rw [State.exchangeBad_counts hb]
    exact congrArg Host.Outcome.next (if_pos hup)
  case badDown =>
    obtain ⟨hb, hdown⟩ := h
    dsimp only [exec, execTwinExchangeInvalid]
    rw [State.exchangeBad_counts hb]
    exact congrArg Host.Outcome.next (if_neg (State.exchange_off hdown))
  case ends =>
    obtain ⟨hb, he, hdown, hst⟩ := h
    dsimp only [exec, execTwinExchangeInvalid]
    rw [State.exchangeBad_stays hb he hst]
    refine congrArg Host.Outcome.next (if_neg ?_)
    rw [State.raise_twin]
    exact State.exchange_off (.inl hdown)
  case endsFree =>
    obtain ⟨hb, he, hst, hms⟩ := h
    dsimp only [exec, execTwinExchangeInvalid]
    rw [State.exchangeBad_frees hb he hst hms]
  case notice =>
    obtain ⟨hm, hr, hok, hable⟩ := h
    rw [domainNotice_member hm hr, hok, hable]
    rfl
  case noticeNot =>
    obtain ⟨hm, hr, hno⟩ := h
    rw [domainNotice_member hm hr]
    dsimp only
    rw [if_neg]
    rcases hno with h | h <;> rw [h]
    · nofun
    · rw [Bool.and_false]; nofun
  case noticeRoot =>
    obtain ⟨hm, hr⟩ := h
    refine congrArg Host.Outcome.next ((if_neg ?_).trans (if_pos hr))
    rw [hm]; nofun
  case late =>
    obtain ⟨hm, hl, ht⟩ := h
    exact congrArg Host.Outcome.next (if_pos ⟨hm, (Bool.not_eq_true' _).mpr hl, ht⟩)
  case rootSlot => exact congrArg Host.Outcome.next ((if_neg nofun).trans (if_pos h))
  case slot =>
    obtain ⟨hk, hj, hc, hkind⟩ := h
    refine congrArg Host.Outcome.next ((if_pos rfl).trans ((State.armDown_arms hk hj hc).trans ?_))
    dsimp only
    rw [if_neg hkind]
  case slotPlate =>
    obtain ⟨hk, hj, hc, hkind⟩ := h
    refine congrArg Host.Outcome.next ((if_pos rfl).trans ((State.armDown_arms hk hj hc).trans ?_))
    dsimp only
    rw [if_pos hkind, hkind]
  case slotAgain =>
    obtain ⟨hk, hp⟩ := h
    dsimp only [exec, execDomainSlotReceive, State.armDown]
    rw [if_pos rfl, hk]
    exact congrArg Host.Outcome.next (if_pos hp)
  case slotNot =>
    obtain ⟨hk, hno⟩ := h
    exact congrArg Host.Outcome.next ((if_pos rfl).trans (State.armDown_refuses hk hno))
  case confirmPaired =>
    obtain ⟨hj, hst, hp⟩ := h
    dsimp only [exec, execDomainSlotConfirm, State.confirmDown]
    rw [hj]
    exact congrArg Host.Outcome.next ((if_pos hst).trans (if_pos hp))
  case confirmSolo =>
    obtain ⟨hj, hst, hp⟩ := h
    dsimp only [exec, execDomainSlotConfirm, State.confirmDown]
    rw [hj]
    exact congrArg Host.Outcome.next ((if_pos hst).trans (if_neg hp))
  case cancelSolo =>
    obtain ⟨hr, hj, hp⟩ := h
    refine congrArg Host.Outcome.next ((if_neg (ne_true_of_eq_false hr)).trans ((State.cancelDown_found hj).trans ?_))
    rw [if_neg hp]
  case cancelPaired =>
    obtain ⟨hr, hj, hp⟩ := h
    refine congrArg Host.Outcome.next ((if_neg (ne_true_of_eq_false hr)).trans ((State.cancelDown_found hj).trans ?_))
    rw [if_pos hp]
    rfl
  case cancelRoot => exact congrArg Host.Outcome.next (if_pos h)

end Sys2Proof.Machine
end

section
/-! SUPPORT. The instant slots (R294 to R305): arming and ending, and the twin's part in them. -/

namespace Sys2Proof.Machine

/-- INSTANT_ARM of a slot that passes the checks of R298 arms it, under the key of its scope, and sends it the way of its scope (R297 to R299). -/
theorem instantArm_armed {t : Ns} {k : SlotId} {s : State} {key : Option Nat} (ha : ((s.tick t).slot k.val).arm = false)
    (hc : (s.tick t).armCheck ((s.tick t).slot k.val).kind ((s.tick t).slot k.val).scope ((s.tick t).slot k.val).param ((s.tick t).slot k.val).time
      (leadNs ((s.tick t).slot k.val).scope) = none)
    (hkey : (if ((s.tick t).slot k.val).scope = 2 then some ((s.tick t).domId * 16 + k.val) else none) = key) :
    exec (.instantArm t k) s = .next (let x := (s.tick t).slot k.val
      let v := (s.tick t).onSlot k.val fun _ => { x with arm := true, st := .armed, reason := 0, by' := .register, peer := none, key := key }
      let v := (if x.kind = 2 then v.plateArm k.val x.param x.time else v).order { tag := k.val }
      if x.scope = 1 then v.toTwin (.slot k.val { x with by' := .register, peer := none, key := none })
      else if x.scope = 2 then if v.mer.root then v.rootTake (v.slotKey k.val) (v.slot k.val) else v.send (.rootSlot (v.slotKey k.val) (v.slot k.val) v.eps)
      else v) := by
  subst hkey
  exact congrArg Host.Outcome.next (armSlot_ok _ _ ha hc)

/-- A slot of the twin that no domain-scope slot here stands for is a new one (R298, R299). -/
theorem receivedKey_none {s : State} {scope : Nat} {key : Option Nat} (h : scope = 2 → key.bind s.keySlot = none) :
    (if scope = 2 then key.bind s.keySlot else none) = none := by
  split
  · exact h ‹_›
  · rfl

/-- The cancel of a slot in both blocks leaves who waits for what. -/
theorem State.cancelTwin_waitOf (s : State) (k : Nat) (asked : Bool) (w : Wait) : (s.cancelTwin k asked).waitOf w = s.waitOf w := by
  unfold State.waitOf State.cancelTwin
  rw [State.toTwin_mbx]

/-- Settles O24: arming by the checks of R298 and the scope, the end of a slot by its own state, a slot of the twin by whether one stands for it
here, an answer by the scope of its slot. -/
theorem instantSlotsAreArmedConfirmedAndEnded : Obligations.InstantSlotsAreArmedConfirmedAndEnded := by
  unfold Obligations.InstantSlotsAreArmedConfirmedAndEnded
  refine ⟨fun k x t s h => ?armBlock, fun k x t s h => ?armTwin, fun k x t s h => ?armDomain, fun k x r t s h => ?armNot, fun k t s h => ?armed,
    fun k t s h => congrArg Host.Outcome.next (if_pos h), fun k t s h => ?disarmNot,
    fun k kind scope param time key j t s h => ?receive, fun k kind scope param time key t s h => ?receiveNot, fun k kind param time key j t s h => ?receiveAgain,
    fun k x t s h => ?ack, fun k x t s h => ?refuse, fun k j t s h => ?confirmed, fun k x t s h => ?ackDomain, fun k x t s h => ?refuseDomain,
    fun k x t s h => ?deadlineTwin, fun k x t s h => ?deadlineDomain, fun s k hs hw => ?unconfirmed, fun k j a t s h => ?cancelSent, fun k a t s h => ?cancelOwn⟩
  case armBlock =>
    obtain ⟨rfl, ha, hs, hc⟩ := h
    refine (instantArm_armed ha ?_ (if_neg (by omega))).trans (congrArg Host.Outcome.next ((if_neg (by omega)).trans (if_neg (by omega))))
    rw [hs] at hc ⊢; exact hc
  case armTwin =>
    obtain ⟨rfl, ha, hs, hc⟩ := h
    refine (instantArm_armed ha ?_ (if_neg (by omega))).trans (congrArg Host.Outcome.next (if_pos hs))
    rw [hs] at hc ⊢; exact hc
  case armDomain =>
    obtain ⟨rfl, ha, hs, hc⟩ := h
    refine (instantArm_armed ha ?_ (if_pos hs)).trans (congrArg Host.Outcome.next ((if_neg (by omega)).trans (if_pos hs)))
    rw [hs] at hc ⊢; exact hc
  case armNot =>
    obtain ⟨rfl, ha, hc⟩ := h
    exact congrArg Host.Outcome.next (armSlot_no _ _ ha hc)
  case armed => exact congrArg Host.Outcome.next (if_pos h)
  case disarmNot =>
    obtain ⟨ha, he⟩ := h
    exact congrArg Host.Outcome.next ((if_neg (ne_true_of_eq_false he)).trans (if_pos ha))
  case receive =>
    obtain ⟨hnew, hj, hc⟩ := h
    dsimp only [exec, execTwinSlotReceive]
    rw [receivedKey_none hnew, hj]
    refine congrArg Host.Outcome.next (if_neg ?_)
    rw [hc]; nofun
  case receiveNot =>
    obtain ⟨hnew, hno⟩ := h
    dsimp only [exec, execTwinSlotReceive]
    rw [receivedKey_none hnew]
    cases hj : (s.tick t).frame.idleSlot k.val with
    | none => rfl
    | some j =>
      rcases hno with hidle | hbad
      · exact nomatch hj.symm.trans hidle
      · exact congrArg Host.Outcome.next (if_pos hbad)
  case receiveAgain =>
    have hj : (if (2 : BitVec 2).toNat = 2 then ((some key).map Fin.val).bind (s.tick t).frame.keySlot else none) = some j := h
    dsimp only [exec, execTwinSlotReceive]
    rw [hj]
  case ack =>
    obtain ⟨rfl, ha, hst, hs⟩ := h
    exact congrArg Host.Outcome.next (if_pos ⟨ha, hst, hs⟩)
  case refuse =>
    obtain ⟨rfl, ha, hst, hs⟩ := h
    exact congrArg Host.Outcome.next (if_pos ⟨ha, hst, hs⟩)
  case confirmed =>
    obtain ⟨hj, hst⟩ := h
    dsimp only [exec, execTwinSlotAck]
    rw [hj]
    exact congrArg Host.Outcome.next (if_pos hst)
  case ackDomain =>
    obtain ⟨rfl, ha, hst, hs⟩ := h
    exact congrArg Host.Outcome.next ((if_neg (by omega)).trans (if_pos ⟨ha, hst, hs⟩))
  case refuseDomain =>
    obtain ⟨rfl, ha, hst, hs⟩ := h
    exact congrArg Host.Outcome.next ((if_neg (by omega)).trans (if_pos ⟨ha, hst, hs⟩))
  case deadlineTwin =>
    obtain ⟨rfl, ha, hst, hs, ht⟩ := h
    refine congrArg Host.Outcome.next (if_pos ⟨ha, hst, by omega, ?_⟩)
    rwa [if_pos hs]
  case deadlineDomain =>
    obtain ⟨rfl, ha, hst, hs, ht⟩ := h
    refine congrArg Host.Outcome.next (if_pos ⟨ha, hst, by omega, ?_⟩)
    rwa [if_neg (by omega)]
  case unconfirmed =>
    unfold State.unconfirmed
    dsimp only
    rw [if_pos hs, State.cancelTwin_waitOf, hw]
  case cancelSent =>
    dsimp only [exec, execSlotCancelReceive]
    rw [h]
  case cancelOwn =>
    obtain ⟨ha, he⟩ := h
    refine congrArg Host.Outcome.next (if_pos ?_)
    rw [ha, he]; rfl

end Sys2Proof.Machine
end

section
/-! SUPPORT. Epochs and seals (R306 to R314). -/

namespace Sys2Proof.Machine

/-- A stook controller's report reaches the Meridian unit, and the block-sealed and pair-sealed epochs follow (R312, R313). -/
def State.stookReport (s : State) (k : Nat) : State :=
  let v := s.packet (.stook (s.duty k)) .meridian 0x72 { tag := k }
  let v := v.onMer fun m => { m with stkSeals := Tbl.set m.stkSeals k (v.stookSeal k) }
  (v.onMer fun m => { m with blkSealed := v.blockSeal }).pairSeal

theorem State.stookReport_twin (s : State) (k : Nat) : (s.stookReport k).twin = s.twin :=
  (State.pairSeal_twin _).trans (s.packet_twin ..)

theorem State.stookReport_member (s : State) (k : Nat) : (s.stookReport k).mer.member = s.mer.member := by
  have hpacket : (s.packet (.stook (s.duty k)) .meridian 0x72 { tag := k }).mer.member = s.mer.member := congrArg Mer.member (s.packet_mer ..)
  exact (State.pairSeal_member _).trans hpacket

/-- A block outside a domain reports to nobody. -/
theorem State.reportUp_alone {s : State} (h : s.mer.member = false) : s.reportUp = s :=
  if_pos ((Bool.not_eq_true' _).mpr h)

/-- What a stook controller's report does: after the seals, the news to the twin of a whole pair and the report up the tree (R313). -/
theorem sealConfirm_stook (t : Ns) (k : StookId) (s : State) :
    exec (.sealConfirm t (.stook k)) s = .next (let v := (s.tick t).stookReport k.val
      (if v.twin.st = .paired then v.toTwin (.blockSealed v.mer.blkSealed) else v).reportUp) := rfl

/-- Settles O25: a stook's report by whether the pair is whole and whether the block is a member, a barrier's confirmation by whether the slice
has served its part; each other command does what it does in every state of its statement. -/
theorem epochsAreNumberedSealedAndPersisted : Obligations.EpochsAreNumberedSealedAndPersisted := by
  unfold Obligations.EpochsAreNumberedSealedAndPersisted
  refine ⟨fun t s _ => rfl, fun k x t s h => ?length, fun n t s _ => rfl, fun k t s h => ?stook, fun k t s h => ?stookPaired, fun k t s h => ?stookMember,
    fun n id b t s h => ?barrier, fun n id t s h => ?barrierNot, fun id t s _ => rfl, fun b e d able t s h => congrArg Host.Outcome.next (if_pos h),
    fun b key ok d t s h => congrArg Host.Outcome.next (if_pos h), fun b key d t s h => congrArg Host.Outcome.next (if_pos h), fun e t s _ => rfl, fun t s _ => rfl⟩
  case length =>
    dsimp only [exec, execEpochLenInstant]
    rw [h]
  case stook =>
    obtain ⟨hp, hm⟩ := h
    rw [sealConfirm_stook]
    dsimp only
    rw [if_neg (by rwa [State.stookReport_twin]), State.reportUp_alone ((State.stookReport_member _ _).trans hm)]
    rfl
  case stookPaired =>
    obtain ⟨hp, hm⟩ := h
    rw [sealConfirm_stook]
    dsimp only
    rw [if_pos (by rwa [State.stookReport_twin]), State.reportUp_alone]
    · rfl
    · rw [State.toTwin_mer, State.stookReport_member, hm]
  case stookMember => exact sealConfirm_stook t k s
  case barrier =>
    obtain ⟨hb, hserved⟩ := h
    dsimp only [exec, execSealConfirm]
    rw [hb]
    exact congrArg Host.Outcome.next (if_pos hserved)
  case barrierNot =>
    dsimp only [exec, execSealConfirm]
    cases hb : (s.tick t).bar? id with
    | none => rfl
    | some b => exact congrArg Host.Outcome.next (if_neg (ne_true_of_eq_false (h b hb)))

end Sys2Proof.Machine
end

section
/-! SUPPORT. Instants at their time (R294, R303): what each kind does when its slot is due. -/

namespace Sys2Proof.Machine

/-! ### CAPACITY (R429, R434, R468, R469) -/

/-- A media port joins the pool with its data area FREE, when it is enabled and not there already (R429, R468). -/
def State.portJoins (m : Nat) (s : State) : State :=
  if (s.mp m).present || !(s.mp m).enable then s
  else s.onMp m fun q => { q with present := true, dataTracts := q.size - q.deviceTracts, ledger := [], writes := 0, traffic := 0, past := [], overRounds := 0 }

/-- What a media port holds is not read where a background command is looked for. -/
theorem State.bgOf_onMp (s : State) (m : Nat) (f : MPort → MPort) (p : Bg → Bool) : (s.onMp m f).bgOf p = s.bgOf p := rfl

section
variable {s : State} {m : Nat}

/-- A port that is enabled and not there joins with its data area FREE. -/
theorem State.portJoins_absent (hp : (s.mp m).present = false) (he : (s.mp m).enable = true) :
    s.portJoins m = s.onMp m fun q =>
      { q with present := true, dataTracts := q.size - q.deviceTracts, ledger := [], writes := 0, traffic := 0, past := [], overRounds := 0 } := by
  refine if_neg ?_
  rw [hp, he]; decide

/-- A port that is there already, or is not enabled, does not join. -/
theorem State.portJoins_not (h : (s.mp m).present = true ∨ (s.mp m).enable = false) : s.portJoins m = s := by
  refine if_pos ?_
  rwa [Bool.or_eq_true, Bool.not_eq_true']
end

/-- The other port of a map pair is another port (R434). -/
theorem pairPort_ne (m : Nat) : m ^^^ 1 ≠ m := by
  rcases m.even_or_odd with h | h
  · rw [Nat.xor_one_of_even h]; omega
  · have := h.pos
    rw [Nat.xor_one_of_odd h]; omega

section
variable {t : Ns} {k : SlotId} {s : State} {x : Slot} (hx : (s.tick t).toInstant.due k.val 8 = some x)
include hx

/-- At a CAPACITY instant a port that is not draining joins, a map port with the other port of its pair. -/
theorem capacityInstant_joins (hd : ((s.tick t).toInstant.mp (x.param % 32)).draining = false) :
    exec (.capacityInstant t k) s = .next ((if ((s.tick t).toInstant.mp (x.param % 32)).mapPort
      then ((s.tick t).toInstant.portJoins (x.param % 32)).portJoins (x.param % 32 ^^^ 1)
      else (s.tick t).toInstant.portJoins (x.param % 32)).slotDone k.val) := by
  dsimp only [exec, execCapacityInstant]
  rw [hx]
  exact congrArg (fun u : State => Host.Outcome.next (u.slotDone k.val)) (if_neg (ne_true_of_eq_false hd))

/-- A data port joins alone. -/
theorem capacityInstant_joins_data (hd : ((s.tick t).toInstant.mp (x.param % 32)).draining = false)
    (hm : ((s.tick t).toInstant.mp (x.param % 32)).mapPort = false) :
    exec (.capacityInstant t k) s = .next (((s.tick t).toInstant.portJoins (x.param % 32)).slotDone k.val) := by
  rw [capacityInstant_joins hx hd, if_neg (ne_true_of_eq_false hm)]
end

/-! ### The statement -/

/-- Settles O26: each kind by whether its slot is due, then by what its own rules ask. -/
theorem instantsActOnceAtTheirTime : Obligations.InstantsActOnceAtTheirTime := by
  unfold Obligations.InstantsActOnceAtTheirTime
  refine ⟨fun k x t s h => ?plate, fun k x t s h => ?snapshot, fun k x t s h => ?snapshotClear, fun k x t s h => ?mode, fun k x t s h => ?modeStart,
    fun k x t s h => ?commit, fun k x t s h => ?role, fun k x t s h => ?roleOld, fun k x t s h => ?roleNot, fun k x mb t s h => ?removeFor,
    fun k x t s h => ?remove, fun k x t s h => ?add, fun k x t s h => ?addPair, fun k x t s h => ?addNot, fun k x t s h => ?pair, fun k x t s h => ?pairNot,
    fun k t s h => ?plateNone, fun k t s h => ?snapshotNone, fun k t s h => ?modeNone, fun k t s h => ?commitNone, fun k t s h => ?roleNone,
    fun k t s h => ?capacityNone, fun k t s h => ?pairNone⟩
  case plate =>
    dsimp only [exec, execPlateExposeInstant]
    rw [h]
  case snapshot =>
    obtain ⟨hx, hp⟩ := h
    dsimp only [exec, execSnapshotInstant]
    rw [hx]
    dsimp only
    rw [hp]
    rfl
  case snapshotClear =>
    obtain ⟨hx, hp⟩ := h
    dsimp only [exec, execSnapshotInstant]
    rw [hx]
    dsimp only
    rw [hp]
    rfl
  case mode =>
    obtain ⟨hx, hno⟩ := h
    dsimp only [exec, execRachisModeInstant]
    rw [hx]
    refine congrArg (fun u : State => Host.Outcome.next (u.slotDone k.val)) (if_neg ?_)
    rintro ⟨hs, hf⟩
    exact hno.elim (· hs) (· (Option.isNone_iff_eq_none.mp hf))
  case modeStart =>
    obtain ⟨hx, hs, hf⟩ := h
    dsimp only [exec, execRachisModeInstant]
    rw [hx]
    refine congrArg (fun u : State => Host.Outcome.next (u.slotDone k.val)) (if_pos ⟨hs, Option.isNone_iff_eq_none.mpr hf⟩)
  case commit =>
    dsimp only [exec, execTractCommitInstant]
    rw [h]
  case role =>
    obtain ⟨hx, hp, ho⟩ := h
    dsimp only [exec, execRoleMoveInstant]
    rw [hx]
    refine congrArg Host.Outcome.next ((if_neg (not_not.mpr hp)).trans ((if_neg (ne_true_of_eq_false ho)).trans ?_))
    rw [ho]
  case roleOld =>
    obtain ⟨hx, hp, ho⟩ := h
    dsimp only [exec, execRoleMoveInstant]
    rw [hx]
    refine congrArg Host.Outcome.next ((if_neg (not_not.mpr hp)).trans ((if_pos ho).trans ?_))
    rw [ho]
  case roleNot =>
    obtain ⟨hx, hp⟩ := h
    dsimp only [exec, execRoleMoveInstant]
    rw [hx]
    exact congrArg Host.Outcome.next (if_pos hp)
  case removeFor =>
    obtain ⟨hx, hd, hb⟩ := h
    dsimp only [exec, execCapacityInstant]
    rw [hx]
    refine congrArg (fun u : State => Host.Outcome.next (u.slotDone k.val)) ((if_pos hd).trans ?_)
    rw [State.bgOf_onMp, hb]
  case remove =>
    obtain ⟨hx, hd, hb⟩ := h
    dsimp only [exec, execCapacityInstant]
    rw [hx]
    refine congrArg (fun u : State => Host.Outcome.next (u.slotDone k.val)) ((if_pos hd).trans ?_)
    rw [State.bgOf_onMp, hb]
  case add =>
    obtain ⟨hx, hd, hm, hp, he⟩ := h
    rw [capacityInstant_joins_data hx hd hm, State.portJoins_absent hp he]
  case addPair =>
    obtain ⟨hx, hd, hm, hp, he, hother⟩ := h
    rw [capacityInstant_joins hx hd, if_pos hm, State.portJoins_absent hp he, State.portJoins_not]
    exact .inl ((congrArg MPort.present (State.mp_onMp_other _ _ _ _ (pairPort_ne _))).trans hother)
  case addNot =>
    obtain ⟨hx, hd, hm, hno⟩ := h
    rw [capacityInstant_joins_data hx hd hm, State.portJoins_not hno]
  case pair =>
    obtain ⟨hx, hr⟩ := h
    dsimp only [exec, execPairInstant]
    rw [hx]
    refine congrArg (fun u : State => Host.Outcome.next (u.slotDone k.val)) ((if_pos hr).trans ?_)
    exact congrArg State.launchFwd (if_congr beq_iff_eq rfl rfl)
  case pairNot =>
    obtain ⟨hx, hs, ht⟩ := h
    dsimp only [exec, execPairInstant]
    rw [hx]
    exact congrArg (fun u : State => Host.Outcome.next (u.slotDone k.val)) (if_neg (not_or.mpr ⟨hs, ht⟩))
  case plateNone => dsimp only [exec, execPlateExposeInstant]; rw [h]
  case snapshotNone => dsimp only [exec, execSnapshotInstant]; rw [h]
  case modeNone => dsimp only [exec, execRachisModeInstant]; rw [h]
  case commitNone => dsimp only [exec, execTractCommitInstant]; rw [h]
  case roleNone => dsimp only [exec, execRoleMoveInstant]; rw [h]
  case capacityNone => dsimp only [exec, execCapacityInstant]; rw [h]
  case pairNone => dsimp only [exec, execPairInstant]; rw [h]

end Sys2Proof.Machine
end

section
/-! SUPPORT. Heat and the rounds of Heliostat (R325, R444 to R451). -/

namespace Sys2Proof.Machine

/-- Counting the overloaded rounds leaves the enable of Heliostat's moves. -/
theorem State.countOver_helio (s : State) (w : Nat) : (s.onPlace fun q => { q with round := w }).countOver.place.helio = s.place.helio :=
  (congrArg Place.helio (State.countOver_place (s.onPlace _))).trans rfl

/-- Settles O34: the window and the round by whether their multiple of the time has been counted already, the cold scan by whether it is
enabled and finds a page, the round by whether moves are enabled. -/
theorem heatIsGatheredAndRoundsAreMade : Obligations.HeatIsGatheredAndRoundsAreMade := by
  unfold Obligations.HeatIsGatheredAndRoundsAreMade
  refine ⟨fun k x t s _ => rfl, fun t s h => congrArg Host.Outcome.next (if_neg (Nat.not_le.mpr h)), fun t s h => congrArg Host.Outcome.next (if_pos h),
    fun t s h => ?scanOff, fun t s h => ?scanNothing, fun l g t s h => ?scan, fun t s h => ?roundOff, fun t s h => ?round,
    fun t s h => congrArg Host.Outcome.next (if_pos h)⟩
  case scanOff => exact congrArg Host.Outcome.next (if_pos ((Bool.not_eq_true' _).mpr h))
  case scanNothing =>
    obtain ⟨he, hp⟩ := h
    refine congrArg Host.Outcome.next ((if_neg ?_).trans ?_)
    · rw [he]; decide
    · rw [hp]; rfl
  case scan =>
    obtain ⟨he, hp⟩ := h
    refine congrArg Host.Outcome.next ((if_neg ?_).trans ?_)
    · rw [he]; decide
    · rw [hp, List.getLast?_concat]
  case roundOff =>
    obtain ⟨hw, hh⟩ := h
    refine congrArg Host.Outcome.next ((if_neg (Nat.not_le.mpr hw)).trans ?_)
    have hoff := (State.countOver_helio (s.tick t) ((s.tick t).now / 10000000)).trans hh
    exact congrArg (fun u : State => u.armBatch.armRemoval.drainLeft.armPair.rollRound) (if_neg (ne_true_of_eq_false hoff))
  case round =>
    obtain ⟨hw, hh⟩ := h
    refine congrArg Host.Outcome.next ((if_neg (Nat.not_le.mpr hw)).trans ?_)
    have hon := (State.countOver_helio (s.tick t) ((s.tick t).now / 10000000)).trans hh
    exact congrArg (fun u : State => u.armBatch.armRemoval.drainLeft.armPair.rollRound) (if_pos hon)

end Sys2Proof.Machine
end

section
/-! SUPPORT. The mailbox commands of plates (R646, R647) and those that arrange an instant (R640). -/

namespace Sys2Proof.Machine

/-- A served command completes with the status that its own rules find, with no output and no DETAIL (R625). -/
theorem MbxDoes.ends {i : Ns → Mbx → Instr} {H : Mbx → State → Prop} {body : Mbx → State → Reply × State} {st : Mbx → State → Nat} {u : Mbx → State → State}
    (hx : ∀ t c s, ∃ op k, (i t c).mailbox = some (t, c, op, k) ∧ exec (i t c) s = .next ((s.tick t).command c op k (body c)))
    (hb : ∀ c s, H c s → body c s = (.done (st c s) [], u c s)) : MbxDoes i H fun c s => (u c s).mbxDone c.mb.val (st c s) [] 0xFFFFFFFF :=
  .of_body hx hb

/-! ### Plates (R646, R647) -/

/-- A group command with its number, its action and its count in range answers what follows the checks of its fields (R646). -/
theorem groupFields_inRange {α : Type} {x₁ x₂ x₃ y : α} {g a act n len : Nat} (hg : g ≤ 63) (ha : a = act) (h1 : 1 ≤ n) (h2 : n ≤ 64)
    (hl : len = 4 + 2 * n) :
    (if 63 < g then x₁ else if a ≠ act then x₂ else if n < 1 ∨ 64 < n ∨ len ≠ 4 + 2 * n then x₃ else y) = y :=
  (if_neg (by omega)).trans <| (if_neg (not_not.mpr ha)).trans (if_neg (by omega))

/-- No entry of a group is out of range, and none repeats. -/
theorem groupEntries_ok {far rep : Bool} (hf : far = false) (hr : rep = false) : ¬(far = true ∨ rep = true) := by
  subst hf hr; decide

/-- A domain member whose domain is in order changes a group that nothing holds (R315, R646). -/
theorem groupChange_ok {member domOk held : Bool} (hm : member = true) (hd : domOk = true) (hh : held = false) :
    ¬((!member) = true ∨ (!domOk) = true ∨ held = true) := by
  subst hm hd hh; decide

theorem groupChange_not {member domOk held : Bool} (h : member = false ∨ domOk = false ∨ held = true) :
    (!member) = true ∨ (!domOk) = true ∨ held = true := by
  simpa only [Bool.not_eq_true'] using h

/-- Settles O52: each command by the first of its checks that fails, or by none failing; the release of a plate by the plate's state. -/
theorem plateCommandsBindReleaseAndGroup : Obligations.PlateCommandsBindReleaseAndGroup := by
  unfold Obligations.PlateCommandsBindReleaseAndGroup
  refine ⟨.completes (fun t c s => ⟨_, _, rfl, rfl⟩) fun c s h => ?bind, .refuses (fun t c s => ⟨_, _, rfl, rfl⟩) fun c s h => ?bindNot,
    .badField (fun t c s => ⟨_, _, rfl, rfl⟩) fun c s h => if_pos h, .badField (fun t c s => ⟨_, _, rfl, rfl⟩) fun c s h => ?bindWindow,
    .completes (fun t c s => ⟨_, _, rfl, rfl⟩) fun c s h => ?unbind, .refuses (fun t c s => ⟨_, _, rfl, rfl⟩) fun c s h => if_pos (Option.isNone_iff_eq_none.mpr h),
    fun x => .starts (fun t c s => ⟨_, _, rfl, rfl⟩) fun c s h => ?release, fun x => .ends (fun t c s => ⟨_, _, rfl, rfl⟩) fun c s h => ?releaseArmed,
    .refuses (fun t c s => ⟨_, _, rfl, rfl⟩) fun c s h => ?releaseNone, fun x => .refuses (fun t c s => ⟨_, _, rfl, rfl⟩) fun c s h => ?releaseNot,
    .badField (fun t c s => ⟨_, _, rfl, rfl⟩) fun c s h => if_pos h,
    .completes (fun t c s => ⟨_, _, rfl, rfl⟩) fun c s h => ?name, .refuses (fun t c s => ⟨_, _, rfl, rfl⟩) fun c s h => ?nameNot,
    .badField (fun t c s => ⟨_, _, rfl, rfl⟩) fun c s h => ?nameEntries,
    .completes (fun t c s => ⟨_, _, rfl, rfl⟩) fun c s h => ?dissolve, .refuses (fun t c s => ⟨_, _, rfl, rfl⟩) fun c s h => ?dissolveNot,
    .badField (fun t c s => ⟨_, _, rfl, rfl⟩) fun c s h => ?dissolveEntries, .completes (fun t c s => ⟨_, _, rfl, rfl⟩) fun c s h => rfl⟩
  case bind =>
    obtain ⟨hj, hw, hexp, hfree, hun⟩ := h
    refine (if_neg (Nat.not_lt.mpr hj)).trans ((if_neg (Nat.not_le.mpr hw)).trans (if_neg ?_))
    rw [hexp, hfree, hun]; decide
  case bindNot =>
    obtain ⟨hj, hw, hno⟩ := h
    refine (if_neg (Nat.not_lt.mpr hj)).trans ((if_neg (Nat.not_le.mpr hw)).trans (if_pos ?_))
    rwa [Bool.not_eq_true']
  case bindWindow =>
    obtain ⟨hj, hw⟩ := h
    exact (if_neg (Nat.not_lt.mpr hj)).trans (if_pos hw)
  case unbind =>
    refine if_neg ?_
    rw [Option.isNone_iff_eq_none]
    exact Option.isSome_iff_ne_none.mp h
  case release =>
    obtain ⟨hj, hx, hun, hst⟩ := h
    refine (if_neg (Nat.not_lt.mpr hj)).trans ?_
    rw [hx]
    refine (if_neg ?_).trans ?_
    · rw [hun]; nofun
    · rw [hst]
  case releaseArmed =>
    obtain ⟨hj, hx, hun, hst⟩ := h
    refine (if_neg (Nat.not_lt.mpr hj)).trans ?_
    rw [hx]
    refine (if_neg ?_).trans ?_
    · rw [hun]; nofun
    · rw [hst]
  case releaseNone =>
    obtain ⟨hj, hx⟩ := h
    refine (if_neg (Nat.not_lt.mpr hj)).trans ?_
    rw [hx]
  case releaseNot =>
    obtain ⟨hj, hx, hno⟩ := h
    refine (if_neg (Nat.not_lt.mpr hj)).trans ?_
    rw [hx]
    by_cases hw : ((s.part (mbByte c 0)).windowOf (mbByte c 1)).isSome = true
    · exact if_pos hw
    · refine (if_neg hw).trans ?_
      rcases hno with hbound | hst | hst | hst
      · exact absurd hbound hw
      all_goals rw [hst]
  case name =>
    obtain ⟨hg, ha, h1, h2, hl, hfar, hrep, hm, hd, hheld⟩ := h
    exact (groupFields_inRange hg ha h1 h2 hl).trans ((if_neg (groupEntries_ok hfar hrep)).trans (if_neg (groupChange_ok hm hd hheld)))
  case nameNot =>
    obtain ⟨hg, ha, h1, h2, hl, hfar, hrep, hno⟩ := h
    exact (groupFields_inRange hg ha h1 h2 hl).trans ((if_neg (groupEntries_ok hfar hrep)).trans (if_pos (groupChange_not hno)))
  case nameEntries =>
    obtain ⟨hg, ha, h1, h2, hl, hbad⟩ := h
    exact (groupFields_inRange hg ha h1 h2 hl).trans (if_pos hbad)
  case dissolve =>
    obtain ⟨hg, ha, h1, h2, hl, hfar, hrep, hm, hd, hheld⟩ := h
    exact (groupFields_inRange hg ha h1 h2 hl).trans ((if_neg (groupEntries_ok hfar hrep)).trans (if_neg (groupChange_ok hm hd hheld)))
  case dissolveNot =>
    obtain ⟨hg, ha, h1, h2, hl, hfar, hrep, hno⟩ := h
    exact (groupFields_inRange hg ha h1 h2 hl).trans ((if_neg (groupEntries_ok hfar hrep)).trans (if_pos (groupChange_not hno)))
  case dissolveEntries =>
    obtain ⟨hg, ha, h1, h2, hl, hbad⟩ := h
    exact (groupFields_inRange hg ha h1 h2 hl).trans (if_pos hbad)

/-! ### Commands that arrange an instant (R640, R646, R649, R652, R654) -/

section
variable {s : State} {mb kind scope param inst : Nat}

/-- With no IDLE slot the command answers 0x08 (R640). -/
theorem State.instCmd_full (h : s.anySlot = none) : s.instCmd mb kind scope param inst = (.done 8 [], s) := by
  unfold State.instCmd
  rw [h]

section
variable {k : Nat} (hk : s.anySlot = some k)
include hk

/-- A slot that is armed answers at once at block scope, and waits at another (R640). -/
theorem State.instCmd_armed {u : State}
    (h : (s.onSlot k fun _ => ⟨kind, scope, false, .idle, 0, param, s.instTime kind scope inst, .mailbox mb, none, none⟩).armSlot k (leadNs scope) = (none, u)) :
    s.instCmd mb kind scope param inst = (if scope = 0 then .done 0 (u.instReply k) else .wait (.slot k), u) := by
  unfold State.instCmd
  rw [hk]
  dsimp only
  rw [h]
  exact (apply_ite (fun r => (r, u)) (scope = 0) _ _).symm

/-- A slot that is rejected answers with its status, and its REASON in DETAIL (R640). -/
theorem State.instCmd_rejected {u : State} {st : Nat}
    (h : (s.onSlot k fun _ => ⟨kind, scope, false, .idle, 0, param, s.instTime kind scope inst, .mailbox mb, none, none⟩).armSlot k (leadNs scope) = (some st, u)) :
    s.instCmd mb kind scope param inst = (.detail st (u.slot k).reason, u) := by
  unfold State.instCmd
  rw [hk]
  dsimp only
  rw [h]
end
end

/-- PLATE_EXPOSE from a mailbox that may name its partition or group, with every field in range, answers what follows the checks of its fields. -/
theorem exposeFields_inRange {α : Type} {g : Prop} [Decidable g] {x₁ x₂ x₃ x₄ x₅ y : α} {mb x a j : Nat} (hg : g → 64 ≤ mb) (ha : a ≤ 1) (hx : x ≤ 63)
    (hmb : 64 ≤ mb ∨ x = mb) (hj : j ≤ 7) :
    (if g ∧ mb < 64 then x₁ else if 1 < a then x₂ else if 63 < x then x₃ else if mb < 64 ∧ x ≠ mb then x₄ else if 7 < j then x₅ else y) = y :=
  (if_neg fun h => Nat.not_lt.mpr (hg h.1) h.2).trans <| (if_neg (by omega)).trans <| (if_neg (by omega)).trans <| (if_neg (by omega)).trans (if_neg (by omega))

/-- Settles O53: an instant command by whether a slot is free and how arming it ends, each command by the first of its checks that fails, or by none
failing. -/
theorem instantCommandsTakeASlot : Obligations.InstantCommandsTakeASlot := by
  unfold Obligations.InstantCommandsTakeASlot
  refine ⟨fun s mb kind scope param inst h => State.instCmd_full h, fun s mb kind scope param inst k u hk h => State.instCmd_armed hk h,
    fun s mb kind scope param inst k st u hk h => State.instCmd_rejected hk h,
    .answers (fun t c s => ⟨_, _, rfl, rfl⟩) fun c s h => ?snapshot, .answers (fun t c s => ⟨_, _, rfl, rfl⟩) fun c s h => ?epochLen,
    .badField (fun t c s => ⟨_, _, rfl, rfl⟩) fun c s h => if_pos h,
    .answers (fun t c s => ⟨_, _, rfl, rfl⟩) fun c s h => ?expose, .answers (fun t c s => ⟨_, _, rfl, rfl⟩) fun c s h => ?exposeGroup,
    .answers (fun t c s => ⟨_, _, rfl, rfl⟩) fun c s h => ?roleMove, .refuses (fun t c s => ⟨_, _, rfl, rfl⟩) fun c s h => ?roleMoveNot,
    .refuses (fun t c s => ⟨_, _, rfl, rfl⟩) fun c s h => ?exposeNot, .badField (fun t c s => ⟨_, _, rfl, rfl⟩) fun c s h => if_pos h,
    .badField (fun t c s => ⟨_, _, rfl, rfl⟩) fun c s h => ?epochLenScope, .ends (fun t c s => ⟨_, _, rfl, rfl⟩) fun c s h => if_neg (Nat.not_lt.mpr h),
    .completes (fun t c s => ⟨_, _, rfl, rfl⟩) fun c s h => rfl⟩
  case snapshot =>
    obtain ⟨hclear, hscope⟩ := h
    exact (if_neg (Nat.not_lt.mpr hclear)).trans (if_neg (Nat.not_lt.mpr hscope))
  case epochLen =>
    obtain ⟨hlow, hhigh, hscope, hok⟩ := h
    refine (if_neg (by omega)).trans (if_neg ?_)
    rw [hok]
    exact not_or.mpr ⟨Nat.not_lt.mpr hscope, nofun⟩
  case epochLenScope =>
    obtain ⟨hlow, hhigh, hbad⟩ := h
    refine (if_neg (by omega)).trans (if_pos ?_)
    rwa [Bool.not_eq_true']
  case expose =>
    obtain ⟨ha, hx, hmb, hj, hfree⟩ := h
    dsimp only
    rw [ha]
    exact (exposeFields_inRange nofun (by decide) hx hmb hj).trans ((if_neg nofun).trans (if_neg (ne_true_of_eq_false hfree)))
  case exposeGroup =>
    obtain ⟨hmb, ha, hx, hj, hg, hd, hfree⟩ := h
    dsimp only
    rw [ha]
    refine (exposeFields_inRange (fun _ => hmb) (by decide) hx (.inl hmb) hj).trans ((if_neg ?_).trans (if_neg (ne_true_of_eq_false hfree)))
    rintro ⟨-, hnone | hno⟩
    · exact Option.isSome_iff_ne_none.mp hg (Option.isNone_iff_eq_none.mp hnone)
    · rw [hd] at hno; exact nomatch hno
  case exposeNot =>
    obtain ⟨hmb, ha, hx, hj, hno⟩ := h
    refine (exposeFields_inRange ?mine ha hx (hmb.imp_right And.right) hj).trans ?_
    case mine =>
      intro hg
      rcases hmb with hmb | ⟨ha0, -⟩
      · exact hmb
      · rw [ha0] at hg; exact nomatch hg
    by_cases hgrp : (mbByte c 1 % 2 == 1) = true ∧ ((Tbl.find s.groups (mbByte c 0)).isNone = true ∨ (!s.mer.domOk) = true)
    · exact if_pos hgrp
    · refine (if_neg hgrp).trans (if_pos ?_)
      rcases hno with ⟨ha1, hno⟩ | hheld
      · refine absurd ⟨?_, ?_⟩ hgrp
        · rw [ha1]; rfl
        · rwa [Bool.not_eq_true']
      · exact hheld
  case roleMove =>
    obtain ⟨hst, hrole, hmove, harmed⟩ := h
    refine if_neg ?_
    rw [hst, hrole, harmed, hmove]; decide
  case roleMoveNot =>
    refine if_pos ?_
    rw [Bool.not_eq_true']
    rcases h with h | h | h | h
    · exact .inl h
    · exact .inr (.inl h)
    · exact .inr (.inr (.inr h))
    · exact .inr (.inr (.inl h))

end Sys2Proof.Machine
end

section
/-! SUPPORT. Barriers: the doorbell writes of the four scopes (R355, R358, R366) and the completion of a barrier (R363, R367, R369). -/

namespace Sys2Proof.Machine

/-! ### The rows of R366 -/

/-- A doorbell write that R92 or R93 refuses is counted, in the fail-safe state too (R574). -/
theorem State.ring_refused {s : State} {n h p : Nat} {word : Quad} {al : Bool}
    (hbad : (s.part p).st ≠ .enabled ∨ s.member h p = false ∨ al = false) : s.ring n h p word al = s.refusePage p := by
  have hno : (decide ((s.part p).st ≠ .enabled) || !s.member h p || !al) = true := by
    simpa only [Bool.or_eq_true, Bool.not_eq_true', decide_eq_true_eq, or_assoc] using hbad
  have hrings : s.ring n h p word al = s.doorbell h p (putField word 32 2 n) al := if_neg (by rw [hno]; simp)
  exact hrings.trans (if_pos (by simpa only [Bool.not_eq_true'] using hbad))

section
variable {s : State} {n h p : Nat} {word : Quad} (hst : (s.part p).st = .enabled) (hm : s.member h p = true)
include hst hm

/-- In the fail-safe state no barrier starts (R574). -/
theorem State.ring_failSafe (hf : s.win.failsafe = true) : s.ring n h p word true = s :=
  if_pos (by rw [hf, hst, hm]; decide)

/-- Outside it a member's aligned write to an ENABLED partition is judged by the rest of R366. -/
theorem State.ring_rings (hf : s.win.failsafe = false) :
    s.ring n h p word true =
      let w := putField word 32 2 n
      if (s.part p).ticketSlots ≤ fieldN w.toNat 34 10 ∨ fieldN w.toNat 0 32 = 0 then s.refusePage p
      else if s.barrierWhy h w ≠ 0 ∧ 8 ≤ (s.ip (s.hp h).intake).refusals h then s.refusePage p
      else s.enterBarrier h p w (s.barrierWhy h w) :=
  (if_neg (by rw [hf]; nofun)).trans (if_neg (by rw [hst, hm]; decide))
end

/-- What a doorbell row of SCOPE `n` does with each write, by the first row of R366 that applies. -/
theorem doorbellRow (n : Nat) {row : Ns → HostId → PartId → Quad → Bool → Instr}
    (hrow : ∀ t p part word al s, exec (row t p part word al) s = .next ((s.tick t).ring n p.val part.val word al)) :
    (∀ (p : HostId) (part : PartId) (word : Quad) (al : Bool), Does (fun t => row t p part word al)
      (fun s => (s.part part.val).st ≠ .enabled ∨ s.member p.val part.val = false ∨ al = false)
      fun s => s.refusePage part.val)
    ∧ (∀ (p : HostId) (part : PartId) (word : Quad), Does (fun t => row t p part word true)
      (fun s => s.win.failsafe = true ∧ (s.part part.val).st = .enabled ∧ s.member p.val part.val = true)
      fun s => s)
    ∧ (∀ (p : HostId) (part : PartId) (word : Quad), Does (fun t => row t p part word true)
      (fun s => s.win.failsafe = false ∧ (s.part part.val).st = .enabled ∧ s.member p.val part.val = true
          ∧ ((s.part part.val).ticketSlots ≤ fieldN (putField word 32 2 n).toNat 34 10 ∨ fieldN (putField word 32 2 n).toNat 0 32 = 0))
      fun s => s.refusePage part.val)
    ∧ (∀ (p : HostId) (part : PartId) (word : Quad), Does (fun t => row t p part word true)
      (fun s => s.win.failsafe = false ∧ (s.part part.val).st = .enabled ∧ s.member p.val part.val = true
          ∧ fieldN (putField word 32 2 n).toNat 34 10 < (s.part part.val).ticketSlots ∧ fieldN (putField word 32 2 n).toNat 0 32 ≠ 0
          ∧ s.barrierWhy p.val (putField word 32 2 n) ≠ 0 ∧ 8 ≤ (s.ip (s.hp p.val).intake).refusals p.val)
      fun s => s.refusePage part.val)
    ∧ (∀ (p : HostId) (part : PartId) (word : Quad), Does (fun t => row t p part word true)
      (fun s => s.win.failsafe = false ∧ (s.part part.val).st = .enabled ∧ s.member p.val part.val = true
          ∧ fieldN (putField word 32 2 n).toNat 34 10 < (s.part part.val).ticketSlots ∧ fieldN (putField word 32 2 n).toNat 0 32 ≠ 0
          ∧ (s.barrierWhy p.val (putField word 32 2 n) = 0 ∨ (s.ip (s.hp p.val).intake).refusals p.val < 8))
      fun s => s.enterBarrier p.val part.val (putField word 32 2 n) (s.barrierWhy p.val (putField word 32 2 n))) := by
  refine ⟨fun p part word al t s h => ?refused, fun p part word t s h => ?failSafe, fun p part word t s h => ?badWord,
    fun p part word t s h => ?noTicket, fun p part word t s h => ?entered⟩
  all_goals refine (hrow ..).trans (congrArg Host.Outcome.next ?_)
  case refused => exact State.ring_refused h
  case failSafe =>
    obtain ⟨hf, hst, hm⟩ := h
    exact State.ring_failSafe hst hm hf
  case badWord =>
    obtain ⟨hf, hst, hm, hword⟩ := h
    exact (State.ring_rings hst hm hf).trans (if_pos hword)
  case noTicket =>
    obtain ⟨hf, hst, hm, hslot, hticket, hfull⟩ := h
    exact (State.ring_rings hst hm hf).trans ((if_neg (not_or.mpr ⟨Nat.not_le.mpr hslot, hticket⟩)).trans (if_pos hfull))
  case entered =>
    obtain ⟨hf, hst, hm, hslot, hticket, hroom⟩ := h
    refine (State.ring_rings hst hm hf).trans ((if_neg (not_or.mpr ⟨Nat.not_le.mpr hslot, hticket⟩)).trans (if_neg ?_))
    rintro ⟨hwhy, hfull⟩
    exact hroom.elim hwhy (Nat.not_lt.mpr hfull)

/-- Settles O27: the four rows differ in the SCOPE that they put into the word alone. -/
theorem barrierDoorbellsAreIgnoredRefusedOrAccepted : Obligations.BarrierDoorbellsAreIgnoredRefusedOrAccepted := by
  unfold Obligations.BarrierDoorbellsAreIgnoredRefusedOrAccepted
  obtain ⟨hostRefused, hostFailSafe, hostBadWord, hostNoTicket, hostEntered⟩ := doorbellRow 0 (row := .barrierHost) fun _ _ _ _ _ _ => rfl
  obtain ⟨partRefused, partFailSafe, partBadWord, partNoTicket, partEntered⟩ := doorbellRow 1 (row := .barrierPartition) fun _ _ _ _ _ _ => rfl
  obtain ⟨twinRefused, twinFailSafe, twinBadWord, twinNoTicket, twinEntered⟩ := doorbellRow 2 (row := .barrierTwin) fun _ _ _ _ _ _ => rfl
  exact ⟨hostRefused, hostFailSafe, hostBadWord, hostNoTicket, hostEntered, partRefused, partFailSafe, partBadWord, partNoTicket, partEntered,
    twinRefused, twinFailSafe, twinBadWord, twinNoTicket, twinEntered, doorbellRow 3 (row := .barrierDomain) fun _ _ _ _ _ _ => rfl⟩

/-! ### BARRIER_COMPLETE (R363, R367, R369) -/

/-- The command finishes the barrier that it names if that has what it waits for; then the oldest barrier of its host port has its turn. -/
theorem barrierComplete_eq {t : Ns} {port : IntakeId} {id : Nat} {s : State} {b : Barrier}
    (hb : (((s.tick t).ip port.val).bars.find? fun b => b.id == id) = some b) :
    exec (.barrierComplete t port id) s = .next ((
      if b.doneAt.isNone && (s.tick t).barReady b ((s.tick t).ip port.val).kept then
        (s.tick t).onIp port.val fun q => { q with bars := q.bars.map fun x => if x.id = id then (s.tick t).finishBar x else x }
      else s.tick t).tickets port.val b.host) := by
  dsimp only [exec, execBarrierComplete]
  rw [hb]

/-- Settles O28: the command by whether its barrier is still open and has what it waits for. -/
theorem barrierCompletionWritesTheTicketsInOrder : Obligations.BarrierCompletionWritesTheTicketsInOrder := by
  unfold Obligations.BarrierCompletionWritesTheTicketsInOrder
  refine ⟨fun port id b t s h => ?finishes, fun port id b t s h => ?waits⟩
  case finishes =>
    obtain ⟨hb, hopen, hready⟩ := h
    rw [barrierComplete_eq hb, if_pos]
    rw [hopen, hready]; rfl
  case waits =>
    obtain ⟨hb, hno⟩ := h
    rw [barrierComplete_eq hb, if_neg]
    rw [Bool.and_eq_true, Option.isNone_iff_eq_none]
    rintro ⟨hopen, hready⟩
    exact hno.elim (absurd hopen) fun h => ne_true_of_eq_false h hready

end Sys2Proof.Machine
end

section
/-! SUPPORT. Between the twins: the resynchronization walk, map records, forwarded requests and the power-fail notice (R387, R412, R430, R436, R458,
R604). -/

namespace Sys2Proof.Machine

/-! ### The resynchronization walk (R412) -/

/-- A line of the walk that is due, and that no entry reads already, goes from the Granary, or is read on an internal entry. -/
theorem resyncWalkLine_due {t : Ns} {n : SliceId} {line : BitVec 42} {s : State}
    (h : (s.tick t).twin.st = .resyncSource ∧ (s.tick t).homeSlice line.toNat = n.val ∧ (s.tick t).twin.split.contains (tractOf line.toNat) = true
      ∧ (s.tick t).twin.walk.contains line.toNat = false ∧ (s.tick t).primary ((s.tick t).mapPart line.toNat) = true
      ∧ (s.tick t).walkYields line.toNat = false
      ∧ (((s.tick t).slc n.val).front.ents.any fun y => y.2.kind == .resync && y.2.req.line == line.toNat) = false) :
    exec (.resyncWalkLine t n line) s = .next (
      match (s.tick t).grnValue n.val line.toNat with
      | some v => if Meta.colour v.2 ≠ (s.tick t).mapPart line.toNat then (s.tick t).colourBad n.val line.toNat (Meta.colour v.2)
          else (s.tick t).resyncSend n.val line.toNat v.1
      | none =>
        match (s.tick t).freeInt n.val .resync with
        | none => s.tick t
        | some e => ((s.tick t).openInt n.val e .resync line.toNat ((s.tick t).mapPart line.toNat) false).readInt n.val e line.toNat) := by
  obtain ⟨hst, hhome, hmarked, hsent, hprim, hyields, hread⟩ := h
  refine congrArg Host.Outcome.next ((if_neg ?_).trans (if_neg (ne_true_of_eq_false hread)))
  simp only [hst, hhome, hmarked, hsent, hprim, hyields, ne_eq, not_true_eq_false]; decide

/-! ### Map records (R430, R436) -/

/-- While the block mirrors, what the twin's engine tells takes effect. -/
theorem mapRecord_mirroring {t : Ns} {tr : BitVec 32} {x : MapMsg} {s : State} (h : (s.tick t).frame.mirroring = true) :
    exec (.mapRecord t tr x) s = .next ((s.tick t).frame.mapMsg tr.toNat x) :=
  congrArg Host.Outcome.next (if_neg (by rw [h]; nofun))

theorem mapRecord_alone {t : Ns} {tr : BitVec 32} {x : MapMsg} {s : State} (h : (s.tick t).frame.mirroring = false) :
    exec (.mapRecord t tr x) s = .next (s.tick t).frame :=
  congrArg Host.Outcome.next (if_pos (by rw [h]; rfl))

section
variable {s : State} {tr : Nat} {e : Quad}

/-- An entry that fails its check changes nothing (R431). -/
theorem State.mapTake_bad (hok : meOk tr e = false) : s.mapTake tr e = s := if_pos (by rw [hok]; rfl)

/-- An entry of a tract that had none sets it and makes its media tract USED. -/
theorem State.mapTake_new (hok : meOk tr e = true) (hst : meState e ≠ 0) (hnone : s.mapEntry tr = none) :
    s.mapTake tr e =
      ((s.setLedger (mePort e) (meTract e) 1).onPlace fun q => { q with map := Tbl.set q.map tr e, map2 := Tbl.set q.map2 tr e }).allBanks fun b =>
        { b with tbuf := b.tbuf.map fun v => if v.1 = tr then (tr, e) else v } := by
  unfold State.mapTake
  rw [if_neg (by rw [hok]; nofun), hnone]
  exact if_neg hst

/-- An entry that releases a tract at another place, with no move of it open, removes it and frees the place that it had (RETIRED of a retired one). -/
theorem State.mapTake_release {x : Quad} (hok : meOk tr e = true) (hst : meState e = 0) (hmv : s.openMv tr = none) (hx : s.mapEntry tr = some x)
    (hplace : mePort x ≠ mePort e ∨ meTract x ≠ meTract e) :
    s.mapTake tr e =
      ((s.setLedger (mePort x) (meTract x) (if meState x = 6 then 3 else 0)).onPlace fun q =>
        { q with map := Tbl.del q.map tr, map2 := Tbl.del q.map2 tr }).allBanks fun b => { b with tbuf := b.tbuf.filter fun v => v.1 != tr } := by
  have hmv' : (s.setLedger (mePort x) (meTract x) (if meState x = 6 then 3 else 0)).openMv tr = none := hmv
  have hmoved : ¬(mePort x = mePort e ∧ meTract x = meTract e) := not_and_or.mpr hplace
  unfold State.mapTake
  rw [if_neg (by rw [hok]; nofun), hx]
  dsimp only
  rw [if_neg hmoved, if_pos hst, hmv']
end

/-! ### Forwarded requests (R387) -/

/-- The state once the packet of a forwarded record has reached its intake port (R485, R500). -/
def State.fwdIn (s : State) (port : IntakeId) (m : M2S) (op : ReqOp) (d : Line) (be : Quad) : State :=
  s.twinIn (.intake port.val) 0x02
    { prio := s.prio ((s.partOf (m.offset.toNat / 64)).getD 64), tag := m.tag.toNat, host := some m.host.val, line := m.offset.toNat / 64, aux := be.toNat,
      data := if opRwd op then lineUnits d else [] }

theorem State.servesForwarded {v : State} {i : Nat} (hmir : v.mirroring = true) (hruns : (v.ip i).halted = false) :
    ¬((!v.mirroring) = true ∨ (v.ip i).halted = true) := by
  rw [hmir, hruns]; decide

section
variable {t : Ns} {port : IntakeId} {m : M2S} {op : ReqOp} {d : Line} {be : Quad} {s v : State}
  (hv : (s.tick t).frame.fwdIn port m op d be = v)
include hv

/-- A block that does not mirror, or a port whose intake is stopped, takes no forwarded request. -/
theorem forwardedRecord_stopped (h : v.mirroring = false ∨ (v.ip port.val).halted = true) :
    exec (.forwardedRecord t port m op d be) s = .next v := by
  subst hv
  exact congrArg Host.Outcome.next (if_pos (by rwa [Bool.not_eq_true']))

section
variable (hmir : v.mirroring = true) (hruns : (v.ip port.val).halted = false)
include hmir hruns

/-- One that fails a check of R75 is counted and answered to the twin. -/
theorem forwardedRecord_fail {c : Nat} {p : Option Nat} (hc : v.check { m with port := port } op d be true = .fail c p) :
    exec (.forwardedRecord t port m op d be) s = .next ((v.countFail port.val c m.host.val op m.offset.toNat p).answerFwd port.val m.tag.toNat
      (((s.tick t).frame.partOf (m.offset.toNat / 64)).getD 64) (failAnswer op m.mf (formOf op m.mf m.mv m.snp))) := by
  dsimp only [exec, execForwardedRecord]
  unfold State.fwdIn at hv
  rw [hv, if_neg (State.servesForwarded hmir hruns), hc]

theorem forwardedRecord_hold {r : Req} (hc : v.check { m with port := port } op d be true = .hold r) :
    exec (.forwardedRecord t port m op d be) s = .next (v.holdReq r m.tag.toNat) := by
  dsimp only [exec, execForwardedRecord]
  unfold State.fwdIn at hv
  rw [hv, if_neg (State.servesForwarded hmir hruns), hc]

section
variable {r : Req} (hc : v.check { m with port := port } op d be true = .pass r)
include hc

/-- One that passes is taken in as a message of the port's own host is, where that answers no host and returns no credit. -/
theorem forwardedRecord_takeIn (hspec : r.form ≠ .specRd) (hcln : ¬(r.form = .clnEvct ∧ r.plate.isSome = true)) :
    exec (.forwardedRecord t port m op d be) s = .next (v.takeIn r m.tag.toNat) := by
  dsimp only [exec, execForwardedRecord]
  unfold State.fwdIn at hv
  rw [hv, if_neg (State.servesForwarded hmir hruns), hc]
  dsimp only [State.takeIn]
  cases hf : r.form with
  | specRd => exact absurd hf hspec
  | clnEvct =>
    have hw : ¬r.plate.isSome = true := fun hp => hcln ⟨hf, hp⟩
    exact congrArg Host.Outcome.next ((if_neg hw).trans (if_neg hw).symm)
  | _ => rfl

/-- A speculative read is counted alone: its credit stays with the port that took it (R103). -/
theorem forwardedRecord_specRd (hf : r.form = .specRd) : exec (.forwardedRecord t port m op d be) s = .next (v.bumpIp port.val 3 32 32) := by
  dsimp only [exec, execForwardedRecord]
  unfold State.fwdIn at hv
  rw [hv, if_neg (State.servesForwarded hmir hruns), hc]
  dsimp only
  rw [hf]

/-- A clean eviction in a plate window is answered to the twin after its echo is released (R102, R394). -/
theorem forwardedRecord_clnEvct_window (hf : r.form = .clnEvct) (hw : r.plate.isSome = true) :
    exec (.forwardedRecord t port m op d be) s = .next ((v.passEcho r m.tag.toNat).answerFwd port.val m.tag.toNat
      (((s.tick t).frame.partOf (m.offset.toNat / 64)).getD 64) (false, true)) := by
  dsimp only [exec, execForwardedRecord]
  unfold State.fwdIn at hv
  rw [hv, if_neg (State.servesForwarded hmir hruns), hc]
  dsimp only
  rw [hf]
  exact congrArg Host.Outcome.next (if_pos hw)
end
end
end

/-! ### The power-fail notice (R604) -/

/-- 50 µs after the notice, without a warning of its own, the block forgets it and abdicates unless it stands alone. -/
theorem powerFailNoticeTimeout_due {t : Ns} {s : State} {t0 : Nat} (ht : (s.tick t).twin.peerFail = some t0) (hf : (s.tick t).pwr.fail = none)
    (hw : (s.tick t).pwr.pfWarn = false) (hdue : t0 + 50000 ≤ (s.tick t).now) :
    exec (.powerFailNoticeTimeout t) s = .next (
      let u := (s.tick t).onTwin fun w => { w with peerFail := none }
      if (s.tick t).twin.st = .paired ∨ (s.tick t).twin.st = .resyncSource ∨ (s.tick t).twin.st = .resyncTarget then u.abdicated else u) := by
  dsimp only [exec, execPowerFailNoticeTimeout]
  rw [ht]
  refine congrArg Host.Outcome.next (if_pos ⟨?_, ?_, hdue⟩)
  · rw [hf]; rfl
  · rw [hw]; rfl

/-! ### The statement -/

/-- Settles O33: a line of the walk by whether it is due and where it stands, a record by the state of the twins, a map record by what it tells, a
forwarded request by what the checks of R75 say of it. -/
theorem resyncMapAndForwardedMessages : Obligations.ResyncMapAndForwardedMessages := by
  unfold Obligations.ResyncMapAndForwardedMessages
  refine ⟨fun n line v t s h => ?walkSends, fun n line v t s h => ?walkColour, fun n line t s h => ?walkUnderWay, fun n line t s h => ?walkFull,
    fun n line e t s h => ?walkReads, fun n line t s h => ?walkNot, fun line part d po g q e t s h => ?record,
    fun line t s h => congrArg Host.Outcome.next (if_pos h), fun n dg fl q t s h => congrArg Host.Outcome.next (if_pos h),
    fun tr x t s h => mapRecord_alone h, fun tr e t s h => ?entryBad, fun tr e t s h => ?entrySet, fun tr e x t s h => ?entryFreed,
    fun tr old new g r t s h => ?move, fun tr b t s h => mapRecord_mirroring h, fun tr v t s h => ?abandon,
    fun port v m op d be t s h => forwardedRecord_stopped h.1 h.2, fun port v m op d be c p t s h => ?fwdFails,
    fun port v m op d be r t s h => ?fwdHeld, fun port v m op d be r t s h => ?fwdKept, fun port v m op d be r t s h => ?fwdSpecRd,
    fun port v m op d be r t s h => ?fwdConflict, fun port v m op d be r t s h => ?fwdConflictGoes, fun port v m op d be r t s h => ?fwdWindow,
    fun port tag drs ndr load k t0 hh t s h => ?response, fun port tag k t0 t s h => ?holdTimeout, fun t s h => rfl,
    fun t0 t s h => ?noticeAbdicates, fun t0 t s h => ?noticeSplit⟩
  case walkSends =>
    obtain ⟨hdue, hv, hcolour⟩ := h
    rw [resyncWalkLine_due hdue, hv]
    exact congrArg Host.Outcome.next (if_neg (not_not.mpr hcolour))
  case walkColour =>
    obtain ⟨hdue, hv, hcolour⟩ := h
    rw [resyncWalkLine_due hdue, hv]
    exact congrArg Host.Outcome.next (if_pos hcolour)
  case walkUnderWay =>
    dsimp only [exec, execResyncWalkLine]
    rw [if_pos h, ite_self]
  case walkFull =>
    obtain ⟨hv, he⟩ := h
    dsimp only [exec, execResyncWalkLine]
    rw [hv, he, ite_self, ite_self]
  case walkReads =>
    obtain ⟨hdue, hv, he⟩ := h
    rw [resyncWalkLine_due hdue, hv, he]
  case walkNot => exact congrArg Host.Outcome.next (if_pos (by simpa only [Bool.not_eq_true'] using h))
  case record => exact congrArg Host.Outcome.next (if_neg fun hno => h.elim hno.1 hno.2)
  case entryBad =>
    cases hm : (s.tick t).frame.mirroring with
    | false => exact mapRecord_alone hm
    | true => exact (mapRecord_mirroring hm).trans (congrArg Host.Outcome.next (State.mapTake_bad h))
  case entrySet =>
    obtain ⟨hm, hok, hst, hnone⟩ := h
    exact (mapRecord_mirroring hm).trans (congrArg Host.Outcome.next (State.mapTake_new hok hst hnone))
  case entryFreed =>
    obtain ⟨hm, hok, hst, hmv, hx, hplace⟩ := h
    exact (mapRecord_mirroring hm).trans (congrArg Host.Outcome.next (State.mapTake_release hok hst hmv hx hplace))
  case move =>
    obtain ⟨hm, hnone⟩ := h
    exact (mapRecord_mirroring hm).trans (congrArg Host.Outcome.next (if_neg (ne_true_of_eq_false hnone)))
  case abandon =>
    obtain ⟨hm, hv⟩ := h
    rw [mapRecord_mirroring hm]
    dsimp only [State.mapMsg]
    rw [hv]
  case fwdFails =>
    obtain ⟨hv, hm, hruns, hc⟩ := h
    exact forwardedRecord_fail hv hm hruns hc
  case fwdHeld =>
    obtain ⟨hv, hm, hruns, hc⟩ := h
    exact forwardedRecord_hold hv hm hruns hc
  case fwdKept =>
    obtain ⟨hv, hm, hruns, hc, hspec, hconf, hcln⟩ := h
    have hout : ¬(r.form = .clnEvct ∧ r.plate.isSome = true) := by
      rintro ⟨hf, hw⟩
      exact Option.isSome_iff_ne_none.mp hw (hcln hf)
    exact (forwardedRecord_takeIn hv hm hruns hc hspec hout).trans (congrArg Host.Outcome.next (State.takeIn_keeps hspec hconf hout))
  case fwdSpecRd =>
    obtain ⟨hv, hm, hruns, hc, hf⟩ := h
    exact forwardedRecord_specRd hv hm hruns hc hf
  case fwdConflict =>
    obtain ⟨hv, hm, hruns, hc, hf, hstays⟩ := h
    exact (forwardedRecord_takeIn hv hm hruns hc (by rw [hf]; nofun) (by rw [hf]; nofun)).trans
      (congrArg Host.Outcome.next (State.takeIn_biConf hf hstays))
  case fwdConflictGoes =>
    obtain ⟨hv, hm, hruns, hc, hf, hgoes⟩ := h
    exact (forwardedRecord_takeIn hv hm hruns hc (by rw [hf]; nofun) (by rw [hf]; nofun)).trans
      (congrArg Host.Outcome.next (State.takeIn_biConf_goes hf hgoes))
  case fwdWindow =>
    obtain ⟨hv, hm, hruns, hc, hf, hw⟩ := h
    exact forwardedRecord_clnEvct_window hv hm hruns hc hf hw
  case response =>
    obtain ⟨hk, hst, hhost⟩ := h
    dsimp only [exec, execForwardedResponse]
    rw [hk]
    dsimp only
    rw [hst, hhost]
  case holdTimeout =>
    obtain ⟨hk, hst, hsplit, hdue⟩ := h
    dsimp only [exec, execForwardHoldTimeout]
    rw [hk]
    dsimp only
    rw [hst]
    refine congrArg Host.Outcome.next (if_pos ⟨?_, hdue⟩)
    rw [hsplit]; rfl
  case noticeAbdicates =>
    obtain ⟨ht, hf, hw, hdue, hst⟩ := h
    rw [powerFailNoticeTimeout_due ht hf hw hdue]
    exact congrArg Host.Outcome.next (if_pos hst)
  case noticeSplit =>
    obtain ⟨ht, hf, hw, hdue, hst⟩ := h
    rw [powerFailNoticeTimeout_due ht hf hw hdue, hst]
    rfl

end Sys2Proof.Machine
end

section
/-! SUPPORT. The loss of the twin: a declared loss by the state that it meets, the links, the adapters' reports, the abdication (R380, R399, R400, R410,
R411, R420). -/

namespace Sys2Proof.Machine

/-! ### A declared loss (R399, R400, R410) -/

/-- A block that is neither paired nor resynchronizing has no twin to lose. -/
theorem State.loseTwin_alone {s : State} (h : s.twin.st = .unpaired ∨ s.twin.st = .seeking ∨ s.twin.st = .split ∨ s.twin.st = .abdicated) :
    s.loseTwin = s := by
  refine if_neg ?_
  rcases h with h | h | h | h <;> rw [h] <;> decide

/-- The loss raises its event where the block was PAIRED or the source, and is confirmed at once by the adapters' report or by stale copies. -/
theorem State.declareLoss_served {s : State} (h : s.twin.st = .paired ∨ s.twin.st = .resyncSource) :
    s.declareLoss =
      if (s.loseTwin.twin.peerDown || s.loseTwin.twin.stale) = true then (s.loseTwin.raise (srcTwn 0) (256 + 399) 0 0 0).lossKnown
      else s.loseTwin.raise (srcTwn 0) (256 + 399) 0 0 0 := by
  unfold State.declareLoss
  dsimp only
  rw [if_pos h, State.raise_twin]

theorem State.declareLoss_unserved {s : State} (hp : s.twin.st ≠ .paired) (hs : s.twin.st ≠ .resyncSource) : s.declareLoss = s.loseTwin :=
  if_neg (not_or.mpr ⟨hp, hs⟩)

/-- While valid frames are missing the loss is declared (R399). -/
theorem heartbeatLoss_missed {t : Ns} {s : State} (h : (s.tick t).hbOk = false) : exec (.heartbeatLoss t) s = .next (s.tick t).declareLoss :=
  congrArg Host.Outcome.next (if_neg (ne_true_of_eq_false h))

/-! ### The statement -/

/-- Settles O30: a loss by the state in which it meets the block, a link or a report by the block's state and its takeover, an abdication by whether the
block has taken over. -/
theorem twinLossIsDeclaredAndConfirmed : Obligations.TwinLossIsDeclaredAndConfirmed := by
  unfold Obligations.TwinLossIsDeclaredAndConfirmed
  refine ⟨fun t s h => congrArg Host.Outcome.next (if_pos h), fun t s h => ?lost, fun t s h => ?lostKnown, fun t s h => ?lostTarget, fun t s h => ?alone,
    fun t s h => congrArg Host.Outcome.next (if_neg h), fun t s h => congrArg Host.Outcome.next (if_pos h), fun t s h => ?linkUpOnly,
    fun t s h => congrArg Host.Outcome.next (if_pos h), fun t s h => ?peerDown, fun t s h => ?peerDownSplit, fun t s h => ?peerDownOnly, fun t s h => rfl,
    fun t s h => ?reportTimeout, fun drill t s h => ?abdication⟩
  case lost =>
    obtain ⟨hmissed, hst, hdown, hstale⟩ := h
    rw [heartbeatLoss_missed hmissed, State.declareLoss_served hst, if_neg]
    rw [hdown, hstale]; decide
  case lostKnown =>
    obtain ⟨hmissed, hst, hknown⟩ := h
    rw [heartbeatLoss_missed hmissed, State.declareLoss_served hst, if_pos ((Bool.or_eq_true _ _).mpr hknown)]
  case lostTarget =>
    obtain ⟨hmissed, hst⟩ := h
    rw [heartbeatLoss_missed hmissed, State.declareLoss_unserved (by rw [hst]; decide) (by rw [hst]; decide)]
  case alone =>
    have hserved : (s.tick t).twin.st ≠ .paired ∧ (s.tick t).twin.st ≠ .resyncSource := by
      rcases h with h | h | h | h <;> rw [h] <;> decide
    cases hframe : (s.tick t).hbOk with
    | true => exact congrArg Host.Outcome.next (if_pos hframe)
    | false => rw [heartbeatLoss_missed hframe, State.declareLoss_unserved hserved.1 hserved.2, State.loseTwin_alone h]
  case linkUpOnly =>
    obtain ⟨hsplit, hseek⟩ := h
    refine congrArg Host.Outcome.next (if_neg ?_)
    rintro (hst | ⟨hst, hdecided⟩)
    · exact hsplit hst
    · exact hseek.elim (absurd hst) fun h => ne_true_of_eq_false h hdecided
  case peerDown =>
    dsimp only [exec, execPeerLinksDown, State.onTwin_twin]
    rcases h with h | h | h <;> rw [h]
  case peerDownSplit =>
    obtain ⟨hst, htook⟩ := h
    dsimp only [exec, execPeerLinksDown, State.onTwin_twin]
    rw [hst]
    exact congrArg Host.Outcome.next (if_neg (ne_true_of_eq_false htook))
  case peerDownOnly =>
    dsimp only [exec, execPeerLinksDown, State.onTwin_twin]
    rcases h with hst | hst | ⟨hst, htook⟩
    · rw [hst]
    · rw [hst]
    · rw [hst]
      exact congrArg Host.Outcome.next (if_pos htook)
  case reportTimeout =>
    obtain ⟨hst, htook, hdown, x, hlost, hdue⟩ := h
    refine congrArg Host.Outcome.next (if_pos ⟨hst, ?_, ?_, ?_⟩)
    · rw [htook]; rfl
    · rw [hdown]; rfl
    · rw [hlost]; exact decide_eq_true hdue
  case abdication =>
    obtain ⟨hst, hfree⟩ := h
    have hstays : ¬((s.tick t).frame.twin.tookOver && !drill) = true := by
      rcases hfree with h | h <;> rw [h] <;> simp
    dsimp only [exec, execAbdicationReceive]
    rcases hst with hst | hst | hst | hst
    all_goals
      rw [hst]
      exact congrArg Host.Outcome.next (if_neg hstays)

end Sys2Proof.Machine
end

section
/-! SUPPORT. What moves a takeover or a role move on: the end of a claim, its loss, the markers, record fetches and the walk of records (R402, R403, R417 to
R419). -/

namespace Sys2Proof.Machine

/-! ### The messages about a partition whose role moves (R417, R418) -/

/-- The drained marker takes effect once, at the new primary (R417). -/
theorem drainedMarker_eq {t : Ns} {part : PartId} {m : RoleMove} {s : State} (hm : Tbl.find (s.tick t).frame.twin.moves part.val = some m) :
    exec (.drainedMarker t part) s = .next (
    if (m.old || m.phase != .drain) = true then (s.tick t).frame
    else (((s.tick t).frame.onTwin fun w =>
        { w with roles := w.roles ||| BitVec.ofNat 64 (2 ^ part.val), moves := Tbl.set w.moves part.val { m with phase := .forward } }).slotDone
          m.slot).send (.rangeClaim part.val)) := by
  dsimp only [exec, execDrainedMarker]
  rw [hm]

/-- The walk of the old primary takes a line during HANDOVER, once (R418). -/
theorem recordWalkLine_eq {t : Ns} {part : PartId} {line : BitVec 42} {f : Meta} {m : RoleMove} {s : State}
    (hp : (s.tick t).partOf line.toNat = some part.val) (hm : Tbl.find (s.tick t).twin.moves part.val = some m) :
    exec (.recordWalkLine t line f) s = .next (
      if (!m.old || m.phase != .handover || m.walked.contains line.toNat) = true then s.tick t else (s.tick t).walkLine part.val m line.toNat f) := by
  dsimp only [exec, execRecordWalkLine]
  rw [hp]
  dsimp only
  rw [hm]

/-! ### The statement -/

/-- Settles O31: a claim by the power failure, the takeover and the moves that it finds, a message about a role move by the move's side and phase. -/
theorem claimsAndRoleMovesAdvance : Obligations.ClaimsAndRoleMovesAdvance := by
  unfold Obligations.ClaimsAndRoleMovesAdvance
  refine ⟨fun ps l t s h => ?claimEnds, fun ps l r t s h => ?claimAgain, fun l t s h => ?claimRoutes, fun l t s h => congrArg Host.Outcome.next (if_pos h),
    fun t s h => ?lostGrave, fun t s h => ?lostDrill, fun l t s h => ?lostMoves, fun part m t s h => ?drained, fun part m t s h => ?drainedNot,
    fun part m t s h => ?closed, fun n e r x t s h => ?fetched, fun n e line f p m t s h => ?asked, fun k p m t s h => ?timeout,
    fun part line f m t s h => ?walkNot, fun part line f m t s h => ?walk, fun part line r m t s h => ?record⟩
  case claimEnds =>
    obtain ⟨hf, htk, hredel⟩ := h
    dsimp only [exec, execClaimComplete]
    rw [hf, htk, hredel]
    rfl
  case claimAgain =>
    obtain ⟨hf, htk, hredel⟩ := h
    dsimp only [exec, execClaimComplete]
    rw [hf, htk, hredel]
    rfl
  case claimRoutes =>
    obtain ⟨hf, htk⟩ := h
    dsimp only [exec, execClaimComplete]
    rw [hf, htk]
    rfl
  case lostGrave =>
    obtain ⟨hnone, hdrill⟩ := h
    dsimp only [exec, execClaimLost]
    rw [hnone]
    exact congrArg Host.Outcome.next (if_neg (ne_true_of_eq_false hdrill))
  case lostDrill =>
    obtain ⟨hnone, hdrill⟩ := h
    dsimp only [exec, execClaimLost]
    rw [hnone]
    exact congrArg Host.Outcome.next (if_pos hdrill)
  case lostMoves =>
    obtain ⟨hl, hne⟩ := h
    dsimp only [exec, execClaimLost]
    rw [hl]
    cases l with
    | nil => exact absurd rfl hne
    | cons x l => rfl
  case drained =>
    obtain ⟨hm, hnew, hphase⟩ := h
    rw [drainedMarker_eq hm, if_neg]
    rw [hnew, hphase]; decide
  case drainedNot =>
    obtain ⟨hm, hno⟩ := h
    rw [drainedMarker_eq hm, if_pos]
    rwa [Bool.or_eq_true, bne_iff_ne]
  case closed =>
    obtain ⟨hm, hnew, hphase⟩ := h
    dsimp only [exec, execRouteClosedMarker]
    rw [hm]
    refine congrArg Host.Outcome.next (if_neg ?_)
    rw [hnew]
    rcases hphase with h | h <;> rw [h] <;> decide
  case fetched =>
    obtain ⟨hx, hfetching⟩ := h
    dsimp only [exec, execRecordFetch]
    rw [hx]
    dsimp only
    rw [hfetching]
    rfl
  case asked =>
    obtain ⟨hp, hm, hold⟩ := h
    dsimp only [exec, execRecordFetch]
    rw [hp]
    dsimp only
    rw [hm]
    exact congrArg Host.Outcome.next (if_pos hold)
  case timeout =>
    dsimp only [exec, execRoleMoveTimeout]
    rw [h]
  case walkNot =>
    obtain ⟨hp, hm, hno⟩ := h
    rw [recordWalkLine_eq hp hm, if_pos]
    rwa [Bool.or_eq_true, Bool.or_eq_true, Bool.not_eq_true', bne_iff_ne, or_assoc]
  case walk =>
    obtain ⟨hp, hm, hold, hphase, hwalked⟩ := h
    rw [recordWalkLine_eq hp hm, if_neg]
    rw [hold, hphase, hwalked]; decide
  case record =>
    obtain ⟨hp, hm, hnew, hphase, hwalked⟩ := h
    dsimp only [exec, execRoleRecordReceive]
    rw [hp]
    dsimp only
    rw [hm]
    refine congrArg Host.Outcome.next (if_neg ?_)
    rw [hnew, hphase, hwalked]; decide

end Sys2Proof.Machine
end

section
/-! SUPPORT. The mirror home: echoes, settle records, releases, the copies that a clean notice frees, recalls (R391 to R398). -/

namespace Sys2Proof.Machine

/-- A settle record that names none of the echoes changes none of them (R393). -/
theorem State.onTwin_echoes_unnamed {s : State} {names : Echo → Bool} {g : Echo → Echo} (h : ∀ y ∈ s.twin.echoes, names y = false) :
    (s.onTwin fun w => { w with echoes := w.echoes.map fun y => if names y = true then g y else y }) = s := by
  have hall : (s.twin.echoes.map fun y => if names y = true then g y else y) = s.twin.echoes :=
    (List.map_congr_left fun y hy => if_neg (ne_true_of_eq_false (h y hy))).trans (List.map_id _)
  unfold State.onTwin
  dsimp only
  rw [hall]

/-- The block that mirrors does not pass over what the twin sends it. -/
theorem State.serves_mirroring {s : State} (h : s.mirroring = true) : ¬(!s.mirroring) = true := by
  rw [h]; decide

/-- A clean notice frees the copies; where the held-line record had the line, what waits in its slice for room there goes on: the first eviction, else the
lines that bypass the Granary (R396, R397). -/
theorem cleanNotice_held {t : Ns} {line : BitVec 42} {q : Word} {s v : State}
    (hv : (s.tick t).frame.mirrorClean ((s.tick t).frame.homeSlice line.toNat) line.toNat q.toNat = v)
    (hhad : Tbl.find ((s.tick t).frame.slc ((s.tick t).frame.homeSlice line.toNat)).banks.held line.toNat = some q.toNat) :
    exec (.cleanNotice t line q) s = .next (match (v.stuckWays ((s.tick t).frame.homeSlice line.toNat)).head? with
      | some x => v.evictAccepted ((s.tick t).frame.homeSlice line.toNat) x.1 (v.takerOf ((s.tick t).frame.homeSlice line.toNat) x.1)
      | none => v.endWaits ((s.tick t).frame.homeSlice line.toNat)) := by
  dsimp only [exec, execCleanNotice]
  rw [hv]
  cases (v.stuckWays ((s.tick t).frame.homeSlice line.toNat)).head? with
  | none => exact congrArg Host.Outcome.next (if_pos hhad)
  | some x => exact congrArg Host.Outcome.next (if_pos hhad)

/-- Settles O32: what the twin sends by whether the block mirrors, a settle record by where its data stand, a clean notice by whether the held-line record
had the line and by what waits for room in it. -/
theorem theMirrorTakesEchoesRecordsAndReleases : Obligations.TheMirrorTakesEchoesRecordsAndReleases := by
  unfold Obligations.TheMirrorTakesEchoesRecordsAndReleases
  refine ⟨fun port x t s h => congrArg Host.Outcome.next (if_pos h), fun port x t s h => congrArg Host.Outcome.next (if_neg (ne_true_of_eq_false h)),
    fun x d t s h => ?inFull, fun x y d t s h => ?fromEcho, fun x t s h => ?neither, fun x t s h => ?applyNot,
    fun port echo t s h => congrArg Host.Outcome.next (if_pos h), fun port echo t s h => congrArg Host.Outcome.next (if_neg (ne_true_of_eq_false h)),
    fun line q t s h => ?cleanNotHeld, fun line q t s h => ?cleanGoesOn, fun line q x l t s h => ?cleanEvicts, fun line t s h => rfl,
    fun n t s h => congrArg Host.Outcome.next (if_pos h), fun n t s h => congrArg Host.Outcome.next (if_neg h)⟩
  case inFull =>
    obtain ⟨hmir, hfull⟩ := h
    dsimp only [exec, execSettleRecordApply]
    rw [if_neg (State.serves_mirroring hmir), hfull]
    rfl
  case fromEcho =>
    obtain ⟨hmir, hfull, hy, hd⟩ := h
    dsimp only [exec, execSettleRecordApply]
    rw [if_neg (State.serves_mirroring hmir), hfull]
    dsimp only
    rw [hy, Option.bind_some, hd]
    rfl
  case neither =>
    obtain ⟨hmir, hfull, hnone⟩ := h
    have hfind := List.find?_eq_none.mpr fun y hy => ne_true_of_eq_false (hnone y hy)
    dsimp only [exec, execSettleRecordApply]
    rw [if_neg (State.serves_mirroring hmir), hfull]
    dsimp only
    rw [hfind, Option.bind_none]
    exact congrArg Host.Outcome.next (State.onTwin_echoes_unnamed hnone)
  case applyNot =>
    refine congrArg Host.Outcome.next (if_pos ?_)
    rw [h]; rfl
  case cleanNotHeld =>
    dsimp only [exec, execCleanNotice]
    refine congrArg Host.Outcome.next ?_
    split
    · exact if_neg h
    · exact if_neg h
  case cleanGoesOn =>
    obtain ⟨hhad, hstuck⟩ := h
    rw [cleanNotice_held rfl hhad, hstuck]
    rfl
  case cleanEvicts =>
    obtain ⟨hhad, hstuck⟩ := h
    rw [cleanNotice_held rfl hhad, hstuck]
    rfl

end Sys2Proof.Machine
end

section
/-! SUPPORT. The mailbox commands of barriers, the twin, capacity, the mending of tracts, the directory refresh and the shutdown (R420, R468 to R470, R611,
R645, R648 to R650, R654). -/

namespace Sys2Proof.Machine

/-- A served command starts the background work that its own rules name, with the estimate that they give of it (R629). -/
theorem MbxDoes.startsFor {i : Ns → Mbx → Instr} {H : Mbx → State → Prop} {body : Mbx → State → Reply × State} {b : Mbx → State → Bg}
    {left : Mbx → State → Nat} {u : Mbx → State → State}
    (hx : ∀ t c s, ∃ op k, (i t c).mailbox = some (t, c, op, k) ∧ exec (i t c) s = .next ((s.tick t).command c op k (body c)))
    (hb : ∀ c s, H c s → body c s = (.started (b c s) (left c s), u c s)) : MbxDoes i H fun c s => (u c s).begins c (b c s) (left c s) :=
  .of_body hx hb

/-! ### BARRIER (R648) -/

/-- BARRIER with its scope, its flag and its instant in range answers what follows the checks of its fields. -/
theorem barrierFields_inRange {α : Type} {x₁ x₂ x₃ y : α} {sc n x : Nat} (h1 : 1 ≤ sc) (h3 : sc ≤ 3) (hn : n ≤ 1) (hx : n = 0 → x = 0) :
    (if sc = 0 ∨ 3 < sc then x₁ else if 1 < n then x₂ else if (!(n % 2 == 1)) = true ∧ x ≠ 0 then x₃ else y) = y := by
  refine (if_neg (by omega)).trans ((if_neg (by omega)).trans (if_neg ?_))
  rintro ⟨hunnamed, hne⟩
  rw [Bool.not_eq_true', beq_eq_false_iff_ne] at hunnamed
  exact hne (hx (by omega))

/-! ### CAP_ADD (R468, R650) -/

/-- CAP_ADD with its port, its tier and its use in range answers what follows the checks of its fields. -/
theorem capAddFields_inRange {α : Type} {x₁ x₂ x₃ y : α} {m tier map : Nat} (hm : m ≤ 31) (ht : tier ≤ 1) (hp : map ≤ 1) :
    (if 31 < m then x₁ else if 1 < tier then x₂ else if 1 < map then x₃ else y) = y :=
  (if_neg (by omega)).trans ((if_neg (by omega)).trans (if_neg (by omega)))

/-! ### CAP_REMOVE (R469, R650) -/

/-- Only a present port of data that is not draining already is drained. -/
theorem capRemove_drains {mapPort draining present : Bool} (hm : mapPort = false) (hd : draining = false) (hp : present = true) :
    ¬(mapPort || draining || !present) = true := by
  subst hm hd hp; decide

/-! ### TRACT_REBUILD (R645) -/

/-- A rebuild takes its media from the tier of the tract's entry, the CAPACITY tier for an entry that names none. -/
theorem State.tierFree_matchEntry (s : State) (entry : Option Quad) (fast : Quad → Bool) :
    s.tierFree (match entry with
      | some e => fast e
      | none => false) = s.tierFree (entry.any fast) := by
  cases entry with
  | none => rfl
  | some e => rfl

/-! ### The statement -/

/-- Settles O54: each command by the first of its checks that fails, or by none failing. -/
theorem twinBarrierAndCapacityCommands : Obligations.TwinBarrierAndCapacityCommands := by
  unfold Obligations.TwinBarrierAndCapacityCommands
  refine ⟨.starts (fun t c s => ⟨_, _, rfl, rfl⟩) fun c s h => ?barrier, .refuses (fun t c s => ⟨_, _, rfl, rfl⟩) fun c s h => ?barrierNot,
    .badField (fun t c s => ⟨_, _, rfl, rfl⟩) fun c s h => if_pos h, .badField (fun t c s => ⟨_, _, rfl, rfl⟩) fun c s h => ?barrierFlag,
    .badField (fun t c s => ⟨_, _, rfl, rfl⟩) fun c s h => ?barrierInstant,
    .completes (fun t c s => ⟨_, _, rfl, rfl⟩) fun c s h => rfl, .completes (fun t c s => ⟨_, _, rfl, rfl⟩) fun c s h => rfl,
    .starts (fun t c s => ⟨_, _, rfl, rfl⟩) fun c s h => ?drill, .refuses (fun t c s => ⟨_, _, rfl, rfl⟩) fun c s h => if_pos h,
    .completes (fun t c s => ⟨_, _, rfl, rfl⟩) fun c s h => if_pos h, .refuses (fun t c s => ⟨_, _, rfl, rfl⟩) fun c s h => ?restartNot,
    .completes (fun t c s => ⟨_, _, rfl, rfl⟩) fun c s h => if_neg (Nat.not_lt.mpr h),
    fun size pair => .answers (fun t c s => ⟨_, _, rfl, rfl⟩) fun c s h => ?add,
    fun size pair => .answers (fun t c s => ⟨_, _, rfl, rfl⟩) fun c s h => ?addMap,
    fun size pair => .refuses (fun t c s => ⟨_, _, rfl, rfl⟩) fun c s h => ?addNot,
    .startsFor (fun t c s => ⟨_, _, rfl, rfl⟩) fun c s h => ?remove, .refuses (fun t c s => ⟨_, _, rfl, rfl⟩) fun c s h => ?removeNoRoom,
    .refuses (fun t c s => ⟨_, _, rfl, rfl⟩) fun c s h => ?removeNot,
    .starts (fun t c s => ⟨_, _, rfl, rfl⟩) fun c s h => ?rethaw, .refuses (fun t c s => ⟨_, _, rfl, rfl⟩) fun c s h => ?rethawNot,
    .starts (fun t c s => ⟨_, _, rfl, rfl⟩) fun c s h => ?rebuild, .refuses (fun t c s => ⟨_, _, rfl, rfl⟩) fun c s h => ?rebuildNoRoom,
    .refuses (fun t c s => ⟨_, _, rfl, rfl⟩) fun c s h => ?rebuildNot,
    .starts (fun t c s => ⟨_, _, rfl, rfl⟩) fun c s h => if_neg (ne_true_of_eq_false h), .refuses (fun t c s => ⟨_, _, rfl, rfl⟩) fun c s h => if_pos h,
    .starts (fun t c s => ⟨_, _, rfl, rfl⟩) fun c s h => ?shutdown, .refuses (fun t c s => ⟨_, _, rfl, rfl⟩) fun c s h => if_pos h⟩
  case barrier =>
    obtain ⟨h1, h3, hn, hx, hdomain, hplain⟩ := h
    refine (barrierFields_inRange h1 h3 hn hx).trans ((if_neg ?_).trans ?_)
    · rintro (⟨hsc, hout⟩ | ⟨hsc, hnamed⟩)
      · obtain ⟨hmember, hok⟩ := hdomain hsc
        rw [hmember, hok] at hout
        exact nomatch hout
      · rw [hplain hsc] at hnamed
        exact nomatch hnamed
    · rcases Nat.le_one_iff_eq_zero_or_eq_one.mp hn with hn | hn
      all_goals
        rw [hn]
        rfl
  case barrierNot =>
    obtain ⟨h1, h3, hn, hx, hno⟩ := h
    refine (barrierFields_inRange h1 h3 hn hx).trans (if_pos ?_)
    rcases hno with ⟨hsc, hout⟩ | ⟨hsc, hnamed⟩
    · exact .inl ⟨hsc, (Bool.not_eq_true' _).mpr hout⟩
    · refine .inr ⟨hsc, ?_⟩
      rw [hnamed]; rfl
  case barrierFlag =>
    obtain ⟨h1, h3, hn⟩ := h
    exact (if_neg (by omega)).trans (if_pos hn)
  case barrierInstant =>
    obtain ⟨h1, h3, hn, hx⟩ := h
    refine (if_neg (by omega)).trans ((if_neg (by omega)).trans (if_pos ⟨?_, hx⟩))
    rw [hn]; rfl
  case drill =>
    obtain ⟨hst, harmed⟩ := h
    exact if_neg (not_or.mpr ⟨not_not.mpr hst, ne_true_of_eq_false harmed⟩)
  case restartNot =>
    obtain ⟨hst, hparts, hoff⟩ := h
    exact if_neg (not_or.mpr ⟨hst, not_or.mpr ⟨not_not.mpr hparts, ne_true_of_eq_false hoff⟩⟩)
  case add =>
    obtain ⟨hm, htier, hdata, habsent, hsize⟩ := h
    dsimp only
    rw [hdata]
    refine (capAddFields_inRange hm htier (by decide)).trans ((if_neg ?_).trans rfl)
    rw [habsent, beq_eq_false_iff_ne.mpr hsize]
    nofun
  case addMap =>
    obtain ⟨hm, htier, hmap, habsent, hsize, hnone, hother, hpair⟩ := h
    dsimp only
    rw [hmap]
    refine (capAddFields_inRange hm htier (by decide)).trans ((if_neg ?_).trans rfl)
    rw [habsent, beq_eq_false_iff_ne.mpr hsize, hnone, hother, beq_eq_false_iff_ne.mpr hpair]
    nofun
  case addNot =>
    obtain ⟨hm, htier, hp, hno⟩ := h
    refine (capAddFields_inRange hm htier hp).trans (if_pos ?_)
    simp only [Bool.or_eq_true, Bool.and_eq_true, beq_iff_eq, or_assoc]
    exact hno.imp_right fun h => h.imp_right fun ⟨hmap, h⟩ => ⟨by rw [hmap], h⟩
  case remove =>
    obtain ⟨hm, hmap, hdrain, hpresent, hroom⟩ := h
    exact (if_neg (Nat.not_lt.mpr hm)).trans ((if_neg (capRemove_drains hmap hdrain hpresent)).trans (if_neg (Nat.not_lt.mpr hroom)))
  case removeNoRoom =>
    obtain ⟨hm, hmap, hdrain, hpresent, hroom⟩ := h
    exact (if_neg (Nat.not_lt.mpr hm)).trans ((if_neg (capRemove_drains hmap hdrain hpresent)).trans (if_pos hroom))
  case removeNot =>
    obtain ⟨hm, hno⟩ := h
    refine (if_neg (Nat.not_lt.mpr hm)).trans (if_pos ?_)
    rwa [Bool.or_eq_true, Bool.or_eq_true, Bool.not_eq_true', or_assoc]
  case rethaw =>
    obtain ⟨hact, hfrozen⟩ := h
    refine (if_neg (not_not.mpr hact)).trans (if_neg ?_)
    rw [hfrozen]; nofun
  case rethawNot =>
    obtain ⟨hact, hfrozen⟩ := h
    refine (if_neg (not_not.mpr hact)).trans (if_pos ?_)
    rw [hfrozen]; rfl
  case rebuild =>
    obtain ⟨hact, hfrozen, hroom⟩ := h
    rw [← State.tierFree_matchEntry] at hroom
    refine (if_neg (not_not.mpr hact)).trans ((if_neg ?_).trans (if_neg hroom))
    rw [hfrozen]; nofun
  case rebuildNoRoom =>
    obtain ⟨hact, hfrozen, hroom⟩ := h
    rw [← State.tierFree_matchEntry] at hroom
    refine (if_neg (not_not.mpr hact)).trans ((if_neg ?_).trans (if_pos hroom))
    rw [hfrozen]; nofun
  case rebuildNot =>
    obtain ⟨hact, hfrozen⟩ := h
    refine (if_neg (not_not.mpr hact)).trans (if_pos ?_)
    rw [hfrozen]; rfl
  case shutdown =>
    obtain ⟨hrun, hon⟩ := h
    exact if_neg (not_or.mpr ⟨ne_true_of_eq_false hrun, ne_true_of_eq_false hon⟩)

end Sys2Proof.Machine
end

section
/-! SUPPORT. The mailbox commands of the OTP (R537, R588, R613, R614, R616, R617, R653) and TWIN_PAIR (R380, R649). -/

namespace Sys2Proof.Machine

/-! ### The start of a programming command (R588, R616) -/

section
variable {s : State} {g p mb : Nat}

/-- While a job runs a programming command ends with 0x07. -/
theorem State.otpStart_busy (h : s.pwr.otpJob.isSome = true) : s.otpStart g p mb = (.done 7 [], s) := if_pos h

/-- With no free slot in its group it ends with 0x08 (R613). -/
theorem State.otpStart_frozen (hj : s.pwr.otpJob = none) (hf : otpFrozen s.pwr.otp g = true) : s.otpStart g p mb = (.done 8 [], s) := by
  unfold State.otpStart
  rw [hj]
  exact (if_neg nofun).trans (if_pos hf)

/-- Otherwise its job is set, the supervisor is asked for VDD_OTP, and it waits. -/
theorem State.otpStart_free (hj : s.pwr.otpJob = none) (hf : otpFrozen s.pwr.otp g = false) :
    s.otpStart g p mb = (.wait .otp, (s.onPwr fun q => { q with otpJob := some ⟨g, p, mb⟩ }).send (.supervisor 1)) := by
  unfold State.otpStart
  rw [hj]
  exact (if_neg nofun).trans (if_neg (ne_true_of_eq_false hf))
end

/-! ### The records of OTP_DEFAULTS (R614) -/

/-- Where no record of `n` has form 3, the search for one finds none. -/
theorem noRecordOfForm3 {n : Nat} {f : Nat → Nat} (h : ∀ k ∈ List.range n, f k % 4 ≠ 3) :
    ((List.range n).find? fun k => ((List.range n).map f).getD k 0 % 4 == 3) = none := by
  refine List.find?_eq_none.mpr fun k hk => ?_
  have hget : ((List.range n).map f).getD k 0 = f k := by simp [List.mem_range.mp hk]
  rw [hget, beq_iff_eq]
  exact h k hk

/-- OTP_DEFAULTS with its count in range and its records of known forms starts the job of group 3. -/
theorem otpDefaults_inRange {n len : Nat} {f : Nat → Nat} {x : Reply × State} {y : Nat → Reply × State} {z : Reply × State} (h1 : 1 ≤ n)
    (h46 : n ≤ 46) (hlen : len = 2 + 6 * n) (hform : ∀ k ∈ List.range n, f k % 4 ≠ 3) :
    (if n < 1 ∨ 46 < n ∨ len ≠ 2 + 6 * n then x
      else match (List.range n).find? fun k => ((List.range n).map f).getD k 0 % 4 == 3 with
        | some k => y k
        | none => z) = z := by
  rw [if_neg (by omega), noRecordOfForm3 hform]

/-! ### OTP_READ (R653) -/

/-- OTP_READ of a group and a slot in range, or of the newest slot, answers what follows the checks of its fields. -/
theorem otpReadFields_inRange {α : Type} {x₁ x₂ y : α} {g i : Nat} (hg : g ≤ 5) (hi : i ≤ 3 ∨ i = 0xFF) :
    (if 5 < g then x₁ else if 3 < i ∧ i ≠ 0xFF then x₂ else y) = y :=
  (if_neg (by omega)).trans (if_neg (by omega))

/-! ### The statement -/

/-- Settles O57: each programming command by the first of its checks that fails, or by how its job starts; OTP_READ by the slot that it finds. -/
theorem otpCommandsAskForTheRailAndWait : Obligations.OtpCommandsAskForTheRailAndWait := by
  unfold Obligations.OtpCommandsAskForTheRailAndWait
  refine ⟨fun rs => .waitsFor (fun t c s => ⟨_, _, rfl, rfl⟩) fun c s h => ?repair,
    fun rs => .refuses (fun t c s => ⟨_, _, rfl, rfl⟩) fun c s h => ?repairBusy,
    .refuses (fun t c s => ⟨_, _, rfl, rfl⟩) fun c s h => ?repairFull,
    .refuses (fun t c s => ⟨_, _, rfl, rfl⟩) fun c s h => ?defaultsBusy, .refuses (fun t c s => ⟨_, _, rfl, rfl⟩) fun c s h => ?pwBusy,
    .refuses (fun t c s => ⟨_, _, rfl, rfl⟩) fun c s h => ?lockBusy, .refuses (fun t c s => ⟨_, _, rfl, rfl⟩) fun c s h => ?lockFrozen,
    .refuses (fun t c s => ⟨_, _, rfl, rfl⟩) fun c s h => ?pairFrozen,
    .waitsFor (fun t c s => ⟨_, _, rfl, rfl⟩) fun c s h => ?defaults, .refuses (fun t c s => ⟨_, _, rfl, rfl⟩) fun c s h => ?defaultsFrozen,
    .badField (fun t c s => ⟨_, _, rfl, rfl⟩) fun c s h => if_pos h,
    .waitsFor (fun t c s => ⟨_, _, rfl, rfl⟩) fun c s h => ?pw, .badField (fun t c s => ⟨_, _, rfl, rfl⟩) fun c s h => if_pos h,
    .refuses (fun t c s => ⟨_, _, rfl, rfl⟩) fun c s h => ?pwFrozen,
    .waitsFor (fun t c s => ⟨_, _, rfl, rfl⟩) fun c s h => ?lock, .refuses (fun t c s => ⟨_, _, rfl, rfl⟩) fun c s h => if_pos h,
    .waitsFor (fun t c s => ⟨_, _, rfl, rfl⟩) fun c s h => ?pair, .badField (fun t c s => ⟨_, _, rfl, rfl⟩) fun c s h => if_pos h,
    .refuses (fun t c s => ⟨_, _, rfl, rfl⟩) fun c s h => ?pairBusy,
    fun i => .completes (fun t c s => ⟨_, _, rfl, rfl⟩) fun c s h => ?readNewest, .completes (fun t c s => ⟨_, _, rfl, rfl⟩) fun c s h => ?readSlot,
    .completes (fun t c s => ⟨_, _, rfl, rfl⟩) fun c s h => ?readPwNewest, .completes (fun t c s => ⟨_, _, rfl, rfl⟩) fun c s h => ?readPwSlot,
    .refuses (fun t c s => ⟨_, _, rfl, rfl⟩) fun c s h => ?readNot, .refuses (fun t c s => ⟨_, _, rfl, rfl⟩) fun c s h => ?readNone⟩
  case repair =>
    obtain ⟨hj, hf, hrs⟩ := h
    rw [hrs]
    exact State.otpStart_free hj hf
  case repairBusy =>
    obtain ⟨hj, hrs⟩ := h
    rw [hrs]
    exact State.otpStart_busy hj
  case repairFull =>
    rw [h]
  case defaults =>
    obtain ⟨hj, hf, h1, h46, hlen, hform⟩ := h
    exact (otpDefaults_inRange h1 h46 hlen hform).trans (State.otpStart_free hj hf)
  case defaultsBusy =>
    obtain ⟨hj, -, h1, h46, hlen, hform⟩ := h
    exact (otpDefaults_inRange h1 h46 hlen hform).trans (State.otpStart_busy hj)
  case defaultsFrozen =>
    obtain ⟨hj, hf, h1, h46, hlen, hform⟩ := h
    exact (otpDefaults_inRange h1 h46 hlen hform).trans (State.otpStart_frozen hj hf)
  case pw =>
    obtain ⟨hj, hf, hw⟩ := h
    refine (if_neg hw).trans ?_
    rw [State.otpStart_free hj hf]
  case pwBusy =>
    obtain ⟨hj, hw⟩ := h
    refine (if_neg hw).trans ?_
    rw [State.otpStart_busy hj]
  case pwFrozen =>
    obtain ⟨hj, hf, hw⟩ := h
    refine (if_neg hw).trans ?_
    rw [State.otpStart_frozen hj hf]
  case lock =>
    obtain ⟨hj, hf, hopen⟩ := h
    exact (if_neg (Option.not_isSome_iff_eq_none.mpr hopen)).trans (State.otpStart_free hj hf)
  case lockBusy =>
    obtain ⟨hj, hopen⟩ := h
    exact (if_neg (Option.not_isSome_iff_eq_none.mpr hopen)).trans (State.otpStart_busy hj)
  case lockFrozen =>
    obtain ⟨hj, hf, hopen⟩ := h
    exact (if_neg (Option.not_isSome_iff_eq_none.mpr hopen)).trans (State.otpStart_frozen hj hf)
  case pair =>
    obtain ⟨hj, hf, hside⟩ := h
    exact (if_neg (Nat.not_lt.mpr hside)).trans (State.otpStart_free hj hf)
  case pairBusy =>
    obtain ⟨hj, hside⟩ := h
    exact (if_neg (Nat.not_lt.mpr hside)).trans (State.otpStart_busy hj)
  case pairFrozen =>
    obtain ⟨hj, hf, hside⟩ := h
    exact (if_neg (Nat.not_lt.mpr hside)).trans (State.otpStart_frozen hj hf)
  case readNewest =>
    obtain ⟨hg, hpw, hi, hnew⟩ := h
    refine (otpReadFields_inRange hg (.inr hi)).trans ?_
    rw [if_pos hi, hnew]
    dsimp only
    rw [if_neg hpw]
  case readSlot =>
    obtain ⟨hg, hpw, hi, hvalid⟩ := h
    refine (otpReadFields_inRange hg (.inl hi)).trans ?_
    rw [if_neg (by omega), if_pos hvalid]
    dsimp only
    rw [if_neg hpw]
  case readPwNewest =>
    obtain ⟨hpw, hi, hnew⟩ := h
    obtain ⟨i, hnew⟩ := Option.isSome_iff_exists.mp hnew
    refine (otpReadFields_inRange (by omega) (.inr hi)).trans ?_
    rw [if_pos hi, hpw, hnew]
    rfl
  case readPwSlot =>
    obtain ⟨hpw, hi, hvalid⟩ := h
    refine (otpReadFields_inRange (by omega) (.inl hi)).trans ?_
    rw [if_neg (by omega), hpw, if_pos hvalid]
    rfl
  case readNot =>
    obtain ⟨hg, hi, hvalid⟩ := h
    refine (otpReadFields_inRange hg (.inl hi)).trans ?_
    rw [if_neg (by omega), if_neg (ne_true_of_eq_false hvalid)]
  case readNone =>
    obtain ⟨hg, hi, hnone⟩ := h
    refine (otpReadFields_inRange hg (.inr hi)).trans ?_
    rw [if_pos hi, hnone]

end Sys2Proof.Machine
end

section
/-! SUPPORT. The walks of the tract map, the freezes and the thaws (R437, R438, R440 to R442). -/

namespace Sys2Proof.Machine

section
variable {s : State} {t : Ns} {n : SliceId} {e : Nat} {x : Entry} {rd : MapRead}
  (he : (s.tick t).ent n.val e = some x) (hw : x.walking = true) (hp : x.place = none) (hf : x.fail = none)
include he hw hp hf

/-- The walker counts a walk that it takes; then the frozen list decides, then the map cache, then the two copies of the map line (R438, R440). -/
theorem tractWalk_taken : exec (.tractWalk t n e rd) s = .next (
    let tr := tractOf x.req.line
    let u := (s.tick t).bumpPlc 0 0 32
    if (s.tick t).place.frozen.any fun f => f.tract == tr then u.failFrozen n.val e
    else if (s.tick t).cacheHit tr then (u.bumpPlc 0 32 32).walkGot n.val e tr (readEntry (s.tick t).place.map tr 0)
    else
      match (s.tick t).walkRead tr rd with
      | none => (if (s.tick t).rooted tr then (u.bumpPlc 1 0 32).bumpPlc 1 32 16 else u.bumpPlc 1 0 32).failWalk n.val e false
      | some (q, second) =>
        (if second then ((u.bumpPlc 1 0 32).bumpPlc 1 32 16).onPlace fun p => { p with map := Tbl.set p.map tr q } else u.bumpPlc 1 0 32).walkGot
          n.val e tr q) := by
  have htakes : ¬(!x.walking || x.place.isSome || x.fail.isSome) = true := by
    rw [hw, hp, hf]; decide
  dsimp only [exec, execTractWalk]
  rw [he]
  dsimp only
  rw [if_neg htakes, State.cacheHit_bumpPlc, State.walkRead_bumpPlc, State.walkRead_bumpPlc]
  rfl
end

/-- The one thaw attempt of a frozen tract is due: within 1 ms of the freeze, and in a solo block after 100 µs (R442). -/
theorem thaw_due {s : State} {f : Freeze} (hms : s.now ≤ f.since + 1000000) (hsolo : s.twin.st = .paired ∨ f.since + 100000 ≤ s.now) :
    ¬(f.since + 1000000 < s.now || (s.twin.st != .paired && s.now < f.since + 100000)) = true := by
  rw [Bool.or_eq_true, Bool.and_eq_true, decide_eq_true_eq, decide_eq_true_eq, bne_iff_ne]
  rintro (hlate | ⟨hunpaired, hearly⟩)
  · omega
  · rcases hsolo with hpaired | hdue
    · exact hunpaired hpaired
    · omega

/-- Settles O17: a walk by what it meets first (the frozen list, the map cache, a copy of the map line, or none), a thaw attempt by the entry
that it obtains. -/
theorem tractWalksFreezesAndThaws : Obligations.TractWalksFreezesAndThaws := by
  unfold Obligations.TractWalksFreezesAndThaws
  refine ⟨fun n e x rd t s h => ?frozen, fun n e x rd t s h => ?cached, fun n e x rd q t s h => ?firstCopy, fun n e x rd q t s h => ?secondCopy,
    fun n e x rd t s h => ?noCopy, fun n e x p q t s h => ?response, fun tract t s _ => rfl, fun tract q f t s h => ?thaws,
    fun tract lineOk f t s h => ?noEntry, fun tract f t s h => ?expires⟩
  case frozen =>
    obtain ⟨he, hw, hp, hf, hfrozen⟩ := h
    exact (tractWalk_taken he hw hp hf).trans (congrArg Host.Outcome.next (if_pos hfrozen))
  case cached =>
    obtain ⟨he, hw, hp, hf, hfrozen, hcache⟩ := h
    exact (tractWalk_taken he hw hp hf).trans (congrArg Host.Outcome.next ((if_neg (ne_true_of_eq_false hfrozen)).trans (if_pos hcache)))
  case firstCopy | secondCopy | noCopy =>
    obtain ⟨he, hw, hp, hf, hfrozen, hcache, hread⟩ := h
    rw [tractWalk_taken he hw hp hf]
    dsimp only
    rw [hread]
    exact congrArg Host.Outcome.next ((if_neg (ne_true_of_eq_false hfrozen)).trans (if_neg (ne_true_of_eq_false hcache)))
  case response =>
    obtain ⟨he, hw, hp, hfrozen, hq⟩ := h
    dsimp only [exec, execWalkResponse]
    rw [he]
    dsimp only
    rw [hw, hp]
    refine congrArg Host.Outcome.next ((if_neg (ne_true_of_eq_false hfrozen)).trans ?_)
    rw [hq]
  case thaws =>
    obtain ⟨hf, hms, hsolo, hok, hpart⟩ := h
    dsimp only [exec, execThawAttempt]
    rw [hf]
    refine congrArg Host.Outcome.next ((if_neg (thaw_due hms hsolo)).trans (if_pos ?_))
    rw [Bool.and_true, Bool.and_eq_true, beq_iff_eq]
    exact ⟨hok, hpart⟩
  case noEntry =>
    obtain ⟨hf, hms, hsolo⟩ := h
    dsimp only [exec, execThawAttempt]
    rw [hf]
    exact congrArg Host.Outcome.next (if_neg (thaw_due hms hsolo))
  case expires =>
    obtain ⟨hf, hms⟩ := h
    dsimp only [exec, execFrozenWriteHoldExpiry]
    rw [hf]
    exact congrArg Host.Outcome.next (if_neg (Nat.not_lt.mpr hms))

end Sys2Proof.Machine
end

section
/-! SUPPORT. The phases of a tract move from its start to its end (R458, R459, R465, R466, R472). -/

namespace Sys2Proof.Machine

/-- Settles O35: each command by whether a move of the tract stands in its phase, then by whether every slice has copied, by which moves the mark
drains, or by whether a slice still has something left. -/
theorem tractMovesCopyCommitDrainAndEnd : Obligations.TractMovesCopyCommitDrainAndEnd := by
  unfold Obligations.TractMovesCopyCommitDrainAndEnd
  refine ⟨fun tr v t s h => ?starts, fun tr t s h => ?startsNot, fun tr v t s h => ?copiedOwn, fun tr v t s h => ?copiedOther, fun tr v t s h => ?copiedNot,
    fun n i t s h => ?markOnly, fun n i r l t s h => ?markDrains, fun tr v t s h => ?ends, fun tr v t s h => ?endsNot⟩
  case starts =>
    dsimp only [exec, execMoveStartAck]
    rw [h]
    rfl
  case startsNot =>
    dsimp only [exec, execMoveStartAck]
    rw [h]
  case copiedOwn =>
    obtain ⟨hv, hall, hown⟩ := h
    dsimp only [exec, execMoveCopied]
    rw [hv]
    exact congrArg Host.Outcome.next ((if_pos hall).trans (if_pos hown))
  case copiedOther =>
    obtain ⟨hv, hall, hother⟩ := h
    dsimp only [exec, execMoveCopied]
    rw [hv]
    exact congrArg Host.Outcome.next ((if_pos hall).trans (if_neg (ne_true_of_eq_false hother)))
  case copiedNot =>
    obtain ⟨hv, hsome⟩ := h
    dsimp only [exec, execMoveCopied]
    rw [hv]
    exact congrArg Host.Outcome.next (if_neg (ne_true_of_eq_false hsome))
  case markOnly | markDrains =>
    dsimp only [exec, execCommitMark]
    rw [h]
    rfl
  case ends =>
    obtain ⟨hv, hgone⟩ := h
    dsimp only [exec, execMoveDone]
    rw [hv]
    exact congrArg Host.Outcome.next (if_neg (ne_true_of_eq_false hgone))
  case endsNot =>
    obtain ⟨hv, hleft⟩ := h
    dsimp only [exec, execMoveDone]
    rw [hv]
    exact congrArg Host.Outcome.next (if_pos hleft)

end Sys2Proof.Machine
end

section
/-! SUPPORT. The flash and firmware commands (R655, R657, R661) and the retirement of media tracts and log entries (R471, R654). -/

namespace Sys2Proof.Machine

/-- Where no job stands, none writes flash (R659). -/
theorem noFlashJob {j : Option FlashJob} (h : j = none) : j.isSome = false := by
  rw [h]; rfl

/-! ### The boot selector (R657, R661) -/

/-- A swap programs the copy that is not in force with GEN one higher; with no valid copy, copy 0 with GEN 1. -/
theorem State.swapSelector_eq (s : State) (mb : Nat) (active : Bool) :
    s.swapSelector mb active =
      let c := (s.selector.map fun x => (1 - x.1, (x.2.1 + 1) % 2 ^ 32)).getD (0, 1)
      (.wait (.flash 0), s.fresh.2.flashStart mb (.selector c.1 c.2 active) [flashDesc 4 (0x1000 * c.1) 0 0 (some mb), flashDesc 3 (0x1000 * c.1) 0 0 (some mb),
        flashDesc 2 (0x1000 * c.1) (s.fresh.1.toNat % 2 ^ 22) 4096 (some mb)]) := by
  unfold State.swapSelector
  cases s.selector with
  | none => rfl
  | some x => rfl

/-- ACTIVATE_FW offline, of a slot that there is, with an image that passes its check, answers what follows the checks of its fields. -/
theorem activateFields_inRange {α : Type} {x₁ x₂ x₃ y : α} {act slot : Nat} (ha : act = 1) (hslot : slot = 1 ∨ slot = 2) :
    (if act = 0 then x₁ else if act ≠ 1 then x₂ else if slot = 0 ∨ 2 < slot ∨ (!true) = true then x₃ else y) = y := by
  refine (if_neg (by omega)).trans ((if_neg (not_not.mpr ha)).trans (if_neg ?_))
  rintro (h0 | hover | hbad)
  · omega
  · omega
  · exact nomatch hbad

/-! ### TRANSFER_FW (R661) -/

/-- A part with a known action, and with presence where it initiates, answers what follows the first two checks. -/
theorem transferAction_ok {α : Type} {x₁ x₂ y : α} {act : Nat} {presence : Bool} (ha : act ≤ 4) (hp : act ≤ 1 → presence = true) :
    (if 4 < act then x₁ else if act ≤ 1 ∧ (!presence) = true then x₂ else y) = y := by
  refine (if_neg (by omega)).trans (if_neg ?_)
  rintro ⟨hinitiates, hno⟩
  rw [hp hinitiates] at hno
  exact nomatch hno

/-- A part with no transfer of another mailbox and no job in the flash answers what follows the check of the slot. -/
theorem transfer_free {α : Type} {x y : α} {other busy : Bool} (ho : other = false) (hb : busy = false) :
    (if other = true ∨ busy = true then x else y) = y :=
  if_neg (not_or.mpr ⟨ne_true_of_eq_false ho, ne_true_of_eq_false hb⟩)

/-- A part that passes these checks, of a slot that there is and that is not the one booted from, answers what its action does. -/
theorem transferChecks_pass {α : Type} {x₁ x₂ x₃ x₄ y : α} {act slot booted : Nat} {presence other busy : Bool} (ha : act ≤ 4)
    (hp : act ≤ 1 → presence = true) (ho : other = false) (hb : busy = false) (hslot : slot = 1 ∨ slot = 2) (hne : slot - 1 ≠ booted) :
    (if 4 < act then x₁ else if act ≤ 1 ∧ (!presence) = true then x₂ else if other = true ∨ busy = true then x₃ else
      if slot = 0 ∨ 2 < slot ∨ slot - 1 = booted then x₄ else y) = y :=
  (transferAction_ok ha hp).trans ((transfer_free ho hb).trans (if_neg (by omega)))

/-- A transfer that stands is another mailbox's, as the two spellings of the check say. -/
theorem xfer_other (x : Option (Nat × Nat)) (mb : Nat) :
    (match x with
      | some y => y.1 != mb
      | none => false) = x.any fun y => y.1 != mb := by
  cases x with
  | none => rfl
  | some y => rfl

/-- A mailbox's own transfer is no other mailbox's. -/
theorem xfer_mine {x : Option (Nat × Nat)} {mb b : Nat} (h : x = some (mb, b)) : (x.any fun y => y.1 != mb) = false := by
  rw [h]
  exact bne_self_eq_false mb

/-- Settles O58: each command by the first of its checks that fails, or by none failing. -/
theorem flashAndRetirementCommands : Obligations.FlashAndRetirementCommands := by
  unfold Obligations.FlashAndRetirementCommands
  refine ⟨.completes (fun t c s => ⟨_, _, rfl, rfl⟩) fun c s _ => rfl, .completes (fun t c s => ⟨_, _, rfl, rfl⟩) fun c s _ => rfl,
    .waitsFor (fun t c s => ⟨_, _, rfl, rfl⟩) fun c s h => ?select, fun ok => .refuses (fun t c s => ⟨_, _, rfl, rfl⟩) fun c s h => ?selectNot,
    .refuses (fun t c s => ⟨_, _, rfl, rfl⟩) fun c s h => ?selectBad,
    .waitsFor (fun t c s => ⟨_, _, rfl, rfl⟩) fun c s h => ?activate, .refuses (fun t c s => ⟨_, _, rfl, rfl⟩) fun c s h => ?activateBusy,
    fun ok => .refuses (fun t c s => ⟨_, _, rfl, rfl⟩) fun c s h => if_pos h, .badField (fun t c s => ⟨_, _, rfl, rfl⟩) fun c s h => ?activateBad,
    .starts (fun t c s => ⟨_, _, rfl, rfl⟩) fun c s h => ?initiate, .refuses (fun t c s => ⟨_, _, rfl, rfl⟩) fun c s h => ?absent,
    .refuses (fun t c s => ⟨_, _, rfl, rfl⟩) fun c s h => ?transferBusy, .badField (fun t c s => ⟨_, _, rfl, rfl⟩) fun c s h => ?slotNot,
    .badField (fun t c s => ⟨_, _, rfl, rfl⟩) fun c s h => ?unstarted, .waitsFor (fun t c s => ⟨_, _, rfl, rfl⟩) fun c s h => ?laterPart,
    .completes (fun t c s => ⟨_, _, rfl, rfl⟩) fun c s h => ?abort,
    .completes (fun t c s => ⟨_, _, rfl, rfl⟩) fun c s h => ?retire, .badField (fun t c s => ⟨_, _, rfl, rfl⟩) fun c s h => ?retireOver,
    .badField (fun t c s => ⟨_, _, rfl, rfl⟩) fun c s h => ?retireNoPort,
    .badField (fun t c s => ⟨_, _, rfl, rfl⟩) fun c s h => ?clearNoStook, .completes (fun t c s => ⟨_, _, rfl, rfl⟩) fun c s h => ?clear,
    .refuses (fun t c s => ⟨_, _, rfl, rfl⟩) fun c s h => ?clearNone⟩
  case select =>
    obtain ⟨hb, hnamed, hidle⟩ := h
    refine (if_neg (Nat.not_lt.mpr hb)).trans ((if_neg ?_).trans (State.swapSelector_eq ..))
    rw [hnamed, noFlashJob hidle]
    decide
  case selectNot =>
    obtain ⟨hb, hnamed | hbusy⟩ := h
    · exact (if_neg (Nat.not_lt.mpr hb)).trans (if_pos (.inl hnamed))
    · exact (if_neg (Nat.not_lt.mpr hb)).trans (if_pos (.inr (.inr hbusy)))
  case selectBad => exact (if_neg (Nat.not_lt.mpr h)).trans (if_pos (.inr (.inl rfl)))
  case activate =>
    obtain ⟨ha, hslot, hidle⟩ := h
    exact (activateFields_inRange ha hslot).trans ((if_neg (ne_true_of_eq_false (noFlashJob hidle))).trans (State.swapSelector_eq ..))
  case activateBusy =>
    obtain ⟨ha, hslot, hbusy⟩ := h
    exact (activateFields_inRange ha hslot).trans (if_pos hbusy)
  case activateBad => exact (if_neg (by omega)).trans ((if_neg (not_not.mpr h)).trans (if_pos (.inr (.inr rfl))))
  case initiate =>
    obtain ⟨ha, hp, hother, hslot, hne, hidle⟩ := h
    exact (transferChecks_pass (by omega) (fun _ => hp) ((xfer_other ..).trans hother) (noFlashJob hidle) hslot hne).trans (if_pos ha)
  case absent =>
    obtain ⟨ha, hp⟩ := h
    refine (if_neg (by omega)).trans (if_pos ⟨ha, ?_⟩)
    rw [hp]; rfl
  case transferBusy =>
    obtain ⟨ha, hp, hbusy⟩ := h
    exact (transferAction_ok ha hp).trans (if_pos (hbusy.imp_left (xfer_other ..).trans))
  case slotNot =>
    obtain ⟨ha, hp, hnone, hidle, hslot⟩ := h
    refine (transferAction_ok ha hp).trans ((transfer_free ((xfer_other ..).trans ?_) (noFlashJob hidle)).trans (if_pos hslot))
    rw [hnone]; rfl
  case unstarted =>
    obtain ⟨h2, ha, hnone, hslot, hne, hidle⟩ := h
    refine (transferChecks_pass ha (by omega) ((xfer_other ..).trans ?_) (noFlashJob hidle) hslot hne).trans ((if_neg (by omega)).trans (if_pos ?_))
    all_goals
      rw [hnone]
      rfl
  case laterPart =>
    obtain ⟨ha, hmine, hslot, hne, hidle⟩ := h
    refine (transferChecks_pass (by omega) (by omega) ((xfer_other ..).trans (xfer_mine hmine)) (noFlashJob hidle) hslot hne).trans ?_
    refine (if_neg (by omega)).trans ((if_neg ?_).trans (if_neg (by omega)))
    rw [hmine, beq_self_eq_true]; decide
  case abort =>
    obtain ⟨ha, hmine, hslot, hne, hidle⟩ := h
    refine (transferChecks_pass (by omega) (by omega) ((xfer_other ..).trans (xfer_mine hmine)) (noFlashJob hidle) hslot hne).trans ?_
    refine (if_neg (by omega)).trans ((if_neg ?_).trans (if_pos ha))
    rw [hmine, beq_self_eq_true]; decide
  case retire =>
    obtain ⟨ha, hm, hpresent, hroom⟩ := h
    refine (if_neg (not_not.mpr ha)).trans ((if_neg ?_).trans (if_neg (Nat.not_lt.mpr hroom)))
    exact not_or.mpr ⟨Nat.not_lt.mpr hm, by rw [hpresent]; decide⟩
  case retireOver =>
    obtain ⟨ha, hm, hpresent, hover⟩ := h
    refine (if_neg (not_not.mpr ha)).trans ((if_neg ?_).trans (if_pos hover))
    exact not_or.mpr ⟨Nat.not_lt.mpr hm, by rw [hpresent]; decide⟩
  case retireNoPort =>
    obtain ⟨ha, hno⟩ := h
    exact (if_neg (not_not.mpr ha)).trans (if_pos (hno.imp_right (Bool.not_eq_true' _).mpr))
  case clearNoStook =>
    obtain ⟨ha, hk⟩ := h
    exact (if_neg (not_not.mpr ha)).trans (if_pos hk)
  case clear =>
    obtain ⟨ha, hk, he⟩ := h
    exact (if_neg (not_not.mpr ha)).trans ((if_neg (Nat.not_lt.mpr hk)).trans (if_neg (Nat.not_le.mpr he)))
  case clearNone =>
    obtain ⟨ha, hk, he⟩ := h
    exact (if_neg (not_not.mpr ha)).trans ((if_neg (Nat.not_lt.mpr hk)).trans (if_pos he))

end Sys2Proof.Machine
end

section
/-! SUPPORT. The controls of the mailboxes outside their commands: the abort flag, the limit of a foreground wait, the end of background work
(R626, R628 to R630, R640). -/

namespace Sys2Proof.Machine

section
variable {s : State} {t : Ns} {mb : MbxId}

/-! ### COMMAND_TIMEOUT (R628, R640) -/

/-- A wait that no limit ends is left as it is, before its 10 ms and after. -/
theorem commandTimeout_leaves {w : Option Wait} (hw : ((s.tick t).box mb.val).wait = w) (hslot : ∀ k, w ≠ some (.slot k)) (hflash : ∀ k, w ≠ some (.flash k)) :
    exec (.commandTimeout t mb) s = .next (s.tick t) := by
  dsimp only [exec, execCommandTimeout]
  rw [hw]
  refine congrArg Host.Outcome.next (ite_eq_left_iff.mpr fun _ => ?_)
  split
  · exact absurd rfl (hslot _)
  · exact absurd rfl (hflash _)
  · rfl

/-- Once 10 ms have passed since the acceptance of a command that still runs, its limit has come. -/
theorem limit_reached {b : MBox} {now : Nat} (hrun : b.doorbell = true) (hms : b.acceptAt + 10000000 ≤ now) :
    ¬((!b.doorbell) = true ∨ now < b.acceptAt + 10000000) := by
  rw [hrun]
  exact not_or.mpr ⟨nofun, Nat.not_lt.mpr hms⟩

/-! ### BACKGROUND_COMPLETE (R629) -/

/-- Background work that runs ends as its own kind says. -/
theorem backgroundComplete_running {b : Bg} {v : Fin 9} (hb : ((s.tick t).box mb.val).bg = some b) (hrun : ((s.tick t).box mb.val).bgRun = true) :
    exec (.backgroundComplete t mb v) s = .next ((s.tick t).bgFinish mb.val b v.val) := by
  dsimp only [exec, execBackgroundComplete]
  rw [hb]
  exact congrArg Host.Outcome.next (if_pos hrun)

/-- Where none runs, nothing changes. -/
theorem backgroundComplete_idle {v : Fin 9} (h : ((s.tick t).box mb.val).bg = none ∨ ((s.tick t).box mb.val).bgRun = false) :
    exec (.backgroundComplete t mb v) s = .next (s.tick t) := by
  dsimp only [exec, execBackgroundComplete]
  refine congrArg Host.Outcome.next ?_
  rcases h with hnone | hidle
  · rw [hnone]
  · split
    · exact if_neg (ne_true_of_eq_false hidle)
    · rfl
end

/-- Background work of a kind that runs has, at its end, the effect of that kind. -/
theorem backgroundComplete_does {mb : MbxId} (b : Bg) {v : Fin 9} {H : State → Prop} {E : State → State}
    (h : ∀ s, H s → (s.box mb.val).bg = some b ∧ (s.box mb.val).bgRun = true ∧ s.bgFinish mb.val b v.val = E s) :
    Does (fun t => .backgroundComplete t mb v) H E := fun t s hH => by
  obtain ⟨hb, hrun, hend⟩ := h _ hH
  exact (backgroundComplete_running hb hrun).trans (congrArg Host.Outcome.next hend)

/-- Settles O59: an abort by whether work runs, a limit by whether it has come and by what the command waits for, the end of background work by
its kind. -/
theorem mailboxControlsAbortTimeOutAndComplete : Obligations.MailboxControlsAbortTimeOutAndComplete := by
  unfold Obligations.MailboxControlsAbortTimeOutAndComplete
  refine ⟨fun mb t s h => ?abort, fun mb t s h => ?abortNot, fun mb t s h => ?early, fun mb k t s h => ?slot, fun mb k t s h => ?slotPast,
    fun mb k t s h => ?flash, fun mb t s h => ?unlimited, fun mb v t s h => backgroundComplete_idle h,
    fun mb p v t s h => backgroundComplete_running h.1 h.2, fun mb p n v t s h => backgroundComplete_running h.1 h.2,
    fun mb p e v t s h => backgroundComplete_running h.1 h.2, fun mb p v t s h => backgroundComplete_running h.1 h.2,
    fun mb p j v => backgroundComplete_does (.plateRelease p j) fun s h => ?released, fun mb p j v => backgroundComplete_does (.plateRelease p j) fun s h => ?readsLeft,
    fun mb m => backgroundComplete_does (.capRemove m) fun s h => ?capRemove, fun mb => backgroundComplete_does .dirRefresh fun s h => ?refreshed,
    fun mb v => backgroundComplete_does .shutdown fun s h => ?shutdown, fun mb v t s h => backgroundComplete_running h.1 h.2,
    fun mb tr v t s h => backgroundComplete_running h.1 h.2, fun mb tr v t s h => backgroundComplete_running h.1 h.2,
    fun mb b v => backgroundComplete_does (.transferFw b) fun s h => ?transferred⟩
  case abort =>
    dsimp only [exec, execBgAbort, State.askAbort, State.onBox]
    rw [if_pos h]
  case abortNot =>
    dsimp only [exec, execBgAbort, State.askAbort, State.onBox]
    rw [if_neg (ne_true_of_eq_false h)]
  case early =>
    refine congrArg Host.Outcome.next (if_pos (h.imp_left fun hidle => ?_))
    rw [hidle]; rfl
  case slot =>
    obtain ⟨hrun, hms, hwait, hcancels⟩ := h
    refine congrArg Host.Outcome.next ((if_neg (limit_reached hrun hms)).trans ?_)
    rw [hwait]
    exact if_pos hcancels
  case slotPast =>
    obtain ⟨hwait, hpast⟩ := h
    refine congrArg Host.Outcome.next (ite_eq_left_iff.mpr fun _ => ?_)
    rw [hwait]
    exact if_neg hpast
  case flash =>
    obtain ⟨hrun, hms, hwait⟩ := h
    refine congrArg Host.Outcome.next ((if_neg (limit_reached hrun hms)).trans ?_)
    rw [hwait]
  case unlimited =>
    rcases h with hwait | hwait | hwait | ⟨k, hwait⟩
    all_goals exact commandTimeout_leaves hwait nofun nofun
  case released =>
    obtain ⟨hb, hrun, hnone⟩ := h
    exact ⟨hb, hrun, if_neg (ne_true_of_eq_false hnone)⟩
  case readsLeft =>
    obtain ⟨hb, hrun, hleft⟩ := h
    exact ⟨hb, hrun, if_pos hleft⟩
  case capRemove =>
    obtain ⟨hb, hrun, hasked⟩ := h
    exact ⟨hb, hrun, if_pos ⟨rfl, hasked⟩⟩
  case refreshed =>
    obtain ⟨hb, hrun, hover⟩ := h
    refine ⟨hb, hrun, ?_⟩
    dsimp only [State.bgFinish]
    rw [if_neg (fun h5 => nomatch h5.1), hover]
    exact if_pos ⟨rfl, rfl⟩
  case shutdown =>
    obtain ⟨hb, hrun, hoff⟩ := h
    exact ⟨hb, hrun, if_pos hoff⟩
  case transferred =>
    obtain ⟨hb, hrun, hall⟩ := h
    refine ⟨hb, hrun, if_neg fun h0 => ?_⟩
    rw [hall] at h0
    exact nomatch h0.2

end Sys2Proof.Machine
end

section
/-! SUPPORT. COUNTER_READ: words of the holding registers and statistics records of the last snapshot (R513, R652, R693). -/

namespace Sys2Proof.Machine

/-! ### The fields of COUNTER_READ, by the space that they name (R652) -/

section
variable {α : Type} {badKind badFirst badCount regs badRecord badRecords stats : α} {kind first n : Nat}

/-- Registers in range of the block's window: what follows the checks of the holding registers answers. -/
theorem counterReadFields_registers (hk : kind = 0) (ha : first % 4 = 0) (hf : first < 0x400000) (h1 : 1 ≤ n) (hn : n ≤ 1020)
    (hend : first + 4 * n ≤ 0x400000) :
    (if 1 < kind then badKind else if kind = 0 then
      if first % 4 ≠ 0 ∨ 0x400000 ≤ first then badFirst else if n = 0 ∨ 1020 < n ∨ 0x400000 < first + 4 * n then badCount else regs
      else stats) = regs :=
  (if_neg (by omega)).trans <| (if_pos hk).trans <| (if_neg (by omega)).trans (if_neg (by omega))

/-- Records in range of the frozen bank: what follows the checks of the statistics answers. -/
theorem counterReadFields_statistics (hk : kind = 1) (hf : first ≤ 1172) (h1 : 1 ≤ n) (hn : n ≤ 63) (hend : first + n ≤ 1173) :
    (if 1 < kind then badKind else if kind = 0 then regs else
      if 1172 < first then badRecord else if n = 0 ∨ 63 < n ∨ 1173 < first + n then badRecords else stats) = stats :=
  (if_neg (by omega)).trans <| (if_neg (by omega)).trans <| (if_neg (by omega)).trans (if_neg (by omega))
end

/-! ### The statement -/

/-- Settles O56: the command by the first of its checks that fails, in the order kind, FIRST, COUNT, snapshot, or by none failing. -/
theorem countersAreReadFromTheSnapshot : Obligations.CountersAreReadFromTheSnapshot := by
  unfold Obligations.CountersAreReadFromTheSnapshot
  refine ⟨.completes (fun t c s => ⟨_, _, rfl, rfl⟩) fun c s h => ?registers, .completes (fun t c s => ⟨_, _, rfl, rfl⟩) fun c s h => ?statistics,
    .refuses (fun t c s => ⟨_, _, rfl, rfl⟩) fun c s h => ?noSnapshot, .badField (fun t c s => ⟨_, _, rfl, rfl⟩) fun c s h => if_pos h,
    .badField (fun t c s => ⟨_, _, rfl, rfl⟩) fun c s h => ?badFirst, .badField (fun t c s => ⟨_, _, rfl, rfl⟩) fun c s h => ?badCount⟩
  case registers =>
    obtain ⟨hk, ha, hf, h1, hn, hend, hvalid⟩ := h
    refine (counterReadFields_registers hk ha hf h1 hn hend).trans (if_neg ?_)
    rw [hvalid]; nofun
  case statistics =>
    obtain ⟨hk, hf, h1, hn, hend, hvalid⟩ := h
    refine (counterReadFields_statistics hk hf h1 hn hend).trans (if_neg ?_)
    rw [hvalid]; nofun
  case noSnapshot =>
    obtain ⟨hnone, ⟨hk, ha, hf, h1, hn, hend⟩ | ⟨hk, hf, h1, hn, hend⟩⟩ := h
    · exact (counterReadFields_registers hk ha hf h1 hn hend).trans (if_pos ((Bool.not_eq_true' _).mpr hnone))
    · exact (counterReadFields_statistics hk hf h1 hn hend).trans (if_pos ((Bool.not_eq_true' _).mpr hnone))
  case badFirst =>
    rcases h with ⟨hk, hbad⟩ | ⟨hk, hbad⟩
    · exact (if_neg (by omega)).trans <| (if_pos hk).trans (if_pos hbad)
    · exact (if_neg (by omega)).trans <| (if_neg (by omega)).trans (if_pos hbad)
  case badCount =>
    rcases h with ⟨hk, ha, hf, hbad⟩ | ⟨hk, hf, hbad⟩
    · exact (if_neg (by omega)).trans <| (if_pos hk).trans <| (if_neg (by omega)).trans (if_pos hbad)
    · exact (if_neg (by omega)).trans <| (if_neg (by omega)).trans <| (if_neg (by omega)).trans (if_pos hbad)

end Sys2Proof.Machine
end

section
/-! SUPPORT. One step, and what every command keeps: the command at the front of the queue, the waiting commands, the time of the block. -/

namespace Sys2Proof.Machine

/-- Settles O1: a step is one match on the queue. -/
theorem aStepRunsTheCommandAtTheFrontOfTheQueue : Obligations.AStepRunsTheCommandAtTheFrontOfTheQueue := by
  refine ⟨fun c rest s => rfl, fun s h => ?_⟩
  unfold step
  rw [h]

/-- A lock of a block that has locked leaves the time as it stands (R280). -/
theorem meridianLock_again {t : Ns} {s : State} (h : (s.tick t).mer.st ≠ .unlocked) : exec (.meridianLock t) s = .next (s.tick t) :=
  congrArg Host.Outcome.next (if_neg fun hlock => h hlock.1)

/-- Settles O3: the queue and the time by what each command does to the spine; a lock that comes again by its own test. -/
theorem everyCommandCompletesAndKeepsTheQueue : Obligations.EveryCommandCompletesAndKeepsTheQueue := by
  refine ⟨fun i s => ?_, fun t s h => ⟨s.tick t, meridianLock_again h, s.tick_now t, rfl⟩⟩
  obtain ⟨u, hu, hqueue, htime, -⟩ := exec_spine i s
  exact ⟨u, hu, hqueue.symm, htime⟩

end Sys2Proof.Machine
end

section
/-! SUPPORT. Media commands without an answer, and faults that a media controller reports (R528, R554, R710). -/

namespace Sys2Proof.Machine

section
variable {o : MOp} {now tmo : Nat}

/-- A read that is not accepted has come to READ_TMO when its time is over. -/
theorem readTimeout_reached (hw : o.write = false) (ha : o.accepted = false) (hlate : o.since + tmo * 1000 ≤ now) :
    ¬(o.write || o.accepted || now < o.since + tmo * 1000) = true := by
  rw [hw, ha, decide_eq_false (Nat.not_lt.mpr hlate)]
  decide

/-- An accepted write has come to WRITE_TMO when its time is over. -/
theorem writeTimeout_reached (hw : o.write = true) (ha : o.accepted = true) (hlate : o.since + tmo * 1000 ≤ now) :
    ¬(!o.write || !o.accepted || now < o.since + tmo * 1000) = true := by
  rw [hw, ha, decide_eq_false (Nat.not_lt.mpr hlate)]
  decide
end

/-- Settles O16: a late command by whether it is a read or a write and by whether it was repeated before, a second late read by whom it
was for. -/
theorem mediaTimeoutsRepeatOnceAndFaultsAreRaised : Obligations.MediaTimeoutsRepeatOnceAndFaultsAreRaised := by
  unfold Obligations.MediaTimeoutsRepeatOnceAndFaultsAreRaised
  refine ⟨fun m id o t s h => ?readFirst, fun m id o e t s h => ?readLost, fun m id o e t s h => ?scrubLost, fun m id o t s h => ?writeFirst,
    fun m id o t s h => ?writeAgain, fun m kind t s _ => rfl⟩
  case readFirst =>
    obtain ⟨ho, hw, ha, hlate, hfirst⟩ := h
    dsimp only [exec, execMediaReadTimeout]
    rw [ho]
    exact congrArg Host.Outcome.next ((if_neg (readTimeout_reached hw ha hlate)).trans (if_pos hfirst))
  case readLost | scrubLost =>
    obtain ⟨ho, hw, ha, hlate, hagain, hpurp⟩ := h
    dsimp only [exec, execMediaReadTimeout]
    rw [ho]
    refine congrArg Host.Outcome.next ((if_neg (readTimeout_reached hw ha hlate)).trans ((if_neg hagain).trans ?_))
    rw [hpurp]
  case writeFirst =>
    obtain ⟨ho, hw, ha, hlate, hfirst⟩ := h
    dsimp only [exec, execMediaWriteTimeout]
    rw [ho]
    exact congrArg Host.Outcome.next ((if_neg (writeTimeout_reached hw ha hlate)).trans (if_pos hfirst))
  case writeAgain =>
    obtain ⟨ho, hw, ha, hlate, hagain⟩ := h
    dsimp only [exec, execMediaWriteTimeout]
    rw [ho]
    exact congrArg Host.Outcome.next ((if_neg (writeTimeout_reached hw ha hlate)).trans (if_neg hagain))

end Sys2Proof.Machine
end

section
/-! SUPPORT. The commands that read and clear fault records: Almanac, first fault, correctable errors, last gasp (R651). -/

namespace Sys2Proof.Machine

/-- ALM_READ with MAX and ACK in range answers what follows the checks of its fields. -/
theorem almReadFields_inRange {α : Type} {badMax badAck x : α} {max ack : Nat} (h1 : 1 ≤ max) (hmax : max ≤ 126) (hack : ack ≤ 1) :
    (if max < 1 ∨ 126 < max then badMax else if 1 < ack then badAck else x) = x :=
  (if_neg (by omega)).trans (if_neg (by omega))

/-- The slot that LASTGASP reads: the one named, or the newer valid one for 2. -/
theorem lastgaspSlot_named {k : Nat} (newer : Option Nat) (h : k ≤ 1) : (if k = 2 then newer else some k) = some k := if_neg (by omega)

/-- Settles O55: each command by the first of its fields that is out of range; ALM_READ by ACK and by the last record it returns, the
clear of the first fault by whether it is refused, LASTGASP by the slot that it names. -/
theorem faultRecordsAreReadAndCleared : Obligations.FaultRecordsAreReadAndCleared := by
  unfold Obligations.FaultRecordsAreReadAndCleared
  refine ⟨.completes (fun t c s => ⟨_, _, rfl, rfl⟩) fun c s h => ?read, fun r => .completes (fun t c s => ⟨_, _, rfl, rfl⟩) fun c s h => ?ack,
    .completes (fun t c s => ⟨_, _, rfl, rfl⟩) fun c s h => ?ackNothing, .badField (fun t c s => ⟨_, _, rfl, rfl⟩) fun c s h => ?badAck,
    .badField (fun t c s => ⟨_, _, rfl, rfl⟩) fun c s h => if_pos h, .completes (fun t c s => ⟨_, _, rfl, rfl⟩) fun c s h => if_neg (not_not.mpr h),
    .completes (fun t c s => ⟨_, _, rfl, rfl⟩) fun c s h => ?clear,
    .of_body (r := fun _ s => .done 7 s.firstBytes) (u := fun _ s => s.bumpWin 7 16 16) (fun t c s => ⟨_, _, rfl, rfl⟩) fun c s h => ?clearRefused,
    .completes (fun t c s => ⟨_, _, rfl, rfl⟩) fun c s h => if_neg (Nat.not_lt.mpr h), .badField (fun t c s => ⟨_, _, rfl, rfl⟩) fun c s h => if_pos h,
    fun b => .completes (fun t c s => ⟨_, _, rfl, rfl⟩) fun c s h => ?gasp, fun k b => .completes (fun t c s => ⟨_, _, rfl, rfl⟩) fun c s h => ?gaspNewer,
    .refuses (fun t c s => ⟨_, _, rfl, rfl⟩) fun c s h => ?gaspNone⟩
  case read =>
    obtain ⟨h1, hmax, hack⟩ := h
    refine (almReadFields_inRange h1 hmax (by omega)).trans (congrArg (Prod.mk _) ?_)
    split
    · exact if_neg (by omega)
    · rfl
  case ack =>
    obtain ⟨h1, hmax, hack, hlast⟩ := h
    refine (almReadFields_inRange h1 hmax (by omega)).trans (congrArg (Prod.mk _) ?_)
    rw [hlast]
    exact if_pos hack
  case ackNothing =>
    obtain ⟨h1, hmax, hack, hlast⟩ := h
    refine (almReadFields_inRange h1 hmax (by omega)).trans (congrArg (Prod.mk _) ?_)
    rw [hlast]
  case badAck =>
    obtain ⟨h1, hmax, hack⟩ := h
    exact (if_neg (by omega)).trans (if_pos hack)
  case clear =>
    obtain ⟨h1, hfree⟩ := h
    refine (if_neg (not_not.mpr h1)).trans ?_
    rw [State.clearFirst, hfree]
    rfl
  case clearRefused =>
    obtain ⟨h1, hbusy⟩ := h
    refine (if_neg (not_not.mpr h1)).trans ?_
    rw [State.clearFirst, hbusy]
    rfl
  case gasp =>
    obtain ⟨hk, hb⟩ := h
    refine (if_neg (by omega)).trans ?_
    rw [lastgaspSlot_named _ hk, Option.bind_some, hb]
  case gaspNewer =>
    obtain ⟨hk, hnewer, hb⟩ := h
    refine (if_neg (by omega)).trans ?_
    rw [if_pos hk, hnewer, Option.bind_some, hb]
  case gaspNone =>
    rcases h with ⟨hk, hnone⟩ | ⟨hk, hnone⟩
    · refine (if_neg (by omega)).trans ?_
      rw [lastgaspSlot_named _ hk, Option.bind_some, hnone]
    · refine (if_neg (by omega)).trans ?_
      rw [if_pos hk, hnone, Option.bind_none]

end Sys2Proof.Machine
end

section
/-! SUPPORT. Winnow's own commands: events taken and repeated, the event line, and what Winnow does beside classification (R547 to R582). -/

namespace Sys2Proof.Machine

/-! ### Events (R547, R548, R555) -/

section
variable {t : Ns} {s : State} {src : SrcId}

/-- A source that raises nothing leaves WINNOW_EVENT the events that are there. -/
theorem winnowEvent_noSource (x : EvIn) (h : noSource src.val = true) : exec (.winnowEvent t src (some x)) s = exec (.winnowEvent t src none) s := by
  dsimp only [exec, execWinnowEvent]
  rw [if_pos h]

/-- WINNOW_EVENT takes the oldest event that Winnow has not taken. -/
theorem winnowEvent_takes {v : Ev} (h : ((s.tick t).events.find? fun v => v.src == src.val && !(s.tick t).evTaken v) = some v) :
    exec (.winnowEvent t src none) s = .next ((s.tick t).takeEvent v) := by
  dsimp only [exec, execWinnowEvent]
  rw [h]

/-- Without such an event it does nothing. -/
theorem winnowEvent_idle (h : ((s.tick t).events.find? fun v => v.src == src.val && !(s.tick t).evTaken v) = none) :
    exec (.winnowEvent t src none) s = .next (s.tick t) := by
  dsimp only [exec, execWinnowEvent]
  rw [h]

/-- Of a source that raises an event now, it takes the oldest event not taken of the state in which the event is raised. -/
theorem winnowEvent_raised {u : State} (x : EvIn) (hsrc : noSource src.val = false)
    (hu : (s.tick t).raiseC src.val x.kind.toNat none x.line.toNat x.part.val x.unit.val x.extra.val = u) :
    (∀ v, (u.events.find? fun v => v.src == src.val && !u.evTaken v) = some v → exec (.winnowEvent t src (some x)) s = .next (u.takeEvent v)) ∧
    ((u.events.find? fun v => v.src == src.val && !u.evTaken v) = none → exec (.winnowEvent t src (some x)) s = .next u) := by
  subst hu
  dsimp only [exec, execWinnowEvent]
  rw [if_neg (ne_true_of_eq_false hsrc)]
  constructor
  · intro v hv
    rw [hv]
  · intro hnone
    rw [hnone]
end

/-- No event has been taken where Winnow has taken none. -/
theorem State.evTaken_none {s : State} (h : s.win.taken = []) (v : Ev) : s.evTaken v = false := by
  unfold State.evTaken
  rw [h]
  rfl

/-- Settles O37: WINNOW_EVENT by whether the source raises an event now and finds a place for it, EVENT_RESEND by how often the oldest late
event was repeated and whether Winnow has taken it. -/
theorem winnowTakesEachEventOnce : Obligations.WinnowTakesEachEventOnce := by
  unfold Obligations.WinnowTakesEachEventOnce
  refine ⟨fun src v t s h => winnowEvent_takes h, fun src t s h => winnowEvent_idle h,
    fun src x v t s h => (winnowEvent_raised x h.1 rfl).1 v h.2, fun src x t s h => (winnowEvent_noSource x h.1).trans (winnowEvent_idle h.2),
    fun src x t s h => ?first, fun src x t s h => ?full, fun src v t s h => ?repeated, fun src v t s h => ?takenAgain, fun src v t s h => ?line,
    fun src t s h => ?notLate, fun x t s _ => rfl⟩
  case first =>
    obtain ⟨hsrc, htaken, hnone⟩ := h
    have hraised := (raised_eq (s.tick t) src x).trans (if_pos (by rw [hnone]; exact Nat.zero_lt_succ 3))
    rw [hnone, List.nil_append] at hraised
    refine (winnowEvent_raised x hsrc hraised).1 _ (List.find?_cons_of_pos ?_)
    rw [State.evTaken_none (by exact (congrArg Win.taken (State.eventPacket_win ..)).trans htaken), beq_self_eq_true]
    rfl
  case full =>
    obtain ⟨hsrc, hfull, hnone⟩ := h
    exact (winnowEvent_raised x hsrc ((raised_eq ..).trans (if_neg (Nat.not_lt.mpr hfull)))).2 hnone
  case repeated =>
    obtain ⟨hv, hfew, hnew⟩ := h
    dsimp only [exec, execEventResend]
    rw [hv]
    refine congrArg Host.Outcome.next ((if_neg (Nat.not_le.mpr hfew)).trans (if_neg ?_))
    refine ne_true_of_eq_false (Eq.trans ?_ hnew)
    simp only [State.evTaken, State.bumpWin_win, State.eventPacket_win]
  case takenAgain =>
    obtain ⟨hv, hfew, htaken⟩ := h
    dsimp only [exec, execEventResend]
    rw [hv]
    refine congrArg Host.Outcome.next ((if_neg (Nat.not_le.mpr hfew)).trans (if_pos ?_))
    refine Eq.trans ?_ htaken
    simp only [State.evTaken, State.bumpWin_win, State.eventPacket_win]
  case line =>
    obtain ⟨hv, h8⟩ := h
    dsimp only [exec, execEventResend]
    rw [hv]
    exact congrArg Host.Outcome.next (if_pos h8)
  case notLate =>
    dsimp only [exec, execEventResend]
    rw [h]

/-! ### The vote of a field (R571, R681) -/

section
variable {s : State} {f : VotedField} {a b c : Nat}

/-- Three equal copies leave the field at the value that they have. -/
theorem State.vote_equal : s.vote f a a a = if a = s.votedVal f then s else s.setVoted f a := by
  simp only [State.vote, ne_eq, not_true_eq_false, if_false, if_true, and_self]

/-- The state in which a copy was outvoted: counted, its register recorded, VOTE_1 raised. -/
def State.outvoted (s : State) (f : VotedField) : State :=
  ((s.bump 0x0A0A88 16 16 1).onBlk fun b => { b with voteLast := votedOff f }).raise (srcPwr 5) (256 + 681) (votedOff f) 0 0

/-- Two copies that agree outvote the third, whichever it is. -/
theorem State.vote_outvoted (hab : a ≠ b) {c0 c1 c2 : Nat} (h : (c0 = b ∧ c1 = a ∧ c2 = a) ∨ (c0 = a ∧ c1 = b ∧ c2 = a) ∨ (c0 = a ∧ c1 = a ∧ c2 = b)) :
    s.vote f c0 c1 c2 = if a = (s.outvoted f).votedVal f then s.outvoted f else (s.outvoted f).setVoted f a := by
  have hagree : ¬(c0 ≠ c1 ∧ c0 ≠ c2 ∧ c1 ≠ c2) := by omega
  have hsingle : ¬(c0 = c1 ∧ c1 = c2) := by omega
  have hvalue : (if c0 = c1 then c0 else c2) = a := by split <;> omega
  unfold State.vote
  rw [if_neg hagree]
  dsimp only
  rw [hvalue, if_neg hsingle]
  rfl

/-- Three copies that all differ only raise VOTE_2. -/
theorem State.vote_differ (hab : a ≠ b) (hac : a ≠ c) (hbc : b ≠ c) : s.vote f a b c = s.raise (srcPwr 6) (256 + 681) (votedOff f) 0 0 :=
  if_pos ⟨hab, hac, hbc⟩
end

/-! ### Duties beside classification -/

/-- Raising an event leaves the boot selector in force (R657). -/
theorem State.raise_selector (s : State) (src kind line part unit : Nat) : (s.raise src kind line part unit).selector = s.selector := by
  simp only [State.selector, State.raise_pwr]

/-- Settles O38: each duty by the test that it makes; the vote by which of the copies agree. -/
theorem winnowDutiesBesideClassification : Obligations.WinnowDutiesBesideClassification := by
  unfold Obligations.WinnowDutiesBesideClassification
  refine ⟨fun recno t s h => ?noShadow, fun recno x t s h => ?shadowOver, fun recno x t s h => ?shadowOn,
    fun t s h => congrArg Host.Outcome.next (if_pos h), fun t s h => ?aliveNot, fun f a b c t s h => ?equal, fun f a b k t s h => ?outvoted,
    fun f a b c t s h => ?differ, fun t s h => congrArg Host.Outcome.next (if_neg (ne_true_of_eq_false h)), fun t s h => congrArg Host.Outcome.next (if_pos h),
    fun v t s h => ?inject, fun v t s h => ?injectNot, fun v t s h => ?injectIgnored, fun t s h => ?watchdogNone, fun x t s h => ?watchdog⟩
  case noShadow =>
    dsimp only [exec, execShadowEnd]
    rw [h]
  case shadowOver =>
    obtain ⟨hx, hover⟩ := h
    dsimp only [exec, execShadowEnd]
    rw [hx]
    exact congrArg Host.Outcome.next (if_pos hover)
  case shadowOn =>
    obtain ⟨hx, hon⟩ := h
    dsimp only [exec, execShadowEnd]
    rw [hx]
    exact congrArg Host.Outcome.next (if_neg (ne_true_of_eq_false hon))
  case aliveNot =>
    refine congrArg Host.Outcome.next (if_neg fun ⟨hrun, hwhole⟩ => ?_)
    rcases h with hstill | hpart
    · exact ne_true_of_eq_false hstill hrun
    · exact hpart hwhole
  case equal =>
    obtain ⟨hab, hbc⟩ := h
    refine congrArg Host.Outcome.next (Eq.trans ?_ State.vote_equal)
    rw [← hbc, ← hab]
  case outvoted =>
    refine congrArg Host.Outcome.next (State.vote_outvoted h ?_)
    match k with
    | 0 => exact .inl ⟨rfl, rfl, rfl⟩
    | 1 => exact .inr (.inl ⟨rfl, rfl, rfl⟩)
    | 2 => exact .inr (.inr ⟨rfl, rfl, rfl⟩)
  case differ =>
    obtain ⟨hab, hac, hbc⟩ := h
    exact congrArg Host.Outcome.next (State.vote_differ hab hac hbc)
  case inject =>
    obtain ⟨hmode, hsafe⟩ := h
    exact congrArg Host.Outcome.next ((if_neg (by rw [hmode]; decide)).trans (if_neg (ne_true_of_eq_false hsafe)))
  case injectNot => exact congrArg Host.Outcome.next (if_pos (by rw [h]; rfl))
  case injectIgnored =>
    obtain ⟨hmode, hsafe⟩ := h
    exact congrArg Host.Outcome.next ((if_neg (by rw [hmode]; decide)).trans (if_pos hsafe))
  case watchdogNone =>
    dsimp only [exec, execAlidadeWatchdog]
    rw [State.raise_selector, h]
    rfl
  case watchdog =>
    dsimp only [exec, execAlidadeWatchdog]
    rw [State.raise_selector, h]
    rfl

end Sys2Proof.Machine
end

section
/-! SUPPORT. Rails and the margin, the service button, the power-fail sequence, flash descriptors and the programming of the OTP
(R573 to R619, R657 to R659). -/

namespace Sys2Proof.Machine

/-! ### Rails and the margin (R589, R592, R619) -/

/-- A margin of 5 bits is read as two's complement and held to −8 to 8 (R619). -/
theorem marginOf_eq {v : Nat} (h : v < 32) : marginOf v = (if v < 16 then (min 8 v : Int) else max (-8) (v - 32)) := by
  have hfield : fieldN v 0 5 = v := Nat.mod_eq_of_lt h
  unfold marginOf
  rw [hfield]
  dsimp only
  split
  all_goals omega

/-- A write of the margin register outside the fail-safe state sets TARGET (R592). -/
theorem State.regWrite_margin {s : State} (o v : Nat) (h : s.win.failsafe = false) :
    s.regWrite .margin o v = s.onPwr fun p => { p with target := marginOf v } := by
  refine if_neg ?_
  rw [h]
  exact Bool.false_ne_true

/-- Settles O42: a rail fault by whether the rails are up and READY_OFF is set, a margin step by the side of its target on which CURRENT is. -/
theorem railFaultAndMarginSteps : Obligations.RailFaultAndMarginSteps := by
  unfold Obligations.RailFaultAndMarginSteps
  refine ⟨fun r t s h => ?fault, fun r t s h => ?faultOff, fun r t s h => ?noFault,
    fun v t s h => congrArg Host.Outcome.next (State.regWrite_margin _ _ h), fun v => marginOf_eq, fun t s h => ?up, fun t s h => ?down,
    fun t s h => congrArg Host.Outcome.next (if_pos h)⟩
  case fault =>
    obtain ⟨hup, hready, hotp⟩ := h
    refine congrArg Host.Outcome.next ((if_neg ?_).trans (if_neg (ne_true_of_eq_false hready)))
    rintro (hdown | ⟨hr, hjob⟩)
    · rw [hup] at hdown; exact nomatch hdown
    · rw [Option.isNone_iff_eq_none.mp hjob] at hotp; exact nomatch hotp hr
  case faultOff =>
    obtain ⟨hup, hready, hr⟩ := h
    refine congrArg Host.Outcome.next ((if_neg ?_).trans (if_pos hready))
    rintro (hdown | hotp)
    · rw [hup] at hdown; exact nomatch hdown
    · exact hr hotp.1
  case noFault =>
    refine congrArg Host.Outcome.next (if_pos ?_)
    exact h.imp (Bool.not_eq_true' _).mpr (And.imp_right Option.isNone_iff_eq_none.mpr)
  case up =>
    refine congrArg Host.Outcome.next ((if_neg (Int.ne_of_lt h)).trans ?_)
    dsimp only
    rw [if_pos h, if_pos h]
  case down =>
    refine congrArg Host.Outcome.next ((if_neg (Int.ne_of_gt h)).trans ?_)
    dsimp only
    rw [if_neg (Int.not_lt.mpr h.le), if_neg (Int.not_lt.mpr h.le)]

/-! ### The service button (R595, R596, R598) -/

/-- Settles O43: a press by the range of its length, FORCED_OFF by whether a stop can begin, the end of the window by its time. -/
theorem serviceButtonPressActsByItsLength : Obligations.ServiceButtonPressActsByItsLength := by
  unfold Obligations.ServiceButtonPressActsByItsLength
  refine ⟨fun d t s h => congrArg Host.Outcome.next (if_pos h), fun d t s h => ?opens, fun d t s h => ?long, fun d t s h => ?acted,
    fun t s h => ?stops, fun t s h => ?noStop, fun e t s h => ?expires, fun t s h => ?stays⟩
  case opens =>
    obtain ⟨hmin, hmax⟩ := h
    exact congrArg Host.Outcome.next ((if_neg (Nat.not_lt.mpr hmin)).trans (if_pos hmax))
  case long =>
    obtain ⟨hmin, hmax⟩ := h
    have hshort : 50000000 ≤ d := Nat.le_trans (by decide) (Nat.le_of_lt hmin)
    exact congrArg Host.Outcome.next ((if_neg (Nat.not_lt.mpr hshort)).trans ((if_neg (Nat.not_le.mpr hmin)).trans (if_pos hmax)))
  case acted =>
    have hshort : 50000000 ≤ d := Nat.le_trans (by decide) h
    have hopen : 2000000000 < d := Nat.le_trans (by decide) h
    exact congrArg Host.Outcome.next ((if_neg (Nat.not_lt.mpr hshort)).trans ((if_neg (Nat.not_le.mpr hopen)).trans (if_neg (Nat.not_lt.mpr h))))
  case stops =>
    obtain ⟨hfail, hstopping, hready, hup⟩ := h
    refine congrArg Host.Outcome.next (if_neg ?_)
    rw [State.raise_pwr, State.bumpPwr_pwr, hfail, hstopping, hready, hup]
    decide
  case noStop =>
    refine congrArg Host.Outcome.next (if_pos ?_)
    rw [State.raise_pwr, State.bumpPwr_pwr, Bool.not_eq_true']
    exact h
  case expires =>
    obtain ⟨he, hend⟩ := h
    refine congrArg Host.Outcome.next (if_pos ?_)
    rw [he]
    exact decide_eq_true hend
  case stays =>
    refine congrArg Host.Outcome.next (if_neg fun hany => ?_)
    obtain ⟨e, he, hend⟩ := (Option.any_eq_true ..).mp hany
    exact absurd (of_decide_eq_true hend) (Nat.not_le.mpr (h e he))

/-! ### The power-fail sequence (R599 to R605) -/

/-- Where no failure is in progress, the block has not halted and the rails are up, a warning begins one. -/
theorem powerFail_begins {p : Pwr} (hfail : p.fail = none) (hst : p.st ≠ .halt) (hup : p.railsUp = true) :
    ¬(p.fail.isSome = true ∨ p.st = .halt ∨ (!p.railsUp) = true) := by
  rw [hfail, hup]
  exact not_or.mpr ⟨nofun, not_or.mpr ⟨hst, nofun⟩⟩

/-- Settles O44: a warning by whether a failure can begin and how far start-up has come, the end of the drain by whether anything is left and
whether the failure came early, the end of the record by whether there is one. -/
theorem powerFailureRunsToHalt : Obligations.PowerFailureRunsToHalt := by
  unfold Obligations.PowerFailureRunsToHalt
  refine ⟨fun t s h => ?late, fun t s h => ?early, fun t s h => ?shown, fun t s _ => rfl, fun f t s h => ?drained, fun f t s h => ?drainedEarly,
    fun f t s h => ?left, fun t s h => ?noFailure, fun k r t s h => ?written, fun t s h => ?noRecord⟩
  case late =>
    obtain ⟨hfail, hst, hup, hstep⟩ := h
    exact congrArg Host.Outcome.next ((if_neg (powerFail_begins hfail hst hup)).trans (if_neg (Nat.not_lt.mpr hstep)))
  case early =>
    obtain ⟨hfail, hst, hup, hstep⟩ := h
    exact congrArg Host.Outcome.next ((if_neg (powerFail_begins hfail hst hup)).trans (if_pos hstep))
  case shown => exact congrArg Host.Outcome.next (if_pos (h.imp_right (Or.imp_right (Bool.not_eq_true' _).mpr)))
  case drained | drainedEarly =>
    obtain ⟨hf, hdrained, hst, hleft, hearly⟩ := h
    dsimp only [exec, execPowerFailDrainDone]
    rw [hf]
    dsimp only
    rw [hdrained, hleft, hearly, if_neg (not_or.mpr ⟨nofun, not_or.mpr ⟨hst, nofun⟩⟩)]
    rfl
  case left =>
    obtain ⟨hf, hleft⟩ := h
    dsimp only [exec, execPowerFailDrainDone]
    rw [hf]
    exact congrArg Host.Outcome.next (if_pos hleft)
  case noFailure =>
    dsimp only [exec, execPowerFailDrainDone]
    rw [h]
  case written =>
    obtain ⟨hr, hst⟩ := h
    dsimp only [exec, execLastGaspDone]
    rw [hr]
    exact congrArg Host.Outcome.next (if_neg hst)
  case noRecord =>
    dsimp only [exec, execLastGaspDone]
    rw [h]

/-! ### Flash descriptors (R657 to R659) -/

/-- The result of a descriptor leaves the command that writes flash. -/
theorem State.flashMark_flashJob (s : State) (i : Nat) (d : FlashDesc) (status : Nat) : (s.flashMark i d status).pwr.flashJob = s.pwr.flashJob := by
  unfold State.flashMark
  split
  · rfl
  · rw [State.raise_pwr, State.onPwr_pwr]

section
variable {t : Ns} {s : State} {i : Fin 64} {v : Byte} {d : FlashDesc} {j : FlashJob}

/-- A descriptor for which no command waits takes its result, and nothing more. -/
theorem flashDescriptorDone_alone (hd : Tbl.find (s.tick t).pwr.flash i.val = some d) (hopen : d.status = 0) (hv : v ≠ 0)
    (hj : (s.tick t).pwr.flashJob = none ∨ ∃ j, (s.tick t).pwr.flashJob = some j ∧ j.cur ≠ some i.val) :
    exec (.flashDescriptorDone t i v) s = .next ((s.tick t).flashMark i.val d v.toNat) := by
  dsimp only [exec, execFlashDescriptorDone]
  rw [hd]
  refine congrArg Host.Outcome.next ((if_neg (not_or.mpr ⟨not_not.mpr hopen, hv⟩)).trans ?_)
  rw [State.flashMark_flashJob]
  rcases hj with hnone | ⟨j, hj, hcur⟩
  · rw [hnone]
  · rw [hj]
    exact if_pos hcur

/-- The descriptor for which its command waits takes its result, and the command goes on by it. -/
theorem flashDescriptorDone_awaited {u : State} (hd : Tbl.find (s.tick t).pwr.flash i.val = some d) (hopen : d.status = 0) (hv : v ≠ 0)
    (hj : (s.tick t).pwr.flashJob = some j) (hcur : j.cur = some i.val) (hu : (s.tick t).flashMark i.val d v.toNat = u) :
    exec (.flashDescriptorDone t i v) s = .next
      (if v ≠ 1 then (u.onPwr fun p => { p with flashJob := some { j with bad := true, cur := none, todo := [] } }).flashOver j.mb 6
      else if (!j.todo.isEmpty) = true then u.flashNext j else ((u.flashNext j).flashGain j.goal).flashOver j.mb 0) := by
  subst hu
  dsimp only [exec, execFlashDescriptorDone]
  rw [hd]
  refine congrArg Host.Outcome.next ((if_neg (not_or.mpr ⟨not_not.mpr hopen, hv⟩)).trans ?_)
  rw [State.flashMark_flashJob, hj]
  exact if_neg (not_not.mpr hcur)
end

/-! ### The programming of the OTP (R616) -/

/-- The rail rises for a command whose group has a free slot: the slot is written and verified, and the command completes. -/
theorem otpGoodRise_programs {t : Ns} {x : BitVec 16384} {s : State} {j : OtpJob} {k : Nat} (hj : (s.tick t).pwr.otpJob = some j)
    (hk : otpNext (s.tick t).pwr.otp j.group = some k) {r : Bool × State}
    (hr : ((s.tick t).onPwr fun q => { q with railOtp := true }).otpWrite j.group k j.payload x = r) {u : State}
    (hu : (r.2.onPwr fun q => { q with otpJob := none, grant := q.grant && j.group != 4, railOtp := false }).send (.supervisor 2) = u) :
    exec (.otpGoodRise t x) s = .next
      (if r.1 = true then
        u.mbxDone j.mb 0 (if j.group = 5 then [] else if j.group = 0 then [BitVec.ofNat 8 k, BitVec.ofNat 8 (repairRecs j.payload).length] else [BitVec.ofNat 8 k]) 0xFFFFFFFF
      else (if j.group = 4 then u.send (.flashDirect j.payload ((u.otpUse 4).getD 0)) else u).mbxDone j.mb 5 [] 0xFFFFFFFF) := by
  subst hr hu
  dsimp only [exec, execOtpGoodRise, State.onPwr_pwr]
  rw [hj]
  dsimp only
  rw [hk]

/-- Settles O45: the end of a descriptor by whether it is open, whether a command waits for it, and its result; the rise of the OTP rail by
whether a command programs a slot, whether its group has one free, and whether the slot verifies. -/
theorem flashDescriptorsAndOtpRowsComplete : Obligations.FlashDescriptorsAndOtpRowsComplete := by
  unfold Obligations.FlashDescriptorsAndOtpRowsComplete
  refine ⟨fun i v t s h => ?absent, fun i v d t s h => ?closed, fun i v d t s h => ?alone, fun i d j t s h => ?next, fun i d j t s h => ?last,
    fun i v d j t s h => ?error, fun x t s h => ?railOnly, fun x j k t s h => ?verified, fun x j k t s h => ?unverified, fun x j t s h => ?noSlot⟩
  case absent =>
    dsimp only [exec, execFlashDescriptorDone]
    rw [h]
  case closed =>
    obtain ⟨hd, hclosed⟩ := h
    dsimp only [exec, execFlashDescriptorDone]
    rw [hd]
    exact congrArg Host.Outcome.next (if_pos hclosed)
  case alone =>
    obtain ⟨hd, hopen, hv, hj⟩ := h
    exact flashDescriptorDone_alone hd hopen hv hj
  case next =>
    obtain ⟨hd, hopen, hj, hcur, hmore⟩ := h
    refine (flashDescriptorDone_awaited hd hopen (by decide) hj hcur rfl).trans (congrArg Host.Outcome.next ((if_neg (by decide)).trans (if_pos ?_)))
    rw [List.isEmpty_eq_false_iff.mpr hmore]
    rfl
  case last =>
    obtain ⟨hd, hopen, hj, hcur, hnone⟩ := h
    refine (flashDescriptorDone_awaited hd hopen (by decide) hj hcur rfl).trans (congrArg Host.Outcome.next ((if_neg (by decide)).trans (if_neg ?_)))
    rw [hnone]
    decide
  case error =>
    obtain ⟨hd, hopen, hv, hbad, hj, hcur⟩ := h
    exact (flashDescriptorDone_awaited hd hopen hv hj hcur rfl).trans (congrArg Host.Outcome.next (if_pos hbad))
  case railOnly =>
    dsimp only [exec, execOtpGoodRise, State.onPwr_pwr]
    rw [h]
  case verified =>
    obtain ⟨hj, hk, hok⟩ := h
    exact (otpGoodRise_programs hj hk rfl rfl).trans (congrArg Host.Outcome.next (if_pos hok))
  case unverified =>
    obtain ⟨hj, hk, hnot, hgroup⟩ := h
    refine (otpGoodRise_programs hj hk rfl rfl).trans (congrArg Host.Outcome.next ((if_neg (ne_true_of_eq_false hnot)).trans ?_))
    rw [if_neg hgroup]
  case noSlot =>
    obtain ⟨hj, hk⟩ := h
    dsimp only [exec, execOtpGoodRise, State.onPwr_pwr]
    rw [hj]
    dsimp only
    rw [hk]
    rfl

end Sys2Proof.Machine
end

section
/-! SUPPORT. Commands of the mailboxes that their own rules do not reach: Alidade serves no mailbox, a stranger's, a second one, one that fails a
common check (R623, R626, R629, R633, R635, R636, R639). -/

namespace Sys2Proof.Machine

/-- What the shared command operation does, whatever the command's own rules, is what every command of the mailboxes does. -/
theorem mailbox_does {i : Instr} {t : Ns} {c : Mbx} {op : Nat} {k : CmdKind} {s u : State} (hi : i.mailbox = some (t, c, op, k))
    (hu : ∀ body, (s.tick t).command c op k body = u) : exec i s = .next u := by
  obtain ⟨body, hbody⟩ := mailbox_exec hi
  exact (hbody s).trans (congrArg Host.Outcome.next (hu body))

/-! ### The common checks, in the order in which they are made (log 12) -/

/-- A need that a command does not have, or that is met. -/
theorem need_met : ∀ {need met : Bool}, need = false ∨ met = true → ¬(need = true ∧ (!met) = true) := by decide

section
variable {s : State} {c : Mbx} {k : CmdKind}

/-- Outside the fail-safe state no command is refused for it (R574). -/
theorem issue_safe {q : Prop} (hsafe : s.win.failsafe = false) : ¬(s.win.failsafe = true ∧ q) := fun h => ne_true_of_eq_false hsafe h.1

/-- The mailbox may issue the command (R623, R636). -/
theorem issue_allowed (hbox : 64 ≤ c.mb.val ∨ k.a = true) (hserv : k.service = false ∨ c.mb.val = 65) :
    ¬((c.mb.val < 64 ∧ (!k.a) = true) ∨ (k.service = true ∧ c.mb.val ≠ 65)) := by
  rintro (⟨hpart, ha⟩ | ⟨hneed, h65⟩)
  · rcases hbox with h64 | hok
    · exact Nat.not_le.mpr hpart h64
    · rw [hok] at ha
      exact nomatch ha
  · exact hserv.elim (fun hno => ne_true_of_eq_false hno hneed) h65

/-- A command of the OTP finds no partition ENABLED (R635). -/
theorem issue_stopped (h : k.otp = false ∨ s.anyEnabled = false) : ¬(k.otp = true ∧ s.anyEnabled = true) := by
  rintro ⟨hotp, hen⟩
  exact h.elim (fun hno => ne_true_of_eq_false hno hotp) fun hno => ne_true_of_eq_false hno hen

/-- The input has a length that the command takes (R635). -/
theorem issue_length {n lo hi : Nat} (h : lo ≤ n ∧ n ≤ hi) : ¬(n < lo ∨ hi < n) := not_or.mpr ⟨Nat.not_lt.mpr h.1, Nat.not_lt.mpr h.2⟩
end

/-- Settles O60: a command by the first thing that meets it; the common check by the first of its tests that fails. -/
theorem mailboxCommandsThatAreNotServed : Obligations.MailboxCommandsThatAreNotServed := by
  unfold Obligations.MailboxCommandsThatAreNotServed
  refine ⟨fun i t c op k s hi hdown => mailbox_does hi fun _ => State.command_down hdown,
    fun i t c op k s hi ⟨hup, hpart, hno⟩ => mailbox_does hi fun _ => State.command_alien hup hpart hno,
    fun i t c op k s hi ⟨hup, hmay, h64, hbusy⟩ => mailbox_does hi fun _ => State.command_busy hup hmay hbusy h64,
    fun i t c op k s hi ⟨hup, h64, hbusy⟩ => mailbox_does hi fun _ => State.command_managed hup h64 hbusy,
    fun i t c op k s st d hi ⟨hup, hmay, hfree, hfail⟩ => mailbox_does hi fun _ => State.command_refused hup hmay hfree hfail,
    fun s c k => ⟨fun ⟨hsafe, h⟩ => ?failsafe, fun hsafe h => ?mailbox, fun hsafe ⟨hbox, hserv⟩ => ?issued⟩⟩
  case failsafe => exact if_pos ⟨hsafe, h.imp_right (Bool.not_eq_true' _).mpr⟩
  case mailbox =>
    exact (if_neg fun hfail => ne_true_of_eq_false hsafe hfail.1).trans (if_pos (h.imp_left (And.imp_right (Bool.not_eq_true' _).mpr)))
  case issued =>
    have hsafe' {q : Prop} : ¬(s.win.failsafe = true ∧ q) := issue_safe hsafe
    have hallowed := issue_allowed hbox hserv
    refine ⟨fun hno => ?needs, fun ⟨hpres, hseal⟩ => ?met⟩
    case needs =>
      have hfails := hno.imp (And.imp_right (Bool.not_eq_true' _).mpr) (And.imp_right (Bool.not_eq_true' _).mpr)
      exact (if_neg hsafe').trans <| (if_neg hallowed).trans (if_pos hfails)
    case met =>
      have hneeds := not_or.mpr ⟨need_met hpres, need_met hseal⟩
      refine ⟨fun hen => ?enabled, fun hoff => ⟨fun hlen => ?length, fun hlen j hj => ?reserved, fun hlen hzero j hj => ⟨fun hbig => ?noPart, fun hother => ?otherPart⟩⟩⟩
      case enabled => exact (if_neg hsafe').trans <| (if_neg hallowed).trans <| (if_neg hneeds).trans (if_pos hen)
      all_goals have hstopped := issue_stopped hoff
      case length => exact (if_neg hsafe').trans <| (if_neg hallowed).trans <| (if_neg hneeds).trans <| (if_neg hstopped).trans (if_pos hlen)
      all_goals refine (if_neg hsafe').trans <| (if_neg hallowed).trans <| (if_neg hneeds).trans <| (if_neg hstopped).trans <| (if_neg (issue_length hlen)).trans ?_
      case reserved => rw [hj]
      all_goals
        rw [hzero]
        dsimp only
        rw [hj]
      case noPart => exact if_pos hbig
      case otherPart =>
        obtain ⟨hin, hhost, hne⟩ := hother
        exact (if_neg (Nat.not_lt.mpr hin)).trans (if_pos ⟨hhost, hne⟩)

end Sys2Proof.Machine
end
